-- ==== Sys2Proof/Word.lean ====
section
/-! DEFINITION. The words of the machine: bytes, the 32-bit register word (R6), the 64-bit engine word and the 72-bit line
position with its 8-bit fraction (R66, R82). -/

namespace Sys2Proof

/-- One byte. -/
abbrev Byte := BitVec 8

/-- One register of a BAR0 page (R6). -/
abbrev Word := BitVec 32

/-- One general register of an engine. -/
abbrev Word64 := BitVec 64

/-- A line position: 64 integer bits and 8 fraction bits, in 1/256 symbol (R66). -/
abbrev LP := BitVec 72

/-- A half of the device: 0 North, 1 South (R2). -/
abbrev Half := Fin 2

end Sys2Proof
end

