-- ==== Sys2Proof/Machine/Fields.lean ====
section
/-! DEFINITION. The named register fields of every page, written from the register tables of the chapters
(02 to 24): each is the byte offset of its register in its page, its lowest bit and its width. -/

namespace Sys2Proof.Machine

/-- A field of a register page: the byte offset of the register, the lowest bit, the width. -/
structure Fld where
  off : Nat
  lo : Nat
  wd : Nat
  deriving DecidableEq, Repr

namespace F

/-- The error counter `k` of the common header (R474). -/
def ERRCNT (k : Nat) : Fld := ⟨0x020 + 4 * k, 0, 32⟩
/-- INT_PEND of the common header (R474). -/
def INT_PEND : Fld := ⟨0x010, 0, 32⟩
def INT_EN : Fld := ⟨0x014, 0, 32⟩
def ERR_FIRST_CODE : Fld := ⟨0x01C, 0, 16⟩
def ERR_FIRST_IDX : Fld := ⟨0x01C, 16, 3⟩
def SEQ : Fld := ⟨0x040, 0, 32⟩
def IRQ_ROUTE_VEC : Fld := ⟨0x044, 0, 6⟩
def IRQ_ROUTE_MSI_EN : Fld := ⟨0x044, 6, 1⟩
def IRQ_ROUTE_GROUP : Fld := ⟨0x044, 8, 5⟩
def IRQ_ROUTE_CORES : Fld := ⟨0x044, 16, 4⟩

/-! DEV page -/

def DEV_MODE_MODE : Fld := ⟨0x100, 0, 4⟩
def DEV_MODE_PREV : Fld := ⟨0x100, 4, 4⟩
def DEV_MODE_TRANS : Fld := ⟨0x100, 8, 1⟩
def DEV_MODE_PASS : Fld := ⟨0x100, 9, 1⟩
def DEV_MODE_SAFE_CAUSE : Fld := ⟨0x100, 10, 3⟩
def DEV_MODE_OTHER : Fld := ⟨0x100, 13, 4⟩
def DEV_MODE_SPLIT : Fld := ⟨0x100, 17, 1⟩
def DEV_MODE_REQ_TARGET : Fld := ⟨0x104, 0, 4⟩
def DEV_MODE_REQ_GO : Fld := ⟨0x104, 31, 1⟩
def DEV_SAFE_POLICY : Fld := ⟨0x108, 0, 1⟩
def DEV_CFG_LOCK_LOCK : Fld := ⟨0x10C, 0, 1⟩
def DEV_OCM_CORR (m : Nat) : Fld := ⟨0x180 + 8 * m, 0, 32⟩
def DEV_OCM_UNC (m : Nat) : Fld := ⟨0x184 + 8 * m, 0, 32⟩
def DEV_RO_EN (i : Nat) : Fld := ⟨0x400 + 4 * i, 0, 1⟩
def DEV_RO_FSEL (i : Nat) : Fld := ⟨0x400 + 4 * i, 1, 4⟩
def DEV_RO_DONE (i : Nat) : Fld := ⟨0x400 + 4 * i, 5, 1⟩
def DEV_RO_COUNT (i : Nat) : Fld := ⟨0x400 + 4 * i, 16, 15⟩
def DEV_RO_START (i : Nat) : Fld := ⟨0x400 + 4 * i, 31, 1⟩
def DEV_FLASH_CMD_OP : Fld := ⟨0x440, 0, 2⟩
def DEV_FLASH_CMD_STATUS : Fld := ⟨0x440, 4, 2⟩
def DEV_FLASH_ADDR_ADDR : Fld := ⟨0x444, 0, 25⟩
def DEV_FLASH_WP_WP : Fld := ⟨0x448, 0, 16⟩
def DEV_SP_CTRL_OWNER (p : Nat) : Fld := ⟨0x460 + 16 * p, 0, 1⟩
def DEV_SP_CTRL_EN (p : Nat) : Fld := ⟨0x460 + 16 * p, 1, 1⟩
def DEV_SP_CTRL_MODE (p : Nat) : Fld := ⟨0x460 + 16 * p, 2, 2⟩
def DEV_SP_CTRL_SEL (p : Nat) : Fld := ⟨0x460 + 16 * p, 4, 2⟩
def DEV_SP_CTRL_DIV (p : Nat) : Fld := ⟨0x460 + 16 * p, 16, 16⟩
def DEV_SP_STAT_RXN (p : Nat) : Fld := ⟨0x464 + 16 * p, 0, 7⟩
def DEV_SP_STAT_TXN (p : Nat) : Fld := ⟨0x464 + 16 * p, 8, 7⟩
def DEV_SP_STAT_BUSY (p : Nat) : Fld := ⟨0x464 + 16 * p, 15, 1⟩
def DEV_SP_STAT_NACK (p : Nat) : Fld := ⟨0x464 + 16 * p, 16, 1⟩
def DEV_SP_STAT_ARB (p : Nat) : Fld := ⟨0x464 + 16 * p, 17, 1⟩
def DEV_SP_TX_DATA (p : Nat) : Fld := ⟨0x468 + 16 * p, 0, 8⟩
def DEV_SP_TX_CMD (p : Nat) : Fld := ⟨0x468 + 16 * p, 8, 2⟩
def DEV_SP_TX_START (p : Nat) : Fld := ⟨0x468 + 16 * p, 10, 1⟩
def DEV_SP_RX_HEAD (p : Nat) : Fld := ⟨0x46C + 16 * p, 0, 8⟩
def DEV_SP_RX_VALID (p : Nat) : Fld := ⟨0x46C + 16 * p, 8, 1⟩
def DEV_FLASH_BUF (j : Nat) : Fld := ⟨0x500 + 4 * j, 0, 32⟩

/-! PMC page -/

def PMC_CTRL_SPINE_SLEEP : Fld := ⟨0x8, 0, 1⟩
def PMC_CTRL_SPEED : Fld := ⟨0x8, 1, 2⟩
def PMC_STAT_THERM_LIVE : Fld := ⟨0xC, 0, 1⟩
def PMC_STAT_SUPPLY_LIVE : Fld := ⟨0xC, 1, 1⟩
def PMC_STAT_STEWARD_LIVE : Fld := ⟨0xC, 2, 1⟩
def PMC_STAT_MON_OK : Fld := ⟨0xC, 3, 8⟩
def PMC_DOM_CMD_DOM : Fld := ⟨0x100, 0, 6⟩
def PMC_DOM_CMD_OP : Fld := ⟨0x100, 8, 2⟩
def PMC_DOM_CMD_STATUS : Fld := ⟨0x100, 12, 2⟩
def PMC_RAMP_STEP_MV : Fld := ⟨0x104, 0, 8⟩
def PMC_RAMP_SETTLE_US : Fld := ⟨0x104, 8, 16⟩
def PMC_RAMP_TOL_MV : Fld := ⟨0x104, 24, 8⟩
def PMC_POLL_US_US : Fld := ⟨0x108, 0, 16⟩
def PMC_DOM_STATE (j : Nat) : Fld := ⟨0x110 + 4 * j, 0, 32⟩
def PMC_DOM_BYDEV_LO : Fld := ⟨0x120, 0, 32⟩
def PMC_DOM_BYDEV_HI : Fld := ⟨0x124, 0, 32⟩
def PMC_DOM_FORCED_LO : Fld := ⟨0x128, 0, 32⟩
def PMC_DOM_FORCED_HI : Fld := ⟨0x12C, 0, 32⟩
def PMC_CLOSE_CNT : Fld := ⟨0x130, 0, 32⟩
def PMC_CANCEL_CNT : Fld := ⟨0x134, 0, 32⟩
def PMC_RAIL_CFG_ADDR (r : Nat) : Fld := ⟨0x200 + 16 * r, 0, 7⟩
def PMC_RAIL_CFG_PAGE (r : Nat) : Fld := ⟨0x200 + 16 * r, 7, 8⟩
def PMC_RAIL_CFG_EN (r : Nat) : Fld := ⟨0x200 + 16 * r, 15, 1⟩
def PMC_RAIL_CFG_CRITICAL (r : Nat) : Fld := ⟨0x200 + 16 * r, 16, 1⟩
def PMC_RAIL_CFG_DRAM (r : Nat) : Fld := ⟨0x200 + 16 * r, 17, 1⟩
def PMC_RAIL_CFG_RAMPING (r : Nat) : Fld := ⟨0x200 + 16 * r, 18, 1⟩
def PMC_RAIL_CFG_RAMP_ERR (r : Nat) : Fld := ⟨0x200 + 16 * r, 19, 1⟩
def PMC_RAIL_LIMIT_MIN_MV (r : Nat) : Fld := ⟨0x204 + 16 * r, 0, 16⟩
def PMC_RAIL_LIMIT_MAX_MV (r : Nat) : Fld := ⟨0x204 + 16 * r, 16, 16⟩
def PMC_RAIL_TARGET_MV (r : Nat) : Fld := ⟨0x208 + 16 * r, 0, 16⟩
def PMC_RAIL_MEAS_VOUT_MV (r : Nat) : Fld := ⟨0x20C + 16 * r, 0, 16⟩
def PMC_RAIL_MEAS_IOUT (r : Nat) : Fld := ⟨0x20C + 16 * r, 16, 16⟩

/-! THERM page -/

def THERM_STAT_WARN : Fld := ⟨0xC, 0, 12⟩
def THERM_STAT_TRIP : Fld := ⟨0xC, 12, 12⟩
def THERM_STAT_DRAM_OVER : Fld := ⟨0xC, 24, 1⟩
def THERM_BAY_TEMP (b : Nat) : Fld := ⟨0x100 + 4 * b, 0, 16⟩
def THERM_BAY_VALID (b : Nat) : Fld := ⟨0x100 + 4 * b, 16, 1⟩
def THERM_MAX_TEMP (b : Nat) : Fld := ⟨0x140 + 4 * b, 0, 16⟩
def THERM_HIGHEST_TEMP : Fld := ⟨0x180, 0, 16⟩
def THERM_HIGHEST_BAY : Fld := ⟨0x180, 16, 4⟩

/-! CFG page -/

def CFG_CTRL_OSPI_GO : Fld := ⟨0x8, 0, 1⟩
def CFG_CTRL_HOST_GO : Fld := ⟨0x8, 1, 1⟩
def CFG_CTRL_ABORT : Fld := ⟨0x8, 2, 1⟩
def CFG_STAT_PORT : Fld := ⟨0xC, 0, 2⟩
def CFG_STAT_LOADING : Fld := ⟨0xC, 2, 1⟩
def CFG_STAT_WIPING : Fld := ⟨0xC, 3, 1⟩
def CFG_STAT_DONE_PIN : Fld := ⟨0xC, 4, 1⟩
def CFG_STAT_ERR_PIN : Fld := ⟨0xC, 5, 1⟩
def CFG_STAT_AUTO : Fld := ⟨0xC, 6, 1⟩
def CFG_TIMEOUT : Fld := ⟨0x100, 0, 32⟩
def CFG_OSPI_ADDR : Fld := ⟨0x104, 0, 32⟩
def CFG_HOST_ADDR_LO : Fld := ⟨0x108, 0, 32⟩
def CFG_HOST_ADDR_HI : Fld := ⟨0x10C, 0, 32⟩
def CFG_HOST_LEN : Fld := ⟨0x110, 0, 32⟩
def CFG_FRAMES : Fld := ⟨0x114, 0, 32⟩
def CFG_BLOCKS : Fld := ⟨0x118, 0, 32⟩
def CFG_FAIL_BLOCK : Fld := ⟨0x11C, 0, 32⟩
def CFG_HDR_KEY_SLOT : Fld := ⟨0x120, 0, 4⟩
def CFG_HDR_REV : Fld := ⟨0x120, 4, 8⟩
def CFG_HDR_LOCK : Fld := ⟨0x120, 12, 1⟩
def CFG_HDR_PARTIAL : Fld := ⟨0x120, 13, 1⟩
def CFG_DESIGN (j : Nat) : Fld := ⟨0x124 + 4 * j, 0, 32⟩
def CFG_FUSE_SEL_SLOT : Fld := ⟨0x140, 0, 4⟩
def CFG_FUSE_SEL_USE_CFG : Fld := ⟨0x140, 4, 1⟩
def CFG_FUSE_SEL_USE_DATA : Fld := ⟨0x140, 5, 1⟩
def CFG_FUSE_DATA (j : Nat) : Fld := ⟨0x144 + 4 * j, 0, 32⟩
def CFG_FUSE_CMD_OP : Fld := ⟨0x164, 0, 3⟩
def CFG_FUSE_CMD_STATUS : Fld := ⟨0x164, 4, 2⟩
def CFG_FUSE_SLOTS_LO : Fld := ⟨0x168, 0, 32⟩
def CFG_FUSE_SLOTS_HI : Fld := ⟨0x16C, 0, 32⟩
def CFG_FUSE_KCV : Fld := ⟨0x170, 0, 32⟩
def CFG_FUSE_DEV_DBG_PLAIN : Fld := ⟨0x174, 0, 1⟩
def CFG_FUSE_DEV_FUSE_LOCK : Fld := ⟨0x174, 1, 1⟩

/-! SCRUB page -/

def SCRUB_CTRL_EN : Fld := ⟨0x8, 0, 1⟩
def SCRUB_CTRL_REPAIR : Fld := ⟨0x8, 1, 1⟩
def SCRUB_CTRL_FILL : Fld := ⟨0x8, 2, 1⟩
def SCRUB_STAT_RUN : Fld := ⟨0xC, 0, 1⟩
def SCRUB_STAT_FILLING : Fld := ⟨0xC, 1, 1⟩
def SCRUB_STAT_SHADOW_VALID : Fld := ⟨0xC, 2, 12⟩
def SCRUB_SHADOW_CFG_CHAN : Fld := ⟨0x100, 0, 4⟩
def SCRUB_SHADOW_CFG_EN : Fld := ⟨0x100, 4, 1⟩
def SCRUB_SHADOW_BASE_BASE : Fld := ⟨0x104, 0, 26⟩
def SCRUB_BAYS_MASK : Fld := ⟨0x108, 0, 12⟩
def SCRUB_FILL_MASK_MASK : Fld := ⟨0x10C, 0, 12⟩
def SCRUB_LAP : Fld := ⟨0x110, 0, 32⟩
def SCRUB_POS_FRAME : Fld := ⟨0x114, 0, 20⟩
def SCRUB_FIRST_FRAME : Fld := ⟨0x118, 0, 20⟩
def SCRUB_FIRST_CLASS : Fld := ⟨0x118, 20, 3⟩
def SCRUB_FIRST_VALID : Fld := ⟨0x118, 31, 1⟩
def SCRUB_LAST_REPORT : Fld := ⟨0x11C, 0, 23⟩
def SCRUB_MISMATCH_CNT : Fld := ⟨0x120, 0, 32⟩
def SCRUB_REPAIR_CNT : Fld := ⟨0x124, 0, 32⟩

/-! HOSTIF page -/

def HOSTIF_CTRL_CMD_EN : Fld := ⟨0x8, 0, 1⟩
def HOSTIF_CTRL_EVT_EN : Fld := ⟨0x8, 1, 1⟩
def HOSTIF_CTRL_RING_RESET : Fld := ⟨0x8, 2, 1⟩
def HOSTIF_STAT_CMD_BUSY : Fld := ⟨0xC, 0, 1⟩
def HOSTIF_STAT_CMD_HALTED : Fld := ⟨0xC, 1, 1⟩
def HOSTIF_STAT_FW_PEND : Fld := ⟨0xC, 2, 1⟩
def HOSTIF_CMD_BASE_LO_ADDR : Fld := ⟨0x100, 12, 20⟩
def HOSTIF_CMD_BASE_HI : Fld := ⟨0x104, 0, 32⟩
def HOSTIF_CMD_CFG_LOG2 : Fld := ⟨0x108, 0, 4⟩
def HOSTIF_CMD_TAIL_IDX : Fld := ⟨0x10C, 0, 16⟩
def HOSTIF_CMD_HEAD_IDX : Fld := ⟨0x110, 0, 16⟩
def HOSTIF_CMD_SEQ_SEEN : Fld := ⟨0x114, 0, 32⟩
def HOSTIF_CMD_SEQ_DONE : Fld := ⟨0x118, 0, 32⟩
def HOSTIF_CMD_TIMEOUT_US : Fld := ⟨0x11C, 0, 16⟩
def HOSTIF_EVT_BASE_LO_ADDR : Fld := ⟨0x120, 12, 20⟩
def HOSTIF_EVT_BASE_HI : Fld := ⟨0x124, 0, 32⟩
def HOSTIF_EVT_CFG_LOG2 : Fld := ⟨0x128, 0, 4⟩
def HOSTIF_EVT_CFG_VEC : Fld := ⟨0x128, 4, 6⟩
def HOSTIF_EVT_HEAD_IDX : Fld := ⟨0x12C, 0, 16⟩
def HOSTIF_EVT_TAIL_IDX : Fld := ⟨0x130, 0, 16⟩
def HOSTIF_EVT_SEQ_NEXT : Fld := ⟨0x134, 0, 32⟩
def HOSTIF_EVT_PEND_CNT : Fld := ⟨0x138, 0, 9⟩
def HOSTIF_EVT_DROP_CNT : Fld := ⟨0x13C, 0, 32⟩
def HOSTIF_CMD_DUP_CNT : Fld := ⟨0x140, 0, 32⟩
def HOSTIF_FW_CMD (j : Nat) : Fld := ⟨0x180 + 4 * j, 0, 32⟩
def HOSTIF_FW_DONE_STATUS : Fld := ⟨0x1C0, 0, 3⟩
def HOSTIF_FW_DONE_CODE : Fld := ⟨0x1C0, 16, 16⟩
def HOSTIF_FW_RES (j : Nat) : Fld := ⟨0x1C4 + 4 * j, 0, 32⟩
def HOSTIF_FW_EVT (j : Nat) : Fld := ⟨0x200 + 4 * j, 0, 32⟩
def HOSTIF_FW_EVT_GO_GO : Fld := ⟨0x240, 0, 1⟩

/-! DBG page -/

def DBG_CTRL_WDOG_HOLD : Fld := ⟨0x8, 0, 1⟩
def DBG_CTRL_DISABLE : Fld := ⟨0x8, 1, 1⟩
def DBG_STAT_STOPPED : Fld := ⟨0xC, 0, 8⟩
def DBG_SEL_TARGET : Fld := ⟨0x100, 0, 8⟩
def DBG_RUN_CMD_OP : Fld := ⟨0x104, 0, 2⟩
def DBG_RUN_CMD_STATUS : Fld := ⟨0x104, 4, 2⟩
def DBG_TGT_CFG_CATCH : Fld := ⟨0x108, 0, 1⟩
def DBG_TGT_STAT_STOPPED : Fld := ⟨0x10C, 0, 1⟩
def DBG_TGT_STAT_CAUSE : Fld := ⟨0x10C, 1, 3⟩
def DBG_TGT_STAT_INDEX : Fld := ⟨0x10C, 4, 4⟩
def DBG_TGT_STAT_PREV : Fld := ⟨0x10C, 8, 3⟩
def DBG_TGT_STAT_LIVE_RUN : Fld := ⟨0x10C, 11, 1⟩
def DBG_DPC_LO : Fld := ⟨0x110, 0, 32⟩
def DBG_DPC_HI : Fld := ⟨0x114, 0, 32⟩
def DBG_REG_SEL_NUM : Fld := ⟨0x118, 0, 12⟩
def DBG_REG_SEL_SPACE : Fld := ⟨0x118, 12, 2⟩
def DBG_REG_CMD_OP : Fld := ⟨0x11C, 0, 2⟩
def DBG_REG_CMD_STATUS : Fld := ⟨0x11C, 4, 2⟩
def DBG_REG_DATA_LO : Fld := ⟨0x120, 0, 32⟩
def DBG_REG_DATA_HI : Fld := ⟨0x124, 0, 32⟩
def DBG_LIVE : Fld := ⟨0x12C, 0, 32⟩
def DBG_RNG_BASE_LO (k : Nat) : Fld := ⟨0x140 + 32 * k, 0, 32⟩
def DBG_RNG_BASE_HI (k : Nat) : Fld := ⟨0x144 + 32 * k, 0, 32⟩
def DBG_RNG_LIMIT_LO (k : Nat) : Fld := ⟨0x148 + 32 * k, 0, 32⟩
def DBG_RNG_LIMIT_HI (k : Nat) : Fld := ⟨0x14C + 32 * k, 0, 32⟩
def DBG_RNG_CTRL_EN (k : Nat) : Fld := ⟨0x150 + 32 * k, 0, 1⟩
def DBG_RNG_CTRL_R (k : Nat) : Fld := ⟨0x150 + 32 * k, 1, 1⟩
def DBG_RNG_CTRL_W (k : Nat) : Fld := ⟨0x150 + 32 * k, 2, 1⟩
def DBG_RNG_CTRL_CTX_EN (k : Nat) : Fld := ⟨0x150 + 32 * k, 3, 1⟩
def DBG_RNG_CTRL_ACT (k : Nat) : Fld := ⟨0x150 + 32 * k, 4, 1⟩
def DBG_RNG_CTRL_LINK_EN (k : Nat) : Fld := ⟨0x150 + 32 * k, 5, 1⟩
def DBG_RNG_CTRL_LINK_SRC (k : Nat) : Fld := ⟨0x150 + 32 * k, 6, 4⟩
def DBG_RNG_CTRL_ARMED (k : Nat) : Fld := ⟨0x150 + 32 * k, 10, 1⟩
def DBG_RNG_CTX_VALUE (k : Nat) : Fld := ⟨0x154 + 32 * k, 0, 16⟩
def DBG_IM_ADDR_LO : Fld := ⟨0x300, 0, 32⟩
def DBG_IM_ADDR_HI : Fld := ⟨0x304, 0, 32⟩
def DBG_IM_CMD_OP : Fld := ⟨0x308, 0, 2⟩
def DBG_IM_CMD_STATUS : Fld := ⟨0x308, 4, 2⟩
def DBG_IM_CMD_RESP : Fld := ⟨0x308, 8, 4⟩
def DBG_IM_CMD_POISON : Fld := ⟨0x308, 12, 1⟩
def DBG_IM_BE : Fld := ⟨0x30C, 0, 32⟩
def DBG_IM_DATA (j : Nat) : Fld := ⟨0x320 + 4 * j, 0, 32⟩
def DBG_STOP_CNT : Fld := ⟨0x340, 0, 32⟩
def DBG_IM_CNT : Fld := ⟨0x344, 0, 32⟩

/-! PAIR page -/

def PAIR_CTRL_EN : Fld := ⟨0x8, 0, 1⟩
def PAIR_CTRL_RESYNC_ALL : Fld := ⟨0x8, 1, 1⟩
def PAIR_CTRL_CLAIM : Fld := ⟨0x8, 2, 1⟩
def PAIR_STAT_STATE : Fld := ⟨0xC, 0, 3⟩
def PAIR_STAT_ROLE : Fld := ⟨0xC, 3, 2⟩
def PAIR_STAT_SIDE : Fld := ⟨0xC, 5, 1⟩
def PAIR_STAT_LINK : Fld := ⟨0xC, 6, 2⟩
def PAIR_STAT_PEER_OK : Fld := ⟨0xC, 8, 1⟩
def PAIR_STAT_OK_OUT : Fld := ⟨0xC, 9, 1⟩
def PAIR_STAT_ACTIVE_OUT : Fld := ⟨0xC, 10, 1⟩
def PAIR_HB_TIMEOUT : Fld := ⟨0x100, 0, 16⟩
def PAIR_HB_YIELD : Fld := ⟨0x100, 16, 16⟩
def PAIR_APPLY_DIST : Fld := ⟨0x104, 0, 24⟩
def PAIR_LINK_CK_CK : Fld := ⟨0x108, 0, 16⟩
def PAIR_CK_PHASE_PHASE : Fld := ⟨0x10C, 0, 8⟩
def PAIR_TX_SEQ : Fld := ⟨0x110, 0, 32⟩
def PAIR_RX_SEQ : Fld := ⟨0x114, 0, 32⟩
def PAIR_HB_AGE_CK : Fld := ⟨0x118, 0, 16⟩
def PAIR_SEQ_PEND_SEQS : Fld := ⟨0x11C, 0, 16⟩
def PAIR_MJRN_CFG_CHAN : Fld := ⟨0x120, 0, 4⟩
def PAIR_MJRN_CFG_LOG2 : Fld := ⟨0x120, 4, 5⟩
def PAIR_MJRN_BASE_BASE : Fld := ⟨0x124, 0, 26⟩
def PAIR_CHECKED_CNT : Fld := ⟨0x140, 0, 32⟩
def PAIR_MISMATCH_CNT : Fld := ⟨0x144, 0, 32⟩
def PAIR_UNCHECKED_CNT : Fld := ⟨0x148, 0, 32⟩
def PAIR_RESYNC_CNT : Fld := ⟨0x14C, 0, 32⟩
def PAIR_DUP_CNT : Fld := ⟨0x150, 0, 32⟩
def PAIR_NAK_CNT : Fld := ⟨0x154, 0, 32⟩
def PAIR_LATE_CNT : Fld := ⟨0x158, 0, 32⟩
def PAIR_FAILOVER_CNT : Fld := ⟨0x15C, 0, 32⟩
def PAIR_JRN_DIFF_CNT : Fld := ⟨0x160, 0, 32⟩
def PAIR_SKEW_SKEW (i : Nat) : Fld := ⟨0x400 + 4 * i, 0, 16⟩
def PAIR_SKEW_VALID (i : Nat) : Fld := ⟨0x400 + 4 * i, 31, 1⟩

/-! STEWARD page -/

def STEWARD_CTRL_YIELD : Fld := ⟨0x8, 0, 1⟩
def STEWARD_STAT_ROLE_N : Fld := ⟨0xC, 0, 2⟩
def STEWARD_STAT_ROLE_S : Fld := ⟨0xC, 2, 2⟩
def STEWARD_STAT_BRIDGE_OK : Fld := ⟨0xC, 4, 1⟩
def STEWARD_STAT_ALIVE_N : Fld := ⟨0xC, 5, 1⟩
def STEWARD_STAT_ALIVE_S : Fld := ⟨0xC, 6, 1⟩
def STEWARD_STAT_STRAP : Fld := ⟨0xC, 7, 1⟩
def STEWARD_EPOCH_EPOCH : Fld := ⟨0x100, 0, 16⟩
def STEWARD_HANDOVER_CNT : Fld := ⟨0x104, 0, 32⟩
def STEWARD_ISOLATED_CK : Fld := ⟨0x108, 0, 32⟩
def STEWARD_BOOT_CTRL_GO : Fld := ⟨0x120, 0, 1⟩
def STEWARD_BOOT_STAT_STATE : Fld := ⟨0x124, 0, 2⟩
def STEWARD_BOOT_CK : Fld := ⟨0x128, 0, 32⟩

/-! LANE page -/

def LANE_STAT_STATE : Fld := ⟨0xC, 0, 3⟩
def LANE_STAT_SIG : Fld := ⟨0xC, 3, 1⟩
def LANE_STAT_CDR : Fld := ⟨0xC, 4, 1⟩
def LANE_STAT_EB_DEPTH : Fld := ⟨0xC, 5, 7⟩
def LANE_STAT_PASS_MISMATCH : Fld := ⟨0xC, 12, 1⟩
def LANE_CFG_RATE : Fld := ⟨0x100, 0, 4⟩
def LANE_CFG_CODE : Fld := ⟨0x100, 4, 2⟩
def LANE_CFG_DET : Fld := ⟨0x100, 6, 1⟩
def LANE_CFG_RX_INV : Fld := ⟨0x100, 7, 1⟩
def LANE_CFG_TX_INV : Fld := ⟨0x100, 8, 1⟩
def LANE_CFG_GRAY : Fld := ⟨0x100, 9, 1⟩
def LANE_CFG_PRECODE : Fld := ⟨0x100, 10, 1⟩
def LANE_CFG_TX_CLK : Fld := ⟨0x100, 11, 1⟩
def LANE_CFG_PASS_SRC : Fld := ⟨0x100, 12, 2⟩
def LANE_CFG_LOSS_TX : Fld := ⟨0x100, 14, 1⟩
def LANE_CFG_USER_PCS : Fld := ⟨0x100, 15, 1⟩
def LANE_CFG_EN : Fld := ⟨0x100, 16, 1⟩
def LANE_HOLD_HOLD : Fld := ⟨0x104, 0, 7⟩
def LANE_ALIGN_TIMEOUT : Fld := ⟨0x108, 0, 16⟩
def LANE_ALIGN_MARGIN : Fld := ⟨0x108, 16, 4⟩
def LANE_ALIGN_RETRY : Fld := ⟨0x108, 31, 1⟩
def LANE_TXEQ_PRE : Fld := ⟨0x10C, 0, 6⟩
def LANE_TXEQ_MAIN : Fld := ⟨0x10C, 6, 6⟩
def LANE_TXEQ_POST : Fld := ⟨0x10C, 12, 6⟩
def LANE_FRAME_K_START : Fld := ⟨0x110, 0, 8⟩
def LANE_FRAME_K_END : Fld := ⟨0x110, 8, 8⟩
def LANE_FRAME_CTL_REC : Fld := ⟨0x110, 16, 1⟩
def LANE_FRAME_RAW_LEN : Fld := ⟨0x110, 17, 11⟩
def LANE_CV_CNT : Fld := ⟨0x120, 0, 32⟩
def LANE_LOCK_LOSS_CNT : Fld := ⟨0x124, 0, 32⟩
def LANE_SLIP_CNT : Fld := ⟨0x128, 0, 32⟩
def LANE_SYM_LO : Fld := ⟨0x12C, 0, 32⟩
def LANE_SYM_HI : Fld := ⟨0x130, 0, 32⟩
def LANE_ALIGN_US : Fld := ⟨0x134, 0, 32⟩

/-! LPC page -/

def LPC_STAT_STATE : Fld := ⟨0xC, 0, 3⟩
def LPC_STAT_FOLLOWER : Fld := ⟨0xC, 3, 1⟩
def LPC_REF_SRC : Fld := ⟨0x100, 0, 2⟩
def LPC_REF_LANE : Fld := ⟨0x100, 2, 6⟩
def LPC_REF_MARK_K : Fld := ⟨0x100, 8, 6⟩
def LPC_REF_LREF_DIV : Fld := ⟨0x100, 14, 9⟩
def LPC_SYN_INC_LO : Fld := ⟨0x104, 0, 32⟩
def LPC_SYN_INC_HI_INT : Fld := ⟨0x108, 0, 8⟩
def LPC_ANCHOR_LO : Fld := ⟨0x10C, 0, 32⟩
def LPC_ANCHOR_HI : Fld := ⟨0x110, 0, 32⟩
def LPC_LP_LO : Fld := ⟨0x118, 0, 32⟩
def LPC_LP_HI : Fld := ⟨0x11C, 0, 32⟩
def LPC_LP_FRAC_FRAC : Fld := ⟨0x120, 0, 8⟩
def LPC_RATE_LO : Fld := ⟨0x124, 0, 32⟩
def LPC_RATE_HI_INT : Fld := ⟨0x128, 0, 8⟩
def LPC_LOSS_CNT : Fld := ⟨0x12C, 0, 32⟩
def LPC_REANCHOR_CNT : Fld := ⟨0x130, 0, 32⟩
def LPC_FW_CK : Fld := ⟨0x134, 0, 32⟩
def LPC_LAST_JUMP_LO : Fld := ⟨0x138, 0, 32⟩
def LPC_LAST_JUMP_HI : Fld := ⟨0x13C, 0, 32⟩
def LPC_MARK_SLIP_CNT : Fld := ⟨0x140, 0, 32⟩
def LPC_MARK_MISS_CNT : Fld := ⟨0x144, 0, 32⟩
def LPC_OFF_OFF (i : Nat) : Fld := ⟨0x200 + 4 * i, 0, 16⟩
def LPC_SKEW_SKEW (i : Nat) : Fld := ⟨0x280 + 4 * i, 0, 16⟩

/-! EVS page -/

def EVS_STAT_USED : Fld := ⟨0xC, 0, 11⟩
def EVS_IDX_IDX : Fld := ⟨0x100, 0, 10⟩
def EVS_DATA (j : Nat) : Fld := ⟨0x104 + 4 * j, 0, 32⟩
def EVS_CMD_OP : Fld := ⟨0x124, 0, 2⟩
def EVS_CMD_STATUS : Fld := ⟨0x124, 4, 2⟩
def EVS_FIRE_CNT : Fld := ⟨0x128, 0, 32⟩
def EVS_LATE_CNT : Fld := ⟨0x12C, 0, 32⟩
def EVS_MODE_DISC_CNT : Fld := ⟨0x130, 0, 32⟩
def EVS_PAST_CNT : Fld := ⟨0x134, 0, 32⟩
def EVS_FW_FIRE_CNT : Fld := ⟨0x138, 0, 32⟩

/-! SIEVE page -/

def SIEVE_CTRL_EN : Fld := ⟨0x8, 0, 1⟩
def SIEVE_STAT_USED : Fld := ⟨0xC, 0, 7⟩
def SIEVE_IDX_IDX : Fld := ⟨0x100, 0, 6⟩
def SIEVE_DATA (j : Nat) : Fld := ⟨0x104 + 4 * j, 0, 32⟩
def SIEVE_CMD_OP : Fld := ⟨0x144, 0, 2⟩
def SIEVE_CMD_STATUS : Fld := ⟨0x144, 4, 2⟩
def SIEVE_DEFAULT_ACTION : Fld := ⟨0x148, 0, 2⟩
def SIEVE_DEFAULT_SLICE_LEN : Fld := ⟨0x148, 16, 16⟩
def SIEVE_KEEP_CNT : Fld := ⟨0x14C, 0, 32⟩
def SIEVE_DROP_CNT : Fld := ⟨0x150, 0, 32⟩
def SIEVE_SLICE_CNT : Fld := ⟨0x154, 0, 32⟩
def SIEVE_SHED_CNT : Fld := ⟨0x158, 0, 32⟩
def SIEVE_NOMATCH_CNT : Fld := ⟨0x15C, 0, 32⟩
def SIEVE_HIT (i : Nat) : Fld := ⟨0x200 + 4 * i, 0, 32⟩

/-! TRIG page -/

def TRIG_IDX_SEQ : Fld := ⟨0x100, 0, 3⟩
def TRIG_IDX_ENTRY : Fld := ⟨0x100, 4, 4⟩
def TRIG_IDX_TABLE : Fld := ⟨0x100, 8, 2⟩
def TRIG_DATA (j : Nat) : Fld := ⟨0x104 + 4 * j, 0, 32⟩
def TRIG_CMD_OP : Fld := ⟨0x124, 0, 2⟩
def TRIG_CMD_STATUS : Fld := ⟨0x124, 4, 2⟩
def TRIG_SEQ_CTRL_ARM (s : Nat) : Fld := ⟨0x140 + 4 * s, 0, 1⟩
def TRIG_SEQ_CTRL_RESET (s : Nat) : Fld := ⟨0x140 + 4 * s, 1, 1⟩
def TRIG_SEQ_STAT_STATE (s : Nat) : Fld := ⟨0x160 + 4 * s, 0, 4⟩
def TRIG_SEQ_STAT_ARMED (s : Nat) : Fld := ⟨0x160 + 4 * s, 4, 1⟩
def TRIG_SEQ_STAT_TIMER_RUN (s : Nat) : Fld := ⟨0x160 + 4 * s, 5, 1⟩
def TRIG_SEQ_CNT (s : Nat) : Fld := ⟨0x180 + 4 * s, 0, 32⟩
def TRIG_SEQ_ACT_CNT (s : Nat) : Fld := ⟨0x1A0 + 4 * s, 0, 32⟩
def TRIG_MODE_DISC_CNT : Fld := ⟨0x1C0, 0, 32⟩
def TRIG_BASE_SAT_CNT : Fld := ⟨0x1C4, 0, 32⟩

/-! FLOW page -/

def FLOW_STAT_USED : Fld := ⟨0xC, 0, 13⟩
def FLOW_IDX_IDX : Fld := ⟨0x100, 0, 12⟩
def FLOW_DATA (j : Nat) : Fld := ⟨0x104 + 4 * j, 0, 32⟩
def FLOW_CMD_OP : Fld := ⟨0x144, 0, 2⟩
def FLOW_CMD_STATUS : Fld := ⟨0x144, 4, 2⟩
def FLOW_UNREG_CNT : Fld := ⟨0x148, 0, 32⟩
def FLOW_GAP_CNT : Fld := ⟨0x14C, 0, 32⟩
def FLOW_LOST_CNT : Fld := ⟨0x150, 0, 32⟩

/-! PLU page -/

def PLU_CTRL_REBAL : Fld := ⟨0x8, 0, 1⟩
def PLU_STAT_SPILL_OUT : Fld := ⟨0xC, 0, 1⟩
def PLU_STAT_SPILL_IN : Fld := ⟨0xC, 1, 1⟩
def PLU_EWMA_SHIFT : Fld := ⟨0x100, 0, 3⟩
def PLU_CHAN_CAP_BYTES : Fld := ⟨0x104, 0, 24⟩
def PLU_MOVE_GAP : Fld := ⟨0x108, 0, 11⟩
def PLU_MOVE_HOLD : Fld := ⟨0x108, 11, 8⟩
def PLU_MOVE_ASSIGN_COST : Fld := ⟨0x108, 19, 8⟩
def PLU_SPILL_TARGET_BYTES : Fld := ⟨0x10C, 0, 18⟩
def PLU_REL_FLOW : Fld := ⟨0x110, 0, 12⟩
def PLU_REL_COUNT : Fld := ⟨0x110, 12, 20⟩
def PLU_STRIPE_CHANS (s : Nat) : Fld := ⟨0x120 + 4 * s, 0, 8⟩
def PLU_STRIPE_GRAIN (s : Nat) : Fld := ⟨0x120 + 4 * s, 8, 4⟩
def PLU_STRIPE_EN (s : Nat) : Fld := ⟨0x120 + 4 * s, 12, 1⟩
def PLU_FREE_FREE (s : Nat) : Fld := ⟨0x140 + 4 * s, 0, 21⟩
def PLU_LOAD (s : Nat) : Fld := ⟨0x160 + 4 * s, 0, 32⟩
def PLU_POOL_BASE_BASE (c : Nat) : Fld := ⟨0x180 + 8 * c, 0, 20⟩
def PLU_POOL_SIZE_SIZE (c : Nat) : Fld := ⟨0x184 + 8 * c, 0, 21⟩
def PLU_JRN_CFG_CHAN : Fld := ⟨0x1C0, 0, 3⟩
def PLU_JRN_CFG_LOG2_SIZE : Fld := ⟨0x1C0, 3, 5⟩
def PLU_JRN_BASE_BASE : Fld := ⟨0x1C4, 0, 26⟩
def PLU_JRN_SEQ : Fld := ⟨0x1C8, 0, 32⟩
def PLU_RETIRED_SLOTS : Fld := ⟨0x1CC, 0, 21⟩
def PLU_OPEN_CNT : Fld := ⟨0x1D0, 0, 32⟩
def PLU_WRAP_CNT : Fld := ⟨0x1D4, 0, 32⟩
def PLU_STEAL_CNT : Fld := ⟨0x1D8, 0, 32⟩
def PLU_FREEZE_CNT : Fld := ⟨0x1DC, 0, 32⟩
def PLU_MOVE_CNT : Fld := ⟨0x1E0, 0, 32⟩
def PLU_OVERLOAD_CNT : Fld := ⟨0x1E4, 0, 32⟩
def PLU_SPILL_CNT : Fld := ⟨0x1E8, 0, 32⟩
def PLU_NOENG_CNT : Fld := ⟨0x1EC, 0, 32⟩
def PLU_RATE_IDX_FLOW : Fld := ⟨0x1F0, 0, 12⟩
def PLU_RATE : Fld := ⟨0x1F4, 0, 32⟩
def PLU_ENGLOAD_LOAD (e : Nat) : Fld := ⟨0x200 + 4 * e, 0, 11⟩

/-! CQ page -/

def CQ_CTRL_FLUSH : Fld := ⟨0x8, 0, 1⟩
def CQ_STAT_LEVEL : Fld := ⟨0xC, 0, 2⟩
def CQ_STAT_SPILL : Fld := ⟨0xC, 2, 1⟩
def CQ_STAT_FLUSH_PEND : Fld := ⟨0xC, 3, 1⟩
def CQ_LEVELS_L1 : Fld := ⟨0x100, 0, 8⟩
def CQ_LEVELS_L2 : Fld := ⟨0x100, 8, 8⟩
def CQ_LEVELS_L3 : Fld := ⟨0x100, 16, 8⟩
def CQ_SPILL_ON : Fld := ⟨0x104, 0, 8⟩
def CQ_SPILL_OFF : Fld := ⟨0x104, 8, 8⟩
def CQ_FILL_UNITS : Fld := ⟨0x108, 0, 22⟩
def CQ_MAXFILL_UNITS : Fld := ⟨0x10C, 0, 22⟩
def CQ_HEAD_FLOW : Fld := ⟨0x110, 0, 12⟩
def CQ_HEAD_STATE : Fld := ⟨0x110, 12, 2⟩
def CQ_HEAD_VALID : Fld := ⟨0x110, 14, 1⟩
def CQ_HEAD_AGE : Fld := ⟨0x114, 0, 32⟩
def CQ_FULL_LOSS_CNT : Fld := ⟨0x118, 0, 32⟩
def CQ_NEWALLOC_CNT : Fld := ⟨0x11C, 0, 32⟩
def CQ_TAP_FLOW (k : Nat) : Fld := ⟨0x130 + 4 * k, 0, 12⟩
def CQ_TAP_EN (k : Nat) : Fld := ⟨0x130 + 4 * k, 12, 1⟩
def CQ_TAP_WAIT_CK : Fld := ⟨0x140, 0, 12⟩
def CQ_TAP_POP_REMAIN : Fld := ⟨0x144, 0, 13⟩
def CQ_TAP_POP_VALID : Fld := ⟨0x144, 31, 1⟩
def CQ_TAP_DROP_CNT : Fld := ⟨0x148, 0, 32⟩
def CQ_TAP_LATCH (j : Nat) : Fld := ⟨0x180 + 4 * j, 0, 32⟩

/-! IDX page -/

def IDX_CTRL_EP_EN : Fld := ⟨0x8, 0, 1⟩
def IDX_STAT_SEEK_BUSY : Fld := ⟨0xC, 0, 1⟩
def IDX_DIR_CFG_CHAN : Fld := ⟨0x100, 0, 3⟩
def IDX_DIR_CFG_LOG2 : Fld := ⟨0x100, 3, 5⟩
def IDX_DIR_BASE_BASE : Fld := ⟨0x104, 0, 26⟩
def IDX_SEEK_LP_LO : Fld := ⟨0x108, 0, 32⟩
def IDX_SEEK_LP_HI : Fld := ⟨0x10C, 0, 32⟩
def IDX_SEEK_CMD_FLOW : Fld := ⟨0x110, 0, 12⟩
def IDX_SEEK_CMD_H : Fld := ⟨0x110, 12, 1⟩
def IDX_SEEK_CMD_GO : Fld := ⟨0x110, 31, 1⟩
def IDX_SEEK_RES_LO : Fld := ⟨0x114, 0, 32⟩
def IDX_SEEK_RES_HI_OFF : Fld := ⟨0x118, 0, 8⟩
def IDX_SEEK_STAT_RESULT : Fld := ⟨0x11C, 0, 3⟩
def IDX_SEEK_STAT_CK : Fld := ⟨0x11C, 16, 16⟩
def IDX_DESC_SEL_ORD : Fld := ⟨0x120, 0, 19⟩
def IDX_DESC_SEL_FLOW : Fld := ⟨0x120, 19, 12⟩
def IDX_DESC_SEL_H : Fld := ⟨0x120, 31, 1⟩
def IDX_DESC_CMD_READ : Fld := ⟨0x124, 0, 1⟩
def IDX_DESC_CMD_STATUS : Fld := ⟨0x124, 4, 2⟩
def IDX_DESC (j : Nat) : Fld := ⟨0x128 + 4 * j, 0, 32⟩
def IDX_FLOWSEL_FLOW : Fld := ⟨0x140, 0, 12⟩
def IDX_RANGE_OLDEST : Fld := ⟨0x144, 0, 19⟩
def IDX_RANGE_ANY : Fld := ⟨0x144, 31, 1⟩
def IDX_NEWEST_NEWEST : Fld := ⟨0x148, 0, 19⟩
def IDX_FRONT_LO : Fld := ⟨0x14C, 0, 32⟩
def IDX_FRONT_HI_OFF : Fld := ⟨0x150, 0, 8⟩
def IDX_HOLE_LO : Fld := ⟨0x160, 0, 32⟩
def IDX_HOLE_HI_ADDR : Fld := ⟨0x164, 0, 21⟩
def IDX_HOLE_CLASS : Fld := ⟨0x168, 0, 3⟩
def IDX_HOLE_VALID : Fld := ⟨0x168, 31, 1⟩
def IDX_UNWR_RD_CNT : Fld := ⟨0x170, 0, 32⟩
def IDX_OVWR_RD_CNT : Fld := ⟨0x174, 0, 32⟩
def IDX_POIS_RD_CNT : Fld := ⟨0x178, 0, 32⟩
def IDX_UNAV_RD_CNT : Fld := ⟨0x17C, 0, 32⟩
def IDX_DENY_RD_CNT : Fld := ⟨0x180, 0, 32⟩
def IDX_EVICT_CNT : Fld := ⟨0x184, 0, 32⟩
def IDX_SEEK_CNT : Fld := ⟨0x188, 0, 32⟩

/-! STIM page -/

def STIM_CTRL_EN : Fld := ⟨0x8, 0, 1⟩
def STIM_STAT_RUNNING : Fld := ⟨0xC, 0, 7⟩
def STIM_TMPL_ADDR_WORD : Fld := ⟨0x100, 0, 9⟩
def STIM_TMPL_ADDR_TMPL : Fld := ⟨0x100, 9, 12⟩
def STIM_TMPL_DATA : Fld := ⟨0x104, 0, 32⟩
def STIM_CAP_FLOW_FLOW : Fld := ⟨0x110, 0, 12⟩
def STIM_CAP_LANES : Fld := ⟨0x114, 0, 32⟩
def STIM_PLAY_IDX_STREAM : Fld := ⟨0x120, 0, 6⟩
def STIM_PLAY_IDX_LANE : Fld := ⟨0x120, 8, 6⟩
def STIM_PLAY_DATA (j : Nat) : Fld := ⟨0x124 + 4 * j, 0, 32⟩
def STIM_PLAY_CMD_OP : Fld := ⟨0x144, 0, 3⟩
def STIM_PLAY_CMD_STATUS : Fld := ⟨0x144, 4, 2⟩
def STIM_PAT_CFG_CHANS : Fld := ⟨0x148, 0, 8⟩
def STIM_PAT_CFG_GRAIN : Fld := ⟨0x148, 8, 4⟩
def STIM_PAT_BASE_BASE : Fld := ⟨0x14C, 0, 26⟩
def STIM_PAT_SIZE_SIZE : Fld := ⟨0x150, 0, 26⟩
def STIM_APPLY_CNT : Fld := ⟨0x160, 0, 32⟩
def STIM_NOROOM_CNT : Fld := ⟨0x164, 0, 32⟩
def STIM_COLLIDE_CNT : Fld := ⟨0x168, 0, 32⟩
def STIM_NOTX_CNT : Fld := ⟨0x16C, 0, 32⟩
def STIM_PLAY_LATE_CNT : Fld := ⟨0x170, 0, 32⟩
def STIM_RD_FIX_CNT : Fld := ⟨0x174, 0, 32⟩
def STIM_LANE_ROOM_WIN (i : Nat) : Fld := ⟨0x200 + 4 * i, 0, 7⟩
def STIM_LANE_PEND (i : Nat) : Fld := ⟨0x200 + 4 * i, 7, 3⟩
def STIM_LANE_BUSY (i : Nat) : Fld := ⟨0x200 + 4 * i, 10, 1⟩
def STIM_PLAY_STAT_STATE (s : Nat) : Fld := ⟨0x300 + 4 * s, 0, 2⟩
def STIM_PLAY_STAT_PASSES (s : Nat) : Fld := ⟨0x300 + 4 * s, 16, 16⟩

/-! DRC page -/

def DRC_CTRL_EN : Fld := ⟨0x8, 0, 1⟩
def DRC_CTRL_RETRAIN : Fld := ⟨0x8, 1, 1⟩
def DRC_STAT_STATE : Fld := ⟨0xC, 0, 3⟩
def DRC_STAT_HOT_A : Fld := ⟨0xC, 3, 1⟩
def DRC_STAT_HOT_B : Fld := ⟨0xC, 4, 1⟩
def DRC_STAT_DRIFT : Fld := ⟨0xC, 5, 1⟩
def DRC_CFG_SPEED : Fld := ⟨0x100, 0, 4⟩
def DRC_CFG_DENS : Fld := ⟨0x100, 4, 2⟩
def DRC_CFG_X4 : Fld := ⟨0x100, 6, 1⟩
def DRC_CFG_RANKS : Fld := ⟨0x100, 7, 1⟩
def DRC_CFG_RDIMM : Fld := ⟨0x100, 8, 1⟩
def DRC_TIMING0_CL : Fld := ⟨0x104, 0, 8⟩
def DRC_TIMING0_TRCD : Fld := ⟨0x104, 8, 8⟩
def DRC_TIMING0_TRP : Fld := ⟨0x104, 16, 8⟩
def DRC_TIMING0_TRAS : Fld := ⟨0x104, 24, 8⟩
def DRC_TIMING1_TWR : Fld := ⟨0x108, 0, 8⟩
def DRC_TIMING1_TWTR_L : Fld := ⟨0x108, 8, 8⟩
def DRC_TIMING1_TRRD_L : Fld := ⟨0x108, 16, 8⟩
def DRC_TIMING1_TFAW : Fld := ⟨0x108, 24, 8⟩
def DRC_TIMING2_TRFC : Fld := ⟨0x10C, 0, 11⟩
def DRC_TIMING2_TCCD_L : Fld := ⟨0x10C, 11, 8⟩
def DRC_TRACK_EN : Fld := ⟨0x110, 0, 1⟩
def DRC_TRACK_LIMIT : Fld := ⟨0x110, 1, 7⟩
def DRC_TRACK_MIN_EYE : Fld := ⟨0x110, 8, 8⟩
def DRC_LANE_SEL_GROUP : Fld := ⟨0x120, 0, 5⟩
def DRC_LANE_TRAIN_RD_CENTRE : Fld := ⟨0x124, 0, 8⟩
def DRC_LANE_TRAIN_RD_MARGIN : Fld := ⟨0x124, 8, 8⟩
def DRC_LANE_TRAIN_WR_CENTRE : Fld := ⟨0x124, 16, 8⟩
def DRC_LANE_TRAIN_WR_MARGIN : Fld := ⟨0x124, 24, 8⟩
def DRC_LANE_DRIFT_RD : Fld := ⟨0x128, 0, 8⟩
def DRC_LANE_DRIFT_WR : Fld := ⟨0x128, 8, 8⟩
def DRC_TRAIN_INFO_TEMP : Fld := ⟨0x12C, 0, 8⟩
def DRC_TRAIN_INFO_LOAD : Fld := ⟨0x12C, 8, 7⟩
def DRC_TRAIN_INFO_RETRAINED : Fld := ⟨0x12C, 15, 1⟩
def DRC_MR4_RANK0_A : Fld := ⟨0x130, 0, 4⟩
def DRC_MR4_RANK1_A : Fld := ⟨0x130, 4, 4⟩
def DRC_MR4_RANK0_B : Fld := ⟨0x130, 8, 4⟩
def DRC_MR4_RANK1_B : Fld := ⟨0x130, 12, 4⟩
def DRC_CORR_CNT : Fld := ⟨0x140, 0, 32⟩
def DRC_DRIFT_CNT : Fld := ⟨0x144, 0, 32⟩
def DRC_HOT_CNT : Fld := ⟨0x148, 0, 32⟩
def DRC_SR_CNT : Fld := ⟨0x14C, 0, 32⟩
def DRC_PROMOTE_CNT : Fld := ⟨0x150, 0, 32⟩
def DRC_MAXWAIT_DECISIONS : Fld := ⟨0x154, 0, 7⟩
def DRC_HIT_CNT : Fld := ⟨0x158, 0, 32⟩
def DRC_CLOSED_CNT : Fld := ⟨0x15C, 0, 32⟩
def DRC_CONFLICT_CNT : Fld := ⟨0x160, 0, 32⟩

/-! MEMI page -/

def MEMI_CTRL_SCRUB_EN : Fld := ⟨0x8, 0, 1⟩
def MEMI_CTRL_LOG_CLR : Fld := ⟨0x8, 1, 1⟩
def MEMI_STAT_SCRUB_RUN : Fld := ⟨0xC, 0, 1⟩
def MEMI_STAT_HARD : Fld := ⟨0xC, 1, 1⟩
def MEMI_STAT_LOG_USED : Fld := ⟨0xC, 2, 6⟩
def MEMI_REGION_BASE_BASE (r : Nat) : Fld := ⟨0x100 + 8 * r, 0, 26⟩
def MEMI_REGION_CTRL_SIZE (r : Nat) : Fld := ⟨0x104 + 8 * r, 0, 26⟩
def MEMI_REGION_CTRL_EN (r : Nat) : Fld := ⟨0x104 + 8 * r, 26, 1⟩
def MEMI_REGION_CTRL_CODE (r : Nat) : Fld := ⟨0x104 + 8 * r, 27, 1⟩
def MEMI_REGION_CTRL_SCRUB (r : Nat) : Fld := ⟨0x104 + 8 * r, 28, 1⟩
def MEMI_REGION_CTRL_INIT (r : Nat) : Fld := ⟨0x104 + 8 * r, 29, 1⟩
def MEMI_REGION_CTRL_INITED (r : Nat) : Fld := ⟨0x104 + 8 * r, 30, 1⟩
def MEMI_DEFAULT_CODE : Fld := ⟨0x180, 0, 1⟩
def MEMI_DEVFAIL_A_R0 : Fld := ⟨0x184, 0, 4⟩
def MEMI_DEVFAIL_A_R1 : Fld := ⟨0x184, 4, 4⟩
def MEMI_DEVFAIL_B_R0 : Fld := ⟨0x184, 8, 4⟩
def MEMI_DEVFAIL_B_R1 : Fld := ⟨0x184, 12, 4⟩
def MEMI_THR_DEV_THR : Fld := ⟨0x188, 0, 8⟩
def MEMI_THR_HARD_THR : Fld := ⟨0x188, 8, 16⟩
def MEMI_SCRUB_INTERVAL_CK : Fld := ⟨0x18C, 0, 16⟩
def MEMI_SCRUB_LAP : Fld := ⟨0x190, 0, 32⟩
def MEMI_SCRUB_POS : Fld := ⟨0x194, 0, 32⟩
def MEMI_CORR_CNT : Fld := ⟨0x1A0, 0, 32⟩
def MEMI_POISON_RD_CNT : Fld := ⟨0x1A4, 0, 32⟩
def MEMI_SCRUB_SKIP_CNT : Fld := ⟨0x1A8, 0, 32⟩
def MEMI_RMW_CNT : Fld := ⟨0x1AC, 0, 32⟩
def MEMI_LOG_OVF_CNT : Fld := ⟨0x1B0, 0, 32⟩
def MEMI_LOG_IDX_IDX : Fld := ⟨0x1C0, 0, 5⟩
def MEMI_LOG_DATA (j : Nat) : Fld := ⟨0x1C4 + 4 * j, 0, 32⟩
def MEMI_RET_VALID (k : Nat) : Fld := ⟨0x200 + 4 * k, 0, 1⟩
def MEMI_RET_BANK (k : Nat) : Fld := ⟨0x200 + 4 * k, 1, 1⟩
def MEMI_RET_SUB (k : Nat) : Fld := ⟨0x200 + 4 * k, 2, 1⟩
def MEMI_RET_RANK (k : Nat) : Fld := ⟨0x200 + 4 * k, 3, 1⟩
def MEMI_RET_BG (k : Nat) : Fld := ⟨0x200 + 4 * k, 4, 3⟩
def MEMI_RET_BA (k : Nat) : Fld := ⟨0x200 + 4 * k, 7, 2⟩
def MEMI_RET_ROW (k : Nat) : Fld := ⟨0x200 + 4 * k, 9, 18⟩

/-! CRYPT page -/

def CRYPT_STAT_INIT_BUSY : Fld := ⟨0xC, 0, 8⟩
def CRYPT_STAT_REBUILD : Fld := ⟨0xC, 8, 4⟩
def CRYPT_STAT_DBG_PLAIN : Fld := ⟨0xC, 12, 1⟩
def CRYPT_RANGE_BASE_BASE (k : Nat) : Fld := ⟨0x100 + 32 * k, 0, 26⟩
def CRYPT_RANGE_SIZE_SIZE (k : Nat) : Fld := ⟨0x104 + 32 * k, 0, 26⟩
def CRYPT_RANGE_META_BASE (k : Nat) : Fld := ⟨0x108 + 32 * k, 0, 26⟩
def CRYPT_RANGE_META_SIZE_SIZE (k : Nat) : Fld := ⟨0x10C + 32 * k, 0, 26⟩
def CRYPT_RANGE_CFG_CHANS (k : Nat) : Fld := ⟨0x110 + 32 * k, 0, 8⟩
def CRYPT_RANGE_CFG_MODE (k : Nat) : Fld := ⟨0x110 + 32 * k, 8, 2⟩
def CRYPT_RANGE_CFG_EN (k : Nat) : Fld := ⟨0x110 + 32 * k, 10, 1⟩
def CRYPT_RANGE_CFG_INIT (k : Nat) : Fld := ⟨0x110 + 32 * k, 11, 1⟩
def CRYPT_RANGE_CFG_INITED (k : Nat) : Fld := ⟨0x110 + 32 * k, 12, 1⟩
def CRYPT_RANGE_RIGHTS_LEVELS (k : Nat) : Fld := ⟨0x114 + 32 * k, 0, 12⟩
def CRYPT_RANGE_KEY_VALID (k : Nat) : Fld := ⟨0x118 + 32 * k, 0, 1⟩
def CRYPT_RANGE_KEY_WRAPPED (k : Nat) : Fld := ⟨0x118 + 32 * k, 1, 1⟩
def CRYPT_KEYIN (j : Nat) : Fld := ⟨0x200 + 4 * j, 0, 32⟩
def CRYPT_KEY_CMD_OP : Fld := ⟨0x228, 0, 2⟩
def CRYPT_KEY_CMD_STATUS : Fld := ⟨0x228, 4, 2⟩
def CRYPT_KEY_CMD_RANGE : Fld := ⟨0x228, 8, 3⟩
def CRYPT_KEY_CMD_SLOT : Fld := ⟨0x228, 12, 4⟩
def CRYPT_RESEAL_BASE : Fld := ⟨0x230, 0, 26⟩
def CRYPT_RESEAL_CHAN : Fld := ⟨0x230, 26, 3⟩
def CRYPT_RESEAL_RANGE : Fld := ⟨0x230, 29, 3⟩
def CRYPT_RESEAL_LEVEL_LEVEL : Fld := ⟨0x234, 0, 4⟩
def CRYPT_MISS_CNT : Fld := ⟨0x300, 0, 32⟩
def CRYPT_RMW_CNT : Fld := ⟨0x304, 0, 32⟩
def CRYPT_POISON_CNT : Fld := ⟨0x308, 0, 32⟩

/-! NEWT page -/

def NEWT_CTRL_RUN : Fld := ⟨0x8, 0, 1⟩
def NEWT_CTRL_TEST_EN : Fld := ⟨0x8, 1, 1⟩
def NEWT_STAT_STATE : Fld := ⟨0xC, 0, 3⟩
def NEWT_STAT_TASK : Fld := ⟨0xC, 3, 1⟩
def NEWT_STAT_SLOTS : Fld := ⟨0xC, 4, 7⟩
def NEWT_STAT_POISON : Fld := ⟨0xC, 11, 1⟩
def NEWT_START_PC : Fld := ⟨0x100, 0, 13⟩
def NEWT_TRAP_VEC_PC : Fld := ⟨0x104, 0, 13⟩
def NEWT_TASK_LIMIT : Fld := ⟨0x108, 0, 32⟩
def NEWT_EPC_PC : Fld := ⟨0x10C, 0, 13⟩
def NEWT_CAUSE_CODE : Fld := ⟨0x110, 0, 4⟩
def NEWT_CAUSE_RETRY : Fld := ⟨0x110, 4, 1⟩
def NEWT_CAUSE_NESTED : Fld := ⟨0x110, 5, 1⟩
def NEWT_BADADDR_LO : Fld := ⟨0x114, 0, 32⟩
def NEWT_BADADDR_HI : Fld := ⟨0x118, 0, 32⟩
def NEWT_CUR_FLOW_FLOW : Fld := ⟨0x11C, 0, 12⟩
def NEWT_CUR_FLOW_VALID : Fld := ⟨0x11C, 12, 1⟩
def NEWT_IMEM_IDX_IDX : Fld := ⟨0x120, 0, 13⟩
def NEWT_IMEM_DATA : Fld := ⟨0x124, 0, 32⟩
def NEWT_ISSUE_CNT : Fld := ⟨0x130, 0, 32⟩
def NEWT_STALL_CNT : Fld := ⟨0x134, 0, 32⟩
def NEWT_TAKEN_CNT : Fld := ⟨0x138, 0, 32⟩
def NEWT_EMIT_CNT : Fld := ⟨0x13C, 0, 32⟩
def NEWT_DISC_CNT : Fld := ⟨0x140, 0, 32⟩
def NEWT_POISON_CNT : Fld := ⟨0x144, 0, 32⟩
def NEWT_HANDOVER_CNT : Fld := ⟨0x148, 0, 32⟩
def NEWT_SP_BUSY_CNT : Fld := ⟨0x14C, 0, 32⟩
def NEWT_TEST_LAP_IMEM : Fld := ⟨0x150, 0, 32⟩
def NEWT_TEST_LAP_SP : Fld := ⟨0x154, 0, 32⟩
def NEWT_TEST_LAP_CTX : Fld := ⟨0x158, 0, 32⟩
def NEWT_TEST_STAT_IMEM_REP : Fld := ⟨0x15C, 0, 1⟩
def NEWT_TEST_STAT_SP_REP : Fld := ⟨0x15C, 1, 1⟩
def NEWT_TEST_STAT_CTX_REP : Fld := ⟨0x15C, 2, 1⟩

/-! GECKO page -/

def GECKO_CTRL_RESET : Fld := ⟨0x8, 0, 1⟩
def GECKO_CTRL_KICK : Fld := ⟨0x8, 1, 1⟩
def GECKO_STAT_STATE : Fld := ⟨0xC, 0, 3⟩
def GECKO_STAT_WBUF : Fld := ⟨0xC, 3, 3⟩
def GECKO_WDOG_PERIOD : Fld := ⟨0x100, 0, 32⟩
def GECKO_TIMER_CMP_LO : Fld := ⟨0x104, 0, 32⟩
def GECKO_TIMER_CMP_HI : Fld := ⟨0x108, 0, 32⟩
def GECKO_MBOX : Fld := ⟨0x10C, 0, 32⟩
def GECKO_IRQ_ACK_ACK : Fld := ⟨0x110, 0, 6⟩
def GECKO_CWIN_BASE (k : Nat) : Fld := ⟨0x120 + 16 * k, 0, 32⟩
def GECKO_CWIN_LIMIT (k : Nat) : Fld := ⟨0x124 + 16 * k, 0, 32⟩
def GECKO_CWIN_ATTR_ATTR (k : Nat) : Fld := ⟨0x128 + 16 * k, 0, 2⟩
def GECKO_DC_OP_OP : Fld := ⟨0x160, 0, 2⟩
def GECKO_DC_OP_IC : Fld := ⟨0x160, 2, 1⟩
def GECKO_DC_OP_STATUS : Fld := ⟨0x160, 4, 2⟩
def GECKO_DC_ADDR_LO : Fld := ⟨0x164, 0, 32⟩
def GECKO_DC_ADDR_HI : Fld := ⟨0x168, 0, 32⟩
def GECKO_DC_LEN : Fld := ⟨0x16C, 0, 32⟩

/-! BAY page -/

def BAY_MEM_LOST_CNT : Fld := ⟨0x100, 0, 32⟩
def BAY_MEM_STARVE_CNT : Fld := ⟨0x104, 0, 32⟩
def BAY_MEM_MAXWAIT_MAX : Fld := ⟨0x108, 0, 5⟩
def BAY_TEST_TEST_EN : Fld := ⟨0x10C, 0, 1⟩
def BAY_TEST_REPAIRED : Fld := ⟨0x10C, 1, 1⟩
def BAY_TEST_LAP : Fld := ⟨0x110, 0, 32⟩
def BAY_SILL_FIRST_SILL : Fld := ⟨0x140, 0, 13⟩
def BAY_SILL_FIRST_WINNER : Fld := ⟨0x140, 13, 10⟩
def BAY_SILL_FIRST_VALID : Fld := ⟨0x140, 31, 1⟩
def BAY_BM_CORR_CNT : Fld := ⟨0x144, 0, 32⟩
def BAY_BM_TEST_TEST_EN : Fld := ⟨0x148, 0, 1⟩
def BAY_BM_TEST_LAP : Fld := ⟨0x14C, 0, 32⟩
def BAY_BM_REP_CNT_CNT : Fld := ⟨0x150, 0, 11⟩
def BAY_RCFG_CTRL_ARM : Fld := ⟨0x180, 0, 1⟩
def BAY_RCFG_CTRL_ENG_RETAIN : Fld := ⟨0x180, 1, 1⟩
def BAY_RCFG_CTRL_BM_KEEP : Fld := ⟨0x180, 2, 1⟩
def BAY_RCFG_STAT_STATE : Fld := ⟨0x184, 0, 3⟩
def BAY_RCFG_NOC_CNT : Fld := ⟨0x188, 0, 32⟩
def BAY_RCFG_CK : Fld := ⟨0x18C, 0, 32⟩
def BAY_SNAP_CTRL_SNAP : Fld := ⟨0x190, 0, 1⟩
def BAY_SNAP_CTRL_HOLD : Fld := ⟨0x190, 1, 1⟩
def BAY_SNAP_STAT_VALID : Fld := ⟨0x194, 0, 1⟩
def BAY_SNAP_CK_LO : Fld := ⟨0x198, 0, 32⟩
def BAY_SNAP_CK_HI : Fld := ⟨0x19C, 0, 32⟩
def BAY_SNAP_LP_LO : Fld := ⟨0x1A0, 0, 32⟩
def BAY_SNAP_LP_HI : Fld := ⟨0x1A4, 0, 32⟩
def BAY_SNAP_LP_FRAC_FRAC : Fld := ⟨0x1A8, 0, 8⟩
def BAY_RB_IDX_FRAME : Fld := ⟨0x1B0, 0, 10⟩
def BAY_RB_DATA (j : Nat) : Fld := ⟨0x200 + 4 * j, 0, 32⟩

/-! NOC page -/

def NOC_CTRL_SWAP : Fld := ⟨0x8, 0, 1⟩
def NOC_STAT_TOPO : Fld := ⟨0xC, 0, 1⟩
def NOC_STAT_EPOCH : Fld := ⟨0xC, 1, 1⟩
def NOC_STAT_OLD_LIVE : Fld := ⟨0xC, 2, 1⟩
def NOC_STAT_SWAP_BUSY : Fld := ⟨0xC, 3, 1⟩
def NOC_TBL_IDX_ROUTER : Fld := ⟨0x100, 0, 5⟩
def NOC_TBL_IDX_DEST : Fld := ⟨0x100, 5, 6⟩
def NOC_TBL_DATA_ENTRY : Fld := ⟨0x104, 0, 16⟩
def NOC_REVIVE_EP : Fld := ⟨0x108, 0, 12⟩
def NOC_DEAD_FIRST_EP : Fld := ⟨0x10C, 0, 12⟩
def NOC_DEAD_FIRST_VALID : Fld := ⟨0x10C, 31, 1⟩
def NOC_INJ_WAIT_CNT : Fld := ⟨0x110, 0, 32⟩
def NOC_HELD_CNT : Fld := ⟨0x114, 0, 32⟩
def NOC_WAKE_CNT : Fld := ⟨0x118, 0, 32⟩
def NOC_BUSY_CNT : Fld := ⟨0x11C, 0, 32⟩
def NOC_CANCEL_CNT : Fld := ⟨0x120, 0, 32⟩
def NOC_ABSORB_CNT : Fld := ⟨0x124, 0, 32⟩

/-! DMA page -/

def DMA_STAT : Fld := ⟨0xC, 0, 32⟩
def DMA_INFLIGHT_BURSTS : Fld := ⟨0x100, 0, 6⟩
def DMA_STARVE_CNT : Fld := ⟨0x104, 0, 32⟩
def DMA_BYTES_LO : Fld := ⟨0x108, 0, 32⟩
def DMA_BYTES_HI : Fld := ⟨0x10C, 0, 32⟩

/-! DMACH page -/

def DMACH_CTRL_GO : Fld := ⟨0x8, 0, 1⟩
def DMACH_CTRL_PAUSE : Fld := ⟨0x8, 1, 1⟩
def DMACH_CTRL_ABORT : Fld := ⟨0x8, 2, 1⟩
def DMACH_CTRL_PRIO : Fld := ⟨0x8, 3, 2⟩
def DMACH_STAT_STATE : Fld := ⟨0xC, 0, 3⟩
def DMACH_STAT_PWR : Fld := ⟨0xC, 3, 1⟩
def DMACH_DESC_LO : Fld := ⟨0x100, 0, 32⟩
def DMACH_DESC_HI : Fld := ⟨0x104, 0, 32⟩
def DMACH_DESC_CFG_HOST : Fld := ⟨0x108, 0, 1⟩
def DMACH_CUR_SRC_LO : Fld := ⟨0x10C, 0, 32⟩
def DMACH_CUR_SRC_HI : Fld := ⟨0x110, 0, 32⟩
def DMACH_CUR_DST_LO : Fld := ⟨0x114, 0, 32⟩
def DMACH_CUR_DST_HI : Fld := ⟨0x118, 0, 32⟩
def DMACH_REMAIN : Fld := ⟨0x11C, 0, 32⟩
def DMACH_CHECK_LO : Fld := ⟨0x120, 0, 32⟩
def DMACH_CHECK_HI : Fld := ⟨0x124, 0, 32⟩
def DMACH_LAST_STATUS_STATUS : Fld := ⟨0x128, 0, 8⟩
def DMACH_DESC_CNT : Fld := ⟨0x12C, 0, 32⟩
def DMACH_RETRY_CNT : Fld := ⟨0x130, 0, 32⟩

/-! CLKRST page -/

def CLKRST_STAT_CK_LOCK : Fld := ⟨0xC, 0, 1⟩
def CLKRST_STAT_QREF_OK : Fld := ⟨0xC, 1, 8⟩
def CLKRST_STAT_FPLL_LOCK : Fld := ⟨0xC, 9, 2⟩
def CLKRST_QREF_FREQ : Fld := ⟨0x100, 0, 16⟩
def CLKRST_FPLL_EN (j : Nat) : Fld := ⟨0x104 + 4 * j, 0, 1⟩
def CLKRST_FPLL_SRC (j : Nat) : Fld := ⟨0x104 + 4 * j, 1, 3⟩
def CLKRST_FPLL_MULT (j : Nat) : Fld := ⟨0x104 + 4 * j, 4, 7⟩
def CLKRST_FPLL_DIV (j : Nat) : Fld := ⟨0x104 + 4 * j, 11, 6⟩
def CLKRST_RST_CAUSE_POR : Fld := ⟨0x10C, 0, 1⟩
def CLKRST_RST_CAUSE_PIN : Fld := ⟨0x10C, 1, 1⟩
def CLKRST_RST_CAUSE_THERM : Fld := ⟨0x10C, 2, 1⟩
def CLKRST_RST_CAUSE_REFLOSS : Fld := ⟨0x10C, 3, 1⟩
def CLKRST_RST_CAUSE_SW : Fld := ⟨0x10C, 4, 1⟩
def CLKRST_SWRST_KEY : Fld := ⟨0x110, 0, 16⟩
def CLKRST_CK_LO : Fld := ⟨0x114, 0, 32⟩
def CLKRST_CK_HI : Fld := ⟨0x118, 0, 32⟩
def CLKRST_PHASE_PHI : Fld := ⟨0x11C, 0, 4⟩

end F
end Sys2Proof.Machine
end

