-- ==== Sys2Proof/Machine/Bits.lean ====
section
/-! DEFINITION. Bit fields of registers and of table entries, bytes and little-endian words (R4), signed readings. -/

namespace Sys2Proof.Machine

/-- The number in bits `[lo + wd - 1 : lo]` of a number. -/
def bitsOf (x lo wd : Nat) : Nat := x / 2 ^ lo % 2 ^ wd

/-- A number with bits `[lo + wd - 1 : lo]` replaced by the low bits of another. -/
def bitsPut (x lo wd v : Nat) : Nat :=
  x / 2 ^ (lo + wd) * 2 ^ (lo + wd) + v % 2 ^ wd * 2 ^ lo + x % 2 ^ lo

/-- A named field of a table entry: the field's byte offset and lowest bit give its place (R4). -/
def eget {n : Nat} (x : BitVec n) (f : Fld) : Nat := bitsOf x.toNat (8 * f.off + f.lo) f.wd

/-- The entry with a named field replaced. -/
def eput {n : Nat} (x : BitVec n) (f : Fld) (v : Nat) : BitVec n :=
  BitVec.ofNat n (bitsPut x.toNat (8 * f.off + f.lo) f.wd v)

/-- 32-bit word `j` of an entry (bytes 4j to 4j + 3). -/
def eword {n : Nat} (x : BitVec n) (j : Nat) : Word := BitVec.ofNat 32 (bitsOf x.toNat (32 * j) 32)

/-- The entry made of 32-bit words, word 0 lowest. -/
def ofWords (n : Nat) (ws : List Word) : BitVec n :=
  BitVec.ofNat n (ws.foldr (fun w acc => acc * 2 ^ 32 + w.toNat) 0)

/-- Byte `j` of a number. -/
def byteOf (x j : Nat) : Byte := BitVec.ofNat 8 (x / 2 ^ (8 * j))

/-- The low `k` bytes of a number, least significant first (R4). -/
def leBytes (k x : Nat) : List Byte := (List.range k).map (byteOf x)

/-- The number a byte list spells, least significant first (R4). -/
def leNat : List Byte → Nat
  | [] => 0
  | b :: r => b.toNat + 256 * leNat r

/-- A byte of a list, 0 beyond its end. -/
def byteAt (l : List Byte) (i : Nat) : Byte := l.getD i 0#8

/-- A list of numbers below a bound whose bit is set, ascending. -/
def setBits (x n : Nat) : List Nat := (List.range n).filter (fun k => x.testBit k)

/-- How many of the low `n` bits are set. -/
def popc (x n : Nat) : Nat := (setBits x n).length

/-- A saturating count at a width. -/
def satAdd (wd x k : Nat) : Nat := min (x + k) (2 ^ wd - 1)

/-- One bit of a number as a Bool. -/
def bit (x k : Nat) : Bool := x.testBit k

/-- A Bool as 0 or 1. -/
def b01 (b : Bool) : Nat := if b then 1 else 0

/-- The low `wd` bits of an integer read as a two's-complement number. -/
def signed (wd x : Nat) : Int := if x % 2 ^ wd < 2 ^ (wd - 1) then (x % 2 ^ wd : Nat) else (x % 2 ^ wd : Nat) - (2 ^ wd : Nat)

/-- An integer as a two's-complement number of a width. -/
def unsigned (wd : Nat) (x : Int) : Nat := (x % (2 ^ wd : Nat)).toNat

/-- Round a number up to a multiple. -/
def alignUp (x k : Nat) : Nat := (x + k - 1) / k * k

end Sys2Proof.Machine
end

