-- ==== Sys2Proof/Machine/Types.lean ====
section
/-! DEFINITION. The kinds of things commands carry and the block puts out: line symbols, PCIe packets, actions, outputs. -/

namespace Sys2Proof.Machine

/-- One symbol of a line lane, as its PCS receives it after bit recovery (R3, R47): blocks still scrambled, an 8b/10b character as its
code group, PAM4 as two bits a UI that give its level (R48; log entry 16). -/
inductive LineSym where
  /-- A 66-bit block: sync header as written in IEEE 802.3 (0b01 data, 0b10 control) and 64 scrambled bits. -/
  | blk66 (sync : BitVec 2) (payload : BitVec 64)
  /-- A 130-bit block: sync header (0b10 data, 0b01 ordered set) and 16 bytes. -/
  | blk130 (sync : BitVec 2) (payload : BitVec 128)
  /-- A code group, bit 0 the first on the line. -/
  | chr (group : BitVec 10)
  /-- A raw word: 8 bytes in NRZ, 16 bytes in PAM4 (R47). -/
  | raw (word : BitVec 128)
  /-- A symbol that user logic hands back (R48): its bytes, whether it starts or ends a record, the user cycles from the edge that
  presented its word to the edge that launched it (R311). -/
  | user (bytes : List Byte) (first : Bool) (last : Bool) (cycles : Nat)
  deriving DecidableEq, Repr

/-- A memory request of PCIe to the endpoint's three BARs (R402), and the completions it receives. -/
inductive Tlp where
  /-- A write: BAR number, byte offset, byte enables of its dwords, data. -/
  | write (bar : Nat) (off : Nat) (be : List (BitVec 4)) (data : List Word)
  /-- A read: tag, BAR number, byte offset, byte enables of its dwords. -/
  | read (tag : Nat) (bar : Nat) (off : Nat) (be : List (BitVec 4))
  deriving DecidableEq, Repr

/-- How a PCIe read ends (R402, R476). -/
inductive CplStatus where
  | success | unsupported | abort
  deriving DecidableEq, Repr

/-- The response of the on-chip network (Table 19-5). -/
inductive Resp where
  | ok | decodeError | accessDenied | targetBusy | targetDead | error
  deriving DecidableEq, Repr

/-- Where an issued action comes from (R81, R110). -/
inductive ActSrc where
  | evs (idx : Nat)
  | seq (s : Nat) (slot : Nat)
  /-- A stimulus port (R314). -/
  | port
  deriving DecidableEq, Repr

/-- An action on its way: class and arguments (Table 4-6), the LP it carries, the published LP in the CK it was issued, its
destination, the lane and number of the symbol whose sieve event gave its base (R232). -/
structure Action where
  half : Nat
  src : ActSrc
  cls : Nat
  arg0 : Nat
  arg1 : Nat
  tag : Nat
  lp : LP
  pub : LP
  dest : Nat
  sym : Option (Nat × Nat) := none
  deriving DecidableEq, Repr

/-- The base of a sequencer's step (R108): an LP, and the lane and number of the symbol whose sieve event gave it (R232). -/
structure StepBase where
  lp : LP
  sym : Option (Nat × Nat)
  deriving DecidableEq, Repr

/-- Who reads the capture space (R214): PCIe, a NoC request with its master class, a playback stream of a half. -/
inductive CapSrc where
  | pcie (tag : Nat)
  | noc (id cls : Nat)
  | play (half stream : Nat)
  deriving DecidableEq, Repr

/-- An access of a bay-memory mortise port in a CK slot (Table 15-4): byte offset of its 8-byte word, bytes written or a read. -/
structure PortAcc where
  port : Fin 4
  word : Nat
  wr : Option (List (Option Byte))
  deriving DecidableEq, Repr

/-- What a lane's buffers have done to a symbol and what stands behind it: CK by which standard mode hands it on late, an idle symbol
added (1) or deleted (2) with it (R55), the sync header of the block that follows (Table 3-2). -/
structure RxBuf where
  late : Fin 4 := 0
  comp : Fin 3 := 0
  next : BitVec 2 := 0#2
  deriving DecidableEq, Repr

/-- A memory under background test (R142, R308): an engine's instruction memory, scratchpad or context memory, a bay's shared
memory, a BM36 of a bay. -/
inductive TestMem where
  | imem (e : Fin 192) | scratch (e : Fin 192) | ctx (e : Fin 192) | bay (b : Fin 12) | bm36 (b : Fin 12) (m : Fin 1440)
  deriving DecidableEq, Repr

/-- What a PMBus poll of a rail returned (R444, R446): the STATUS_WORD, none for a failed transaction; the VOUT and IOUT it read, if
it read them. -/
structure RailRead where
  rail : Fin 8
  status : Option (BitVec 16)
  vout : Option (BitVec 16)
  iout : Option (BitVec 16)
  deriving DecidableEq, Repr

/-! The fabric (R301 to R312). -/

/-- The mortise ports (Table 15-4), and the serial ports that the fabric may own (R318). -/
inductive Port where
  | lane (n : Nat)
  | sieve (q : Nat)
  | event (h : Nat)
  | queue (h : Nat)
  | stim (h : Nat)
  | noc (q : Nat)
  | bayMem (b i : Nat)
  | serial (p : Nat)
  deriving DecidableEq, Repr

/-- What a port carries out to user logic in a slot (Table 15-4). -/
inductive PortVal where
  /-- A symbol with its LP stamp, and whether a record begins or ends at it. -/
  | sym (s : LineSym) (lp : LP) (first last : Bool)
  /-- A raw word (R48). -/
  | word (w : BitVec 128)
  /-- The first 64 bytes of a record, its lane and its match vector. -/
  | record (bytes : List Byte) (lane : Nat) (vec : Word)
  /-- An action accepted, or dropped. -/
  | taken (ok : Bool)
  /-- The address of a target request, read data, a byte. -/
  | data (v : Nat)
  deriving DecidableEq, Repr

/-- The wires that run one way (Table 15-2). -/
inductive WireKind where
  | peg | rafter | beam
  deriving DecidableEq, Repr

/-- Where a wire runs to: north to higher rows, east to higher columns. -/
inductive Way where
  | north | south | east | west
  deriving DecidableEq, Repr

/-- What a cell puts out (R296, R299). -/
inductive CellOut where
  | o6 | o5 | sum | ff0 | ff1
  deriving DecidableEq, Repr

/-- What a multiplexer of a cluster feeds beside a wire: input `j` of a cell (0 to 5 the table's inputs 1 to 6, 6 and 7 the bypasses), the
flip-flops' enable and reset, the data and the enable of its driver of a Sill (0 to 7 horizontal, 8 to 11 vertical). -/
inductive Pin where
  | cell (s j : Nat)
  | enable
  | reset
  | sillData (k : Nat)
  | sillOn (k : Nat)
  deriving DecidableEq, Repr

/-- A multiplexer of a cluster: of the wire of a kind, a way and a number that starts there, or of a pin. -/
inductive Mux where
  | wire (kind : WireKind) (way : Way) (k : Nat)
  | pin (p : Pin)
  deriving DecidableEq, Repr

/-- What a multiplexer may connect at its cluster: the wire `k` of a kind and a way that started `back` clusters before it, an output of
one of its cells, a Sill it taps, an output of a hard block beside it. -/
inductive Src where
  | wire (kind : WireKind) (way : Way) (k back : Nat)
  | cell (s : Nat) (o : CellOut)
  | sill (k : Nat)
  | hard (n : Nat)
  deriving DecidableEq, Repr, Inhabited

/-- What leaves the block in a command: what an observer outside it would see. -/
inductive Out where
  /-- The value a register read returned. -/
  | rdata (addr : Nat) (val : Word)
  /-- An MSI-X message. -/
  | msix (vec : Nat) (addr : Nat) (data : Word)
  /-- A PCIe completion. -/
  | cpl (status : CplStatus) (data : List Word)
  /-- Bytes written to host memory. -/
  | hostWrite (addr : Nat) (bytes : List Byte)
  /-- A read of host memory asked for. -/
  | hostRead (addr : Nat) (len : Nat)
  /-- A symbol whose first UI leaves a TX pin in a CK; none: electrical idle for its duration. -/
  | tx (lane : Nat) (ck : Nat) (sym : Option LineSym)
  /-- What a mortise port presents to user logic at the user edge at hand, in a slot of its word (R311). -/
  | slot (p : Port) (k : Nat) (v : PortVal)
  /-- A response packet on the NoC with its data. -/
  | noc (master : Nat) (resp : Resp) (data : List Byte)
  /-- A message put on the Scarf link (Table 24-1): type, SEQ, ACK, payload. -/
  | scarf (typ seq ack : Nat) (payload : List Byte)
  /-- The completion of a BAR2 read: its data, and whether it carries the EP bit (R216). -/
  | bar2 (tag : Nat) (data : List Byte) (ep : Bool)
  /-- A byte leaving a serial port. -/
  | serial (port : Nat) (val : Byte)
  /-- A VOUT_COMMAND to a rail's regulator, in mV (R447). -/
  | pmbus (rail mv : Nat)
  /-- A read of DRAM asked for by a unit: channel, offset. -/
  | dramRead (chan : Nat) (off : Nat)
  /-- An event line driven into the fabric or a port word. -/
  | port (kind : Nat) (val : Nat)
  deriving DecidableEq, Repr

end Sys2Proof.Machine
end

