-- ==== Sys2Proof/Syntax.lean ====
section
/-! DEFINITION. The commands: one constructor for each row of spec/opcode_table.json, with the
operands the row's rule gives it. Rows that the block also raises by itself come first, in the table's order, then the others.
What a command means is the machine's (Machine/Dispatch.lean), not this file's. -/

namespace Sys2Proof

open Sys2Proof.Machine

/-- A command to the block, one row of the operations table each. -/
inductive Instr where
  /-- PCIE_COMPLETION_TIMEOUT (R402). -/
  | pcieCompletionTimeout (id : Nat)
  /-- MODE_REQUEST (R34). -/
  | modeRequest (val : Word) (safeInCk : Bool)
  /-- MODE_TRANSITION_DONE (R36). -/
  | modeTransitionDone
  /-- OFFLOAD_DRAIN_DONE (R38). -/
  | offloadDrainDone
  /-- SAFE_ENTRY_DONE (R40). -/
  | safeEntryDone
  /-- READY_ENTRY (R33). -/
  | readyEntry
  /-- ALIGN_TIMEOUT (R51). -/
  | alignTimeout (n : Fin 64)
  /-- PASS_THROUGH_SYMBOL (R58). -/
  | passThroughSymbol (n : Fin 64)
  /-- LPC_FIRST_ANCHOR (R70). -/
  | lpcFirstAnchor (h : Half)
  /-- LPC_RATE_WINDOW (R69). -/
  | lpcRateWindow (h : Half)
  /-- LREF_TIMEOUT (R71). -/
  | lrefTimeout
  /-- LPC_ALIGN_WORD (R77). -/
  | lpcAlignWord (h : Half)
  /-- FOLLOWER_FREEWHEEL (R78). -/
  | followerFreewheel (h : Half)
  /-- EVS_ENTRY_DUE (R82). -/
  | evsEntryDue (h : Half)
  /-- SIEVE_MATCH_EVENT (R94). -/
  | sieveMatchEvent (n : Fin 64)
  /-- SIEVE_OUTCOME (R95). -/
  | sieveOutcome (n : Fin 64)
  /-- SEQ_EVALUATE (R107). -/
  | seqEvaluate (h : Half) (q : Fin 8)
  /-- SEQ_TIMER_EXPIRY (R108). -/
  | seqTimerExpiry (h : Half) (q : Fin 8)
  /-- TRIG_BRIDGE_WORD (R103). -/
  | trigBridgeWord (h : Half)
  /-- ACTION_ARRIVAL (R82). -/
  | actionArrival
  /-- QUEUE_ALLOCATION (R119). -/
  | queueAllocation (h : Half)
  /-- QUEUE_UNIT (R205). -/
  | queueUnit (h : Half)
  /-- GAP_MARKER_CLOSE (R122). -/
  | gapMarkerClose (h : Half) (flow : Fin 4096)
  /-- RECORD_OFFER (R207). -/
  | recordOffer (e : Fin 192)
  /-- SCRATCHPAD_REQUEST (R138). -/
  | scratchpadRequest (e : Fin 192) (bank : Fin 4) (ecc : Fin 3)
  /-- SCRATCHPAD_BUSY_TIMEOUT (R138). -/
  | scratchpadBusyTimeout (id : Nat)
  /-- BAY_MEM_ARBITRATE (R140). -/
  | bayMemArbitrate (b : Fin 12) (bank : Fin 16) (ports : List PortAcc) (ecc : Fin 3)
  /-- MEM_TEST_REGION (R142). -/
  | memTestRegion (mem : TestMem) (region : Fin 2048) (pass : Bool)
  /-- FLOW_HANDOVER (R152). -/
  | flowHandover (h : Half) (flow : Fin 4096) (bad : BitVec 32)
  /-- ENGINE_TRAP (R155). -/
  | engineTrap (e : Fin 192) (cause : Fin 16) (retry : Bool) (addr : Word64)
  /-- TASK_LIMIT_EXPIRY (R156). -/
  | taskLimitExpiry (e : Fin 192)
  /-- REMOTE_RESPONSE (R171). -/
  | remoteResponse (e : Fin 196) (id : Nat)
  /-- ADD (R166). -/
  | add (e : Fin 196) (dst a b : Fin 32)
  /-- SUB (R166). -/
  | sub (e : Fin 196) (dst a b : Fin 32)
  /-- ALU_AND (R166). -/
  | aluAnd (e : Fin 196) (dst a b : Fin 32)
  /-- ALU_OR (R166). -/
  | aluOr (e : Fin 196) (dst a b : Fin 32)
  /-- ALU_XOR (R166). -/
  | aluXor (e : Fin 196) (dst a b : Fin 32)
  /-- ALU_ANDN (R166). -/
  | aluAndn (e : Fin 196) (dst a b : Fin 32)
  /-- SLL (R166). -/
  | sll (e : Fin 196) (dst a b : Fin 32)
  /-- SRL (R166). -/
  | srl (e : Fin 196) (dst a b : Fin 32)
  /-- SRA (R166). -/
  | sra (e : Fin 196) (dst a b : Fin 32)
  /-- ROL (R166). -/
  | rol (e : Fin 196) (dst a b : Fin 32)
  /-- ROR (R166). -/
  | ror (e : Fin 196) (dst a b : Fin 32)
  /-- MUL (R166). -/
  | mul (e : Fin 196) (dst a b : Fin 32)
  /-- MULHU (R166). -/
  | mulhu (e : Fin 196) (dst a b : Fin 32)
  /-- SEL (R166). -/
  | sel (e : Fin 196) (dst a b : Fin 32) (p : Fin 8)
  /-- CLZ (R166). -/
  | clz (e : Fin 196) (dst a : Fin 32)
  /-- POPC (R166). -/
  | popc (e : Fin 196) (dst a : Fin 32)
  /-- BSWAP (R166). -/
  | bswap (e : Fin 196) (dst a : Fin 32)
  /-- ADDI (R161). -/
  | addi (e : Fin 196) (dst a : Fin 32) (imm : BitVec 16)
  /-- ANDI (R161). -/
  | andi (e : Fin 196) (dst a : Fin 32) (imm : BitVec 16)
  /-- ORI (R161). -/
  | ori (e : Fin 196) (dst a : Fin 32) (imm : BitVec 16)
  /-- XORI (R161). -/
  | xori (e : Fin 196) (dst a : Fin 32) (imm : BitVec 16)
  /-- SHI_SLL (R162). -/
  | shiSll (e : Fin 196) (dst a : Fin 32) (amt : Fin 64)
  /-- SHI_SRL (R162). -/
  | shiSrl (e : Fin 196) (dst a : Fin 32) (amt : Fin 64)
  /-- SHI_SRA (R162). -/
  | shiSra (e : Fin 196) (dst a : Fin 32) (amt : Fin 64)
  /-- SHI_ROL (R162). -/
  | shiRol (e : Fin 196) (dst a : Fin 32) (amt : Fin 64)
  /-- LSI (R161). -/
  | lsi (e : Fin 196) (dst a : Fin 32) (imm : BitVec 16)
  /-- EXT (R167). -/
  | ext (e : Fin 196) (dst a : Fin 32) (off len1 : Fin 64)
  /-- EXTS (R167). -/
  | exts (e : Fin 196) (dst a : Fin 32) (off len1 : Fin 64)
  /-- INS (R167). -/
  | ins (e : Fin 196) (dst a : Fin 32) (off len1 : Fin 64)
  /-- CMP_EQM (R168). -/
  | cmpEqm (e : Fin 196) (pd : Fin 8) (mode : BitVec 2) (a b mask : Fin 32)
  /-- CMP_NEM (R168). -/
  | cmpNem (e : Fin 196) (pd : Fin 8) (mode : BitVec 2) (a b mask : Fin 32)
  /-- CMP_EQ (R168). -/
  | cmpEq (e : Fin 196) (pd : Fin 8) (mode : BitVec 2) (a b : Fin 32)
  /-- CMP_NE (R168). -/
  | cmpNe (e : Fin 196) (pd : Fin 8) (mode : BitVec 2) (a b : Fin 32)
  /-- CMP_LTU (R168). -/
  | cmpLtu (e : Fin 196) (pd : Fin 8) (mode : BitVec 2) (a b : Fin 32)
  /-- CMP_GEU (R168). -/
  | cmpGeu (e : Fin 196) (pd : Fin 8) (mode : BitVec 2) (a b : Fin 32)
  /-- CMP_LT (R168). -/
  | cmpLt (e : Fin 196) (pd : Fin 8) (mode : BitVec 2) (a b : Fin 32)
  /-- CMP_GE (R168). -/
  | cmpGe (e : Fin 196) (pd : Fin 8) (mode : BitVec 2) (a b : Fin 32)
  /-- CMPI_EQ (R168). -/
  | cmpiEq (e : Fin 196) (pd : Fin 8) (a : Fin 32) (imm : BitVec 16)
  /-- CMPI_NE (R168). -/
  | cmpiNe (e : Fin 196) (pd : Fin 8) (a : Fin 32) (imm : BitVec 16)
  /-- CMPI_LTU (R168). -/
  | cmpiLtu (e : Fin 196) (pd : Fin 8) (a : Fin 32) (imm : BitVec 16)
  /-- CMPI_GEU (R168). -/
  | cmpiGeu (e : Fin 196) (pd : Fin 8) (a : Fin 32) (imm : BitVec 16)
  /-- PRED_AND (R168). -/
  | predAnd (e : Fin 196) (pd pa pb : Fin 8)
  /-- PRED_OR (R168). -/
  | predOr (e : Fin 196) (pd pa pb : Fin 8)
  /-- PRED_XOR (R168). -/
  | predXor (e : Fin 196) (pd pa pb : Fin 8)
  /-- PRED_ANDN (R168). -/
  | predAndn (e : Fin 196) (pd pa pb : Fin 8)
  /-- PRED_SET (R168). -/
  | predSet (e : Fin 196) (pd : Fin 8)
  /-- PRED_CLR (R168). -/
  | predClr (e : Fin 196) (pd : Fin 8)
  /-- CLMUL_LO (R169). -/
  | clmulLo (e : Fin 196) (dst a b : Fin 32)
  /-- CLMUL_HI (R169). -/
  | clmulHi (e : Fin 196) (dst a b : Fin 32)
  /-- BR (R165). -/
  | br (e : Fin 196) (sense : Bool) (p : Fin 8) (imm : BitVec 16)
  /-- JAL (R165). -/
  | jal (e : Fin 196) (dst : Fin 32) (imm : BitVec 16)
  /-- JR (R165). -/
  | jr (e : Fin 196) (dst a : Fin 32) (imm : BitVec 16)
  /-- LD8U (R170). -/
  | ld8u (e : Fin 196) (dst a : Fin 32) (imm : BitVec 16) (ecc : Fin 3)
  /-- LD16U (R170). -/
  | ld16u (e : Fin 196) (dst a : Fin 32) (imm : BitVec 16) (ecc : Fin 3)
  /-- LD32U (R170). -/
  | ld32u (e : Fin 196) (dst a : Fin 32) (imm : BitVec 16) (ecc : Fin 3)
  /-- LD64 (R170). -/
  | ld64 (e : Fin 196) (dst a : Fin 32) (imm : BitVec 16) (ecc : Fin 3)
  /-- LD8S (R170). -/
  | ld8s (e : Fin 196) (dst a : Fin 32) (imm : BitVec 16) (ecc : Fin 3)
  /-- LD16S (R170). -/
  | ld16s (e : Fin 196) (dst a : Fin 32) (imm : BitVec 16) (ecc : Fin 3)
  /-- LD32S (R170). -/
  | ld32s (e : Fin 196) (dst a : Fin 32) (imm : BitVec 16) (ecc : Fin 3)
  /-- ST8 (R171). -/
  | st8 (e : Fin 196) (dst a : Fin 32) (imm : BitVec 16)
  /-- ST16 (R171). -/
  | st16 (e : Fin 196) (dst a : Fin 32) (imm : BitVec 16)
  /-- ST32 (R171). -/
  | st32 (e : Fin 196) (dst a : Fin 32) (imm : BitVec 16)
  /-- ST64 (R171). -/
  | st64 (e : Fin 196) (dst a : Fin 32) (imm : BitVec 16)
  /-- LR (R172). -/
  | lr (e : Fin 196) (dst a : Fin 32) (imm : BitVec 16) (ecc : Fin 3)
  /-- SC (R172). -/
  | sc (e : Fin 196) (dst a b : Fin 32)
  /-- FENCE (R173). -/
  | fence (e : Fin 196)
  /-- FENCE_W (R173). -/
  | fenceW (e : Fin 196)
  /-- POP (R146). -/
  | pop (e : Fin 196)
  /-- PEEK (R146). -/
  | peek (e : Fin 196) (dst : Fin 32)
  /-- PUSH_CUR (R148). -/
  | pushCur (e : Fin 196) (a b : Fin 32) (trunc : Bool)
  /-- PUSH_SP (R148). -/
  | pushSp (e : Fin 196) (dst a b : Fin 32) (trunc : Bool) (ecc : Fin 3)
  /-- EMIT (R151). -/
  | emit (e : Fin 196) (line : Fin 8)
  /-- TRAP (R175). -/
  | trap (e : Fin 196)
  /-- CSRR (R177). -/
  | csrr (e : Fin 196) (dst : Fin 32) (num : BitVec 11)
  /-- CSRW (R177). -/
  | csrw (e : Fin 196) (dst a : Fin 32) (num : BitVec 11)
  /-- CSRS (R177). -/
  | csrs (e : Fin 196) (dst a : Fin 32) (num : BitVec 11)
  /-- CSRC (R177). -/
  | csrc (e : Fin 196) (dst a : Fin 32) (num : BitVec 11)
  /-- ERET (R181). -/
  | eret (e : Fin 196)
  /-- WFI (R180). -/
  | wfi (e : Fin 196)
  /-- ECALL (R176). -/
  | ecall (e : Fin 196)
  /-- GECKO_EXCEPTION (R181). -/
  | geckoException (k : Fin 4) (cause : Fin 16) (retry : Bool) (addr : Word64)
  /-- INTERRUPT_TAKEN (R180). -/
  | interruptTaken (k : Fin 4)
  /-- PLACEMENT_WINDOW (R188). -/
  | placementWindow (h : Half)
  /-- NEW_EXTENT (R190). -/
  | newExtent (h : Half) (flow : Fin 4096)
  /-- ENGINE_ASSIGN (R195). -/
  | engineAssign (h : Half) (flow : Fin 4096)
  /-- ENGINE_STOPPED_MOVE (R197). -/
  | engineStoppedMove (e : Fin 192)
  /-- SPILL_START (R198). -/
  | spillStart (h : Half)
  /-- SPILL_END (R199). -/
  | spillEnd (h : Half)
  /-- CAPTURE_WRITE (R208). -/
  | captureWrite (h : Half) (ecc : Fin 3)
  /-- CAPTURE_WRITE_ACK (R208). -/
  | captureWriteAck (h : Half) (rid : Nat) (err : Bool)
  /-- FLUSH_DONE (R211). -/
  | flushDone (h : Half)
  /-- TAP_POP_TIMEOUT (R213). -/
  | tapPopTimeout (h : Half)
  /-- BAR2_READ (R215). -/
  | bar2Read (src : CapSrc) (off : Nat) (len : Nat)
  /-- BAR2_READ_DATA (R216). -/
  | bar2ReadData (id : Nat)
  /-- SEEK_DONE (R223). -/
  | seekDone (h : Half)
  /-- DESC_READ (R225). -/
  | descRead (h : Half)
  /-- STIM_ACTION_ARRIVAL (R236). -/
  | stimActionArrival (h : Half)
  /-- REPLACE (R227). -/
  | replace (n : Fin 64)
  /-- INSERT (R235). -/
  | insert (n : Fin 64)
  /-- DELETE (R227). -/
  | delete (n : Fin 64)
  /-- FLIP (R227). -/
  | flip (n : Fin 64)
  /-- HOLD (R227). -/
  | hold (n : Fin 64)
  /-- PLAY_ARMED (R242). -/
  | playArmed (h : Half) (stream : Fin 64)
  /-- PLAY_ACTION (R242). -/
  | playAction (h : Half)
  /-- PLAYBACK_READ_DATA (R239). -/
  | playbackReadData (h : Half) (stream : Fin 64)
  /-- PLAYBACK_RECORD_DUE (R240). -/
  | playbackRecordDue (h : Half) (stream : Fin 64)
  /-- DRAM_TRAINING_DONE (R249). -/
  | dramTrainingDone (c : Fin 16) (delays : List (BitVec 16)) (reads writes : List Byte)
  /-- RETRAIN_START (R250). -/
  | retrainStart (c : Fin 16)
  /-- DRAM_REQUEST (R255). -/
  | dramRequest (c : Fin 16) (sub : Fin 2)
  /-- DRAM_DECISION (R255). -/
  | dramDecision (c : Fin 16) (sub : Fin 2) (ok : BitVec 64)
  /-- DRAM_SERVICE_DONE (R257). -/
  | dramServiceDone (c : Fin 16) (sub : Fin 2) (err : BitVec 640) (badAt : Option (Fin 13))
  /-- REFRESH (R258). -/
  | refresh (c : Fin 16) (sub : Fin 2) (rank : Fin 2) (rd : Fin 3) (wr : Fin 3)
  /-- MR4_READ (R258). -/
  | mr4Read (c : Fin 16) (codes : BitVec 16) (hot : BitVec 4) (excess : BitVec 4)
  /-- SELF_REFRESH_ENTRY (R259). -/
  | selfRefreshEntry (c : Fin 16)
  /-- SELF_REFRESH_DONE (R259). -/
  | selfRefreshDone (c : Fin 16)
  /-- SELF_REFRESH_EXIT (R259). -/
  | selfRefreshExit (c : Fin 16)
  /-- SELF_REFRESH_EXIT_DONE (R259). -/
  | selfRefreshExitDone (c : Fin 16)
  /-- SCRUB_READ (R272). -/
  | scrubRead (c : Fin 16) (err : BitVec 640)
  /-- REGION_INIT_DONE (R273). -/
  | regionInitDone (c : Fin 16)
  /-- OCM_WRITE_BACK (R276). -/
  | ocmWriteBack (m : Fin 8)
  /-- CRYPT_INIT_DONE (R284). -/
  | cryptInitDone (h : Half) (k : Fin 8)
  /-- RESEAL_DONE (R293). -/
  | resealDone (h : Half)
  /-- RO_COUNT_DONE (R315). -/
  | roCountDone (i : Fin 16)
  /-- FLASH_CMD_DONE (R317). -/
  | flashCmdDone (ok : Bool)
  /-- SERIAL_BYTE_SENT (R318). -/
  | serialByteSent (p : Fin 7) (nack arb : Bool)
  /-- SOFTWARE_RESET_EXPIRY (R327). -/
  | softwareResetExpiry
  /-- RESET_RELEASE (R330). -/
  | resetRelease (pairSide halfSteward cfgAuto : Bool) (pullSel : BitVec 8)
  /-- CK_PLL_LOCK (R330). -/
  | ckPllLock
  /-- FUSE_READ (R330). -/
  | fuseRead
  /-- ALWAYS_ON_UP (R330). -/
  | alwaysOnUp
  /-- HALVES_OUT_OF_RESET (R330). -/
  | halvesOutOfReset
  /-- STARTUP_RELEASE (R331). -/
  | startupRelease (nonLinear failed : BitVec 8)
  /-- STREAM_HEADER (R334). -/
  | streamHeader (bytes : List Byte)
  /-- BLOCK_VERIFY (R336). -/
  | blockVerify (bytes : List Byte)
  /-- PAD (R337). -/
  | pad
  /-- FRAME (R338). -/
  | frame
  /-- REG (R341). -/
  | regCmd
  /-- END (R337). -/
  | endCmd
  /-- CFG_TIMEOUT_EXPIRY (R349). -/
  | cfgTimeoutExpiry
  /-- WIPE_DONE (R350). -/
  | wipeDone
  /-- FUSE_CMD_DONE (R352). -/
  | fuseCmdDone (ok : Bool)
  /-- BAY_CLOSED (R359). -/
  | bayClosed (b : Fin 12)
  /-- BAY_RELEASE (R361). -/
  | bayRelease (b : Fin 12)
  /-- BAY_WIPE_DONE (R362). -/
  | bayWipeDone (b : Fin 12)
  /-- SNAP (R364). -/
  | snap (b : Fin 12)
  /-- CONFIG_SCRUB_FRAME (R366). -/
  | configScrubFrame (flip : BitVec 2048) (sig : Fin 3)
  /-- FILL_DONE (R368). -/
  | fillDone
  /-- NOC_INJECT (R375). -/
  | nocInject (id : Nat) (wait : Nat)
  /-- NOC_DELIVERY (R374). -/
  | nocDelivery (id : Nat) (ecc : Fin 3)
  /-- NOC_RESPONSE (R374). -/
  | nocResponse (id : Nat)
  /-- DEAD_TARGET_TIMEOUT (R383). -/
  | deadTargetTimeout (id : Nat)
  /-- SWAP_CHECK_DONE (R379). -/
  | swapCheckDone (h : Half)
  /-- OLD_EPOCH_RETIRED (R379). -/
  | oldEpochRetired (h : Half)
  /-- GECKO_CORE_RESET (R394). -/
  | geckoCoreReset (k : Fin 4)
  /-- WATCHDOG_EXPIRY (R393). -/
  | watchdogExpiry (k : Fin 4)
  /-- TIMER_COMPARE (R392). -/
  | timerCompare (k : Fin 4)
  /-- CACHE_OP_DONE (R390). -/
  | cacheOpDone (k : Fin 4)
  /-- WRITE_BUFFER_DRAIN (R388). -/
  | writeBufferDrain (k : Fin 4)
  /-- CACHE_LINE_FILL (R387). -/
  | cacheLineFill (k : Fin 4) (line : Nat) (ins : Bool)
  /-- BOOT_DONE (R396). -/
  | bootDone
  /-- STEWARD_WORD (R397). -/
  | stewardWord
  /-- BRIDGE_LOST (R400). -/
  | bridgeLost
  /-- ISOLATION_REJOIN (R401). -/
  | isolationRejoin
  /-- CMD_FETCH (R403). -/
  | cmdFetch (entry : Option (List Byte))
  /-- REG_WRITE (R404). -/
  | regWrite
  /-- REG_READ (R404). -/
  | regRead
  /-- SCHED (R404). -/
  | sched
  /-- FLUSH (R404). -/
  | flush
  /-- SEEK (R404). -/
  | seek
  /-- NOP (R404). -/
  | nopCmd
  /-- FIRMWARE_COMMAND (R405). -/
  | firmwareCommand
  /-- FIRMWARE_TIMEOUT (R405). -/
  | firmwareTimeout
  /-- EVENT_WRITE (R406). -/
  | eventWrite
  /-- DMA_DESC_FETCH (R412). -/
  | dmaDescFetch (k : Fin 64) (id : Nat) (host : Option (List Byte))
  /-- DMA_READ_ISSUE (R414). -/
  | dmaReadIssue (h : Half)
  /-- DMA_READ_DATA (R417). -/
  | dmaReadData (k : Fin 64) (id : Nat) (host : Option (List Byte))
  /-- DMA_BURST_WRITE (R413). -/
  | dmaBurstWrite (k : Fin 64)
  /-- DMA_WRITE_ACK (R417). -/
  | dmaWriteAck (k : Fin 64) (id : Nat)
  /-- DMA_RETRY (R415). -/
  | dmaRetry (k : Fin 64) (id : Nat)
  /-- DMA_DESC_END (R418). -/
  | dmaDescEnd (k : Fin 64)
  /-- DMA_PAUSED (R419). -/
  | dmaPaused (k : Fin 64)
  /-- DBG_REG_READ (R424). -/
  | dbgRegRead
  /-- DBG_REG_WRITE (R424). -/
  | dbgRegWrite
  /-- DOMAIN_CLOSED (R433). -/
  | domainClosed (k : Fin 64)
  /-- DOMAIN_OPENED (R437). -/
  | domainOpened (k : Fin 64)
  /-- THERMAL_DRAIN_TIMEOUT (R439). -/
  | thermalDrainTimeout
  /-- SUPPLY_CAUSE_CLEAR (R444). -/
  | supplyCauseClear
  /-- RAMP_STEP (R447). -/
  | rampStep (r : Fin 8) (vout : Option (BitVec 16))
  /-- SCARF_TRAINING_TIMEOUT (R453). -/
  | scarfTrainingTimeout
  /-- HEARTBEAT_SEND (R456). -/
  | heartbeatSend
  /-- MIRRORED_WRITE_APPLY (R464). -/
  | mirroredWriteApply
  /-- PAIR_ALIGN_TIMEOUT (R461). -/
  | pairAlignTimeout
  /-- DIGEST_SEND (R466). -/
  | digestSend
  /-- RESYNC_LEAD_BOUNDARY (R468). -/
  | resyncLeadBoundary
  /-- RESYNC_SHADOW_BOUNDARY (R468). -/
  | resyncShadowBoundary
  /-- PEER_OK_FELL (R469). -/
  | peerOkFell (fell : Bool)
  /-- HEARTBEAT_YIELD (R469). -/
  | heartbeatYield
  /-- HEARTBEAT_TIMEOUT (R469). -/
  | heartbeatTimeout
  /-- USER_EVENT_LINE (R312). -/
  | userEventLine (h : Half) (line : Fin 8)
  /-- POR_RELEASE (R505). -/
  | porRelease
  /-- ALIGN_REMEASURE (R461). -/
  | alignRemeasure
  /-- REGISTER_WRITE (R8). -/
  | registerWrite (addr : Nat) (val : Word)
  /-- UNOCCUPIED_OFFSET_READ (R10). -/
  | unoccupiedOffsetRead (addr : Nat) (peek : Bool)
  /-- LATCHING_READ (R480). -/
  | latchingRead (addr : Nat) (peek : Bool)
  /-- COUNTER_CLEAR (R9). -/
  | counterClear (addr : Nat) (val : Word) (eventInCk : Bool)
  /-- ERR_FIRST_CLEAR (R477). -/
  | errFirstClear (page : Nat) (val : Word) (errInCk : Option (Fin 8 × BitVec 16))
  /-- INT_PEND_CLEAR (R481). -/
  | intPendClear (page : Nat) (val : Word) (hwSet : Word)
  /-- INT_FORCE (R474). -/
  | intForce (page : Nat) (val : Word)
  /-- INT_EN_WRITE (R481). -/
  | intEnWrite (page : Nat) (val : Word)
  /-- PCIE_REQUEST (R402). -/
  | pcieRequest (tlp : Tlp)
  /-- PERST_N (R328). -/
  | perstN (low : Bool)
  /-- MODE (R404). -/
  | mode
  /-- LANE_CFG_WRITE (R64). -/
  | laneCfgWrite (n : Fin 64) (val : Word)
  /-- CDR_LOCK (R51). -/
  | cdrLock (n : Fin 64)
  /-- CODE_LOCK (R51). -/
  | codeLock (n : Fin 64)
  /-- LANE_ALIGNED (R53). -/
  | laneAligned (n : Fin 64) (depth : Fin 128) (off : BitVec 32)
  /-- ALIGN_RETRY (R52). -/
  | alignRetry (n : Fin 64) (val : Word)
  /-- HOLD_WRITE (R59). -/
  | holdWrite (n : Fin 64) (val : Word)
  /-- LANE_SYMBOL (R49). -/
  | laneSymbol (n : Fin 64) (theta : BitVec 8) (buf : RxBuf) (sym : LineSym)
  /-- WANDER_SLIP (R54). -/
  | wanderSlip (n : Fin 64) (words : Nat)
  /-- LOSS_OF_SIGNAL (R56). -/
  | lossOfSignal (n : Fin 64) (sig : Bool)
  /-- LPC_REF_WRITE (R68). -/
  | lpcRefWrite (val : Word)
  /-- LPC_SYN_INC_WRITE (R68). -/
  | lpcSynIncWrite (hi : Bool) (val : Word)
  /-- LPC_ANCHOR_WRITE (R68). -/
  | lpcAnchorWrite (hi : Bool) (val : Word)
  /-- LREF_EDGE (R67). -/
  | lrefEdge (theta : BitVec 8) (mark : Bool)
  /-- EVS_WRITE (R87). -/
  | evsWrite (h : Half)
  /-- EVS_READ (R87). -/
  | evsRead (h : Half)
  /-- EVS_CANCEL (R87). -/
  | evsCancel (h : Half)
  /-- SIEVE_WRITE (R114). -/
  | sieveWrite (q : Fin 16)
  /-- SIEVE_READ (R90). -/
  | sieveRead (q : Fin 16)
  /-- SIEVE_INVALIDATE (R90). -/
  | sieveInvalidate (q : Fin 16)
  /-- SIEVE_DEFAULT_WRITE (R114). -/
  | sieveDefaultWrite (q : Fin 16) (val : Word)
  /-- SEQ_ARM (R109). -/
  | seqArm (h : Half) (q : Fin 8) (arm : Bool)
  /-- SEQ_RESET (R109). -/
  | seqReset (h : Half) (q : Fin 8)
  /-- TRIG_WRITE (R112). -/
  | trigWrite (h : Half)
  /-- TRIG_READ (R115). -/
  | trigRead (h : Half)
  /-- FLOW_WRITE (R134). -/
  | flowWrite (h : Half)
  /-- FLOW_READ (R134). -/
  | flowRead (h : Half)
  /-- FLOW_CLEAR (R134). -/
  | flowClear (h : Half)
  /-- NEWT_RUN_WRITE (R145). -/
  | newtRunWrite (e : Fin 192) (val : Word)
  /-- IMEM_DATA_ACCESS (R158). -/
  | imemDataAccess (e : Fin 192) (wr : Option Word) (peek : Bool)
  /-- PLU_REL_WRITE (R194). -/
  | pluRelWrite (h : Half) (val : Word)
  /-- STRIPE_WRITE (R187). -/
  | stripeWrite (h : Half) (off : Fin 4096) (val : Word)
  /-- CQ_FLUSH (R211). -/
  | cqFlush (h : Half)
  /-- TAP_POP (R213). -/
  | tapPop (h : Half) (peek : Bool)
  /-- BAR2_WRITE (R218). -/
  | bar2Write (off : Nat)
  /-- SEEK_GO (R223). -/
  | seekGo (h : Half) (val : Word)
  /-- TMPL_DATA_ACCESS (R230). -/
  | tmplDataAccess (h : Half) (wr : Option Word) (peek : Bool)
  /-- PLAY_WRITE (R242). -/
  | playWrite (h : Half)
  /-- PLAY_READ (R242). -/
  | playRead (h : Half)
  /-- PLAY_ARM (R242). -/
  | playArm (h : Half)
  /-- PLAY_START (R242). -/
  | playStart (h : Half)
  /-- PLAY_STOP (R242). -/
  | playStop (h : Half)
  /-- RETRAIN_WRITE (R250). -/
  | retrainWrite (c : Fin 16)
  /-- MEMI_REGION_WRITE (R262). -/
  | memiRegionWrite (c : Fin 16) (k : Fin 33) (val : Word)
  /-- DEVFAIL_WRITE (R270). -/
  | devfailWrite (c : Fin 16) (val : Word)
  /-- REGION_INIT (R273). -/
  | regionInit (c : Fin 16) (r : Fin 16)
  /-- LOG_CLR (R274). -/
  | logClr (c : Fin 16)
  /-- RETIREMENT_WRITE (R275). -/
  | retirementWrite (c : Fin 16) (k : Fin 64) (val : Word)
  /-- CRYPT_RANGE_WRITE (R279). -/
  | cryptRangeWrite (h : Half) (k : Fin 8) (reg : Fin 6) (val : Word)
  /-- CRYPT_INIT (R284). -/
  | cryptInit (h : Half) (k : Fin 8)
  /-- LOAD_SLOT (R294). -/
  | loadSlot (h : Half) (k : Fin 8) (slot : Fin 16)
  /-- UNWRAP (R294). -/
  | unwrap (h : Half) (k : Fin 8) (slot : Fin 16)
  /-- RESEAL (R293). -/
  | reseal (h : Half) (val : Word)
  /-- SILL_CONTENTION (R304). -/
  | sillContention (b : Fin 12) (sill : Fin 7904) (winner : Fin 960)
  /-- BM36_DOUBLE_WRITE (R306). -/
  | bm36DoubleWrite (b : Fin 12) (m : Fin 1440) (lo : Fin 36864) (wd : Fin 73) (data : BitVec 72)
  /-- BM36_ECC_READ (R307). -/
  | bm36EccRead (b : Fin 12) (unc : Bool)
  /-- QUEUE_PORT_RECORD (R313). -/
  | queuePortRecord (b : Fin 12) (lane : Fin 64) (typ : Fin 16) (lp : LP) (flow : Fin 4096) (tag : BitVec 24) (payload : List Byte)
  /-- STIM_PORT_ACTION (R314). -/
  | stimPortAction (h : Half) (arg0 arg1 : Word)
  /-- RO_START (R315). -/
  | roStart (i : Fin 16) (val : Word)
  /-- FLASH_PROGRAM (R317). -/
  | flashProgram
  /-- FLASH_ERASE (R317). -/
  | flashErase
  /-- SERIAL_TX_WRITE (R318). -/
  | serialTxWrite (p : Fin 6) (val : Word)
  /-- I2C_WRITE (R318). -/
  | i2cWrite (start : Bool) (data : Byte)
  /-- I2C_READ_ACK (R318). -/
  | i2cReadAck (start : Bool) (data : Byte)
  /-- I2C_READ_NACK (R318). -/
  | i2cReadNack (start : Bool) (data : Byte)
  /-- I2C_STOP (R318). -/
  | i2cStop (start : Bool) (data : Byte)
  /-- SERIAL_RX_REMOVE (R318). -/
  | serialRxRemove (p : Fin 7)
  /-- SERIAL_BYTE_RECEIVED (R318). -/
  | serialByteReceived (p : Fin 7) (val : Byte) (bad : Bool)
  /-- IDCODE (R319). -/
  | idcode
  /-- SAMPLE_PRELOAD (R319). -/
  | samplePreload (bits : List Bool)
  /-- EXTEST (R319). -/
  | extest
  /-- CLAMP (R319). -/
  | clamp
  /-- HIGHZ (R319). -/
  | highz
  /-- BYPASS (R319). -/
  | bypass
  /-- TRST_N (R328). -/
  | trstN
  /-- POWER_ON_RESET (R327). -/
  | powerOnReset (aonKept : Bool)
  /-- RESET_PIN (R506). -/
  | resetPin (low : Bool)
  /-- REFCLK_LOSS (R327). -/
  | refclkLoss (lost : Bool)
  /-- SOFTWARE_RESET (R329). -/
  | softwareReset (h : Half) (val : Word)
  /-- QREF_LOSS (R324). -/
  | qrefLoss (q : Fin 16)
  /-- QREF_RETURN (R324). -/
  | qrefReturn (q : Fin 16)
  /-- FPLL_WRITE (R326). -/
  | fpllWrite (h : Half) (j : Fin 2) (val : Word)
  /-- FPLL_LOCK_LOSS (R326). -/
  | fpllLockLoss (h : Half) (j : Fin 2)
  /-- FPLL_LOCK (R326). -/
  | fpllLock (h : Half) (j : Fin 2)
  /-- LOAD_START (R343). -/
  | loadStart (port : Fin 4) (bytes : List Byte)
  /-- CFG_BUS_WORD (R346). -/
  | cfgBusWord (w : Word)
  /-- CFG_ERR_SEEN (R347). -/
  | cfgErrSeen
  /-- OSPI_GO (R345). -/
  | ospiGo
  /-- HOST_GO (R348). -/
  | hostGo
  /-- ABORT (R344). -/
  | abort
  /-- PROGRAM_KEY (R352). -/
  | programKey
  /-- REVOKE (R352). -/
  | revoke
  /-- SET_DBG_PLAIN (R352). -/
  | setDbgPlain
  /-- LOCK_FUSES (R352). -/
  | lockFuses
  /-- DEV_CFG_LOCK (R484). -/
  | devCfgLock
  /-- BAY_ARM (R355). -/
  | bayArm (b : Fin 12) (val : Word)
  /-- BAY_DISARM (R363). -/
  | bayDisarm (b : Fin 12) (val : Word)
  /-- FILL (R368). -/
  | fill (val : Word)
  /-- SWAP (R379). -/
  | swap (h : Half)
  /-- TBL_DATA_WRITE (R379). -/
  | tblDataWrite (h : Half) (val : Word)
  /-- REVIVE (R383). -/
  | revive (h : Half) (val : Word)
  /-- KICK (R393). -/
  | kick (k : Fin 4)
  /-- MBOX_WRITE (R392). -/
  | mboxWrite (k : Fin 4) (val : Word)
  /-- IRQ_ACK (R392). -/
  | irqAck (k : Fin 4) (val : Word)
  /-- CLEAN (R390). -/
  | clean (k : Fin 4) (ic : Bool)
  /-- INVAL (R390). -/
  | inval (k : Fin 4) (ic : Bool)
  /-- CLEAN_INVAL (R390). -/
  | cleanInval (k : Fin 4) (ic : Bool)
  /-- BOOT_GO (R395). -/
  | bootGo
  /-- YIELD (R399). -/
  | yield
  /-- CMD_TAIL_WRITE (R403). -/
  | cmdTailWrite (val : Word)
  /-- FW_DONE (R405). -/
  | fwDone (val : Word)
  /-- FW_EVT_GO (R406). -/
  | fwEvtGo
  /-- RING_RESET (R407). -/
  | ringReset
  /-- DMA_GO (R412). -/
  | dmaGo (k : Fin 64) (val : Word)
  /-- DMA_PAUSE (R419). -/
  | dmaPause (k : Fin 64) (val : Word)
  /-- DMA_ABORT (R420). -/
  | dmaAbort (k : Fin 64) (val : Word)
  /-- HALT (R422). -/
  | halt
  /-- RESUME (R422). -/
  | resume
  /-- STEP (R422). -/
  | step
  /-- DBG_RANGE_WRITE (R429). -/
  | dbgRangeWrite (k : Fin 12) (reg : Fin 6) (val : Word)
  /-- IM_READ (R430). -/
  | imRead
  /-- IM_WRITE (R430). -/
  | imWrite
  /-- DOMAIN_CLOSE (R434). -/
  | domainClose (val : Word)
  /-- DOMAIN_OPEN (R434). -/
  | domainOpen (val : Word)
  /-- THERMAL_SAMPLE (R441). -/
  | thermalSample (b : Fin 12) (temp : Int) (ok : Bool)
  /-- SUPPLY_WINDOW_FAULT (R444). -/
  | supplyWindowFault (g : Fin 8)
  /-- PMBUS_POLL (R444). -/
  | pmbusPoll (reads : List RailRead)
  /-- RAIL_TARGET_WRITE (R447). -/
  | railTargetWrite (r : Fin 8) (val : Word)
  /-- SCARF_LINK_UP (R453). -/
  | scarfLinkUp (latency : BitVec 16) (phase : BitVec 8)
  /-- SCARF_LANE_LOSS (R453). -/
  | scarfLaneLoss
  /-- PAIR_EN_WRITE (R457). -/
  | pairEnWrite (val : Word)
  /-- HELLO (R458). -/
  | hello (seq ack : Word) (good : Bool) (payload : List Byte)
  /-- HEARTBEAT (R469). -/
  | heartbeat (seq ack : Word) (good : Bool) (payload : List Byte) (peer : Fin 8)
  /-- JOURNAL (R463). -/
  | journal (seq ack : Word) (good : Bool) (payload : List Byte)
  /-- WRITE_MESSAGE (R464). -/
  | writeMessage (seq ack : Word) (good : Bool) (payload : List Byte)
  /-- SEQ_STATE (R462). -/
  | seqState (seq ack : Word) (good : Bool) (payload : List Byte)
  /-- ALIGN_REC (R461). -/
  | alignRec (seq ack : Word) (good : Bool) (payload : List Byte)
  /-- DIGEST (R467). -/
  | digest (seq ack : Word) (good : Bool) (payload : List Byte)
  /-- RESYNC_REQ (R468). -/
  | resyncReq (seq ack : Word) (good : Bool) (payload : List Byte)
  /-- RESYNC_DATA (R468). -/
  | resyncData (seq ack : Word) (good : Bool) (payload : List Byte)
  /-- RESYNC_ALL (R467). -/
  | resyncAll
  /-- NAK (R455). -/
  | nak (seq ack : Word) (good : Bool) (payload : List Byte)
  /-- CLAIM (R471). -/
  | claim
  /-- MONITOR_GROUP_CHANGE (R444). -/
  | monitorGroupChange (g : Fin 8) (ok : Bool)
  /-- SUPPLIES_UP (R504). -/
  | suppliesUp
  deriving DecidableEq, Repr

end Sys2Proof
end

