-- ==== Sys2Proof/Decode.lean ====
section
/-! DEFINITION. Commands spelled by words: no row of the operations table gives bits, so no word spells a command. -/

namespace Sys2Proof

/-- The command a word spells by the table's bits: none, since the table gives no row any bits. -/
def decodeTableWord (_nbits _w : Nat) : Option Instr := none

end Sys2Proof
end

