-- ==== Sys2Proof/Config.lean ====
section
/-! DEFINITION. What an implementation fixes and the values the spec leaves open: opaque constants, of which no proof knows
a value. -/

namespace Sys2Proof.Config

open Sys2Proof.Machine

/-- The resident monitor in the Gecko ROM (R385), which the spec does not print: the byte at an offset. -/
opaque monitorRom : Nat → BitVec 8

/-- How long a packet takes that meets a routing entry which is not VALID (R378, of which the spec says nothing), beside the links it has
crossed: a function of its source and its destination. -/
opaque strayCk : Nat → Nat → Nat

/-- The trained word of a strobe group (Table 12-6) that no command brings: a function of the channel, the group and the CK its training
began. -/
opaque trainWord : Nat → Nat → Nat → BitVec 32

/-- Phase of a lane's generated TX slots (R233, R489: the line input and the configuration set it; the spec gives no value): a function
of the lane, taken modulo the symbol duration. -/
opaque txPhase : Nat → Nat

/-- The last three bytes of a SKP ordered set that ends a playback record (R240), which PCI Express defines and the spec does not
restate: a function of the lane and the slot. -/
opaque skpTail : Nat → Nat → BitVec 24

/-- The Ceraris development key of fuse slot 0 (R351), which the spec does not print. -/
opaque devKey : BitVec 256

/-- The routing-resource table of the Juast design suite (Table 17-4), which the spec does not give: where in the selects of a CLUSTER
frame a multiplexer has its own (the lowest bit and the width), and what a select other than 0 connects. -/
opaque muxBits : Mux → Nat × Nat
opaque muxSource : Mux → Nat → Src

/-- What a pin reads that nothing is connected to, or a wire that the grid does not have: a function of the cluster, the pin (none: such a
wire) and the CK. -/
opaque openPin : Nat → Option Pin → Nat → Bool

/-- What a hard block beside a cluster brings its wires: a function of the cluster, the output and the CK. -/
opaque hardOut : Nat → Nat → Nat → Bool

/-- The value of a loop of tables that no flip-flop breaks: a function of the CK. -/
opaque loopValue : Nat → Bool

/-- Of a cell in a CK, what the spec does not state: bit 0 O5 where the table is not split, bit 1 the carry out where it takes no part
in the chain. -/
opaque cellFree : Nat → Nat → Nat → BitVec 2

/-- The clock sources that the selects of a CLUSTER frame give mortise ports, BM36 ports and slices (R310; Table 17-4): global network Gr
as r − 1, or none for any other source. -/
opaque portClocks : Nat → BitVec 864 → List (Option (Fin 4))

/-- The ratio of a mortise port's clock, less 1 (R310, R311), which the configuration sets: a function of the port and the CK of the
startup release. -/
opaque portRatio : Port → Option Nat → Fin 4

/-- The bay in which the user side of a port lies to which the spec gives none (R356): none where no design uses it; a function of the port
and the CK of the startup release. -/
opaque portBay : Port → Option Nat → Option (Fin 12)

/-- How the configuration sets an arithmetic slice (R309), to which no table gives bits of a stream: none where no design uses it, else bit 0
and 1 the mode (0 DUAL, 1 WIDE, 2 CLMUL), bit 2 MAC, bit 3 subtract, bit 4 which product of DUAL the accumulator takes, bits 8 to 11 which
of its operands are signed, bits 12 to 14 the bay network of its clock; a function of the bay, the slice and the CK of the bay's release. -/
opaque sliceMode : Nat → Nat → Option Nat → Option (BitVec 16)

/-- What the routing brings a slice: bits 0 to 127 its operands, bit 128 its synchronous reset; a function of the bay, the slice, the CK. -/
opaque sliceIn : Nat → Nat → Nat → BitVec 129

/-- How the configuration sets a BM36 (R305): none where no design uses it, else bits 0 to 2 the shape (0 to 5 the width 1, 2, 4, 9, 18, 36;
6 the shape 512 × 72), bit 3 its ECC bit, bits 4 and 5 the output registers of port A and B, bits 8 to 10 and 11 to 13 their bay networks;
a function of the bay, the BM36 and the CK of the bay's release. -/
opaque bmMode : Nat → Nat → Option Nat → Option (BitVec 16)

/-- What the routing brings a port of a BM36: bits 0 to 71 data, bits 72 to 86 the address, bit 87 a write, bit 88 an access; a function
of the bay, the BM36, the port and the CK. -/
opaque bmIn : Nat → Nat → Nat → Nat → BitVec 89

/-- The source of a bay network (R325, to which no table gives bits of a stream): global network Gr as r − 1, or none for a fabric PLL or
a UCLK input; a function of the bay, the network and the CK of the bay's release, where it has had one. -/
opaque bayNet : Nat → Nat → Option Nat → Option (Fin 4)

/-- Does a bay network that no global network feeds bring an edge in a CK? Such a clock bears no phase relation to CK (R326): a function of
the bay, the network and the CK. -/
opaque outerEdge : Nat → Nat → Nat → Bool

/-- A ring oscillator's edges above the fewest that R315 allows: a function of the oscillator and the CK its count ends. -/
opaque roCount : Nat → Nat → Nat

/-- The frequency in kHz that the board gives a UCLK input, by half and input, of which R322 states the most alone. -/
opaque uclkKHz : Nat → Nat → Nat

/-- What frame 0 of a half's NOC frames lists (R378), whose layout the spec does not give: how many routers there are, and the router
at the end of a router's link, from the frame's bytes. -/
opaque nocRouters : List (BitVec 8) → Nat
opaque nocLinkEnd : List (BitVec 8) → Nat → Nat → Nat

/-- The cause byte of a pair sync mark for a role change that no heartbeat or PAIR_OK brings (R458, R457), to which Table 24-7 gives none:
a function of the CK. -/
opaque roleMarkCause : Nat → BitVec 8

/-- How the user logic behind a NoC mortise port answers a request (R374, R492: the user logic decides): the user cycles it takes, a STATUS
and the bytes read, or no answer; a function of the port, the request's number and the CK it is delivered. -/
opaque portAnswer : Nat → Nat → Nat → Option (Nat × Nat × List (BitVec 8))

end Sys2Proof.Config
end

