-- ==== Sys2Proof/Machine/RegTable.lean ====
section
/-! DEFINITION. The register table of every page (Tables 2-2 to 24-9 and 25-1): which bits of each register are of
which access type (R6), its reset value, and which bits any write clears. Fields the spec resets 'from stream' are 0
until a stream writes them (R341). -/

namespace Sys2Proof.Machine

/-- The blocks of Table 25-2 (R475). -/
inductive Blk where
  | dev | pmc | therm | cfg | scrub | hostif | dbg | pair | steward | lane | lpc | evs | sieve | trig | flow | plu | cq | idx | stim | drc | memi | crypt | newt | gecko | bay | noc | dma | dmach | clkrst
  deriving DecidableEq, Repr

/-- One row of a register table: `cnt` registers at `off + stride * i`. The masks give the writable bits by access type
(R6); `ro` the named read-only bits; `clr` the bits any write clears (R6, R9); `nOnly` marks the LPC registers that are
writable in the North page only (R88). -/
structure RegDesc where
  off : Nat
  stride : Nat
  cnt : Nat
  rw : Nat
  rwl : Nat
  wo : Nat
  ro : Nat
  reset : Nat
  clr : Nat
  nOnly : Bool
  deriving DecidableEq, Repr

/-- Does the row hold the register at this offset? -/
def RegDesc.covers (r : RegDesc) (off : Nat) : Bool :=
  decide (r.off ≤ off) && decide ((off - r.off) % r.stride = 0) && decide ((off - r.off) / r.stride < r.cnt)

/-- The registers of the common header (Table 25-1), but CTRL and STAT, which belong to the block. -/
def hdrTable : List RegDesc :=
  [⟨0x000, 4, 1, 0, 0, 0, 0xFFFFFFFF, 0, 0, false⟩,  -- PAGE_ID
   ⟨0x004, 4, 1, 0, 0, 0, 0xFFFF, 0x0100, 0, false⟩,  -- PAGE_REV
   ⟨0x010, 4, 1, 0, 0, 0, 0, 0, 0, false⟩,  -- INT_PEND: its row gives its W1C bits by block
   ⟨0x014, 4, 1, 0xFFFFFFFF, 0, 0, 0, 0, 0, false⟩,  -- INT_EN
   ⟨0x018, 4, 1, 0, 0, 0, 0, 0, 0, false⟩,  -- INT_FORCE: its bits by block
   ⟨0x01C, 4, 1, 0, 0, 0, 0x7FFFF, 0, 0xFFFFFFFF, false⟩,  -- ERR_FIRST
   ⟨0x020, 4, 8, 0, 0, 0, 0xFFFFFFFF, 0, 0xFFFFFFFF, false⟩,  -- ERRCNTk
   ⟨0x040, 4, 1, 0, 0, 0, 0xFFFFFFFF, 0, 0, false⟩,  -- SEQ
   ⟨0x044, 4, 1, 0xF1F7F, 0, 0, 0, 0, 0, false⟩]  -- IRQ_ROUTE

/-- The registers of a DEV page. -/
def devTable : List RegDesc :=
  [⟨0x008, 4, 1, 0, 0, 0, 0, 0, 0, false⟩,  -- CTRL: no fields
   ⟨0x00C, 4, 1, 0, 0, 0, 0, 0, 0, false⟩,  -- STAT: no fields
   ⟨0x100, 4, 1, 0, 0, 0, 0x3FFFF, 0, 0, false⟩,  -- MODE
   ⟨0x104, 4, 1, 0, 0, 0x8000000F, 0, 0, 0, false⟩,  -- MODE_REQ
   ⟨0x108, 4, 1, 0, 0x1, 0, 0, 0, 0, false⟩,  -- SAFE
   ⟨0x10C, 4, 1, 0, 0x1, 0, 0, 0, 0, false⟩,  -- CFG_LOCK
   ⟨0x180, 8, 8, 0, 0, 0, 0xFFFFFFFF, 0, 0xFFFFFFFF, false⟩,  -- OCM_CORR
   ⟨0x184, 8, 8, 0, 0, 0, 0xFFFFFFFF, 0, 0xFFFFFFFF, false⟩,  -- OCM_UNC
   ⟨0x400, 4, 16, 0x1F, 0, 0x80000000, 0x7FFF0020, 0, 0, false⟩,  -- RO
   ⟨0x440, 4, 1, 0, 0, 0x3, 0x30, 0, 0, false⟩,  -- FLASH_CMD
   ⟨0x444, 4, 1, 0x1FFFFFF, 0, 0, 0, 0, 0, false⟩,  -- FLASH_ADDR
   ⟨0x448, 4, 1, 0, 0xFFFF, 0, 0, 0, 0, false⟩,  -- FLASH_WP
   ⟨0x460, 16, 7, 0xFFFF003E, 0x1, 0, 0, 0x21F0000, 0, false⟩,  -- SP_CTRL
   ⟨0x464, 16, 7, 0, 0, 0, 0x3FF7F, 0, 0, false⟩,  -- SP_STAT
   ⟨0x468, 16, 7, 0, 0, 0x7FF, 0, 0, 0, false⟩,  -- SP_TX
   ⟨0x46C, 16, 7, 0, 0, 0, 0x1FF, 0, 0, false⟩,  -- SP_RX
   ⟨0x500, 4, 64, 0xFFFFFFFF, 0, 0, 0, 0xFFFFFFFF, 0, false⟩]  -- FLASH_BUF

/-- The registers of a PMC page. -/
def pmcTable : List RegDesc :=
  [⟨0x8, 4, 1, 0x1, 0x6, 0, 0, 0, 0, false⟩,  -- CTRL
   ⟨0xC, 4, 1, 0, 0, 0, 0x7FF, 0, 0, false⟩,  -- STAT
   ⟨0x100, 4, 1, 0, 0, 0x33F, 0x3000, 0, 0, false⟩,  -- DOM_CMD
   ⟨0x104, 4, 1, 0xFFFFFFFF, 0, 0, 0, 0xF00640A, 0, false⟩,  -- RAMP
   ⟨0x108, 4, 1, 0xFFFF, 0, 0, 0, 0x3E8, 0, false⟩,  -- POLL_US
   ⟨0x110, 4, 4, 0, 0, 0, 0xFFFFFFFF, 0, 0, false⟩,  -- DOM_STATE
   ⟨0x120, 4, 1, 0, 0, 0, 0xFFFFFFFF, 0, 0, false⟩,  -- DOM_BYDEV_LO
   ⟨0x124, 4, 1, 0, 0, 0, 0xFFFFFFFF, 0, 0, false⟩,  -- DOM_BYDEV_HI
   ⟨0x128, 4, 1, 0, 0, 0, 0xFFFFFFFF, 0, 0, false⟩,  -- DOM_FORCED_LO
   ⟨0x12C, 4, 1, 0, 0, 0, 0xFFFFFFFF, 0, 0, false⟩,  -- DOM_FORCED_HI
   ⟨0x130, 4, 1, 0, 0, 0, 0xFFFFFFFF, 0, 0xFFFFFFFF, false⟩,  -- CLOSE_CNT
   ⟨0x134, 4, 1, 0, 0, 0, 0xFFFFFFFF, 0, 0xFFFFFFFF, false⟩,  -- CANCEL_CNT
   ⟨0x200, 16, 8, 0, 0x3FFFF, 0, 0xC0000, 0, 0, false⟩,  -- RAIL_CFG
   ⟨0x204, 16, 8, 0, 0xFFFFFFFF, 0, 0, 0, 0, false⟩,  -- RAIL_LIMIT
   ⟨0x208, 16, 8, 0xFFFF, 0, 0, 0, 0, 0, false⟩,  -- RAIL_TARGET
   ⟨0x20C, 16, 8, 0, 0, 0, 0xFFFFFFFF, 0, 0, false⟩]  -- RAIL_MEAS

/-- The registers of a THERM page. -/
def thermTable : List RegDesc :=
  [⟨0x008, 4, 1, 0, 0, 0, 0, 0, 0, false⟩,  -- CTRL: no fields
   ⟨0xC, 4, 1, 0, 0, 0, 0x1FFFFFF, 0, 0, false⟩,  -- STAT
   ⟨0x100, 4, 12, 0, 0, 0, 0x1FFFF, 0, 0, false⟩,  -- BAY
   ⟨0x140, 4, 12, 0, 0, 0, 0xFFFF, 0, 0, false⟩,  -- MAX
   ⟨0x180, 4, 1, 0, 0, 0, 0xFFFFF, 0, 0, false⟩]  -- HIGHEST

/-- The registers of a CFG page. -/
def cfgTable : List RegDesc :=
  [⟨0x8, 4, 1, 0, 0, 0x7, 0, 0, 0, false⟩,  -- CTRL
   ⟨0xC, 4, 1, 0, 0, 0, 0x7F, 0, 0, false⟩,  -- STAT
   ⟨0x100, 4, 1, 0xFFFFFFFF, 0, 0, 0, 0xF4240, 0, false⟩,  -- TIMEOUT
   ⟨0x104, 4, 1, 0xFFFFFFFF, 0, 0, 0, 0, 0, false⟩,  -- OSPI_ADDR
   ⟨0x108, 4, 1, 0xFFFFFFFF, 0, 0, 0, 0, 0, false⟩,  -- HOST_ADDR_LO
   ⟨0x10C, 4, 1, 0xFFFFFFFF, 0, 0, 0, 0, 0, false⟩,  -- HOST_ADDR_HI
   ⟨0x110, 4, 1, 0xFFFFFFFF, 0, 0, 0, 0, 0, false⟩,  -- HOST_LEN
   ⟨0x114, 4, 1, 0, 0, 0, 0xFFFFFFFF, 0, 0, false⟩,  -- FRAMES
   ⟨0x118, 4, 1, 0, 0, 0, 0xFFFFFFFF, 0, 0, false⟩,  -- BLOCKS
   ⟨0x11C, 4, 1, 0, 0, 0, 0xFFFFFFFF, 0, 0, false⟩,  -- FAIL_BLOCK
   ⟨0x120, 4, 1, 0, 0, 0, 0x3FFF, 0, 0, false⟩,  -- HDR
   ⟨0x124, 4, 4, 0, 0, 0, 0xFFFFFFFF, 0, 0, false⟩,  -- DESIGN
   ⟨0x140, 4, 1, 0x3F, 0, 0, 0, 0, 0, false⟩,  -- FUSE_SEL
   ⟨0x144, 4, 8, 0, 0, 0xFFFFFFFF, 0, 0, 0, false⟩,  -- FUSE_DATA
   ⟨0x164, 4, 1, 0, 0, 0x7, 0x30, 0, 0, false⟩,  -- FUSE_CMD
   ⟨0x168, 4, 1, 0, 0, 0, 0xFFFFFFFF, 0, 0, false⟩,  -- FUSE_SLOTS_LO
   ⟨0x16C, 4, 1, 0, 0, 0, 0xFFFFFFFF, 0, 0, false⟩,  -- FUSE_SLOTS_HI
   ⟨0x170, 4, 1, 0, 0, 0, 0xFFFFFFFF, 0, 0, false⟩,  -- FUSE_KCV
   ⟨0x174, 4, 1, 0, 0, 0, 0x3, 0, 0, false⟩]  -- FUSE_DEV

/-- The registers of a SCRUB page. -/
def scrubTable : List RegDesc :=
  [⟨0x8, 4, 1, 0x3, 0, 0x4, 0, 0x1, 0, false⟩,  -- CTRL
   ⟨0xC, 4, 1, 0, 0, 0, 0x3FFF, 0, 0, false⟩,  -- STAT
   ⟨0x100, 4, 1, 0, 0x1F, 0, 0, 0, 0, false⟩,  -- SHADOW_CFG
   ⟨0x104, 4, 1, 0, 0x3FFFFFF, 0, 0, 0, 0, false⟩,  -- SHADOW_BASE
   ⟨0x108, 4, 1, 0xFFF, 0, 0, 0, 0xFFF, 0, false⟩,  -- BAYS
   ⟨0x10C, 4, 1, 0xFFF, 0, 0, 0, 0, 0, false⟩,  -- FILL_MASK
   ⟨0x110, 4, 1, 0, 0, 0, 0xFFFFFFFF, 0, 0, false⟩,  -- LAP
   ⟨0x114, 4, 1, 0, 0, 0, 0xFFFFF, 0, 0, false⟩,  -- POS
   ⟨0x118, 4, 1, 0, 0, 0, 0x807FFFFF, 0, 0xFFFFFFFF, false⟩,  -- FIRST
   ⟨0x11C, 4, 1, 0, 0, 0, 0x7FFFFF, 0, 0, false⟩,  -- LAST
   ⟨0x120, 4, 1, 0, 0, 0, 0xFFFFFFFF, 0, 0xFFFFFFFF, false⟩,  -- MISMATCH_CNT
   ⟨0x124, 4, 1, 0, 0, 0, 0xFFFFFFFF, 0, 0xFFFFFFFF, false⟩]  -- REPAIR_CNT

/-- The registers of a HOSTIF page. -/
def hostifTable : List RegDesc :=
  [⟨0x8, 4, 1, 0x3, 0, 0x4, 0, 0, 0, false⟩,  -- CTRL
   ⟨0xC, 4, 1, 0, 0, 0, 0x7, 0, 0, false⟩,  -- STAT
   ⟨0x100, 4, 1, 0xFFFFF000, 0, 0, 0, 0, 0, false⟩,  -- CMD_BASE_LO
   ⟨0x104, 4, 1, 0xFFFFFFFF, 0, 0, 0, 0, 0, false⟩,  -- CMD_BASE_HI
   ⟨0x108, 4, 1, 0xF, 0, 0, 0, 0x4, 0, false⟩,  -- CMD_CFG
   ⟨0x10C, 4, 1, 0xFFFF, 0, 0, 0, 0, 0, false⟩,  -- CMD_TAIL
   ⟨0x110, 4, 1, 0, 0, 0, 0xFFFF, 0, 0, false⟩,  -- CMD_HEAD
   ⟨0x114, 4, 1, 0, 0, 0, 0xFFFFFFFF, 0, 0, false⟩,  -- CMD_SEQ_SEEN
   ⟨0x118, 4, 1, 0, 0, 0, 0xFFFFFFFF, 0, 0, false⟩,  -- CMD_SEQ_DONE
   ⟨0x11C, 4, 1, 0xFFFF, 0, 0, 0, 0x2710, 0, false⟩,  -- CMD_TIMEOUT
   ⟨0x120, 4, 1, 0xFFFFF000, 0, 0, 0, 0, 0, false⟩,  -- EVT_BASE_LO
   ⟨0x124, 4, 1, 0xFFFFFFFF, 0, 0, 0, 0, 0, false⟩,  -- EVT_BASE_HI
   ⟨0x128, 4, 1, 0x3FF, 0, 0, 0, 0x4, 0, false⟩,  -- EVT_CFG
   ⟨0x12C, 4, 1, 0xFFFF, 0, 0, 0, 0, 0, false⟩,  -- EVT_HEAD
   ⟨0x130, 4, 1, 0, 0, 0, 0xFFFF, 0, 0, false⟩,  -- EVT_TAIL
   ⟨0x134, 4, 1, 0, 0, 0, 0xFFFFFFFF, 0x1, 0, false⟩,  -- EVT_SEQ_NEXT
   ⟨0x138, 4, 1, 0, 0, 0, 0x1FF, 0, 0, false⟩,  -- EVT_PEND
   ⟨0x13C, 4, 1, 0, 0, 0, 0xFFFFFFFF, 0, 0xFFFFFFFF, false⟩,  -- EVT_DROP_CNT
   ⟨0x140, 4, 1, 0, 0, 0, 0xFFFFFFFF, 0, 0xFFFFFFFF, false⟩,  -- CMD_DUP_CNT
   ⟨0x180, 4, 16, 0, 0, 0, 0xFFFFFFFF, 0, 0, false⟩,  -- FW_CMD
   ⟨0x1C0, 4, 1, 0, 0, 0xFFFF0007, 0, 0, 0, false⟩,  -- FW_DONE
   ⟨0x1C4, 4, 10, 0xFFFFFFFF, 0, 0, 0, 0, 0, false⟩,  -- FW_RES
   ⟨0x200, 4, 16, 0xFFFFFFFF, 0, 0, 0, 0, 0, false⟩,  -- FW_EVT
   ⟨0x240, 4, 1, 0, 0, 0x1, 0, 0, 0, false⟩]  -- FW_EVT_GO

/-- The registers of a DBG page. -/
def dbgTable : List RegDesc :=
  [⟨0x8, 4, 1, 0x1, 0x2, 0, 0, 0x1, 0, false⟩,  -- CTRL
   ⟨0xC, 4, 1, 0, 0, 0, 0xFF, 0, 0, false⟩,  -- STAT
   ⟨0x100, 4, 1, 0xFF, 0, 0, 0, 0, 0, false⟩,  -- SEL
   ⟨0x104, 4, 1, 0, 0, 0x3, 0x30, 0, 0, false⟩,  -- RUN_CMD
   ⟨0x108, 4, 1, 0x1, 0, 0, 0, 0, 0, false⟩,  -- TGT_CFG
   ⟨0x10C, 4, 1, 0, 0, 0, 0xFFF, 0, 0, false⟩,  -- TGT_STAT
   ⟨0x110, 4, 1, 0xFFFFFFFF, 0, 0, 0, 0, 0, false⟩,  -- DPC_LO
   ⟨0x114, 4, 1, 0xFFFFFFFF, 0, 0, 0, 0, 0, false⟩,  -- DPC_HI
   ⟨0x118, 4, 1, 0x3FFF, 0, 0, 0, 0, 0, false⟩,  -- REG_SEL
   ⟨0x11C, 4, 1, 0, 0, 0x3, 0x30, 0, 0, false⟩,  -- REG_CMD
   ⟨0x120, 4, 1, 0xFFFFFFFF, 0, 0, 0, 0, 0, false⟩,  -- REG_DATA_LO
   ⟨0x124, 4, 1, 0xFFFFFFFF, 0, 0, 0, 0, 0, false⟩,  -- REG_DATA_HI
   ⟨0x12C, 4, 1, 0xFFFFFFFF, 0, 0, 0, 0, 0, false⟩,  -- LIVE
   ⟨0x140, 32, 12, 0xFFFFFFFF, 0, 0, 0, 0, 0, false⟩,  -- RNG_BASE_LO
   ⟨0x144, 32, 12, 0xFFFFFFFF, 0, 0, 0, 0, 0, false⟩,  -- RNG_BASE_HI
   ⟨0x148, 32, 12, 0xFFFFFFFF, 0, 0, 0, 0, 0, false⟩,  -- RNG_LIMIT_LO
   ⟨0x14C, 32, 12, 0xFFFFFFFF, 0, 0, 0, 0, 0, false⟩,  -- RNG_LIMIT_HI
   ⟨0x150, 32, 12, 0x3FF, 0, 0, 0x400, 0, 0, false⟩,  -- RNG_CTRL
   ⟨0x154, 32, 12, 0xFFFF, 0, 0, 0, 0, 0, false⟩,  -- RNG_CTX
   ⟨0x300, 4, 1, 0xFFFFFFFF, 0, 0, 0, 0, 0, false⟩,  -- IM_ADDR_LO
   ⟨0x304, 4, 1, 0xFFFFFFFF, 0, 0, 0, 0, 0, false⟩,  -- IM_ADDR_HI
   ⟨0x308, 4, 1, 0, 0, 0x3, 0x1F30, 0, 0, false⟩,  -- IM_CMD
   ⟨0x30C, 4, 1, 0xFFFFFFFF, 0, 0, 0, 0xFFFFFFFF, 0, false⟩,  -- IM_BE
   ⟨0x320, 4, 8, 0xFFFFFFFF, 0, 0, 0, 0, 0, false⟩,  -- IM_DATA
   ⟨0x340, 4, 1, 0, 0, 0, 0xFFFFFFFF, 0, 0xFFFFFFFF, false⟩,  -- STOP_CNT
   ⟨0x344, 4, 1, 0, 0, 0, 0xFFFFFFFF, 0, 0xFFFFFFFF, false⟩]  -- IM_CNT

/-- The registers of a PAIR page. -/
def pairTable : List RegDesc :=
  [⟨0x8, 4, 1, 0x1, 0, 0x6, 0, 0, 0, false⟩,  -- CTRL
   ⟨0xC, 4, 1, 0, 0, 0, 0x7FF, 0, 0, false⟩,  -- STAT
   ⟨0x100, 4, 1, 0xFFFFFFFF, 0, 0, 0, 0x5DC07D0, 0, false⟩,  -- HB
   ⟨0x104, 4, 1, 0xFFFFFF, 0, 0, 0, 0x4000, 0, false⟩,  -- APPLY
   ⟨0x108, 4, 1, 0, 0, 0, 0xFFFF, 0, 0, false⟩,  -- LINK_CK
   ⟨0x10C, 4, 1, 0, 0, 0, 0xFF, 0, 0, false⟩,  -- CK_PHASE
   ⟨0x110, 4, 1, 0, 0, 0, 0xFFFFFFFF, 0, 0, false⟩,  -- TX_SEQ
   ⟨0x114, 4, 1, 0, 0, 0, 0xFFFFFFFF, 0, 0, false⟩,  -- RX_SEQ
   ⟨0x118, 4, 1, 0, 0, 0, 0xFFFF, 0, 0, false⟩,  -- HB_AGE
   ⟨0x11C, 4, 1, 0, 0, 0, 0xFFFF, 0, 0, false⟩,  -- SEQ_PEND
   ⟨0x120, 4, 1, 0, 0x1FF, 0, 0, 0, 0, false⟩,  -- MJRN_CFG
   ⟨0x124, 4, 1, 0, 0x3FFFFFF, 0, 0, 0, 0, false⟩,  -- MJRN_BASE
   ⟨0x140, 4, 1, 0, 0, 0, 0xFFFFFFFF, 0, 0xFFFFFFFF, false⟩,  -- CHECKED_CNT
   ⟨0x144, 4, 1, 0, 0, 0, 0xFFFFFFFF, 0, 0xFFFFFFFF, false⟩,  -- MISMATCH_CNT
   ⟨0x148, 4, 1, 0, 0, 0, 0xFFFFFFFF, 0, 0xFFFFFFFF, false⟩,  -- UNCHECKED_CNT
   ⟨0x14C, 4, 1, 0, 0, 0, 0xFFFFFFFF, 0, 0xFFFFFFFF, false⟩,  -- RESYNC_CNT
   ⟨0x150, 4, 1, 0, 0, 0, 0xFFFFFFFF, 0, 0xFFFFFFFF, false⟩,  -- DUP_CNT
   ⟨0x154, 4, 1, 0, 0, 0, 0xFFFFFFFF, 0, 0xFFFFFFFF, false⟩,  -- NAK_CNT
   ⟨0x158, 4, 1, 0, 0, 0, 0xFFFFFFFF, 0, 0xFFFFFFFF, false⟩,  -- LATE_CNT
   ⟨0x15C, 4, 1, 0, 0, 0, 0xFFFFFFFF, 0, 0xFFFFFFFF, false⟩,  -- FAILOVER_CNT
   ⟨0x160, 4, 1, 0, 0, 0, 0xFFFFFFFF, 0, 0xFFFFFFFF, false⟩,  -- JRN_DIFF_CNT
   ⟨0x400, 4, 64, 0, 0, 0, 0x8000FFFF, 0, 0, false⟩]  -- SKEW

/-- The registers of a STEWARD page. -/
def stewardTable : List RegDesc :=
  [⟨0x8, 4, 1, 0, 0, 0x1, 0, 0, 0, false⟩,  -- CTRL
   ⟨0xC, 4, 1, 0, 0, 0, 0xFF, 0x14, 0, false⟩,  -- STAT (straps 0: ROLE_S is FOLLOWER)
   ⟨0x100, 4, 1, 0, 0, 0, 0xFFFF, 0x1, 0, false⟩,  -- EPOCH
   ⟨0x104, 4, 1, 0, 0, 0, 0xFFFFFFFF, 0, 0xFFFFFFFF, false⟩,  -- HANDOVER_CNT
   ⟨0x108, 4, 1, 0, 0, 0, 0xFFFFFFFF, 0, 0xFFFFFFFF, false⟩,  -- ISOLATED_CK
   ⟨0x120, 4, 1, 0, 0, 0x1, 0, 0, 0, false⟩,  -- BOOT_CTRL
   ⟨0x124, 4, 1, 0, 0, 0, 0x3, 0, 0, false⟩,  -- BOOT_STAT
   ⟨0x128, 4, 1, 0, 0, 0, 0xFFFFFFFF, 0, 0, false⟩]  -- BOOT_CK

/-- The registers of a LANE page. -/
def laneTable : List RegDesc :=
  [⟨0x008, 4, 1, 0, 0, 0, 0, 0, 0, false⟩,  -- CTRL: no fields
   ⟨0xC, 4, 1, 0, 0, 0, 0x1FFF, 0, 0, false⟩,  -- STAT
   ⟨0x100, 4, 1, 0x1FFFF, 0, 0, 0, 0xA40, 0, false⟩,  -- CFG
   ⟨0x104, 4, 1, 0x7F, 0, 0, 0, 0, 0, false⟩,  -- HOLD
   ⟨0x108, 4, 1, 0xFFFFF, 0, 0x80000000, 0, 0x41388, 0, false⟩,  -- ALIGN
   ⟨0x10C, 4, 1, 0x3FFFF, 0, 0, 0, 0xFC0, 0, false⟩,  -- TXEQ
   ⟨0x110, 4, 1, 0xFFFFFFF, 0, 0, 0, 0x10FDFB, 0, false⟩,  -- FRAME
   ⟨0x120, 4, 1, 0, 0, 0, 0xFFFFFFFF, 0, 0xFFFFFFFF, false⟩,  -- CV_CNT
   ⟨0x124, 4, 1, 0, 0, 0, 0xFFFFFFFF, 0, 0xFFFFFFFF, false⟩,  -- LOCK_LOSS_CNT
   ⟨0x128, 4, 1, 0, 0, 0, 0xFFFFFFFF, 0, 0xFFFFFFFF, false⟩,  -- SLIP_CNT
   ⟨0x12C, 4, 1, 0, 0, 0, 0xFFFFFFFF, 0, 0xFFFFFFFF, false⟩,  -- SYM_LO
   ⟨0x130, 4, 1, 0, 0, 0, 0xFFFFFFFF, 0, 0xFFFFFFFF, false⟩,  -- SYM_HI
   ⟨0x134, 4, 1, 0, 0, 0, 0xFFFFFFFF, 0, 0, false⟩]  -- ALIGN_US

/-- The registers of a LPC page. -/
def lpcTable : List RegDesc :=
  [⟨0x008, 4, 1, 0, 0, 0, 0, 0, 0, false⟩,  -- CTRL: no fields
   ⟨0xC, 4, 1, 0, 0, 0, 0xF, 0, 0, false⟩,  -- STAT
   ⟨0x100, 4, 1, 0x7FFFFF, 0, 0, 0, 0x5000, 0, true⟩,  -- REF
   ⟨0x104, 4, 1, 0xFFFFFFFF, 0, 0, 0, 0, 0, true⟩,  -- SYN_INC_LO
   ⟨0x108, 4, 1, 0xFF, 0, 0, 0, 0x1, 0, true⟩,  -- SYN_INC_HI
   ⟨0x10C, 4, 1, 0xFFFFFFFF, 0, 0, 0, 0, 0, true⟩,  -- ANCHOR_LO
   ⟨0x110, 4, 1, 0xFFFFFFFF, 0, 0, 0, 0, 0, true⟩,  -- ANCHOR_HI
   ⟨0x118, 4, 1, 0, 0, 0, 0xFFFFFFFF, 0, 0, false⟩,  -- LP_LO
   ⟨0x11C, 4, 1, 0, 0, 0, 0xFFFFFFFF, 0, 0, false⟩,  -- LP_HI
   ⟨0x120, 4, 1, 0, 0, 0, 0xFF, 0, 0, false⟩,  -- LP_FRAC
   ⟨0x124, 4, 1, 0, 0, 0, 0xFFFFFFFF, 0, 0, false⟩,  -- RATE_LO
   ⟨0x128, 4, 1, 0, 0, 0, 0xFF, 0, 0, false⟩,  -- RATE_HI
   ⟨0x12C, 4, 1, 0, 0, 0, 0xFFFFFFFF, 0, 0xFFFFFFFF, false⟩,  -- LOSS_CNT
   ⟨0x130, 4, 1, 0, 0, 0, 0xFFFFFFFF, 0, 0xFFFFFFFF, false⟩,  -- REANCHOR_CNT
   ⟨0x134, 4, 1, 0, 0, 0, 0xFFFFFFFF, 0, 0xFFFFFFFF, false⟩,  -- FW_CK
   ⟨0x138, 4, 1, 0, 0, 0, 0xFFFFFFFF, 0, 0, false⟩,  -- LAST_JUMP_LO
   ⟨0x13C, 4, 1, 0, 0, 0, 0xFFFFFFFF, 0, 0, false⟩,  -- LAST_JUMP_HI
   ⟨0x140, 4, 1, 0, 0, 0, 0xFFFFFFFF, 0, 0xFFFFFFFF, false⟩,  -- MARK_SLIP_CNT
   ⟨0x144, 4, 1, 0, 0, 0, 0xFFFFFFFF, 0, 0xFFFFFFFF, false⟩,  -- MARK_MISS_CNT
   ⟨0x200, 4, 32, 0, 0, 0, 0xFFFF, 0, 0, false⟩,  -- OFF
   ⟨0x280, 4, 32, 0xFFFF, 0, 0, 0, 0, 0, false⟩]  -- SKEW

/-- The registers of a EVS page. -/
def evsTable : List RegDesc :=
  [⟨0x008, 4, 1, 0, 0, 0, 0, 0, 0, false⟩,  -- CTRL: no fields
   ⟨0xC, 4, 1, 0, 0, 0, 0x7FF, 0, 0, false⟩,  -- STAT
   ⟨0x100, 4, 1, 0x3FF, 0, 0, 0, 0, 0, false⟩,  -- IDX
   ⟨0x104, 4, 8, 0xFFFFFFFF, 0, 0, 0, 0, 0, false⟩,  -- DATA
   ⟨0x124, 4, 1, 0, 0, 0x3, 0x30, 0, 0, false⟩,  -- CMD
   ⟨0x128, 4, 1, 0, 0, 0, 0xFFFFFFFF, 0, 0xFFFFFFFF, false⟩,  -- FIRE_CNT
   ⟨0x12C, 4, 1, 0, 0, 0, 0xFFFFFFFF, 0, 0xFFFFFFFF, false⟩,  -- LATE_CNT
   ⟨0x130, 4, 1, 0, 0, 0, 0xFFFFFFFF, 0, 0xFFFFFFFF, false⟩,  -- MODE_DISC_CNT
   ⟨0x134, 4, 1, 0, 0, 0, 0xFFFFFFFF, 0, 0xFFFFFFFF, false⟩,  -- PAST_CNT
   ⟨0x138, 4, 1, 0, 0, 0, 0xFFFFFFFF, 0, 0xFFFFFFFF, false⟩]  -- FW_FIRE_CNT

/-- The registers of a SIEVE page. -/
def sieveTable : List RegDesc :=
  [⟨0x8, 4, 1, 0x1, 0, 0, 0, 0, 0, false⟩,  -- CTRL
   ⟨0xC, 4, 1, 0, 0, 0, 0x7F, 0, 0, false⟩,  -- STAT
   ⟨0x100, 4, 1, 0x3F, 0, 0, 0, 0, 0, false⟩,  -- IDX
   ⟨0x104, 4, 16, 0xFFFFFFFF, 0, 0, 0, 0, 0, false⟩,  -- DATA
   ⟨0x144, 4, 1, 0, 0, 0x3, 0x30, 0, 0, false⟩,  -- CMD
   ⟨0x148, 4, 1, 0xFFFF0003, 0, 0, 0, 0x400000, 0, false⟩,  -- DEFAULT
   ⟨0x14C, 4, 1, 0, 0, 0, 0xFFFFFFFF, 0, 0xFFFFFFFF, false⟩,  -- KEEP_CNT
   ⟨0x150, 4, 1, 0, 0, 0, 0xFFFFFFFF, 0, 0xFFFFFFFF, false⟩,  -- DROP_CNT
   ⟨0x154, 4, 1, 0, 0, 0, 0xFFFFFFFF, 0, 0xFFFFFFFF, false⟩,  -- SLICE_CNT
   ⟨0x158, 4, 1, 0, 0, 0, 0xFFFFFFFF, 0, 0xFFFFFFFF, false⟩,  -- SHED_CNT
   ⟨0x15C, 4, 1, 0, 0, 0, 0xFFFFFFFF, 0, 0xFFFFFFFF, false⟩,  -- NOMATCH_CNT
   ⟨0x200, 4, 64, 0, 0, 0, 0xFFFFFFFF, 0, 0xFFFFFFFF, false⟩]  -- HIT

/-- The registers of a TRIG page. -/
def trigTable : List RegDesc :=
  [⟨0x008, 4, 1, 0, 0, 0, 0, 0, 0, false⟩,  -- CTRL: no fields
   ⟨0x00C, 4, 1, 0, 0, 0, 0, 0, 0, false⟩,  -- STAT: no fields
   ⟨0x100, 4, 1, 0x3F7, 0, 0, 0, 0, 0, false⟩,  -- IDX
   ⟨0x104, 4, 8, 0xFFFFFFFF, 0, 0, 0, 0, 0, false⟩,  -- DATA
   ⟨0x124, 4, 1, 0, 0, 0x3, 0x30, 0, 0, false⟩,  -- CMD
   ⟨0x140, 4, 8, 0x1, 0, 0x2, 0, 0, 0, false⟩,  -- SEQ_CTRL
   ⟨0x160, 4, 8, 0, 0, 0, 0x3F, 0, 0, false⟩,  -- SEQ_STAT
   ⟨0x180, 4, 8, 0, 0, 0, 0xFFFFFFFF, 0, 0, false⟩,  -- SEQ_CNT
   ⟨0x1A0, 4, 8, 0, 0, 0, 0xFFFFFFFF, 0, 0xFFFFFFFF, false⟩,  -- SEQ_ACT_CNT
   ⟨0x1C0, 4, 1, 0, 0, 0, 0xFFFFFFFF, 0, 0xFFFFFFFF, false⟩,  -- MODE_DISC_CNT
   ⟨0x1C4, 4, 1, 0, 0, 0, 0xFFFFFFFF, 0, 0xFFFFFFFF, false⟩]  -- BASE_SAT_CNT

/-- The registers of a FLOW page. -/
def flowTable : List RegDesc :=
  [⟨0x008, 4, 1, 0, 0, 0, 0, 0, 0, false⟩,  -- CTRL: no fields
   ⟨0xC, 4, 1, 0, 0, 0, 0x1FFF, 0x1, 0, false⟩,  -- STAT
   ⟨0x100, 4, 1, 0xFFF, 0, 0, 0, 0, 0, false⟩,  -- IDX
   ⟨0x104, 4, 16, 0xFFFFFFFF, 0, 0, 0, 0, 0, false⟩,  -- DATA
   ⟨0x144, 4, 1, 0, 0, 0x3, 0x30, 0, 0, false⟩,  -- CMD
   ⟨0x148, 4, 1, 0, 0, 0, 0xFFFFFFFF, 0, 0xFFFFFFFF, false⟩,  -- UNREG_CNT
   ⟨0x14C, 4, 1, 0, 0, 0, 0xFFFFFFFF, 0, 0xFFFFFFFF, false⟩,  -- GAP_CNT
   ⟨0x150, 4, 1, 0, 0, 0, 0xFFFFFFFF, 0, 0xFFFFFFFF, false⟩]  -- LOST_CNT

/-- The registers of a PLU page. -/
def pluTable : List RegDesc :=
  [⟨0x8, 4, 1, 0x1, 0, 0, 0, 0x1, 0, false⟩,  -- CTRL
   ⟨0xC, 4, 1, 0, 0, 0, 0x3, 0, 0, false⟩,  -- STAT
   ⟨0x100, 4, 1, 0x7, 0, 0, 0, 0x2, 0, false⟩,  -- EWMA
   ⟨0x104, 4, 1, 0xFFFFFF, 0, 0, 0, 0x6400, 0, false⟩,  -- CHAN_CAP
   ⟨0x108, 4, 1, 0x7FFFFFF, 0, 0, 0, 0x2008100, 0, false⟩,  -- MOVE
   ⟨0x10C, 4, 1, 0x3FFFF, 0, 0, 0, 0x20000, 0, false⟩,  -- SPILL_TARGET
   ⟨0x110, 4, 1, 0, 0, 0xFFFFFFFF, 0, 0, 0, false⟩,  -- REL
   ⟨0x120, 4, 8, 0x1FFF, 0, 0, 0, 0, 0, false⟩,  -- STRIPE
   ⟨0x140, 4, 8, 0, 0, 0, 0x1FFFFF, 0, 0, false⟩,  -- FREE
   ⟨0x160, 4, 8, 0, 0, 0, 0xFFFFFFFF, 0, 0, false⟩,  -- LOAD
   ⟨0x180, 8, 8, 0, 0xFFFFF, 0, 0, 0, 0, false⟩,  -- POOL_BASE
   ⟨0x184, 8, 8, 0, 0x1FFFFF, 0, 0, 0, 0, false⟩,  -- POOL_SIZE
   ⟨0x1C0, 4, 1, 0, 0xFF, 0, 0, 0, 0, false⟩,  -- JRN_CFG
   ⟨0x1C4, 4, 1, 0, 0x3FFFFFF, 0, 0, 0, 0, false⟩,  -- JRN_BASE
   ⟨0x1C8, 4, 1, 0, 0, 0, 0xFFFFFFFF, 0, 0, false⟩,  -- JRN_SEQ
   ⟨0x1CC, 4, 1, 0, 0, 0, 0x1FFFFF, 0, 0, false⟩,  -- RETIRED
   ⟨0x1D0, 4, 1, 0, 0, 0, 0xFFFFFFFF, 0, 0xFFFFFFFF, false⟩,  -- OPEN_CNT
   ⟨0x1D4, 4, 1, 0, 0, 0, 0xFFFFFFFF, 0, 0xFFFFFFFF, false⟩,  -- WRAP_CNT
   ⟨0x1D8, 4, 1, 0, 0, 0, 0xFFFFFFFF, 0, 0xFFFFFFFF, false⟩,  -- STEAL_CNT
   ⟨0x1DC, 4, 1, 0, 0, 0, 0xFFFFFFFF, 0, 0xFFFFFFFF, false⟩,  -- FREEZE_CNT
   ⟨0x1E0, 4, 1, 0, 0, 0, 0xFFFFFFFF, 0, 0xFFFFFFFF, false⟩,  -- MOVE_CNT
   ⟨0x1E4, 4, 1, 0, 0, 0, 0xFFFFFFFF, 0, 0xFFFFFFFF, false⟩,  -- OVERLOAD_CNT
   ⟨0x1E8, 4, 1, 0, 0, 0, 0xFFFFFFFF, 0, 0xFFFFFFFF, false⟩,  -- SPILL_CNT
   ⟨0x1EC, 4, 1, 0, 0, 0, 0xFFFFFFFF, 0, 0xFFFFFFFF, false⟩,  -- NOENG_CNT
   ⟨0x1F0, 4, 1, 0xFFF, 0, 0, 0, 0, 0, false⟩,  -- RATE_IDX
   ⟨0x1F4, 4, 1, 0, 0, 0, 0xFFFFFFFF, 0, 0, false⟩,  -- RATE
   ⟨0x200, 4, 96, 0, 0, 0, 0x7FF, 0, 0, false⟩]  -- ENGLOAD

/-- The registers of a CQ page. -/
def cqTable : List RegDesc :=
  [⟨0x8, 4, 1, 0, 0, 0x1, 0, 0, 0, false⟩,  -- CTRL
   ⟨0xC, 4, 1, 0, 0, 0, 0xF, 0, 0, false⟩,  -- STAT
   ⟨0x100, 4, 1, 0xFFFFFF, 0, 0, 0, 0xE0C080, 0, false⟩,  -- LEVELS
   ⟨0x104, 4, 1, 0xFFFF, 0, 0, 0, 0x60A0, 0, false⟩,  -- SPILL
   ⟨0x108, 4, 1, 0, 0, 0, 0x3FFFFF, 0, 0, false⟩,  -- FILL
   ⟨0x10C, 4, 1, 0, 0, 0, 0x3FFFFF, 0, 0x3FFFFF, false⟩,  -- MAXFILL
   ⟨0x110, 4, 1, 0, 0, 0, 0x7FFF, 0, 0, false⟩,  -- HEAD
   ⟨0x114, 4, 1, 0, 0, 0, 0xFFFFFFFF, 0, 0, false⟩,  -- HEAD_AGE
   ⟨0x118, 4, 1, 0, 0, 0, 0xFFFFFFFF, 0, 0xFFFFFFFF, false⟩,  -- FULL_LOSS_CNT
   ⟨0x11C, 4, 1, 0, 0, 0, 0xFFFFFFFF, 0, 0xFFFFFFFF, false⟩,  -- NEWALLOC_CNT
   ⟨0x130, 4, 4, 0x1FFF, 0, 0, 0, 0, 0, false⟩,  -- TAP
   ⟨0x140, 4, 1, 0xFFF, 0, 0, 0, 0, 0, false⟩,  -- TAP_WAIT
   ⟨0x144, 4, 1, 0, 0, 0, 0x80001FFF, 0, 0, false⟩,  -- TAP_POP
   ⟨0x148, 4, 1, 0, 0, 0, 0xFFFFFFFF, 0, 0xFFFFFFFF, false⟩,  -- TAP_DROP_CNT
   ⟨0x180, 4, 16, 0, 0, 0, 0xFFFFFFFF, 0, 0, false⟩]  -- TAP_LATCH

/-- The registers of a IDX page. -/
def idxTable : List RegDesc :=
  [⟨0x8, 4, 1, 0x1, 0, 0, 0, 0, 0, false⟩,  -- CTRL
   ⟨0xC, 4, 1, 0, 0, 0, 0x1, 0, 0, false⟩,  -- STAT
   ⟨0x100, 4, 1, 0, 0xFF, 0, 0, 0, 0, false⟩,  -- DIR_CFG
   ⟨0x104, 4, 1, 0, 0x3FFFFFF, 0, 0, 0, 0, false⟩,  -- DIR_BASE
   ⟨0x108, 4, 1, 0xFFFFFFFF, 0, 0, 0, 0, 0, false⟩,  -- SEEK_LP_LO
   ⟨0x10C, 4, 1, 0xFFFFFFFF, 0, 0, 0, 0, 0, false⟩,  -- SEEK_LP_HI
   ⟨0x110, 4, 1, 0, 0, 0x80001FFF, 0, 0, 0, false⟩,  -- SEEK_CMD
   ⟨0x114, 4, 1, 0, 0, 0, 0xFFFFFFFF, 0, 0, false⟩,  -- SEEK_RES_LO
   ⟨0x118, 4, 1, 0, 0, 0, 0xFF, 0, 0, false⟩,  -- SEEK_RES_HI
   ⟨0x11C, 4, 1, 0, 0, 0, 0xFFFF0007, 0, 0, false⟩,  -- SEEK_STAT
   ⟨0x120, 4, 1, 0xFFFFFFFF, 0, 0, 0, 0, 0, false⟩,  -- DESC_SEL
   ⟨0x124, 4, 1, 0, 0, 0x1, 0x30, 0, 0, false⟩,  -- DESC_CMD
   ⟨0x128, 4, 4, 0, 0, 0, 0xFFFFFFFF, 0, 0, false⟩,  -- DESC
   ⟨0x140, 4, 1, 0xFFF, 0, 0, 0, 0, 0, false⟩,  -- FLOWSEL
   ⟨0x144, 4, 1, 0, 0, 0, 0x8007FFFF, 0, 0, false⟩,  -- RANGE
   ⟨0x148, 4, 1, 0, 0, 0, 0x7FFFF, 0, 0, false⟩,  -- NEWEST
   ⟨0x14C, 4, 1, 0, 0, 0, 0xFFFFFFFF, 0, 0, false⟩,  -- FRONT_LO
   ⟨0x150, 4, 1, 0, 0, 0, 0xFF, 0, 0, false⟩,  -- FRONT_HI
   ⟨0x160, 4, 1, 0, 0, 0, 0xFFFFFFFF, 0, 0, false⟩,  -- HOLE_LO
   ⟨0x164, 4, 1, 0, 0, 0, 0x1FFFFF, 0, 0, false⟩,  -- HOLE_HI
   ⟨0x168, 4, 1, 0, 0, 0, 0x80000007, 0, 0x80000007, false⟩,  -- HOLE
   ⟨0x170, 4, 1, 0, 0, 0, 0xFFFFFFFF, 0, 0xFFFFFFFF, false⟩,  -- UNWR_RD_CNT
   ⟨0x174, 4, 1, 0, 0, 0, 0xFFFFFFFF, 0, 0xFFFFFFFF, false⟩,  -- OVWR_RD_CNT
   ⟨0x178, 4, 1, 0, 0, 0, 0xFFFFFFFF, 0, 0xFFFFFFFF, false⟩,  -- POIS_RD_CNT
   ⟨0x17C, 4, 1, 0, 0, 0, 0xFFFFFFFF, 0, 0xFFFFFFFF, false⟩,  -- UNAV_RD_CNT
   ⟨0x180, 4, 1, 0, 0, 0, 0xFFFFFFFF, 0, 0xFFFFFFFF, false⟩,  -- DENY_RD_CNT
   ⟨0x184, 4, 1, 0, 0, 0, 0xFFFFFFFF, 0, 0xFFFFFFFF, false⟩,  -- EVICT_CNT
   ⟨0x188, 4, 1, 0, 0, 0, 0xFFFFFFFF, 0, 0xFFFFFFFF, false⟩]  -- SEEK_CNT

/-- The registers of a STIM page. -/
def stimTable : List RegDesc :=
  [⟨0x8, 4, 1, 0x1, 0, 0, 0, 0, 0, false⟩,  -- CTRL
   ⟨0xC, 4, 1, 0, 0, 0, 0x7F, 0, 0, false⟩,  -- STAT
   ⟨0x100, 4, 1, 0x1FFFFF, 0, 0, 0, 0, 0, false⟩,  -- TMPL_ADDR
   ⟨0x104, 4, 1, 0xFFFFFFFF, 0, 0, 0, 0, 0, false⟩,  -- TMPL_DATA
   ⟨0x110, 4, 1, 0xFFF, 0, 0, 0, 0, 0, false⟩,  -- CAP_FLOW
   ⟨0x114, 4, 1, 0xFFFFFFFF, 0, 0, 0, 0, 0, false⟩,  -- CAP_LANES
   ⟨0x120, 4, 1, 0x3F3F, 0, 0, 0, 0, 0, false⟩,  -- PLAY_IDX
   ⟨0x124, 4, 8, 0xFFFFFFFF, 0, 0, 0, 0, 0, false⟩,  -- PLAY_DATA
   ⟨0x144, 4, 1, 0, 0, 0x7, 0x30, 0, 0, false⟩,  -- PLAY_CMD
   ⟨0x148, 4, 1, 0, 0xFFF, 0, 0, 0, 0, false⟩,  -- PAT_CFG
   ⟨0x14C, 4, 1, 0, 0x3FFFFFF, 0, 0, 0, 0, false⟩,  -- PAT_BASE
   ⟨0x150, 4, 1, 0, 0x3FFFFFF, 0, 0, 0, 0, false⟩,  -- PAT_SIZE
   ⟨0x160, 4, 1, 0, 0, 0, 0xFFFFFFFF, 0, 0xFFFFFFFF, false⟩,  -- APPLY_CNT
   ⟨0x164, 4, 1, 0, 0, 0, 0xFFFFFFFF, 0, 0xFFFFFFFF, false⟩,  -- NOROOM_CNT
   ⟨0x168, 4, 1, 0, 0, 0, 0xFFFFFFFF, 0, 0xFFFFFFFF, false⟩,  -- COLLIDE_CNT
   ⟨0x16C, 4, 1, 0, 0, 0, 0xFFFFFFFF, 0, 0xFFFFFFFF, false⟩,  -- NOTX_CNT
   ⟨0x170, 4, 1, 0, 0, 0, 0xFFFFFFFF, 0, 0xFFFFFFFF, false⟩,  -- PLAY_LATE_CNT
   ⟨0x174, 4, 1, 0, 0, 0, 0xFFFFFFFF, 0, 0xFFFFFFFF, false⟩,  -- RD_FIX_CNT
   ⟨0x200, 4, 32, 0x7F, 0, 0, 0x780, 0, 0, false⟩,  -- LANE
   ⟨0x300, 4, 64, 0, 0, 0, 0xFFFF0003, 0, 0, false⟩]  -- PLAY_STAT

/-- The registers of a DRC page. -/
def drcTable : List RegDesc :=
  [⟨0x8, 4, 1, 0, 0x1, 0x2, 0, 0, 0, false⟩,  -- CTRL
   ⟨0xC, 4, 1, 0, 0, 0, 0x3F, 0, 0, false⟩,  -- STAT
   ⟨0x100, 4, 1, 0, 0x1FF, 0, 0, 0, 0, false⟩,  -- CFG
   ⟨0x104, 4, 1, 0, 0xFFFFFFFF, 0, 0, 0, 0, false⟩,  -- TIMING0
   ⟨0x108, 4, 1, 0, 0xFFFFFFFF, 0, 0, 0, 0, false⟩,  -- TIMING1
   ⟨0x10C, 4, 1, 0, 0x7FFFF, 0, 0, 0, 0, false⟩,  -- TIMING2
   ⟨0x110, 4, 1, 0xFFFF, 0, 0, 0, 0x841, 0, false⟩,  -- TRACK
   ⟨0x120, 4, 1, 0x1F, 0, 0, 0, 0, 0, false⟩,  -- LANE_SEL
   ⟨0x124, 4, 1, 0, 0, 0, 0xFFFFFFFF, 0, 0, false⟩,  -- LANE_TRAIN
   ⟨0x128, 4, 1, 0, 0, 0, 0xFFFF, 0, 0, false⟩,  -- LANE_DRIFT
   ⟨0x12C, 4, 1, 0, 0, 0, 0xFFFF, 0, 0, false⟩,  -- TRAIN_INFO
   ⟨0x130, 4, 1, 0, 0, 0, 0xFFFF, 0, 0, false⟩,  -- MR4
   ⟨0x140, 4, 1, 0, 0, 0, 0xFFFFFFFF, 0, 0xFFFFFFFF, false⟩,  -- CORR_CNT
   ⟨0x144, 4, 1, 0, 0, 0, 0xFFFFFFFF, 0, 0xFFFFFFFF, false⟩,  -- DRIFT_CNT
   ⟨0x148, 4, 1, 0, 0, 0, 0xFFFFFFFF, 0, 0xFFFFFFFF, false⟩,  -- HOT_CNT
   ⟨0x14C, 4, 1, 0, 0, 0, 0xFFFFFFFF, 0, 0xFFFFFFFF, false⟩,  -- SR_CNT
   ⟨0x150, 4, 1, 0, 0, 0, 0xFFFFFFFF, 0, 0xFFFFFFFF, false⟩,  -- PROMOTE_CNT
   ⟨0x154, 4, 1, 0, 0, 0, 0x7F, 0, 0x7F, false⟩,  -- MAXWAIT
   ⟨0x158, 4, 1, 0, 0, 0, 0xFFFFFFFF, 0, 0xFFFFFFFF, false⟩,  -- HIT_CNT
   ⟨0x15C, 4, 1, 0, 0, 0, 0xFFFFFFFF, 0, 0xFFFFFFFF, false⟩,  -- CLOSED_CNT
   ⟨0x160, 4, 1, 0, 0, 0, 0xFFFFFFFF, 0, 0xFFFFFFFF, false⟩]  -- CONFLICT_CNT

/-- The registers of a MEMI page. -/
def memiTable : List RegDesc :=
  [⟨0x8, 4, 1, 0x1, 0, 0x2, 0, 0x1, 0, false⟩,  -- CTRL
   ⟨0xC, 4, 1, 0, 0, 0, 0xFF, 0, 0, false⟩,  -- STAT
   ⟨0x100, 8, 16, 0, 0x3FFFFFF, 0, 0, 0, 0, false⟩,  -- REGION_BASE
   ⟨0x104, 8, 16, 0x50000000, 0xFFFFFFF, 0x20000000, 0, 0, 0, false⟩,  -- REGION_CTRL
   ⟨0x180, 4, 1, 0, 0x1, 0, 0, 0, 0, false⟩,  -- DEFAULT
   ⟨0x184, 4, 1, 0xFFFF, 0, 0, 0, 0xFFFF, 0, false⟩,  -- DEVFAIL
   ⟨0x188, 4, 1, 0xFFFFFF, 0, 0, 0, 0x1004, 0, false⟩,  -- THR
   ⟨0x18C, 4, 1, 0xFFFF, 0, 0, 0, 0, 0, false⟩,  -- SCRUB_INTERVAL
   ⟨0x190, 4, 1, 0, 0, 0, 0xFFFFFFFF, 0, 0, false⟩,  -- SCRUB_LAP
   ⟨0x194, 4, 1, 0, 0, 0, 0xFFFFFFFF, 0, 0, false⟩,  -- SCRUB_POS
   ⟨0x1A0, 4, 1, 0, 0, 0, 0xFFFFFFFF, 0, 0xFFFFFFFF, false⟩,  -- CORR_CNT
   ⟨0x1A4, 4, 1, 0, 0, 0, 0xFFFFFFFF, 0, 0xFFFFFFFF, false⟩,  -- POISON_RD_CNT
   ⟨0x1A8, 4, 1, 0, 0, 0, 0xFFFFFFFF, 0, 0xFFFFFFFF, false⟩,  -- SCRUB_SKIP_CNT
   ⟨0x1AC, 4, 1, 0, 0, 0, 0xFFFFFFFF, 0, 0xFFFFFFFF, false⟩,  -- RMW_CNT
   ⟨0x1B0, 4, 1, 0, 0, 0, 0xFFFFFFFF, 0, 0xFFFFFFFF, false⟩,  -- LOG_OVF_CNT
   ⟨0x1C0, 4, 1, 0x1F, 0, 0, 0, 0, 0, false⟩,  -- LOG_IDX
   ⟨0x1C4, 4, 3, 0, 0, 0, 0xFFFFFFFF, 0, 0, false⟩,  -- LOG_DATA
   ⟨0x200, 4, 64, 0x7FFFFFF, 0, 0, 0, 0, 0, false⟩]  -- RET

/-- The registers of a CRYPT page. -/
def cryptTable : List RegDesc :=
  [⟨0x008, 4, 1, 0, 0, 0, 0, 0, 0, false⟩,  -- CTRL: no fields
   ⟨0xC, 4, 1, 0, 0, 0, 0x1FFF, 0, 0, false⟩,  -- STAT
   ⟨0x100, 32, 8, 0, 0x3FFFFFF, 0, 0, 0, 0, false⟩,  -- RANGE_BASE
   ⟨0x104, 32, 8, 0, 0x3FFFFFF, 0, 0, 0, 0, false⟩,  -- RANGE_SIZE
   ⟨0x108, 32, 8, 0, 0x3FFFFFF, 0, 0, 0, 0, false⟩,  -- RANGE_META
   ⟨0x10C, 32, 8, 0, 0x3FFFFFF, 0, 0, 0, 0, false⟩,  -- RANGE_META_SIZE
   ⟨0x110, 32, 8, 0, 0x7FF, 0x800, 0x1000, 0, 0, false⟩,  -- RANGE_CFG
   ⟨0x114, 32, 8, 0, 0xFFF, 0, 0, 0, 0, false⟩,  -- RANGE_RIGHTS
   ⟨0x118, 32, 8, 0, 0, 0, 0x3, 0, 0, false⟩,  -- RANGE_KEY
   ⟨0x200, 4, 10, 0, 0, 0xFFFFFFFF, 0, 0, 0, false⟩,  -- KEYIN
   ⟨0x228, 4, 1, 0, 0, 0xF703, 0x30, 0, 0, false⟩,  -- KEY_CMD
   ⟨0x230, 4, 1, 0, 0, 0xFFFFFFFF, 0, 0, 0, false⟩,  -- RESEAL
   ⟨0x234, 4, 1, 0xF, 0, 0, 0, 0, 0, false⟩,  -- RESEAL_LEVEL
   ⟨0x300, 4, 1, 0, 0, 0, 0xFFFFFFFF, 0, 0xFFFFFFFF, false⟩,  -- MISS_CNT
   ⟨0x304, 4, 1, 0, 0, 0, 0xFFFFFFFF, 0, 0xFFFFFFFF, false⟩,  -- RMW_CNT
   ⟨0x308, 4, 1, 0, 0, 0, 0xFFFFFFFF, 0, 0xFFFFFFFF, false⟩]  -- POISON_CNT

/-- The registers of a NEWT page. -/
def newtTable : List RegDesc :=
  [⟨0x8, 4, 1, 0x3, 0, 0, 0, 0x2, 0, false⟩,  -- CTRL
   ⟨0xC, 4, 1, 0, 0, 0, 0xFFF, 0, 0, false⟩,  -- STAT
   ⟨0x100, 4, 1, 0x1FFF, 0, 0, 0, 0, 0, false⟩,  -- START
   ⟨0x104, 4, 1, 0x1FFF, 0, 0, 0, 0, 0, false⟩,  -- TRAP_VEC
   ⟨0x108, 4, 1, 0xFFFFFFFF, 0, 0, 0, 0, 0, false⟩,  -- TASK_LIMIT
   ⟨0x10C, 4, 1, 0, 0, 0, 0x1FFF, 0, 0, false⟩,  -- EPC
   ⟨0x110, 4, 1, 0, 0, 0, 0x3F, 0, 0, false⟩,  -- CAUSE
   ⟨0x114, 4, 1, 0, 0, 0, 0xFFFFFFFF, 0, 0, false⟩,  -- BADADDR_LO
   ⟨0x118, 4, 1, 0, 0, 0, 0xFFFFFFFF, 0, 0, false⟩,  -- BADADDR_HI
   ⟨0x11C, 4, 1, 0, 0, 0, 0x1FFF, 0, 0, false⟩,  -- CUR_FLOW
   ⟨0x120, 4, 1, 0x1FFF, 0, 0, 0, 0, 0, false⟩,  -- IMEM_IDX
   ⟨0x124, 4, 1, 0xFFFFFFFF, 0, 0, 0, 0, 0, false⟩,  -- IMEM_DATA
   ⟨0x130, 4, 1, 0, 0, 0, 0xFFFFFFFF, 0, 0xFFFFFFFF, false⟩,  -- ISSUE_CNT
   ⟨0x134, 4, 1, 0, 0, 0, 0xFFFFFFFF, 0, 0xFFFFFFFF, false⟩,  -- STALL_CNT
   ⟨0x138, 4, 1, 0, 0, 0, 0xFFFFFFFF, 0, 0xFFFFFFFF, false⟩,  -- TAKEN_CNT
   ⟨0x13C, 4, 1, 0, 0, 0, 0xFFFFFFFF, 0, 0xFFFFFFFF, false⟩,  -- EMIT_CNT
   ⟨0x140, 4, 1, 0, 0, 0, 0xFFFFFFFF, 0, 0xFFFFFFFF, false⟩,  -- DISC_CNT
   ⟨0x144, 4, 1, 0, 0, 0, 0xFFFFFFFF, 0, 0xFFFFFFFF, false⟩,  -- POISON_CNT
   ⟨0x148, 4, 1, 0, 0, 0, 0xFFFFFFFF, 0, 0xFFFFFFFF, false⟩,  -- HANDOVER_CNT
   ⟨0x14C, 4, 1, 0, 0, 0, 0xFFFFFFFF, 0, 0xFFFFFFFF, false⟩,  -- SP_BUSY_CNT
   ⟨0x150, 4, 1, 0, 0, 0, 0xFFFFFFFF, 0, 0, false⟩,  -- TEST_LAP_IMEM
   ⟨0x154, 4, 1, 0, 0, 0, 0xFFFFFFFF, 0, 0, false⟩,  -- TEST_LAP_SP
   ⟨0x158, 4, 1, 0, 0, 0, 0xFFFFFFFF, 0, 0, false⟩,  -- TEST_LAP_CTX
   ⟨0x15C, 4, 1, 0, 0, 0, 0x7, 0, 0, false⟩]  -- TEST_STAT

/-- The registers of a GECKO page. -/
def geckoTable : List RegDesc :=
  [⟨0x8, 4, 1, 0, 0, 0x3, 0, 0, 0, false⟩,  -- CTRL
   ⟨0xC, 4, 1, 0, 0, 0, 0x3F, 0, 0, false⟩,  -- STAT
   ⟨0x100, 4, 1, 0xFFFFFFFF, 0, 0, 0, 0, 0, false⟩,  -- WDOG_PERIOD
   ⟨0x104, 4, 1, 0xFFFFFFFF, 0, 0, 0, 0xFFFFFFFF, 0, false⟩,  -- TIMER_CMP_LO
   ⟨0x108, 4, 1, 0xFFFFFFFF, 0, 0, 0, 0xFFFFFFFF, 0, false⟩,  -- TIMER_CMP_HI
   ⟨0x10C, 4, 1, 0xFFFFFFFF, 0, 0, 0, 0, 0, false⟩,  -- MBOX
   ⟨0x110, 4, 1, 0, 0, 0x3F, 0, 0, 0, false⟩,  -- IRQ_ACK
   ⟨0x120, 16, 4, 0xFFFFFFFF, 0, 0, 0, 0, 0, false⟩,  -- CWIN_BASE
   ⟨0x124, 16, 4, 0xFFFFFFFF, 0, 0, 0, 0, 0, false⟩,  -- CWIN_LIMIT
   ⟨0x128, 16, 4, 0x3, 0, 0, 0, 0, 0, false⟩,  -- CWIN_ATTR
   ⟨0x160, 4, 1, 0, 0, 0x7, 0x30, 0, 0, false⟩,  -- DC_OP
   ⟨0x164, 4, 1, 0xFFFFFFFF, 0, 0, 0, 0, 0, false⟩,  -- DC_ADDR_LO
   ⟨0x168, 4, 1, 0xFFFFFFFF, 0, 0, 0, 0, 0, false⟩,  -- DC_ADDR_HI
   ⟨0x16C, 4, 1, 0xFFFFFFFF, 0, 0, 0, 0, 0, false⟩]  -- DC_LEN

/-- The registers of a BAY page. -/
def bayTable : List RegDesc :=
  [⟨0x008, 4, 1, 0, 0, 0, 0, 0, 0, false⟩,  -- CTRL: no fields
   ⟨0x00C, 4, 1, 0, 0, 0, 0, 0, 0, false⟩,  -- STAT: no fields
   ⟨0x100, 4, 1, 0, 0, 0, 0xFFFFFFFF, 0, 0xFFFFFFFF, false⟩,  -- MEM_LOST_CNT
   ⟨0x104, 4, 1, 0, 0, 0, 0xFFFFFFFF, 0, 0xFFFFFFFF, false⟩,  -- MEM_STARVE_CNT
   ⟨0x108, 4, 1, 0, 0, 0, 0x1F, 0, 0x1F, false⟩,  -- MEM_MAXWAIT
   ⟨0x10C, 4, 1, 0x1, 0, 0, 0x2, 0x1, 0, false⟩,  -- TEST
   ⟨0x110, 4, 1, 0, 0, 0, 0xFFFFFFFF, 0, 0, false⟩,  -- TEST_LAP
   ⟨0x140, 4, 1, 0, 0, 0, 0x807FFFFF, 0, 0xFFFFFFFF, false⟩,  -- SILL_FIRST
   ⟨0x144, 4, 1, 0, 0, 0, 0xFFFFFFFF, 0, 0xFFFFFFFF, false⟩,  -- BM_CORR_CNT
   ⟨0x148, 4, 1, 0x1, 0, 0, 0, 0x1, 0, false⟩,  -- BM_TEST
   ⟨0x14C, 4, 1, 0, 0, 0, 0xFFFFFFFF, 0, 0, false⟩,  -- BM_TEST_LAP
   ⟨0x150, 4, 1, 0, 0, 0, 0x7FF, 0, 0, false⟩,  -- BM_REP_CNT
   ⟨0x180, 4, 1, 0x7, 0, 0, 0, 0, 0, false⟩,  -- RCFG_CTRL
   ⟨0x184, 4, 1, 0, 0, 0, 0x7, 0, 0, false⟩,  -- RCFG_STAT
   ⟨0x188, 4, 1, 0, 0, 0, 0xFFFFFFFF, 0, 0xFFFFFFFF, false⟩,  -- RCFG_NOC_CNT
   ⟨0x18C, 4, 1, 0, 0, 0, 0xFFFFFFFF, 0, 0, false⟩,  -- RCFG_CK
   ⟨0x190, 4, 1, 0x2, 0, 0x1, 0, 0, 0, false⟩,  -- SNAP_CTRL
   ⟨0x194, 4, 1, 0, 0, 0, 0x1, 0, 0, false⟩,  -- SNAP_STAT
   ⟨0x198, 4, 1, 0, 0, 0, 0xFFFFFFFF, 0, 0, false⟩,  -- SNAP_CK_LO
   ⟨0x19C, 4, 1, 0, 0, 0, 0xFFFFFFFF, 0, 0, false⟩,  -- SNAP_CK_HI
   ⟨0x1A0, 4, 1, 0, 0, 0, 0xFFFFFFFF, 0, 0, false⟩,  -- SNAP_LP_LO
   ⟨0x1A4, 4, 1, 0, 0, 0, 0xFFFFFFFF, 0, 0, false⟩,  -- SNAP_LP_HI
   ⟨0x1A8, 4, 1, 0, 0, 0, 0xFF, 0, 0, false⟩,  -- SNAP_LP_FRAC
   ⟨0x1B0, 4, 1, 0x3FF, 0, 0, 0, 0, 0, false⟩,  -- RB_IDX
   ⟨0x200, 4, 64, 0, 0, 0, 0xFFFFFFFF, 0, 0, false⟩]  -- RB_DATA

/-- The registers of a NOC page. -/
def nocTable : List RegDesc :=
  [⟨0x8, 4, 1, 0, 0, 0x1, 0, 0, 0, false⟩,  -- CTRL
   ⟨0xC, 4, 1, 0, 0, 0, 0xF, 0, 0, false⟩,  -- STAT
   ⟨0x100, 4, 1, 0x7FF, 0, 0, 0, 0, 0, false⟩,  -- TBL_IDX
   ⟨0x104, 4, 1, 0xFFFF, 0, 0, 0, 0, 0, false⟩,  -- TBL_DATA
   ⟨0x108, 4, 1, 0, 0, 0xFFF, 0, 0, 0, false⟩,  -- REVIVE
   ⟨0x10C, 4, 1, 0, 0, 0, 0x80000FFF, 0, 0xFFFFFFFF, false⟩,  -- DEAD_FIRST
   ⟨0x110, 4, 1, 0, 0, 0, 0xFFFFFFFF, 0, 0xFFFFFFFF, false⟩,  -- INJ_WAIT_CNT
   ⟨0x114, 4, 1, 0, 0, 0, 0xFFFFFFFF, 0, 0xFFFFFFFF, false⟩,  -- HELD_CNT
   ⟨0x118, 4, 1, 0, 0, 0, 0xFFFFFFFF, 0, 0xFFFFFFFF, false⟩,  -- WAKE_CNT
   ⟨0x11C, 4, 1, 0, 0, 0, 0xFFFFFFFF, 0, 0xFFFFFFFF, false⟩,  -- BUSY_CNT
   ⟨0x120, 4, 1, 0, 0, 0, 0xFFFFFFFF, 0, 0xFFFFFFFF, false⟩,  -- CANCEL_CNT
   ⟨0x124, 4, 1, 0, 0, 0, 0xFFFFFFFF, 0, 0xFFFFFFFF, false⟩]  -- ABSORB_CNT

/-- The registers of a DMA page. -/
def dmaTable : List RegDesc :=
  [⟨0x008, 4, 1, 0, 0, 0, 0, 0, 0, false⟩,  -- CTRL: no fields
   ⟨0xC, 4, 1, 0, 0, 0, 0xFFFFFFFF, 0, 0, false⟩,  -- STAT
   ⟨0x100, 4, 1, 0, 0, 0, 0x3F, 0, 0, false⟩,  -- INFLIGHT
   ⟨0x104, 4, 1, 0, 0, 0, 0xFFFFFFFF, 0, 0xFFFFFFFF, false⟩,  -- STARVE_CNT
   ⟨0x108, 4, 1, 0, 0, 0, 0xFFFFFFFF, 0, 0xFFFFFFFF, false⟩,  -- BYTES_LO
   ⟨0x10C, 4, 1, 0, 0, 0, 0xFFFFFFFF, 0, 0xFFFFFFFF, false⟩]  -- BYTES_HI

/-- The registers of a DMACH page. -/
def dmachTable : List RegDesc :=
  [⟨0x8, 4, 1, 0x1A, 0, 0x5, 0, 0, 0, false⟩,  -- CTRL
   ⟨0xC, 4, 1, 0, 0, 0, 0xF, 0, 0, false⟩,  -- STAT
   ⟨0x100, 4, 1, 0xFFFFFFFF, 0, 0, 0, 0, 0, false⟩,  -- DESC_LO
   ⟨0x104, 4, 1, 0xFFFFFFFF, 0, 0, 0, 0, 0, false⟩,  -- DESC_HI
   ⟨0x108, 4, 1, 0x1, 0, 0, 0, 0, 0, false⟩,  -- DESC_CFG
   ⟨0x10C, 4, 1, 0, 0, 0, 0xFFFFFFFF, 0, 0, false⟩,  -- CUR_SRC_LO
   ⟨0x110, 4, 1, 0, 0, 0, 0xFFFFFFFF, 0, 0, false⟩,  -- CUR_SRC_HI
   ⟨0x114, 4, 1, 0, 0, 0, 0xFFFFFFFF, 0, 0, false⟩,  -- CUR_DST_LO
   ⟨0x118, 4, 1, 0, 0, 0, 0xFFFFFFFF, 0, 0, false⟩,  -- CUR_DST_HI
   ⟨0x11C, 4, 1, 0, 0, 0, 0xFFFFFFFF, 0, 0, false⟩,  -- REMAIN
   ⟨0x120, 4, 1, 0, 0, 0, 0xFFFFFFFF, 0, 0, false⟩,  -- CHECK_LO
   ⟨0x124, 4, 1, 0, 0, 0, 0xFFFFFFFF, 0, 0, false⟩,  -- CHECK_HI
   ⟨0x128, 4, 1, 0, 0, 0, 0xFF, 0, 0, false⟩,  -- LAST_STATUS
   ⟨0x12C, 4, 1, 0, 0, 0, 0xFFFFFFFF, 0, 0xFFFFFFFF, false⟩,  -- DESC_CNT
   ⟨0x130, 4, 1, 0, 0, 0, 0xFFFFFFFF, 0, 0xFFFFFFFF, false⟩]  -- RETRY_CNT

/-- The registers of a CLKRST page. -/
def clkrstTable : List RegDesc :=
  [⟨0x008, 4, 1, 0, 0, 0, 0, 0, 0, false⟩,  -- CTRL: no fields
   ⟨0xC, 4, 1, 0, 0, 0, 0x7FF, 0x1, 0, false⟩,  -- STAT
   ⟨0x100, 4, 1, 0, 0xFFFF, 0, 0, 0, 0, false⟩,  -- QREF
   ⟨0x104, 4, 2, 0x1FFFF, 0, 0, 0, 0, 0, false⟩,  -- FPLL
   ⟨0x10C, 4, 1, 0, 0, 0, 0x1F, 1, 0, false⟩,  -- RST_CAUSE (the power-on reset)
   ⟨0x110, 4, 1, 0, 0, 0xFFFF, 0, 0, 0, false⟩,  -- SWRST
   ⟨0x114, 4, 1, 0, 0, 0, 0xFFFFFFFF, 0, 0, false⟩,  -- CK_LO
   ⟨0x118, 4, 1, 0, 0, 0, 0xFFFFFFFF, 0, 0, false⟩,  -- CK_HI
   ⟨0x11C, 4, 1, 0, 0, 0, 0xF, 0, 0, false⟩]  -- PHASE

/-- What Table 25-2 and the owning chapter give a block: its first page, how many pages it has, the INT_PEND bits that can set
(R474), its own registers after the common header's. -/
structure BlkRow where
  base : Nat
  count : Nat
  pendMask : Nat
  table : List RegDesc

/-- The blocks in page order (R475). -/
def blkRows : List (Blk × BlkRow) :=
  [(.dev, ⟨0x0000, 1, 0x1FF0000, devTable⟩),
   (.pmc, ⟨0x0001, 1, 0xF, pmcTable⟩),
   (.therm, ⟨0x0002, 1, 0x1F, thermTable⟩),
   (.cfg, ⟨0x0003, 1, 0xF, cfgTable⟩),
   (.scrub, ⟨0x0004, 1, 0x7, scrubTable⟩),
   (.hostif, ⟨0x0005, 1, 0x3, hostifTable⟩),
   (.dbg, ⟨0x0006, 1, 0x3, dbgTable⟩),
   (.pair, ⟨0x0007, 1, 0x7F, pairTable⟩),
   (.steward, ⟨0x0008, 1, 0x7, stewardTable⟩),
   (.lane, ⟨0x0010, 64, 0x1F, laneTable⟩),
   (.lpc, ⟨0x0050, 2, 0xF, lpcTable⟩),
   (.evs, ⟨0x0052, 2, 0x7, evsTable⟩),
   (.sieve, ⟨0x0060, 16, 0x1, sieveTable⟩),
   (.trig, ⟨0x0070, 2, 0xFF, trigTable⟩),
   (.flow, ⟨0x0080, 2, 0x7, flowTable⟩),
   (.plu, ⟨0x0090, 2, 0x1F, pluTable⟩),
   (.cq, ⟨0x00A0, 2, 0x3F, cqTable⟩),
   (.idx, ⟨0x00A8, 2, 0x7, idxTable⟩),
   (.stim, ⟨0x00B0, 2, 0xF, stimTable⟩),
   (.drc, ⟨0x00C0, 16, 0x1F, drcTable⟩),
   (.memi, ⟨0x00D0, 16, 0x3F, memiTable⟩),
   (.crypt, ⟨0x00E0, 2, 0x3, cryptTable⟩),
   (.newt, ⟨0x0100, 192, 0x7, newtTable⟩),
   (.gecko, ⟨0x01C0, 4, 0x3, geckoTable⟩),
   (.bay, ⟨0x01D0, 12, 0x3FC, bayTable⟩),
   (.noc, ⟨0x01E0, 2, 0xF, nocTable⟩),
   (.dma, ⟨0x01F0, 2, 0x0, dmaTable⟩),
   (.dmach, ⟨0x0200, 64, 0x7, dmachTable⟩),
   (.clkrst, ⟨0x0240, 2, 0x7, clkrstTable⟩)]

/-- A block's row: the rows stand in the order of the blocks. -/
def Blk.row (b : Blk) : BlkRow := (blkRows.getD b.ctorIdx (b, ⟨0, 0, 0, []⟩)).2
def Blk.base (b : Blk) : Nat := b.row.base
def Blk.count (b : Blk) : Nat := b.row.count
def Blk.pendMask (b : Blk) : Nat := b.row.pendMask
def Blk.table (b : Blk) : List RegDesc := b.row.table

/-- The block and instance of a page number; none for an unallocated page (R475). -/
def blkOfPage (p : Nat) : Option (Blk × Nat) :=
  match blkRows.find? (fun r => decide (r.2.base ≤ p ∧ p < r.2.base + r.2.count)) with
  | some (b, r) => some (b, p - r.base)
  | none => none

/-- The table row of a register; none where no register occupies the offset (R10). -/
def regDesc (b : Blk) (off : Nat) : Option RegDesc :=
  match hdrTable.find? (fun r => r.covers off) with
  | some r => some r
  | none => b.table.find? (fun r => r.covers off)

/-- The reset value of the register at a BAR0 byte offset: what a register nothing has written holds. -/
def regReset (a : Nat) : BitVec 32 :=
  match blkOfPage (a / 4096) with
  | none => 0#32
  | some (b, _) =>
    match regDesc b (a % 4096) with
    | none => 0#32
    | some r => BitVec.ofNat 32 r.reset

end Sys2Proof.Machine
end

