-- ==== Sys2Proof/Machine/SMap.lean ====
section
/-! DEFINITION. Sparse storage in one canonical form: a list of (address, value) pairs, addresses strictly rising, no entry
equal to what an unlisted address reads as. Registers, memories and tables are all held so. -/

namespace Sys2Proof.Machine

/-- A sparse map from addresses to values. -/
abbrev SMap (α : Type) := List (Nat × α)

/-- What the map holds at an address; `dflt` where it lists nothing. -/
def sget {α : Type} (dflt : α) : SMap α → Nat → α
  | [], _ => dflt
  | (b, v) :: r, a => if b = a then v else sget dflt r a

/-- The map with nothing listed at an address. -/
def serase {α : Type} (m : SMap α) (a : Nat) : SMap α :=
  m.filter (fun p => decide (p.1 ≠ a))

/-- The map with an entry put in front of the first larger address. -/
def sins {α : Type} (a : Nat) (v : α) : SMap α → SMap α
  | [] => [(a, v)]
  | (b, w) :: r => if a < b then (a, v) :: (b, w) :: r else (b, w) :: sins a v r

/-- The map after a write: the value an unlisted address reads as removes the entry. -/
def sset {α : Type} [DecidableEq α] (dflt : α) (m : SMap α) (a : Nat) (v : α) : SMap α :=
  if v = dflt then serase m a else sins a v (serase m a)

/-- Strictly rising addresses. -/
def srising {α : Type} : SMap α → Bool
  | [] => true
  | [_] => true
  | (a, _) :: (b, w) :: r => decide (a < b) && srising ((b, w) :: r)

/-- The canonical form, where the value an address reads as when unlisted depends on the address. -/
def swfBy {α : Type} [DecidableEq α] (dflt : Nat → α) (m : SMap α) : Bool :=
  srising m && m.all (fun p => decide (p.2 ≠ dflt p.1))

/-- The canonical form with one value for every unlisted address. -/
def swf {α : Type} [DecidableEq α] (dflt : α) (m : SMap α) : Bool := swfBy (fun _ => dflt) m

end Sys2Proof.Machine

namespace Sys2Proof.Machine

/-- The entry a map lists at an address, if any. -/
def sfind {α : Type} : SMap α → Nat → Option α
  | [], _ => none
  | (b, v) :: r, a => if b = a then some v else sfind r a

/-- The map with an entry listed at an address, whatever its value. -/
def sput {α : Type} (m : SMap α) (a : Nat) (v : α) : SMap α := sins a v (serase m a)

end Sys2Proof.Machine
end

