-- ==== Sys2Proof/Machine/State.lean ====
section
/-! DEFINITION. The state of the block: its registers (one sparse file, keyed by BAR0 byte offset), its memories and tables,
the parts its chapters give each block beyond registers, and the queue of waiting commands. -/

namespace Sys2Proof.Machine

/-- Faults of the block. -/
inductive Fault where
  /-- Raised by `State.checked` where a command is not well-formed (WellFormed.lean): such a command cannot reach the device.
  Safe. -/
  | illFormed
  deriving DecidableEq, Repr

/-- Refusals of the block. -/
inductive Refusal where
  /-- Raised by a dispatch arm that has no meaning yet. Safe. -/
  | notModelled (mnemonic : String)
  deriving DecidableEq, Repr

/-- A run of lost numbers awaiting its gap marker, and the number after the last lost one, whose record carries flag bit 6 (R122). -/
structure LossRun where
  count : Nat := 0
  causes : Nat := 0
  seq : Nat := 0
  lp : LP := 0#72
  lane : Nat := 0
  lastLp : LP := 0#72
  after : Option Nat := none
  deriving DecidableEq, Repr

/-- What has happened in this CK (rules of the same CK): errors by page, counter and code, newest first, and the pages whose
ERR_FIRST one of them loaded (R28); counters that advanced, by BAR0 offset and lowest bit, with the last amount (R9); INT_PEND bits that
hardware has set, by page (R478); pages whose SEQ advanced (R478); vectors sent (R482); entries of the flow tables that a WRITE changed, by flow, with
the open run, as they stood before (R134). -/
structure CkLog where
  errs : List (Nat × Nat × Nat) := []
  firsts : List Nat := []
  counted : List ((Nat × Nat) × Nat) := []
  sets : List (Nat × Nat) := []
  seqPages : List Nat := []
  vecs : List Nat := []
  flowWas : List (Nat × BitVec 512 × LossRun) := []
  deriving DecidableEq, Repr

/-- A received symbol on its way to the injection select of a TX (R58): itself, its stamp and number, the CK its lane sampled it, the
first CK at or after its pin time, the CK it is at injection select, whether it is a room symbol (Table 11-7: 0 no, 1 yes, 2 K28.5 and 3
D5.6 or D16.2 outside records), the running disparity after it, the 128b/130b LFSR before it (Table 11-5). -/
structure TxEnt where
  sym : LineSym
  lp : LP
  num : Nat
  samp : Nat
  pin : Nat
  sel : Nat
  room : Nat
  rd : Option Bool
  lfsr : BitVec 23 := 0#23
  deriving DecidableEq, Repr

/-- A lane's receive side beyond its registers (chapter 3). -/
structure LaneSt where
  /-- CK in which the attempt in progress began (R51). -/
  startCk : Nat := 0
  /-- The attempt follows a loss (R57). -/
  relock : Bool := false
  /-- The attempt has timed out, or ended (R51: each enabled lane's attempt must end before READY). -/
  ended : Bool := false
  /-- The lane receives: its alignment has been started in a state that receives (R63). -/
  rxOn : Bool := false
  /-- No symbol has arrived since ALIGNED (R57). -/
  fresh : Bool := false
  /-- Last 58 scrambled bits of the 64b/66b descrambler (R47), the newest highest. -/
  scr : BitVec 58 := 0#58
  /-- The open record (R49). -/
  openRec : Option Nat := none
  /-- A violation outside any record awaits the next record (R50). -/
  cvPend : Bool := false
  /-- The last 128b/130b block was not a data block (Table 3-2). -/
  afterGap : Bool := true
  /-- Raw words of the open record so far. -/
  rawCnt : Nat := 0
  /-- The last 64 blocks or characters, newest first: did the symbol count toward a loss (R56)? -/
  win : List Bool := []
  /-- The last symbol at the sieve point, its pin time and stamp, with the CK it was there, and the last one of an earlier CK (R56). -/
  lastCk : Nat := 0
  lastT : Int := 0
  lastLp : LP := 0#72
  prevT : Int := 0
  prevLp : LP := 0#72
  /-- The LFSR of 128b/130b at the next block (R47). -/
  lfsr : BitVec 23 := 0#23
  /-- The last PAM4 level received, before 1/(1+D) is undone (R48). -/
  level : BitVec 2 := 0#2
  /-- The measured symbol duration, in 2^-20 CK, 0 before the first measurement; the pin time at which the measurement under way began
  and the symbols since (R60, R75). -/
  tau : Nat := 0
  tauT : Int := 0
  tauN : Nat := 0
  /-- Stamp of the matching 0x10 event (R130). -/
  lossLp : LP := 0#72
  /-- The lane's offset OFF_n × τ_n in 2^-20 CK, exact, held from its last alignment (R75). -/
  off : Nat := 0
  /-- After a relock: the flows that have had their flagged record (R57). -/
  relockFlows : Option (List Nat) := none
  /-- Events raised by rules whose deciding symbol has arrived, oldest first: event lines, LP and number of the symbol (R94, R232). -/
  evq : List (List Nat × LP × Nat) := []
  /-- Records whose outcome symbol has arrived, oldest first (R95). -/
  outq : List Nat := []
  /-- The running disparity of the received code groups (R50): none until one that is not balanced; true positive. -/
  rd : Option Bool := none
  /-- Symbols received for this lane's TX and not yet at its injection select (R58). -/
  txq : List TxEnt := []
  deriving DecidableEq, Repr

/-- A STIM action of a lane from its arrival to its first affected symbol (R232, R236): descriptor fields, the LP its anchor is the
first symbol at or above, the number of the symbol that anchors it where a sieve event named one, the number of its first affected symbol or slot once known. -/
structure StimAct where
  op : Nat
  tmpl : Nat
  count : Nat
  delay : Nat
  base : LP
  anchor : Option Nat
  first : Option Nat
  deriving DecidableEq, Repr

/-- What changes a lane's TX stream (R227, R241): the operation, 5 for a playback record; the template entries to send or the masks,
the symbols left, the numbers of the room symbols an insertion still deletes, its stream. -/
structure StimRun where
  op : Nat
  tmpl : Nat := 0
  syms : List (List Byte) := []
  left : Nat := 0
  del : List Nat := []
  stream : Option Nat := none
  deriving DecidableEq, Repr

/-- A symbol displaced by an insertion (R235): a template entry, or one received. -/
inductive TxItem where
  | entry (bytes : List Byte)
  | recv (sym : LineSym)
  deriving DecidableEq, Repr

/-- The stimulus side of a lane's TX (chapter 11). -/
structure StimLane where
  pend : List StimAct := []
  /-- The active action, and the playback record that generated slots carry. -/
  run : Option StimRun := none
  play : Option StimRun := none
  /-- The hold line's displaced symbols. -/
  fifo : List TxItem := []
  /-- Scrambler state and running disparity of the transmitted bits; running disparity of the received stream at injection select. -/
  scr : BitVec 58 := 0#58
  rd : Option Bool := none
  selRd : Option Bool := none
  /-- A K28.5 held for the character after it, with its CK at injection select (Table 11-5). -/
  k28 : Option (LineSym × Nat) := none
  /-- The 128b/130b LFSR of a generated stream at its next block; the last PAM4 level sent (R48, R231). -/
  lfsr : BitVec 23 := 0#23
  level : BitVec 2 := 0#2
  /-- Number, stamp, sampling CK and pin CK of the symbols past injection select, newest first (R232). -/
  hist : List (Nat × LP × Nat × Nat) := []
  /-- Slots of TX that no received stream fills (R60, R233): the CK they began, plus one, or began at the rate at hand (a symbol's
  duration as a fraction of CK, and the slot from which it holds); the next slot, the LP of the last slot; the next idle character is a
  D16.2. -/
  genCk : Nat := 0
  genTau : Nat × Nat := (1, 1)
  genSlot : Nat := 0
  slot : Nat := 0
  lastLp : Option LP := none
  idleD : Bool := false
  deriving DecidableEq, Repr

/-- A 32-byte unit of a stream's prefetch buffer: logical offset, bytes, class (R242, R243). -/
structure PlayUnit where
  off : Nat
  bytes : List Byte
  cls : Nat
  deriving DecidableEq, Repr

/-- A playback stream beyond its registers (R239 to R243). -/
structure PlaySt where
  entry : BitVec 256 := 0#256
  lane : Nat := 0
  arming : Bool := false
  buf : List PlayUnit := []
  /-- The next byte to prefetch and the passes prefetched; the read under way: its number, the units asked for. -/
  rdOff : Nat := 0
  rdPass : Nat := 0
  read : Option (Nat × Nat × Nat) := none
  /-- The next record, passes completed, the symbol or slot the stream starts at, the LP its anchor is at or above, or the number of its anchor, its time origin. -/
  pos : Nat := 0
  passes : Nat := 0
  first : Option Nat := none
  base : LP := 0#72
  anchor : Option Nat := none
  origin : Option LP := none
  /-- Sum of the LP fields, LP of the pass's first record, due LP of the last record. -/
  acc : LP := 0#72
  lp0 : Option LP := none
  lastDue : LP := 0#72
  /-- The stream ends at its next record boundary. -/
  stop : Bool := false
  deriving DecidableEq, Repr

/-- How a record leaves its sieve (R95, R96). -/
inductive RecAct where
  | keep | drop | slice
  deriving DecidableEq, Repr

/-- The outcome of a record (R95). -/
structure Outcome where
  act : RecAct
  flow : Nat
  slice : Nat
  tag : Nat
  vec : Nat
  /-- SHED of the deciding rule; 0 for the default (R97). -/
  shed : Nat
  deriving DecidableEq, Repr

/-- Where a record stands (R206): still in its lane or sieve, then the four queue states. -/
inductive RecSt where
  | arriving | queued | taken | emitted | writing
  deriving DecidableEq, Repr

/-- A record from its first symbol until its units are freed: header fields of Table 6-2, payload, sieve and queue state. -/
structure Rec where
  half : Nat := 0
  lane : Nat := 0
  typ : Nat := 0
  flags : Nat := 0
  lp : LP := 0#72
  flow : Nat := 0
  seq : Nat := 0
  vec : Nat := 0
  tag : Nat := 0
  engine : Nat := 0xFF
  payload : List Byte := []
  /-- Payload bytes of the whole record before this part (R129). -/
  base : Nat := 0
  /-- The first part of the record, for a continuation. -/
  first : Option Nat := none
  ended : Bool := false
  /-- The sieve's enable and valid rules in the CK of the first symbol (R93, R100). -/
  sieveOn : Bool := false
  rules : SMap (BitVec 512) := []
  decided : List Nat := []
  matched : List Nat := []
  outSeen : Bool := false
  /-- The outcome, before shedding; a continuation has that of the record it continues (R96, R97). -/
  outc : Option Outcome := none
  shed : Bool := false
  st : RecSt := .arriving
  /-- Payload bytes that have reached the queue, and whether its last has (R205). -/
  reached : Nat := 0
  complete : Bool := false
  /-- The record is lost or not captured while bytes of it are still to come. -/
  gone : Bool := false
  /-- Units held in the capture queue, CK and number of allocation (R205, R208, Table 10-5). -/
  units : Nat := 0
  allocCk : Nat := 0
  allocNo : Nat := 0
  /-- CK in which the record became offerable to its engine (R207), and the CK in which an emitted record reaches the capture
  writer (R148). -/
  offerCk : Option Nat := none
  emitCk : Nat := 0
  /-- The CK in which the last byte of a PUSH.SP copy reaches the capture writer (R174). -/
  copyCk : Nat := 0
  /-- Issuer of a trigger mark (R120). -/
  mark : Option ActSrc := none
  /-- What the engine emitted in its place (R148), with its flags. -/
  emit : Option (List Byte × Nat) := none
  poison : Bool := false
  /-- The transaction that writes it to DRAM (R208). -/
  tx : Nat := 0
  /-- Its epoch, plus one, once it has a number that counts, and the term it adds when written (R466). -/
  epoch : Nat := 0
  term : Nat := 0
  deriving DecidableEq, Repr

/-- One allocated number of a flow not yet resolved in order (R120, R121). -/
structure Num where
  seq : Nat
  rid : Nat
  /-- Lost with a cause bit of Table 6-1. -/
  lost : Option Nat
  lp : LP
  lane : Nat
  deriving DecidableEq, Repr

/-- Reference instants with the positions they took (R67): the last one, and those before it that a stamp may still ask for, newest
first. Times are in 2^-20 CK, positions in 2^-32 symbol. -/
structure LpTrack where
  t0 : Int := 0
  l0 : Int := 0
  past : List (Int × Int) := []
  deriving DecidableEq, Repr

/-- A jump of the line position counter that awaits its CK of effect (R73): its cause, the instants from its anchoring event on as it
counts them; or, a pair adjustment, how far it moves the counter (R79). The reference has been lost since (R71). -/
structure LpcJump where
  due : Nat
  cause : Nat
  track : LpTrack
  shift : Int := 0
  lost : Bool := false
  deriving DecidableEq, Repr

/-- A half's line position counter beyond its registers (chapter 4). -/
structure LpcSt where
  track : LpTrack := {}
  /-- The cause of the anchoring that the next reference event makes; 0 none. -/
  await : Nat := 0
  /-- Jumps that wait, in the order of their CK. -/
  jumps : List LpcJump := []
  /-- Start of the rate window: CK and position (R69). -/
  winCk : Nat := 0
  winL : Int := 0
  /-- The reference has changed and its first event has not come: positions go on at RATE (R68). -/
  coast : Bool := false
  /-- An LREF edge has come since the counter left the reference: the next one advances it (R71). -/
  edged : Bool := false
  /-- CK of the entry to READY (R70). -/
  readyCk : Nat := 0
  /-- The published LP lags by P (R82, from the first anchor on). -/
  lag : Bool := false
  /-- CK of the last alignment word; the follower runs alone (R78). -/
  wordCk : Nat := 0
  alone : Bool := false
  deriving DecidableEq, Repr

/-- A state change of a sequencer that is not yet complete (R108): the CK it is, the state, whether both its branches are off,
whether its timer runs. -/
structure SeqShow where
  due : Nat
  st : Nat
  rest : Bool
  run : Bool
  deriving DecidableEq, Repr

/-- A control write of a sequencer (R109). -/
inductive SeqCtl where
  | arm | disarm | reset
  deriving DecidableEq, Repr

/-- A trigger sequencer beyond its registers and tables (chapter 5). -/
structure SeqSt where
  /-- The state evaluated, and the state changes that STAT does not show yet, oldest first (R108). -/
  st : Nat := 0
  shows : List SeqShow := []
  /-- Control writes of this CK that wait for its evaluation (R109). -/
  after : List SeqCtl := []
  deadline : LP := 0#72
  timer : Bool := false
  /-- CK in which the current state was entered; one more than the CK last evaluated; the timer expires in this CK. -/
  enterCk : Nat := 0
  evalCk : Nat := 0
  expired : Bool := false
  deriving DecidableEq, Repr

/-- An event at the sequencers of a half: the CK it is present, its source code (Table 5-3; 0x100 + 16 × sequencer + input for
a scheduler's TRIG), its LP (R102), the lane and number of the symbol that decided it, for a sieve's (R232). -/
structure TrigEv where
  ck : Nat
  src : Nat
  lp : LP
  sym : Option (Nat × Nat) := none
  deriving DecidableEq, Repr

/-- What the trigger class carries to the other half in this CK (R103). -/
structure BridgeOut where
  ck : Nat := 0
  lines : List Nat := []
  lps : List LP := []
  syms : List (Option (Nat × Nat)) := []
  acts : List Action := []
  deriving DecidableEq, Repr

/-- An action between its issue and its arrival (R82, R110). -/
structure Flying where
  due : Nat
  issued : Bool
  act : Action
  deriving DecidableEq, Repr

/-- What reaches a half's capture queue in a CK, served in order (R119, R205): a record at its allocation point, or `bytes` of
payload of a record, its last ones if `last`. -/
structure AllocItem where
  due : Nat
  order : Nat
  rid : Nat
  /-- None: the allocation point; else payload bytes so far, and whether the record has ended. -/
  unit : Option (Nat × Bool)
  deriving DecidableEq, Repr

/-- A run of consecutive capture-queue units taken by one record; freed runs wait to be reclaimed (R205, R206). -/
structure CqRun where
  rid : Nat
  units : Nat
  live : Bool
  deriving DecidableEq, Repr

/-- Who reads TAP_POP (R213): a command of this block's own list, a NoC request, a host command. -/
inductive TapWho where
  | cmd | noc (id : Nat) | host
  deriving DecidableEq, Repr

/-- A half's capture queue and tap ring beyond their registers (chapter 10). -/
structure CqSt where
  /-- Write and reclaim pointers, 22 bits (R204). -/
  wp : Nat := 0
  rp : Nat := 0
  runs : List CqRun := []
  /-- The next allocation number; the flush mark as one (R211). -/
  nextNo : Nat := 0
  mark : Nat := 0
  /-- The device's own flush waits for the records on their way to the queue (R38, R40, R211). -/
  drain : Bool := false
  /-- Tap ring entries, oldest first (R212), and reads of TAP_POP that wait, by the CK they time out (R213). -/
  tap : List (BitVec 512) := []
  tapReads : List (Nat × TapWho) := []
  deriving DecidableEq, Repr

/-- A request for 64 bytes of a DRAM channel on its way to or in a subchannel's queue (R245, R254, R255): the transaction and its
part, the channel offset of the burst, first byte and length of the part (a burst, or the four of a seal block), the bytes written there
(none: not enabled) or a read, the requester's class (R287) and reader code (Table 13-6). -/
structure DReq where
  tx : Nat
  part : Nat
  off : Nat
  base : Nat
  span : Nat
  wr : Option (List (Option Byte))
  poison : Bool
  cls : Nat
  reader : Nat
  close : Bool
  /-- The capture writer, the journal, the index: held where others are answered busy (R247). -/
  internal : Bool
  /-- Scheduling decisions since it entered the queue. -/
  age : Nat
  /-- The CK it reaches the queue, if it is not held (R492). -/
  due : Nat := 0
  deriving DecidableEq, Repr

/-- A piece of a transaction, one packet where it travels the network (R373): its first part, the number of parts, bytes skipped in them,
bytes wanted, its channel, the data flits of its response. -/
structure DPiece where
  first : Nat
  parts : Nat
  skip : Nat
  want : Nat
  chan : Nat
  flits : Nat
  deriving DecidableEq, Repr

/-- The four bursts of a seal block on their way through the controller: how many are done, the bit errors that struck them, the level
of a metadata pair that read uncorrectable, what those answered without service got. -/
structure PartAcc where
  done : Nat := 0
  err : BitVec 2560 := 0#2560
  badAt : Option Nat := none
  data : List Byte := []
  resp : Resp := .ok
  deriving DecidableEq, Repr

/-- A transaction of several DRAM requests: what to run when its last response has come, parts not done, what came back. -/
structure DTx where
  notify : Option Instr := none
  left : Nat := 0
  parts : List (Nat × List Byte × Bool) := []
  pieces : List DPiece := []
  resp : Resp := .ok
  /-- The end point that asked, where the controller is reached over the network; the CK the last response is used (R491). -/
  src : Option Nat := none
  at_ : Nat := 0
  acc : SMap PartAcc := []
  deriving DecidableEq, Repr

/-- A command on a subchannel's pins or one fixed for later: its time in 1/2,000 tCK, rank, bank group, whether it is a write (R255). -/
structure DCmd where
  time : Nat
  rank : Nat
  bg : Nat
  wr : Bool := false
  deriving DecidableEq, Repr

/-- The first times a bank takes a read or write, a precharge, an activation (R255). -/
structure BankT where
  colAt : Nat := 0
  preAt : Nat := 0
  actAt : Nat := 0
  deriving DecidableEq, Repr

/-- A subchannel: requests held before its queue, in the order they arrive, the queue of 64, requests in service with the CK they end,
open rows and bank times by rank × 32 + bank, the last activations, reads and writes, refresh blocks by rank, CK of the last scrub read
(R255, R256, R271). -/
structure DSub where
  waiting : List DReq := []
  queue : List DReq := []
  serving : List (Nat × DReq) := []
  rows : SMap Nat := []
  banks : SMap BankT := []
  acts : List DCmd := []
  cols : List DCmd := []
  blocked : List (Nat × Nat) := []
  lastScrub : Nat := 0
  /-- The scrubber's read-modify-write last begun: its offset, the CK of its write, the CK it ends (R271, R272). -/
  scrub : Option (Nat × Nat × Nat) := none
  deriving DecidableEq, Repr

/-- A strobe group: trained word (Table 12-6), cumulative drifts, drift already flagged (R252). -/
structure TrainGrp where
  word : Word := 0#32
  rd : Int := 0
  wr : Int := 0
  rdFlag : Bool := false
  wrFlag : Bool := false
  deriving DecidableEq, Repr

/-- What a channel's drain is for (R250, R259). -/
inductive Drain where
  | none | retrain | selfRefresh
  deriving DecidableEq, Repr

/-- A DRAM channel beyond its registers (chapter 12). -/
structure DrcSt where
  groups : SMap TrainGrp := []
  /-- The tracking rotation of each subchannel (R251); groups being tracked: the CK the refresh ends, the group, the steps called for. -/
  turn : SMap Nat := []
  tracks : List (Nat × Nat × Nat × Nat) := []
  retraining : Bool := false
  /-- The CK a training began, what the other channels' bursts counted then; bursts on the data buses (Table 12-6); the CK of the last
  accepted RETRAIN (R250). -/
  trainCk : Nat := 0
  trainBase : SMap Nat := []
  bursts : Nat := 0
  retrainCk : Option Nat := none
  drain : Drain := .none
  exiting : Bool := false
  /-- The requests of self-refresh entry are waiting for their 96 CK (R259). -/
  srDue : Bool := false
  /-- Its last MR4 read reported above the DRAM's range (R443). -/
  excess : Bool := false
  deriving DecidableEq, Repr

/-- An error log entry (Table 13-6). -/
structure LogEnt where
  burst : Nat
  cls : Nat
  pos : Nat
  hard : Bool
  count : Nat
  reader : Nat
  deriving DecidableEq, Repr

/-- A memory integrity unit beyond its registers (chapter 13). -/
structure MemiSt where
  log : List LogEnt := []
  lapCk : Nat := 0
  /-- The region being filled (R273). -/
  filling : Option Nat := none
  /-- DEVFAIL and retirement words, by offset, as they stood before the writes of the CK `wasCk` (R270, R275). -/
  was : SMap Word := []
  wasCk : Nat := 0
  deriving DecidableEq, Repr

/-- A crypt unit beyond its registers (chapter 14). Counters and tags are held by child: level 0 the seal blocks, level k + 1
the pairs of level k; a child not listed stands as INIT left it. -/
structure CryptSt where
  keys : SMap (BitVec 256) := []
  seals : SMap (Nat × Nat) := []
  /-- Cached pairs, most recently used first, with their dirty marks (R285). -/
  cache : List (Nat × Bool) := []
  bad : List Nat := []
  rebuild : List (Nat × List Nat) := []
  hi : SMap Nat := []
  /-- RESEALs under way: range, channel, child level, child number (R293). -/
  resealing : List (Nat × Nat × Nat × Nat) := []
  deriving DecidableEq, Repr

/-- The extent in which a record that crosses its end begins, by order number: the offset of the record, and FIRST_LP and the last LP as
they stood before it. -/
structure Carry where
  no : Nat
  off : Nat
  firstLp : Option Nat
  lastLp : Nat
  deriving DecidableEq, Repr

/-- An extent a flow of `home` holds (R183 to R185, R220): its ordinal, where it lies, the order in which it was opened, whether
it is open, bytes given to records, records and markers written there and not acknowledged with the byte they begin at, the LPs
its descriptor gives, its marks. -/
structure Ext where
  home : Nat
  flow : Nat
  ord : Nat
  half : Nat
  stripe : Nat
  slot : Nat
  openNo : Nat
  isOpen : Bool := true
  written : Nat := 0
  infl : List (Nat × Nat) := []
  firstLp : Option Nat := none
  lastLp : Nat := 0
  poison : Bool := false
  evicted : Bool := false
  /-- A record that crosses into this extent and is not written yet begins in another (R185). -/
  carry : Option Carry := none
  /-- The bytes of its last partly filled 256-byte block, held on chip (R267, R291). -/
  tail : List Byte := []
  deriving DecidableEq, Repr

/-- A placement decision that waits (R200): its place in the order of kinds, the CK it arrived, its flow, the event. -/
structure PluWait where
  kind : Nat
  arrived : Nat
  flow : Nat
  run : Instr
  deriving DecidableEq, Repr

/-- The background test of a memory (R142): the region under test, laps done, the CK the lap began, whether it stands still after its
region, whether it has ended for good (R143, R308). -/
structure TestSt where
  region : Nat := 0
  laps : Nat := 0
  since : Nat := 0
  idle : Bool := false
  ended : Bool := false
  deriving DecidableEq, Repr

/-- A flow that is to leave an engine which stopped (R197, R200): the CK its decision completes once it has started, the CK of a halt
(R154). -/
structure PluStop where
  flow : Nat
  eng : Nat
  due : Option Nat := none
  halt : Option Nat := none
  deriving DecidableEq, Repr

/-- A half's placement unit beyond its registers (chapter 9). -/
structure PluSt where
  /-- CK in which the window began, and its number (R188). -/
  winCk : Nat := 0
  win : Nat := 0
  /-- By flow: bytes of the window, rate; by engine within the half: issue CKs of the window, load, assignments (R188, R195). -/
  bytes : SMap Nat := []
  rate : SMap Nat := []
  issue : SMap Nat := []
  load : SMap Nat := []
  assigned : SMap Nat := []
  /-- By flow: one more than the window of its last move (R196). -/
  moved : SMap Nat := []
  waiting : List PluWait := []
  /-- Boundary decisions under way, in their order: none for R196, a flow for a pin move (R197). -/
  moves : List (Option Nat) := []
  /-- Flows of this half placed in the other half (R198), and flows whose engine or extent decision is under way. -/
  spilled : List Nat := []
  assigning : List Nat := []
  extending : List Nat := []
  /-- Flows that are to leave engines which stopped (R197). -/
  stops : List PluStop := []
  deriving DecidableEq, Repr

/-- A handover of a flow (R152): engines, how far Table 7-3 has run, the CK of the boundary where a halt has set it (R154). -/
structure Handover where
  src : Nat
  dst : Nat
  phase : Nat := 0
  since : Option Nat := none
  deriving DecidableEq, Repr

/-- A read of the capture space on its way (R215): offset and length, reader, the transaction of its descriptors or of its
data, the class of each unit once translated, uncorrectable descriptors by ordinal. -/
structure CapRead where
  src : CapSrc
  off : Nat
  len : Nat
  /-- The CK the index unit issues reads of its own for it (R492), and whether it has. -/
  due : Nat := 0
  begun : Bool := true
  tx : Nat := 0
  classes : Option (List Nat) := none
  /-- Ordinals whose descriptors are being read, and those that read uncorrectable. -/
  ords : List Nat := []
  badOrds : List Nat := []
  /-- What it returned, for a reader on the chip to take: bytes, and the class of each unit. -/
  done : Option (List Byte × List Nat) := none
  deriving DecidableEq, Repr

/-- A descriptor READ under way (R225): the transaction, and the ordinal it is of. -/
structure DescRead where
  tx : Nat
  home : Nat
  flow : Nat
  ord : Nat
  deriving DecidableEq, Repr

/-- An epoch of a half (R466): numbers unresolved, records counted, digest, loss bitmap. -/
structure Epoch where
  half : Nat
  epoch : Nat
  unresolved : Nat := 0
  count : Nat := 0
  digest : Nat := 0
  lost : List Nat := []
  deriving DecidableEq, Repr

/-- A record as alignment entries tell it (R461): LP, lane, payload length, CRC of its first bytes. -/
structure AlignRec where
  lp : LP
  lane : Nat
  len : Nat
  crc : Nat
  deriving DecidableEq, Repr

/-- A seek (R223): flow and half, target LP, range, read number, the CK it started, the transaction of its descriptor read. -/
structure SeekSt where
  flow : Nat
  home : Nat
  target : Nat
  lo : Nat
  n : Nat
  k : Nat
  startCk : Nat
  tx : Nat
  deriving DecidableEq, Repr

/-- The first instruction of a CK (R163): its CK, whether it uses the A slot, registers and predicates it writes, whether it ends
the CK's issue. -/
structure IssueSt where
  ck : Nat
  aSlot : Bool
  writes : List Nat
  alone : Bool
  deriving DecidableEq, Repr

/-- An engine (0 to 191 Newt, 192 to 195 Gecko) beyond its registers (chapters 7 and 8). Registers are numbered 0 to 31 for n0 to
n31 and 32 to 39 for p0 to p7. -/
structure EngSt where
  n : SMap (BitVec 64) := []
  p : BitVec 8 := 0#8
  pc : Nat := 0
  /-- The record of the task, whether it has pushed, the CK of its first instruction plus one, CKs of it that its budget does not
  count, the CK such a span began plus one (R156). -/
  task : Option Nat := none
  pushed : Bool := false
  taskCk : Nat := 0
  offCk : Nat := 0
  offFrom : Nat := 0
  /-- The task's poison state (R150). -/
  poison : Bool := false
  /-- The granule reserved, as a NoC address (R172). -/
  resv : Option Nat := none
  /-- Context slots by flow (R139). -/
  slots : SMap Nat := []
  /-- Registers whose result is not ready: the CK it is, or 0 while a load is outstanding; whether from memory (R164). -/
  ready : SMap (Nat × Bool) := []
  /-- The first CK the M slot is free, the first CK the next instruction may issue, the first instruction of the last CK of issue,
  the instruction that waits for memory, and since which CK. -/
  mFree : Nat := 0
  nextCk : Nat := 0
  first : Option IssueSt := none
  held : Option Instr := none
  heldCk : Nat := 0
  /-- CK of the last scratchpad, context or bay store's acknowledgement; bay stores that have not won their bank; remote stores not
  acknowledged, by request; errors of remote stores to be taken: address, RETRY (R171). -/
  stAck : Nat := 0
  bayStores : Nat := 0
  /-- Loads to n0 that are outstanding (R173); the CK a bay bank last served the engine, plus one (R171). -/
  n0Loads : Nat := 0
  bayCk : Nat := 0
  stores : List Nat := []
  storeErr : Option (Nat × Bool) := none
  /-- The CK an instruction last issued, plus one (R188, Table 7-6). -/
  issueCk : Nat := 0
  /-- Scratchpad banks the engine accesses, with the CK plus one (R138). -/
  banks : SMap Nat := []
  /-- A fence that holds the M slot until accesses end: FENCE, or with true FENCE.W (R173). -/
  fence : Option Bool := none
  /-- A PUSH.SP under way: record, scratchpad address, length, CK of issue (R174). -/
  copy : Option (Nat × Nat × Nat × Nat) := none
  /-- A POP waits for a record (R146); a write of RUN 0 waits for the POP (R145); the trap handler runs (R155). -/
  popWait : Bool := false
  stopping : Bool := false
  inTrap : Bool := false
  /-- The task's record as its window shows it: header, payload (R147). -/
  window : List Byte := []
  deriving DecidableEq, Repr

/-- Debug of a target (chapter 22). -/
structure DbgSt where
  /-- The registers of the DBG page that act on the target named by DBG_SEL, by offset (R431). -/
  regs : SMap Word := []
  /-- A stop that has been detected: cause, range, DPC, the CK MONITOR is entered (R423). -/
  stop : Option (Nat × Nat × Nat × Nat) := none
  /-- STEP: the target stops before the first issue after this CK, plus one; 1 while the group has not issued (R422). -/
  step : Nat := 0
  /-- The first instruction after RESUME issues whatever ranges hold its index. -/
  skip : Bool := false
  /-- A caught exception: the target enters its handler on RESUME (R426). -/
  caught : Bool := false
  /-- The CK a register access completes, and whether it writes (R424). -/
  regDue : Option Nat := none
  regWr : Bool := false
  deriving DecidableEq, Repr

/-- A line of a Gecko cache: its NoC address, its bytes, whether it holds data not yet written back (R387). -/
structure CLine where
  line : Nat
  data : List Byte
  dirty : Bool
  deriving DecidableEq, Repr

/-- An entry of a write buffer: a 32-byte unit and the bytes it writes (R388); a line read uncorrectable is written back poisoned. -/
structure WEnt where
  unit : Nat
  bytes : List (Option Byte)
  poison : Bool
  deriving DecidableEq, Repr

/-- A load or a store that waits for its line: register, size, signed, address, the bytes stored. -/
structure GLoad where
  reg : Nat
  size : Nat
  sext : Bool
  addr : Nat
  st : Option (List Byte) := none
  deriving DecidableEq, Repr

/-- A Gecko core beyond its registers and what it shares with the Newt engines (chapters 8 and 20). -/
structure GkSt where
  /-- Control registers by number (Table 8-7). -/
  csr : SMap (BitVec 64) := []
  /-- CK of the core's last reset, the fraction of its last LP read, sources 0, 2, 3, 4 and 5 pending (R392). -/
  bornCk : Nat := 0
  lpFrac : BitVec 8 := 0#8
  srcs : List Nat := []
  /-- Caches, most recently used first; lines being filled; loads that wait for one. -/
  dcache : List CLine := []
  icache : List CLine := []
  filling : List (Nat × Bool) := []
  loads : List GLoad := []
  /-- The write buffer, oldest first, and the CK its head drains. -/
  wbuf : List WEnt := []
  /-- A victim's units that wait for room in the buffer. -/
  spill : List WEnt := []
  /-- The index its last boot gave it, once a boot has released it; the CK a reset of the core alone ends (R394). -/
  entry : Option Nat := none
  resetCk : Option Nat := none
  /-- The watchdog: the CK it expires, whether it has expired once since the last kick (R393). -/
  wdogCk : Option Nat := none
  wdogOnce : Bool := false
  /-- A cache operation under way: the CK it ends at the earliest (R390). -/
  opCk : Option Nat := none
  /-- The handler of an interrupt taken from MONITOR runs; its DPC is kept in the DBG registers (R425). -/
  live : Bool := false
  deriving DecidableEq, Repr

/-- What a bank of a bay's shared memory is asked for: an 8-byte word read or written (R140). -/
structure BayReq where
  /-- 0 to 15 engines of the bay, 16 to 19 mortise ports, 20 the NoC and DMA port. -/
  who : Nat
  /-- The NoC request it is part of. -/
  id : Nat := 0
  /-- Byte offset of the word in the memory. -/
  word : Nat
  /-- An engine's load: register, byte within the word, size, signed. -/
  load : Option (Nat × Nat × Nat × Bool) := none
  /-- The bytes written. -/
  wr : Option (List (Option Byte)) := none
  /-- LR and SC: the register of SC's outcome. -/
  lr : Bool := false
  sc : Option Nat := none
  /-- The first CK it contends, and CKs lost in a row. -/
  due : Nat
  lost : Nat := 0
  deriving DecidableEq, Repr

/-- Operations of a packet (Table 19-4). -/
inductive NocOp where
  | read | write | readRes | writeCond
  deriving DecidableEq, Repr

/-- Who takes the response to a packet. -/
inductive NocWho where
  /-- The PCIe endpoint: the tag of a read, or none for a posted write. -/
  | pcie (tag : Option Nat)
  /-- An engine's load: register, size, signed. -/
  | load (e reg size : Nat) (sext : Bool)
  /-- An engine's store; its SC and whether its own reservation held; a Gecko's uncached fetch. -/
  | store (e : Nat)
  | cond (e reg : Nat) (held : Bool)
  | fetch (k : Nat)
  /-- A cache line of a Gecko core, and a drain of its write buffer. -/
  | fill (k line : Nat) (ins : Bool)
  | drain (k : Nat)
  /-- A DMA channel's burst, the inspection master, a mortise port's user logic. -/
  | dma (ch part : Nat)
  | inspect
  | mortise (bay port tag : Nat)
  deriving DecidableEq, Repr

/-- Where a packet stands; `lost`, absorbed by the router of a master declared dead (R383). -/
inductive NocPh where
  | source | parked | transit | held | target | answer | done | lost
  deriving DecidableEq, Repr

/-- A request of the on-chip network and its response (chapter 19). -/
structure NocReq where
  who : NocWho
  src : Nat
  dst : Nat := 0
  op : NocOp
  /-- A NoC address, or with `host` an address of host memory, which the PCIe endpoint reaches (R411). -/
  addr : Nat
  host : Bool := false
  len : Nat
  /-- Bytes written, from `addr` on. -/
  wr : List (Option Byte) := []
  poison : Bool := false
  cls : Nat
  peek : Bool := false
  close : Bool := false
  epoch : Nat := 0
  ph : NocPh := .source
  /-- It was injected while its target's domain was CLOSING (R435). -/
  late : Bool := false
  /-- The CK it was injected in; of a held one, the CK it arrived in (R381, R439). -/
  came : Nat := 0
  /-- Its DRAM or capture-space transaction; words of a bay memory it waits for; CKs it lost there. -/
  tx : Nat := 0
  left : Nat := 0
  /-- STATUS of Table 19-5, the bytes read, which of their units are poisoned. -/
  status : Nat := 0
  data : List Byte := []
  bad : List Nat := []
  deriving DecidableEq, Repr

/-- Flits of a packet on a link: the slot they take, the CK of the first, how many follow one another (R376), the packet's EPOCH there
(R379). -/
structure LinkRun where
  link : Nat
  slot : Nat
  start : Nat
  flits : Nat
  epoch : Nat
  deriving DecidableEq, Repr

/-- A half's network beyond its registers (chapter 19). -/
structure NocSt where
  /-- Active and shadow routing tables of FITTED, by router × 64 + destination (R378); after a swap the shadow holds the old table
  (R379). -/
  active : SMap (BitVec 16) := []
  shadow : SMap (BitVec 16) := []
  /-- Ends of the routers' links in FITTED (frame 0). -/
  links : SMap Byte := []
  /-- End points declared dead (R383). -/
  dead : List Nat := []
  /-- Domains whose forced close has had a request answered ISOLATED (R382). -/
  isolated : List Nat := []
  deriving DecidableEq, Repr

/-- The fuses (R351, R352): keys programmed by the customer, slots with PROG, REVOKED, USE_CFG and USE_DATA set, DBG_PLAIN,
FUSE_LOCK. Slot 0 holds the development key. -/
structure Fuses where
  keys : SMap (BitVec 256) := []
  prog : List Nat := [0]
  revoked : List Nat := []
  useCfg : List Nat := [0]
  useData : List Nat := []
  dbgPlain : Bool := false
  lock : Bool := false
  deriving DecidableEq, Repr

/-- A serial port (R318): entries awaiting transmission (data, command, START as in TX), bytes received, the entry in transfer. -/
structure SerSt where
  tx : List Nat := []
  rx : List Byte := []
  busy : Option Nat := none
  deriving DecidableEq, Repr

/-- A snapshot of a bay (R364): its CK and the flip-flops by READBACK frame (R365). -/
structure SnapSt where
  ck : Nat
  frames : SMap (BitVec 2048) := []
  deriving DecidableEq, Repr

/-- An arithmetic slice (R309): the operands its two input stages hold, the product (two halves where there are two), the accumulator and
its overflow output. -/
structure SliceSt where
  ops1 : BitVec 128 := 0#128
  ops2 : BitVec 128 := 0#128
  prod : BitVec 128 := 0#128
  acc : BitVec 72 := 0#72
  wrapped : Bool := false
  deriving DecidableEq, Repr

/-- A port of a BM36 (R305, R307): the word it read at its last edge, its output register, its ERR output. -/
structure BmPort where
  data : BitVec 72 := 0#72
  out : BitVec 72 := 0#72
  bad : Bool := false
  deriving DecidableEq, Repr

/-- A value of a hard block on its way to user logic (R311): the port, the edge that presents it, its slot. -/
structure Slot where
  port : Port
  edge : Nat
  k : Nat
  val : PortVal
  deriving DecidableEq, Repr

/-- Configuration memory and the hard blocks of the fabric (chapters 15, 17, 18). -/
structure FabSt where
  /-- CLUSTER frames and their golden signatures, BM36 and BORDER frames, by frame address (Table 17-3, R342). -/
  clusters : SMap (BitVec 2048) := []
  sigs : SMap Word := []
  bm36 : SMap (BitVec 2048) := []
  borders : SMap (BitVec 2048) := []
  snaps : SMap SnapSt := []
  /-- The user flip-flops of a cluster since startup release, by its frame address: bit 2s + f is FF f of cell s (R296, R365). -/
  ffs : SMap (BitVec 32) := []
  /-- The value a Sill carried last (R304), by 7,904 × bay + its number; the slices that the design uses, by
  960 × bay + slice (R309); its BM36s, by 1,440 × bay + BM36; their ports, by 2 × that + port (R305). -/
  sills : SMap Bool := []
  slices : List (Nat × SliceSt) := []
  bms : List Nat := []
  bmPorts : SMap BmPort := []
  /-- Corrected words that wait for a CK in which no port accesses their BM36 (R307): BM36, first bit, word. -/
  bmFixes : List (Nat × Nat × Nat) := []
  /-- Values of hard blocks on their way to the user edge that presents them (R311). -/
  slots : List Slot := []
  /-- A flash command under way: erase, address, page bytes; pages programmed since their sector's last erase (R317). -/
  flash : Option (Bool × Nat × List Byte) := none
  pages : List Nat := []
  sers : SMap SerSt := []
  /-- Boundary scan: the instruction (Table 15-5) and the boundary register (R319). -/
  tap : Nat := 1
  bsr : List Bool := []
  deriving DecidableEq, Repr

/-- Reconfiguration of a bay beyond its registers (chapter 18): the CK ARM was written, the CK of its last release (R361); while its borders
are shut, the border signals that read 1 (R356, R357); the last CK counted for contention, and whether FIRST was latched in it (R304). -/
structure BaySt where
  armCk : Nat := 0
  freeCk : Option Nat := none
  edge : Option (List Nat) := none
  sillCk : Option Nat := none
  sillOwn : Bool := false
  deriving DecidableEq, Repr

/-- The configuration scrubber beyond its registers (R366 to R368): the CK a lap or fill began, the read of the shadow under way with
its frame, bays whose fill met an error, fill writes not answered. -/
structure ScrubSt where
  lapCk : Nat := 0
  repair : Option (Nat × Nat) := none
  fillBad : List Nat := []
  fillTx : SMap Nat := []
  fillPos : Nat := 0
  fillMask : Nat := 0
  /-- The first CK of the next read of a fill. -/
  fillCk : Nat := 0
  deriving DecidableEq, Repr

/-- A verified block of a stream (R336): its index, the CK its execution begins in (none: the bay is not CLOSED yet, R360), bytes
executed, the bytes it contributes to the command stream. -/
structure CfgBlock where
  idx : Nat
  start : Option Nat
  pos : Nat := 0
  bytes : List Byte
  deriving DecidableEq, Repr

/-- The load under way (chapter 17). -/
structure CfgSt where
  /-- The port that a GO or a load has given the stream to (Table 17-8, PORT); the header's or the block's bytes taken so far; the
  header once accepted. -/
  port : Nat := 0
  bytes : List Byte := []
  hdr : List Byte := []
  /-- The next block to take; the key of the next block to verify; blocks in their 24 CK; verified blocks; the CK in which the execution
  of the last of them ends. -/
  block : Nat := 0
  key : BitVec 256 := 0#256
  taken : List (Nat × List Byte) := []
  blocks : List CfgBlock := []
  execCk : Nat := 0
  /-- The command in progress: OP, CLASS, frames or pairs left, address; END once it has been executed. -/
  cmd : Option (Nat × Nat × Nat × Nat) := none
  /-- The last frame has been verified (chapter 17, The device while loading). -/
  done : Bool := false
  /-- Bytes of a stream to discard (R344). -/
  discard : Nat := 0
  /-- CK of the last configuration failure, plus one (R349). -/
  failCk : Nat := 0
  /-- Registers that REG pairs of the stream wrote (R350). -/
  wrote : List Nat := []
  /-- A fuse command under way: OP, slot, use bits, key (R352). -/
  fuse : Option (Nat × Nat × Nat × BitVec 256) := none
  deriving DecidableEq, Repr

/-- Power management beyond its registers (chapter 23). -/
structure PmcSt where
  /-- Rails whose last STATUS_WORD or transaction reported a fault (R444). -/
  railFault : List Nat := []
  /-- Failed transactions in a row, by rail. -/
  fails : SMap Nat := []
  /-- Monitor groups with a fault: out of their window for 10 µs. -/
  groupFault : List Nat := []
  /-- The step a rail's ramp stands at, in mV (R447). -/
  steps : SMap Nat := []
  /-- Bays whose THERM_MAX holds a sample (Table 23-4). -/
  sampled : List Nat := []
  /-- Domains that the device closes for the mode once they are OPEN (R433, R438). -/
  later : List Nat := []
  deriving DecidableEq, Repr

/-- A burst of a DMA channel (R413): its number, its offset in the transfer, its length, its data once read, WRITE requests not
acknowledged, the check value before it. -/
structure DmaBurst where
  no : Nat
  off : Nat
  len : Nat
  data : Option (List Byte) := none
  issued : Bool := false
  writes : Nat := 0
  deriving DecidableEq, Repr

/-- A DMA channel beyond its registers (chapter 21): the descriptor and its address, the next offset and number to issue, bursts not yet
acknowledged, oldest first, bytes acknowledged, the running check value, the burst and STATUS of a halt, ABORT written, the STATUS
being written, choices passed over in a row, retries by request. -/
structure DmaSt where
  desc : List Byte := []
  addr : Nat := 0
  host : Bool := false
  off : Nat := 0
  no : Nat := 0
  bursts : List DmaBurst := []
  acked : Nat := 0
  check : Nat := 0
  halt : Option (Nat × Nat) := none
  abort : Bool := false
  fin : Option Nat := none
  passed : Nat := 0
  retries : SMap Nat := []
  deriving DecidableEq, Repr

/-- The South half's own mode while a half is isolated (R31): the mode it holds, its SAFE entry in progress with its causes,
its DEV_MODE_PASS, the CK its last SAFE entry began. -/
structure SouthSt where
  mode : Nat
  entry : Bool := false
  cause : Nat := 0
  pass : Bool := false
  ck : Nat := 0
  deriving DecidableEq, Repr

/-- The host command under way (R403, R404): its number, OP, FLAGS, its 64 bytes, how far it has run. -/
structure HostCmd where
  hseq : Nat
  op : Nat
  flags : Nat
  bytes : List Byte
  phase : Nat := 0
  /-- The values REG_READ has read. -/
  vals : List Word := []
  deriving DecidableEq, Repr

/-- A message of the Scarf link that its sender holds (Tables 24-1, 24-2): sequence number, type, payload. -/
structure PairMsg where
  seq : Nat
  typ : Nat
  payload : List Byte
  deriving DecidableEq, Repr

/-- A mirrored write that waits (R464): its apply LP, BAR0 offset, value. -/
structure PairWr where
  lp : Nat
  addr : Nat
  val : Word
  deriving DecidableEq, Repr

/-- A resynchronisation of a flow under way (R468): half, flow, the number before which the boundary lies, on the shadow the lead's
context slot once it has come. -/
structure PairResync where
  half : Nat
  flow : Nat
  seq : Nat
  /-- MIN_SEQ of the request. -/
  low : Nat
  slot : Option (List Byte) := none
  deriving DecidableEq, Repr

/-- A carried sequencer state (R462, Table 24-2). -/
structure PairSeq where
  half : Nat
  seq : Nat
  state : Nat
  armed : Bool
  count : Nat
  deadline : Nat
  deriving DecidableEq, Repr

/-- A pair sync mark that waits for room in flow 0 (R472). -/
structure PairMark where
  lp : LP
  seq : Nat
  payload : List Byte
  deriving DecidableEq, Repr

/-- The pair beyond its registers (chapter 24). -/
structure PairSt where
  /-- Messages not acknowledged; messages of SYNC not begun: type and payload. -/
  replay : List PairMsg := []
  sendq : List (Nat × List Byte) := []
  /-- The partner was refused (R458); its HELLO has been accepted since the link reached UP. -/
  muted : Bool := false
  hello : Bool := false
  /-- The CK of the last HEARTBEAT accepted; the partner's state as last told; TAKEOVER and YIELD as this device sends them. -/
  hbCk : Nat := 0
  peer : Nat := 0
  takeover : Bool := false
  yielding : Bool := false
  /-- The CK at which PAIR_ACTIVE follows the last role change, and its level until then (R470). -/
  roleCk : Nat := 0
  wasActive : Bool := false
  /-- One more than the CK in which R469 was last evaluated. -/
  evalCk : Nat := 0
  /-- Mirrored writes in SEQ order (R464). -/
  writes : List PairWr := []
  /-- Alignment (R461): records sent, entries not matched yet, differences by lane in 1/256 symbol, the last offset with how often in a
  row it came, an offset has been accepted. -/
  alignSent : Nat := 0
  alignIn : List AlignRec := []
  diffs : SMap (List Int) := []
  offRun : Int × Nat := (0, 0)
  aligned : Bool := false
  /-- SYNC (R462): the lead has sent its state, the writes have applied, sequencer states held, resyncs begun. -/
  synced : Bool := false
  applied : Bool := false
  seqs : List PairSeq := []
  /-- Resyncs of the shadow and of the lead (R468). -/
  resyncs : List PairResync := []
  leadSyncs : List PairResync := []
  /-- Epochs (R466, R467): the next to end, by half; ended and not sent; this device's digests and the lead's. -/
  nextEpoch : SMap Nat := []
  ended : List (Nat × Nat) := []
  own : List Epoch := []
  theirs : List Epoch := []
  /-- Entries written to the mirror ring (R463). -/
  ring : Nat := 0
  /-- Sync marks that wait, by half. -/
  marks : SMap (List PairMark) := []
  deriving DecidableEq, Repr

/-- The drive of the user I/O balls (R42): high impedance, the bank's weak pull, or as configured. -/
inductive IoSt where
  | hiZ | pull | configured
  deriving DecidableEq, Repr

/-- Reset as R327 to R330 stage it: no supplies, a source active, then the rows of Table 16-3. -/
inductive RstSt where
  | unpowered | held | released | ckLocked | fusesRead | aonUp | running
  deriving DecidableEq, Repr

/-- The balls the block drives, as they stand after each command (R42, R441, R460). -/
structure Pins where
  pairOk : Bool := false
  pairActive : Bool := false
  /-- PAIR_OK and PAIR_ACTIVE are driven; unpowered they are high impedance (Table 2-4). -/
  pairDriven : Bool := true
  /-- The line RX pins are terminated, the line TX pins are driven: both but unpowered (Table 2-4). -/
  rxTerm : Bool := true
  txDriven : Bool := true
  cfgDoneLow : Bool := true
  cfgErrLow : Bool := false
  thermTripLow : Bool := false
  userIo : IoSt := .pull
  pcie : Bool := true
  /-- CFG_WAIT is driven low (R346). -/
  cfgWaitLow : Bool := false
  /-- What boundary scan does to the balls it covers: EXTEST 3, CLAMP 4, HIGHZ 5, 0 nothing (R319). -/
  scan : Nat := 0
  deriving DecidableEq, Repr

/-- The board's straps and the levels other parts drive onto the block's balls. -/
structure Ins where
  /-- PAIR_SIDE, HALF_STEWARD and CFG_AUTO straps (Tables 20-8, 24-9, 17-8). -/
  pairSide : Bool := false
  halfSteward : Bool := false
  cfgAuto : Bool := false
  /-- PAIR_OK_IN (R469). -/
  pairOkIn : Bool := false
  /-- PULL_SEL0–7: the weak pull of each bank, 1 up (R507). -/
  pullSel : BitVec 8 := 0#8
  /-- PERST_N is low (R328). -/
  perstLow : Bool := false
  deriving DecidableEq, Repr

/-- The block's state but for its queue of commands. -/
structure Dev where
  /-- How far the device is out of reset (Table 16-3); the reset sources active, by their bit of RST_CAUSE (R327). -/
  rst : RstSt := .running
  sources : List Nat := []
  /-- The startup release of the configuration has happened (R331). -/
  started : Bool := false
  /-- THERM_TRIP_N is held low (R442). -/
  thermTrip : Bool := false
  /-- The target of an accepted transition in progress (R36). -/
  modeTarget : Option Nat := none
  /-- The CK in which a request was last accepted (R35), and in which READY was last entered (R514). -/
  reqCk : Option Nat := none
  readyCk : Option Nat := none
  /-- Halves that act in OFFLOAD while their records drain: the transition is not yet complete (R31, R38). -/
  offEntry : List Nat := []
  /-- A SAFE entry is in progress (R35, R40); the CK it began. -/
  safeEntry : Bool := false
  safeCk : Nat := 0
  /-- Causes live in the CK of an entry to READY: SAFE entry begins in the next (R514). -/
  safeDue : Nat := 0
  /-- What the South half holds while the halves are split (R31, R400, R401). -/
  south : Option SouthSt := none
  /-- The last exit from SLEEP or SAFE waits for the lanes' attempts (R39). -/
  waking : Bool := false
  /-- The lanes' first attempts of this release have begun, or the CK in which they will (R51). -/
  lanesBegun : Bool := false
  lanesDue : Option Nat := none
  ins : Ins := {}
  pins : Pins := {}
  /-- CK since the halves left reset (Table 16-5). -/
  ck : Nat := 0
  regs : SMap Word := []
  log : CkLog := {}
  out : List Out := []
  /-- Events that the block itself has under way, with the CK they are due. -/
  agenda : List (Nat × Instr) := []
  /-- The latch of each page: register offset and value (R480). -/
  latch : SMap (List (Nat × Word)) := []
  /-- Page-line changes of the last CKs: CK, page, the level before (R483). -/
  lineLog : List (Nat × Nat × Bool) := []
  /-- MSI-X table entries and pending bits of BAR4 (R402, R482). -/
  msix : SMap (BitVec 128) := []
  msixPend : List Nat := []
  lanes : SMap LaneSt := []
  recs : SMap Rec := []
  nextRid : Nat := 1
  lpc : SMap LpcSt := []
  /-- Scheduler entries, 1,024 a half, and the index fired last (R80, R87). -/
  evs : SMap (BitVec 256) := []
  /-- Scheduler entries whose firing was deferred and counted (R83). -/
  evsLate : List Nat := []
  /-- Per half, one more than the CK in which due entries were last taken, and the entries fired in it (R83, R87). -/
  evsRan : SMap Nat := []
  evsFired : List Nat := []
  /-- Sieve rules, 64 a sieve (R90). -/
  rules : SMap (BitVec 512) := []
  /-- Sequencer states, action slots and selectors (R101, R106, R110). -/
  seqStates : SMap (BitVec 256) := []
  seqSlots : SMap (BitVec 128) := []
  seqSel : SMap (BitVec 256) := []
  seqs : SMap SeqSt := []
  trigEvs : SMap (List TrigEv) := []
  bridgeOut : SMap (List BridgeOut) := []
  flying : List Flying := []
  /-- Actions that have reached their stimulus unit in this CK (R236). -/
  stimIn : List Action := []
  stims : SMap StimLane := []
  plays : SMap PlaySt := []
  /-- Template words by half × 2^21 + template × 512 + word (R228). -/
  tmpls : SMap Word := []
  allocs : SMap (List AllocItem) := []
  /-- Flow table entries, 4,096 a half (R133). -/
  flows : SMap (BitVec 512) := []
  nums : SMap (List Num) := []
  runs : SMap LossRun := []
  /-- Flows whose open run is closed by a marker once the number is resolved (R122). -/
  closing : SMap Nat := []
  /-- LP at which capture froze in OFFLOAD, per half (R38). -/
  frozeLp : SMap LP := []
  cq : SMap CqSt := []
  /-- Every addressed memory of the NoC map (Table 19-2), byte by byte, and the check bytes of DRAM bursts by burst number. -/
  mem : SMap Byte := []
  chk : SMap (BitVec 128) := []
  subs : SMap DSub := []
  dtx : SMap DTx := []
  nextTx : Nat := 1
  drcs : SMap DrcSt := []
  memis : SMap MemiSt := []
  crypts : SMap CryptSt := []
  fuses : Fuses := {}
  fab : FabSt := {}
  bays : SMap BaySt := []
  scrub : ScrubSt := {}
  cfg : CfgSt := {}
  /-- The CK of the last startup release, while its configuration stands (R310, R331). -/
  startCk : Option Nat := none
  pmc : PmcSt := {}
  dmas : SMap DmaSt := []
  /-- By engine × 4 + level: one more than the channel of the level's last choice (R414). -/
  dmaTurn : SMap Nat := []
  /-- Extents in the order they were opened, how many extents each flow of a half has opened (R185), the next order number. -/
  exts : List Ext := []
  opened : SMap Nat := []
  nextOpen : Nat := 0
  plus : SMap PluSt := []
  handovers : SMap Handover := []
  /-- Journal writes on their way, with their half; journal entries offered to the Scarf link, oldest first (R202). -/
  jrnTx : SMap Nat := []
  /-- What the journals and the index units last wrote to each burst, which they write whole (R267). -/
  meta64 : SMap (BitVec 512) := []
  offers : List (Nat × BitVec 256) := []
  /-- Reads of the capture space by number, the next number; seeks and descriptor reads of each index unit. -/
  capReads : SMap CapRead := []
  nextRead : Nat := 1
  seeks : SMap SeekSt := []
  descReads : SMap DescRead := []
  engs : SMap EngSt := []
  dbgs : SMap DbgSt := []
  gks : SMap GkSt := []
  /-- Requests to the banks of the bays' shared memories, by bay × 16 + bank; requests to the banks of the scratchpads, by engine ×
  4 + bank: NoC request and CK of arrival (R138, R140). -/
  bayQ : SMap (List BayReq) := []
  spQ : SMap (List (Nat × Nat)) := []
  /-- Reservations that bay memories and scratchpads keep for remote requesters: memory, granules with their requesters, newest
  first (R374). -/
  resvs : SMap (List (Nat × Nat)) := []
  /-- Requests on the network by number, the next number, the networks. -/
  nocReqs : SMap NocReq := []
  nextNoc : Nat := 1
  nocs : SMap NocSt := []
  /-- Flits on the links, also those of packets not yet injected (R376). -/
  linkRuns : List LinkRun := []
  /-- The background tests by memory (R142, R308). -/
  tests : SMap TestSt := []
  /-- Context memory by engine × 16,384 + slot × 256 + byte, and its words that read uncorrectable (R139). -/
  ctx : SMap Byte := []
  ctxBad : List Nat := []
  imem : SMap Word := []
  /-- Epochs not yet sent (R466); records delimited since ALIGN began (R461); by flow, the first number held for a resync (R468). -/
  epochs : List Epoch := []
  alignRecs : List AlignRec := []
  holds : SMap Nat := []
  pair : PairSt := {}
  /-- Host events that wait for the ring, oldest first, and the phase of the ring's pass (R406). -/
  hostEvs : List (BitVec 512) := []
  evtPhase : Bool := true
  /-- The host command under way; a fetch of a command entry is out (R403). -/
  hcmd : Option HostCmd := none
  fetching : Bool := false
  /-- Requests numbered below it had reached the device when CMD_TAIL was last written (R402). -/
  cmdBell : Nat := 0
  /-- The boot under way: the CK it started, whether it loads the fallback image (R395, R396). -/
  boot : Option (Nat × Bool) := none
  /-- The CK in which the steward token passes to the other half (R399). -/
  tokenCk : Option Nat := none
  deriving DecidableEq, Repr

/-- The machine: the block and the commands that wait for it, first in, first out. -/
structure State where
  dev : Dev
  pending : List Instr
  deriving DecidableEq, Repr

/-- The machine right after reset: both halves out of reset in BLANK with the boot under way, which finds no image in an erased flash
after two units (Table 16-3, R395, R396); the straps low; nothing listed in any memory or table; no command waiting. -/
def State.reset : State := { dev := { boot := some (0, false), agenda := [(144, .bootDone)] }, pending := [] }

end Sys2Proof.Machine
end

