-- ==== Sys2Proof/WellFormed.lean ====
section
/-! DEFINITION. Which terms of Instr are commands: the operands' types bound most of them; what is left is checked here. -/

namespace Sys2Proof

open Sys2Proof.Machine

/-- A BAR0 byte offset of a 32-bit register: inside the 16,384 pages and 4-byte aligned (R6, R475). -/
def wfAddr (a : Nat) : Bool := decide (a < 16384 * 4096) && decide (a % 4 = 0)

/-- A BAR0 page number (R475). -/
def wfPage (p : Nat) : Bool := decide (p < 16384)

/-- Is the term a command? -/
def Instr.wellFormed : Instr → Bool
  | .registerWrite a _ => wfAddr a
  | .unoccupiedOffsetRead a _ => wfAddr a
  | .latchingRead a _ => wfAddr a
  | .counterClear a _ _ => wfAddr a
  | .errFirstClear p _ _ => wfPage p
  | .intPendClear p _ _ => wfPage p
  | .intForce p _ => wfPage p
  | .intEnWrite p _ => wfPage p
  | _ => true

end Sys2Proof
end

