-- ==== Sys2Proof/Machine/Ops.lean ====
section
/-! DEFINITION. The shared operations: running a command, reading and writing registers and their fields, counting errors
(R28), setting interrupt bits (R478, R481, R482), scheduling the block's own later events. -/

namespace Sys2Proof.Machine

/-! Page numbers (Table 25-2): a block's first page, or the page of its instance. -/

/-- The page of an instance of a block. -/
def Blk.page (b : Blk) (i : Nat) : Nat := b.base + i

namespace Pg
abbrev dev := Blk.page .dev 0
abbrev pmc := Blk.page .pmc 0
abbrev therm := Blk.page .therm 0
abbrev cfg := Blk.page .cfg 0
abbrev scrub := Blk.page .scrub 0
abbrev hostif := Blk.page .hostif 0
abbrev dbg := Blk.page .dbg 0
abbrev pair := Blk.page .pair 0
abbrev steward := Blk.page .steward 0
abbrev lane := Blk.page .lane
abbrev lpc := Blk.page .lpc
abbrev evs := Blk.page .evs
abbrev sieve := Blk.page .sieve
abbrev trig := Blk.page .trig
abbrev flow := Blk.page .flow
abbrev plu := Blk.page .plu
abbrev cq := Blk.page .cq
abbrev idx := Blk.page .idx
abbrev stim := Blk.page .stim
abbrev drc := Blk.page .drc
abbrev memi := Blk.page .memi
abbrev crypt := Blk.page .crypt
abbrev newt := Blk.page .newt
abbrev gecko := Blk.page .gecko
abbrev bay := Blk.page .bay
abbrev noc := Blk.page .noc
abbrev dma := Blk.page .dma
abbrev dmach := Blk.page .dmach
abbrev clkrst := Blk.page .clkrst
end Pg

/-! Registers. -/

/-- The BAR0 byte offset of a register. -/
def raddr (pg off : Nat) : Nat := pg * 4096 + off

/-- The stored value of a register. -/
def Dev.reg (d : Dev) (pg off : Nat) : Word := sget (regReset (raddr pg off)) d.regs (raddr pg off)

/-- Store a register. -/
def Dev.setReg (d : Dev) (pg off : Nat) (v : Word) : Dev :=
  { d with regs := sset (regReset (raddr pg off)) d.regs (raddr pg off) v }

/-- The value of a register's field. -/
def Dev.fld (d : Dev) (pg : Nat) (f : Fld) : Nat := bitsOf (d.reg pg f.off).toNat f.lo f.wd

/-- Set a register's field. -/
def Dev.setFld (d : Dev) (pg : Nat) (f : Fld) (v : Nat) : Dev :=
  d.setReg pg f.off (BitVec.ofNat 32 (bitsPut (d.reg pg f.off).toNat f.lo f.wd v))

/-- Is a one-bit field 1? -/
def Dev.flag (d : Dev) (pg : Nat) (f : Fld) : Bool := decide (d.fld pg f = 1)

/-- The 64-bit number held by two registers, low word first. -/
def Dev.reg64 (d : Dev) (pg off : Nat) : Nat := (d.reg pg off).toNat + 2 ^ 32 * (d.reg pg (off + 4)).toNat

/-- Store a 64-bit number in two registers. -/
def Dev.setReg64 (d : Dev) (pg off v : Nat) : Dev :=
  (d.setReg pg off (BitVec.ofNat 32 v)).setReg pg (off + 4) (BitVec.ofNat 32 (v / 2 ^ 32))

/-- `k` consecutive registers as one entry, the first lowest. -/
def Dev.window (d : Dev) (n pg off k : Nat) : BitVec n := ofWords n ((List.range k).map (fun j => d.reg pg (off + 4 * j)))

/-- Store an entry into `k` consecutive registers. -/
def Dev.setWindow {n : Nat} (d : Dev) (pg off k : Nat) (x : BitVec n) : Dev :=
  (List.range k).foldl (fun d j => d.setReg pg (off + 4 * j) (eword x j)) d

/-- What has happened in this CK. -/
def Dev.setLog (d : Dev) (l : CkLog) : Dev := { d with log := l }

/-- A counter has advanced in this CK (R9). -/
def Dev.noteCount (d : Dev) (pg : Nat) (f : Fld) (k : Nat) : Dev :=
  d.setLog { d.log with counted := if k = 0 then d.log.counted else ((raddr pg f.off, f.lo), k) :: d.log.counted }

/-- What a counter holds after a write that clears it (R9): the event of this CK, if it has had one. -/
def Dev.countNow (d : Dev) (addr lo : Nat) : Nat := (d.log.counted.lookup (addr, lo)).getD 0

/-- Advance a counter field, saturating at its width (R9). -/
def Dev.bumpBy (d : Dev) (pg : Nat) (f : Fld) (k : Nat) : Dev := (d.setFld pg f (satAdd f.wd (d.fld pg f) k)).noteCount pg f k

/-- Advance a 64-bit statistics counter held by two registers. -/
def Dev.count64 (d : Dev) (pg off k : Nat) : Dev := (d.setReg64 pg off ((d.reg64 pg off + k) % 2 ^ 64)).noteCount pg ⟨off, 0, 32⟩ k

/-- Advance a counter field by one, saturating (R9). -/
def Dev.bump (d : Dev) (pg : Nat) (f : Fld) : Dev := d.bumpBy pg f 1

/-! Errors (R28, R477). -/

/-- ERR_FIRST takes a code and its counter's index, in this CK. -/
def Dev.errLoad (d : Dev) (pg idx code : Nat) : Dev :=
  ((d.setFld pg F.ERR_FIRST_CODE code).setFld pg F.ERR_FIRST_IDX idx).setLog { d.log with firsts := pg :: d.log.firsts }

/-- Load ERR_FIRST: if it reads 0, or if an error of this CK loaded it with a higher counter, or the same counter and a higher code. -/
def Dev.errFirst (d : Dev) (pg idx code : Nat) : Dev :=
  let c := d.fld pg F.ERR_FIRST_CODE
  let i := d.fld pg F.ERR_FIRST_IDX
  if c = 0 ∨ (d.log.firsts.contains pg ∧ (idx < i ∨ (idx = i ∧ code < c))) then d.errLoad pg idx code else d

/-- An error has arisen in this CK. -/
def Dev.noteErr (d : Dev) (pg idx code : Nat) : Dev := d.setLog { d.log with errs := (pg, idx, code) :: d.log.errs }

/-- Count one error: its counter saturates, ERR_FIRST takes its code if it holds none (R28). -/
def Dev.err (d : Dev) (pg idx code : Nat) : Dev := ((d.bump pg (F.ERRCNT idx)).noteErr pg idx code).errFirst pg idx code

/-- The errors of a page in this CK, newest first. -/
def Dev.errsNow (d : Dev) (pg : Nat) : List (Nat × Nat) := (d.log.errs.filter (fun e => decide (e.1 = pg))).map Prod.snd

/-- Of errors that arose together, the one ERR_FIRST takes: the lowest counter, then the lowest code (R28). -/
def leastErr (l : List (Nat × Nat)) : Option (Nat × Nat) :=
  l.foldl (fun m e => match m with
    | none => some e
    | some x => some (if e.1 < x.1 ∨ (e.1 = x.1 ∧ e.2 < x.2) then e else x)) none

/-- Count an error that met several cases: each counter once, the lowest counter and code first (R28). -/
def Dev.errs (d : Dev) (pg : Nat) (cases : List (Nat × Nat)) : Dev :=
  (List.range 8).foldl (fun d i =>
    match (cases.filter (fun c => decide (c.1 = i))).map Prod.snd with
    | [] => d
    | c :: cs => d.err pg i (cs.foldl min c)) d

/-- Count a register-access error of a page (R8, Table 25-3). -/
def Dev.regErr (d : Dev) (pg code : Nat) : Dev := d.err pg 7 code

/-! Interrupts (R478, R481 to R483). -/

/-- The page line: the OR of INT_PEND AND INT_EN (R481). -/
def Dev.line (d : Dev) (pg : Nat) : Bool := decide ((d.reg pg 0x010) &&& (d.reg pg 0x014) ≠ 0#32)

/-- Put an output out. -/
def Dev.emit (d : Dev) (o : Out) : Dev := { d with out := d.out ++ [o] }

/-! Mortise ports (R310, R311). -/

/-- φ in the CK at hand (R310): 0 while no configuration stands. -/
def Dev.phi (d : Dev) : Nat := match d.startCk with | some s => (d.ck - s) % 12 | none => 0

/-- The ratio of a port's clock. -/
def Dev.portRatio (d : Dev) (p : Port) : Nat := (Config.portRatio p d.startCk).val + 1

/-- The user edge, and the slot of its word, at which a port of ratio `r` presents what a hard block produces in CK `c`, `s` being the
startup release: the first edge from c + 1 on. -/
def presentAt (s r c : Nat) : Nat × Nat :=
  let e := c + 1 + (r - (c + 1 - s) % r) % r
  (e, c + r - e)

/-- The user edge and the slot from which comes what reaches a hard block in CK `c`: slot k of a word launched at e comes at e + 1 + k. -/
def launchedAt (s r c : Nat) : Nat × Nat := (c - 1 - (c - 1 - s) % r, (c - 1 - s) % r)

/-- The CK from hard block to hard block, where user logic returns a slot in its place after `m` user cycles. -/
def userRound (r m : Nat) : Nat := (m + 1) * r + 1

/-- Has a word launched at a user edge since the release in CK `s` (whose own edge is not delivered, Table 16-4) reached the hard block? The
first such CK is s + r + 1, which is s + 5 at the most. -/
def Dev.slotIn (d : Dev) (p : Port) (s : Nat) : Bool := decide (s + 5 ≤ d.ck) || decide (s + d.portRatio p + 1 ≤ d.ck)

/-- Can a command of user logic have come through a port: a configuration stands, and a word launched under it has arrived? -/
def Dev.logicIn (d : Dev) (p : Port) : Bool :=
  match d.startCk with
  | some s => d.slotIn p s
  | none => false

/-- A hard block's value on a port: it is presented at its edge. With no configuration there is no user logic. -/
def Dev.present (d : Dev) (p : Port) (v : PortVal) : Dev :=
  match d.startCk with
  | none => d
  | some s =>
    let e := presentAt s (d.portRatio p) d.ck
    { d with fab := { d.fab with slots := d.fab.slots ++ [⟨p, e.1, e.2, v⟩] } }

/-- At the start of a CK, what it presents. -/
def Dev.presented (d : Dev) : Dev :=
  let now := d.fab.slots.filter (fun x => decide (x.edge ≤ d.ck))
  if now = [] then d
  else
    let d : Dev := { d with fab := { d.fab with slots := d.fab.slots.filter (fun x => decide (d.ck < x.edge)) } }
    now.foldl (fun (d : Dev) x => d.emit (.slot x.port x.k x.val)) d

/-- An entry of the MSI-X table after reset: masked, as PCI Express resets it. -/
def msixReset : BitVec 128 := BitVec.ofNat 128 (2 ^ 96)

/-- A vector's pending bit is set (R482). -/
def Dev.setMsixPend (d : Dev) (v : Nat) : Dev := { d with msixPend := if d.msixPend.contains v then d.msixPend else v :: d.msixPend }

/-- Send the MSI-X message of a vector, once for edges of one CK; a masked vector sets its pending bit (R482). -/
def Dev.sendVec (d : Dev) (v : Nat) : Dev :=
  if d.log.vecs.contains v then d
  else
    let d := d.setLog { d.log with vecs := v :: d.log.vecs }
    let e := sget msixReset d.msix v
    if bit e.toNat 96 then d.setMsixPend v
    else d.emit (.msix v (bitsOf e.toNat 0 64) (eword e 2))

/-- A rising edge of a page line (R482). -/
def Dev.edge (d : Dev) (pg : Nat) : Dev :=
  if d.flag pg F.IRQ_ROUTE_MSI_EN then d.sendVec (d.fld pg F.IRQ_ROUTE_VEC) else d

/-- Record a change of the page line for the Gecko sources, which follow it later (R483). -/
def Dev.lineMoved (d : Dev) (pg : Nat) (before : Bool) : Dev :=
  if d.line pg = before then d else { d with lineLog := d.lineLog ++ [(d.ck, pg, before)] }

/-- The INT_PEND bits a page defines. -/
def pendMaskOf (pg : Nat) : Nat :=
  match blkOfPage pg with
  | some (b, _) => b.pendMask
  | none => 0

/-- Advance SEQ once in a CK that takes a bit from 0 to 1 (R478). -/
def Dev.seqStep (d : Dev) (pg : Nat) (rose : Bool) : Dev :=
  if rose ∧ ¬ d.log.seqPages.contains pg then
    (d.setFld pg F.SEQ (d.fld pg F.SEQ + 1)).setLog { d.log with seqPages := pg :: d.log.seqPages }
  else d

/-- The INT_PEND bits hardware has set in this CK (R478). -/
def Dev.setNow (d : Dev) (pg : Nat) : Word :=
  BitVec.ofNat 32 ((d.log.sets.filter (fun e => decide (e.1 = pg))).foldl (fun m e => m ||| e.2) 0)

/-- Hardware sets INT_PEND bits: only bits the page defines set (R474); a rising line is an edge (R478, R481). -/
def Dev.pendBits (d : Dev) (pg : Nat) (bits : Nat) : Dev :=
  let b := BitVec.ofNat 32 (bits &&& pendMaskOf pg)
  let old := d.reg pg 0x010
  let was := d.line pg
  let d := d.setLog { d.log with sets := (pg, bits &&& pendMaskOf pg) :: d.log.sets }
  let d := (d.setReg pg 0x010 (old ||| b)).seqStep pg (decide (b &&& ~~~old ≠ 0#32))
  let d := d.lineMoved pg was
  if ¬ was ∧ d.line pg then d.edge pg else d

/-- Hardware sets one INT_PEND bit. -/
def Dev.pend (d : Dev) (pg k : Nat) : Dev := d.pendBits pg (2 ^ k)

/-! The block's own later events. -/

/-- Put an event on the agenda for `k` CK from now, after those already due then. -/
def Dev.sched (d : Dev) (k : Nat) (i : Instr) : Dev :=
  let due := d.ck + k
  let before := d.agenda.filter (fun e => decide (e.1 ≤ due))
  let after := d.agenda.filter (fun e => decide (due < e.1))
  { d with agenda := before ++ [(due, i)] ++ after }

/-- Is an event the one the agenda holds? What the surroundings measure at the event does not tell two events apart. -/
def sameEvent (a b : Instr) : Bool :=
  match a, b with
  | .dramDecision c s _, .dramDecision c' s' _ => decide (c = c' ∧ s = s')
  | .dramServiceDone c s _ _, .dramServiceDone c' s' _ _ => decide (c = c' ∧ s = s')
  | .dramTrainingDone c _ _ _, .dramTrainingDone c' _ _ _ => decide (c = c')
  | .refresh c s r _ _, .refresh c' s' r' _ _ => decide (c = c' ∧ s = s' ∧ r = r')
  | .mr4Read c _ _ _, .mr4Read c' _ _ _ => decide (c = c')
  | .flowHandover h f _, .flowHandover h' f' _ => decide (h = h' ∧ f = f')
  | .captureWrite h _, .captureWrite h' _ => decide (h = h')
  | .captureWriteAck h r _, .captureWriteAck h' r' _ => decide (h = h' ∧ r = r')
  | .ld8u e r a i _, .ld8u e' r' a' i' _ => decide (e = e' ∧ r = r' ∧ a = a' ∧ i = i')
  | .ld16u e r a i _, .ld16u e' r' a' i' _ => decide (e = e' ∧ r = r' ∧ a = a' ∧ i = i')
  | .ld32u e r a i _, .ld32u e' r' a' i' _ => decide (e = e' ∧ r = r' ∧ a = a' ∧ i = i')
  | .ld64 e r a i _, .ld64 e' r' a' i' _ => decide (e = e' ∧ r = r' ∧ a = a' ∧ i = i')
  | .ld8s e r a i _, .ld8s e' r' a' i' _ => decide (e = e' ∧ r = r' ∧ a = a' ∧ i = i')
  | .ld16s e r a i _, .ld16s e' r' a' i' _ => decide (e = e' ∧ r = r' ∧ a = a' ∧ i = i')
  | .ld32s e r a i _, .ld32s e' r' a' i' _ => decide (e = e' ∧ r = r' ∧ a = a' ∧ i = i')
  | .lr e r a i _, .lr e' r' a' i' _ => decide (e = e' ∧ r = r' ∧ a = a' ∧ i = i')
  | .pushSp e r a b t _, .pushSp e' r' a' b' t' _ => decide (e = e' ∧ r = r' ∧ a = a' ∧ b = b' ∧ t = t')
  | .scratchpadRequest e k _, .scratchpadRequest e' k' _ => decide (e = e' ∧ k = k')
  | .bayMemArbitrate b k _ _, .bayMemArbitrate b' k' _ _ => decide (b = b' ∧ k = k')
  | .flashCmdDone _, .flashCmdDone _ => true
  | .fuseCmdDone _, .fuseCmdDone _ => true
  | .serialByteSent p _ _, .serialByteSent p' _ _ => decide (p = p')
  | .dmaReadData k i _, .dmaReadData k' i' _ => decide (k = k' ∧ i = i')
  | .dmaDescFetch k i _, .dmaDescFetch k' i' _ => decide (k = k' ∧ i = i')
  | .configScrubFrame _ _, .configScrubFrame _ _ => true
  | .rampStep r _, .rampStep r' _ => decide (r = r')
  | .resetRelease _ _ _ _, .resetRelease _ _ _ _ => true
  | .startupRelease _ _, .startupRelease _ _ => true
  | .blockVerify _, .blockVerify _ => true
  | .cmdFetch _, .cmdFetch _ => true
  | .nocInject n _, .nocInject n' _ => decide (n = n')
  | .nocDelivery n _, .nocDelivery n' _ => decide (n = n')
  | _, _ => decide (a = b)

/-- Take the first occurrence of an event off the agenda: the command is that event. -/
def agendaDrop (i : Instr) : List (Nat × Instr) → List (Nat × Instr)
  | [] => []
  | e :: r => if sameEvent e.2 i then r else e :: agendaDrop i r

/-- Is an event on the agenda? -/
def Dev.awaits (d : Dev) (i : Instr) : Bool := d.agenda.any (fun e => sameEvent e.2 i)

/-- Put an event on the agenda unless it is there. -/
def Dev.schedOnce (d : Dev) (k : Nat) (i : Instr) : Dev :=
  if d.awaits i then d
  else
    let due := d.ck + k
    { d with agenda := d.agenda.filter (fun e => decide (e.1 ≤ due)) ++ [(due, i)] ++ d.agenda.filter (fun e => decide (due < e.1)) }

/-- The block at the start of a command: nothing put out yet. -/
def Dev.fresh (d : Dev) : Dev := { d with out := [] }

/-- The block at the start of a command it may have raised itself: the command's own agenda entry is taken. -/
def Dev.begin (d : Dev) (i : Instr) : Dev := { d with out := [], agenda := agendaDrop i d.agenda }

end Sys2Proof.Machine
end

