-- ==== Sys2Proof/Machine/ModeView.lean ====
section
/-! DEFINITION. The device mode and what follows from it (Tables 2-1, 2-3, 2-4), the pins that show it, and how a command is
run: the meaning acts on the block, the pins follow, the queue stays. -/

namespace Sys2Proof.Machine

/-- The modes of Table 2-1 in the order of their codes. -/
inductive Mode where
  | blank | loading | faulted | ready | tap | through | intercept | generate | exercise | offload | sleep | safe
  deriving DecidableEq, Repr

/-- A mode's code. -/
def Mode.code (m : Mode) : Nat := m.ctorIdx

/-- The bridge between the halves is not lost (R400): its classes cross (R14). -/
def Dev.bridgeOk (d : Dev) : Bool := d.flag Pg.steward F.STEWARD_STAT_BRIDGE_OK

/-- DEV_MODE_MODE. -/
def Dev.mode (d : Dev) : Nat := d.fld Pg.dev F.DEV_MODE_MODE

/-- TAP, THROUGH, INTERCEPT, GENERATE, EXERCISE. -/
def isOperating (m : Nat) : Bool := decide (Mode.tap.code ≤ m ∧ m ≤ Mode.exercise.code)

/-- The configured modes: READY, the operating modes, OFFLOAD, SLEEP, SAFE. -/
def isConfigured (m : Nat) : Bool := decide (Mode.ready.code ≤ m ∧ m ≤ Mode.safe.code)

/-- The capturing modes (R37). -/
def isCapturing (m : Nat) : Bool := [Mode.tap.code, Mode.through.code, Mode.intercept.code, Mode.exercise.code].contains m

/-- The modes with stimulus (R37, R86). -/
def isStimulus (m : Nat) : Bool := [Mode.intercept.code, Mode.generate.code, Mode.exercise.code].contains m

/-- Transitions software may request (Table 2-3); `prev` is DEV_MODE_PREV. -/
def legalRequest (m t prev : Nat) : Bool :=
  (t = Mode.blank.code && (m = Mode.faulted.code || isConfigured m))
  || ((m = Mode.ready.code || isOperating m) && (t = Mode.ready.code || isOperating t))
  || ([Mode.ready.code, Mode.tap.code, Mode.through.code, Mode.intercept.code, Mode.exercise.code].contains m && t = Mode.offload.code)
  || (m = Mode.offload.code && (t = Mode.ready.code || t = prev))
  || (m = Mode.ready.code && t = Mode.sleep.code)
  || (m = Mode.sleep.code && t = Mode.ready.code)
  || (m = Mode.safe.code && t = Mode.ready.code)

/-- The mode a half holds (R31): both hold DEV_MODE_MODE unless the halves are split, when MODE is that of the North half. -/
def Dev.heldMode (d : Dev) (h : Nat) : Nat :=
  match d.south with
  | some x => if h = 1 then x.mode else d.mode
  | none => d.mode

/-- Is SAFE entry in progress in a half? -/
def Dev.enteringSafe (d : Dev) (h : Nat) : Bool :=
  match d.south with
  | some x => if h = 1 then x.entry else d.safeEntry
  | none => d.safeEntry

/-- The mode a half acts by: SAFE from the CK a SAFE entry begins (R35, R40), OFFLOAD from the CK it takes effect, while its records
drain and the mode held is still the old one (R36, R38). -/
def Dev.modeOf (d : Dev) (h : Nat) : Nat :=
  if d.enteringSafe h then Mode.safe.code
  else if d.offEntry.contains h then Mode.offload.code
  else d.heldMode h

/-- DEV_MODE_PASS of a half (R38). -/
def Dev.passOf (d : Dev) (h : Nat) : Bool :=
  match d.south with
  | some x => if h = 1 then x.pass else d.flag Pg.dev F.DEV_MODE_PASS
  | none => d.flag Pg.dev F.DEV_MODE_PASS

/-- Does a half's lane receive (R63, Table 2-4)? LOADING receives from the first alignment attempt on, an exit from SLEEP or SAFE
from the attempts it begins. -/
def Dev.modeReceives (d : Dev) (h : Nat) : Bool :=
  let m := d.modeOf h
  m = Mode.ready.code || isOperating m || m = Mode.offload.code || (m = Mode.safe.code && d.flag Pg.dev F.DEV_SAFE_POLICY)
    || (m = Mode.loading.code && d.lanesBegun) || d.waking

/-- Does the half's mode retime RX onto TX (R58)? -/
def Dev.modePasses (d : Dev) (h : Nat) : Bool :=
  let m := d.modeOf h
  m = Mode.through.code || m = Mode.intercept.code || (m = Mode.offload.code && d.passOf h)
    || (m = Mode.safe.code && d.flag Pg.dev F.DEV_SAFE_POLICY)

/-- The steward is held and the bridge is not lost (R460): PMC_STAT_STEWARD_LIVE is 0 and BRIDGE_OK is 1. -/
def Dev.stewardHeld (d : Dev) : Bool :=
  !d.flag Pg.pmc F.PMC_STAT_STEWARD_LIVE && d.flag Pg.steward F.STEWARD_STAT_BRIDGE_OK

/-- The half that holds the steward token (R397): the one whose ROLE is STEWARD. -/
def Dev.stewardHalf (d : Dev) : Nat := if d.fld Pg.steward F.STEWARD_STAT_ROLE_S = 0 then 1 else 0

/-- The mode the steward half acts by: it alone drives the shared outputs (R398). -/
def Dev.stewardMode (d : Dev) : Nat := d.modeOf d.stewardHalf

/-- Are the user I/O balls driven as configured (R42)? During SAFE entry they are Pull from its first CK (DESIGN CHOICE, log entry 33:
Table 2-4 gives whole states only). -/
def Dev.ioConfigured (d : Dev) : Bool :=
  let m := d.stewardMode
  d.started && (m = Mode.loading.code || m = Mode.ready.code || isOperating m || m = Mode.offload.code)

/-- PAIR_OK by R41 and R460: EN is 1, the role is LEAD or SHADOW, the mode is READY, an operating mode or OFFLOAD and is not
being left for SAFE, the steward is held. -/
def Dev.pairOkLevel (d : Dev) : Bool :=
  d.flag Pg.pair F.PAIR_CTRL_EN && d.fld Pg.pair F.PAIR_STAT_ROLE ≠ 0
    && (d.stewardMode = Mode.ready.code || isOperating d.stewardMode || d.stewardMode = Mode.offload.code) && d.stewardHeld

/-- What boundary scan does to the balls: EXTEST, CLAMP and HIGHZ act in reset, BLANK and FAULTED (R319). -/
def Dev.scanOf (d : Dev) : Nat :=
  if (d.fab.tap = 3 ∨ d.fab.tap = 4 ∨ d.fab.tap = 5) ∧ (d.rst ≠ .running ∨ d.mode = Mode.blank.code ∨ d.mode = Mode.faulted.code) then d.fab.tap else 0

/-- Is intake paced (R336): two blocks are taken and not begun? -/
def Dev.cfgPaced (d : Dev) : Bool :=
  decide (2 ≤ d.cfg.taken.length + (d.cfg.blocks.filter (fun (b : CfgBlock) => match b.start with
    | some t => decide (d.ck < t)
    | none => true)).length)

/-- The balls as R42, R319, R346, R441 and R460 give them. -/
def Dev.pinsOf (d : Dev) : Pins :=
  match d.rst with
  | .unpowered =>
    { pairOk := false, pairActive := false, pairDriven := false, rxTerm := false, txDriven := false, cfgDoneLow := false, cfgErrLow := false, thermTripLow := d.thermTrip,
      userIo := .hiZ, pcie := false }
  | .running =>
    let ok := d.pairOkLevel
    { pairOk := ok
      pairActive := ok && (if d.ck < d.pair.roleCk then d.pair.wasActive
                           else d.fld Pg.pair F.PAIR_STAT_ROLE = 1 && d.fld Pg.pair F.PAIR_STAT_STATE ≠ 6)
      cfgDoneLow := d.mode = Mode.blank.code || d.mode = Mode.faulted.code || (d.mode = Mode.loading.code && !d.started)
      cfgErrLow := d.mode = Mode.faulted.code
      thermTripLow := d.thermTrip
      userIo := if d.ioConfigured then .configured else .pull
      pcie := true
      cfgWaitLow := d.flag Pg.cfg F.CFG_STAT_WIPING || d.cfgPaced
      scan := d.scanOf }
  | _ =>
    { pairOk := false, pairActive := false, cfgDoneLow := true, cfgErrLow := false, thermTripLow := d.thermTrip,
      userIo := .pull, pcie := decide (d.rst = .aonUp), scan := d.scanOf }

/-- A paired device that drives PAIR_OK low takes state LINK, a lead DEGRADED (R460). -/
def Dev.pairDrop (d : Dev) (was : Bool) : Dev :=
  if was ∧ ¬ d.pinsOf.pairOk ∧ d.flag Pg.pair F.PAIR_CTRL_EN ∧ d.fld Pg.pair F.PAIR_STAT_STATE ≠ 6 then
    d.setFld Pg.pair F.PAIR_STAT_STATE (if d.fld Pg.pair F.PAIR_STAT_ROLE = 1 then 5 else 1)
  else d

/-- The levels of the balls. -/
def Dev.setPins (d : Dev) (p : Pins) : Dev := { d with pins := p }

/-- The pins follow the state after every command. -/
def Dev.settle (d : Dev) : Dev :=
  let d := d.pairDrop d.pins.pairOk
  d.setPins d.pinsOf

/-- In reset nothing acts but what resets, releases and scans (R327, R319). -/
def Dev.awake (d : Dev) (f : Dev → Dev) : Dev := if d.rst = .running then f d else d

/-- Run a meaning as a command: it acts on the block, the pins follow, the waiting commands stay. -/
def State.cmd (s : State) (f : Dev → Dev) : Host.Outcome State Fault Refusal :=
  .next { s with dev := (s.dev.fresh.awake f).settle }

/-- Run a meaning as a command that an ill-formed term cannot be. -/
def State.checked (s : State) (ok : Bool) (f : Dev → Dev) : Host.Outcome State Fault Refusal :=
  if ok then s.cmd f else .fault .illFormed

/-- Run a meaning as a command that the block also raises by itself: it takes the command's entry off the agenda first. -/
def State.run (s : State) (i : Instr) (f : Dev → Dev) : Host.Outcome State Fault Refusal :=
  .next { s with dev := ((s.dev.begin i).awake f).settle }

/-- Run a meaning that acts in reset too. -/
def State.cmdAlways (s : State) (f : Dev → Dev) : Host.Outcome State Fault Refusal :=
  .next { s with dev := (f s.dev.fresh).settle }

/-- Run a meaning that acts in reset too and that the block also raises by itself. -/
def State.runAlways (s : State) (i : Instr) (f : Dev → Dev) : Host.Outcome State Fault Refusal :=
  .next { s with dev := (f (s.dev.begin i)).settle }

end Sys2Proof.Machine
end

