-- ==== Sys2Proof/Machine/LpOps.lean ====
section
/-! DEFINITION. Lane rates and the arithmetic of line position (R45, R66 to R70, R75, R82). Instants are integers in 2^-20 CK
since CK 0, positions integers in 2^-32 symbol; a stamp keeps 1/256 symbol, truncated toward minus infinity. -/

namespace Sys2Proof.Machine

/-! Table 3-1. -/

/-- A row of Table 3-1: rate in 10^-5 Gbit/s, PAM4, codes permitted (bit k: CODE k), RX pin to sieve, TX serializer to pin. -/
structure RateRow where
  rate : Nat
  pam4 : Bool
  codes : Nat
  rx : Nat
  tx : Nat
  deriving DecidableEq, Repr

/-- Table 3-1; CODE 0 is 64b/66b, 1 128b/130b, 2 8b/10b, 3 raw. RATE 0xF has no row. -/
def rateTable : List RateRow :=
  [⟨125000, false, 0b1100, 24, 26⟩, ⟨250000, false, 0b1100, 18, 19⟩, ⟨312500, false, 0b1100, 16, 17⟩,
   ⟨500000, false, 0b1100, 14, 15⟩, ⟨625000, false, 0b1101, 13, 14⟩, ⟨800000, false, 0b1010, 14, 15⟩,
   ⟨1031250, false, 0b1001, 12, 13⟩, ⟨1600000, false, 0b1010, 12, 13⟩, ⟨2578125, false, 0b1001, 11, 12⟩,
   ⟨2812500, false, 0b1001, 11, 12⟩, ⟨3200000, false, 0b1010, 11, 12⟩, ⟨5312500, false, 0b1001, 10, 11⟩,
   ⟨5625000, true, 0b1001, 11, 12⟩, ⟨6400000, true, 0b1010, 11, 12⟩, ⟨10625000, true, 0b1001, 10, 11⟩]

/-- The row of a rate code. -/
def rateRow (r : Nat) : Option RateRow := rateTable[r]?

/-- Is the code permitted at the rate (R46)? -/
def rateCodeOk (r c : Nat) : Bool :=
  match rateRow r with
  | some row => bit row.codes c
  | none => false

/-- UI of one symbol: bits per symbol over bits per UI is in the rate, so bits suffice (R3). -/
def symbolBits (pam4 : Bool) (code : Nat) : Nat :=
  match code with
  | 0 => 66
  | 1 => 130
  | 2 => 10
  | _ => if pam4 then 128 else 64

/-- A lane symbol's duration τ in 2^-20 CK. -/
def tauOf (r c : Nat) : Nat :=
  match rateRow r with
  | some row => symbolBits row.pam4 c * 100000 * 2 ^ 20 / row.rate
  | none => 2 ^ 20

/-- RX pin to sieve, in CK (Table 3-1). -/
def rxLat (r : Nat) : Nat := match rateRow r with | some row => row.rx | none => 0

/-- TX serializer to pin, in CK (Table 3-1). -/
def txLat (r : Nat) : Nat := match rateRow r with | some row => row.tx | none => 0

/-- RATE and CODE of a lane; a lane in user PCS decodes raw (R48). -/
def Dev.laneRate (d : Dev) (n : Nat) : Nat := d.fld (Pg.lane n) F.LANE_CFG_RATE
def Dev.laneCode (d : Dev) (n : Nat) : Nat :=
  if d.flag (Pg.lane n) F.LANE_CFG_USER_PCS then 3 else d.fld (Pg.lane n) F.LANE_CFG_CODE

/-- Symbol duration of a lane, in 2^-20 CK: as measured, of Table 3-1 before the first measurement (R75). -/
def Dev.laneTau (d : Dev) (n : Nat) : Nat :=
  let t := (sget ({} : LaneSt) d.lanes n).tau
  if t = 0 then tauOf (d.laneRate n) (d.laneCode n) else t

/-- The half of a lane (Table 0-2). -/
def laneHalf (n : Nat) : Nat := n / 32

/-! Line position. -/

/-! LPC states (Table 4-1). -/
namespace Lpc
def idle : Nat := 0
def unanchored : Nat := 1
def locked : Nat := 2
def freewheel : Nat := 3
end Lpc

/-- LPC state of a half. -/
def Dev.lpcState (d : Dev) (h : Nat) : Nat := d.fld (Pg.lpc h) F.LPC_STAT_STATE

/-- The line position counter of a half. -/
def Dev.lpcOf (d : Dev) (h : Nat) : LpcSt := sget {} d.lpc h
def Dev.setLpc (d : Dev) (h : Nat) (x : LpcSt) : Dev := { d with lpc := sset {} d.lpc h x }

/-- The reference (R67): 0 a lane, 1 LREF, 2 synthetic; the reference lane; the half that anchors. -/
def Dev.refSrc (d : Dev) : Nat := d.fld (Pg.lpc 0) F.LPC_REF_SRC
def Dev.refLane (d : Dev) : Nat := d.fld (Pg.lpc 0) F.LPC_REF_LANE
def Dev.anchorHalf (d : Dev) : Nat := if d.refSrc = 0 then laneHalf d.refLane else 0

/-- SYN_INC and RATE as numbers of 2^-32 symbol per CK (R67, R69). -/
def Dev.synInc (d : Dev) : Nat := d.fld (Pg.lpc 0) F.LPC_SYN_INC_LO + 2 ^ 32 * d.fld (Pg.lpc 0) F.LPC_SYN_INC_HI_INT
def Dev.lpcRate (d : Dev) (h : Nat) : Nat := d.fld (Pg.lpc h) F.LPC_RATE_LO + 2 ^ 32 * d.fld (Pg.lpc h) F.LPC_RATE_HI_INT

/-- The CK edge of CK `c`, as an instant. -/
def ckTime (c : Nat) : Int := (c : Int) * 2 ^ 20

/-- The position at an instant before an instant of a track: interpolated between the two instants about it, before all of them at a
slope n / m (R67). -/
def trackBack (n m t : Int) : Int × Int → List (Int × Int) → Int
  | e, [] => e.2 + (t - e.1) * n / m
  | e, p :: r => if p.1 ≤ t then p.2 + (t - p.1) * (e.2 - p.2) / (e.1 - p.1) else trackBack n m t p r

/-- The next reference instant, `p` positions on; instants more than 2^14 CK older go. -/
def LpTrack.add (x : LpTrack) (t p : Int) : LpTrack :=
  ⟨t, x.l0 + p, (x.t0, x.l0) :: x.past.takeWhile (fun e => decide (t - 2 ^ 34 ≤ e.1))⟩

/-- The counter goes on from an instant at which it stands at a position, at another advance. -/
def LpTrack.bend (x : LpTrack) (t l : Int) : LpTrack := x.add t (l - x.l0)

/-- The whole track moves by a jump. -/
def LpTrack.shift (x : LpTrack) (k : Int) : LpTrack := ⟨x.t0, x.l0 + k, x.past.map (fun e => (e.1, e.2 + k))⟩

/-- The half whose counter a half's positions are: the follower takes the anchor half's, unless it runs alone (R77, R78). -/
def Dev.lpcFrom (d : Dev) (h : Nat) : Nat := if (d.lpcOf h).alone then h else d.anchorHalf

/-- The position of a running counter at an instant (R67, R69 to R71, R75): between reference instants interpolated, beyond the last of
them at RATE, or at SYN_INC where that is the counter's advance; before the first of a lane's at the measured symbol duration. -/
def Dev.posOf (d : Dev) (x : LpcSt) (st rate : Nat) (t : Int) : Int :=
  let syn := st = Lpc.unanchored || (st = Lpc.locked && d.refSrc = 2 && !x.coast)
  let fwd : Int := if syn then d.synInc else rate
  let e := (x.track.t0, x.track.l0)
  if e.1 ≤ t then e.2 + (t - e.1) * fwd / 2 ^ 20
  else if st = Lpc.locked ∧ d.refSrc = 0 ∧ ¬ x.coast then trackBack (2 ^ 32) (d.laneTau d.refLane) t e x.track.past
  else trackBack fwd (2 ^ 20) t e x.track.past

/-- L(t) of a half; 0 in IDLE. -/
def Dev.posAt (d : Dev) (h : Nat) (t : Int) : Int :=
  let g := d.lpcFrom h
  if d.lpcState h = Lpc.idle ∨ d.lpcState g = Lpc.idle then 0 else d.posOf (d.lpcOf g) (d.lpcState g) (d.lpcRate g) t

/-- A position as an LP: 64 integer and 8 fraction bits, truncated toward minus infinity, modulo 2^64 (R66, R75). -/
def lpOfPos (p : Int) : LP := BitVec.ofInt 72 (p / 2 ^ 24)

/-- An LP as a position. -/
def posOfLp (x : LP) : Int := (x.toNat : Int) * 2 ^ 24

/-- The counter's own LP in the CK at hand. -/
def Dev.ownLp (d : Dev) (h : Nat) : LP := lpOfPos (d.posAt h (ckTime d.ck))

/-- The lag P of the published LP (R82). -/
def Dev.pubLag (d : Dev) : Nat :=
  match d.refSrc with
  | 0 => rxLat (d.laneRate d.refLane)
  | 1 => 4
  | _ => 0

/-- The published LP in CK `c` (R82); with no lag until the first anchor takes effect (R70). -/
def Dev.pubLpAt (d : Dev) (h c : Nat) : LP :=
  let lag := if (d.lpcOf h).lag then d.pubLag else 0
  lpOfPos (d.posAt h (ckTime c - ckTime lag))

/-- The published LP in the CK at hand. -/
def Dev.pubLp (d : Dev) (h : Nat) : LP := d.pubLpAt h d.ck

/-- Has an LP been reached? The difference is zero or negative as a 72-bit two's-complement number (R82). -/
def reached (target lp : LP) : Bool := decide ((target - lp).toInt ≤ 0)

/-- Integer part and fraction of an LP. -/
def lpInt (x : LP) : Nat := x.toNat / 256
def lpFrac (x : LP) : Nat := x.toNat % 256

/-- The LP of an integer and a fraction. -/
def mkLp (i f : Nat) : LP := BitVec.ofNat 72 (i * 256 + f % 256)

/-- Pin time of a symbol that a lane registers in CK `tc`, θ/256 CK after its last UI (R75). -/
def Dev.pinTime (d : Dev) (n : Nat) (tc : Nat) (theta : Nat) : Int :=
  ckTime tc - (theta : Int) * 2 ^ 12 - ((sget ({} : LaneSt) d.lanes n).off : Int)

/-- The stamp of an instant at a lane: L less the lane's external path correction (R75). -/
def Dev.stampAt (d : Dev) (n : Nat) (t : Int) : LP :=
  let h := laneHalf n
  let skew := signed 16 (d.fld (Pg.lpc h) (F.LPC_SKEW_SKEW (n % 32)))
  lpOfPos (d.posAt h (t - skew * (d.laneTau n : Int) / 256))

/-- A position rounded to a multiple of 2^k symbols, halves up (R71). -/
def roundPos (p : Int) (k : Nat) : Int := (p + 2 ^ (31 + k)) / 2 ^ (32 + k) * 2 ^ (32 + k)

/-- A position rounded up to a multiple of 2^k symbols (R70). -/
def ceilPos (p : Int) (k : Nat) : Int := (p + 2 ^ (32 + k) - 1) / 2 ^ (32 + k) * 2 ^ (32 + k)

end Sys2Proof.Machine
end

