-- ==== Sys2Proof/Machine/Dom.lean ====
section
/-! DEFINITION. Power domains: their numbers and states, and the cancellation of a close (R432, R433, R435); whether a bay is in service
(R311, R331, R356). What closes and opens domains stands in Power.lean. -/

namespace Sys2Proof.Machine

/-! Domain numbers (Table 23-1). -/
namespace Dom
def gecko (h : Nat) : Nat := 1 + h
def bay (b : Nat) : Nat := 3 + b
def quad (q : Nat) : Nat := 15 + q
def dram (c : Nat) : Nat := 31 + c
def bank (h k : Nat) : Nat := 47 + 8 * h + k
def spine : Nat := 63
end Dom

/-! Domain states (PMC_DOM_STATE). -/
namespace Ds
def opened : Nat := 0
def closing : Nat := 1
def closed : Nat := 2
def opening : Nat := 3
end Ds

/-- A domain as an operand. -/
def domOp (k : Nat) : Fin 64 := ⟨k % 64, Nat.mod_lt _ (by decide)⟩

/-- The two bits of a domain's state. -/
def domFld (k : Nat) : Fld := ⟨0x110 + 4 * (k / 16), 2 * (k % 16), 2⟩
def Dev.domState (d : Dev) (k : Nat) : Nat := d.fld Pg.pmc (domFld k)
def Dev.setDomState (d : Dev) (k st : Nat) : Dev := d.setFld Pg.pmc (domFld k) st
def Dev.domOpen (d : Dev) (k : Nat) : Bool := d.domState k = Ds.opened

/-- A domain's bit in PMC_DOM_BYDEV and in PMC_DOM_FORCED. -/
def byDevFld (k : Nat) : Fld := ⟨0x120 + 4 * (k / 32), k % 32, 1⟩
def forcedFld (k : Nat) : Fld := ⟨0x128 + 4 * (k / 32), k % 32, 1⟩
def Dev.byDev (d : Dev) (k : Nat) : Bool := d.flag Pg.pmc (byDevFld k)
def Dev.forced (d : Dev) (k : Nat) : Bool := d.flag Pg.pmc (forcedFld k)

/-- A cancelled close: the domain is OPEN again, the cancellation counts (R435). -/
def Dev.domCancelled (d : Dev) (k : Nat) : Dev :=
  let d := ((d.setDomState k Ds.opened).setFld Pg.pmc (byDevFld k) 0).bump Pg.pmc F.PMC_CANCEL_CNT
  let d : Dev := { d with agenda := agendaDrop (.domainClosed (domOp k)) d.agenda }
  d.pend Pg.pmc 1

/-! Bays: States (Table 18-1). -/
namespace Rc
def opened : Nat := 0
def closing : Nat := 1
def closed : Nat := 2
def loading : Nat := 3
def wiping : Nat := 4
def failed : Nat := 5
end Rc

def Dev.rcfg (d : Dev) (b : Nat) : Nat := d.fld (Pg.bay b) F.BAY_RCFG_STAT_STATE
def Dev.bayOf (d : Dev) (b : Nat) : BaySt := sget {} d.bays b
def Dev.setBay (d : Dev) (b : Nat) (x : BaySt) : Dev := { d with bays := sset {} d.bays b x }

/-- Is the bay closed to the outside in this CK: from the second CK after ARM until its release (R356), or closed by its domain
(R435)? -/
def Dev.bayShut (d : Dev) (b : Nat) : Bool := d.rcfg b ≠ Rc.opened && decide ((d.bayOf b).armCk + 2 ≤ d.ck)

/-- Is the bay in service: open, its domain open, no release of it to come (R356, R435, R437)? -/
def Dev.bayServes (d : Dev) (b : Nat) : Bool :=
  d.domOpen (Dom.bay b) && !d.bayShut b && !d.awaits (.bayRelease ⟨b % 12, Nat.mod_lt _ (by decide)⟩)

/-- Does the bay's user logic run: configured and in service (R331)? -/
def Dev.bayLive (d : Dev) (b : Nat) : Bool := d.started && d.bayServes b

/-- Is the bay in service, and since its last release for so many CK? -/
def Dev.bayUp (d : Dev) (b k : Nat) : Bool :=
  d.bayServes b && (match (d.bayOf b).freeCk with | some f => decide (f + k ≤ d.ck) | none => true)

/-- Can user logic reach the hard block behind a port (R311, R356)? Not while the bay in which the port's user side lies is shut. -/
def Dev.userUp (d : Dev) (p : Port) : Bool :=
  d.logicIn p && ((List.range 12).all (fun b => d.bayUp b 5) ||
    (match Config.portBay p d.startCk with | some b => d.bayUp b.val (d.portRatio p + 1) | none => true))

end Sys2Proof.Machine
end

