-- ==== Sys2Proof/Machine/RegAccess.lean ====
section
/-! DEFINITION. Software writes by the common rules: access types and refusals (R6 to R9), the header's registers (R474, R477,
R478, R481) and the latch of a page (R480). What a register's own chapter adds stands in the chapter's file. -/

namespace Sys2Proof.Machine

/-- DEV_CFG_LOCK (R353, R484). -/
def Dev.cfgLock (d : Dev) : Bool := d.flag Pg.dev F.DEV_CFG_LOCK_LOCK

/-- The bits of a register that accept plain values from a write in this instance of its page: RW bits, RWL bits while
unlocked; the South LPC page holds read-only copies (R88). -/
def writableBits (d : Dev) (r : RegDesc) (inst : Nat) : Nat :=
  if r.nOnly ∧ inst = 1 then 0 else r.rw ||| (if d.cfgLock then 0 else r.rwl)

/-- Does some field of the register accept writes in this instance (R8)? A locked RWL field keeps its register out of the
second case of R8, which the third then governs. -/
def acceptsWrites (r : RegDesc) (inst : Nat) : Bool :=
  !(r.nOnly && inst = 1) && (r.rw ||| r.rwl ||| r.wo) != 0

/-- The codes of Table 25-3 a write meets: reserved bits or no writable field (0x0001), a locked RWL field changed (0x0002),
refused bits whose value the chapter does not allow (0x0004). -/
def writeCodes (d : Dev) (r : RegDesc) (inst : Nat) (cur v bad : Nat) : List Nat :=
  let named := r.rw ||| r.rwl ||| r.wo ||| r.ro
  let resv := v &&& (0xFFFFFFFF - named)
  (if resv ≠ 0 ∨ (¬ acceptsWrites r inst ∧ r.clr = 0) then [1] else [])
  ++ (if d.cfgLock ∧ (v ^^^ cur) &&& r.rwl ≠ 0 then [2] else [])
  ++ (if bad ≠ 0 then [4] else [])

/-- What a register that any write clears holds after one: its counters that advanced in this CK keep that (R9). -/
def Dev.clearedTo (d : Dev) (addr clr : Nat) : Nat :=
  (List.range 32).foldl (fun m j => if bit clr j then m + d.countNow addr j * 2 ^ j else m) 0

/-- A write by the common rules: writable bits take their values but for the bits the chapter refuses; bits any write clears
are cleared and such a write alone is never refused; the write counts once, the lowest code applying (R6, R8, R477). -/
def Dev.plainWrite (d : Dev) (pg inst : Nat) (r : RegDesc) (off : Nat) (val : Word) (bad : Nat) : Dev :=
  let cur := (d.reg pg off).toNat
  let v := val.toNat
  let wm := writableBits d r inst &&& (0xFFFFFFFF - bad)
  let new := (((cur &&& (0xFFFFFFFF - wm)) ||| (v &&& wm)) &&& (0xFFFFFFFF - r.clr)) ||| (d.clearedTo (raddr pg off) r.clr &&& r.clr)
  let d' := d.setReg pg off (BitVec.ofNat 32 new)
  if r.clr ≠ 0 ∧ ¬ acceptsWrites r inst then d'
  else match writeCodes d r inst cur v bad with
    | [] => d'
    | c :: cs => d'.regErr pg (cs.foldl min c)

/-! The header's registers. -/

/-- A write to INT_PEND: each 1 clears its bit but for bits hardware sets in the same CK; a line that stays 1 gives a fresh
edge (R478, R481). Nonzero data in a bit the page does not define is counted (R8). -/
def Dev.intPendWrite (d : Dev) (pg : Nat) (val hw : Word) : Dev :=
  let m := BitVec.ofNat 32 (pendMaskOf pg)
  let old := d.reg pg 0x010
  let was := d.line pg
  let hw := (hw &&& m) ||| d.setNow pg
  let d := d.setReg pg 0x010 ((old &&& ~~~val) ||| hw)
  let d := d.seqStep pg (decide (hw &&& (~~~old ||| val) ≠ 0#32))
  let d := d.lineMoved pg was
  let d := if d.line pg then d.edge pg else d
  if val &&& ~~~m ≠ 0#32 then d.regErr pg 1 else d

/-- A write to INT_EN (R481). -/
def Dev.intEnWrite (d : Dev) (pg : Nat) (val : Word) : Dev :=
  let was := d.line pg
  let d := (d.setReg pg 0x014 val).lineMoved pg was
  if d.line pg then d.edge pg else d

/-- A write to INT_FORCE: FORCE is a field of 32 bits, and it sets the defined bits of INT_PEND it names; the line, if 1 afterwards, gives an edge (R474, R478, R481). -/
def Dev.intForceWrite (d : Dev) (pg : Nat) (val : Word) : Dev :=
  let m := BitVec.ofNat 32 (pendMaskOf pg)
  let old := d.reg pg 0x010
  let was := d.line pg
  let d := d.setReg pg 0x010 (old ||| (val &&& m))
  let d := d.seqStep pg (decide (val &&& m &&& ~~~old ≠ 0#32))
  let d := d.lineMoved pg was
  if d.line pg then d.edge pg else d

/-- A write to IRQ_ROUTE: a GROUP from 1 to 7 is refused (R474). -/
def Dev.irqRouteWrite (d : Dev) (pg : Nat) (val : Word) : Dev :=
  let g := bitsOf val.toNat 8 5
  d.plainWrite pg 0 ⟨0x044, 4, 1, 0xF1F7F, 0, 0, 0, 0, 0, false⟩ 0x044 val (if 1 ≤ g ∧ g ≤ 7 then 0x1F00 else 0)

/-- A write to ERR_FIRST clears it; an error of the same CK then loads it (R28, R477). -/
def Dev.errFirstWrite (d : Dev) (pg : Nat) (inCk : Option (Fin 8 × BitVec 16)) : Dev :=
  let d := d.setReg pg 0x01C 0#32
  let d := match leastErr (d.errsNow pg) with
    | some (i, c) => d.errLoad pg i c
    | none => d
  match inCk with
  | some (i, c) => d.err pg i.val c.toNat
  | none => d

/-- A write to a counter clears it to 0; where its event falls in the same CK, before it or with it, that counts (R9). -/
def Dev.counterWrite (d : Dev) (pg off : Nat) (inCk : Bool) : Dev :=
  d.setReg pg off (if inCk then 1#32 else BitVec.ofNat 32 (d.countNow (raddr pg off) 0))

/-- The latch of a page. -/
def Dev.latchOf (d : Dev) (pg : Nat) : List (Nat × Word) := sget [] d.latch pg

/-- Load the latch of a page with partner registers (R480). -/
def Dev.setLatch (d : Dev) (pg : Nat) (vs : List (Nat × Word)) : Dev := { d with latch := sset [] d.latch pg vs }

end Sys2Proof.Machine
end

