-- ==== Sys2Proof/Machine/PairBase.lean ====
section
/-! DEFINITION. The Scarf link's messages as this device sends them, and the gate of mirrored writes (R453 to R457, R464, R465). -/

namespace Sys2Proof.Machine

/-! Pair states and roles (Tables 24-3, 24-9). -/

namespace Ps
def off : Nat := 0
def link : Nat := 1
def align : Nat := 2
def sync : Nat := 3
def inStep : Nat := 4
def degraded : Nat := 5
def isolated : Nat := 6
def lead : Nat := 1
def shadow : Nat := 2
end Ps

def Dev.pairEn (d : Dev) : Bool := d.flag Pg.pair F.PAIR_CTRL_EN
def Dev.pairState (d : Dev) : Nat := d.fld Pg.pair F.PAIR_STAT_STATE
def Dev.pairRole (d : Dev) : Nat := d.fld Pg.pair F.PAIR_STAT_ROLE
def Dev.linkUp (d : Dev) : Bool := d.fld Pg.pair F.PAIR_STAT_LINK = 2
def Dev.setPairState (d : Dev) (st : Nat) : Dev := d.setFld Pg.pair F.PAIR_STAT_STATE st

/-- This device is the pair's lead, its shadow. -/
def Dev.isLead (d : Dev) : Bool := d.pairEn && d.pairRole = Ps.lead
def Dev.isShadow (d : Dev) : Bool := d.pairEn && d.pairRole = Ps.shadow

/-- The number after a sequence number: modulo 2^32, 0 skipped (R455). -/
def nextSeq (n : Nat) : Nat := if (n + 1) % 2 ^ 32 = 0 then 1 else (n + 1) % 2 ^ 32

/-- Bytes of a message with its header (Table 24-1). -/
def msgBytes (payload : List Byte) : Nat := 16 + payload.length

/-- Bytes the replay buffer holds. -/
def Dev.replayFill (d : Dev) : Nat := d.pair.replay.foldl (fun n (m : PairMsg) => n + msgBytes m.payload) 0

/-- The link goes DOWN and trains again while EN is 1 (R453): a lead has no shadow in step, a shadow waits for the link (R469). -/
def Dev.linkDown (d : Dev) : Dev :=
  let d := (d.setFld Pg.pair F.PAIR_STAT_LINK 0).err Pg.pair 2 0x1802
  let d := d.pend Pg.pair 1
  let st := d.pairState
  let d := if st = Ps.isolated ∨ ¬ d.pairEn then d else d.setPairState (if d.pairRole = Ps.lead then Ps.degraded else Ps.link)
  let d : Dev := { d with pair := { d.pair with replay := [], sendq := [], hello := false, synced := false } }
  if d.pairEn then ({ d.setFld Pg.pair F.PAIR_STAT_LINK 1 with agenda := agendaDrop .scarfTrainingTimeout d.agenda } : Dev).sched 100000
    .scarfTrainingTimeout
  else d

/-- Send a message now: it takes the next number and is held until acknowledged; a full replay buffer takes the link DOWN (R455). -/
def Dev.pairSend (d : Dev) (typ : Nat) (payload : List Byte) : Dev :=
  if ¬ d.linkUp ∨ d.pair.muted then d
  else if 65536 < d.replayFill + msgBytes payload then d.linkDown
  else
    let n := nextSeq (d.fld Pg.pair F.PAIR_TX_SEQ)
    let d := (d.setFld Pg.pair F.PAIR_TX_SEQ n).emit (.scarf typ n (d.fld Pg.pair F.PAIR_RX_SEQ) payload)
    { d with pair := { d.pair with replay := d.pair.replay ++ [⟨n, typ, payload⟩] } }

/-- Messages of SYNC go out while half the replay buffer has room for them. -/
def Dev.pairPump (d : Dev) : Dev :=
  d.pair.sendq.foldl (fun (d : Dev) (m : Nat × List Byte) =>
    if d.pair.sendq.head? = some m ∧ d.linkUp ∧ d.replayFill + msgBytes m.2 ≤ 32768 then
      ({ d with pair := { d.pair with sendq := d.pair.sendq.drop 1 } } : Dev).pairSend m.1 m.2
    else d) d

/-- Send a message after those of SYNC that wait. -/
def Dev.pairQueue (d : Dev) (typ : Nat) (payload : List Byte) : Dev :=
  if d.pair.sendq = [] then d.pairSend typ payload
  else { d with pair := { d.pair with sendq := d.pair.sendq ++ [(typ, payload)] } }

/-- A payload padded to its units of 32 bytes. -/
def padTo (n : Nat) (l : List Byte) : List Byte := l ++ List.replicate (n - l.length) 0#8

/-- The payload of a WRITE (Table 24-2). -/
def writePayload (w : PairWr) : List Byte := padTo 32 (leBytes 4 w.addr ++ leBytes 4 w.val.toNat ++ leBytes 8 w.lp)

/-! Mirrored writes. -/

/-- Is a register mirrored (Table 24-4)? FLOW_CMD is so with OP WRITE alone. -/
def mirroredReg (addr : Nat) (val : Word) : Bool :=
  let off := addr % 4096
  let within (a b : Nat) : Bool := decide (a ≤ off) && decide (off ≤ b)
  match blkOfPage (addr / 4096) with
  | some (.dev, _) => off = 0x104
  | some (.lane, _) => off = 0x100 || off = 0x104 || off = 0x110
  | some (.evs, _) => within 0x100 0x124
  | some (.sieve, _) => off = 0x008 || within 0x100 0x148
  | some (.trig, _) => within 0x100 0x124 || within 0x140 0x15C
  | some (.flow, _) => within 0x100 0x140 || (off = 0x144 && bitsOf val.toNat 0 2 = 1)
  | some (.stim, _) => off = 0x008 || off = 0x100 || off = 0x104 || off = 0x110 || off = 0x114 || within 0x120 0x144
      || within 0x200 0x27C
  | some (.newt, _) => off = 0x008 || off = 0x100 || off = 0x104 || off = 0x108 || off = 0x120 || off = 0x124
  | _ => false

/-- Does a lead mirror software writes (R464)? -/
def Dev.mirroring (d : Dev) : Bool :=
  d.isLead && (d.pairState = Ps.inStep || d.pairState = Ps.sync
    || (d.pairState = Ps.degraded && (d.pair.peer = Ps.align || d.pair.peer = Ps.sync)))

/-- The lead gives a mirrored write its apply LP and sends it (R464). -/
def Dev.mirrorWrite (d : Dev) (addr : Nat) (val : Word) : Dev :=
  if 4096 ≤ d.pair.writes.length then d.err Pg.pair 3 0x1803
  else
    let w : PairWr := ⟨(lpInt (d.pubLp 0) + d.fld Pg.pair F.PAIR_APPLY_DIST) % 2 ^ 64, addr, val⟩
    ({ d with pair := { d.pair with writes := d.pair.writes ++ [w] } } : Dev).pairQueue 4 (writePayload w)

/-- A software write to a register: on a shadow a mirrored one is refused, on a lead it waits for its apply LP; any other takes effect
as `f` (R464, R465). -/
def Dev.swGate (d : Dev) (addr : Nat) (val : Word) (f : Dev → Dev) : Dev :=
  if ¬ mirroredReg addr val then f d
  else if d.isShadow then d.err Pg.pair 3 0x1803
  else if d.mirroring then d.mirrorWrite addr val
  else f d

end Sys2Proof.Machine
end

