-- ==== Sys2Proof/Machine/Records.lean ====
section
/-! DEFINITION. Records on their way to the capture queue: their numbering inside the block, device-generated records, the
order in which records reach their allocation points (R98, R119, R127, R130, R131). -/

namespace Sys2Proof.Machine


/-- CRC-32C, one bit (R125). -/
def crcBit (c : BitVec 32) : BitVec 32 := (c >>> 1) ^^^ (if c.getLsbD 0 then 0x82F63B78#32 else 0#32)

/-- CRC-32C, one byte. -/
def crcByte (c : BitVec 32) (b : Byte) : BitVec 32 :=
  (List.range 8).foldl (fun x _ => crcBit x) (c ^^^ b.zeroExtend 32)

/-- CRC-32C of a payload: Castagnoli, reflected, initial value and final XOR all ones (R125). -/
def crc32c (l : List Byte) : BitVec 32 := ~~~ (l.foldl crcByte 0xFFFFFFFF#32)

/-- The record with an identity. -/
def Dev.recOf (d : Dev) (rid : Nat) : Rec := sget {} d.recs rid
def Dev.setRec (d : Dev) (rid : Nat) (r : Rec) : Dev := { d with recs := sput d.recs rid r }
def Dev.dropRec (d : Dev) (rid : Nat) : Dev := { d with recs := serase d.recs rid }

/-- Take a new record into the block; its identity is `d.nextRid`. -/
def Dev.addRec (d : Dev) (r : Rec) : Dev := { d with recs := sput d.recs d.nextRid r, nextRid := d.nextRid + 1 }

/-- Put an item into allocation order: by CK, then by its order in the CK (R119). -/
def insAlloc (x : AllocItem) (l : List AllocItem) : List AllocItem :=
  let p (y : AllocItem) : Bool := decide (y.due < x.due ∨ (y.due = x.due ∧ y.order ≤ x.order))
  l.filter p ++ [x] ++ l.filter (fun y => !p y)

/-- A half as an operand. -/
def halfOf (h : Nat) : Half := if h = 0 then 0 else 1

/-- Put an item into a half's capture-queue order of its CK, and the events of that CK in the same order (R119, R205). -/
def Dev.toQueue (d : Dev) (h : Nat) (x : AllocItem) : Dev :=
  let l := insAlloc x (sget [] d.allocs h)
  let ev (y : AllocItem) : Instr := if y.unit = none then .queueAllocation (halfOf h) else .queueUnit (halfOf h)
  let mine (e : Nat × Instr) : Bool := e.1 = x.due && (e.2 = .queueAllocation (halfOf h) || e.2 = .queueUnit (halfOf h))
  let d := { d with allocs := sset [] d.allocs h l, agenda := d.agenda.filter (fun e => !mine e) }
  (l.filter (fun y => decide (y.due = x.due))).foldl (fun d y => d.sched (x.due - d.ck) (ev y)) d

/-- A record will reach its allocation point `k` CK from now (R119). -/
def Dev.toAlloc (d : Dev) (h k order rid : Nat) : Dev := d.toQueue h ⟨d.ck + k, order, rid, none⟩

/-- The 32-byte payload of a line event (Tables 4-3, 6-6): cause, byte 1, half, bytes 4–7, bytes 8–31 as three words. -/
def lineEventPayload (cause b1 h b4 b8 b16 b24 : Nat) : List Byte :=
  [byteOf cause 0, byteOf b1 0, byteOf h 0, 0#8] ++ leBytes 4 b4 ++ leBytes 8 b8 ++ leBytes 8 b16 ++ leBytes 8 b24

/-- Hand the sieve a line-event record of flow 0: it bypasses the rules and reaches the queue 4 CK later (R98). -/
def Dev.lineEvent (d : Dev) (h lane : Nat) (lp : LP) (flags : Nat) (payload : List Byte) : Dev :=
  let rid := d.nextRid
  (d.addRec { half := h, lane := lane, typ := 1, flags := flags, lp := lp, payload := payload, ended := true,
              reached := payload.length, complete := true,
              outSeen := true, outc := some ⟨.keep, 0, 0, 0, 0, 0⟩ }).toAlloc h 4 lane rid

/-- The lane number a half's own events carry (Table 6-4): 0 North, 32 South. -/
def ownLane (h : Nat) : Nat := 32 * h

/-- The freewheel flag of a record stamped now (R76). -/
def Dev.fwFlag (d : Dev) (h : Nat) : Nat :=
  if d.lpcState h = Lpc.unanchored ∨ d.lpcState h = Lpc.freewheel then 4 else 0

/-! Epochs and alignment records of a pair (R461, R466). -/

/-- Change an epoch of a half, which begins where it is not listed. -/
def Dev.onEpoch (d : Dev) (h e : Nat) (f : Epoch → Epoch) : Dev :=
  match d.epochs.find? (fun (x : Epoch) => x.half = h && x.epoch = e) with
  | some y => { d with epochs := d.epochs.map (fun (x : Epoch) => if x = y then f y else x) }
  | none => { d with epochs := d.epochs ++ [f { half := h, epoch := e }] }

/-- A number of a flow other than 0 is lost in its epoch; cause 3 leaves no mark (R466). -/
def Dev.epochLost (d : Dev) (h f ep cause : Nat) : Dev :=
  if ep = 0 ∨ f = 0 then d
  else d.onEpoch h (ep - 1) (fun x => { x with
    unresolved := x.unresolved - 1, lost := if cause = 3 ∨ x.lost.contains f then x.lost else f :: x.lost })

/-- A record is written in its epoch with its term (R466). -/
def Dev.epochWritten (d : Dev) (h f ep term : Nat) : Dev :=
  if ep = 0 ∨ f = 0 then d
  else d.onEpoch h (ep - 1) (fun x => { x with
    unresolved := x.unresolved - 1, count := x.count + 1, digest := (x.digest + term) % 2 ^ 64 })

/-- A delimited record joins the alignment records (R461): on the shadow in ALIGN, on the lead of a shadow in ALIGN up to 64 a lane. -/
def Dev.alignNote (d : Dev) (lane : Nat) (lp : LP) (payload : List Byte) : Dev :=
  let wanted := (d.isShadow && d.pairState = Ps.align)
    || (d.isLead && d.linkUp && d.pair.peer = Ps.align && decide (d.alignRecs.countP (fun (x : AlignRec) => x.lane = lane) < 64))
  if ¬ wanted then d
  else { d with alignRecs := d.alignRecs ++ [⟨lp, lane, payload.length, (crc32c (payload.take 64)).toNat⟩] }

/-! Placement windows (R188). -/

/-- A half's placement unit. -/
def Dev.pluOf (d : Dev) (h : Nat) : PluSt := sget {} d.plus h
def Dev.setPlu (d : Dev) (h : Nat) (x : PluSt) : Dev := { d with plus := sset {} d.plus h x }

/-- A new window begins in this CK (R188). -/
def Dev.newWindow (d : Dev) (h : Nat) : Dev :=
  let x := d.pluOf h
  let d := d.setPlu h { x with winCk := d.ck, win := x.win + 1, bytes := [], issue := [], assigned := [] }
  let w : Instr := .placementWindow (halfOf h)
  let d : Dev := { d with agenda := d.agenda.filter (fun (e : Nat × Instr) => !(decide (e.2 = w) && decide (d.ck + 3 < e.1))) }
  d.sched 1024 w

end Sys2Proof.Machine
end

