-- ==== Sys2Proof/Machine/FlowTable.lean ====
section
/-! DEFINITION. The flow table: entries, their fields, and which half enables a flow (R116, R118, R133). -/

namespace Sys2Proof.Machine

/-! Flow table entry (Table 6-10). -/

def FL_EN : Fld := ⟨0, 0, 1⟩
def FL_BYPASS : Fld := ⟨0, 1, 1⟩
def FL_NO_MOVE : Fld := ⟨0, 2, 1⟩
def FL_NO_SPILL : Fld := ⟨0, 3, 1⟩
def FL_YIELDABLE : Fld := ⟨0, 4, 1⟩
def FL_RETAIN : Fld := ⟨0, 5, 2⟩
def FL_PIN_ENG_EN : Fld := ⟨0, 7, 1⟩
def FL_WEIGHT : Fld := ⟨1, 0, 8⟩
def FL_PIN_ENGINE : Fld := ⟨2, 0, 7⟩
def FL_CHAN_SET : Fld := ⟨3, 0, 8⟩
def FL_MAX_EXTENTS : Fld := ⟨4, 0, 32⟩
def FL_ENTRY : Fld := ⟨8, 0, 13⟩
def FL_CONFIG : Fld := ⟨0, 0, 128⟩
def FL_NEXT_SEQ : Fld := ⟨16, 0, 32⟩
def FL_CUR_ENGINE : Fld := ⟨20, 0, 8⟩
def FL_FROZEN : Fld := ⟨21, 0, 1⟩
def FL_GAP_OPEN : Fld := ⟨21, 1, 1⟩
def FL_COUNTERS : Fld := ⟨24, 0, 256⟩
def FL_RECORDS : Fld := ⟨24, 0, 64⟩
def FL_BYTES : Fld := ⟨32, 0, 64⟩
def FL_LOST : Fld := ⟨40, 0, 32⟩
def FL_POISONED : Fld := ⟨44, 0, 32⟩
def FL_GAPMARKS : Fld := ⟨48, 0, 32⟩
def FL_UNREG : Fld := ⟨52, 0, 32⟩
def FL_LAST_LP : Fld := ⟨56, 0, 64⟩

/-- The reset value of a flow's entry (Table 6-10). -/
def flowReset (f : Nat) : BitVec 512 :=
  eput (eput (eput (eput (0 : BitVec 512) FL_WEIGHT 1) FL_CUR_ENGINE 0xFF) FL_EN (b01 (f = 0))) FL_BYPASS (b01 (f = 0))

/-- The key of a half's flow. -/
def flowKey (h f : Nat) : Nat := h * 4096 + f

/-- The entry of a flow in a half's table. -/
def Dev.flow (d : Dev) (h f : Nat) : BitVec 512 := sget (flowReset f) d.flows (flowKey h f)

/-- Store an entry. -/
def Dev.setFlow (d : Dev) (h f : Nat) (x : BitVec 512) : Dev :=
  { d with flows := sset (flowReset f) d.flows (flowKey h f) x }

/-- A field of a flow's entry. -/
def Dev.flowFld (d : Dev) (h f : Nat) (k : Fld) : Nat := eget (d.flow h f) k
def Dev.setFlowFld (d : Dev) (h f : Nat) (k : Fld) (v : Nat) : Dev := d.setFlow h f (eput (d.flow h f) k v)

/-- A counter of a flow's entry among the counters of a CK: no register has its number. -/
def flowCntKey (h f : Nat) (k : Fld) : Nat × Nat := (2 ^ 26 + flowKey h f, k.off)

/-- Advance a counter of a flow's entry: modulo 2^64 at 64 bits, saturating otherwise (Table 6-10). -/
def Dev.flowBump (d : Dev) (h f : Nat) (k : Fld) (n : Nat) : Dev :=
  let v := d.flowFld h f k
  let d := d.setFlowFld h f k (if k.wd = 64 then v + n else satAdd k.wd v n)
  d.setLog { d.log with counted := (flowCntKey h f k, n) :: d.log.counted }

/-- A flow's entry as it stood before the WRITEs of this CK (R134). -/
def Dev.flowThen (d : Dev) (h f : Nat) : BitVec 512 :=
  match d.log.flowWas.lookup (flowKey h f) with
  | some x => x.1
  | none => d.flow h f

/-- Is the flow enabled in the half's table (R116)? -/
def Dev.flowEn (d : Dev) (h f : Nat) : Bool := d.flowFld h f FL_EN = 1

/-- The flows a half's table lists, and flow 0. -/
def Dev.listedFlows (d : Dev) (h : Nat) : List Nat :=
  (0 :: (d.flows.filter (fun e => decide (e.1 / 4096 = h))).map (fun e => e.1 % 4096)).eraseDups

/-- The half of a trigger mark's flow: where it is enabled, or the issuing half (R118). -/
def Dev.markHalf (d : Dev) (h f : Nat) : Nat := if d.flowEn h f ∨ ¬ d.flowEn (1 - h) f then h else 1 - h

end Sys2Proof.Machine
end

