-- ==== Sys2Proof/Machine/Actions.lean ====
section
/-! DEFINITION. Actions of schedulers and sequencers: classes, the checks of their arguments, the half they go to (R81, R104,
R105, R226). -/

namespace Sys2Proof.Machine

/-! Action classes (Table 4-6). -/

namespace Cl
def stim : Nat := 1
def play : Nat := 2
def trig : Nat := 3
def snap : Nat := 4
def host : Nat := 5
def mark : Nat := 6
end Cl

/-- Descriptor fields of a STIM action (Table 11-1). -/
def stimOp (a0 : Nat) : Nat := bitsOf a0 0 3
def stimTemplate (a0 : Nat) : Nat := bitsOf a0 3 12
def stimCount (a0 : Nat) : Nat := bitsOf a0 15 10
def stimDelay (a0 : Nat) : Nat := bitsOf a0 25 6

/-- Do the arguments pass their owning chapter's check (R226, R239, R112, R365, R118)? HOST has no arguments to check. -/
def argOk (cls a0 a1 : Nat) : Bool :=
  match cls with
  | 1 => decide (stimOp a0 ≤ 4) && (if stimOp a0 = 2 ∨ stimOp a0 = 4 then decide (1 ≤ stimCount a0) else decide (stimCount a0 = 0))
      && decide (a0 < 2 ^ 31) && decide (a1 < 64)
  | 2 => decide (a0 < 64) && decide (a1 < 64)
  | 3 => decide (a0 < 256)
  | 4 => decide (a0 ≤ 11)
  | 5 => true
  | 6 => decide (a0 < 4096)
  | _ => false

/-- The half an action goes to (R104). -/
def Dev.actionHalf (d : Dev) (h cls a0 a1 : Nat) : Nat :=
  match cls with
  | 1 => laneHalf (a1 % 64)
  | 2 => laneHalf (a1 % 64)
  | 3 => bitsOf a0 3 1
  | 4 => bitsOf a0 0 4 / 6 % 2
  | 6 => d.markHalf h (a0 % 4096)
  | _ => h

/-- An action takes `k` CK to leave its unit (R82, R108). -/
def Dev.fly (d : Dev) (k : Nat) (a : Action) : Dev :=
  ({ d with flying := d.flying ++ [(⟨d.ck + k, false, a⟩ : Flying)] }).sched k .actionArrival

end Sys2Proof.Machine
end

