-- ==== Sys2Proof/Machine/Cq.lean ====
section
/-! DEFINITION. The capture queue's units, fill, back-pressure level and spill state (R204 to R206, R209, R210). -/

namespace Sys2Proof.Machine

/-- A half's capture queue. -/
def Dev.cqOf (d : Dev) (h : Nat) : CqSt := sget {} d.cq h
def Dev.setCq (d : Dev) (h : Nat) (x : CqSt) : Dev := { d with cq := sset {} d.cq h x }

/-- The queue's capacity in units (R204). -/
def cqCap : Nat := 2 ^ 21

/-- The fill, in units (R204). -/
def CqSt.fill (x : CqSt) : Nat := (x.wp + 2 ^ 22 - x.rp) % 2 ^ 22

/-- Back-pressure level at a fill (R209). -/
def Dev.levelAt (d : Dev) (h fill : Nat) : Nat :=
  let l (f : Fld) : Nat := d.fld (Pg.cq h) f * 2 ^ 13
  if l F.CQ_LEVELS_L3 ≤ fill then 3
  else if l F.CQ_LEVELS_L2 ≤ fill then 2
  else if l F.CQ_LEVELS_L1 ≤ fill then 1
  else 0

/-- The back-pressure level (R209). -/
def Dev.cqLevel (d : Dev) (h : Nat) : Nat := d.levelAt h (d.cqOf h).fill

/-- Is the queue in spill state (R210)? -/
def Dev.cqSpill (d : Dev) (h : Nat) : Bool := d.flag (Pg.cq h) F.CQ_STAT_SPILL

/-- The units of a payload of `n` bytes with its header: whole pieces of 32 bytes, the rest once it has ended (R205). -/
def unitsOf (n : Nat) (ended : Bool) : Nat := 1 + (if ended then (n + 31) / 32 else n / 32)

end Sys2Proof.Machine
end

