-- ==== Sys2Proof/Machine/Aes.lean ====
section
/-! DEFINITION. AES-256, which R280, R294 and R335 name and the spec does not restate (FIPS 197, log entry 17): the cipher and its inverse
on one block. Keys and blocks are byte strings, byte 0 lowest. -/

namespace Sys2Proof.Machine

/-- Multiplication by x in the field of AES. -/
def aesX (a : Byte) : Byte := if a.getLsbD 7 then (a <<< 1) ^^^ 0x1B#8 else a <<< 1

/-- Multiplication in the field of AES. -/
def aesMul (a b : Byte) : Byte :=
  ((List.range 8).foldl (fun (s : Byte × Byte) i => (if b.getLsbD i then s.1 ^^^ s.2 else s.1, aesX s.2)) (0#8, a)).1

/-- The inverse, a to the power 254; 0 for 0. -/
def aesInv (a : Byte) : Byte :=
  let a2 := aesMul a a
  let a4 := aesMul a2 a2
  let a8 := aesMul a4 a4
  let a16 := aesMul a8 a8
  let a32 := aesMul a16 a16
  let a64 := aesMul a32 a32
  let a128 := aesMul a64 a64
  aesMul a128 (aesMul a64 (aesMul a32 (aesMul a16 (aesMul a8 (aesMul a4 a2)))))

/-- The substitution of a byte, and its inverse. -/
def aesSub (a : Byte) : Byte :=
  let b := aesInv a
  b ^^^ b.rotateLeft 1 ^^^ b.rotateLeft 2 ^^^ b.rotateLeft 3 ^^^ b.rotateLeft 4 ^^^ 0x63#8
def aesUnsub (a : Byte) : Byte := aesInv (a.rotateLeft 1 ^^^ a.rotateLeft 3 ^^^ a.rotateLeft 6 ^^^ 0x05#8)

/-- Bytes XORed in pairs. -/
def aesXor (a b : List Byte) : List Byte := List.zipWith (fun x y => x ^^^ y) a b

/-- Words 8 to 59 of the key schedule follow one by one: the state holds the last eight, oldest first. -/
def aesExpand : Nat → Nat → Byte → List (List Byte) → List (List Byte)
  | 0, _, _, _ => []
  | k + 1, i, rc, ws =>
    let p := (ws.getLast?).getD []
    let t := if i % 8 = 0 then aesXor ((p.drop 1 ++ p.take 1).map aesSub) [rc, 0#8, 0#8, 0#8]
      else if i % 8 = 4 then p.map aesSub else p
    let w := aesXor (ws.headD []) t
    w :: aesExpand k (i + 1) (if i % 8 = 0 then aesX rc else rc) (ws.drop 1 ++ [w])

/-- The 15 round keys of 16 bytes. -/
def aesKeys (key : BitVec 256) : List (List Byte) :=
  let bytes := leBytes 32 key.toNat
  let ws := (List.range 8).map (fun i => (bytes.drop (4 * i)).take 4)
  let all := (ws ++ aesExpand 52 8 1#8 ws).flatten
  (List.range 15).map (fun r => (all.drop (16 * r)).take 16)

/-- Rows shifted: byte r + 4c comes from column c + r, or for the inverse from c - r. -/
def aesShift (inv : Bool) (s : List Byte) : List Byte :=
  (List.range 16).map (fun i => byteAt s (i % 4 + 4 * ((i / 4 + (if inv then 4 - i % 4 else i % 4)) % 4)))

/-- Columns mixed with a row of coefficients. -/
def aesMix (co : List Byte) (s : List Byte) : List Byte :=
  (List.range 16).map (fun i =>
    (List.range 4).foldl (fun (x : Byte) j => x ^^^ aesMul (byteAt co ((j + 4 - i % 4) % 4)) (byteAt s (i / 4 * 4 + j))) 0#8)

/-- One block as bytes and back. -/
def aesOut (s : List Byte) : BitVec 128 := BitVec.ofNat 128 (leNat s)

/-- The cipher. -/
def aes256 (key : BitVec 256) (x : BitVec 128) : BitVec 128 :=
  match aesKeys key with
  | [] => x
  | k0 :: ks =>
    let s := aesXor (leBytes 16 x.toNat) k0
    let s := ks.dropLast.foldl (fun (s : List Byte) k => aesXor (aesMix [2#8, 3#8, 1#8, 1#8] (aesShift false (s.map aesSub))) k) s
    aesOut (aesXor (aesShift false (s.map aesSub)) ((ks.getLast?).getD []))

/-- The inverse cipher. -/
def aes256Inv (key : BitVec 256) (x : BitVec 128) : BitVec 128 :=
  match (aesKeys key).reverse with
  | [] => x
  | k14 :: ks =>
    let s := aesXor (leBytes 16 x.toNat) k14
    let s := ks.dropLast.foldl (fun (s : List Byte) k =>
      aesMix [14#8, 11#8, 13#8, 9#8] (aesXor ((aesShift true s).map aesUnsub) k)) s
    aesOut (aesXor ((aesShift true s).map aesUnsub) ((ks.getLast?).getD []))

end Sys2Proof.Machine
end

