-- ==== Sys2Proof/Machine/Ecc.lean ====
section
/-! DEFINITION. The codes of DRAM bursts: the strong Reed-Solomon code, the light Hamming code with byte parity, poison lines
(R263, R264, R266). A burst is 64 data bytes, byte 4b + l in beat b on lane l, and 16 check bytes, byte b in beat b. -/

namespace Sys2Proof.Machine

/-- A burst as stored: data and check bytes. -/
structure Burst where
  data : BitVec 512
  chk : BitVec 128
  deriving DecidableEq, Repr

/-! GF(2^8) under x^8 + x^4 + x^3 + x^2 + 1 (R263). -/

def xtime (a : Nat) : Nat := if a.testBit 7 then (a * 2) ^^^ 0x11D else a * 2
def gfMul (a b : Nat) : Nat :=
  ((List.range 8).foldl (fun (p : Nat × Nat) i => (if b.testBit i then p.1 ^^^ p.2 else p.1, xtime p.2)) (0, a)).1
def gfPow (n : Nat) : Nat := (List.range n).foldl (fun x _ => xtime x) 1
/-- The inverse of a nonzero element: its 254th power. -/
def gfInv (a : Nat) : Nat := (List.range 253).foldl (fun x _ => gfMul x a) a

/-! Symbols (Table 13-1). The nibble of an even x4 device is the low one of its lane; a symbol's earlier beat is its low part. -/

/-- Byte of a lane in a beat; lane 4 is the check lane. -/
def Burst.lane (x : Burst) (beat l : Nat) : Nat :=
  if l = 4 then bitsOf x.chk.toNat (8 * beat) 8 else bitsOf x.data.toNat (8 * (4 * beat + l)) 8
/-- A burst with a lane's byte of a beat XORed. -/
def Burst.flip (x : Burst) (beat l e : Nat) : Burst :=
  if l = 4 then { x with chk := x.chk ^^^ BitVec.ofNat 128 (e * 2 ^ (8 * beat)) }
  else { x with data := x.data ^^^ BitVec.ofNat 512 (e * 2 ^ (8 * (4 * beat + l))) }

/-- Symbol j of codeword i. -/
def Burst.sym (x : Burst) (x4 : Bool) (i j : Nat) : Nat :=
  if x4 then bitsOf (x.lane (2 * i) (j / 2)) (4 * (j % 2)) 4 + 16 * bitsOf (x.lane (2 * i + 1) (j / 2)) (4 * (j % 2)) 4
  else x.lane (2 * i + j % 2) (j / 2)
/-- A burst with an error of a symbol removed or added. -/
def Burst.flipSym (x : Burst) (x4 : Bool) (i j e : Nat) : Burst :=
  if x4 then (x.flip (2 * i) (j / 2) (e % 16 * 2 ^ (4 * (j % 2)))).flip (2 * i + 1) (j / 2) (e / 16 * 2 ^ (4 * (j % 2)))
  else x.flip (2 * i + j % 2) (j / 2) e

/-- The device of a symbol. -/
def symDev (x4 : Bool) (j : Nat) : Nat := if x4 then j else j / 2

/-- Syndromes of codeword i: S0 = Σ s_j, S1 = Σ s_j α^j (R263). -/
def Burst.syn (x : Burst) (x4 : Bool) (i : Nat) : Nat × Nat :=
  (List.range 10).foldl (fun (p : Nat × Nat) j =>
    let s := x.sym x4 i j
    (p.1 ^^^ s, p.2 ^^^ gfMul s (gfPow j))) (0, 0)

/-- Give codeword i the syndromes wanted by its check symbols 8 and 9. -/
def Burst.fixCheck (x : Burst) (x4 : Bool) (i : Nat) (want : Nat × Nat) : Burst :=
  let (s0, s1) := x.syn x4 i
  let a := s0 ^^^ want.1
  let b := s1 ^^^ want.2
  let e9 := gfMul (b ^^^ gfMul a (gfPow 8)) (gfInv (gfPow 8 ^^^ gfPow 9))
  (x.flipSym x4 i 9 e9).flipSym x4 i 8 (a ^^^ e9)

/-- A burst encoded with the strong code, or carrying given syndromes in every codeword. -/
def strongWith (x4 : Bool) (data : BitVec 512) (want : Nat × Nat) : Burst :=
  (List.range 8).foldl (fun x i => x.fixCheck x4 i want) ⟨data, 0#128⟩

/-! The light code (R264). -/

/-- The position of data bit k: the (k + 1)-th integer from 3 up that is not a power of two. -/
def lightPos : List Nat := ((List.range 73).filter (fun p => p ≥ 3 && !([4, 8, 16, 32, 64].contains p))).take 64

/-- c[7:0] of a word. -/
def lightC (w : Nat) : Nat :=
  let c := ((List.range 64).zip lightPos).foldl (fun c kp => if w.testBit kp.1 then c ^^^ kp.2 else c) 0
  let p := (popc w 64 + popc c 7) % 2
  c + 128 * p
/-- c[15:8]: the XOR of the word's bytes. -/
def lightP (w : Nat) : Nat := (List.range 8).foldl (fun x k => x ^^^ bitsOf w (8 * k) 8) 0

/-- Word w of a burst, with its check bytes. -/
def Burst.word (x : Burst) (w : Nat) : Nat × Nat × Nat :=
  (bitsOf x.data.toNat (64 * w) 64, bitsOf x.chk.toNat (16 * w) 8, bitsOf x.chk.toNat (16 * w + 8) 8)
def Burst.setWord (x : Burst) (w : Nat) (v : Nat × Nat × Nat) : Burst :=
  ⟨BitVec.ofNat 512 (bitsPut x.data.toNat (64 * w) 64 v.1), BitVec.ofNat 128 (bitsPut x.chk.toNat (16 * w) 16 (v.2.1 + 256 * v.2.2))⟩

/-- A word encoded with the light code. -/
def lightWord (w : Nat) : Nat × Nat × Nat := (w, lightC w, lightP w)
/-- A burst encoded with the light code. -/
def lightBurst (data : BitVec 512) : Burst :=
  (List.range 8).foldl (fun x w => x.setWord w (lightWord (bitsOf data.toNat (64 * w) 64))) ⟨data, 0#128⟩

/-! Decoding. -/

/-- What a decoder finds: clean; corrected, with class and position of Table 13-6; poison; uncorrectable. -/
inductive Dec where
  | clean | corrected (data : BitVec 512) (cls : Nat) (pos : Nat) | poison | bad
  deriving DecidableEq, Repr

/-- One light word: the word, the position of its corrected bit if any; none if uncorrectable. -/
def lightDec (v : Nat × Nat × Nat) : Option (Nat × Option Nat) :=
  let (w, c, p) := v
  let e := lightC w
  -- recompute over the stored check bits: syndrome and overall parity
  let s := (e ^^^ c) % 128
  let par := (popc w 64 + popc c 8) % 2
  let pe := p ^^^ lightP w
  if s = 0 ∧ par = 0 then
    (if pe = 0 then some (w, none) else if popc pe 8 = 1 then some (w, some (72 + ((setBits pe 8).headD 0))) else none)
  else if par = 1 then
    if s = 0 then (if pe = 0 then some (w, some 71) else none)
    else if [1, 2, 4, 8, 16, 32, 64].contains s then
      (if pe = 0 then some (w, some (64 + ((setBits s 7).headD 0))) else none)
    else match lightPos.idxOf? s with
      | some k => let w' := w ^^^ 2 ^ k
                  if lightP w' = p then some (w', some k) else none
      | none => none
  else none

/-- The (72,64) code alone, without c[15:8], on 64 data bits and c[7:0] above them (R264, R307): the word corrected; none if uncorrectable. -/
def ecc72 (v : Nat) : Option Nat :=
  let w := bitsOf v 0 64
  let s := (lightC w ^^^ bitsOf v 64 8) % 128
  if popc v 72 % 2 = 0 then (if s = 0 then some v else none)
  else if s = 0 then some (v ^^^ 2 ^ 71)
  else if [1, 2, 4, 8, 16, 32, 64].contains s then some (v ^^^ s * 2 ^ 64)
  else (lightPos.idxOf? s).map (fun k => v ^^^ 2 ^ k)

/-- Does every word carry the light code's poison signature? -/
def lightPoison (x : Burst) : Bool :=
  (List.range 8).all (fun w =>
    let (v, c, p) := x.word w
    decide (c ^^^ lightC v = 3) && decide (p = lightP v ^^^ 0xFF))

/-- Decode a light burst. -/
def decLight (x : Burst) : Dec :=
  if lightPoison x then .poison
  else
    let ws := (List.range 8).map (fun w => lightDec (x.word w))
    if ws.any (fun o => o.isNone) then .bad
    else
      let fixed := ws.filterMap (fun o => o.bind (fun p => p.2))
      match fixed with
      | [] => .clean
      | pos :: _ =>
        .corrected (BitVec.ofNat 512 ((List.range 8).foldl (fun acc w =>
          acc + (match ws.getD w none with | some (v, _) => v | none => 0) * 2 ^ (64 * w)) 0)) 1 pos

/-- The strong code's poison signature (R266). -/
def poisonSyn : Nat × Nat := (1, gfPow 200)

/-- Decode a strong burst without a marked device: every faulty codeword locates one symbol, all of one device (R264). -/
def decStrongPlain (x4 : Bool) (x : Burst) : Dec :=
  let loc (i : Nat) : Option (Option Nat) :=
    let (s0, s1) := x.syn x4 i
    if s0 = 0 ∧ s1 = 0 then some none
    else if s0 = 0 ∨ s1 = 0 then none
    else ((List.range 10).find? (fun j => gfMul s0 (gfPow j) = s1)).map some
  let locs := (List.range 8).map loc
  if locs.any (fun o => o.isNone) then .bad
  else
    let js := locs.filterMap (fun o => o.bind id)
    match js with
    | [] => .clean
    | j :: _ =>
      if js.any (fun k => symDev x4 k ≠ symDev x4 j) then .bad
      else
        let y := (List.range 8).foldl (fun y i =>
          match (locs.getD i none).bind id with
          | some k => y.flipSym x4 i k (x.syn x4 i).1
          | none => y) x
        .corrected y.data 2 (symDev x4 j)

/-- Decode a strong burst with a marked device as erasures (R270). -/
def decStrongMarked (x4 : Bool) (dev : Nat) (x : Burst) : Dec :=
  if (List.range 8).all (fun i => x.syn x4 i = (0, 0)) then .clean
  else if x4 then
    if (List.range 8).all (fun i => gfMul (x.syn x4 i).1 (gfPow dev) = (x.syn x4 i).2) then
      .corrected ((List.range 8).foldl (fun y i => y.flipSym x4 i dev (x.syn x4 i).1) x).data 3 dev
    else .bad
  else
    let a := gfPow (2 * dev)
    let b := gfPow (2 * dev + 1)
    .corrected ((List.range 8).foldl (fun y i =>
      let (s0, s1) := x.syn x4 i
      let e2 := gfMul (s1 ^^^ gfMul s0 a) (gfInv (a ^^^ b))
      (y.flipSym x4 i (2 * dev + 1) e2).flipSym x4 i (2 * dev) (s0 ^^^ e2)) x).data 3 dev

/-- Decode a burst: the signature is tested first, marked device or not (R266). -/
def decodeBurst (strong x4 : Bool) (mark : Nat) (x : Burst) : Dec :=
  if strong then
    if (List.range 8).all (fun i => x.syn x4 i = poisonSyn) then .poison
    else if mark < 10 then decStrongMarked x4 mark x else decStrongPlain x4 x
  else decLight x

/-- Encode a burst. -/
def encodeBurst (strong x4 : Bool) (data : BitVec 512) : Burst :=
  if strong then strongWith x4 data (0, 0) else lightBurst data

/-- The word every unit of a poison line reads (R266). -/
def poisonData : BitVec 512 := BitVec.ofNat 512 ((List.range 16).foldl (fun x k => x + 0xDEAD5EA1 * 2 ^ (32 * k)) 0)

/-- A poison line (R266). -/
def poisonBurst (strong x4 : Bool) : Burst :=
  if strong then strongWith x4 poisonData poisonSyn
  else (List.range 8).foldl (fun x w =>
    let v := bitsOf poisonData.toNat (64 * w) 64
    x.setWord w (v, lightC v ^^^ 3, lightP v ^^^ 0xFF)) ⟨poisonData, 0#128⟩

end Sys2Proof.Machine
end

