-- ==== Sys2Proof/Machine/Mem.lean ====
section
/-! DEFINITION. Memory: bytes by NoC address (R372), DRAM bursts with their check bytes (R253, R263). -/

namespace Sys2Proof.Machine

/-! Table 19-2. -/

namespace Na
def reg : Nat := 0x0001_0000_0000
def regEnd : Nat := 0x0001_0400_0000
def flash : Nat := 0x0001_1000_0000
def flashEnd : Nat := 0x0001_1200_0000
def bay (b : Nat) : Nat := 0x0002_0000_0000 + b * 0x40_0000
def bayEnd : Nat := 0x0002_0000_0000 + 12 * 0x40_0000
def sp (e : Nat) : Nat := 0x0003_0000_0000 + e * 0x2_0000
def spEnd : Nat := 0x0003_0000_0000 + 192 * 0x2_0000
def port : Nat := 0x0004_0000_0000
def portEnd : Nat := 0x0005_8000_0000
def gecko : Nat := 0x0006_0000_0000
def geckoEnd : Nat := 0x0006_0002_0000_0000
def dram (c : Nat) : Nat := 0x0100_0000_0000 + c * 0x40_0000_0000
def dramEnd : Nat := 0x0100_0000_0000 + 16 * 0x40_0000_0000
def cap : Nat := 0x0020_0000_0000_0000
end Na

/-- What an address with nothing listed reads as: erased flash reads 0xFF, everything else 0 (log entry 6). -/
def memDflt (a : Nat) : Byte := if Na.flash ≤ a ∧ a < Na.flashEnd then 0xFF#8 else 0#8

/-- One byte of memory. -/
def Dev.byte (d : Dev) (a : Nat) : Byte := sget (memDflt a) d.mem a
/-- Write one byte of memory. -/
def Dev.setByte (d : Dev) (a : Nat) (v : Byte) : Dev := { d with mem := sset (memDflt a) d.mem a v }
/-- Read `n` bytes. -/
def Dev.bytes (d : Dev) (a n : Nat) : List Byte := (List.range n).map (fun i => d.byte (a + i))
/-- Write bytes from an address up. -/
def Dev.setBytes (d : Dev) (a : Nat) : List Byte → Dev
  | [] => d
  | b :: r => (d.setByte a b).setBytes (a + 1) r
/-- Write enabled bytes from an address up. -/
def Dev.setSome (d : Dev) (a : Nat) : List (Option Byte) → Dev
  | [] => d
  | none :: r => d.setSome (a + 1) r
  | some b :: r => (d.setByte a b).setSome (a + 1) r

/-- The canonical form of memory: addresses strictly rising, no byte listed that reads the same unlisted. -/
def Memory.wf (m : SMap Byte) : Bool := swfBy memDflt m

/-- A stored burst of a channel. -/
def Dev.burst (d : Dev) (c off : Nat) : Burst :=
  ⟨BitVec.ofNat 512 (leNat (d.bytes (Na.dram c + off) 64)), sget 0#128 d.chk (c * 2 ^ 32 + off / 64)⟩
/-- Store a burst. -/
def Dev.setBurst (d : Dev) (c off : Nat) (x : Burst) : Dev :=
  let d := d.setBytes (Na.dram c + off) (leBytes 64 x.data.toNat)
  { d with chk := sset 0#128 d.chk (c * 2 ^ 32 + off / 64) x.chk }

/-- A span of a channel with nothing stored: bytes and check bytes all 0. -/
def Dev.clearSpan (d : Dev) (c lo hi : Nat) : Dev :=
  { d with mem := d.mem.filter (fun e => !(decide (Na.dram c + lo ≤ e.1) && decide (e.1 < Na.dram c + hi)))
           chk := d.chk.filter (fun e => !(decide (c * 2 ^ 32 + lo / 64 ≤ e.1) && decide (e.1 < c * 2 ^ 32 + hi / 64))) }

/-! Organisation of a channel (R253). -/

def Dev.x4 (d : Dev) (c : Nat) : Bool := d.flag (Pg.drc c) F.DRC_CFG_X4
def Dev.ranks (d : Dev) (c : Nat) : Nat := d.fld (Pg.drc c) F.DRC_CFG_RANKS + 1
/-- Capacity of the channel in bytes: Table 12-1 × 2 subchannels × ranks. -/
def Dev.chanCap (d : Dev) (c : Nat) : Nat :=
  8 * 2 ^ 30 * 2 ^ d.fld (Pg.drc c) F.DRC_CFG_DENS * (if d.x4 c then 2 else 1) * 2 * d.ranks c
/-- C of Table 12-3. -/
def Dev.colBits (d : Dev) (c : Nat) : Nat := if d.x4 c then 7 else 6
def offSub (off : Nat) : Nat := bitsOf off 6 1
def Dev.offBg (d : Dev) (c off : Nat) : Nat := bitsOf off (7 + d.colBits c) 3
def Dev.offBa (d : Dev) (c off : Nat) : Nat := bitsOf off (10 + d.colBits c) 2
def Dev.offRank (d : Dev) (c off : Nat) : Nat := if d.ranks c = 2 then bitsOf off (12 + d.colBits c) 1 else 0
def Dev.offRow (d : Dev) (c off : Nat) : Nat := off / 2 ^ (12 + d.colBits c + (d.ranks c - 1))
/-- Row bits of Table 12-1. -/
def Dev.rowBits (d : Dev) (c : Nat) : Nat := 16 + d.fld (Pg.drc c) F.DRC_CFG_DENS
/-- Bank within the rank: bank group and bank. -/
def Dev.offBank (d : Dev) (c off : Nat) : Nat := d.offBg c off * 4 + d.offBa c off

/-- DRCc_STAT_STATE (Table 12-2). -/
def Dev.chanState (d : Dev) (c : Nat) : Nat := d.fld (Pg.drc c) F.DRC_STAT_STATE
def Dev.setChanState (d : Dev) (c st : Nat) : Dev := d.setFld (Pg.drc c) F.DRC_STAT_STATE st

namespace Ch
def off : Nat := 0
def training : Nat := 1
def online : Nat := 2
def retrain : Nat := 3
def selfRefresh : Nat := 4
def failed : Nat := 5
end Ch

def Dev.drcOf (d : Dev) (c : Nat) : DrcSt := sget {} d.drcs c
def Dev.setDrc (d : Dev) (c : Nat) (x : DrcSt) : Dev := { d with drcs := sset {} d.drcs c x }

end Sys2Proof.Machine
end

