-- ==== Sys2Proof/Machine/Memi.lean ====
section
/-! DEFINITION. The memory integrity units: codes, decoding with its counters and log, whole and partial writes, marking,
scrubbing, regions, retirement (R261 to R275). -/

namespace Sys2Proof.Machine

def Dev.memiOf (d : Dev) (c : Nat) : MemiSt := sget {} d.memis c
def Dev.setMemi (d : Dev) (c : Nat) (x : MemiSt) : Dev := { d with memis := sset {} d.memis c x }

/-- Offset ranges `[base, base + size)`. -/
def inSpan (off base size : Nat) : Bool := decide (base ≤ off) && decide (off < base + size)

/-- Does region r of channel c hold the offset, enabled? -/
def Dev.inRegion (d : Dev) (c r off : Nat) : Bool :=
  d.flag (Pg.memi c) (F.MEMI_REGION_CTRL_EN r)
    && inSpan off (d.fld (Pg.memi c) (F.MEMI_REGION_BASE_BASE r) * 4096) (d.fld (Pg.memi c) (F.MEMI_REGION_CTRL_SIZE r) * 4096)

/-- The ranges that always take the strong code: journal, directory, crypt metadata (R261), mirror ring (R463). -/
def Dev.alwaysStrong (d : Dev) (c off : Nat) : Bool :=
  let h := c / 8
  let jl := d.fld (Pg.plu h) F.PLU_JRN_CFG_LOG2_SIZE
  let dl := d.fld (Pg.idx h) F.IDX_DIR_CFG_LOG2
  (decide (10 ≤ jl) && d.fld (Pg.plu h) F.PLU_JRN_CFG_CHAN = c % 8
      && inSpan off (d.fld (Pg.plu h) F.PLU_JRN_BASE_BASE * 4096) (2 ^ jl * 32))
    || (decide (15 ≤ dl) && d.fld (Pg.idx h) F.IDX_DIR_CFG_CHAN = c % 8
      && inSpan off (d.fld (Pg.idx h) F.IDX_DIR_BASE_BASE * 4096) (2 ^ (dl + 16)))
    || (decide (10 ≤ d.fld Pg.pair F.PAIR_MJRN_CFG_LOG2) && d.fld Pg.pair F.PAIR_MJRN_CFG_CHAN = c
      && inSpan off (d.fld Pg.pair F.PAIR_MJRN_BASE_BASE * 4096) (2 ^ d.fld Pg.pair F.PAIR_MJRN_CFG_LOG2 * 32))
    || (List.range 8).any (fun k => d.flag (Pg.crypt h) (F.CRYPT_RANGE_CFG_EN k)
      && bit (d.fld (Pg.crypt h) (F.CRYPT_RANGE_CFG_CHANS k)) (c % 8)
      && inSpan off (d.fld (Pg.crypt h) (F.CRYPT_RANGE_META_BASE k) * 4096)
          (d.fld (Pg.crypt h) (F.CRYPT_RANGE_META_SIZE_SIZE k) * 4096))

/-- Is the offset under the strong code (R261)? -/
def Dev.isStrong (d : Dev) (c off : Nat) : Bool :=
  if d.alwaysStrong c off then true
  else match (List.range 16).find? (fun r => d.inRegion c r off) with
    | some r => d.fld (Pg.memi c) (F.MEMI_REGION_CTRL_CODE r) = 0
    | none => d.fld (Pg.memi c) F.MEMI_DEFAULT_CODE = 0

/-- A word of DEVFAIL or the retirement table as decodes and placement see it: a write takes effect in the following CK (R270, R275). -/
def Dev.memiWord (d : Dev) (c off : Nat) : Word :=
  let x := d.memiOf c
  if x.wasCk = d.ck then (sfind x.was off).getD (d.reg (Pg.memi c) off) else d.reg (Pg.memi c) off

/-- A word is about to be written: what it held stands for the rest of the CK. -/
def Dev.noteWas (d : Dev) (c off : Nat) : Dev :=
  let x := d.memiOf c
  let was := if x.wasCk = d.ck then x.was else []
  if (sfind was off).isSome then d else d.setMemi c { x with was := sput was off (d.reg (Pg.memi c) off), wasCk := d.ck }

/-- The DEVFAIL field of a subchannel and rank. -/
def markFld (sub rank : Nat) : Fld := ⟨0x184, 4 * (2 * sub + rank), 4⟩

/-- The marked device for an offset; 15 for none (R270). -/
def Dev.markOf (d : Dev) (c off : Nat) : Nat :=
  let f := markFld (offSub off) (d.offRank c off)
  bitsOf (d.memiWord c f.off).toNat f.lo f.wd

/-- Mark a device once DEV_THR log entries of a subchannel and rank hold a strong correction of it (R270). -/
def Dev.autoMark (d : Dev) (c off dev : Nat) : Dev :=
  let thr := d.fld (Pg.memi c) F.MEMI_THR_DEV_THR
  let same := (d.memiOf c).log.filter (fun e =>
    e.cls = 2 && e.pos = dev && offSub (e.burst * 64) = offSub off && d.offRank c (e.burst * 64) = d.offRank c off)
  if thr ≠ 0 ∧ thr ≤ same.length ∧ d.fld (Pg.memi c) (markFld (offSub off) (d.offRank c off)) = 0xF then
    ((d.setFld (Pg.memi c) (markFld (offSub off) (d.offRank c off)) dev).err (Pg.memi c) 5 0x0D06).pend (Pg.memi c) 3
  else d

/-- An event of the error log (R274). -/
def Dev.memiLog (d : Dev) (c off cls pos reader : Nat) : Dev :=
  let x := d.memiOf c
  let b := off / 64
  let d :=
    match x.log.findIdx? (fun e => decide (e.burst = b)) with
    | some i =>
      d.setMemi c { x with log := x.log.modify i (fun (e : LogEnt) =>
        { e with cls := max e.cls cls, pos := pos, reader := reader, count := satAdd 16 e.count 1 }) }
    | none =>
      if x.log.length < 32 then
        (d.setMemi c { x with log := x.log ++ [(⟨b, cls, pos, false, 1, reader⟩ : LogEnt)] }).setFld (Pg.memi c) F.MEMI_STAT_LOG_USED
          (x.log.length + 1)
      else (d.bump (Pg.memi c) F.MEMI_LOG_OVF_CNT).pend (Pg.memi c) 4
  let thr := d.fld (Pg.memi c) F.MEMI_THR_HARD_THR
  let y := d.memiOf c
  let reach := y.log.any (fun e => e.burst = b && !e.hard && decide (thr ≤ e.count))
  let d := if reach then
      ((d.setMemi c { y with log := y.log.map (fun (e : LogEnt) => if e.burst = b then { e with hard := true } else e) }).setFld (Pg.memi c)
        F.MEMI_STAT_HARD 1).pend (Pg.memi c) 2
    else d
  if cls = 2 then d.autoMark c off pos else d

/-- The stored burst takes the bit errors that struck it since it was last accessed, and is decoded. -/
def Dev.strike (d : Dev) (c off : Nat) (err : BitVec 640) : Dev × Burst :=
  let x := d.burst c off
  let y : Burst := ⟨x.data ^^^ err.truncate 512, x.chk ^^^ (err >>> 512).truncate 128⟩
  (if err = 0#640 then d else d.setBurst c off y, y)

/-- Decode a burst under its code and mark. -/
def Dev.decodeAt (d : Dev) (c off : Nat) (x : Burst) : Dec := decodeBurst (d.isStrong c off) (d.x4 c) (d.markOf c off) x

/-- A read of a burst (R268): the data, and whether it is poisoned or uncorrectable. -/
def Dev.memiRead (d : Dev) (c off : Nat) (err : BitVec 640) (reader : Nat) : Dev × BitVec 512 × Bool :=
  let (d, x) := d.strike c off err
  match d.decodeAt c off x with
  | .clean => (d, x.data, false)
  | .corrected y cls pos => ((d.bump (Pg.memi c) F.MEMI_CORR_CNT).memiLog c off cls pos reader, y, false)
  | .poison => (d.bump (Pg.memi c) F.MEMI_POISON_RD_CNT, poisonData, true)
  | .bad => (((d.err (Pg.memi c) 0 0x0D01).pend (Pg.memi c) 0).memiLog c off 4 0 reader, x.data, true)

/-- A write of a whole burst: fresh check bits, or a poison line (R267). -/
def Dev.memiStore (d : Dev) (c off : Nat) (data : BitVec 512) (poison : Bool) : Dev :=
  d.setBurst c off (if poison then poisonBurst (d.isStrong c off) (d.x4 c) else encodeBurst (d.isStrong c off) (d.x4 c) data)

/-- The data of a burst with enabled bytes merged in. -/
def mergeBytes (old : BitVec 512) (l : List (Option Byte)) : BitVec 512 :=
  BitVec.ofNat 512 (leNat ((leBytes 64 old.toNat).zipWith (fun o n => n.getD o) l))

/-- How a word of a burst is enabled: not at all, wholly, partly. -/
def wordEn (l : List (Option Byte)) (w : Nat) : Nat × Nat :=
  let b := (List.range 8).filter (fun k => (l.getD (8 * w + k) none).isSome)
  (w, b.length)

/-- A partial write under the light code, word by word (Table 13-5): `none` where it is dropped; else the burst to store and
whether a word was corrected. -/
def lightMerge (x : Burst) (l : List (Option Byte)) : Option (Burst × Option Nat) :=
  let merged := mergeBytes x.data l
  (List.range 8).foldl (fun (acc : Option (Burst × Option Nat)) w =>
    match acc with
    | none => none
    | some (y, fix) =>
      let n := (wordEn l w).2
      if n = 8 then some (y.setWord w (lightWord (bitsOf merged.toNat (64 * w) 64)), fix)
      else match lightDec (x.word w), n with
        | none, 0 => some (y, fix)
        | none, _ => none
        | some (v, p), _ =>
          let old := bitsPut x.data.toNat (64 * w) 64 v
          let new := bitsOf (mergeBytes (BitVec.ofNat 512 old) l).toNat (64 * w) 64
          some (y.setWord w (lightWord new), match fix, p with
            | some q, _ => some q
            | none, some q => some q
            | none, none => none)) (some (x, none))

/-- A write of some bytes of a burst (R269, Table 13-5); true where the requester gets an error response. -/
def Dev.memiPartial (d : Dev) (c off : Nat) (l : List (Option Byte)) (poison : Bool) (err : BitVec 640) (reader : Nat) :
    Dev × Bool :=
  let (d, x) := d.strike c off err
  let drop (d : Dev) : Dev × Bool := ((d.err (Pg.memi c) 2 0x0D03).memiLog c off 6 0 reader, true)
  if l.all (fun o => o.isSome) then (d.memiStore c off (mergeBytes x.data l) poison, false)
  else if poison then (d.memiStore c off x.data true, false)
  else if d.isStrong c off then
    let d := d.bump (Pg.memi c) F.MEMI_RMW_CNT
    match d.decodeAt c off x with
    | .clean => (d.memiStore c off (mergeBytes x.data l) false, false)
    | .corrected y cls pos =>
      (((d.bump (Pg.memi c) F.MEMI_CORR_CNT).memiLog c off cls pos reader).memiStore c off (mergeBytes y l) false, false)
    | _ => drop d
  else if ¬ d.x4 c ∧ (List.range 8).all (fun w => (wordEn l w).2 = 0 || (wordEn l w).2 = 8) then
    let merged := mergeBytes x.data l
    (d.setBurst c off ((List.range 8).foldl (fun y w =>
      if (wordEn l w).2 = 8 then y.setWord w (lightWord (bitsOf merged.toNat (64 * w) 64)) else y) x), false)
  else
    let d := d.bump (Pg.memi c) F.MEMI_RMW_CNT
    match lightMerge x l with
    | none => drop d
    | some (y, none) => (d.setBurst c off y, false)
    | some (y, some pos) => (((d.bump (Pg.memi c) F.MEMI_CORR_CNT).memiLog c off 1 pos reader).setBurst c off y, false)

/-! Retirement and scrubbing. -/

/-- Is the burst's row or bank entered in the retirement table (R275)? -/
def Dev.retired (d : Dev) (c off : Nat) : Bool :=
  (List.range 64).any (fun k =>
    let f (x : Nat → Fld) : Nat := bitsOf (d.memiWord c (x k).off).toNat (x k).lo (x k).wd
    f F.MEMI_RET_VALID = 1 && f F.MEMI_RET_SUB = offSub off && f F.MEMI_RET_RANK = d.offRank c off
      && f F.MEMI_RET_BG = d.offBg c off && f F.MEMI_RET_BA = d.offBa c off
      && (f F.MEMI_RET_BANK = 1 || f F.MEMI_RET_ROW = d.offRow c off))

/-- Does the channel hold a retirement entry, or did it before this CK's writes? -/
def Dev.retires (d : Dev) (c : Nat) : Bool := (List.range 64).any (fun k => bit (d.memiWord c (0x200 + 4 * k)).toNat 0)

/-- Regions the scrubber visits: base and end in bytes (R271). -/
def Dev.scrubSpans (d : Dev) (c : Nat) : List (Nat × Nat) :=
  ((List.range 16).filter (fun r => d.flag (Pg.memi c) (F.MEMI_REGION_CTRL_SCRUB r)
      && d.flag (Pg.memi c) (F.MEMI_REGION_CTRL_INITED r))).map (fun r =>
    let b := d.fld (Pg.memi c) (F.MEMI_REGION_BASE_BASE r) * 4096
    (b, b + d.fld (Pg.memi c) (F.MEMI_REGION_CTRL_SIZE r) * 4096))

/-- The lowest scrubbed offset at or above one. -/
def nextScrub (spans : List (Nat × Nat)) (pos : Nat) : Option Nat :=
  (spans.filterMap (fun s => if pos < s.2 then some (max pos s.1) else none)).min?

/-! Commands of the page (R262, R270, R273 to R275). -/

/-- Is a region write refused (R262, R273)? -/
def Dev.regionRefused (d : Dev) (c base size : Nat) : Bool :=
  [Ch.online, Ch.retrain, Ch.selfRefresh].contains (d.chanState c) || decide (d.chanCap c < (base + size) * 4096)
    || (d.memiOf c).filling.isSome

/-- REGION_INIT (R273). -/
def Dev.regionInit (d : Dev) (c r : Nat) : Dev :=
  if (d.memiOf c).filling.isSome then d
  else (d.setMemi c { d.memiOf c with filling := some r })

/-- REGION_INIT_DONE (R273): the region holds zero codewords and INITED is set. The fill takes idle decisions of an ONLINE channel, so it
ends on one. -/
def Dev.regionInitDone (d : Dev) (c : Nat) : Dev :=
  match (d.memiOf c).filling with
  | none => d
  | some r =>
    if d.chanState c ≠ Ch.online then d else
    let b := d.fld (Pg.memi c) (F.MEMI_REGION_BASE_BASE r) * 4096
    let e := b + d.fld (Pg.memi c) (F.MEMI_REGION_CTRL_SIZE r) * 4096
    ((d.clearSpan c b e).setMemi c { d.memiOf c with filling := none }).setFld (Pg.memi c) (F.MEMI_REGION_CTRL_INITED r) 1

/-- The words of a MEMI region or DEFAULT, by register offset: base, control or DEFAULT (R262). BASE, SIZE, EN, CODE and DEFAULT
are refused while the channel may hold data; SCRUB, INIT and INITED are not part of the region's place and code. While an INIT runs every
write to a region is refused (R273). -/
def Dev.memiRegionWrite (d : Dev) (c off : Nat) (val : Word) : Dev :=
  let pg := Pg.memi c
  let v := val.toNat
  let cur := (d.reg pg off).toNat
  if off = 0x180 then
    let locked := d.cfgLock && decide (bitsOf v 0 1 ≠ cur)
    let d := if v / 2 ≠ 0 then d.regErr pg 1 else if locked then d.regErr pg 2 else d
    if locked then d
    else if d.regionRefused c 0 0 then (if bitsOf v 0 1 = cur then d else d.err pg 3 0x0D04)
    else d.setReg pg off (BitVec.ofNat 32 (v % 2))
  else
    let r := (off - 0x100) / 8
    let isBase := decide (off % 8 = 0)
    let held := if isBase then 0x3FFFFFF else 0xFFFFFFF
    let moves := (v ^^^ cur) &&& held ≠ 0
    let base := if isBase then v % 2 ^ 26 else d.fld pg (F.MEMI_REGION_BASE_BASE r)
    let size := if isBase then d.fld pg (F.MEMI_REGION_CTRL_SIZE r) else v % 2 ^ 26
    let resv := if isBase then v / 2 ^ 26 else v / 2 ^ 31
    let locked := moves && d.cfgLock
    let fills := (d.memiOf c).filling.isSome
    let refused := !locked && ((moves && d.regionRefused c base size) || fills)
    let d := if resv ≠ 0 then d.regErr pg 1 else if locked then d.regErr pg 2 else d
    let d := if refused then d.err pg 3 0x0D04 else d
    let keep := if locked || refused then cur &&& held else v &&& held
    if isBase then d.setReg pg off (BitVec.ofNat 32 keep)
    else
      let soft := (if fills then cur else v) &&& (2 ^ 28 + 2 ^ 30)
      let d := d.setReg pg off (BitVec.ofNat 32 (keep ||| soft))
      if bit v 29 ∧ ¬ refused then d.regionInit c r else d

/-- A write to DEVFAIL (R270): marks apply to decodes of the next CK. -/
def Dev.devfailWrite (d : Dev) (c : Nat) (val : Word) : Dev :=
  let d := if val.toNat / 2 ^ 16 ≠ 0 then d.regErr (Pg.memi c) 1 else d
  (d.noteWas c 0x184).setReg (Pg.memi c) 0x184 (BitVec.ofNat 32 (val.toNat % 2 ^ 16))

/-- LOG_CLR (R274): the log is empty, HARD clears. -/
def Dev.logClr (d : Dev) (c : Nat) : Dev :=
  ((d.setMemi c { d.memiOf c with log := [] }).setFld (Pg.memi c) F.MEMI_STAT_LOG_USED 0).setFld (Pg.memi c) F.MEMI_STAT_HARD 0

/-- A write to MEMIc_RETk (R275). -/
def Dev.retirementWrite (d : Dev) (c k : Nat) (val : Word) : Dev :=
  let v := val.toNat
  let row := bitsOf v 9 18
  let bad := bit v 0 && (if bit v 1 then row ≠ 0 else decide (2 ^ d.rowBits c ≤ row))
  let d := if v / 2 ^ 27 ≠ 0 then d.regErr (Pg.memi c) 1 else d
  if bad then d.err (Pg.memi c) 4 0x0D05 else (d.noteWas c (0x200 + 4 * k)).setReg (Pg.memi c) (0x200 + 4 * k) (BitVec.ofNat 32 (v % 2 ^ 27))

/-! The commands. -/

/-- REGION_INIT_DONE (R273). -/
def execRegionInitDone (c : Fin 16) (s : State) : Host.Outcome State Fault Refusal :=
  s.run (.regionInitDone c) (fun d => d.regionInitDone c.val)

end Sys2Proof.Machine
end

