-- ==== Sys2Proof/Machine/Crypt.lean ====
section
/-! DEFINITION. The crypt units: ranges and rights, seal blocks, counters and tags, the cache of verified pairs, failures,
initialisation, keys (R279 to R295). -/

namespace Sys2Proof.Machine

open Sys2Proof.Config

def Dev.cryptOf (d : Dev) (h : Nat) : CryptSt := sget {} d.crypts h
def Dev.setCrypt (d : Dev) (h : Nat) (x : CryptSt) : Dev := { d with crypts := sset {} d.crypts h x }

/-! Ranges (R279, R287). -/

def Dev.rgBase (d : Dev) (h k : Nat) : Nat := d.fld (Pg.crypt h) (F.CRYPT_RANGE_BASE_BASE k) * 4096
def Dev.rgSize (d : Dev) (h k : Nat) : Nat := d.fld (Pg.crypt h) (F.CRYPT_RANGE_SIZE_SIZE k) * 4096
def Dev.rgMeta (d : Dev) (h k : Nat) : Nat := d.fld (Pg.crypt h) (F.CRYPT_RANGE_META_BASE k) * 4096
def Dev.rgMode (d : Dev) (h k : Nat) : Nat := d.fld (Pg.crypt h) (F.CRYPT_RANGE_CFG_MODE k)
def Dev.rgEn (d : Dev) (h k : Nat) : Bool := d.flag (Pg.crypt h) (F.CRYPT_RANGE_CFG_EN k)

/-- The enabled range that covers an offset of a channel. -/
def Dev.cryptRange (d : Dev) (c off : Nat) : Option Nat :=
  let h := c / 8
  (List.range 8).find? (fun k => d.rgEn h k && bit (d.fld (Pg.crypt h) (F.CRYPT_RANGE_CFG_CHANS k)) (c % 8)
    && inSpan off (d.rgBase h k) (d.rgSize h k))

/-- The level RIGHTS gives a class: 0 NONE, 1 CIPHER, 2 PLAIN, 3 WRITE (R287). -/
def Dev.rights (d : Dev) (h k cls : Nat) : Nat :=
  bitsOf (d.fld (Pg.crypt h) (F.CRYPT_RANGE_RIGHTS_LEVELS k)) (2 * cls) 2

/-- Is the offset in a range that seals its data in blocks of 256 bytes? -/
def Dev.isSealed (d : Dev) (c off : Nat) : Bool :=
  match d.cryptRange c off with
  | some k => d.rgMode (c / 8) k ≠ 0
  | none => false

/-! Encryption and tags (R281). -/

/-- The 16-byte block a byte unit's keystream and a tag's mask come from. -/
def ctrBlock (ctr x c k lvl u : Nat) : BitVec 128 :=
  BitVec.ofNat 128 (leNat (leBytes 8 ctr ++ leBytes 4 (x / 256) ++ [byteOf c 0, byteOf k 0, byteOf lvl 0, byteOf u 0]))

/-- The keystream of a seal block. -/
def keystream (key : BitVec 256) (ctr x c k : Nat) : List Byte :=
  ((List.range 16).map (fun u => leBytes 16 (aes256 key (ctrBlock ctr x c k 0 u)).toNat)).flatten

/-- XOR of two byte lists. -/
def xorBytes (a b : List Byte) : List Byte := a.zipWith (fun x y => x ^^^ y) b

/-- Multiplication in GHASH's field, most significant bit first (NIST SP 800-38D). -/
def ghashMul (x y : BitVec 128) : BitVec 128 :=
  ((List.range 128).foldl (fun (p : BitVec 128 × BitVec 128) i =>
    (if x.getMsbD i then p.1 ^^^ p.2 else p.1,
     if p.2.getLsbD 0 then (p.2 >>> 1) ^^^ (0xE1#128 <<< 120) else p.2 >>> 1)) (0#128, y)).1

/-- Sixteen bytes as GHASH reads them: the first is the most significant. -/
def beBlock (l : List Byte) : BitVec 128 := BitVec.ofNat 128 (leNat l.reverse)

/-- GHASH over whole 16-byte blocks and a length block. -/
def ghash (hkey : BitVec 128) (l : List Byte) : BitVec 128 :=
  let blocks := (List.range (l.length / 16)).map (fun i => beBlock ((l.drop (16 * i)).take 16))
  (blocks ++ [BitVec.ofNat 128 (8 * l.length)]).foldl (fun y b => ghashMul (y ^^^ b) hkey) 0#128

/-- The tag over bytes: the low 64 bits of GHASH XOR AES of the block with u = 0x10 (R281). -/
def sealTag (key : BitVec 256) (ctr x c k lvl : Nat) (l : List Byte) : Nat :=
  let hkey := beBlock (leBytes 16 (aes256 key 0#128).toNat)
  let mask := beBlock (leBytes 16 (aes256 key (ctrBlock ctr x c k lvl 0x10)).toNat)
  ((ghash hkey l) ^^^ mask).toNat % 2 ^ 64

/-! The counter tree (R282). A child is named by level and number: level 0 the seal blocks, level m + 1 the pairs of level m. -/

/-- The key of a child in the unit's store. -/
def sealKey (k c lvl i : Nat) : Nat := ((k * 16 + c) * 16 + lvl) * 2 ^ 40 + i

/-- How many children a level has: seal blocks, then pairs by eights. -/
def Dev.levelCount (d : Dev) (h k : Nat) : Nat → Nat
  | 0 => d.rgSize h k / 256
  | m + 1 => (d.levelCount h k m + 7) / 8

/-- The offset of pair j of pair level m on its channel: the level areas follow one another from META (R282). -/
def Dev.pairOff (d : Dev) (h k m j : Nat) : Nat :=
  d.rgMeta h k + 128 * ((List.range m).foldl (fun s i => s + d.levelCount h k (i + 1)) 0 + j)

/-- The two lines of a pair: eight counters, eight tags. -/
def pairLines (kids : List (Nat × Nat)) : List Byte :=
  (kids.map (fun p => leBytes 8 p.1)).flatten ++ (kids.map (fun p => leBytes 8 p.2)).flatten

/-- Counter and tag of a child as INIT leaves them, unless listed: counter 1 over zero plaintext (R284). -/
def Dev.sealDflt (d : Dev) (h k c : Nat) : Nat → Nat → Nat × Nat
  | 0, i =>
    let key := sget 0#256 (d.cryptOf h).keys k
    let x := d.rgBase h k + 256 * i
    (1, sealTag key 1 x c k 0 (keystream key 1 x c k))
  | m + 1, j =>
    let key := sget 0#256 (d.cryptOf h).keys k
    let kids := (List.range 8).map (fun n => match sfind (d.cryptOf h).seals (sealKey k c m (8 * j + n)) with
      | some p => p
      | none => d.sealDflt h k c m (8 * j + n))
    (1, sealTag key 1 (d.pairOff h k m j) c k (m + 1) (pairLines kids))

/-- Counter and tag of a child. -/
def Dev.sealOf (d : Dev) (h k c lvl i : Nat) : Nat × Nat :=
  match sfind (d.cryptOf h).seals (sealKey k c lvl i) with
  | some p => p
  | none => d.sealDflt h k c lvl i
def Dev.setSeal (d : Dev) (h k c lvl i : Nat) (p : Nat × Nat) : Dev :=
  d.setCrypt h { d.cryptOf h with seals := sput (d.cryptOf h).seals (sealKey k c lvl i) p }

/-- The eight children of a pair. -/
def Dev.pairKids (d : Dev) (h k c m j : Nat) : List (Nat × Nat) := (List.range 8).map (fun n => d.sealOf h k c m (8 * j + n))

/-- The top pair level: at most 8 pairs, whose counters and tags form the root (R282). -/
def Dev.topLevel (d : Dev) (h k : Nat) : Nat :=
  ((List.range 13).find? (fun m => decide (d.levelCount h k (m + 1) ≤ 8))).getD 12

/-! The metadata cache (R285). -/

/-- The level-0 pairs and, with integrity, the pairs above that an access to a seal block needs, lowest first. -/
def Dev.pathOf (d : Dev) (h k i : Nat) : List (Nat × Nat) :=
  let top := if d.rgMode h k = 2 then d.topLevel h k else 0
  (List.range (top + 1)).map (fun m => (m, i / 8 ^ (m + 1)))

/-- Those not cached below the nearest cached one. -/
def Dev.missing (d : Dev) (h k c i : Nat) : List (Nat × Nat) :=
  (d.pathOf h k i).takeWhile (fun p => !(d.cryptOf h).cache.any (fun e => e.1 = sealKey k c (p.1 + 1) p.2))

/-- Write a dirty pair back: its counter advances, its tag is recomputed over its lines, its parent is dirty, and brought in where it is
not cached (R285). In ENCRYPT mode the pair is its counter line alone (R282). -/
def Dev.writeBackPair (d : Dev) (h : Nat) (id : Nat) : Dev :=
  let j := id % 2 ^ 40
  let lvl := id / 2 ^ 40 % 16
  let c := id / 2 ^ 44 % 16
  let k := id / 2 ^ 48
  let m := lvl - 1
  let off := d.pairOff h k m j
  let lines := pairLines (d.pairKids h k c m j)
  let key := sget 0#256 (d.cryptOf h).keys k
  let ctr := (d.sealOf h k c lvl j).1 + 1
  let d := d.setSeal h k c lvl j (ctr, sealTag key ctr off c k lvl lines)
  let d := d.memiStore c off (BitVec.ofNat 512 (leNat (lines.take 64))) false
  if d.rgMode h k ≠ 2 then d
  else
    let d := d.memiStore c (off + 64) (BitVec.ofNat 512 (leNat (lines.drop 64))) false
    if d.topLevel h k ≤ m then d
    else
      let up := sealKey k c (lvl + 1) (j / 8)
      let x := d.cryptOf h
      let held := x.cache.any (fun e => e.1 = up)
      let d := if held then d else d.bump (Pg.crypt h) F.CRYPT_MISS_CNT
      d.setCrypt h { x with cache := if held then x.cache.map (fun e => if e.1 = up then (e.1, true) else e) else (up, true) :: x.cache }

/-- Beyond 1,024 pairs the least recently used is evicted, a dirty one written back, which may bring its parent in. -/
def Dev.evictPairs (d : Dev) (h : Nat) : Nat → Dev
  | 0 => d
  | fuel + 1 =>
    let x := d.cryptOf h
    if x.cache.length ≤ 1024 then d
    else match x.cache.getLast? with
      | none => d
      | some e =>
        let d := d.setCrypt h { x with cache := x.cache.dropLast }
        (if e.2 then d.writeBackPair h e.1 else d).evictPairs h fuel

/-- Use a pair: it becomes the most recently used. -/
def Dev.usePair (d : Dev) (h id : Nat) (dirty : Bool) : Dev :=
  let x := d.cryptOf h
  let was := x.cache.any (fun e => e.1 = id && e.2)
  (d.setCrypt h { x with cache := (id, was || dirty) :: x.cache.filter (fun e => decide (e.1 ≠ id)) }).evictPairs h 16

/-- Store a seal block's four bursts. -/
def Dev.storeBlock (d : Dev) (c x : Nat) (l : List Byte) (poison : Bool) : Dev :=
  (List.range 4).foldl (fun d b => d.memiStore c (x + 64 * b) (BitVec.ofNat 512 (leNat ((l.drop (64 * b)).take 64))) poison) d

/-- What the lines of a pair hold in DRAM: nothing where one is uncorrectable; `some none` where they are as INIT leaves them; else the
counters and tags that stand there. -/
def Dev.pairStored (d : Dev) (h k c m j : Nat) : Option (Option (List (Nat × Nat))) :=
  let off := d.pairOff h k m j
  let line (o : Nat) : Option (BitVec 512) :=
    let x := d.burst c o
    match d.decodeAt c o x with
    | .clean => some x.data
    | .corrected y _ _ => some y
    | _ => none
  match line off, (if d.rgMode h k = 2 then line (off + 64) else some 0#512) with
  | some a, some b =>
    let fresh := (List.range 8).all (fun n => (sfind (d.cryptOf h).seals (sealKey k c m (8 * j + n))).isNone)
    if fresh ∧ a = 0#512 ∧ b = 0#512 then some none
    else some (some ((List.range 8).map (fun n => (bitsOf a.toNat (64 * n) 64, bitsOf b.toNat (64 * n) 64))))
  | _, _ => none

/-- A child of a pair takes what stands in DRAM, a seal block that INIT wrote first stored as it reads. -/
def Dev.takeKid (d : Dev) (h k c m i : Nat) (p : Nat × Nat) : Dev :=
  let was := d.sealOf h k c m i
  let p := if d.rgMode h k = 2 then p else (p.1, was.2)
  if p = was then d
  else
    let x := d.rgBase h k + 256 * i
    let d := if m = 0 ∧ (sfind (d.cryptOf h).seals (sealKey k c 0 i)).isNone then
        d.storeBlock c x (keystream (sget 0#256 (d.cryptOf h).keys k) 1 x c k) false
      else d
    d.setSeal h k c m i p

/-- A pair that reads uncorrectable or does not verify poisons what it covers (R292, R293). -/
def Dev.pairFails (d : Dev) (h id m : Nat) : Dev :=
  let d := d.setCrypt h { d.cryptOf h with bad := id :: (d.cryptOf h).bad }
  ((d.err (Pg.crypt h) 3 0x0E04).bumpBy (Pg.crypt h) F.CRYPT_POISON_CNT (8 ^ (m + 1))).pend (Pg.crypt h) 1

/-- Bring the pairs of a seal block into the cache: each missing one counts, the nearest to the root first, and is verified against its
parent before it is used; `badAt` is the level of a pair that reads uncorrectable (R285, R292, R293). -/
def Dev.fetchPairs (d : Dev) (h k c i : Nat) (badAt : Option Nat) : Dev :=
  (d.missing h k c i).reverse.foldl (fun d p =>
    let m := p.1
    let j := p.2
    let id := sealKey k c (m + 1) j
    let d := d.bump (Pg.crypt h) F.CRYPT_MISS_CNT
    if (d.cryptOf h).bad.contains id then d
    else match (if badAt = some m then none else d.pairStored h k c m j) with
    | none => d.pairFails h id m
    | some none => d.usePair h id false
    | some (some kids) =>
      let (ctr, tag) := d.sealOf h k c (m + 1) j
      if d.rgMode h k = 2 ∧ tag ≠ sealTag (sget 0#256 (d.cryptOf h).keys k) ctr (d.pairOff h k m j) c k (m + 1) (pairLines kids) then
        d.pairFails h id m
      else ((kids.zipIdx).foldl (fun (d : Dev) q => d.takeKid h k c m (8 * j + q.2) q.1) d).usePair h id false)
    (let low := sealKey k c 1 (i / 8)
     if (d.cryptOf h).cache.any (fun e => e.1 = low) then d.usePair h low false else d)

/-- The pair above a seal block that has read uncorrectable, if any, the highest first: level and number. -/
def Dev.badPair (d : Dev) (h k c i : Nat) : Option (Nat × Nat) :=
  ((List.range 13).reverse.map (fun m => (m, i / 8 ^ (m + 1)))).find? (fun p => (d.cryptOf h).bad.contains (sealKey k c (p.1 + 1) p.2))

/-! Seal blocks. -/

/-- Read a seal block's four bursts: stored bytes, and whether any is poisoned or uncorrectable. -/
def Dev.readBlock (d : Dev) (c x : Nat) (err : BitVec 2560) (reader : Nat) : Dev × List Byte × Bool :=
  (List.range 4).foldl (fun (acc : Dev × List Byte × Bool) b =>
    let r := acc.1.memiRead c (x + 64 * b) ((err >>> (640 * b)).truncate 640) reader
    (r.1, acc.2.1 ++ leBytes 64 r.2.1.toNat, acc.2.2 || r.2.2)) (d, [], false)

/-- A seal block is poisoned (R290). -/
def Dev.poisonBlock (d : Dev) (h c x : Nat) : Dev :=
  ((d.storeBlock c x [] true).bump (Pg.crypt h) F.CRYPT_POISON_CNT).pend (Pg.crypt h) 1

/-- The stored bytes of a block: a block INIT wrote and nothing has written since holds the encryption of zero. -/
def Dev.cipherOf (d : Dev) (h k c i : Nat) (stored : List Byte) (bad : Bool) : List Byte :=
  if (sfind (d.cryptOf h).seals (sealKey k c 0 i)).isNone ∧ ¬ bad then
    keystream (sget 0#256 (d.cryptOf h).keys k) 1 (d.rgBase h k + 256 * i) c k
  else stored

/-- A read of a seal block at a level of rights (R287, R290): 256 bytes and the poison attribute. -/
def Dev.sealedRead (d : Dev) (h k c x lvl : Nat) (err : BitVec 2560) (badAt : Option Nat) (reader : Nat) :
    Dev × List Byte × Bool :=
  let i := (x - d.rgBase h k) / 256
  if lvl = 1 then
    let (d, l, bad) := d.readBlock c x err reader
    (d, d.cipherOf h k c i l bad, bad)
  else
    let d := d.fetchPairs h k c i badAt
    if (d.badPair h k c i).isSome then (d, (List.replicate 4 (leBytes 64 poisonData.toNat)).flatten, true)
    else
      let (d, l, bad) := d.readBlock c x err reader
      let ct := d.cipherOf h k c i l bad
      let key := sget 0#256 (d.cryptOf h).keys k
      let (ctr, tag) := d.sealOf h k c 0 i
      let pt := if l = (List.replicate 4 (leBytes 64 poisonData.toNat)).flatten ∧ bad then l
                else xorBytes ct (keystream key ctr x c k)
      if bad then (d, pt, true)
      else if d.rgMode h k = 2 ∧ tag ≠ sealTag key ctr x c k 0 ct then
        ((d.poisonBlock h c x).err (Pg.crypt h) 1 0x0E02, pt, true)
      else (d, pt, false)

/-- Store a block under a counter (R281, R291): the pair above it is dirty. -/
def Dev.sealWith (d : Dev) (h k c x i ctr : Nat) (pt : List Byte) (poison : Bool) : Dev :=
  let key := sget 0#256 (d.cryptOf h).keys k
  let ct := xorBytes pt (keystream key ctr x c k)
  let d := d.storeBlock c x ct poison
  let d := d.setSeal h k c 0 i (ctr, sealTag key ctr x c k 0 ct)
  d.setCrypt h { d.cryptOf h with hi := sset 0 (d.cryptOf h).hi k (max ctr (sget 0 (d.cryptOf h).hi k)) }

/-- A whole-block write (R291, R292): fresh counter, fresh tag; under a level-0 pair that read uncorrectable it takes a rebuild
entry. True where an error response answers it. -/
def Dev.sealedWrite (d : Dev) (h k c x : Nat) (pt : List Byte) (poison : Bool) (badAt : Option Nat) : Dev × Bool :=
  let i := (x - d.rgBase h k) / 256
  let d := d.fetchPairs h k c i badAt
  let full := 0xFFFFFFFFFFFFFFFE
  let refuse (d : Dev) : Dev × Bool := (d.err (Pg.crypt h) 6 0x0E07, true)
  match d.badPair h k c i with
  | some (0, j) =>
    let id := sealKey k c 1 j
    let x0 := d.cryptOf h
    let ctr := max 1 (sget 0 x0.hi k) + 1
    let have' := (x0.rebuild.find? (fun e => e.1 = id)).map (fun e => e.2)
    if ctr > full then refuse d
    else if have'.isNone ∧ 8 ≤ x0.rebuild.length then refuse d
    else
      let done := ((i % 8) :: (have'.getD [])).eraseDups
      let d := d.sealWith h k c x i ctr pt poison
      let y := d.cryptOf h
      let rest := y.rebuild.filter (fun e => decide (e.1 ≠ id))
      let d := if done.length = 8 then
          (d.setCrypt h { y with rebuild := rest, bad := y.bad.filter (fun b => decide (b ≠ id)) }).usePair h id true
        else d.setCrypt h { y with rebuild := rest ++ [(id, done)] }
      (d.setFld (Pg.crypt h) F.CRYPT_STAT_REBUILD (d.cryptOf h).rebuild.length, false)
  | some _ => refuse d
  | none =>
    let ctr := (d.sealOf h k c 0 i).1 + 1
    if ctr > full then refuse d
    else ((d.sealWith h k c x i ctr pt poison).usePair h (sealKey k c 1 (i / 8)) true, false)

/-- A partial write (R291): the block is read, verified, merged and written whole; a bad block is dropped and poisoned. -/
def Dev.sealedPartial (d : Dev) (h k c x : Nat) (l : List (Option Byte)) (poison : Bool) (err : BitVec 2560)
    (badAt : Option Nat) (reader : Nat) : Dev × Bool :=
  let d := d.bump (Pg.crypt h) F.CRYPT_RMW_CNT
  let i := (x - d.rgBase h k) / 256
  let d := d.fetchPairs h k c i badAt
  let drop (d : Dev) : Dev × Bool := ((d.poisonBlock h c x).err (Pg.crypt h) 2 0x0E03, true)
  if (d.badPair h k c i).isSome then (d.err (Pg.crypt h) 2 0x0E03, true)
  else
    let (d, s, bad) := d.readBlock c x err reader
    let ct := d.cipherOf h k c i s bad
    let key := sget 0#256 (d.cryptOf h).keys k
    let (ctr, tag) := d.sealOf h k c 0 i
    if bad ∨ (d.rgMode h k = 2 ∧ tag ≠ sealTag key ctr x c k 0 ct) then drop d
    else
      let pt := (xorBytes ct (keystream key ctr x c k)).zipWith (fun (o : Byte) (n : Option Byte) => n.getD o) l
      d.sealedWrite h k c x pt poison none

/-! Initialisation and resealing (R284, R293). -/

/-- CRYPT_INIT: a range that is enabled starts sealing; written while it runs, nothing. -/
def Dev.cryptInit (d : Dev) (h k : Nat) : Dev :=
  if ¬ d.rgEn h k then d
  else d.setFld (Pg.crypt h) F.CRYPT_STAT_INIT_BUSY (d.fld (Pg.crypt h) F.CRYPT_STAT_INIT_BUSY ||| 2 ^ k)

/-- Forget everything sealed in a span of blocks of a channel, and the pairs within it: they stand as INIT leaves them. -/
def Dev.resetSeals (d : Dev) (h k c lo n : Nat) : Dev :=
  let x := d.cryptOf h
  let inSpanKey (id : Nat) : Bool :=
    let lvl := id / 2 ^ 40 % 16
    let i := id % 2 ^ 40
    id / 2 ^ 44 = k * 16 + c && decide (lo ≤ i * 8 ^ lvl) && decide (i * 8 ^ lvl + 8 ^ lvl ≤ lo + n)
  let d := d.setCrypt h { x with seals := x.seals.filter (fun e => !inSpanKey e.1), cache := x.cache.filter (fun e => !inSpanKey e.1),
                                 bad := x.bad.filter (fun b => !inSpanKey b), rebuild := x.rebuild.filter (fun e => !inSpanKey e.1) }
  let d := (d.setFld (Pg.crypt h) F.CRYPT_STAT_REBUILD (d.cryptOf h).rebuild.length).clearSpan c (d.rgBase h k + 256 * lo)
    (d.rgBase h k + 256 * (lo + n))
  (List.range 13).foldl (fun (d : Dev) m =>
    let a := (lo + 8 ^ (m + 1) - 1) / 8 ^ (m + 1)
    let b := min ((lo + n) / 8 ^ (m + 1)) (d.levelCount h k (m + 1))
    if a < b then d.clearSpan c (d.pairOff h k m a) (d.pairOff h k m b) else d) d

/-- Are the channels of a mask of the half ONLINE, so that idle decisions can be taken on each? -/
def Dev.chansOnline (d : Dev) (h mask : Nat) : Bool := (List.range 8).all (fun b => !bit mask b || d.chanState (8 * h + b) = Ch.online)

/-- CRYPT_INIT_DONE (R284): the work takes idle decisions of the range's channels, so it ends while they are ONLINE. -/
def Dev.cryptInitDone (d : Dev) (h k : Nat) : Dev :=
  let busy := d.fld (Pg.crypt h) F.CRYPT_STAT_INIT_BUSY
  if ¬ bit busy k ∨ ¬ d.chansOnline h (d.fld (Pg.crypt h) (F.CRYPT_RANGE_CFG_CHANS k)) then d
  else
    let d := (List.range 8).foldl (fun d b =>
      if bit (d.fld (Pg.crypt h) (F.CRYPT_RANGE_CFG_CHANS k)) b then d.resetSeals h k (8 * h + b) 0 (2 ^ 48) else d) d
    let d := d.setCrypt h { d.cryptOf h with hi := sset 0 (d.cryptOf h).hi k 1 }
    let d := (d.setFld (Pg.crypt h) F.CRYPT_STAT_INIT_BUSY (busy - 2 ^ k)).setFld (Pg.crypt h) (F.CRYPT_RANGE_CFG_INITED k) 1
    d.pend (Pg.crypt h) 0

/-- RESEAL (R293, R295): the span beneath a pair starts to be reinitialised. -/
def Dev.reseal (d : Dev) (h : Nat) (val : Word) : Dev :=
  let v := val.toNat
  let k := bitsOf v 29 3
  let c := 8 * h + bitsOf v 26 3
  let off := bitsOf v 0 26 * 2048
  let lvl := d.fld (Pg.crypt h) F.CRYPT_RESEAL_LEVEL_LEVEL
  let rel := off - d.rgBase h k
  if ¬ d.rgEn h k ∨ off < d.rgBase h k ∨ rel % (2048 * 8 ^ lvl) ≠ 0 then d.err (Pg.crypt h) 5 0x0E06
  else d.setCrypt h { d.cryptOf h with resealing := (d.cryptOf h).resealing ++ [(k, c, lvl + 1, rel / (2048 * 8 ^ lvl))] }

/-- RESEAL_DONE (R293): the oldest RESEAL of the unit ends; the pair above the one it names takes that one's new counter and tag. -/
def Dev.resealDone (d : Dev) (h : Nat) : Dev :=
  match (d.cryptOf h).resealing with
  | [] => d
  | (k, c, lvl, j) :: rest =>
    if d.chanState c ≠ Ch.online then d else
    let d := (d.setCrypt h { d.cryptOf h with resealing := rest }).resetSeals h k c (j * 8 ^ lvl) (8 ^ lvl)
    (if d.rgMode h k = 2 ∧ lvl ≤ d.topLevel h k then d.usePair h (sealKey k c (lvl + 1) (j / 8)) true else d).pend (Pg.crypt h) 0

/-- Is a block under a RESEAL (R293)? -/
def Dev.isResealing (d : Dev) (h k c x : Nat) : Bool :=
  let i := (x - d.rgBase h k) / 256
  (d.cryptOf h).resealing.any (fun r => r.1 = k && r.2.1 = c && i / 8 ^ r.2.2.1 = r.2.2.2)

/-- Roots are lost at reset and on entry to BLANK: every range is disabled (R283). -/
def Dev.cryptLost (d : Dev) (h : Nat) : Dev :=
  let d := d.setCrypt h { (d.cryptOf h) with seals := [], cache := [], bad := [], rebuild := [], hi := [], resealing := [] }
  let d := (d.setFld (Pg.crypt h) F.CRYPT_STAT_INIT_BUSY 0).setFld (Pg.crypt h) F.CRYPT_STAT_REBUILD 0
  (List.range 8).foldl (fun d k => (d.setFld (Pg.crypt h) (F.CRYPT_RANGE_CFG_EN k) 0).setFld (Pg.crypt h)
    (F.CRYPT_RANGE_CFG_INITED k) 0) d

/-- Every dirty pair of a channel is written back, before its self-refresh (R285). -/
def Dev.writeBackChannel (d : Dev) (c : Nat) : Dev :=
  let h := c / 8
  let mine (e : Nat × Bool) : Bool := e.2 && e.1 / 2 ^ 44 % 16 = c
  ((d.cryptOf h).cache.filter mine).foldl (fun d e =>
    let d := d.writeBackPair h e.1
    d.setCrypt h { d.cryptOf h with cache := (d.cryptOf h).cache.map (fun x => if x.1 = e.1 then (x.1, false) else x) }) d

/-! Range registers (R279, R288). -/

/-- The spans a range would take on a channel: data, and metadata unless CLEAR. -/
def Dev.rangeSpans (d : Dev) (h k : Nat) : List (Nat × Nat) :=
  [(d.rgBase h k, d.rgBase h k + d.rgSize h k),
   (d.rgMeta h k, d.rgMeta h k + d.fld (Pg.crypt h) (F.CRYPT_RANGE_META_SIZE_SIZE k) * 4096)]

/-- Do two spans overlap? -/
def overlap (a b : Nat × Nat) : Bool := decide (a.1 < b.2) && decide (b.1 < a.2)

/-- Would enabling range k be refused (R279)? -/
def Dev.enableRefused (d : Dev) (h k chans mode : Nat) : Bool :=
  let size := d.fld (Pg.crypt h) (F.CRYPT_RANGE_SIZE_SIZE k)
  let mine := d.rangeSpans h k
  mode = 3 || d.rgEn (1 - h) k
    || decide (d.fld (Pg.crypt h) (F.CRYPT_RANGE_META_SIZE_SIZE k) < (size + 13) / 14)
    || overlap (mine.getD 0 (0, 0)) (mine.getD 1 (0, 0))
    || (List.range 8).any (fun j => j ≠ k && d.rgEn h j
        && (d.fld (Pg.crypt h) (F.CRYPT_RANGE_CFG_CHANS j) &&& chans) ≠ 0
        && (d.rangeSpans h j).any (fun a => mine.any (overlap a)))
    || (List.range 8).any (fun b => bit chans b && mine.any (fun s => decide (d.chanCap (8 * h + b) < s.2)))

/-- CRYPT_RANGE_WRITE (R279, R288): a write to register `off` of range k (0x00 BASE, 0x04 SIZE, 0x08 META, 0x0C META_SIZE,
0x10 CFG, 0x14 RIGHTS). -/
def Dev.cryptRangeWrite (d : Dev) (h k off : Nat) (val : Word) : Dev :=
  let pg := Pg.crypt h
  let a := 0x100 + 0x20 * k + off
  let v := val.toNat
  let cur := (d.reg pg a).toNat
  let w := if off = 0x10 then 0x7FF else if off = 0x14 then 0xFFF else 0x3FFFFFF
  let known := if off = 0x10 then 0x1FFF else w
  let refuse (d : Dev) : Dev := d.err pg 5 0x0E06
  let changes := (v ^^^ cur) &&& w ≠ 0
  let locked := decide changes && d.cfgLock
  let d := if v &&& (0xFFFFFFFF - known) ≠ 0 then d.regErr pg 1 else if locked then d.regErr pg 2 else d
  let init (d : Dev) : Dev := if off = 0x10 ∧ bit v 11 then d.cryptInit h k else d
  if locked then init d
  else if d.rgEn h k then init (if changes then refuse d else d)
  else if off = 0x10 ∧ bit v 10 ∧ d.enableRefused h k (bitsOf v 0 8) (bitsOf v 8 2) then refuse d
  else if off = 0x10 ∧ bitsOf v 8 2 = 3 then refuse d
  else if off = 0x14 ∧ ¬ d.flag pg F.CRYPT_STAT_DBG_PLAIN ∧ 1 < bitsOf v 8 2 then refuse d
  else init (d.setReg pg a (BitVec.ofNat 32 ((cur &&& (0xFFFFFFFF - w)) ||| (v &&& w))))

/-! Keys (R294). -/

/-- Is a fuse key slot programmed and not revoked? -/
def Dev.slotLive (d : Dev) (s : Nat) : Bool :=
  d.fuses.prog.contains s && d.fuses.useData.contains s && !d.fuses.revoked.contains s

/-- The key of a fuse slot: slot 0 holds the development key, a slot not programmed zeros. -/
def Dev.slotKey (d : Dev) (s : Nat) : BitVec 256 := (sfind d.fuses.keys s).getD (if s = 0 then Config.devKey else 0#256)

/-- RFC 3394 unwrap of 40 bytes under a key: the 32-byte key where the integrity check value is right. -/
def unwrapKey (kek : BitVec 256) (l : List Byte) : Option (BitVec 256) :=
  let word (i : Nat) : Nat := leNat ((l.drop (8 * i)).take 8).reverse
  let rs := (List.range 4).map (fun i => word (i + 1))
  let steps := (List.range 24).reverse
  let (a, rs) := steps.foldl (fun (p : Nat × List Nat) s =>
    let t := s + 1
    let i := s % 4
    let inp := BitVec.ofNat 128 (leNat ((leBytes 16 ((p.1 ^^^ t) * 2 ^ 64 + p.2.getD i 0)).reverse))
    let outp := leNat ((leBytes 16 (aes256Inv kek inp).toNat).reverse)
    (outp / 2 ^ 64, p.2.set i (outp % 2 ^ 64))) (word 0, rs)
  if a = 0xA6A6A6A6A6A6A6A6 then
    some (BitVec.ofNat 256 (leNat ((rs.map (fun r => (leBytes 8 r).reverse)).flatten)))
  else none

/-- A key command (R294): KEYIN is cleared after each, refused or not. -/
def Dev.keyCommand (d : Dev) (h k slot : Nat) (unwrap : Bool) : Dev :=
  let pg := Pg.crypt h
  let keyin := ((List.range 10).map (fun j => leBytes 4 (d.reg pg (0x200 + 4 * j)).toNat)).flatten
  let key := if ¬ d.slotLive slot then none
    else if unwrap then unwrapKey (d.slotKey slot) keyin else some (d.slotKey slot)
  let d := (List.range 10).foldl (fun d j => d.setReg pg (0x200 + 4 * j) 0#32) d
  match (if d.rgEn h k then none else key) with
  | none => (d.err pg 4 0x0E05).setFld pg F.CRYPT_KEY_CMD_STATUS 2
  | some x =>
    let d := d.setCrypt h { d.cryptOf h with keys := sput (d.cryptOf h).keys k x }
    ((d.setFld pg (F.CRYPT_RANGE_KEY_VALID k) 1).setFld pg (F.CRYPT_RANGE_KEY_WRAPPED k) (b01 unwrap)).setFld pg
      F.CRYPT_KEY_CMD_STATUS 0

/-- LOAD_SLOT and UNWRAP. -/
def Dev.loadSlot (d : Dev) (h k slot : Nat) : Dev := d.keyCommand h k slot false
def Dev.unwrap (d : Dev) (h k slot : Nat) : Dev := d.keyCommand h k slot true

/-! The commands. -/

/-- CRYPT_INIT_DONE (R284). -/
def execCryptInitDone (h : Half) (k : Fin 8) (s : State) : Host.Outcome State Fault Refusal :=
  s.run (.cryptInitDone h k) (fun d => d.cryptInitDone h.val k.val)

/-- RESEAL_DONE (R293). -/
def execResealDone (h : Half) (s : State) : Host.Outcome State Fault Refusal :=
  s.run (.resealDone h) (fun d => d.resealDone h.val)

end Sys2Proof.Machine
end

