-- ==== Sys2Proof/Machine/Links.lean ====
section
/-! DEFINITION. The links of the on-chip network: end points, routes, transit, the slots that flits take on links and the share they have
of the bridge (R15, R371, R375 to R378). -/

namespace Sys2Proof.Machine

/-! End points (R371, Table 19-1). The ports of stops 0 and 15 are numbered here (log entry 29). -/

def epId (h stop port : Nat) : Nat := h * 2048 + stop * 64 + port
def epHalf (ep : Nat) : Nat := ep / 2048
def epStop (ep : Nat) : Nat := ep / 64 % 32

namespace Ep
def regs (h : Nat) : Nat := epId h 0 0
def gecko (h : Nat) : Nat := epId h 0 1
def pcie : Nat := epId 0 0 2
def flash : Nat := epId 0 0 3
def scarf : Nat := epId 1 0 4
def bridge (h : Nat) : Nat := epId h 0 5
def dma (h i : Nat) : Nat := epId h 0 (16 + i)
def bayStop (b : Nat) : Nat := 1 + b % 6
def bay (b : Nat) : Nat := epId (b / 6) (bayStop b) 16
def mortise (b p : Nat) : Nat := epId (b / 6) (bayStop b) (17 + p)
def newt (e : Nat) : Nat := epId (e / 96) (bayStop (e / 16)) (e % 16)
def dram (c : Nat) : Nat := epId (c / 8) (7 + c % 8) 0
def index (h : Nat) : Nat := epId h 15 2
def inspect : Nat := epId 0 15 4
def writer (h : Nat) : Nat := epId h 15 0
def plu (h : Nat) : Nat := epId h 15 1
def stim (h : Nat) : Nat := epId h 15 3
end Ep

/-- The end point of an engine, 192 and up being the Gecko cores. -/
def engEp (e : Nat) : Nat := if e < 192 then Ep.newt e else Ep.gecko ((e - 192) / 2)

def Dev.nocOf (d : Dev) (h : Nat) : NocSt := sget {} d.nocs h
def Dev.setNoc (d : Dev) (h : Nat) (x : NocSt) : Dev := { d with nocs := sset {} d.nocs h x }

/-- Is the half's network FITTED? -/
def Dev.fitted (d : Dev) (h : Nat) : Bool := d.flag (Pg.noc h) F.NOC_STAT_TOPO

/-- The bytes of frame 0 of a half. -/
def Dev.linkFrame (d : Dev) (h : Nat) : List Byte := (List.range 256).map (fun k => sget 0#8 (d.nocOf h).links k)

/-- An entry of a table. -/
def tblEntry (t : SMap (BitVec 16)) (router dest : Nat) : BitVec 16 := sget 0#16 t (64 * router + dest)

/-! Links. Each direction of one has a number: 16 a ring, four a router of FITTED, one a half for the bridge out of it. -/

def ringLink (h ring s : Nat) : Nat := h * 512 + ring * 16 + s % 16
def fittedLink (h router out : Nat) : Nat := h * 512 + 64 + router * 4 + (out - 1)
def bridgeLink (h : Nat) : Nat := 1024 + h

/-- The links from stop s to stop t of a ring topology: the ring with fewer, ring 0 where they are equal (R378). -/
def ringRoute (h s t : Nat) : List Nat :=
  let up := (t + 16 - s % 16) % 16
  let down := (s + 16 - t % 16) % 16
  if up ≤ down then (List.range up).map (fun i => ringLink h 0 (s + i))
  else (List.range down).map (fun i => ringLink h 1 (s + 16 - i))

/-- The links that a half's active table sends a packet over, and whether it arrives: at the router of its stop, or at the bridge (R378). -/
def Dev.tableRoute (d : Dev) (h dest : Nat) : Nat → Nat → List Nat × Bool
  | 0, _ => ([], false)
  | n + 1, router =>
    let e := (tblEntry (d.nocOf h).active router dest).toNat
    if ¬ bit e 3 then ([], false)
    else if e % 8 = 0 then ([], dest = 32 * h + router)
    else if e % 8 = 5 then ([], dest / 32 ≠ h)
    else if e % 8 ≤ 4 then
      let r := d.tableRoute h dest n (Config.nocLinkEnd (d.linkFrame h) router (e % 8))
      (fittedLink h router (e % 8) :: r.1, r.2)
    else ([], false)

/-- The links within a half toward a stop of either half, and whether they lead there. In RING the bridge is at stop 0. -/
def Dev.halfRoute (d : Dev) (h s g t : Nat) : List Nat × Bool :=
  if d.fitted h then d.tableRoute h (32 * g + t) 33 s
  else (ringRoute h s (if g = h then t else 0), true)

/-- The links of a route with the CK after injection at which the header is on each; and whether it arrives. -/
def Dev.route (d : Dev) (a b : Nat) : List (Nat × Nat) × Bool :=
  let h := epHalf a
  let g := epHalf b
  let x := d.halfRoute h (epStop a) g (epStop b)
  let steps (l : List Nat) (from_ : Nat) : List (Nat × Nat) := l.zipIdx.map (fun p => (p.1, from_ + 2 * p.2))
  if h = g then (steps x.1 0, x.2)
  else
    let y := d.halfRoute g 0 g (epStop b)
    let k := 2 * x.1.length
    (steps x.1 0 ++ [(bridgeLink h, k)] ++ steps y.1 (k + 4), x.2 && y.2)

/-- CK a header takes on a link (R377). -/
def linkCk (l : Nat) : Nat := if 1024 ≤ l then 4 else 2

/-- X: the transit of a header from one end point to another (R377, R491). -/
def Dev.transit (d : Dev) (a b : Nat) : Nat :=
  let r := d.route a b
  (r.1.map (fun p => linkCk p.1)).foldl (fun n k => n + k) 0 + (if r.2 then 0 else Config.strayCk a b)

/-! Slots (R376). -/

/-- Is the flits' time on a link met by `n` flits from a CK on? -/
def LinkRun.met (r : LinkRun) (link start n : Nat) : Bool :=
  r.link = link && decide (r.start < start + n) && decide (start < r.start + r.flits)

/-- A slot of a link that is free for `n` flits in consecutive CK. -/
def Dev.linkSlot (d : Dev) (link start n : Nat) : Option Nat :=
  (List.range 8).find? (fun s => !d.linkRuns.any (fun r => r.slot = s && r.met link start n))

/-- The flits of the bridge's NoC share in a CK, each way: 1,616 bits a CK over time (Table 1-2). -/
def bridgeShare (ck : Nat) : Nat := 1616 * (ck + 1) / 256 - 1616 * ck / 256

/-- Has the bridge room for `n` flits from a CK on? -/
def Dev.bridgeRoom (d : Dev) (link start n : Nat) : Bool :=
  (List.range n).all (fun i => decide (d.linkRuns.countP (fun r => r.met link (start + i) 1) < bridgeShare (start + i)))

/-- Is every link of a route free for a packet of `n` flits injected in a CK? -/
def Dev.routeFree (d : Dev) (l : List (Nat × Nat)) (n ck : Nat) : Bool :=
  l.all (fun p => if 1024 ≤ p.1 then d.bridgeRoom p.1 (ck + p.2) n else (d.linkSlot p.1 (ck + p.2) n).isSome)

/-- The first CK from one on in which a packet finds its route free. -/
def Dev.freeCk (d : Dev) (l : List (Nat × Nat)) (n : Nat) : Nat → Nat → Nat
  | 0, ck => ck
  | k + 1, ck => if d.routeFree l n ck then ck else d.freeCk l n k (ck + 1)

/-- A packet takes its slots; what is past is forgotten. -/
def Dev.occupy (d : Dev) (l : List (Nat × Nat)) (n ck : Nat) : Dev :=
  l.foldl (fun (d : Dev) p =>
    let slot := if 1024 ≤ p.1 then 0 else (d.linkSlot p.1 (ck + p.2) n).getD 0
    { d with linkRuns := d.linkRuns ++ [⟨p.1, slot, ck + p.2, n, d.fld (Pg.noc (p.1 / 512 % 2)) F.NOC_STAT_EPOCH⟩] })
    { d with linkRuns := d.linkRuns.filter (fun r => decide (d.ck < r.start + r.flits)) }

/-- A packet of `n` flits goes from one end point to another: injected in the first CK from `k` CK on in which its route is free, its wait
counted (R375). The CK its header arrives. -/
def Dev.packet (d : Dev) (a b n k : Nat) : Dev × Nat :=
  let l := (d.route a b).1
  let first := d.ck + k
  let till := d.linkRuns.foldl (fun m r => max m (r.start + r.flits)) first
  let ck := d.freeCk l n (till - first + 1) first
  let d := if ck = first then d else d.bumpBy (Pg.noc (epHalf a)) F.NOC_INJ_WAIT_CNT (ck - first)
  (d.occupy l n ck, ck + d.transit a b)

/-- Do two end points reach each other: in one half, or over a bridge that is not lost (R400)? -/
def Dev.bridged (d : Dev) (a b : Nat) : Bool := epHalf a = epHalf b || d.bridgeOk

/-- Is a flit on a link, or bound for one? -/
def Dev.linkBusy (d : Dev) : Bool := d.linkRuns.any (fun r => decide (d.ck < r.start + r.flits))

/-- The CK after which a block's own requests may be injected: I, or the CK the spine is open again, which they ask for (R380, R435). -/
def Dev.spineAsk (d : Dev) : Dev × Nat :=
  let k := Dom.spine
  if d.domState k = Ds.opened then (d, 1)
  else
    let d := if d.domState k = Ds.closing then d.domCancelled k
      else if d.domState k = Ds.closed then (d.setDomState k Ds.opening).schedOnce 2000 (.domainOpened (domOp k))
      else d
    (d, match d.agenda.find? (fun e => decide (e.2 = .domainOpened (domOp k))) with
      | some e => max 1 (e.1 - d.ck)
      | none => 1)

end Sys2Proof.Machine
end

