-- ==== Sys2Proof/Machine/Dram.lean ====
section
/-! DEFINITION. The DRAM controllers: transactions split into requests, queues and scheduling decisions, service, training,
refresh and tracking, self-refresh (R245 to R259). -/

namespace Sys2Proof.Machine

def Dev.subOf (d : Dev) (c s : Nat) : DSub := sget {} d.subs (c * 2 + s)
def Dev.setSub (d : Dev) (c s : Nat) (x : DSub) : Dev := { d with subs := sset {} d.subs (c * 2 + s) x }

/-- A channel as an operand. -/
def chanOf (c : Nat) : Fin 16 := if h : c < 16 then ⟨c, h⟩ else 0

/-- A number below 13 as an operand. -/
def levelOf (m : Nat) : Fin 13 := if h : m < 13 then ⟨m, h⟩ else 0

/-- The DRAM supplies are within limits (R444): monitor group 4 in its window, no DRAM rail with a fault. -/
def Dev.dramSupplyOk (d : Dev) : Bool :=
  bit (d.fld Pg.pmc F.PMC_STAT_MON_OK) 4
    && !d.pmc.railFault.any (fun r => d.flag Pg.pmc (F.PMC_RAIL_CFG_DRAM r))

/-- Is the channel online, out of self-refresh and taking requests (R190, R247)? -/
def Dev.chanOnline (d : Dev) (c : Nat) : Bool := d.chanState c = Ch.online

/-! Transactions. -/

/-- Parts of an access on one channel: 64-byte bursts, or 256-byte seal blocks where the data is sealed. -/
def Dev.splitAccess (d : Dev) (c : Nat) : Nat → Nat → Nat → List (Nat × Nat)
  | 0, _, _ => []
  | fuel + 1, off, hi =>
    if hi ≤ off then []
    else
      let unit := if d.isSealed c off then 256 else 64
      let base := off / unit * unit
      (base, unit) :: d.splitAccess c fuel (base + unit) hi

/-- A piece of an access: channel, offset, length, the bytes written (none: a read). -/
structure Piece where
  chan : Nat
  off : Nat
  len : Nat
  wr : Option (List (Option Byte)) := none
  deriving DecidableEq, Repr

/-- The packets of a piece: up to 64 units each (R373). -/
def Piece.packets (p : Piece) : List Piece :=
  if p.len = 0 then []
  else (List.range ((p.off + p.len - 1) / 2048 - p.off / 2048 + 1)).map (fun i =>
    let lo := max p.off ((p.off / 2048 + i) * 2048)
    let hi := min (p.off + p.len) ((p.off / 2048 + i + 1) * 2048)
    { p with off := lo, len := hi - lo, wr := p.wr.map (fun l => (l.drop (lo - p.off)).take (hi - lo)) })

/-- Units a piece touches. -/
def Piece.units (p : Piece) : Nat := (p.off + p.len + 31) / 32 - p.off / 32

/-- The parts of pieces with their piece's first part and the parts before them. -/
def Dev.pieceParts (d : Dev) : List Piece → Nat → List (Nat × Piece × List (Nat × Nat))
  | [], _ => []
  | p :: r, k =>
    let l := d.splitAccess p.chan (p.len / 64 + 2) p.off (p.off + p.len)
    (k, p, l) :: d.pieceParts r (k + l.length)

/-- What the requests of a transaction have in common. -/
structure ReqKind where
  poison : Bool
  cls : Nat
  reader : Nat
  close : Bool
  internal : Bool

/-- The requests of a part: one a burst. -/
def partReqs (tx part base unit : Nat) (p : Piece) (k : ReqKind) (due : Nat) : List DReq :=
  (List.range (unit / 64)).map (fun j =>
    { tx := tx, part := part, off := base + 64 * j, base := base, span := unit
      wr := p.wr.map (fun l => (List.range unit).map (fun i =>
        let a := base + i
        if p.off ≤ a ∧ a < p.off + p.len then l.getD (a - p.off) none else none))
      poison := k.poison, cls := k.cls, reader := k.reader, close := k.close, internal := k.internal, age := 0, due := due })

/-- A request takes its place among those held before a queue, by the CK it arrives. -/
def DSub.hold (x : DSub) (r : DReq) : DSub :=
  { x with waiting := x.waiting.filter (fun q => decide (q.due ≤ r.due)) ++ [r] ++ x.waiting.filter (fun q => decide (r.due < q.due)) }

/-- A subchannel as an operand. -/
def subOp (s : Nat) : Fin 2 := if s = 0 then 0 else 1

/-- DRAM_REQUEST comes when the next request held before a subchannel's queue is there: of all, or of those that have not arrived. -/
def Dev.callRequest (d : Dev) (c s : Nat) (all : Bool) : Dev :=
  match (d.subOf c s).waiting.find? (fun r => all || decide (d.ck < r.due)) with
  | none => d
  | some r =>
    let i := Instr.dramRequest (chanOf c) (subOp s)
    ({ d with agenda := agendaDrop i d.agenda } : Dev).sched (r.due - d.ck) i

/-- One piece sets out: over the network from the end point that asks, or from the controller's own router; T holds 2 CK before the
queue (R491, R492). Where the bridge is lost the piece is answered dead, as a master's request (R383). -/
def Dev.sendPiece (d : Dev) (tx : Nat) (src : Option Nat) (wait : Nat) (k : ReqKind) (x : Nat × Piece × List (Nat × Nat)) : Dev :=
  let p := x.2.1
  let put (d : Dev) (due : Nat) : Dev :=
    ((x.2.2.zipIdx).map (fun y => partReqs tx (x.1 + y.2) y.1.1 y.1.2 p k due)).flatten.foldl (fun (d : Dev) r =>
      let s := offSub r.off
      (d.setSub p.chan s ((d.subOf p.chan s).hold r)).callRequest p.chan s true) d
  match src with
  | none => put d (d.ck + 2)
  | some a =>
    if d.bridged a (Ep.dram p.chan) then
      let m := d.packet a (Ep.dram p.chan) (1 + (if p.wr.isSome then p.units else 0)) wait
      put m.1 (m.2 + 2)
    else
      let d := d.err (Pg.noc (epHalf a)) 1 0x1302
      { d with dtx := d.dtx.map (fun (e : Nat × DTx) =>
          if e.1 = tx then (e.1, { e.2 with left := e.2.left - x.2.2.length, resp := .error, at_ := d.ck + 2 }) else e) }

/-- Are all its responses in? -/
def Dev.txDone (d : Dev) (t : DTx) : Bool := t.left = 0 && decide (t.at_ ≤ d.ck)

/-- Send an access of several pieces to the controllers, from an end point of the network or (none) from a controller's own router;
`notify` runs when the last response is used. The transaction's number is `d.nextTx`. -/
def Dev.dramMulti (d : Dev) (src : Option Nat) (ps : List Piece) (poison : Bool) (cls reader : Nat) (close internal : Bool)
    (notify : Option Instr) : Dev :=
  let tx := d.nextTx
  let all := d.pieceParts ((ps.map Piece.packets).flatten) 0
  let count := all.foldl (fun n x => n + x.2.2.length) 0
  let pieces := all.map (fun x =>
    let p := x.2.1
    (⟨x.1, x.2.2.length, p.off - (x.2.2.headD (p.off, 0)).1, p.len, p.chan, if p.wr.isSome then 0 else p.units⟩ : DPiece))
  let d := { d with nextTx := tx + 1, dtx := sput d.dtx tx { notify := notify, left := count, pieces := pieces, src := src } }
  let w : Dev × Nat := if src.isSome && count != 0 then d.spineAsk else (d, 1)
  let d := all.foldl (fun (d : Dev) x => d.sendPiece tx src w.2 ⟨poison, cls, reader, close, internal⟩ x) w.1
  let left := match sfind d.dtx tx with | some t => t.left | none => 0
  match left, notify with
  | 0, some i => d.sched (if count = 0 then 0 else 2) i
  | _, _ => d

/-- Send an access of `len` bytes at an offset of a channel. -/
def Dev.dramAccess (d : Dev) (src : Option Nat) (c off len : Nat) (wr : Option (List (Option Byte))) (poison : Bool) (cls reader : Nat)
    (close internal : Bool) (notify : Option Instr) : Dev :=
  d.dramMulti src [⟨c, off, len, wr⟩] poison cls reader close internal notify

/-- A journal write is answered: an error counts (R202). -/
def Dev.journalDone (d : Dev) (tx : Nat) (resp : Resp) : Dev :=
  match sfind d.jrnTx tx with
  | none => d
  | some h =>
    let d := { d with jrnTx := serase d.jrnTx tx }
    if resp = .ok then d else (d.err (Pg.plu h) 3 0x0904).pend (Pg.plu h) 4

/-- Transactions that run nothing when they are done: journal and descriptor writes whose responses have come. -/
def Dev.txsEnded (d : Dev) : Dev :=
  (d.dtx.filter (fun (e : Nat × DTx) => e.2.notify.isNone && d.txDone e.2)).foldl (fun (d : Dev) e =>
    ({ d with dtx := serase d.dtx e.1 } : Dev).journalDone e.1 e.2.resp) d

/-- The response of a piece sets out, once its last part is done (R491). -/
def Dev.pieceReply (d : Dev) (t : DTx) (part : Nat) : Dev × Nat :=
  match t.src, t.pieces.find? (fun p => decide (p.first ≤ part) && decide (part < p.first + p.parts)) with
  | some a, some p =>
    if (t.parts.filter (fun (q : Nat × List Byte × Bool) => decide (p.first ≤ q.1) && decide (q.1 < p.first + p.parts))).length < p.parts then
      (d, t.at_)
    else
      let m := d.packet (Ep.dram p.chan) a (1 + p.flits) 0
      (m.1, max t.at_ (m.2 + p.flits + 1))
  | _, _ => (d, max t.at_ d.ck)

/-- A part is done: its data joins the transaction, whose notice runs when the last response is used. The worst response stands. -/
def Dev.partDone (d : Dev) (r : DReq) (data : List Byte) (poison : Bool) (resp : Resp) : Dev :=
  match sfind d.dtx r.tx with
  | none => d
  | some t =>
    let t := { t with left := t.left - 1, parts := t.parts ++ [(r.part, data, poison)], resp := if t.resp = .ok then resp else t.resp }
    let m := d.pieceReply t r.part
    let t := { t with at_ := m.2 }
    let d := { m.1 with dtx := sput m.1.dtx r.tx t }
    match t.left, t.notify with
    | 0, some i => d.sched (t.at_ - d.ck) i
    | 0, none => if t.src.isNone then d.txsEnded else d
    | _, _ => d

/-- A burst of a part is done without service, or with it: a part of one burst is done; a seal block is once its four are. -/
def Dev.burstAnswered (d : Dev) (r : DReq) (resp : Resp) (data : List Byte) : Dev :=
  if r.span = 64 then d.partDone r data false resp
  else
    match sfind d.dtx r.tx with
    | none => d
    | some t =>
      let x := sget ({} : PartAcc) t.acc r.part
      let x := { x with done := x.done + 1, resp := if x.resp = .ok then resp else x.resp, data := x.data ++ data }
      let d := { d with dtx := sput d.dtx r.tx { t with acc := sset {} t.acc r.part x } }
      if x.done = r.span / 64 then d.partDone r x.data false x.resp else d

/-- Take a finished transaction: its response, its bytes in order of parts, and the poisoned parts. -/
def Dev.takeTx (d : Dev) (tx : Nat) : Dev × DTx := ({ d with dtx := serase d.dtx tx }, sget {} d.dtx tx)

/-- The bytes of a transaction, pieces in order, each with whether its part read poisoned or uncorrectable; bytes that did not come count
as such. -/
def DTx.bytes (t : DTx) : List (Byte × Bool) :=
  (t.pieces.map (fun p =>
    let raw := ((List.range p.parts).map (fun i => match t.parts.find? (fun (q : Nat × List Byte × Bool) => q.1 = p.first + i) with
      | some q => q.2.1.map (fun b => (b, q.2.2))
      | none => [])).flatten
    ((raw ++ List.replicate (p.skip + p.want) (0#8, true)).drop p.skip).take p.want)).flatten

/-- Did a part read poisoned or uncorrectable? -/
def DTx.poisoned (t : DTx) : Bool := t.parts.any (fun (p : Nat × List Byte × Bool) => p.2.2)

/-! Requests (R247, R255, R289). -/

/-- What a denied read returns (R289). -/
def deniedBytes (n : Nat) : List Byte := ((List.range (n / 4)).map (fun _ => leBytes 4 0x0BADC0DE)).flatten

/-- The crypt unit's answer before the controller sees a request: rights, INITED, a RESEAL in progress (R284, R289, R293). A seal block
counts once. -/
def Dev.cryptGate (d : Dev) (c : Nat) (r : DReq) : Dev × Option (Resp × List Byte) :=
  match d.cryptRange c r.off with
  | none => (d, none)
  | some k =>
    let h := c / 8
    let lvl := d.rights h k r.cls
    let count (idx code : Nat) : Dev := if r.off = r.base then d.err (Pg.crypt h) idx code else d
    if (r.wr.isSome ∧ lvl < 3) ∨ lvl = 0 then (count 0 0x0E01, some (.error, if r.wr.isSome then [] else deniedBytes 64))
    else if ¬ d.flag (Pg.crypt h) (F.CRYPT_RANGE_CFG_INITED k) then (count 6 0x0E07, some (.error, []))
    else if d.isResealing h k c r.off then (d, some (.targetBusy, []))
    else (d, none)

/-- Start leaving self-refresh (R259): ONLINE 512 + ⌈tRFC + 10⌉ CK later. A CLOSED domain is OPENING meanwhile (R433). -/
def Dev.selfRefreshExit (d : Dev) (c : Nat) : Dev :=
  if d.chanState c ≠ Ch.selfRefresh ∨ (d.drcOf c).exiting then d
  else
    let t := 522 + d.fld (Pg.drc c) F.DRC_TIMING2_TRFC
    let d := (d.setDrc c { d.drcOf c with exiting := true }).schedOnce t (.selfRefreshExitDone (chanOf c))
    if d.domState (Dom.dram c) = Ds.closed then
      (d.setDomState (Dom.dram c) Ds.opening).schedOnce t (.domainOpened (domOp (Dom.dram c)))
    else d

/-- The close of a channel's domain is given up: the channel goes on (R435). -/
def Dev.stopDrain (d : Dev) (c : Nat) : Dev :=
  let d : Dev := { d with agenda := agendaDrop (.selfRefreshDone (chanOf c)) d.agenda }
  if (d.drcOf c).drain = .selfRefresh then d.setDrc c { d.drcOf c with drain := .none, srDue := false } else d

/-- A request that meets the close of its channel's domain cancels it, unless it is forced (R435). -/
def Dev.cancelDrain (d : Dev) (c : Nat) : Dev :=
  let k := Dom.dram c
  if d.domState k = Ds.closing ∧ ¬ d.forced k then (d.stopDrain c).domCancelled k else d

/-- DRAM_REQUEST: of the requests that are there, the first that is not held enters its subchannel's queue or is answered
(Table 12-2). -/
def Dev.dramRequest (d : Dev) (c s : Nat) : Dev :=
  let here := (d.subOf c s).waiting.filter (fun r => decide (r.due ≤ d.ck))
  let d := if here = [] then d else d.cancelDrain c
  let st := d.chanState c
  match (if st = Ch.retrain then here.find? (fun r => !r.internal) else here.head?) with
  | none => d.callRequest c s false
  | some r =>
    let x := d.subOf c s
    let rest := x.waiting.erase r
    let answer (d : Dev) (resp : Resp) (data : List Byte) : Dev :=
      ((d.setSub c s { d.subOf c s with waiting := rest }).burstAnswered r resp data).callRequest c s true
    let held (d : Dev) : Dev := d.callRequest c s false
    if st = Ch.off ∨ st = Ch.failed then answer (d.err (Pg.drc c) 6 0x0C07) .error []
    else if st = Ch.training then held d
    else if st = Ch.selfRefresh then
      (if d.forced (Dom.dram c) then answer d .error []
       else if d.mode = Mode.sleep.code then
         held (if d.modeTarget.isSome then d else d.schedOnce 0 (.modeRequest 0x80000003#32 false))
       else held (d.schedOnce 0 (.selfRefreshExit (chanOf c))))
    else if st = Ch.retrain then answer d .targetBusy []
    else if (d.drcOf c).drain ≠ .none then held d
    else if d.chanCap c < r.off + 64 then answer (d.err (Pg.drc c) 5 0x0C06) .error []
    else
      match d.cryptGate c r with
      | (d, some (resp, data)) => answer d resp data
      | (d, none) =>
        if 64 ≤ x.queue.length then held d
        else
          let d := d.setSub c s { x with waiting := rest, queue := x.queue ++ [r] }
          (d.schedOnce 0 (.dramDecision (chanOf c) (subOp s) (BitVec.allOnes 64))).callRequest c s true

/-- Requests held at their masters try again to be injected. -/
def Dev.unpark (d : Dev) : Dev :=
  d.nocReqs.foldl (fun (d : Dev) (e : Nat × NocReq) =>
    if e.2.ph = .parked then
      ({ d with nocReqs := sput d.nocReqs e.1 { e.2 with ph := .source } } : Dev).sched 0 (.nocInject e.1 0)
    else d) d

/-- Requests of every subchannel of a channel may go on. -/
def Dev.resumeChannel (d : Dev) (c : Nat) : Dev :=
  [0, 1].foldl (fun (d : Dev) s =>
    let d := d.callRequest c s true
    if (d.subOf c s).queue = [] then d else d.schedOnce 0 (.dramDecision (chanOf c) (subOp s) (BitVec.allOnes 64))) d.unpark

/-! Service (R255 to R257, R265, R286). -/

/-- ⌈x / y⌉. -/
def ceilDiv (x y : Nat) : Nat := (x + y - 1) / y

/-- Service time in CK (R257): extra tCK 0, tRCD, or tRCD + tRP; 19.5 ns with CL, 8.5 ns with CL − 2; tCK = 2,000 / rate ns. -/
def Dev.serviceTime (d : Dev) (c : Nat) (write : Bool) (x : Nat) : Nat :=
  let rate := 3200 + 400 * d.fld (Pg.drc c) F.DRC_CFG_SPEED
  let cl := d.fld (Pg.drc c) F.DRC_TIMING0_CL
  if write then ceilDiv (85 * rate + 10 * (cl - 2 + 8 + x) * 2000) (10 * rate)
  else ceilDiv (195 * rate + 10 * (cl + 8 + x) * 2000) (10 * rate)

/-- The bank of a request, with its rank. -/
def Dev.bankKey (d : Dev) (c off : Nat) : Nat := d.offRank c off * 32 + d.offBank c off

/-- The case a request meets: 0 row hit, 1 closed bank, 2 row conflict, and its extra tCK. -/
def Dev.rowCase (d : Dev) (c s off : Nat) : Nat × Nat :=
  let rcd := d.fld (Pg.drc c) F.DRC_TIMING0_TRCD
  match sfind (d.subOf c s).rows (d.bankKey c off) with
  | none => (1, rcd)
  | some row => if row = d.offRow c off then (0, 0) else (2, rcd + d.fld (Pg.drc c) F.DRC_TIMING0_TRP)

/-- Does a request leave bytes of its burst or block unwritten? -/
def DReq.isPartial (r : DReq) : Bool :=
  match r.wr with
  | some l => l.any (fun o => o.isNone)
  | none => false

/-- Is the request a read-modify-write: a partial write of a seal block, or of a burst but for whole words under the light code and x8
devices (R269, R291)? -/
def Dev.isRmw (d : Dev) (c : Nat) (r : DReq) : Bool :=
  r.isPartial && (d.isSealed c r.off || d.isStrong c r.off || d.x4 c
    || (match r.wr with
        | some l => (List.range (r.span / 8)).any (fun w => (wordEn l w).2 ≠ 0 && (wordEn l w).2 ≠ 8)
        | none => false))

/-- What the code and the crypt unit add to a service time, the metadata misses apart (R265, R286). -/
def Dev.addedCk (d : Dev) (c : Nat) (r : DReq) : Nat :=
  (if d.isStrong c r.off then 1 else 0) + (match d.cryptRange c r.off with
    | some k => match d.rgMode (c / 8) k with | 1 => 2 | 2 => 3 | _ => 0
    | none => 0)

/-- The CK that the metadata pairs a seal block needs take, on its first burst (R286). -/
def Dev.missCk (d : Dev) (c : Nat) (r : DReq) : Nat :=
  match d.cryptRange c r.off with
  | some k =>
    let h := c / 8
    if d.rgMode h k = 0 ∨ r.off ≠ r.base then 0
    else (d.missing h k c ((r.off - d.rgBase h k) / 256)).foldl (fun t p =>
      let x := d.pairOff h k p.1 p.2
      t + d.serviceTime c false (d.rowCase c (offSub x) x).2 + 2) 0
  | none => 0

/-- The CK a request's service takes. -/
def Dev.requestTime (d : Dev) (c s : Nat) (r : DReq) : Nat :=
  let x := (d.rowCase c s r.off).2
  let one := d.addedCk c r
  (if r.wr.isNone then d.serviceTime c false x + one
   else if d.isRmw c r then d.serviceTime c false x + one + (d.serviceTime c true 0 + one)
   else d.serviceTime c true x + one) + d.missCk c r

/-- Is a rank blocked in the CK at hand: by a refresh in progress, or by one that is due (R256)? -/
def Dev.rankBlocked (d : Dev) (c s off : Nat) : Bool :=
  (d.subOf c s).blocked.any (fun b => b.1 = d.offRank c off && decide (d.ck < b.2))
    || d.agenda.any (fun (e : Nat × Instr) => decide (e.1 ≤ d.ck) && (match e.2 with
      | .refresh c' s' rank _ _ => decide (c'.val = c) && decide (s'.val = s) && decide (rank.val = d.offRank c off)
      | _ => false))

/-! The DRAM's timing (R255): the constraints that the TIMING registers hold, and the data bus. Times are in 1/2,000 tCK, so that a CK is
the data rate in MT/s. -/

def Dev.dataRate (d : Dev) (c : Nat) : Nat := 3200 + 400 * d.fld (Pg.drc c) F.DRC_CFG_SPEED
def Dev.tck (d : Dev) (c : Nat) (f : Fld) : Nat := 2000 * d.fld (Pg.drc c) f

/-- The commands of a request decided in this CK: its precharge, its activation, its reads and writes. -/
structure CmdPlan where
  pre : Option Nat
  act : Option Nat
  cols : List (Nat × Bool)

def Dev.cmdPlan (d : Dev) (c s : Nat) (r : DReq) : CmdPlan :=
  let t := d.ck * d.dataRate c
  let rcd := d.tck c F.DRC_TIMING0_TRCD
  let rp := d.tck c F.DRC_TIMING0_TRP
  let kase := (d.rowCase c s r.off).1
  let act := if kase = 0 then none else if kase = 1 then some t else some (t + rp)
  let col := match act with | some a => a + rcd | none => t
  let rmw := d.isRmw c r
  let wrCk := d.ck + d.requestTime c s r - (d.serviceTime c true 0 + d.addedCk c r)
  ⟨if kase = 2 then some t else none, act, (col, r.wr.isSome && !rmw) :: (if rmw then [(wrCk * d.dataRate c, true)] else [])⟩

/-- From a read or write to its first data beat: CL, or CWL. -/
def Dev.colLat (d : Dev) (c : Nat) (wr : Bool) : Nat := d.tck c F.DRC_TIMING0_CL - (if wr then 4000 else 0)

/-- Are two times at least a span apart? -/
def apart (x y n : Nat) : Bool := decide (x + n ≤ y) || decide (y + n ≤ x)

/-- May a bank be activated: tRRD_L to activations of its bank group, at most four of a rank in any tFAW? -/
def Dev.actFits (d : Dev) (c : Nat) (x : DSub) (rank bg t : Nat) : Bool :=
  let mine := (x.acts.filter (fun a => decide (a.rank = rank)))
  let times := mine.map (fun a => a.time)
  let before := (times.filter (fun a => decide (a ≤ t))).mergeSort
  let after := (times.filter (fun a => decide (t < a))).mergeSort
  let all := before ++ [t] ++ after
  (mine.filter (fun a => decide (a.bg = bg))).all (fun a => apart a.time t (d.tck c F.DRC_TIMING1_TRRD_L))
    && (all.zip (all.drop 4)).all (fun p => decide (p.1 + d.tck c F.DRC_TIMING1_TFAW ≤ p.2))

/-- May a read or write be issued: the data bus free, tCCD_L to its like and tWTR_L after a write in its bank group? -/
def Dev.colFits (d : Dev) (c : Nat) (x : DSub) (rank bg t : Nat) (wr : Bool) : Bool :=
  x.cols.all (fun a =>
    apart (a.time + d.colLat c a.wr) (t + d.colLat c wr) 16000
    && (if a.rank = rank ∧ a.bg = bg then
          (if a.wr = wr then apart a.time t (d.tck c F.DRC_TIMING2_TCCD_L)
           else if a.wr then decide (t ≤ a.time) || decide (a.time + d.colLat c true + 16000 + d.tck c F.DRC_TIMING1_TWTR_L ≤ t)
           else decide (a.time ≤ t) || decide (t + d.colLat c true + 16000 + d.tck c F.DRC_TIMING1_TWTR_L ≤ a.time))
        else true))

/-- Do the commands of a request meet the timing? -/
def Dev.timingOk (d : Dev) (c s : Nat) (r : DReq) : Bool :=
  let x := d.subOf c s
  let p := d.cmdPlan c s r
  let b := sget ({} : BankT) x.banks (d.bankKey c r.off)
  let rank := d.offRank c r.off
  let bg := d.offBg c r.off
  (match p.pre with | some t => decide (b.preAt ≤ t) | none => true)
    && (match p.act with | some t => (p.pre.isSome || decide (b.actAt ≤ t)) && d.actFits c x rank bg t | none => true)
    && p.cols.all (fun q => (p.act.isSome || decide (b.colAt ≤ q.1)) && d.colFits c x rank bg q.1 q.2)

/-- A subchannel after the commands of a request, those too old to matter forgotten. -/
def Dev.issued (d : Dev) (c s : Nat) (r : DReq) (x : DSub) : DSub :=
  let p := d.cmdPlan c s r
  let key := d.bankKey c r.off
  let rank := d.offRank c r.off
  let bg := d.offBg c r.off
  let b := sget ({} : BankT) x.banks key
  let b := match p.act with
    | some t => { b with colAt := t + d.tck c F.DRC_TIMING0_TRCD, preAt := t + d.tck c F.DRC_TIMING0_TRAS }
    | none => b
  let pre := p.cols.foldl (fun m q =>
    if q.2 then max m (q.1 + d.colLat c true + 16000 + d.tck c F.DRC_TIMING1_TWR) else max m q.1) b.preAt
  let b := { b with preAt := pre, actAt := if r.close then pre + d.tck c F.DRC_TIMING0_TRP else b.actAt }
  let keep (n : Nat) (l : List DCmd) : List DCmd := l.filter (fun a => decide (d.ck * d.dataRate c ≤ a.time + n))
  { x with banks := sset {} x.banks key b
           acts := keep 512000 x.acts ++ (match p.act with | some t => [⟨t, rank, bg, false⟩] | none => [])
           cols := keep 800000 x.cols ++ p.cols.map (fun q => ⟨q.1, rank, bg, q.2⟩) }

/-- Is a request kept back by one in service: another of the same 64 bytes that would end after it, or a read-modify-write of its bank
between its read and its write, the scrubber's among them (R255, R269, R271)? -/
def Dev.barred (d : Dev) (c s : Nat) (r : DReq) : Bool :=
  (match (d.subOf c s).scrub with
    | some (off, wr, z) => (decide (off = r.off) && decide (d.ck < z)) || (decide (d.bankKey c off = d.bankKey c r.off) && decide (d.ck < wr))
    | none => false)
  || (d.subOf c s).serving.any (fun e =>
    (e.2.off = r.off && decide (d.ck + d.requestTime c s r < e.1))
    || (d.isRmw c e.2 && d.bankKey c e.2.off = d.bankKey c r.off && decide (d.ck + d.serviceTime c true 0 + d.addedCk c e.2 < e.1)))

/-- May the request at a queue position be issued: its commands meet the DRAM's timing (that of the TIMING registers here; `ok` tells what
else JESD79-5 asks), its rank is not blocked, no older request wants the same 64 bytes (R255)? -/
def Dev.selectable (d : Dev) (c s : Nat) (ok : BitVec 64) (p : Nat × DReq) : Bool :=
  ok.getLsbD p.1 && !d.rankBlocked c s p.2.off && !d.barred c s p.2 && d.timingOk c s p.2
    && ((d.subOf c s).queue.take p.1).all (fun q => decide (q.off ≠ p.2.off))

/-- A request's bursts on its channel's data buses (Table 12-6). -/
def Dev.countBursts (d : Dev) (c n : Nat) : Dev := d.setDrc c { d.drcOf c with bursts := (d.drcOf c).bursts + n }

/-- DRAM_DECISION (R255, R257): promoted requests first, then row hits, then the oldest. -/
def Dev.dramDecision (d : Dev) (c s : Nat) (ok : BitVec 64) : Dev :=
  let x := d.subOf c s
  let again (d : Dev) : Dev :=
    if (d.subOf c s).queue = [] then d else d.schedOnce 1 (.dramDecision (chanOf c) (subOp s) (BitVec.allOnes 64))
  if d.chanState c ≠ Ch.online then d
  else
    let can : List (Nat × DReq) := ((List.range x.queue.length).zip x.queue).filter (d.selectable c s ok)
    let pick : Option (Nat × DReq) := match can.find? (fun (p : Nat × DReq) => decide (64 ≤ p.2.age)) with
      | some p => some p
      | none => match can.find? (fun (p : Nat × DReq) => (d.rowCase c s p.2.off).1 = 0) with
        | some p => some p
        | none => can.head?
    match pick with
    | none => again d
    | some (i, r) =>
      let t := d.requestTime c s r
      let kase := (d.rowCase c s r.off).1
      let pg := Pg.drc c
      let x := d.issued c s r x
      let bursts := if d.isRmw c r then 2 else 1
      let d := (d.bump pg (if kase = 0 then F.DRC_HIT_CNT else if kase = 1 then F.DRC_CLOSED_CNT else F.DRC_CONFLICT_CNT)).countBursts c bursts
      let d := d.setFld pg F.DRC_MAXWAIT_DECISIONS (max (d.fld pg F.DRC_MAXWAIT_DECISIONS) (min 127 r.age))
      let rest := (x.queue.eraseIdx i).map (fun (q : DReq) => ({ q with age := q.age + 1 } : DReq))
      let d := d.bumpBy pg F.DRC_PROMOTE_CNT (rest.countP (fun (q : DReq) => q.age = 64))
      let rows := if r.close then serase x.rows (d.bankKey c r.off) else sput x.rows (d.bankKey c r.off) (d.offRow c r.off)
      let d := d.setSub c s { x with queue := rest, rows := rows, serving := x.serving ++ [(d.ck + t, r)] }
      again ((d.sched t (.dramServiceDone (chanOf c) (subOp s) 0#640 none)).callRequest c s true)

/-- Nothing of the channel is queued or in service. -/
def Dev.chanIdle (d : Dev) (c : Nat) : Bool := [0, 1].all (fun s => (d.subOf c s).queue = [] && (d.subOf c s).serving = [])

/-- A draining channel whose queues are served goes on: to RETRAIN, or to self-refresh 96 CK later and after any refresh that
blocks a rank (R250, R259). -/
def Dev.drainCheck (d : Dev) (c : Nat) : Dev :=
  if ¬ d.chanIdle c then d
  else match (d.drcOf c).drain with
    | .none => d
    | .retrain => d.schedOnce 0 (.retrainStart (chanOf c))
    | .selfRefresh =>
      if (d.drcOf c).srDue then d
      else
        let d := d.writeBackChannel c
        let till := ([0, 1].map (fun s => ((d.subOf c s).blocked.map Prod.snd).foldl max 0)).foldl max d.ck
        (d.setDrc c { d.drcOf c with srDue := true }).schedOnce (till - d.ck + 96) (.selfRefreshDone (chanOf c))

/-- What a part does to memory where nothing is sealed: its bursts through MEMI. -/
def Dev.servePlain (d : Dev) (c : Nat) (r : DReq) (err : BitVec 2560) : Dev × List Byte × Bool × Resp :=
  (List.range (r.span / 64)).foldl (fun (a : Dev × List Byte × Bool × Resp) b =>
    let off := r.base + 64 * b
    let e := (err >>> (640 * b)).truncate 640
    match r.wr with
    | none => let m := a.1.memiRead c off e r.reader
              (m.1, a.2.1 ++ leBytes 64 m.2.1.toNat, a.2.2.1 || m.2.2, a.2.2.2)
    | some l =>
      let w := (l.drop (64 * b)).take 64
      if w.all (fun o => o.isNone) then a
      else
        let m := a.1.memiPartial c off w r.poison e r.reader
        (m.1, [], false, if m.2 then .error else a.2.2.2)) (d, [], false, .ok)

/-- What a part does to memory in a sealing range: its block through the crypt unit. -/
def Dev.serveSealed (d : Dev) (k c : Nat) (r : DReq) (err : BitVec 2560) (badAt : Option Nat) : Dev × List Byte × Bool × Resp :=
  let h := c / 8
  let x := r.base / 256 * 256
  let skip := r.base - x
  let e := err <<< (640 * (skip / 64))
  match r.wr with
  | none => let m := d.sealedRead h k c x (d.rights h k r.cls) e badAt r.reader
            (m.1, (m.2.1.drop skip).take r.span, m.2.2, .ok)
  | some l =>
    let w := List.replicate skip none ++ l ++ List.replicate (256 - skip - l.length) none
    let m := if w.all (fun o => o.isSome) then d.sealedWrite h k c x (w.map (fun o => o.getD 0#8)) r.poison badAt
      else d.sealedPartial h k c x w r.poison e badAt r.reader
    (m.1, [], false, if m.2 then .error else .ok)

/-- What a part does to memory. -/
def Dev.serve (d : Dev) (c : Nat) (r : DReq) (err : BitVec 2560) (badAt : Option Nat) : Dev × List Byte × Bool × Resp :=
  match d.cryptRange c r.base with
  | some k => if d.rgMode (c / 8) k = 0 then d.servePlain c r err else d.serveSealed k c r err badAt
  | none => d.servePlain c r err

/-- A part is served. -/
def Dev.servePart (d : Dev) (c : Nat) (r : DReq) (err : BitVec 2560) (badAt : Option Nat) : Dev :=
  let m := d.serve c r err badAt
  m.1.partDone r m.2.1 m.2.2.1 m.2.2.2

/-- A burst of a seal block has been served: the block is once its four bursts are, unless one of them was answered without service. -/
def Dev.serveBurst (d : Dev) (c : Nat) (r : DReq) (err : BitVec 640) (badAt : Option Nat) : Dev :=
  match sfind d.dtx r.tx with
  | none => d
  | some t =>
    let x := sget ({} : PartAcc) t.acc r.part
    let x := { x with done := x.done + 1, err := x.err ||| (err.setWidth 2560 <<< (640 * ((r.off - r.base) / 64)))
                      badAt := if x.badAt.isSome then x.badAt else badAt }
    let d := { d with dtx := sput d.dtx r.tx { t with acc := sset {} t.acc r.part x } }
    if x.done ≠ r.span / 64 then d
    else if x.resp = .ok then d.servePart c r x.err x.badAt
    else d.partDone r x.data false x.resp

/-- Is a service of subchannel A due in this CK, which logs before one of subchannel B (R274)? -/
def Dev.afterA (d : Dev) (c s : Nat) : Bool :=
  s = 1 && d.agenda.any (fun (e : Nat × Instr) => decide (e.1 ≤ d.ck) && (match e.2 with
    | .dramServiceDone c' s' _ _ => decide (c'.val = c) && decide (s'.val = 0)
    | _ => false))

/-- DRAM_SERVICE_DONE (R257): the request whose service ends first is done; `err` are the bit errors that struck its burst,
`badAt` the level of a metadata pair that read uncorrectable. -/
def Dev.dramServiceDone (d : Dev) (c s : Nat) (err : BitVec 640) (badAt : Option Nat) : Dev :=
  let x := d.subOf c s
  match (x.serving.map Prod.fst).min? with
  | none => d
  | some t =>
    match x.serving.find? (fun e => decide (e.1 = t)) with
    | none => d
    | some e =>
      let d := d.setSub c s { x with serving := x.serving.erase e }
      (if e.2.span = 64 then d.servePart c e.2 (err.setWidth 2560) badAt else d.serveBurst c e.2 err badAt).drainCheck c

/-! The scrubber (R271, R272). -/

/-- SCRUB_READ (R271, R272): the burst at the scrub position is read in an idle decision; the position moves on, past retired rows and
banks without a read; a lap ends at the highest scrubbed offset. A read-modify-write of the scrubber holds its bank as R269 says. -/
def Dev.scrubRead (d : Dev) (c : Nat) (err : BitVec 640) : Dev :=
  let pg := Pg.memi c
  let spans := d.scrubSpans c
  let pos := d.fld pg F.MEMI_SCRUB_POS * 64
  match nextScrub spans pos with
  | none => d.setFld pg F.MEMI_STAT_SCRUB_RUN 0
  | some off =>
    let s := offSub off
    let sub := d.subOf c s
    let skip := d.retired c off
    let busy := d.rankBlocked c s off || (match sub.scrub with | some (_, _, z) => decide (d.ck < z) | none => false)
    if d.chanState c ≠ Ch.online ∨ ¬ d.flag pg F.MEMI_CTRL_SCRUB_EN then d
    else if ¬ skip ∧ (sub.queue ≠ [] ∨ busy ∨ (sub.lastScrub ≠ 0 ∧ d.ck < sub.lastScrub + d.fld pg F.MEMI_SCRUB_INTERVAL_CK)) then d
    else
      let d := d.setFld pg F.MEMI_STAT_SCRUB_RUN 1
      let d := if (d.memiOf c).lapCk = 0 then d.setMemi c { d.memiOf c with lapCk := d.ck } else d
      let d :=
        if skip then d
        else
          let one := if d.isStrong c off then 1 else 0
          let wr := d.ck + d.serviceTime c false (d.rowCase c s off).2 + one
          let mine : DSub := { sub with lastScrub := d.ck }
          let held : DSub := { mine with scrub := some (off, wr, wr + d.serviceTime c true 0 + one) }
          let (d, x) := d.strike c off err
          match d.decodeAt c off x with
          | .clean => d.setSub c s mine
          | .corrected y cls p =>
            (((d.bump pg F.MEMI_CORR_CNT).memiLog c off cls p 0).bump pg F.MEMI_RMW_CNT).memiStore c off y false |>.setSub c s held
          | .poison => (d.bump pg F.MEMI_SCRUB_SKIP_CNT).setSub c s mine
          | .bad => ((((d.memiStore c off x.data true).memiLog c off 5 0 0).err pg 1 0x0D02).pend pg 1).setSub c s held
      match nextScrub spans (off + 64) with
      | some n => d.setFld pg F.MEMI_SCRUB_POS (n / 64)
      | none =>
        let ms := (d.ck - (d.memiOf c).lapCk) / 1000000
        let d := d.setMemi c { d.memiOf c with lapCk := d.ck }
        let d := (d.setFld pg F.MEMI_SCRUB_LAP ms).setFld pg F.MEMI_SCRUB_POS ((nextScrub spans 0).getD 0 / 64)
        d.pend pg 5

/-! Training (R246, R248, R249, R250). -/

/-- Does the channel's page hold a supported organisation and timing (R246, Table 12-6)? -/
def Dev.drcConfigOk (d : Dev) (c : Nat) : Bool :=
  let f (x : Fld) : Nat := d.fld (Pg.drc c) x
  decide (f F.DRC_CFG_SPEED ≤ 8) && f F.DRC_CFG_DENS ≠ 3
    && decide (22 ≤ f F.DRC_TIMING0_CL) && decide (f F.DRC_TIMING0_CL ≤ 64)
    && decide (1 ≤ f F.DRC_TIMING0_TRCD) && decide (f F.DRC_TIMING0_TRCD ≤ 64)
    && decide (1 ≤ f F.DRC_TIMING0_TRP) && decide (f F.DRC_TIMING0_TRP ≤ 64)
    && [F.DRC_TIMING0_TRAS, F.DRC_TIMING1_TWR, F.DRC_TIMING1_TWTR_L, F.DRC_TIMING1_TRRD_L, F.DRC_TIMING1_TFAW,
        F.DRC_TIMING2_TRFC, F.DRC_TIMING2_TCCD_L].all (fun x => decide (1 ≤ f x))

/-- The startup release waits for the end of training (R331). -/
def Dev.trainingEnded (d : Dev) : Dev := if d.cfg.done then d.schedOnce 0 .endCmd else d

/-- CK of a training or retrain (R248, R250). -/
def trainCks : Nat := 2097152

/-- A training runs from this CK (R248, R250). -/
def Dev.trainBegins (d : Dev) (c : Nat) (re : Bool) : Dev :=
  let base : SMap Nat := (List.range 16).foldl (fun m k => sset 0 m k (d.drcOf k).bursts) []
  let i := Instr.dramTrainingDone (chanOf c) [] [] []
  let d := d.setDrc c { d.drcOf c with drain := .none, retraining := re, trainCk := d.ck, trainBase := base }
  ({ d with agenda := agendaDrop i d.agenda } : Dev).sched trainCks i

/-- LOAD of Table 12-6: mean use of the other channels' data buses while a training ran, in percent. A burst takes 8 tCK of one of a
channel's two buses. -/
def Dev.trainLoad (d : Dev) (c : Nat) : Nat :=
  let sum := ((List.range 16).filter (fun k => decide (k ≠ c))).foldl (fun n k =>
    n + ((d.drcOf k).bursts - sget 0 (d.drcOf c).trainBase k) * 8 * 2000 * 100000 / d.dataRate k) 0
  sum / (15 * 2 * trainCks * 1000)

/-- TEMP of Table 12-6: the highest bay sensor of the channel's half, in whole °C. -/
def Dev.trainTemp (d : Dev) (c : Nat) : Int :=
  let t (b : Nat) : Int := (BitVec.ofNat 16 (d.fld Pg.therm (F.THERM_BAY_TEMP b))).toInt / 4
  let l := ((List.range 6).map (fun i => 6 * (c / 8) + i)).filter (fun b => d.flag Pg.therm (F.THERM_BAY_VALID b))
  match l with
  | [] => 0
  | b :: r => r.foldl (fun m x => max m (t x)) (t b)

/-- An enabled channel starts training once the supplies are within limits; an invalid page makes it FAILED (R246, R248). -/
def Dev.trainStart (d : Dev) (c : Nat) : Dev :=
  if d.chanState c ≠ Ch.off ∨ ¬ d.flag (Pg.drc c) F.DRC_CTRL_EN ∨ d.mode = Mode.blank.code ∨ d.mode = Mode.faulted.code
      ∨ ¬ d.dramSupplyOk then d
  else if ¬ d.drcConfigOk c then ((d.setChanState c Ch.failed).err (Pg.drc c) 4 0x0C05).trainingEnded
  else (d.setChanState c Ch.training).trainBegins c false

/-- Refresh of a rank comes round (R258). -/
def Dev.hot (d : Dev) (c s : Nat) : Bool := d.flag (Pg.drc c) (if s = 0 then F.DRC_STAT_HOT_A else F.DRC_STAT_HOT_B)
def Dev.refreshInterval (d : Dev) (c s : Nat) : Nat := if d.hot c s then 1950 else 3900

/-- Refresh and MR4 reads start to run, counted from this CK (R258, R259). -/
def Dev.startRefresh (d : Dev) (c : Nat) : Dev :=
  let d := [(0 : Fin 2), 1].foldl (fun d s =>
    let t := d.refreshInterval c s.val
    d.schedOnce t (.refresh (chanOf c) s 0 0 0)) d
  d.schedOnce 32000000 (.mr4Read (chanOf c) (BitVec.ofNat 16 (d.reg (Pg.drc c) 0x130).toNat) 0 0)

/-- Is an event a refresh or an MR4 read of the channel? -/
def isRefreshOf (c : Nat) : Instr → Bool
  | .refresh c' _ _ _ _ => decide (c' = chanOf c)
  | .mr4Read c' _ _ _ => decide (c' = chanOf c)
  | _ => false

/-- Refresh and MR4 reads stop. -/
def Dev.stopRefresh (d : Dev) (c : Nat) : Dev :=
  { d with agenda := d.agenda.filter (fun (e : Nat × Instr) => !isRefreshOf c e.2) }

/-- A margin that a sweep found for strobe group `g`; one the event does not bring is free. -/
def foundMargin (free : Word) (lo : Nat) (l : List Byte) (g : Nat) : Nat := (l[g]?).elim (bitsOf free.toNat lo 8) (fun b => b.toNat)

/-- The trained word of strobe group `g` in LANE_TRAIN's layout (Table 12-6): of a group's delays the read one is the low byte. -/
def trainedWord (free : Word) (delays : List (BitVec 16)) (reads writes : List Byte) (g : Nat) : Word :=
  let rd := (delays[g]?).elim (bitsOf free.toNat 0 8) (fun x => bitsOf x.toNat 0 8)
  let wr := (delays[g]?).elim (bitsOf free.toNat 16 8) (fun x => bitsOf x.toNat 8 8)
  BitVec.ofNat 32 (rd + 2 ^ 8 * foundMargin free 8 reads g + 2 ^ 16 * wr + 2 ^ 24 * foundMargin free 24 writes g)

/-- DRAM_TRAINING_DONE (R248, R249): the delays and the read and write margins that the sweeps found for the strobe groups in order; a
training ends when its 2,097,152 CK are over, and what is brought before then stands for it. -/
def Dev.dramTrainingDone (d : Dev) (c : Nat) (delays : List (BitVec 16)) (reads writes : List Byte) : Dev :=
  let st := d.chanState c
  let x := d.drcOf c
  if st ≠ Ch.training ∧ st ≠ Ch.retrain then d
  else if d.ck < x.trainCk + trainCks then d.sched (x.trainCk + trainCks - d.ck) (.dramTrainingDone (chanOf c) delays reads writes)
  else
    let pg := Pg.drc c
    let used := (List.range 20).filter (fun g => d.x4 c || decide (g % 10 < 5))
    let free (g : Nat) : Word := Config.trainWord c g x.trainCk
    let gs : SMap TrainGrp := used.foldl (fun m g => sset ({} : TrainGrp) m g { word := trainedWord (free g) delays reads writes g }) []
    let d := d.setDrc c { x with drain := .none, groups := gs, tracks := [] }
    let d := d.setReg pg 0x12C (BitVec.ofNat 32 ((BitVec.ofInt 8 (d.trainTemp c)).toNat + 256 * min 100 (d.trainLoad c) + 2 ^ 15 * b01 (st = Ch.retrain)))
    let d := d.setFld pg F.DRC_STAT_DRIFT 0
    let eye := d.fld pg F.DRC_TRACK_MIN_EYE
    let narrow := used.any (fun g => decide (foundMargin (free g) 8 reads g < eye) || decide (foundMargin (free g) 24 writes g < eye))
    let d := d.trainingEnded
    if narrow then ((d.setChanState c Ch.failed).err pg 0 0x0C01 |>.pend pg 1) |>.resumeChannel c
    else
      let d := (d.setChanState c Ch.online).pend pg 0
      (if st = Ch.training then d.startRefresh c else d).resumeChannel c

/-- RETRAIN_WRITE (R250). -/
def Dev.retrainWrite (d : Dev) (c : Nat) : Dev :=
  if d.chanState c ≠ Ch.online ∨ (d.drcOf c).drain = .selfRefresh then d.err (Pg.drc c) 1 0x0C02
  else (d.setDrc c { d.drcOf c with drain := .retrain, retrainCk := some d.ck }).drainCheck c

/-- RETRAIN_START (R250): the queues are served. -/
def Dev.retrainStart (d : Dev) (c : Nat) : Dev :=
  if (d.drcOf c).drain ≠ .retrain ∨ ¬ d.chanIdle c then d
  else ((d.setChanState c Ch.retrain).trainBegins c true).resumeChannel c

/-! Refresh, tracking, temperature (R251, R252, R258). -/

/-- A tracking step: the drift that results, whether it moved, whether the limit stopped it. -/
def trackStep (drift : Int) (mv : Nat) (limit : Nat) : Int × Bool × Bool :=
  let n := if mv = 1 then drift + 1 else if mv = 2 then drift - 1 else drift
  if mv = 0 then (drift, false, false)
  else if n.natAbs ≤ max 1 limit then (n, true, false) else (drift, false, true)

/-- One strobe group is tracked (R251, R252): `rd` and `wr` tell the step the probes call for. -/
def Dev.trackGroup (d : Dev) (c g rd wr : Nat) : Dev :=
  let pg := Pg.drc c
  let x := sget ({} : TrainGrp) (d.drcOf c).groups g
  let lim := d.fld pg F.DRC_TRACK_LIMIT
  let (r, rm, rl) := trackStep x.rd rd lim
  let (w, wm, wl) := trackStep x.wr wr lim
  let rf := decide (bitsOf x.word.toNat 8 8 < 2 * r.natAbs)
  let wf := decide (bitsOf x.word.toNat 24 8 < 2 * w.natAbs)
  let y := { x with rd := r, wr := w, rdFlag := x.rdFlag || rf, wrFlag := x.wrFlag || wf }
  let d := d.setDrc c { d.drcOf c with groups := sset {} (d.drcOf c).groups g y }
  let d := d.bumpBy pg F.DRC_CORR_CNT (b01 rm + b01 wm)
  let news := b01 (rf && !x.rdFlag) + b01 (wf && !x.wrFlag)
  let d := if news = 0 then d else ((d.setFld pg F.DRC_STAT_DRIFT 1).bumpBy pg F.DRC_DRIFT_CNT news).pend pg 2
  if rl ∨ wl then (d.err pg 2 0x0C03).pend pg 4 else d

/-- REFRESH (R251, R258): a rank is refreshed and blocked for tRFC, plus 48 CK with one group of its subchannel tracked while TRACK_EN
is 1; the group's delays move at the end. The refresh of a subchannel's first rank sets the interval and the second rank's offset anew
(DESIGN CHOICE, log entry 25: R258 has the interval change at the subchannel's next refresh). -/
def Dev.refresh (d : Dev) (c s rank rd wr : Nat) : Dev :=
  let st := d.chanState c
  if (st ≠ Ch.online ∧ st ≠ Ch.retrain) ∨ d.ranks c ≤ rank then d
  else
    let pg := Pg.drc c
    let x := d.subOf c s
    let track := d.flag pg F.DRC_TRACK_EN
    let till := d.ck + d.fld pg F.DRC_TIMING2_TRFC + (if track then 48 else 0)
    let d := d.setSub c s { x with blocked := (rank, till) :: x.blocked.filter (fun b => decide (b.1 ≠ rank)),
                                   rows := x.rows.filter (fun e => decide (e.1 / 32 ≠ rank)),
                                   banks := x.banks.filter (fun e => decide (e.1 / 32 ≠ rank)) }
    let d := if track then
        let n := if d.x4 c then 10 else 5
        let y := d.drcOf c
        let t := sget 0 y.turn s
        d.setDrc c { y with turn := sset 0 y.turn s ((t + 1) % n), tracks := y.tracks ++ [(till, 10 * s + t % n, rd, wr)] }
      else d
    let t := d.refreshInterval c s
    if rank ≠ 0 then d
    else
      let d := d.schedOnce t (.refresh (chanOf c) (subOp s) 0 0 0)
      if d.ranks c = 2 then d.schedOnce (t / 2) (.refresh (chanOf c) (subOp s) 1 0 0) else d

/-- Moves of strobe groups whose refresh ends in this CK (R251). -/
def Dev.tracksDue (d : Dev) : Dev :=
  d.drcs.foldl (fun (d : Dev) e =>
    let now := e.2.tracks.filter (fun q => decide (q.1 ≤ d.ck))
    if now = [] then d
    else now.foldl (fun (d : Dev) q => d.trackGroup e.1 q.2.1 q.2.2.1 q.2.2.2)
      (d.setDrc e.1 { d.drcOf e.1 with tracks := e.2.tracks.filter (fun q => decide (d.ck < q.1)) })) d

/-- THERM_STAT_DRAM_OVER shows whether a channel's last MR4 read was above the range (R443). -/
def Dev.dramOver (d : Dev) : Dev :=
  let any := d.drcs.any (fun (e : Nat × DrcSt) => e.2.excess)
  if any ∧ ¬ d.flag Pg.therm F.THERM_STAT_DRAM_OVER then (d.setFld Pg.therm F.THERM_STAT_DRAM_OVER 1).pend Pg.therm 3
  else if any then d
  else d.setFld Pg.therm F.THERM_STAT_DRAM_OVER 0

/-- MR4_READ (R258): the refresh-rate codes of the ranks (bits as DRCc_MR4), which of them are hot, which are beyond the DRAM's
range. -/
def Dev.mr4Read (d : Dev) (c : Nat) (codes : BitVec 16) (hot excess : BitVec 4) : Dev :=
  let st := d.chanState c
  if st ≠ Ch.online ∧ st ≠ Ch.retrain then d
  else
    let pg := Pg.drc c
    let live (k : Nat) : Bool := k % 2 = 0 || d.ranks c = 2
    let d := d.setReg pg 0x130 (BitVec.ofNat 32 codes.toNat)
    let d := [0, 1].foldl (fun d s =>
      let f := if s = 0 then F.DRC_STAT_HOT_A else F.DRC_STAT_HOT_B
      let isHot := [2 * s, 2 * s + 1].any (fun k => live k && (hot.getLsbD k || excess.getLsbD k))
      let d := if isHot ∧ ¬ d.flag pg f then (d.bump pg F.DRC_HOT_CNT).pend pg 3 else d
      d.setFld pg f (b01 isHot)) d
    let isOver := [0, 1, 2, 3].any (fun k => live k && excess.getLsbD k)
    let d := d.setDrc c { d.drcOf c with excess := isOver }
    let d := if isOver then (d.err pg 3 0x0C04).dramOver else d.dramOver
    d.schedOnce 32000000 (.mr4Read (chanOf c) codes hot excess)

/-! Self-refresh (R259). -/

/-- A RETRAIN accepted in this CK is refused after all (R250). -/
def Dev.retrainUndone (d : Dev) (c : Nat) : Dev :=
  let d : Dev := { d with agenda := (d.agenda.filter (fun e => !decide (e.2 = .retrainStart (chanOf c)) && !sameEvent e.2 (.dramTrainingDone (chanOf c) [] [] []))) }
  ((d.setDrc c { d.drcOf c with drain := .none, retrainCk := none }).setChanState c Ch.online).err (Pg.drc c) 1 0x0C02

/-- SELF_REFRESH_ENTRY: an ONLINE channel stops taking requests; a RETRAIN of the same CK is refused, one under way goes first. -/
def Dev.selfRefreshEntry (d : Dev) (c : Nat) : Dev :=
  let d := if (d.drcOf c).retrainCk = some d.ck ∧ ((d.drcOf c).drain = .retrain ∨ d.chanState c = Ch.retrain) then d.retrainUndone c else d
  if d.chanState c ≠ Ch.online ∨ (d.drcOf c).drain ≠ .none then d
  else (d.setDrc c { d.drcOf c with drain := .selfRefresh, srDue := false }).drainCheck c

/-- SELF_REFRESH_DONE: the clocks stop. -/
def Dev.selfRefreshDone (d : Dev) (c : Nat) : Dev :=
  if (d.drcOf c).drain ≠ .selfRefresh ∨ ¬ d.chanIdle c ∨ d.chanState c ≠ Ch.online then d
  else
    let d := (d.setChanState c Ch.selfRefresh).bump (Pg.drc c) F.DRC_SR_CNT
    let d := d.setDrc c { d.drcOf c with drain := .none, srDue := false, exiting := false }
    let d := [0, 1].foldl (fun d s => d.setSub c s { d.subOf c s with rows := [], banks := [], blocked := [] }) d
    (d.stopRefresh c).resumeChannel c

/-- SELF_REFRESH_EXIT_DONE. -/
def Dev.selfRefreshExitDone (d : Dev) (c : Nat) : Dev :=
  if d.chanState c ≠ Ch.selfRefresh ∨ ¬ (d.drcOf c).exiting then d
  else (((d.setChanState c Ch.online).setDrc c { d.drcOf c with exiting := false }).startRefresh c).resumeChannel c

/-! The commands. -/

/-- SCRUB_READ (R272). -/
def execScrubRead (c : Fin 16) (err : BitVec 640) (s : State) : Host.Outcome State Fault Refusal :=
  s.run (.scrubRead c err) (fun d => d.scrubRead c.val err)

/-- DRAM_TRAINING_DONE (R249). -/
def execDramTrainingDone (c : Fin 16) (delays : List (BitVec 16)) (reads writes : List Byte) (s : State) : Host.Outcome State Fault Refusal :=
  s.run (.dramTrainingDone c delays reads writes) (fun d => d.dramTrainingDone c.val delays reads writes)

/-- RETRAIN_START (R250). -/
def execRetrainStart (c : Fin 16) (s : State) : Host.Outcome State Fault Refusal :=
  s.run (.retrainStart c) (fun d => d.retrainStart c.val)

/-- DRAM_REQUEST (R255). -/
def execDramRequest (c : Fin 16) (sub : Fin 2) (s : State) : Host.Outcome State Fault Refusal :=
  s.run (.dramRequest c sub) (fun d => d.dramRequest c.val sub.val)

/-- DRAM_DECISION (R255). -/
def execDramDecision (c : Fin 16) (sub : Fin 2) (ok : BitVec 64) (s : State) : Host.Outcome State Fault Refusal :=
  s.run (.dramDecision c sub ok) (fun d => d.dramDecision c.val sub.val ok)

/-- DRAM_SERVICE_DONE (R257). -/
def execDramServiceDone (c : Fin 16) (sub : Fin 2) (err : BitVec 640) (badAt : Option (Fin 13)) (s : State) : Host.Outcome State Fault Refusal :=
  s.run (.dramServiceDone c sub err badAt) (fun d =>
    if d.afterA c.val sub.val then d.sched 0 (.dramServiceDone c sub err badAt)
    else d.dramServiceDone c.val sub.val err (badAt.map (fun m => m.val)))

/-- REFRESH (R258). -/
def execRefresh (c : Fin 16) (sub : Fin 2) (rank : Fin 2) (rd : Fin 3) (wr : Fin 3) (s : State) : Host.Outcome State Fault Refusal :=
  s.run (.refresh c sub rank rd wr) (fun d => d.refresh c.val sub.val rank.val rd.val wr.val)

/-- MR4_READ (R258). -/
def execMr4Read (c : Fin 16) (codes : BitVec 16) (hot : BitVec 4) (excess : BitVec 4) (s : State) : Host.Outcome State Fault Refusal :=
  s.run (.mr4Read c codes hot excess) (fun d => d.mr4Read c.val codes hot excess)

/-- SELF_REFRESH_ENTRY (R259). -/
def execSelfRefreshEntry (c : Fin 16) (s : State) : Host.Outcome State Fault Refusal :=
  s.run (.selfRefreshEntry c) (fun d => d.selfRefreshEntry c.val)

/-- SELF_REFRESH_DONE (R259). -/
def execSelfRefreshDone (c : Fin 16) (s : State) : Host.Outcome State Fault Refusal :=
  s.run (.selfRefreshDone c) (fun d => d.selfRefreshDone c.val)

/-- SELF_REFRESH_EXIT (R259). -/
def execSelfRefreshExit (c : Fin 16) (s : State) : Host.Outcome State Fault Refusal :=
  s.run (.selfRefreshExit c) (fun d => if d.forced (Dom.dram c.val) then d else d.selfRefreshExit c.val)

/-- SELF_REFRESH_EXIT_DONE (R259). -/
def execSelfRefreshExitDone (c : Fin 16) (s : State) : Host.Outcome State Fault Refusal :=
  s.run (.selfRefreshExitDone c) (fun d => d.selfRefreshExitDone c.val)

end Sys2Proof.Machine
end

