-- ==== Sys2Proof/Machine/Ocm.lean ====
section
/-! DEFINITION. On-chip memories: what a read that meets a bad word counts (R276, R277). -/

namespace Sys2Proof.Machine

/-! Classes of Table 13-8. -/

namespace Oc
def queue : Nat := 0
def imem : Nat := 1
def scratch : Nat := 2
def bay : Nat := 3
def gecko : Nat := 4
def stim : Nat := 5
def index : Nat := 6
def noc : Nat := 7
end Oc

/-- A word of a class read corrected (1) or uncorrectable (2), as the surroundings tell; 0 reads clean. -/
def Dev.ocm (d : Dev) (m : Nat) (k : Nat) : Dev :=
  if k = 1 then (d.bump Pg.dev (F.DEV_OCM_CORR m)).sched 1 (.ocmWriteBack (if h : m < 8 then ⟨m, h⟩ else 0))
  else if k = 2 then (d.bump Pg.dev (F.DEV_OCM_UNC m)).err Pg.dev 2 0x0D20
  else d

/-- OCM_WRITE_BACK (R276): the corrected word goes back into its memory; what it reads does not change. -/
def Dev.ocmWriteBack (d : Dev) (_m : Nat) : Dev := d

/-! The commands. -/

/-- OCM_WRITE_BACK (R276). -/
def execOcmWriteBack (m : Fin 8) (s : State) : Host.Outcome State Fault Refusal :=
  s.run (.ocmWriteBack m) (fun d => d.ocmWriteBack m.val)

end Sys2Proof.Machine
end

