-- ==== Sys2Proof/Machine/EngBase.lean ====
section
/-! DEFINITION. Engines as placement and the capture queue see them: states, served flows, context slots (R136, R139, R144,
R145). -/

namespace Sys2Proof.Machine

/-! Engine states (Table 7-2). -/

namespace Es
def off : Nat := 0
def run : Nat := 1
def wait : Nat := 2
def trap : Nat := 3
def halted : Nat := 4
def monitor : Nat := 5
def stopping : Nat := 6
end Es

/-- An engine beyond its registers. -/
def Dev.engOf (d : Dev) (e : Nat) : EngSt := sget {} d.engs e
def Dev.setEng (d : Dev) (e : Nat) (x : EngSt) : Dev := { d with engs := sset {} d.engs e x }

/-- The page of an engine: NEWTn, or GECKOk from 192 up. -/
def Pg.eng (e : Nat) : Nat := if e < 192 then Pg.newt e else Pg.gecko (e - 192)

/-- NEWTn_STAT_STATE. -/
def Dev.engState (d : Dev) (e : Nat) : Nat := d.fld (Pg.newt e) F.NEWT_STAT_STATE

/-- The half of an engine (R136). -/
def engHalf (e : Nat) : Nat := e / 96

/-- An engine as an operand. -/
def engOp (e : Nat) : Fin 192 := if h : e < 192 then ⟨e, h⟩ else 0

/-- A flow as an operand. -/
def flowOp (f : Nat) : Fin 4096 := if h : f < 4096 then ⟨f, h⟩ else 0

/-- Placement gives flows only to engines that are RUN, WAIT or TRAP (R145). -/
def Dev.engRuns (d : Dev) (e : Nat) : Bool :=
  let s := d.engState e
  s = Es.run || s = Es.wait || s = Es.trap

/-- Flows an engine serves, with those on their way to it (R139, R152). -/
def Dev.served (d : Dev) (e : Nat) : Nat :=
  (d.engOf e).slots.length + d.handovers.countP (fun (x : Nat × Handover) => x.2.dst = e && decide (x.2.phase < 2))

/-- The engine serves these flows from now on. -/
def Dev.setSlots (d : Dev) (e : Nat) (l : SMap Nat) : Dev :=
  (d.setEng e { d.engOf e with slots := l }).setFld (Pg.newt e) F.NEWT_STAT_SLOTS l.length

/-- The lowest context slot no flow holds. -/
def Dev.freeCtxSlot (d : Dev) (e : Nat) : Nat :=
  match (List.range 64).find? (fun k => !(d.engOf e).slots.any (fun (x : Nat × Nat) => x.2 = k)) with
  | some k => k
  | none => 0

/-- The first byte of a context slot. -/
def ctxAddr (e slot : Nat) : Nat := e * 16384 + slot * 256

/-- A slot of zeros. -/
def Dev.zeroSlot (d : Dev) (e slot : Nat) : Dev :=
  let a := ctxAddr e slot
  { d with ctx := d.ctx.filter (fun (x : Nat × Byte) => decide (x.1 < a ∨ a + 256 ≤ x.1))
           ctxBad := d.ctxBad.filter (fun w => decide (w < a / 8 ∨ a / 8 + 32 ≤ w)) }

/-- The flow takes a zeroed slot of the engine (R139). -/
def Dev.giveSlot (d : Dev) (e f : Nat) : Dev :=
  let k := d.freeCtxSlot e
  (d.zeroSlot e k).setSlots e (sput (d.engOf e).slots f k)

/-- The flow's slot of the engine is freed (R139). -/
def Dev.freeSlot (d : Dev) (e f : Nat) : Dev := d.setSlots e (serase (d.engOf e).slots f)

/-- The engine that serves a flow; 0xFF none. -/
def Dev.curEngine (d : Dev) (h f : Nat) : Nat := d.flowFld h f FL_CUR_ENGINE

/-- The engine a pinned flow is pinned to. -/
def Dev.pinOf (d : Dev) (h f : Nat) : Nat := 96 * h + d.flowFld h f FL_PIN_ENGINE

/-- Is the flow pinned? -/
def Dev.pinned (d : Dev) (h f : Nat) : Bool := d.flowFld h f FL_PIN_ENG_EN = 1

/-- Is a handover of the flow under way? -/
def Dev.inHandover (d : Dev) (h f : Nat) : Bool := (sfind d.handovers (flowKey h f)).isSome

/-! Records offered to engines (R146, R207). -/

/-- Does a number come before another, modulo 2^32? -/
def seqBefore (a b : Nat) : Bool := a ≠ b && decide ((b + 2 ^ 32 - a) % 2 ^ 32 < 2 ^ 31)

/-- Is the record held for a resynchronisation of its flow (R468)? -/
def Dev.resyncHeld (d : Dev) (r : Rec) : Bool :=
  match sfind d.holds (flowKey r.half r.flow) with
  | some s => !seqBefore r.seq s
  | none => false

/-- May the record be offered in the CK at hand? -/
def Dev.offerable (d : Dev) (r : Rec) : Bool :=
  r.st = .queued && r.complete && (match r.offerCk with | some c => decide (c ≤ d.ck) | none => false)
    && !d.inHandover r.half r.flow && !d.resyncHeld r

/-- The oldest offerable record among the engine's flows. -/
def Dev.nextOffer (d : Dev) (e : Nat) : Option (Nat × Rec) :=
  let h := engHalf e
  (d.recs.filter (fun (x : Nat × Rec) => x.2.half = h && d.curEngine h x.2.flow = e && d.offerable x.2)).foldl
    (fun (best : Option (Nat × Rec)) x => match best with
      | none => some x
      | some b => if x.2.allocNo < b.2.allocNo then some x else best) none

/-- The record becomes offerable in the CK after the last of what R207 names; the engine then has an offer. -/
def Dev.mayOffer (d : Dev) (rid : Nat) : Dev :=
  let r := d.recOf rid
  let e := d.curEngine r.half r.flow
  if r.st ≠ .queued ∨ r.units = 0 ∨ ¬ r.complete ∨ e ≥ 192 ∨ d.inHandover r.half r.flow ∨ r.offerCk.isSome then d
  else (d.setRec rid { r with offerCk := some (d.ck + 1) }).schedOnce 1 (.recordOffer (engOp e))

end Sys2Proof.Machine
end

