-- ==== Sys2Proof/Machine/Extents.lean ====
section
/-! DEFINITION. Stripes, slots, extents, their descriptors, the journal (R182 to R189, R202, R219 to R221). -/

namespace Sys2Proof.Machine

/-- Bytes of an extent (R183). -/
def extBytes : Nat := 2 ^ 21

/-! Stripes and slots. -/

def Dev.stripeEn (d : Dev) (h s : Nat) : Bool := d.flag (Pg.plu h) (F.PLU_STRIPE_EN s)
/-- The channels of a stripe, ascending. -/
def Dev.stripeChans (d : Dev) (h s : Nat) : List Nat :=
  (setBits (d.fld (Pg.plu h) (F.PLU_STRIPE_CHANS s)) 8).map (fun k => 8 * h + k)
def Dev.stripeWidth (d : Dev) (h s : Nat) : Nat := (d.stripeChans h s).length
/-- Pool of a channel: first byte and 256 KiB units (R183). -/
def Dev.poolBase (d : Dev) (c : Nat) : Nat := d.fld (Pg.plu (c / 8)) (F.PLU_POOL_BASE_BASE (c % 8)) * 2 ^ 18
def Dev.poolUnits (d : Dev) (c : Nat) : Nat := d.fld (Pg.plu (c / 8)) (F.PLU_POOL_SIZE_SIZE (c % 8))

/-- The slots of a stripe (R183). -/
def Dev.slotCount (d : Dev) (h s : Nat) : Nat :=
  match (d.stripeChans h s).map (fun c => d.poolUnits c * d.stripeWidth h s / 8) with
  | [] => 0
  | n :: r => r.foldl min n

/-- Where byte x of the extent in a slot lies: channel and offset (R183). -/
def Dev.slotByte (d : Dev) (h s slot x : Nat) : Nat × Nat :=
  let cs := d.stripeChans h s
  let k := max 1 cs.length
  let g := 2 ^ d.fld (Pg.plu h) (F.PLU_STRIPE_GRAIN s)
  let c := cs.getD (x / g % k) 0
  (c, d.poolBase c + slot * (extBytes / k) + x / (g * k) * g + x % g)

/-- Pieces of `n` bytes of a slot from x on: channel, offset, length, none crossing a grain. -/
def Dev.slotPieces (d : Dev) (h s slot : Nat) : Nat → Nat → Nat → List (Nat × Nat × Nat)
  | 0, _, _ => []
  | fuel + 1, x, n =>
    if n = 0 then []
    else
      let g := 2 ^ d.fld (Pg.plu h) (F.PLU_STRIPE_GRAIN s)
      let m := min n (g - x % g)
      let p := d.slotByte h s slot x
      (p.1, p.2, m) :: d.slotPieces h s slot fuel (x + m) (n - m)

/-- Does a byte of the slot, in any of its channels, lie in a retired page or bank (R184)? A page is 2^(7 + C) bytes of offsets,
aligned, so its first burst of either subchannel tells. -/
def Dev.slotRetired (d : Dev) (h s slot : Nat) : Bool :=
  (d.stripeChans h s).any (fun c =>
    let size := extBytes / max 1 (d.stripeWidth h s)
    let base := d.poolBase c + slot * size
    let page := 2 ^ (7 + d.colBits c)
    d.retires c && (List.range (size / page)).any (fun i => d.retired c (base + i * page) || d.retired c (base + i * page + 64)))

/-- Extents that lie on a stripe. -/
def Dev.extsOn (d : Dev) (h s : Nat) : List Ext := d.exts.filter (fun x => x.half = h && x.stripe = s)

/-- The lowest slot from j up that is neither held nor retired. -/
def Dev.lowSlot (d : Dev) (h s : Nat) : Nat → Nat → Option Nat
  | 0, _ => none
  | fuel + 1, j =>
    if (d.extsOn h s).any (fun x => x.slot = j) ∨ d.slotRetired h s j then d.lowSlot h s fuel (j + 1) else some j

/-- The lowest-numbered free slot of a stripe (R184, R190). -/
def Dev.freeSlotOf (d : Dev) (h s : Nat) : Option Nat := d.lowSlot h s (d.slotCount h s) 0

/-- Does some channel of the stripe hold a retirement entry? -/
def Dev.anyRetired (d : Dev) (h s : Nat) : Bool :=
  (d.stripeChans h s).any (fun c => d.retires c)

/-- Slots of a stripe that retirement excludes, and PLU_x_FREEs (R184). -/
def Dev.retiredSlots (d : Dev) (h s : Nat) : Nat :=
  if d.stripeEn h s ∧ d.anyRetired h s then (List.range (d.slotCount h s)).countP (fun j => d.slotRetired h s j) else 0
def Dev.freeSlots (d : Dev) (h s : Nat) : Nat :=
  if ¬ d.stripeEn h s then 0
  else if d.anyRetired h s then
    (List.range (d.slotCount h s)).countP (fun j => !(d.extsOn h s).any (fun x => x.slot = j) && !d.slotRetired h s j)
  else d.slotCount h s - (d.extsOn h s).length

/-! Rates and loads (R188, R189). -/

/-- rate(f) of a flow in its home half. -/
def Dev.rateOf (d : Dev) (h f : Nat) : Nat := sget 0 (d.pluOf h).rate f

/-- wr(f): rate times WEIGHT, saturating. -/
def Dev.weighted (d : Dev) (h f : Nat) : Nat := min (d.rateOf h f * d.flowFld h f FL_WEIGHT) (2 ^ 32 - 1)

/-- The load of each stripe of a half as it now stands (R189). -/
def Dev.updLoads (d : Dev) (h : Nat) : Dev :=
  (List.range 8).foldl (fun d s =>
    d.setFld (Pg.plu h) (F.PLU_LOAD s)
      (min (((d.extsOn h s).filter (fun x => x.isOpen)).foldl (fun n x => n + d.weighted x.home x.flow) 0) (2 ^ 32 - 1))) d

/-- The fill of a stripe: allocated slots in 1/256 of its slots (R189). -/
def Dev.stripeFill (d : Dev) (h s : Nat) : Nat := (d.extsOn h s).length * 256 / max 1 (d.slotCount h s)

/-! The journal (R202, Table 9-3). -/

/-- EXT of an extent (Table 9-3). -/
def extWord (x : Ext) : Nat := x.half * 2 ^ 23 + x.stripe * 2 ^ 20 + x.slot

/-- The journal or an index unit, at its end point, writes bytes within one burst under the close hint; the burst is written whole, the
rest as last written (R254, R267). -/
def Dev.burstWrite (d : Dev) (src c off : Nat) (bs : List Byte) : Dev :=
  let key := c * 2 ^ 32 + off / 64
  let new := BitVec.ofNat 512 (bitsPut (sget 0#512 d.meta64 key).toNat (8 * (off % 64)) (8 * bs.length) (leNat bs))
  ({ d with meta64 := sset 0#512 d.meta64 key new }).dramAccess (some src) c (off / 64 * 64) 64 (some ((leBytes 64 new.toNat).map some))
    false 5 1 true true none

/-- Write one journal entry: flags beside the deciding half, flow, EXT, EXTRA, OFFSET; it is offered to the Scarf link. -/
def Dev.journal (d : Dev) (h kind flags flow ext extra off : Nat) : Dev :=
  let pg := Pg.plu h
  let seq := d.fld pg F.PLU_JRN_SEQ
  let e : BitVec 256 := BitVec.ofNat 256 (leNat (leBytes 4 seq ++ [byteOf kind 0, byteOf (h + flags) 0] ++ leBytes 2 (flow % 4096)
    ++ leBytes 8 (lpInt (d.pubLp h)) ++ leBytes 4 ext ++ leBytes 4 extra ++ leBytes 8 off))
  let c := 8 * h + d.fld pg F.PLU_JRN_CFG_CHAN
  let a := d.fld pg F.PLU_JRN_BASE_BASE * 4096 + seq % 2 ^ d.fld pg F.PLU_JRN_CFG_LOG2_SIZE * 32
  let d := d.setFld pg F.PLU_JRN_SEQ (seq + 1)
  let tx := d.nextTx
  let d := d.burstWrite (Ep.plu h) c a (leBytes 32 e.toNat)
  { d with jrnTx := sput d.jrnTx tx h, offers := d.offers ++ [(h, e)] }

/-! Extents and descriptors (R185, R220, R221). -/

/-- The extents a flow of a home half holds, in the order they were opened. -/
def Dev.heldOf (d : Dev) (home f : Nat) : List Ext := d.exts.filter (fun x => x.home = home && x.flow = f)

/-- The flow's open extent. -/
def Dev.openExt (d : Dev) (home f : Nat) : Option Ext := (d.heldOf home f).find? (fun x => x.isOpen)

/-- Replace an extent, known by its order of opening. -/
def Dev.setExt (d : Dev) (x : Ext) : Dev := { d with exts := d.exts.map (fun y => if y.openNo = x.openNo then x else y) }

/-- How many extents the flow has opened. -/
def Dev.openedOf (d : Dev) (home f : Nat) : Nat := sget 0 d.opened (flowKey home f)

/-- The first logical byte of an extent (R185). -/
def extFirst (x : Ext) : Nat := x.ord * extBytes

/-- END in bytes: the acknowledged bytes (R217, R221). -/
def Ext.endBytes (x : Ext) : Nat := x.infl.foldl (fun n p => min n p.2) x.written

/-- The write frontier of a flow (R185, R221). -/
def Dev.frontier (d : Dev) (home f : Nat) : Nat :=
  match d.openExt home f with
  | some x => extFirst x + x.endBytes
  | none => d.openedOf home f % 2 ^ 19 * extBytes

/-- SPAN of an extent (Table 10-3). -/
def Ext.span (x : Ext) : Nat :=
  match x.firstLp with
  | some l => min (x.lastLp - l) (2 ^ 32 - 1)
  | none => 0

/-! Descriptor states (Table 10-3). -/

namespace Xs
def none : Nat := 0
def opened : Nat := 1
def closed : Nat := 2
def overwritten : Nat := 3
end Xs

/-- The descriptor of an extent (Table 10-3). -/
def descOf (x : Ext) (st : Nat) (endB : Nat) : BitVec 128 :=
  BitVec.ofNat 128 ((match x.firstLp with | some l => l | none => 0) % 2 ^ 48 + 2 ^ 48 * x.span + 2 ^ 80 * extWord x
    + 2 ^ 104 * (endB / 32) + 2 ^ 121 * st + 2 ^ 123 * b01 x.poison + 2 ^ 124 * (x.ord / 2 ^ 15))

/-- D of a half's directory, its channel, and where the entry of a flow's ordinal lies (R219). -/
def Dev.dirD (d : Dev) (h : Nat) : Nat := d.fld (Pg.idx h) F.IDX_DIR_CFG_LOG2
def Dev.dirChan (d : Dev) (h : Nat) : Nat := 8 * h + d.fld (Pg.idx h) F.IDX_DIR_CFG_CHAN
def Dev.dirOff (d : Dev) (h f ord : Nat) : Nat :=
  d.fld (Pg.idx h) F.IDX_DIR_BASE_BASE * 4096 + 16 * (f * 2 ^ d.dirD h + ord % 2 ^ d.dirD h)

/-- Write an extent's descriptor. -/
def Dev.writeDesc (d : Dev) (x : Ext) (st endB : Nat) : Dev :=
  if x.evicted then d
  else d.burstWrite (Ep.index x.home) (d.dirChan x.home) (d.dirOff x.home x.flow x.ord) (leBytes 16 (descOf x st endB).toNat)

/-- Bit 2 of a journal entry: the extent lies in the other half from the flow's home. -/
def otherHalf (home h : Nat) : Nat := if home = h then 0 else 4

/-- The record that was to cross into an extent is not written yet: it starts in the flow's next extent, so the one it would have begun
in ends before it (R185). -/
def Dev.uncross (d : Dev) (x : Ext) : Dev :=
  match x.carry with
  | none => d
  | some c =>
    match d.exts.find? (fun y => y.openNo = c.no) with
    | none => d
    | some y =>
      let y := { y with written := c.off, firstLp := c.firstLp, lastLp := c.lastLp, infl := y.infl.filter (fun i => i.2 ≠ c.off) }
      (d.setExt y).writeDesc y Xs.closed c.off

/-- Close an extent (R190, R201, R221). -/
def Dev.closeExt (d : Dev) (x : Ext) : Dev :=
  let d := d.uncross x
  let y := { x with isOpen := false, carry := none }
  let d := (d.setExt y).updLoads x.half
  (d.journal x.half 2 (otherHalf x.home x.half) x.flow (extWord x) x.written (extFirst x)).writeDesc y Xs.closed x.written

/-- Open an extent at the flow's next ordinal in a slot; an older extent in its directory entry is evicted (R190, R221). -/
def Dev.openAt (d : Dev) (home f h s slot kind flags ext extra victim : Nat) : Dev :=
  let ord := d.openedOf home f % 2 ^ 19
  let x : Ext := { home := home, flow := f, ord := ord, half := h, stripe := s, slot := slot, openNo := d.nextOpen }
  let D := d.dirD home
  let old := (d.heldOf home f).filter (fun y => !y.evicted && y.ord ≠ ord && y.ord % 2 ^ D = ord % 2 ^ D)
  let d := { d with exts := d.exts ++ [x], nextOpen := d.nextOpen + 1,
                    opened := sset 0 d.opened (flowKey home f) (d.openedOf home f + 1) }
  let d := old.foldl (fun d y => ((d.setExt { y with evicted := true }).bump (Pg.idx home) F.IDX_EVICT_CNT).pend (Pg.idx home) 2) d
  let d := (d.updLoads h).bump (Pg.plu h) F.PLU_OPEN_CNT
  let ext := if kind = 1 then extWord x else ext
  let extra := if kind = 1 then ord else extra
  (d.journal h kind (flags + otherHalf home h) f ext extra (extFirst x + victim * 2 ^ 40)).writeDesc x Xs.opened 0

/-- Give up an extent: its range reads as overwritten, its slot is free (R192, R194). -/
def Dev.dropExt (d : Dev) (x : Ext) : Dev :=
  let d := { d with exts := d.exts.filter (fun y => y.openNo ≠ x.openNo) }
  (d.writeDesc x Xs.overwritten x.written).updLoads x.half

end Sys2Proof.Machine
end

