-- ==== Sys2Proof/Machine/Queue.lean ====
section
/-! DEFINITION. What happens to records of the capture queue: units taken and freed, numbers lost and resolved, runs of losses,
flushes, and the events these start (R119 to R122, R205, R206, R209 to R211). -/

namespace Sys2Proof.Machine

/-- A decision waits for the placement unit, which starts one a CK (R200): kinds 0 boundary, 1 spill, 2 extent and engine. -/
def Dev.pluAsk (d : Dev) (h kind flow : Nat) (run : Instr) : Dev :=
  let x := d.pluOf h
  d.setPlu h { x with waiting := x.waiting ++ [⟨kind, d.ck, flow, run⟩] }

/-- Is the first decision taken before the second (R200)? -/
def PluWait.before (a b : PluWait) : Bool :=
  decide (a.kind < b.kind) || (a.kind = b.kind
    && (decide (a.kind = 2 ∧ (a.arrived < b.arrived ∨ (a.arrived = b.arrived ∧ a.flow < b.flow)))))

/-- At the end of a CK the unit starts a waiting decision; it completes 3 CK after its start (R200). -/
def Dev.pluStart (d : Dev) (h : Nat) : Dev :=
  let x := d.pluOf h
  match x.waiting with
  | [] => d
  | w :: r =>
    let best := r.foldl (fun b y => if y.before b then y else b) w
    let stops := match best.run with
      | .engineStoppedMove e => x.stops.map (fun (s : PluStop) =>
          if s.flow = best.flow ∧ s.eng = e.val ∧ s.due.isNone then { s with due := some (d.ck + 3) } else s)
      | _ => x.stops
    (d.setPlu h { x with waiting := x.waiting.erase best, stops := stops }).sched 3 best.run

/-! Units (R204 to R206, R209, R210). -/

/-- The fill has moved: recorded maximum, level 3, spill state. -/
def Dev.fillMoved (d : Dev) (h before : Nat) : Dev :=
  let pg := Pg.cq h
  let now := (d.cqOf h).fill
  let d := d.setFld pg F.CQ_MAXFILL_UNITS (max (d.fld pg F.CQ_MAXFILL_UNITS) now)
  let d := if d.levelAt h before < 3 ∧ d.levelAt h now = 3 then d.pend pg 0 else d
  let on := d.fld pg F.CQ_SPILL_ON * 2 ^ 13
  let off := d.fld pg F.CQ_SPILL_OFF * 2 ^ 13
  if ¬ d.cqSpill h ∧ on ≤ now ∧ before < on then
    ((d.setFld pg F.CQ_STAT_SPILL 1).pend pg 1).pluAsk h 1 0 (.spillStart (halfOf h))
  else if d.cqSpill h ∧ now < off then
    ((d.setFld pg F.CQ_STAT_SPILL 0).pend pg 2).pluAsk h 1 0 (.spillEnd (halfOf h))
  else d

/-- A record takes units at WP. -/
def Dev.takeUnits (d : Dev) (h rid n : Nat) : Dev :=
  let x := d.cqOf h
  let runs := match x.runs.getLast? with
    | some l => if l.rid = rid ∧ l.live then x.runs.dropLast ++ [({ l with units := l.units + n } : CqRun)]
      else x.runs ++ [(⟨rid, n, true⟩ : CqRun)]
    | none => [(⟨rid, n, true⟩ : CqRun)]
  (d.setCq h { x with wp := (x.wp + n) % 2 ^ 22, runs := runs }).fillMoved h x.fill

/-- RP advances over the oldest units once freed (R206). -/
def reclaim : List CqRun → Nat → List CqRun × Nat
  | [], n => ([], n)
  | r :: rest, n => if r.live then (r :: rest, n) else reclaim rest (n + r.units)

/-- FLUSH_PEND clears once every record before the mark is disposed or lost (R211). -/
def Dev.flushCheck (d : Dev) (h : Nat) : Dev :=
  let mark := (d.cqOf h).mark
  if d.flag (Pg.cq h) F.CQ_STAT_FLUSH_PEND
      ∧ ¬ d.recs.any (fun (x : Nat × Rec) => x.2.half = h && decide (0 < x.2.units) && decide (x.2.allocNo < mark)) then
    d.schedOnce 0 (.flushDone (halfOf h))
  else d

/-- A record's units are freed (R206). -/
def Dev.freeUnits (d : Dev) (rid : Nat) : Dev :=
  let r := d.recOf rid
  let h := r.half
  let x := d.cqOf h
  let runs := x.runs.map (fun (u : CqRun) => if u.rid = rid then { u with live := false } else u)
  let p := reclaim runs 0
  let d := d.setCq h { x with runs := p.1, rp := (x.rp + p.2) % 2 ^ 22 }
  ((d.setRec rid { r with units := 0 }).fillMoved h x.fill).flushCheck h

/-! Numbers (R120 to R122). -/

/-- Wake the capture writer in this CK. -/
def Dev.kickWriter (d : Dev) (h : Nat) : Dev := d.schedOnce 0 (.captureWrite (halfOf h) 0)

/-- A lost number joins the flow's open run. -/
def LossRun.add (r : LossRun) (n : Num) (cause : Nat) : LossRun :=
  { count := min (r.count + 1) (2 ^ 32 - 1), causes := r.causes ||| 2 ^ cause
    seq := if r.count = 0 then n.seq else r.seq
    lp := if r.count = 0 then n.lp else r.lp
    lane := if r.count = 0 then n.lane else r.lane
    lastLp := n.lp
    after := some ((n.seq + 1) % 2 ^ 32) }

/-- Lost numbers at the front join the run. -/
def foldLost : List Num → LossRun → List Num × LossRun
  | [], r => ([], r)
  | n :: rest, r =>
    match n.lost with
    | some c => foldLost rest (r.add n c)
    | none => (n :: rest, r)

/-- Resolve the flow's oldest numbers: losses at the front join the open run; a flow that has stopped gets its closing marker once
its earlier numbers are resolved (R122). -/
def Dev.resolve (d : Dev) (h f : Nat) : Dev :=
  let k := flowKey h f
  let p := foldLost (sget [] d.nums k) (sget {} d.runs k)
  let d := { d with nums := sset [] d.nums k p.1, runs := sset {} d.runs k p.2 }
  let d := if p.2.count ≠ 0 then d.setFlowFld h f FL_GAP_OPEN 1 else d
  let d := if p.1 = [] then d else d.kickWriter h
  match sfind d.closing k with
  | none => d
  | some last =>
    if p.1.any (fun n => n.rid + 1 = last) then d
    else d.schedOnce 1 (.gapMarkerClose (halfOf h) (flowOp f))

/-- A number is lost with a cause other than 4 (R120, R122). -/
def Dev.loseNum (d : Dev) (h f rid cause : Nat) : Dev :=
  let k := flowKey h f
  let l := (sget [] d.nums k).map (fun (n : Num) => if n.rid = rid then { n with lost := some cause } else n)
  let d := ({ d with nums := sset [] d.nums k l }.flowBump h f FL_LOST 1).bump (Pg.flow h) F.FLOW_LOST_CNT
  d.resolve h f

/-- A record disposed or lost for good leaves; placement gives the flow's slot back if its EN is clear and nothing of it is left
(R139); a handover under way ends first. -/
def Dev.slotCheck (d : Dev) (h f : Nat) : Dev :=
  let e := d.curEngine h f
  if d.flowEn h f ∨ 192 ≤ e ∨ d.inHandover h f ∨ d.recs.any (fun (x : Nat × Rec) => x.2.half = h && x.2.flow = f
      && (x.2.st = .queued || x.2.st = .taken) && decide (0 < x.2.units)) then d
  else (d.freeSlot e f).setFlowFld h f FL_CUR_ENGINE 0xFF

/-- A record of the queue is lost with a cause: its number, its units, itself; one that is still arriving stays marked until its
last byte has come. -/
def Dev.loseRec (d : Dev) (rid cause : Nat) : Dev :=
  let r := d.recOf rid
  let d := (d.freeUnits rid).epochLost r.half r.flow r.epoch cause
  let d := if r.complete then d.dropRec rid
    else d.setRec rid { d.recOf rid with gone := true, units := 0, st := .arriving }
  ((d.loseNum r.half r.flow rid cause).kickWriter r.half).slotCheck r.half r.flow

/-- A full queue loses a record (R205). -/
def Dev.fullLoss (d : Dev) (rid : Nat) : Dev :=
  let pg := Pg.cq (d.recOf rid).half
  ((d.bump pg F.CQ_FULL_LOSS_CNT).pend pg 4).loseRec rid 1

/-- A flow stops emitting: its half leaves a capturing mode or enters OFFLOAD, its EN is cleared (R122). Its open run is closed once
every number allocated before is resolved: `closing` holds one more than the last of them's record, 0 where there is none. -/
def Dev.stopFlow (d : Dev) (h f : Nat) : Dev :=
  let last := match (sget [] d.nums (flowKey h f)).getLast? with | some n => n.rid + 1 | none => 0
  ({ d with closing := sput d.closing (flowKey h f) last }).resolve h f

/-- Every flow of a half that has numbers or an open run stops emitting; flow 0 does later where an event of the half's is still to be
its last record (R40). -/
def Dev.stopFlows (d : Dev) (h : Nat) (but0 : Bool) : Dev :=
  (((d.nums.map Prod.fst) ++ (d.runs.map Prod.fst)).eraseDups.filter (fun k => k / 4096 = h && !(but0 && k % 4096 = 0))).foldl
    (fun d k => d.stopFlow h (k % 4096)) d

/-! What a record is as written (R96, R129, R148). -/

/-- Payload bytes the record keeps: all, or up to the slice (R96). -/
def Rec.keptLen (r : Rec) : Nat :=
  match r.outc with
  | some o => if o.act = .slice then min r.payload.length (o.slice - r.base) else r.payload.length
  | none => r.payload.length

/-- Does a slice end the record in this part? -/
def Rec.cut (r : Rec) : Bool :=
  match r.outc with
  | some o => o.act = .slice && (decide (o.slice - r.base < r.payload.length)
      || (o.slice - r.base = r.payload.length && bit r.flags 3))
  | none => false

/-- Payload and flags as written: what the engine emitted, or the kept bytes with the flags of a cut. -/
def Rec.body (r : Rec) : List Byte × Nat :=
  match r.emit with
  | some e => e
  | none => (r.payload.take r.keptLen, if r.cut then (r.flags ||| 2) - (r.flags &&& 8) else r.flags)

/-- Store size of a payload (R124). -/
def storeSize (n : Nat) : Nat := 32 + alignUp n 32

/-- The record of a flow that the capture writer would write next: the head of its numbers, emitted. -/
def Dev.headRec (d : Dev) (home f : Nat) : Option (Nat × Rec) :=
  match sget [] d.nums (flowKey home f) with
  | [] => none
  | n :: _ => match sfind d.recs n.rid with
    | some r => if r.st = .emitted then some (n.rid, r) else none
    | none => none

/-- Pair sync marks of flow 0 that wait (R472). -/
def Dev.marksOf (d : Dev) (home : Nat) : List PairMark := sget [] d.pair.marks home

/-- Bytes the flow's stream needs next: pair sync marks, a gap marker if a run is open, the record at its head. -/
def Dev.streamNeed (d : Dev) (home f : Nat) : Nat :=
  (if f = 0 then 64 * (d.marksOf home).length else 0)
    + (if (sget ({} : LossRun) d.runs (flowKey home f)).count = 0 then 0 else 64)
    + (match d.headRec home f with | some (_, r) => storeSize r.body.1.length | none => 0)

/-! Flushes (R211). -/

/-- CQ_FLUSH: the mark moves to WP. -/
def Dev.cqFlush (d : Dev) (h : Nat) : Dev :=
  let x := d.cqOf h
  ((d.setCq h { x with mark := x.nextNo }).setFld (Pg.cq h) F.CQ_STAT_FLUSH_PEND 1).flushCheck h

end Sys2Proof.Machine
end

