-- ==== Sys2Proof/Machine/Placement.lean ====
section
/-! DEFINITION. Placement decisions: stripes for extents, retention, engines, moves, spill, releases (R187 to R201). -/

namespace Sys2Proof.Machine

/-! Stripes (R190, R191). -/

/-- Does CHAN_SET allow every channel of the stripe? It binds in the home half. -/
def Dev.chanAllowed (d : Dev) (home f h s : Nat) : Bool :=
  let set := d.flowFld home f FL_CHAN_SET
  home ≠ h || set = 0 || (d.stripeChans h s).all (fun c => bit set (c % 8))

/-- A candidate but for a free slot. -/
def Dev.candidateBut (d : Dev) (home f h s : Nat) : Bool :=
  d.stripeEn h s && (d.stripeChans h s).all (fun c => d.chanOnline c) && d.chanAllowed home f h s

/-- The key of a stripe, smaller better, and whether it is over CHAN_CAP (R190). -/
def Dev.stripeKey (d : Dev) (home f h s : Nat) (own : Option Nat) : List Nat :=
  let wr := d.weighted home f
  let pl := (d.fld (Pg.plu h) (F.PLU_LOAD s) + wr - (if own = some s then wr else 0)) / max 1 (d.stripeWidth h s)
  let fill := d.stripeFill h s
  if pl ≤ d.fld (Pg.plu h) F.PLU_CHAN_CAP_BYTES then [0, fill, pl, s] else [1, pl, fill, s]

/-- Lexicographic order of keys. -/
def keyLt : List Nat → List Nat → Bool
  | a :: r, b :: q => decide (a < b) || (a = b && keyLt r q)
  | _, _ => false

/-- choose_stripe (R190); `own` is the stripe of the extent just closed. -/
def Dev.chooseStripe (d : Dev) (home f h : Nat) (own : Option Nat) : Option (List Nat) :=
  (((List.range 8).filter (fun s => d.candidateBut home f h s && (d.freeSlotOf h s).isSome)).map
    (fun s => d.stripeKey home f h s own)).foldl (fun best k => match best with
      | none => some k
      | some b => if keyLt k b then some k else best) none

/-- A retention action counts and sets INT_PEND bit 3 (R192). -/
def Dev.retention (d : Dev) (h : Nat) (cnt : Fld) : Dev := (d.bump (Pg.plu h) cnt).pend (Pg.plu h) 3

/-- Earliest-opened of a list of extents. -/
def earliest (l : List Ext) : Option Ext :=
  l.foldl (fun (b : Option Ext) x => match b with
    | none => some x
    | some y => if x.openNo < y.openNo then some x else b) none

/-- The quota of a flow (R190). -/
def Dev.quota (d : Dev) (home f : Nat) : Nat :=
  let m := d.flowFld home f FL_MAX_EXTENTS
  if m ≠ 0 then min m 524287 else 524287

/-- The flow's records that wait for this decision are free to move on. -/
def Dev.extentDone (d : Dev) (home f : Nat) : Dev :=
  let d := (d.setPlu home { d.pluOf home with extending := (d.pluOf home).extending.filter (fun g => g ≠ f) }).kickWriter home
  if (sfind d.closing (flowKey home f)).isSome then d.resolve home f else d

/-- A flow that was frozen and has an extent again (R193): FROZEN clears; the marker before its next record has cause bit 2. -/
def Dev.unfreeze (d : Dev) (home f h seq : Nat) : Dev :=
  if d.flowFld home f FL_FROZEN = 0 then d
  else (d.setFlowFld home f FL_FROZEN 0).journal h 6 (otherHalf home h) f 0xFFFFFFFF seq 0

/-- Freeze (R192): the record that needed the extent is lost with cause 2. -/
def Dev.freeze (d : Dev) (home f h : Nat) : Dev :=
  let seq := match d.headRec home f with | some (_, r) => r.seq | none => 0
  let d := if d.flowFld home f FL_FROZEN = 1 then d
    else
      let d := (d.setFlowFld home f FL_FROZEN 1).pend (Pg.flow home) 1
      (d.retention h F.PLU_FREEZE_CNT).journal h 5 (otherHalf home h) f 0xFFFFFFFF seq 0
  match d.headRec home f with
  | some (rid, _) => d.loseRec rid 2
  | none => d

/-- The half in which the flow's extents are placed now (R198). -/
def Dev.placeHalf (d : Dev) (home f : Nat) : Nat := if (d.pluOf home).spilled.contains f then 1 - home else home

/-- What a decision for a new extent comes to (R190, R192). -/
inductive ExtChoice where
  | opened (s slot : Nat) (excess : Bool)
  | wrap (x : Ext)
  | steal (x : Ext)
  | freeze
  deriving DecidableEq, Repr

/-- new_extent's choice; `own` is the stripe of the extent just closed. -/
def Dev.extChoice (d : Dev) (home f h : Nat) (own : Option Nat) : ExtChoice :=
  let held := d.heldOf home f
  let mine := earliest (held.filter (fun x => x.half = h && !d.slotRetired h x.stripe x.slot))
  let retain := d.flowFld home f FL_RETAIN
  let wrap : ExtChoice := match retain, mine with
    | 1, some x => .wrap x
    | _, _ => .freeze
  if d.quota home f ≤ held.length then wrap
  else match d.chooseStripe home f h own with
    | some k => match d.freeSlotOf h (k.getD 3 0) with
      | some slot => .opened (k.getD 3 0) slot (k.getD 0 0 = 1)
      | none => .freeze
    | none =>
      if retain = 2 then
        match earliest (d.exts.filter (fun x => x.half = h && x.home = h && !(x.home = home && x.flow = f) && !x.isOpen
            && d.flowFld x.home x.flow FL_YIELDABLE = 1 && d.candidateBut home f h x.stripe
            && !d.slotRetired h x.stripe x.slot)) with
        | some x => .steal x
        | none => .freeze
      else wrap

/-- The flow's open extent closes for a record that crosses its end: filled to its end by the record's beginning. -/
def Dev.closeFull (d : Dev) (x : Ext) : Dev :=
  let x := match d.headRec x.home x.flow with
    | some (rid, r) => if x.written < extBytes then
        { x with firstLp := some (x.firstLp.getD (lpInt r.lp)), lastLp := lpInt r.lp, infl := x.infl ++ [(rid, x.written)] } else x
    | none => x
  d.closeExt { x with written := extBytes }

/-- NEW_EXTENT (R190 to R193), as the decision completes: the flow's open extent closes, then an extent opens, is taken, or the
flow freezes. -/
def Dev.newExtent (d : Dev) (home f : Nat) : Dev :=
  let h := d.placeHalf home f
  let seq := match d.headRec home f with | some (_, r) => r.seq | none => 0
  let cur := d.openExt home f
  let own := match cur with | some x => if x.half = h then some x.stripe else none | none => none
  let set := d.flowFld home f FL_CHAN_SET
  let shut := decide (home = h ∧ set ≠ 0) && (List.range 8).all (fun s => !d.stripeEn h s
    || (d.stripeChans h s).all (fun c => !bit set (c % 8)))
  let d : Dev := if shut then d.err (Pg.plu h) 2 0x0903 else d
  -- the choice is made with the current extent closed and its load still counted, as own_share takes off
  let closed : Dev := match cur with | some x => d.setExt { x with isOpen := false } | none => d
  let choice := closed.extChoice home f h own
  let cross : Option Carry := match cur with
    | some x => if x.half = h ∧ extBytes < x.written + d.streamNeed home f ∧ choice ≠ .freeze then
        some ⟨x.openNo, x.written, x.firstLp, x.lastLp⟩ else none
    | none => none
  let d : Dev := match cur with
    | some x => if cross.isSome then d.closeFull x else d.closeExt x
    | none => d
  let carry (d : Dev) : Dev := match cross, d.openExt home f with
    | some c, some y => d.setExt { y with carry := some c }
    | _, _ => d
  let d : Dev := match choice with
    | .opened s slot excess =>
      let d := if excess then (d.bump (Pg.plu h) F.PLU_OVERLOAD_CNT).pend (Pg.plu h) 2 else d
      carry ((d.openAt home f h s slot 1 (if excess then 2 else 0) 0 0 0).unfreeze home f h seq)
    | .wrap x =>
      let d := (d.dropExt x).retention h F.PLU_WRAP_CNT
      carry ((d.openAt home f h x.stripe x.slot 3 0 (extWord x) x.ord 0).unfreeze home f h seq)
    | .steal x =>
      let d := (d.dropExt x).retention h F.PLU_STEAL_CNT
      carry ((d.openAt home f h x.stripe x.slot 4 0 (extWord x) x.ord x.flow).unfreeze home f h seq)
    | .freeze => d.freeze home f h
  d.extentDone home f

/-- The flow needs an extent for the record at its head: the decision waits its turn (R190, R200). -/
def Dev.askExtent (d : Dev) (home f : Nat) : Dev :=
  let x := d.pluOf home
  if x.extending.contains f then d
  else (d.setPlu home { x with extending := f :: x.extending }).pluAsk (d.placeHalf home f) 2 f (.newExtent (halfOf home) (flowOp f))

/-! Engines (R195 to R197, R152, R154). -/

/-- load(e) and assigned(e) of an engine. -/
def Dev.engLoad (d : Dev) (e : Nat) : Nat := sget 0 (d.pluOf (engHalf e)).load (e % 96)
def Dev.engAssigned (d : Dev) (e : Nat) : Nat := sget 0 (d.pluOf (engHalf e)).assigned (e % 96)

/-- The engine with the lowest key among those that run and serve fewer than 64 flows, but one (R195, R196). -/
def Dev.chooseEngine (d : Dev) (h : Nat) (but : Option Nat) : Option Nat :=
  let cost := d.fld (Pg.plu h) F.PLU_MOVE_ASSIGN_COST
  let key (e : Nat) : List Nat := [d.engLoad e + d.engAssigned e * cost, d.served e, e]
  ((List.range 96).map (fun i => 96 * h + i)).foldl (fun (best : Option Nat) e =>
    if some e = but ∨ ¬ d.engRuns e ∨ 64 ≤ d.served e then best
    else match best with
      | none => some e
      | some b => if keyLt (key e) (key b) then some e else best) none

/-- May the pinned engine take one more flow (R154, R197)? -/
def Dev.takesFlow (d : Dev) (e : Nat) : Bool := d.engRuns e && decide (d.served e < 64)

/-- The handover's boundary is here once the engine holds no task of the flow (R152). -/
def Dev.boundaryCheck (d : Dev) (h f : Nat) : Dev :=
  match sfind d.handovers (flowKey h f) with
  | none => d
  | some x =>
    let busy : Bool := (d.engOf x.src).task.isSome && d.fld (Pg.newt x.src) F.NEWT_CUR_FLOW_FLOW = f
    if busy ∨ x.phase ≠ 0 ∨ d.awaits (.flowHandover (halfOf h) (flowOp f) 0#32) then d
    else d.sched 0 (.flowHandover (halfOf h) (flowOp f) 0#32)

/-! Records of a flow that cannot go on (R154). -/

/-- A record of a flow whose engine is not to be had is discarded with cause 3, counted in that engine (R154). -/
def Dev.pinnedDiscard (d : Dev) (rid e : Nat) : Dev := (d.bump (Pg.newt e) F.NEWT_DISC_CNT).loseRec rid 3

/-- Is a flow on its way to an engine? -/
def Dev.comesTo (d : Dev) (h f e : Nat) : Bool :=
  match sfind d.handovers (flowKey h f) with
  | some x => x.dst = e
  | none => false

/-- Must records of the flow be discarded under R154, and which engine counts them? The flow is pinned to an engine that does not run or
that has no room for it, or its engine is HALTED or OFF and NO_MOVE keeps it there. -/
def Dev.stoppedFor (d : Dev) (h f : Nat) : Option Nat :=
  let cur := d.curEngine h f
  let pin := d.pinOf h f
  if d.flowFld h f FL_BYPASS = 1 then none
  else if d.pinned h f then
    if ¬ d.engRuns pin ∨ (cur ≠ pin ∧ ¬ d.comesTo h f pin ∧ 64 ≤ d.served pin) then some pin else none
  else if cur < 192 ∧ d.flowFld h f FL_NO_MOVE = 1 ∧ (d.engState cur = Es.halted ∨ d.engState cur = Es.off) then some cur
  else none

/-- The flow's queued records, oldest first. -/
def Dev.queuedOf (d : Dev) (h f : Nat) : List Nat :=
  ((d.nums.map Prod.snd).flatten.filter (fun n => match sfind d.recs n.rid with
    | some r => r.half = h && r.flow = f && r.st = .queued && decide (0 < r.units)
    | none => false)).map (fun n => n.rid)

/-- The flow's queued records are discarded where R154 has it so. -/
def Dev.discardStopped (d : Dev) (h f : Nat) : Dev :=
  match d.stoppedFor h f with
  | some e => (d.queuedOf h f).foldl (fun d rid => d.pinnedDiscard rid e) d
  | none => d

/-- An engine that now serves 64 flows is full for those pinned to it that it does not serve (R154). -/
def Dev.pinsFull (d : Dev) (e : Nat) : Dev :=
  if d.served e < 64 then d
  else (d.listedFlows (engHalf e)).foldl (fun (d : Dev) f =>
    if d.pinned (engHalf e) f ∧ d.pinOf (engHalf e) f = e then d.discardStopped (engHalf e) f else d) d

/-! Moves (R152, R196, R197). -/

/-- A flow moves from its engine to another: reasons 1 rebalance, 2 engine stopped, 3 pin; a halt sets the boundary (R152, R154). -/
def Dev.moveFlow (d : Dev) (h f dst reason : Nat) (since : Option Nat) : Dev :=
  let src := d.curEngine h f
  if d.inHandover h f ∨ src = dst ∨ 192 ≤ src then d
  else
    let x := d.pluOf h
    let d := d.setPlu h { x with moved := sput x.moved f (x.win + 1) }
    let d := (d.bump (Pg.plu h) F.PLU_MOVE_CNT).journal h 7 0 f 0xFFFFFFFF (dst + 2 ^ 8 * src + 2 ^ 16 * reason) 0
    (({ d with handovers := sput d.handovers (flowKey h f) { src := src, dst := dst, since := since } } : Dev).boundaryCheck h f).pinsFull dst

/-- May an engine that stopped give the flow away (R152, R197)? Not where NO_MOVE keeps it or the engine is its pin. -/
def Dev.mayLeave (d : Dev) (h f e : Nat) : Bool :=
  if d.pinned h f then d.pinOf h f ≠ e else d.flowFld h f FL_NO_MOVE = 0

/-- A flow of an engine that does not run asks for its move, once (R197, R200). -/
def Dev.askMove (d : Dev) (h f : Nat) : Dev :=
  let e := d.curEngine h f
  let x := d.pluOf h
  if 192 ≤ e ∨ d.engRuns e ∨ d.inHandover h f ∨ ¬ d.mayLeave h f e ∨ x.stops.any (fun s => s.flow = f) then d
  else
    let s : PluStop := { flow := f, eng := e, halt := if d.engState e = Es.halted then some d.ck else none }
    (d.setPlu h { x with stops := x.stops ++ [s] }).pluAsk h 2 f (.engineStoppedMove (engOp e))

/-- The move's decision: to the pin, or to the engine that R195 chooses; where none qualifies, the flow's queued records are discarded as
R154 has it, and its next record asks again (DESIGN CHOICE, log entry 22). -/
def Dev.stopMove (d : Dev) (h : Nat) (s : PluStop) : Dev :=
  let f := s.flow
  if d.engRuns s.eng ∨ d.curEngine h f ≠ s.eng ∨ d.inHandover h f ∨ ¬ d.mayLeave h f s.eng then d
  else
    let pin := d.pinOf h f
    match if d.pinned h f then (if d.takesFlow pin then some pin else none) else d.chooseEngine h (some s.eng) with
    | some t => d.moveFlow h f t (if d.pinned h f then 3 else 2) s.halt
    | none => (d.queuedOf h f).foldl (fun d rid => d.pinnedDiscard rid s.eng) d

/-- ENGINE_STOPPED_MOVE (R145, R154, R197): records that stay behind an engine which left RUN, WAIT and TRAP are discarded, its other
flows ask to be moved, and those whose decision completes in this CK are. -/
def Dev.engineStoppedMove (d : Dev) (e : Nat) : Dev :=
  let h := engHalf e
  let d := (d.listedFlows h).foldl (fun (d : Dev) f =>
    if d.curEngine h f = e ∨ (d.pinned h f ∧ d.pinOf h f = e) then d.discardStopped h f else d) d
  let d := if d.engRuns e then d else ((d.engOf e).slots.map Prod.fst).foldl (fun (d : Dev) f => d.askMove h f) d
  let now (s : PluStop) : Bool := s.eng = e && (match s.due with | some c => decide (c ≤ d.ck) | none => false)
  let mine := (d.pluOf h).stops.filter now
  let d := d.setPlu h { d.pluOf h with stops := (d.pluOf h).stops.filter (fun s => !now s) }
  mine.foldl (fun (d : Dev) s => d.stopMove h s) d

/-- FLOW_HANDOVER (R152, R153, Table 7-3): CK 0, 13, 21 and 24 after the boundary. `bad` tells the words of the slot that read
uncorrectable. -/
def Dev.flowHandover (d : Dev) (h f : Nat) (bad : BitVec 32) : Dev :=
  let k := flowKey h f
  let next (d : Dev) (n ph : Nat) (x : Handover) : Dev :=
    ({ d with handovers := sput d.handovers k { x with phase := ph } }).sched n (.flowHandover (halfOf h) (flowOp f) 0#32)
  match sfind d.handovers k with
  | none => d
  | some x =>
    match x.phase with
    | 0 => next d (match x.since with | some c => 13 - (d.ck - c) | none => 13) 1 x
    | 1 =>
      match sfind (d.engOf x.src).slots f with
      | none => next d 8 2 x
      | some s =>
        let d := (d.freeSlot x.src f).bump (Pg.newt x.src) F.NEWT_HANDOVER_CNT
        let d := d.giveSlot x.dst f
        let t := match sfind (d.engOf x.dst).slots f with | some t => t | none => 0
        let a := ctxAddr x.src s
        let b := ctxAddr x.dst t
        let d := (List.range 256).foldl (fun (d : Dev) i => ({ d with ctx := sset 0#8 d.ctx (b + i) (sget 0#8 d.ctx (a + i)) } : Dev)) d
        let old := (List.range 32).filter (fun w => d.ctxBad.contains (a / 8 + w) || bad.getLsbD w)
        let d := old.foldl (fun (d : Dev) w => ({ d with ctxBad := (b / 8 + w) :: d.ctxBad } : Dev).ocm Oc.scratch 2) d
        next d 8 2 x
    | 2 => next (d.setFlowFld h f FL_CUR_ENGINE x.dst) 3 3 x
    | _ =>
      let d := { d with handovers := serase d.handovers k }
      let d := (d.recs.filter (fun (y : Nat × Rec) => y.2.half = h && y.2.flow = f && y.2.st = .queued && decide (0 < y.2.units)
        && y.2.complete)).foldl (fun (d : Dev) y =>
          (d.setRec y.1 { d.recOf y.1 with offerCk := some d.ck }).schedOnce 0 (.recordOffer (engOp x.dst))) d
      ((d.discardStopped h f).askMove h f).slotCheck h f

/-- ENGINE_ASSIGN (R195), as the decision completes. -/
def Dev.engineAssign (d : Dev) (h f : Nat) : Dev :=
  let d := d.setPlu h { d.pluOf h with assigning := (d.pluOf h).assigning.filter (fun g => g ≠ f) }
  if d.curEngine h f < 192 ∨ (¬ d.flowEn h f ∧ d.queuedOf h f = []) then d
  else
    let pin := d.pinOf h f
    let e := if d.pinned h f then (if d.takesFlow pin then some pin else none) else d.chooseEngine h none
    match e with
    | none =>
      if d.pinned h f then (d.queuedOf h f).foldl (fun d rid => d.pinnedDiscard rid pin) d
      else match d.queuedOf h f with
        | [] => d
        | rid :: rest =>
          let d := (d.bump (Pg.plu h) F.PLU_NOENG_CNT).loseRec rid 3
          -- the next record of the flow tries again
          if rest = [] then d
          else (d.setPlu h { d.pluOf h with assigning := f :: (d.pluOf h).assigning }).pluAsk h 2 f (.engineAssign (halfOf h) (flowOp f))
    | some e =>
      let x := d.pluOf h
      let d := d.setPlu h { x with assigned := sset 0 x.assigned (e % 96) (sget 0 x.assigned (e % 96) + 1) }
      let d := ((d.giveSlot e f).setFlowFld h f FL_CUR_ENGINE e).journal h 7 0 f 0xFFFFFFFF (e + 2 ^ 8 * 0xFF) 0
      ((d.queuedOf h f).foldl (fun (d : Dev) rid => d.mayOffer rid) d).pinsFull e

/-- An engine's state changes; leaving RUN, WAIT and TRAP moves its flows (R145, R154, R197). -/
def Dev.setEngState (d : Dev) (e st : Nat) : Dev :=
  if 192 ≤ e then d
  else
    let was := d.engState e
    let d := d.setFld (Pg.newt e) F.NEWT_STAT_STATE st
    if was ≠ st ∧ ¬ d.engRuns e then d.schedOnce 0 (.engineStoppedMove (engOp e)) else d

/-! Windows (R188, R196, R197). -/

/-- The EWMA of R188: the shift is arithmetic. -/
def ewma (old new shift : Nat) : Nat := ((old : Int) + ((new : Int) - (old : Int)) / (2 ^ shift : Nat)).toNat

/-- R196: the busiest engine's heaviest flow that may move goes to the chosen engine, if the gap is wide enough. -/
def Dev.rebalance (d : Dev) (h : Nat) : Dev :=
  let pg := Pg.plu h
  let x := d.pluOf h
  let engs := (List.range 96).map (fun i => 96 * h + i)
  let E := engs.foldl (fun b e => if d.engLoad b < d.engLoad e then e else b) (96 * h)
  match d.chooseEngine h (some E) with
  | none => d
  | some T =>
    if d.engLoad E < d.engLoad T + d.fld pg F.PLU_MOVE_GAP ∨ (d.engOf E).slots.length < 2 then d
    else
      let can := ((d.engOf E).slots.map Prod.fst).filter (fun f =>
        d.flowFld h f FL_NO_MOVE = 0 && !d.pinned h f && !d.inHandover h f
          && (match sfind x.moved f with
            | some w => decide (d.fld pg F.PLU_MOVE_HOLD + w < x.win + 1)
            | none => true))
      match can.foldl (fun (b : Option Nat) f => match b with
        | none => some f
        | some g => if d.weighted h g < d.weighted h f then some f else b) none with
      | some f => d.moveFlow h f T 1 none
      | none => d

/-- Do the rates stand still (R201)? -/
def keepsRates (m : Nat) : Bool := m = Mode.offload.code || m = Mode.sleep.code || m = Mode.safe.code

/-- PLACEMENT_WINDOW: at the boundary all rates and loads change together, but for the modes that keep them (R201); the moves of R196 and
R197 are decisions of their own and complete later. -/
def Dev.placementWindow (d : Dev) (h : Nat) : Dev :=
  let x := d.pluOf h
  if x.winCk + 1024 ≤ d.ck ∧ keepsRates (d.modeOf h) then d.newWindow h
  else if x.winCk + 1024 ≤ d.ck then
    let sh := d.fld (Pg.plu h) F.PLU_EWMA_SHIFT
    let flows := ((x.rate.map Prod.fst) ++ (x.bytes.map Prod.fst)).eraseDups
    let rate := flows.foldl (fun m f => sset 0 m f (ewma (sget 0 x.rate f) (sget 0 x.bytes f) sh)) x.rate
    let engs := ((x.load.map Prod.fst) ++ (x.issue.map Prod.fst)).eraseDups
    let load := engs.foldl (fun m e => sset 0 m e (ewma (sget 0 x.load e) (sget 0 x.issue e) sh)) x.load
    let d := d.setPlu h { x with rate := rate, load := load }
    let d := (List.range 96).foldl (fun d i => d.setFld (Pg.plu h) (F.PLU_ENGLOAD_LOAD i) (sget 0 load i)) d
    -- a stripe of either half may carry a flow of this one (R189, R198)
    let d := ((d.newWindow h).updLoads h).updLoads (1 - h)
    let pins := (d.listedFlows h).filter (fun f => d.pinned h f && decide (d.curEngine h f < 192)
      && d.curEngine h f ≠ d.pinOf h f && d.takesFlow (d.pinOf h f) && !d.inHandover h f)
    let moves := (if d.flag (Pg.plu h) F.PLU_CTRL_REBAL then [none] else []) ++ pins.map some
    let d := d.setPlu h { d.pluOf h with moves := (d.pluOf h).moves ++ moves }
    moves.foldl (fun (d : Dev) _ => d.pluAsk h 0 0 (.placementWindow (halfOf h))) d
  else match x.moves with
    | [] => d
    | m :: rest =>
      let d := d.setPlu h { x with moves := rest }
      match m with
      | none => d.rebalance h
      | some f =>
        if d.pinned h f ∧ d.curEngine h f ≠ d.pinOf h f ∧ d.takesFlow (d.pinOf h f) then d.moveFlow h f (d.pinOf h f) 3 none else d

/-! Spill (R198, R199). -/

/-- Flows of R198's list: spillable, heaviest first. -/
def Dev.spillable (d : Dev) (h : Nat) : List Nat :=
  let l := (d.listedFlows h).filter (fun f => d.flowEn h f && d.flowFld h f FL_NO_SPILL = 0 && d.flowFld h f FL_CHAN_SET = 0)
  let ins (f : Nat) (l : List Nat) : List Nat :=
    let p (g : Nat) : Bool := decide (d.weighted h f < d.weighted h g) || (d.weighted h f = d.weighted h g && decide (g < f))
    l.filter p ++ [f] ++ l.filter (fun g => !p g)
  l.foldl (fun acc f => ins f acc) []

/-- SPILL_START (R198, R199), as the decision completes. -/
def Dev.spillStart (d : Dev) (h : Nat) : Dev :=
  let pg := Pg.plu h
  if ¬ d.cqSpill h then d
  else if d.cqSpill (1 - h) then d.err pg 4 0x0905
  else
    let target := d.fld pg F.PLU_SPILL_TARGET_BYTES
    let sel := (d.spillable h).foldl (fun (acc : List Nat × Nat) f =>
      let w := d.weighted h f
      if acc.1 = [] ∨ acc.2 + w ≤ target then (acc.1 ++ [f], acc.2 + w) else acc) ([], 0)
    if sel.1 = [] then d
    else
      let d := ((d.bump pg F.PLU_SPILL_CNT).pend pg 0).setFld pg F.PLU_STAT_SPILL_OUT 1
      let d := d.setFld (Pg.plu (1 - h)) F.PLU_STAT_SPILL_IN 1
      let d := d.journal h 8 0 0 0xFFFFFFFF sel.2 0
      let d := d.setPlu h { d.pluOf h with spilled := sel.1 }
      sel.1.foldl (fun d f => match d.openExt h f with | some x => d.closeExt x | none => d) d

/-- SPILL_END (R199): flows still placed elsewhere close their extents there at their next records. -/
def Dev.spillEnd (d : Dev) (h : Nat) : Dev :=
  let pg := Pg.plu h
  if d.cqSpill h ∨ (d.pluOf h).spilled = [] then d
  else
    let d := ((d.bump pg F.PLU_SPILL_CNT).pend pg 1).setFld pg F.PLU_STAT_SPILL_OUT 0
    let d := d.setFld (Pg.plu (1 - h)) F.PLU_STAT_SPILL_IN 0
    (d.setPlu h { d.pluOf h with spilled := [] }).journal h 9 0 0 0xFFFFFFFF 0 0

/-! Software writes. -/

/-- A write to PLU_x_REL (R194). -/
def Dev.pluRelWrite (d : Dev) (h : Nat) (val : Word) : Dev :=
  let f := bitsOf val.toNat 0 12
  let n := bitsOf val.toNat 12 20
  let l := (d.exts.filter (fun x => x.half = h && x.flow = f && !x.isOpen)).take n
  if l = [] then d.err (Pg.plu h) 1 0x0902
  else l.foldl (fun d x => (d.journal h 10 (otherHalf x.home h) f (extWord x) x.ord (extFirst x)).dropExt x) d

/-- Does any stripe that holds channel 8h + c hold an extent (R187)? -/
def Dev.chanHeld (d : Dev) (h c : Nat) : Bool :=
  (List.range 8).any (fun s => (d.stripeChans h s).contains (8 * h + c) && (d.extsOn h s) ≠ [])

/-- A write to a STRIPE or POOL register of a PLU page, or to another threshold register there (R182, R187, R203). -/
def Dev.stripeWrite (d : Dev) (h off : Nat) (val : Word) : Dev :=
  let pg := Pg.plu h
  let v := val.toNat
  match regDesc .plu off with
  | none => d
  | some r =>
    if 0x120 ≤ off ∧ off < 0x140 then
      let s := (off - 0x120) / 4
      let chans := bitsOf v 0 8
      let en := bit v 12
      let others := (List.range 8).any (fun t => t ≠ s && d.stripeEn h t
        && (d.fld pg (F.PLU_STRIPE_CHANS t) &&& chans) ≠ 0)
      let shape := [1, 2, 4, 8].contains (popc chans 8) && decide (8 ≤ bitsOf v 8 4) && decide (bitsOf v 8 4 ≤ 16)
      let bad := d.extsOn h s ≠ [] || (en && (!shape || others))
      let d := if v / 2 ^ 13 ≠ 0 then d.regErr pg 1 else d
      if bad then d.err pg 0 0x0901 else d.setReg pg off (BitVec.ofNat 32 (v % 2 ^ 13))
    else if 0x180 ≤ off ∧ off < 0x1C0 then
      let c := (off - 0x180) / 8
      if d.chanHeld h c ∨ (off % 8 = 4 ∧ 2 ^ 20 < bitsOf v 0 21) then
        let d := d.err pg 0 0x0901
        if d.cfgLock ∧ val ≠ d.reg pg off then d.plainWrite pg h r off val 0 else d
      else d.plainWrite pg h r off val 0
    else
      let bad :=
        if off = 0x104 then bitsOf v 0 24 = 0
        else if off = 0x108 then bitsOf v 0 11 = 0 || decide (1024 < bitsOf v 0 11)
        else if off = 0x10C then bitsOf v 0 18 = 0 || decide (206848 < bitsOf v 0 18)
        else false
      if bad then d.err pg 1 0x0902 else d.plainWrite pg h r off val 0

/-! The commands. -/

/-- FLOW_HANDOVER (R152). -/
def execFlowHandover (h : Half) (flow : Fin 4096) (bad : BitVec 32) (s : State) : Host.Outcome State Fault Refusal :=
  s.run (.flowHandover h flow bad) (fun d => d.flowHandover h.val flow.val bad)

/-- PLACEMENT_WINDOW (R188). -/
def execPlacementWindow (h : Half) (s : State) : Host.Outcome State Fault Refusal :=
  s.run (.placementWindow h) (fun d => d.placementWindow h.val)

/-- NEW_EXTENT (R190). -/
def execNewExtent (h : Half) (flow : Fin 4096) (s : State) : Host.Outcome State Fault Refusal :=
  s.run (.newExtent h flow) (fun d => d.newExtent h.val flow.val)

/-- ENGINE_ASSIGN (R195). -/
def execEngineAssign (h : Half) (flow : Fin 4096) (s : State) : Host.Outcome State Fault Refusal :=
  s.run (.engineAssign h flow) (fun d => d.engineAssign h.val flow.val)

/-- ENGINE_STOPPED_MOVE (R197). -/
def execEngineStoppedMove (e : Fin 192) (s : State) : Host.Outcome State Fault Refusal :=
  s.run (.engineStoppedMove e) (fun d => d.engineStoppedMove e.val)

/-- SPILL_START (R198). -/
def execSpillStart (h : Half) (s : State) : Host.Outcome State Fault Refusal :=
  s.run (.spillStart h) (fun d => d.spillStart h.val)

/-- SPILL_END (R199). -/
def execSpillEnd (h : Half) (s : State) : Host.Outcome State Fault Refusal :=
  s.run (.spillEnd h) (fun d => d.spillEnd h.val)

/-- PLU_REL_WRITE (R194). -/
def execPluRelWrite (h : Half) (val : Word) (s : State) : Host.Outcome State Fault Refusal :=
  s.cmd (fun d => d.pluRelWrite h.val val)

end Sys2Proof.Machine
end

