-- ==== Sys2Proof/Machine/Capture.lean ====
section
/-! DEFINITION. The capture writer: records and gap markers into extents, acknowledgements, the tap ring (R121, R122, R124,
R125, R132, R208, R212, R213). -/

namespace Sys2Proof.Machine

/-! Records as written (Table 6-2). -/

/-- The 32-byte header (Table 6-2). -/
def headerBytes (r : Rec) (payload : List Byte) (flags : Nat) : List Byte :=
  leBytes 8 (lpInt r.lp) ++ [byteOf (lpFrac r.lp) 0, byteOf r.lane 0] ++ leBytes 2 (r.flow % 4096 + 4096 * r.typ)
    ++ leBytes 2 payload.length ++ leBytes 2 flags ++ leBytes 4 r.seq ++ leBytes 4 (crc32c payload).toNat ++ leBytes 4 r.vec
    ++ [byteOf r.engine 0] ++ leBytes 3 r.tag

/-- The bytes of a record in the store: header, payload, zero padding to 32 bytes (R124). -/
def recordBytes (r : Rec) (payload : List Byte) (flags : Nat) : List Byte :=
  headerBytes r payload flags ++ payload ++ List.replicate (alignUp payload.length 32 - payload.length) 0#8

/-! The tap ring (R212, R213). -/

/-- Pop the oldest entry into the latch: the register's value. -/
def Dev.tapTake (d : Dev) (h : Nat) : Dev × Word :=
  let x := d.cqOf h
  match x.tap with
  | [] => (d.setWindow (Pg.cq h) 0x180 16 (0#512), 0#32)
  | e :: rest => ((d.setCq h { x with tap := rest }).setWindow (Pg.cq h) 0x180 16 e, BitVec.ofNat 32 (2 ^ 31 + rest.length))

/-- The value of a TAP_POP read goes to its reader. -/
def Dev.tapReply (d : Dev) (h : Nat) (who : TapWho) (v : Word) : Dev :=
  match who with
  | .cmd => d.emit (.rdata (raddr (Pg.cq h) 0x144) v)
  | .noc id =>
    match sfind d.nocReqs id with
    | none => d
    | some r => ({ d with nocReqs := sput d.nocReqs id { r with ph := .target, left := 0, data := leBytes 4 v.toNat } } : Dev).sched 0
        (.nocDelivery id 0)
  | .host =>
    match d.hcmd with
    | none => d
    | some c => ({ d with hcmd := some { c with phase := c.phase + 1, vals := c.vals ++ [v] } } : Dev).sched 0 .regRead

/-- Reads of TAP_POP that wait are served in arrival order (R213). -/
def Dev.tapServe (d : Dev) (h : Nat) : Dev :=
  let x := d.cqOf h
  match x.tapReads with
  | [] => d
  | r :: rest =>
    let d := d.setCq h { x with tapReads := rest }
    let p := d.tapTake h
    p.1.tapReply h r.2 p.2

/-- A record written in a half is copied to its tap ring, or the copy is dropped; flow 0 there is the half's own (R212). -/
def Dev.tapCopy (d : Dev) (h home flow : Nat) (bytes : List Byte) : Dev :=
  let pg := Pg.cq h
  let n := (List.range 4).countP (fun k => d.flag pg (F.CQ_TAP_EN k) && d.fld pg (F.CQ_TAP_FLOW k) = flow
    && (decide (flow ≠ 0) || home = h))
  if n = 0 then d
  else
    let x := d.cqOf h
    if 4096 ≤ x.tap.length then d.bump pg F.CQ_TAP_DROP_CNT
    else
      let e : BitVec 512 := BitVec.ofNat 512 (leNat ((bytes ++ List.replicate 64 0#8).take 64))
      let d := d.setCq h { x with tap := x.tap ++ [e] }
      let d := if x.tap = [] then d.pend pg 5 else d
      d.tapServe h

/-- A read of TAP_POP (R213): the oldest entry goes to the latch, or the read waits for one; a PEEK changes nothing. None: it waits. -/
def Dev.tapRead (d : Dev) (h : Nat) (peek : Bool) (who : TapWho) : Dev × Option Word :=
  let x := d.cqOf h
  let wait := d.fld (Pg.cq h) F.CQ_TAP_WAIT_CK
  if peek then (d, some (BitVec.ofNat 32 x.tap.length))
  else if x.tap ≠ [] ∨ (wait = 0 ∧ x.tapReads = []) then let p := d.tapTake h; (p.1, some p.2)
  else ((d.setCq h { x with tapReads := x.tapReads ++ [(d.ck + wait, who)] }).sched wait (.tapPopTimeout (halfOf h)), none)

/-- TAP_POP as a command. -/
def Dev.tapPop (d : Dev) (h : Nat) (peek : Bool) : Dev :=
  let p := d.tapRead h peek .cmd
  match p.2 with
  | some v => p.1.tapReply h .cmd v
  | none => p.1

/-- TAP_POP_TIMEOUT (R213): of the reads whose time is over, the one that has waited longest returns VALID 0 and zeroes the latch. -/
def Dev.tapPopTimeout (d : Dev) (h : Nat) : Dev :=
  let x := d.cqOf h
  match x.tapReads.find? (fun r => decide (r.1 ≤ d.ck)) with
  | none => d
  | some r =>
    let p := (d.setCq h { x with tapReads := x.tapReads.erase r }).tapTake h
    p.1.tapReply h r.2 p.2

/-! Writing to extents (R183, R185, R208, R267, R291). -/

/-- The segments that the next `n` bytes of an open extent's stream take: extent, offset, length; and the extent afterwards. -/
def spanOf (x : Ext) (n : Nat) : List (Nat × Nat × Nat) × Ext :=
  match x.carry with
  | some c =>
    let a := min n (extBytes - c.off)
    let rest := n - a
    ((if a = 0 then [] else [(c.no, c.off, a)]) ++ (if rest = 0 then [] else [(x.openNo, x.written, rest)]),
      { x with written := x.written + rest, carry := if rest = 0 then some { c with off := c.off + a } else none })
  | none => ([(x.openNo, x.written, n)], { x with written := x.written + n })

/-- DRAM pieces that write bytes at an offset of an extent: whole bursts, or whole seal blocks in an encrypted range, with the
held tail before and zero bytes beyond the frontier. -/
def Dev.extPieces (d : Dev) (x : Ext) (off : Nat) (bs : List Byte) : List Piece :=
  let t0 := off / 256 * 256
  let all := x.tail ++ List.replicate (off - t0 - x.tail.length) 0#8 ++ bs
  let p := d.slotByte x.half x.stripe x.slot off
  let unit := if d.isSealed p.1 p.2 then 256 else 64
  let start := off / unit * unit
  let body := all.drop (start - t0)
  let full := body ++ List.replicate (alignUp body.length unit - body.length) 0#8
  let locs := d.slotPieces x.half x.stripe x.slot (full.length / 256 + 2) start full.length
  (locs.foldl (fun (acc : List Piece × List Byte) l =>
    (acc.1 ++ [(⟨l.1, l.2.1, l.2.2, some ((acc.2.take l.2.2).map some)⟩ : Piece)], acc.2.drop l.2.2)) ([], full)).1

/-- The tail of an extent after bytes joined it at an offset. -/
def tailAfter (x : Ext) (off : Nat) (bs : List Byte) : List Byte :=
  let all := x.tail ++ List.replicate (off % 256 - x.tail.length) 0#8 ++ bs
  all.drop (all.length - (off + bs.length) % 256)

/-- Write the bytes of one record at the flow's frontier; the record waits for the acknowledgement (R208). -/
def Dev.streamWrite (d : Dev) (home f rid : Nat) (bs : List Byte) (lp : Nat) : Dev :=
  match d.openExt home f with
  | none => d
  | some x =>
    let p := spanOf x bs.length
    let d := d.setExt p.2
    let r := p.1.foldl (fun (acc : Dev × List Piece × List Byte) seg =>
      let d := acc.1
      match d.exts.find? (fun y => y.openNo = seg.1) with
      | none => (d, acc.2.1, acc.2.2.drop seg.2.2)
      | some y =>
        let part := acc.2.2.take seg.2.2
        let pieces := d.extPieces y seg.2.1 part
        let y := { y with tail := tailAfter y seg.2.1 part, infl := y.infl.filter (fun i => i.1 ≠ rid && i.2 ≠ seg.2.1) ++ [(rid, seg.2.1)]
                          firstLp := some (y.firstLp.getD lp), lastLp := lp }
        (d.setExt y, acc.2.1 ++ pieces, acc.2.2.drop seg.2.2)) (d, [], bs)
    let d := r.1
    let h := (d.recOf rid).half
    let tx := d.nextTx
    let d := d.dramMulti (some (Ep.writer home)) r.2.1 false 5 1 false true (some (.captureWriteAck (halfOf h) rid false))
    d.setRec rid { d.recOf rid with st := .writing, tx := tx }

/-- Flag bit 7: the record goes to the other half (R198). -/
def Dev.placedFlag (d : Dev) (home f : Nat) : Nat :=
  match d.openExt home f with
  | some x => if x.half = home then 0 else 128
  | none => 0

/-- The capture writer writes the gap marker of the flow's open run (R122, R132). -/
def Dev.writeMarker (d : Dev) (home f : Nat) : Dev :=
  let k := flowKey home f
  let run := sget ({} : LossRun) d.runs k
  if run.count = 0 then d
  else
    let payload := leBytes 4 run.count ++ [byteOf run.causes 0, 0#8, 0#8, 0#8] ++ leBytes 8 (lpInt run.lastLp)
      ++ List.replicate 16 0#8
    let r : Rec := { half := home, lane := run.lane, typ := 3, lp := run.lp, flow := f, seq := run.seq, payload := payload,
                     flags := d.placedFlag home f, ended := true, complete := true, st := .writing }
    let rid := d.nextRid
    let bytes := recordBytes r payload r.flags
    let d := (d.addRec r).streamWrite home f rid bytes (lpInt run.lp)
    let d := { d with runs := sset {} d.runs k { after := run.after } }
    let d := ((d.setFlowFld home f FL_GAP_OPEN 0).flowBump home f FL_GAPMARKS 1).bump (Pg.flow home) F.FLOW_GAP_CNT
    ((d.pend (Pg.flow home) 2)).tapCopy (d.placeHalf home f) home f bytes

/-- Records the writer may take: emitted, there, the head of their flow's numbers, no extent decision under way; oldest first
(R208). -/
def Dev.writable (d : Dev) (h : Nat) : List (Nat × Rec) :=
  let ok (x : Nat × Rec) : Bool := x.2.half = h && x.2.st = .emitted && x.2.complete && decide (x.2.emitCk ≤ d.ck)
    && decide (x.2.copyCk ≤ d.ck) && !(d.pluOf h).extending.contains x.2.flow
    && (match sget [] d.nums (flowKey h x.2.flow) with | n :: _ => decide (n.rid = x.1) | [] => false)
  let ins (x : Nat × Rec) (l : List (Nat × Rec)) : List (Nat × Rec) :=
    l.filter (fun y => decide (y.2.allocNo ≤ x.2.allocNo)) ++ [x] ++ l.filter (fun y => decide (x.2.allocNo < y.2.allocNo))
  (d.recs.filter ok).foldl (fun l x => ins x l) []

/-- One record is written: marker first, then the record with its flags, its flow's counters, its number resolved (R121, R122,
R124). -/
def Dev.writeRecord (d : Dev) (rid : Nat) (r : Rec) (ecc : Nat) : Dev :=
  let h := r.half
  let f := r.flow
  let k := flowKey h f
  let lossBefore := (sget ({} : LossRun) d.runs k).after = some r.seq
  let d := if ecc = 0 then d else d.ocm Oc.queue ecc
  let d := d.writeMarker h f
  let body := r.body
  let poison := r.poison || ecc = 2
  let flags := body.2 ||| (if lossBefore then 64 else 0) ||| (if poison then 16 else 0) ||| d.placedFlag h f
  let bytes := recordBytes r body.1 flags
  let ph := d.placeHalf h f
  let d := d.streamWrite h f rid bytes (lpInt r.lp)
  let masked := headerBytes { r with engine := 0xFF } body.1 (bitsPut flags 6 2 0)
  let d := d.setRec rid { d.recOf rid with term := (crc32c body.1).toNat * 2 ^ 32 + (crc32c masked).toNat }
  let d := ((d.flowBump h f FL_RECORDS 1).flowBump h f FL_BYTES body.1.length).setFlowFld h f FL_LAST_LP (lpInt r.lp)
  let d := if bit flags 4 then d.flowBump h f FL_POISONED 1 else d
  let d : Dev := { d with nums := sset [] d.nums k ((sget [] d.nums k).drop 1) }
  (d.tapCopy ph h f bytes).resolve h f

/-- A record an engine emitted reaches the writer: over the units it came from if it fits them, else in new units under the fit rule,
the old ones freed; it is lost with cause 1 where they are not free (R206). -/
def Dev.placeOne (d : Dev) (h rid : Nat) : Dev :=
  let r := d.recOf rid
  let need := storeSize r.body.1.length / 32
  if need ≤ r.units then d
  else if cqCap < (d.cqOf h).fill + need then d.fullLoss rid
  else
    let d := (d.freeUnits rid).bump (Pg.cq h) F.CQ_NEWALLOC_CNT
    (d.setRec rid { d.recOf rid with units := need }).takeUnits h rid need

/-- Every emitted record of the half that has reached the writer. -/
def Dev.placeEmitted (d : Dev) (h : Nat) : Dev :=
  (d.recs.filter (fun (x : Nat × Rec) => x.2.half = h && x.2.st = .emitted && x.2.emit.isSome && decide (x.2.emitCk ≤ d.ck))).foldl
    (fun (d : Dev) x => d.placeOne h x.1) d

/-- Pair sync marks are written to flow 0 where its extent has room; they are lost where the flow is frozen (R472). -/
def Dev.writeMarks (d : Dev) (h : Nat) : Dev :=
  let ms := d.marksOf h
  let clear (d : Dev) : Dev := { d with pair := { d.pair with marks := sset [] d.pair.marks h [] } }
  if ms = [] ∨ (d.pluOf h).extending.contains 0 then d
  else if d.flowFld h 0 FL_FROZEN = 1 then clear d
  else
    let fits : Bool := match d.openExt h 0 with
      | some x => x.half = d.placeHalf h 0 && (decide (x.written + 64 * ms.length ≤ extBytes) || x.carry.isSome)
      | none => false
    if ¬ fits then d.askExtent h 0
    else ms.foldl (fun (d : Dev) (m : PairMark) =>
      let r : Rec := { half := h, lane := ownLane h, typ := 5, lp := m.lp, flow := 0, seq := m.seq, payload := m.payload,
                       flags := d.placedFlag h 0, ended := true, complete := true, st := .writing }
      let rid := d.nextRid
      let bytes := recordBytes r m.payload r.flags
      ((d.addRec r).streamWrite h 0 rid bytes (lpInt m.lp)).tapCopy (d.placeHalf h 0) h 0 bytes) (clear d)

/-- Has the flow's open extent room for what its stream needs next? -/
def Dev.extFits (d : Dev) (h f : Nat) : Bool :=
  match d.openExt h f with
  | some x => x.half = d.placeHalf h f && (decide (x.written + d.streamNeed h f ≤ extBytes) || x.carry.isSome)
  | none => false

/-- A record that has reached the writer while a PUSH.SP still copies it asks for the extent it needs (R174, R200). -/
def Dev.earlyExtents (d : Dev) (h : Nat) : Dev :=
  (d.recs.filter (fun (x : Nat × Rec) => x.2.half = h && x.2.st = .emitted && decide (x.2.emitCk ≤ d.ck) && decide (d.ck < x.2.copyCk)
    && (match sget [] d.nums (flowKey h x.2.flow) with | n :: _ => decide (n.rid = x.1) | [] => false))).foldl
      (fun (d : Dev) x => if d.extFits h x.2.flow then d else d.askExtent h x.2.flow) d

/-- CAPTURE_WRITE (R208): the writer takes the oldest record it may and writes it, or asks for the extent it needs. `ecc` tells how
its queue words read (R276). -/
def Dev.captureWrite (d : Dev) (h ecc : Nat) : Dev :=
  let d := ((d.placeEmitted h).writeMarks h).earlyExtents h
  match d.writable h with
  | [] => d
  | (rid, r) :: rest =>
    let f := r.flow
    let d := if d.extFits h f then d.writeRecord rid r ecc else d.askExtent h f
    let soon := d.recs.any (fun (x : Nat × Rec) => x.2.half = h && x.2.st = .emitted && decide (d.ck < x.2.emitCk))
    if rest = [] ∧ ¬ soon ∧ (d.writable h) = [] then d else d.schedOnce 1 (.captureWrite (halfOf h) 0)

/-- GAP_MARKER_CLOSE (R122): a run still open when the flow stopped is closed, unless the flow is FROZEN. -/
def Dev.gapMarkerClose (d : Dev) (h f : Nat) : Dev :=
  let k := flowKey h f
  let drop (d : Dev) : Dev := { d with closing := serase d.closing k }
  if (sfind d.closing k).isNone then d
  else if (sget ({} : LossRun) d.runs k).count = 0 ∨ d.flowFld h f FL_FROZEN = 1 then drop d
  else match d.openExt h f with
    | some x =>
      if x.half = d.placeHalf h f ∧ x.written + 64 ≤ extBytes then drop (d.writeMarker h f) else d.askExtent h f
    | none => d.askExtent h f

/-- CAPTURE_WRITE_ACK (R208): the last write of a record is acknowledged, or answered with an error: its number is lost with
cause 4 and its extents are poisoned. -/
def Dev.captureWriteAck (d : Dev) (h rid : Nat) (err : Bool) : Dev :=
  match sfind d.recs rid with
  | none => d
  | some r =>
    let t := sget ({} : DTx) d.dtx r.tx
    if r.st ≠ .writing ∨ r.half ≠ h ∨ ¬ d.txDone t then d
    else
      -- gap markers and pair sync marks take no number and no units
      let numbered : Bool := r.typ ≠ 3 && r.typ ≠ 5
      let bad := err || t.resp ≠ .ok
      let d : Dev := { d with dtx := serase d.dtx r.tx }
      let mine := d.exts.filter (fun x => x.infl.any (fun i => i.1 = rid))
      let d := mine.foldl (fun d x =>
        let y := { x with infl := x.infl.filter (fun i => i.1 ≠ rid), poison := x.poison || bad }
        let d := d.setExt y
        if bad then d.writeDesc y (if y.isOpen then Xs.opened else Xs.closed) y.endBytes else d) d
      let d := if bad then d.err (Pg.cq h) 1 0x0A02 else d
      let d := if bad ∧ numbered then (d.flowBump h r.flow FL_LOST 1).bump (Pg.flow h) F.FLOW_LOST_CNT else d
      let d := if ¬ numbered then d
        else if bad then d.epochLost h r.flow r.epoch 4
        else d.epochWritten h r.flow r.epoch r.term
      let d := if ¬ numbered then d else d.freeUnits rid
      (d.dropRec rid).flushCheck h

/-- FLUSH_DONE (R211). -/
def Dev.flushDone (d : Dev) (h : Nat) : Dev :=
  if ¬ d.flag (Pg.cq h) F.CQ_STAT_FLUSH_PEND
      ∨ d.recs.any (fun (x : Nat × Rec) => x.2.half = h && decide (0 < x.2.units) && decide (x.2.allocNo < (d.cqOf h).mark)) then d
  else (d.setFld (Pg.cq h) F.CQ_STAT_FLUSH_PEND 0).pend (Pg.cq h) 3

/-! The commands. -/

/-- CAPTURE_WRITE (R208). -/
def execCaptureWrite (h : Half) (ecc : Fin 3) (s : State) : Host.Outcome State Fault Refusal :=
  s.run (.captureWrite h ecc) (fun d => d.captureWrite h.val ecc.val)

/-- CAPTURE_WRITE_ACK (R208). -/
def execCaptureWriteAck (h : Half) (rid : Nat) (err : Bool) (s : State) : Host.Outcome State Fault Refusal :=
  s.run (.captureWriteAck h rid err) (fun d => d.captureWriteAck h.val rid err)

/-- FLUSH_DONE (R211). -/
def execFlushDone (h : Half) (s : State) : Host.Outcome State Fault Refusal :=
  s.run (.flushDone h) (fun d => d.flushDone h.val)

/-- TAP_POP (R213). -/
def execTapPop (h : Half) (peek : Bool) (s : State) : Host.Outcome State Fault Refusal :=
  s.cmd (fun d => d.tapPop h.val peek)

/-- TAP_POP_TIMEOUT (R213). -/
def execTapPopTimeout (h : Half) (s : State) : Host.Outcome State Fault Refusal :=
  s.run (.tapPopTimeout h) (fun d => d.tapPopTimeout h.val)

/-- GAP_MARKER_CLOSE (R122). -/
def execGapMarkerClose (h : Half) (flow : Fin 4096) (s : State) : Host.Outcome State Fault Refusal :=
  s.run (.gapMarkerClose h flow) (fun d => d.gapMarkerClose h.val flow.val)

end Sys2Proof.Machine
end

