-- ==== Sys2Proof/Machine/Flows.lean ====
section
/-! DEFINITION. Records reach the capture queue; the flow table's commands (R116 to R123, R133, R134, R205, R207). -/

namespace Sys2Proof.Machine

/-! Allocation (R118 to R120, R154, R195, R205, R207). -/

/-- A record that is not captured leaves; one still arriving stays marked until its last byte has come. -/
def Dev.forget (d : Dev) (rid : Nat) : Dev :=
  let r := d.recOf rid
  if r.complete ∨ (r.typ ≠ 0 ∧ r.typ ≠ 4) then d.dropRec rid else d.setRec rid { r with gone := true }

/-- A trigger mark that reaches the queue outside capture counts in its issuer (R120). -/
def Dev.markDiscard (d : Dev) (r : Rec) : Dev :=
  match r.mark with
  | some (.evs _) => d.bump (Pg.evs ((byteAt r.payload 1).toNat)) F.EVS_MODE_DISC_CNT
  | some (.seq _ _) => d.bump (Pg.trig ((byteAt r.payload 1).toNat)) F.TRIG_MODE_DISC_CNT
  | some .port | none => d

/-- An unregistered record goes to flow 0, its flow in the tag (R118). -/
def Dev.redirect (d : Dev) (h : Nat) (rid : Nat) : Dev :=
  let r := d.recOf rid
  if eget (d.flowThen h r.flow) FL_EN = 1 then d
  else
    let d := d.setRec rid { r with flow := 0, tag := r.tag % 4096 + 4096 * r.flow }
    ((d.bump (Pg.flow h) F.FLOW_UNREG_CNT).pend (Pg.flow h) 0).flowBump h 0 FL_UNREG 1

/-- Bytes of store that count toward the flow's rate (R188). -/
def Dev.rateBytes (d : Dev) (h f n : Nat) : Dev :=
  let x := d.pluOf h
  d.setPlu h { x with bytes := sset 0 x.bytes f (sget 0 x.bytes f + n) }

/-- Units a record needs for what has reached the queue (R205). -/
def Rec.needUnits (r : Rec) : Nat := unitsOf (min r.reached r.keptLen) r.complete

/-- A record is in the queue whole: a BYPASS record is emitted, any other waits for its engine (R206, R207, R154, R195). -/
def Dev.whole (d : Dev) (rid : Nat) : Dev :=
  let r := d.recOf rid
  let h := r.half
  let f := r.flow
  if ¬ r.complete ∨ r.units = 0 then d
  else if r.st = .emitted then (d.setRec rid { r with emitCk := d.ck }).kickWriter h
  else match d.stoppedFor h f with
    | some e => d.pinnedDiscard rid e
    | none => d.mayOffer rid

/-- The record asks for its flow's engine, once, or for one that runs (R195, R200). -/
def Dev.askEngine (d : Dev) (h f : Nat) : Dev :=
  let x := d.pluOf h
  if eget (d.flowThen h f) FL_BYPASS = 1 then d
  else if d.curEngine h f < 192 then d.askMove h f
  else if x.assigning.contains f ∨ (d.stoppedFor h f).isSome then d
  else (d.setPlu h { x with assigning := f :: x.assigning }).pluAsk h 2 f (.engineAssign (halfOf h) (flowOp f))

/-- QUEUE_ALLOCATION (R118 to R120, R205): the record at the front of the half's allocation points. -/
def Dev.allocate (d : Dev) (h rid : Nat) : Dev :=
  let r := d.recOf rid
  -- the event of a SAFE entry is the last that the queue takes (R40)
  if ¬ isCapturing (d.modeOf h) ∧ ¬ (r.typ = 1 ∧ byteAt r.payload 0 = 0x21#8) then (d.markDiscard r).forget rid
  else
    let d := d.redirect h rid
    let r := d.recOf rid
    let f := r.flow
    let seq := d.flowFld h f FL_NEXT_SEQ
    let k := flowKey h f
    let d := d.setFlowFld h f FL_NEXT_SEQ (seq + 1)
    let d : Dev := { d with nums := sset [] d.nums k (sget [] d.nums k ++ [⟨seq, rid, none, r.lp, r.lane⟩]) }
    let ep := lpInt (d.pubLp h) / 2 ^ 16
    let d := d.setRec rid { r with seq := seq, epoch := ep + 1 }
    -- the last record of a flow that has stopped: the event of a SAFE entry, one whose flow is disabled in this CK (R40, R122, R134)
    let d := if (r.typ = 1 ∧ byteAt r.payload 0 = 0x21#8) ∨ ¬ d.flowEn h f then d.stopFlow h f else d
    let d := if f = 0 then d else d.onEpoch h ep (fun x => { x with unresolved := x.unresolved + 1 })
    let d := d.askEngine h f
    if r.shed then ((d.forget rid).epochLost h f (ep + 1) 0).loseNum h f rid 0
    else
      let d := d.rateBytes h f (32 + (if r.complete then alignUp r.keptLen 32 else min r.reached r.keptLen / 32 * 32))
      let x := d.cqOf h
      let need := r.needUnits
      let d := d.setRec rid { d.recOf rid with allocCk := d.ck, allocNo := x.nextNo }
      let d := d.setCq h { x with nextNo := x.nextNo + 1 }
      if cqCap < x.fill + need then d.fullLoss rid
      else
        let byp := eget (d.flowThen h f) FL_BYPASS = 1
        let d := d.setRec rid { d.recOf rid with units := need, st := if byp then .emitted else .queued }
        (d.takeUnits h rid need).whole rid

/-- The half's first item of a kind, and the rest. -/
def takeAlloc (unit : Bool) : List AllocItem → Option AllocItem × List AllocItem
  | [] => (none, [])
  | x :: r => if x.unit.isSome = unit then (some x, r) else
      let p := takeAlloc unit r
      (p.1, x :: p.2)

/-- QUEUE_ALLOCATION. -/
def Dev.queueAllocation (d : Dev) (h : Nat) : Dev :=
  match takeAlloc false (sget [] d.allocs h) with
  | (none, _) => d
  | (some x, rest) => ({ d with allocs := sset [] d.allocs h rest } : Dev).allocate h x.rid

/-- Bytes of a record have reached the queue: its further units, its last one when it ends or is cut (R205). -/
def Dev.arriveBytes (d : Dev) (h rid bytes : Nat) (ended : Bool) : Dev :=
  let r := d.recOf rid
  let drop : Bool := r.gone || (match r.outc with | some o => decide (o.act = .drop) | none => false)
  let doneNow := ended || (match r.outc with
    | some o => o.act = .slice && decide (o.slice - r.base ≤ bytes)
    | none => false)
  if drop ∨ r.shed then
    -- a record lost after its allocation still counts toward the flow's rate (R188)
    let d := if r.gone ∧ r.epoch ≠ 0 ∧ ¬ r.shed ∧ ¬ r.complete then
        d.rateBytes h r.flow (32 * unitsOf (min bytes r.keptLen) doneNow - 32 * unitsOf (min r.reached r.keptLen) false) else d
    if ended then d.dropRec rid else d.setRec rid { d.recOf rid with reached := bytes, complete := r.complete || (r.gone && doneNow) }
  else if r.complete then d
  else
    let r' := { r with reached := bytes, complete := doneNow }
    let d := d.setRec rid r'
    if r.units = 0 then d
    else
      let need := unitsOf (min bytes r'.keptLen) doneNow
      let more := need - r.units
      if cqCap < (d.cqOf h).fill + more then d.fullLoss rid
      else
        let d := if more = 0 then d
          else ((d.setRec rid { r' with units := need }).rateBytes h r.flow (32 * more)).takeUnits h rid more
        d.whole rid

/-- QUEUE_UNIT. -/
def Dev.queueUnit (d : Dev) (h : Nat) : Dev :=
  match takeAlloc true (sget [] d.allocs h) with
  | (none, _) => d
  | (some x, rest) =>
    let d : Dev := { d with allocs := sset [] d.allocs h rest }
    match sfind d.recs x.rid, x.unit with
    | some _, some (n, ended) => d.arriveBytes h x.rid n ended
    | _, _ => d

/-! The flow table's commands (R123, R134). -/

/-- A WRITE that enables a flow in one half stands against one that did in the other half in this CK: neither takes effect (R134). -/
def Dev.flowClash (d : Dev) (h f : Nat) : Dev :=
  match d.log.flowWas.lookup (flowKey (1 - h) f) with
  | some x =>
    if f ≠ 0 ∧ d.flowEn (1 - h) f then
      let d := { d.setFlow (1 - h) f x.1 with runs := sset {} d.runs (flowKey (1 - h) f) x.2 }
      (d.err (Pg.flow (1 - h)) 0 0x0601).setFld (Pg.flow (1 - h)) F.FLOW_CMD_STATUS 2
    else d
  | none => d

/-- The entry and the open run of a flow as they stand, kept for this CK before its first WRITE (R134). -/
def Dev.noteFlow (d : Dev) (h f : Nat) : Dev :=
  let k := flowKey h f
  if (d.log.flowWas.lookup k).isSome then d
  else d.setLog { d.log with flowWas := (k, d.flow h f, sget {} d.runs k) :: d.log.flowWas }

/-- FLOW_WRITE (R123, R134, R193, R201). -/
def Dev.flowWrite (d : Dev) (h : Nat) : Dev :=
  let pg := Pg.flow h
  let f := d.fld pg F.FLOW_IDX_IDX
  let e := d.window 512 pg 0x104 16
  let old := d.flow h f
  let en := eget e FL_EN = 1
  let was := eget old FL_EN = 1
  let errs :=
    (if en ∧ f ≠ 0 ∧ d.flowEn (1 - h) f then [(0, 0x0601)] else [])
    ++ (if eget e FL_RETAIN = 3 ∨ eget e FL_WEIGHT = 0 ∨ eget e FL_PIN_ENGINE > 95 ∨ bitsOf e.toNat 77 3 ≠ 0
          ∨ bitsOf e.toNat 23 1 ≠ 0 ∨ bitsOf e.toNat 80 48 ≠ 0 then [(1, 0x0602)] else [])
    ++ (if f = 0 ∧ (¬ en ∨ eget e FL_BYPASS = 0) then [(2, 0x0603)] else [])
    ++ (if en ∧ was ∧ (eget e FL_BYPASS ≠ eget old FL_BYPASS ∨ eget e FL_ENTRY ≠ eget old FL_ENTRY) then [(3, 0x0604)] else [])
  let d := if en then d.flowClash h f else d
  if errs ≠ [] then (d.errs pg errs).setFld pg F.FLOW_CMD_STATUS 2
  else
    let d := d.noteFlow h f
    let new := eput old FL_CONFIG (eget e FL_CONFIG)
    let new := if en ∧ ¬ was then
        eput (eput (eput (eput new FL_NEXT_SEQ 0) FL_GAP_OPEN 0) FL_FROZEN 0) FL_COUNTERS 0
      else new
    let d := (d.setFlow h f new).setFld pg F.FLOW_CMD_STATUS 0
    let d : Dev := if en ∧ ¬ was then { d with runs := sset {} d.runs (flowKey h f) {} } else d
    let d := (d.discardStopped h f).askMove h f
    if was ∧ ¬ en then
      let d : Dev := match d.openExt h f with | some x => d.closeExt x | none => d
      (d.stopFlow h f).slotCheck h f
    else d

/-- FLOW_READ (R134). -/
def Dev.flowRead (d : Dev) (h : Nat) : Dev :=
  let pg := Pg.flow h
  (d.setWindow pg 0x104 16 (d.flow h (d.fld pg F.FLOW_IDX_IDX))).setFld pg F.FLOW_CMD_STATUS 0

/-- FLOW_CLEAR (R134): bytes 24 to 55, the event of this CK kept (R9). -/
def Dev.flowClear (d : Dev) (h : Nat) : Dev :=
  let pg := Pg.flow h
  let f := d.fld pg F.FLOW_IDX_IDX
  let now (k : Fld) : Nat := d.countNow (flowCntKey h f k).1 (flowCntKey h f k).2
  ([FL_RECORDS, FL_BYTES, FL_LOST, FL_POISONED, FL_GAPMARKS, FL_UNREG].foldl (fun d k => d.setFlowFld h f k (now k)) d).setFld
    pg F.FLOW_CMD_STATUS 0

/-! The commands. -/

/-- QUEUE_ALLOCATION (R119). -/
def execQueueAllocation (h : Half) (s : State) : Host.Outcome State Fault Refusal :=
  s.run (.queueAllocation h) (fun d => d.queueAllocation h.val)

/-- QUEUE_UNIT (R205). -/
def execQueueUnit (h : Half) (s : State) : Host.Outcome State Fault Refusal :=
  s.run (.queueUnit h) (fun d => d.queueUnit h.val)

/-- FLOW_WRITE (R134). -/
def execFlowWrite (h : Half) (s : State) : Host.Outcome State Fault Refusal :=
  s.cmd (fun d => d.swGate (raddr (Pg.flow h.val) 0x144) 1#32 (fun d => d.flowWrite h.val))

/-- FLOW_READ (R134). -/
def execFlowRead (h : Half) (s : State) : Host.Outcome State Fault Refusal :=
  s.cmd (fun d => d.flowRead h.val)

/-- FLOW_CLEAR (R134). -/
def execFlowClear (h : Half) (s : State) : Host.Outcome State Fault Refusal :=
  s.cmd (fun d => d.flowClear h.val)

end Sys2Proof.Machine
end

