-- ==== Sys2Proof/Machine/Index.lean ====
section
/-! DEFINITION. The capture address space and the index units: reads by class, seeks, descriptor reads (R214 to R225). -/

namespace Sys2Proof.Machine

/-! The address of a capture read (R214). -/

def capHalf (a : Nat) : Nat := bitsOf a 52 1
def capFlow (a : Nat) : Nat := bitsOf a 40 12
def capOff (a : Nat) : Nat := bitsOf a 0 40

/-- The live extent of an ordinal, if the index holds it (R215, R221). -/
def Dev.liveExt (d : Dev) (home f ord : Nat) : Option Ext :=
  (d.heldOf home f).find? (fun x => x.ord = ord && !x.evicted)

/-- Has the ordinal ever been opened (R216)? -/
def Dev.everOpened (d : Dev) (home f ord : Nat) : Bool :=
  let n := d.openedOf home f
  decide (0 < n) && (decide (2 ^ 19 ≤ n) || decide (ord < n))

/-- Class codes of Table 10-2. -/
def clsData : Nat := 0
def clsUnwritten : Nat := 1
def clsOverwritten : Nat := 2
def clsPoisoned : Nat := 3
def clsUnavail : Nat := 5
def clsDenied : Nat := 6

/-- The master class a reader's rights are those of, and its reader code (R287, Table 13-6). -/
def CapSrc.rights (s : CapSrc) : Nat := match s with | .pcie _ => 0 | .noc _ c => c | .play _ _ => 5
def CapSrc.reader (s : CapSrc) : Nat := match s with | .pcie _ => 6 | .noc _ c => (match c with | 0 => 6 | 1 => 4 | 2 => 2 | 3 => 3 | _ => 8) | .play _ _ => 7

/-- Does the device's mode leave the capture space unavailable (Table 10-2)? -/
def Dev.capShut (d : Dev) : Bool :=
  d.mode = Mode.blank.code || d.mode = Mode.loading.code || d.mode = Mode.faulted.code

/-- Is a channel offline for the capture space: switched off, failed, in retrain, or without supply in SAFE (Table 10-2, R247)? A
channel in self-refresh is not: a read wakes it. -/
def Dev.chanOffline (d : Dev) (c : Nat) : Bool :=
  let st := d.chanState c
  st = Ch.off || st = Ch.retrain || st = Ch.failed || (d.mode = Mode.safe.code && !d.dramSupplyOk)

/-- The class of the unit at an offset of the space but for what its data reads as (Table 10-2). -/
def Dev.unitClass (d : Dev) (src : CapSrc) (badOrds : List Nat) (a : Nat) : Nat :=
  let H := capHalf a
  let f := capFlow a
  let o := capOff a
  let i := o / extBytes
  if d.capShut then clsUnavail
  else match d.liveExt H f i with
    | some x =>
      if (d.stripeChans x.half x.stripe).any d.chanOffline then clsUnavail
      else if badOrds.contains i then clsPoisoned
      else if x.endBytes ≤ o % extBytes then clsUnwritten
      else
        let p := d.slotByte x.half x.stripe x.slot (o % extBytes)
        match d.cryptRange p.1 p.2 with
        | some k => if d.rights (p.1 / 8) k src.rights = 0 then clsDenied else if x.poison then clsPoisoned else clsData
        | none => if x.poison then clsPoisoned else clsData
    | none => if d.everOpened H f i then clsOverwritten else clsUnwritten

/-- The offsets of the units a read touches. -/
def unitsOfRead (off len : Nat) : List Nat :=
  (List.range ((off + len + 31) / 32 - off / 32)).map (fun k => (off / 32 + k) * 32)

/-- Units whose data is read from DRAM: live, available, written. -/
def needsData (badOrds : List Nat) (a c : Nat) : Bool :=
  (c = clsData || c = clsPoisoned) && !badOrds.contains (capOff a / extBytes)

/-- The DRAM piece of one unit. -/
def Dev.unitPiece (d : Dev) (a : Nat) : List Piece :=
  match d.liveExt (capHalf a) (capFlow a) (capOff a / extBytes) with
  | some x => let p := d.slotByte x.half x.stripe x.slot (capOff a % extBytes); [(⟨p.1, p.2, 32, none⟩ : Piece)]
  | none => []

/-- Join pieces that continue one another within a channel. -/
def joinPieces : List Piece → List Piece
  | a :: r => match joinPieces r with
    | b :: q => if a.chan = b.chan ∧ a.off + a.len = b.off then ({ a with len := a.len + b.len } : Piece) :: q else a :: b :: q
    | [] => [a]
  | [] => []

/-- The page hint of a read's data: its NoC request's, close for playback of what one burst holds (R254). -/
def Dev.capHint (d : Dev) (r : CapRead) : Bool :=
  match r.src with
  | .noc id _ => (match sfind d.nocReqs id with | some q => q.close | none => false)
  | .pcie _ => false
  | .play _ _ => decide (r.len ≤ 64)

/-- The read is translated: its units are classified and their data asked for (R215). -/
def Dev.capTranslate (d : Dev) (id : Nat) (r : CapRead) : Dev :=
  let us := unitsOfRead r.off r.len
  let cs := us.map (d.unitClass r.src r.badOrds)
  let ps := joinPieces (((us.zip cs).filter (fun (p : Nat × Nat) => needsData r.badOrds p.1 p.2)).map (fun p => d.unitPiece p.1)).flatten
  let tx := d.nextTx
  let d := d.dramMulti (some (Ep.index (capHalf r.off))) ps false r.src.rights r.src.reader (d.capHint r) false (some (.bar2ReadData id))
  { d with capReads := sput d.capReads id { r with classes := some cs, tx := tx } }

/-- The index unit begins with a read: the descriptors of closed extents are read first; a read that needs none is translated at once
(R215). -/
def Dev.capBegin (d : Dev) (id : Nat) (r : CapRead) : Dev :=
  let H := capHalf r.off
  let f := capFlow r.off
  let ords := ((unitsOfRead r.off r.len).map (fun a => capOff a / extBytes)).eraseDups.filter (fun i =>
    match d.liveExt H f i with | some x => !x.isOpen | none => false)
  let r : CapRead := { r with ords := ords, begun := true }
  let c := d.dirChan H
  if ords = [] ∨ d.capShut ∨ d.chanState c = Ch.off ∨ d.chanState c = Ch.failed then d.capTranslate id r
  else
    let tx := d.nextTx
    let d := d.dramMulti (some (Ep.index H)) (ords.map (fun i => (⟨c, d.dirOff H f i, 16, none⟩ : Piece))) false 5 5 true true
      (some (.bar2ReadData id))
    { d with capReads := sput d.capReads id { r with tx := tx } }

/-- BAR2_READ (R215): a read of the capture space reaches its index unit, which begins with it `k` CK later (R492). -/
def Dev.bar2Read (d : Dev) (src : CapSrc) (off len k : Nat) : Dev :=
  let id := d.nextRead
  let r : CapRead := { src := src, off := off, len := len, due := d.ck + k, begun := decide (k = 0) }
  let d : Dev := { d with nextRead := id + 1 }
  if k = 0 then d.capBegin id r else ({ d with capReads := sput d.capReads id r } : Dev).sched k (.bar2ReadData id)

/-- A unit that is not DATA counts, and the first since IDX_x_HOLE was cleared is latched (R215). -/
def Dev.countHole (d : Dev) (a c : Nat) : Dev :=
  let pg := Pg.idx (capHalf a)
  if c = clsData then d
  else
    let d := d.bump pg (if c = clsUnwritten then F.IDX_UNWR_RD_CNT else if c = clsOverwritten then F.IDX_OVWR_RD_CNT
      else if c = clsPoisoned then F.IDX_POIS_RD_CNT else if c = clsUnavail then F.IDX_UNAV_RD_CNT else F.IDX_DENY_RD_CNT)
    if d.flag pg F.IDX_HOLE_VALID then d
    else ((d.setReg64 pg 0x160 a).setFld pg F.IDX_HOLE_CLASS c).setFld pg F.IDX_HOLE_VALID 1

/-- The fill of a class (Table 10-2), 32 bytes. -/
def fillOf (c : Nat) : List Byte :=
  let w := if c = clsOverwritten ∨ c = clsPoisoned then 0xDEAD5EA1 else if c = clsDenied then 0x0BADC0DE else 0xF0000000
  (List.replicate 8 (leBytes 4 w)).flatten

/-- BAR2_READ_DATA (R215 to R217): descriptors have come and the read is translated, or data has: every unit is classified again
and returns what its class does. -/
def Dev.bar2ReadData (d : Dev) (id : Nat) : Dev :=
  match sfind d.capReads id with
  | none => d
  | some r =>
    if ¬ r.begun then (if d.ck < r.due then d else d.capBegin id r)
    else if r.done.isSome then d
    else match sfind d.dtx r.tx with
    | none => d
    | some t =>
      if ¬ d.txDone t then d
      else
        let d : Dev := { d with dtx := serase d.dtx r.tx }
        let data := t.bytes
        match r.classes with
        | none =>
          let bad := (r.ords.zipIdx).filterMap (fun (p : Nat × Nat) =>
            if t.resp ≠ .ok ∨ ((data.drop (16 * p.2)).take 16).any (fun b => b.2) then some p.1 else none)
          let d := bad.foldl (fun (d : Dev) _ => d.err (Pg.idx (capHalf r.off)) 1 0x0A12) d
          d.capTranslate id { r with badOrds := bad }
        | some cs =>
          let us := unitsOfRead r.off r.len
          let res := (us.zip cs).foldl (fun (acc : Dev × List Byte × List Nat × List (Byte × Bool)) p =>
            let d := acc.1
            let got := needsData r.badOrds p.1 p.2
            let mine := if got then acc.2.2.2.take 32 else []
            let rest := if got then acc.2.2.2.drop 32 else acc.2.2.2
            let c := d.unitClass r.src r.badOrds p.1
            let c := if c = clsData ∧ mine.any (fun b => b.2) then clsPoisoned else c
            let bytes := if (c = clsData ∨ c = clsPoisoned) ∧ mine.length = 32 then mine.map Prod.fst else fillOf c
            (d.countHole p.1 c, acc.2.1 ++ bytes, acc.2.2.1 ++ [c], rest)) (d, [], [], data)
          let d := res.1
          let bytes := (res.2.1.drop (r.off % 32)).take r.len
          let classes := res.2.2.1
          match r.src with
          | .pcie tag =>
            let ep := classes.contains clsPoisoned && d.flag (Pg.idx (capHalf r.off)) F.IDX_CTRL_EP_EN
            ({ d with capReads := serase d.capReads id } : Dev).emit (.bar2 tag bytes ep)
          | .noc n _ => ({ d with capReads := sput d.capReads id { r with done := some (bytes, classes) } } : Dev).sched 0 (.nocResponse n)
          | .play h s =>
            let m := d.packet (Ep.index (capHalf r.off)) (Ep.stim h) (1 + us.length) 1
            ({ m.1 with capReads := sput m.1.capReads id { r with done := some (bytes, classes) } } : Dev).sched (m.2 + us.length + 1 - d.ck)
              (.playbackReadData (halfOf h) (if q : s < 64 then ⟨s, q⟩ else 0))

/-- BAR2_WRITE (R218). -/
def Dev.bar2Write (d : Dev) (off : Nat) : Dev := d.err (Pg.idx (capHalf off)) 0 0x0A11

/-! Seek (R222, R223). -/

/-- FIRST_LP rebuilt from its low 48 bits: at or below the published LP, less than 2^48 behind, modulo 2^64 as LP is (R66, R222). -/
def Dev.rebuildLp (d : Dev) (h low : Nat) : Nat :=
  let now := lpInt (d.pubLp h)
  let up := now / 2 ^ 48 * 2 ^ 48 + low
  if up ≤ now then up else (up + 2 ^ 64 - 2 ^ 48) % 2 ^ 64

/-- OLDEST and NEWEST of a flow (R221). -/
def Dev.oldest (d : Dev) (home f : Nat) : Nat :=
  match (d.heldOf home f).filter (fun x => !x.evicted) with
  | x :: _ => x.ord
  | [] => 0
def Dev.newest (d : Dev) (home f : Nat) : Nat := (d.openedOf home f - 1) % 2 ^ 19

/-- Read a descriptor with the close hint; the seek goes on when it has come. -/
def Dev.seekRead (d : Dev) (h : Nat) (s : SeekSt) (ord : Nat) : Dev :=
  let tx := d.nextTx
  let d := d.dramMulti (some (Ep.index h)) [(⟨d.dirChan s.home, d.dirOff s.home s.flow ord, 16, none⟩ : Piece)] false 5 5 true true (some (.seekDone (halfOf h)))
  { d with seeks := sput d.seeks h { s with tx := tx } }

/-- SEEK_GO (R223): a write to IDX_x_SEEK_CMD. -/
def Dev.seekGo (d : Dev) (h : Nat) (val : Word) : Dev :=
  let pg := Pg.idx h
  let v := val.toNat
  if ¬ bit v 31 then d
  else if d.flag pg F.IDX_STAT_SEEK_BUSY then d.err pg 2 0x0A13
  else
    let f := bitsOf v 0 12
    let home := bitsOf v 12 1
    let d := d.setFld pg F.IDX_STAT_SEEK_BUSY 1
    let any := (d.heldOf home f).any (fun x => !x.evicted)
    let lo := d.oldest home f
    let n := if any then (d.newest home f + 2 ^ 19 - lo) % 2 ^ 19 + 1 else 0
    let s : SeekSt := { flow := f, home := home, target := d.reg64 pg 0x108, lo := lo, n := n, k := 0, startCk := d.ck, tx := 0 }
    if any then d.seekRead h s ((lo + n / 2) % 2 ^ 19)
    else ({ d with seeks := sput d.seeks h s } : Dev).sched 6 (.seekDone (halfOf h))

/-- The seek is over (Table 10-4). -/
def Dev.seekEnd (d : Dev) (h : Nat) (s : SeekSt) (result off : Nat) : Dev :=
  let pg := Pg.idx h
  let d : Dev := { d with seeks := serase d.seeks h }
  let d := ((d.setFld pg F.IDX_SEEK_RES_LO (off % 2 ^ 32)).setFld pg F.IDX_SEEK_RES_HI_OFF (off / 2 ^ 32)).setFld pg
    F.IDX_SEEK_STAT_RESULT result
  let d := d.setFld pg F.IDX_SEEK_STAT_CK (min (d.ck - s.startCk) 0xFFFF)
  ((d.setFld pg F.IDX_STAT_SEEK_BUSY 0).bump pg F.IDX_SEEK_CNT).pend pg 0

/-- The FIRST_LP and SPAN of an ordinal: on chip while its extent is open, else as its descriptor reads. -/
def Dev.ordLp (d : Dev) (home f ord : Nat) (desc : Nat) : Nat × Nat :=
  match (d.openExt home f) with
  | some x => if x.ord = ord then (x.firstLp.getD 0, x.span) else (d.rebuildLp home (bitsOf desc 0 48), bitsOf desc 48 32)
  | none => (d.rebuildLp home (bitsOf desc 0 48), bitsOf desc 48 32)

/-- SEEK_DONE (R223): each of the D + 1 descriptor reads narrows the range; after the last the seek completes 6 CK later. -/
def Dev.seekDone (d : Dev) (h : Nat) : Dev :=
  match sfind d.seeks h with
  | none => d
  | some s =>
    let D := d.dirD s.home
    if s.n = 0 then d.seekEnd h s 4 (d.frontier s.home s.flow)
    else match sfind d.dtx s.tx with
    | none => d
    | some t =>
      if ¬ d.txDone t then d
      else
        let bytes := t.bytes
        let desc := leNat (bytes.map Prod.fst)
        let bad := t.poisoned || t.resp ≠ .ok
        if s.k < D then
          let d : Dev := { d with dtx := serase d.dtx s.tx }
          let d := if bad then d.err (Pg.idx h) 1 0x0A12 else d
          let hf := s.n / 2
          let lp := (d.ordLp s.home s.flow ((s.lo + hf) % 2 ^ 19) desc).1
          let s := if 1 < s.n then
              { s with lo := if lp ≤ s.target then (s.lo + hf) % 2 ^ 19 else s.lo, n := s.n - hf, k := s.k + 1 }
            else { s with k := s.k + 1 }
          d.seekRead h s (if s.k < D then (s.lo + s.n / 2) % 2 ^ 19 else s.lo)
        else if s.k = D then
          let d := if bad then d.err (Pg.idx h) 1 0x0A12 else d
          ({ d with seeks := sput d.seeks h { s with k := D + 1 } } : Dev).sched 6 (.seekDone (halfOf h))
        else
          let d : Dev := { d with dtx := serase d.dtx s.tx }
          let p := d.ordLp s.home s.flow s.lo desc
          let old := d.oldest s.home s.flow
          let new := d.newest s.home s.flow
          let ahead (x : Ext) : Nat := (x.ord + 2 ^ 19 - s.lo) % 2 ^ 19
          if bad ∨ (d.liveExt s.home s.flow s.lo).isNone then
            let next := ((d.heldOf s.home s.flow).filter (fun x => !x.evicted && decide (0 < ahead x)
              && decide (ahead x ≤ (new + 2 ^ 19 - s.lo) % 2 ^ 19))).head?
            d.seekEnd h s 2 (match next with | some x => extFirst x | none => d.frontier s.home s.flow)
          else if s.lo = old ∧ s.target < p.1 then d.seekEnd h s 1 (old * extBytes)
          else if s.lo = new ∧ p.1 + p.2 < s.target then d.seekEnd h s 3 (d.frontier s.home s.flow)
          else d.seekEnd h s 0 (s.lo * extBytes)

/-- DESC_READ (R225): the descriptor of DESC_SEL goes to DESC0–3 once it has been read; an open extent shows END and SPAN as held
on chip. -/
def Dev.descRead (d : Dev) (h : Nat) : Dev :=
  let pg := Pg.idx h
  match sfind d.descReads h with
  | none =>
    if d.flag pg F.IDX_STAT_SEEK_BUSY then (d.err pg 2 0x0A13).setFld pg F.IDX_DESC_CMD_STATUS 2
    else
      let q : DescRead := ⟨d.nextTx, d.fld pg F.IDX_DESC_SEL_H, d.fld pg F.IDX_DESC_SEL_FLOW, d.fld pg F.IDX_DESC_SEL_ORD⟩
      let d := d.dramMulti (some (Ep.index h)) [(⟨d.dirChan q.home, d.dirOff q.home q.flow q.ord, 16, none⟩ : Piece)] false 5 5 true true
        (some (.descRead (halfOf h)))
      { d with descReads := sput d.descReads h q }
  | some q =>
    match sfind d.dtx q.tx with
    | none => { d with descReads := serase d.descReads h }
    | some t =>
      if ¬ d.txDone t then d
      else
        let d : Dev := { d with dtx := serase d.dtx q.tx, descReads := serase d.descReads h }
        let raw : BitVec 128 := BitVec.ofNat 128 (leNat (t.bytes.map Prod.fst))
        let v := match d.openExt q.home q.flow with
          | some x => if x.ord = q.ord then descOf x Xs.opened x.endBytes else raw
          | none => raw
        let d := if t.poisoned then d.err pg 1 0x0A12 else d
        (((d.setWindow pg 0x128 4 v).setFld pg F.IDX_DESC_CMD_STATUS 0).pend pg 1)

/-! The commands. -/

/-- BAR2_READ (R215). -/
def execBar2Read (src : CapSrc) (off : Nat) (len : Nat) (s : State) : Host.Outcome State Fault Refusal :=
  s.run (.bar2Read src off len) (fun d => d.bar2Read src off len 3)

/-- BAR2_READ_DATA (R216). -/
def execBar2ReadData (id : Nat) (s : State) : Host.Outcome State Fault Refusal :=
  s.run (.bar2ReadData id) (fun d => d.bar2ReadData id)

/-- BAR2_WRITE (R218). -/
def execBar2Write (off : Nat) (s : State) : Host.Outcome State Fault Refusal :=
  s.cmd (fun d => d.bar2Write off)

/-- SEEK_DONE (R223). -/
def execSeekDone (h : Half) (s : State) : Host.Outcome State Fault Refusal :=
  s.run (.seekDone h) (fun d => d.seekDone h.val)

end Sys2Proof.Machine
end

