-- ==== Sys2Proof/Machine/Code8b10b.lean ====
section
/-! DEFINITION. The 8b/10b code of IEEE 802.3 Clause 36, which R47 names and the spec does not restate (log entry 17): code groups
with bit 0 the first on the line, running disparity as a Bool, true for positive. -/

namespace Sys2Proof.Machine

/-- 5b/6b sub-blocks at negative running disparity, `abcdei` with `a` leading. -/
def code6 : List Nat :=
  [0b100111, 0b011101, 0b101101, 0b110001, 0b110101, 0b101001, 0b011001, 0b111000,
   0b111001, 0b100101, 0b010101, 0b110100, 0b001101, 0b101100, 0b011100, 0b010111,
   0b011011, 0b100011, 0b010011, 0b110010, 0b001011, 0b101010, 0b011010, 0b111010,
   0b110011, 0b100110, 0b010110, 0b110110, 0b001110, 0b101110, 0b011110, 0b101011]

/-- 3b/4b sub-blocks of data at negative running disparity, `fghj` with `f` leading. -/
def code4 : List Nat := [0b1011, 0b1001, 0b0101, 0b1100, 0b1101, 0b1010, 0b0110, 0b1110]

/-- 3b/4b sub-blocks of K28 where the code group begins at negative running disparity. -/
def code4K28 : List Nat := [0b0100, 0b1001, 0b0101, 0b0011, 0b0010, 0b1010, 0b0110, 0b1000]

/-- How many of the low `n` bits are 1. -/
def ones (x n : Nat) : Nat := (List.range n).countP (fun k => x.testBit k)

/-- Running disparity after a sub-block of `n` bits. -/
def rdSub (rd : Bool) (x n : Nat) : Bool :=
  let k := ones x n
  if n < 2 * k then true
  else if 2 * k < n then false
  else if x = (if n = 6 then 0b000111 else 0b0011) then true
  else if x = (if n = 6 then 0b111000 else 0b1100) then false
  else rd

/-- A sub-block at a running disparity: complemented at positive where it is not balanced or is the alternating one. -/
def subAt (rd : Bool) (x n alt : Nat) : Nat :=
  if rd ∧ (2 * ones x n ≠ n ∨ x = alt) then 2 ^ n - 1 - x else x

/-- The bits of a number of `n` bits in the other order. -/
def revBits (x n : Nat) : Nat := (List.range n).foldl (fun y k => 2 * y + (if x.testBit k then 1 else 0)) 0

/-- Is the value a control character of the code? -/
def isK (v : Nat) : Bool := v % 32 = 28 || [0xF7, 0xFB, 0xFD, 0xFE].contains v

/-- The code group of a character at a running disparity. -/
def encode810 (rd : Bool) (v : Nat) (ctl : Bool) : BitVec 10 :=
  let x := v % 32
  let y := v / 32 % 8
  let g :=
    if ctl then
      let w := (if x = 28 then 0b001111 else code6.getD x 0) * 16 + (if x = 28 then code4K28.getD y 0 else 0b1000)
      if rd then 1023 - w else w
    else
      let a := subAt rd (code6.getD x 0) 6 0b111000
      let mid := rdSub rd a 6
      let alt := y = 7 && (if mid then [11, 13, 14].contains x else [17, 18, 20].contains x)
      a * 16 + (if alt then (if mid then 0b1000 else 0b0111) else subAt mid (code4.getD y 0) 4 0b1100)
  BitVec.ofNat 10 (revBits g 10)

/-- Running disparity after a code group; none where the group leaves it as it was and that is not known. -/
def rdAfter (rd : Option Bool) (g : BitVec 10) : Option Bool :=
  let w := revBits g.toNat 10
  let p := rdSub (rdSub true (w / 16) 6) (w % 16) 4
  let n := rdSub (rdSub false (w / 16) 6) (w % 16) 4
  match rd with
  | some true => some p
  | some false => some n
  | none => if p = n then some p else none

/-- The characters of the code: every data value, the control values. -/
def chars810 : List (Nat × Bool) :=
  (List.range 256).map (fun v => (v, false)) ++ ((List.range 256).filter isK).map (fun v => (v, true))

/-- A received code group: value, control, invalid, running-disparity error (R50). -/
def decode810 (rd : Option Bool) (g : BitVec 10) : BitVec 8 × Bool × Bool × Bool :=
  let at' (r : Bool) : Option (Nat × Bool) := chars810.find? (fun c => encode810 r c.1 c.2 = g)
  let pick (c : Nat × Bool) (disp : Bool) : BitVec 8 × Bool × Bool × Bool := (BitVec.ofNat 8 c.1, c.2, false, disp)
  match rd with
  | some r => match at' r with
    | some c => pick c false
    | none => match at' (!r) with
      | some c => pick c true
      | none => (0#8, false, true, false)
  | none => match at' false with
    | some c => pick c false
    | none => match at' true with
      | some c => pick c false
      | none => (0#8, false, true, false)

end Sys2Proof.Machine
end

