-- ==== Sys2Proof/Machine/Lfsr.lean ====
section
/-! DEFINITION. The line bits of a lane: the scrambler of 128b/130b, and the bits of PAM4 under GRAY and PRECODE (R47, R48, R231). -/

namespace Sys2Proof.Machine

/-! 128b/130b: the LFSR of PCI Express 3.0 and later (R47 names it and does not print it: PRESUMED, log entry 16). -/

/-- One bit: x^23 + x^21 + x^16 + x^8 + x^5 + x^2 + 1, the output at the top. -/
def lfsrBit (s : BitVec 23) : BitVec 23 := (s <<< 1) ^^^ (if s.getLsbD 22 then 0x210125#23 else 0#23)

/-- The mask of a byte, its first bit lowest, and the LFSR after it. -/
def lfsrByte (s : BitVec 23) : Byte × BitVec 23 :=
  (List.range 8).foldl (fun (a : Byte × BitVec 23) i => (if a.2.getLsbD 22 then a.1 ||| (1#8 <<< i) else a.1, lfsrBit a.2)) (0#8, s)

/-- The seed of a lane, by its number in the link modulo 8. -/
def lfsrSeed (n : Nat) : BitVec 23 :=
  [0x1DBFBC#23, 0x0607BB#23, 0x1EC760#23, 0x18C0DB#23, 0x010F12#23, 0x19CFC9#23, 0x0277CE#23, 0x1BB807#23].getD (n % 8) 0#23

/-- Is a byte of a received block scrambled? Those of data blocks are; of ordered sets, bytes 1 to 15 of TS1 and TS2 but for DC balance. -/
def scrambled130 (sync : BitVec 2) (bytes : List Byte) (i : Nat) : Bool :=
  let b (k : Nat) : Byte := bytes.getD k 0#8
  let balance := (i = 14 && (b 14 = 0x20#8 || b 14 = 0xDF#8)) || (i = 15 && (b 15 = 0x08#8 || b 15 = 0xF7#8))
  sync = 0b10#2 || ((b 0 = 0x1E#8 || b 0 = 0x2D#8) && decide (0 < i) && !balance)

/-- The LFSR after a block: SKP does not advance it, an EIEOS seeds it anew. -/
def lfsrAfter (n : Nat) (s : BitVec 23) (sync : BitVec 2) (bytes : List Byte) : BitVec 23 :=
  if sync ≠ 0b10#2 ∧ bytes.head? = some 0xAA#8 then s
  else if sync ≠ 0b10#2 ∧ bytes.head? = some 0x00#8 then lfsrSeed n
  else bytes.foldl (fun s _ => (lfsrByte s).2) s

/-- A block's bytes under the LFSR, which scrambles and descrambles alike. -/
def under130 (s : BitVec 23) (sync : BitVec 2) (bytes : List Byte) : List Byte :=
  (bytes.zipIdx.foldl (fun (a : List Byte × BitVec 23) p =>
    let m := lfsrByte a.2
    (a.1 ++ [if scrambled130 sync bytes p.2 then p.1 ^^^ m.1 else p.1], m.2)) ([], s)).1

/-! PAM4 (R48): a level is a pair of bits. -/

/-- Gray mapping of a pair of bits to a level, and back: it is its own inverse. -/
def grayPair (g : Bool) (b : BitVec 2) : BitVec 2 := if g then b ^^^ (b >>> 1) else b

/-- A received level gives its pair of bits; 1/(1+D) is undone by adding the level before. -/
def pairRx (gray pre : Bool) (level last : BitVec 2) : BitVec 2 × BitVec 2 :=
  (grayPair gray (if pre then level + last else level), level)

/-- A pair of bits to send gives its level, less the level before under 1/(1+D). -/
def pairTx (gray pre : Bool) (bits last : BitVec 2) : BitVec 2 × BitVec 2 :=
  let g := grayPair gray bits
  let l := if pre then g - last else g
  (l, l)

/-- The pairs of a word, first UI lowest, each through a map that carries the last level along. -/
def overPairs (f : BitVec 2 → BitVec 2 → BitVec 2 × BitVec 2) (k x : Nat) (last : BitVec 2) : Nat × BitVec 2 :=
  (List.range k).foldl (fun (a : Nat × BitVec 2) i =>
    let r := f (BitVec.ofNat 2 (x / 4 ^ i)) a.2
    (a.1 + r.1.toNat * 4 ^ i, r.2)) (0, last)

/-- A symbol's pairs through a map, the sync header first. -/
def LineSym.overPairs (f : BitVec 2 → BitVec 2 → BitVec 2 × BitVec 2) (sym : LineSym) (last : BitVec 2) : LineSym × BitVec 2 :=
  match sym with
  | .blk66 s x =>
    let r := Machine.overPairs f 33 (s.toNat + 4 * x.toNat) last
    (.blk66 (BitVec.ofNat 2 r.1) (BitVec.ofNat 64 (r.1 / 4)), r.2)
  | .blk130 s x =>
    let r := Machine.overPairs f 65 (s.toNat + 4 * x.toNat) last
    (.blk130 (BitVec.ofNat 2 r.1) (BitVec.ofNat 128 (r.1 / 4)), r.2)
  | .raw w =>
    let r := Machine.overPairs f 64 w.toNat last
    (.raw (BitVec.ofNat 128 r.1), r.2)
  | other => (other, last)

end Sys2Proof.Machine
end

