-- ==== Sys2Proof/Machine/Lpc.lean ====
section
/-! DEFINITION. The line position counters: anchoring, freewheel, re-anchoring, the follower half, and their commands
(R66 to R74, R77, R78). -/

namespace Sys2Proof.Machine

/-- Change a half's LPC state. -/
def Dev.setLpcState (d : Dev) (h st : Nat) : Dev := d.setFld (Pg.lpc h) F.LPC_STAT_STATE st

/-- LPC_N_ANCHOR as a position. -/
def Dev.anchorPos (d : Dev) : Int := (d.reg64 (Pg.lpc 0) 0x10C : Int) * 2 ^ 32

/-- The line event of an LPC cause in a half's flow 0 (R74, Table 4-3): its LP is the new LP; flag bit 2 by the state after the event
(R76, R128). -/
def Dev.lpcEvent (d : Dev) (h cause : Nat) (old new : LP) : Dev :=
  let lane := if d.refSrc = 0 then d.refLane else ownLane h
  let loss := d.fld (Pg.lpc h) F.LPC_LOSS_CNT
  d.lineEvent h lane new (d.fwFlag h)
    (lineEventPayload cause d.refSrc h loss (lpInt old) (lpFrac old + 256 * lpFrac new) (lpInt new))

/-- Load RATE (R69). -/
def Dev.setRate (d : Dev) (h r : Nat) : Dev :=
  (d.setFld (Pg.lpc h) F.LPC_RATE_LO (r % 2 ^ 32)).setFld (Pg.lpc h) F.LPC_RATE_HI_INT (r / 2 ^ 32)

/-- Start the rate windows of a new lock (R69). -/
def Dev.startWindow (d : Dev) (h : Nat) : Dev :=
  let d := d.setLpc h { d.lpcOf h with winCk := d.ck, winL := d.posAt h (ckTime d.ck) }
  ({ d with agenda := agendaDrop (.lpcRateWindow (halfOf h)) d.agenda }).sched 4096 (.lpcRateWindow (halfOf h))

/-- Show which half follows, while its counter runs (Table 4-8). -/
def Dev.showFollower (d : Dev) : Dev :=
  let f (h : Nat) : Nat := b01 (d.lpcState h ≠ Lpc.idle && d.anchorHalf ≠ h)
  (d.setFld (Pg.lpc 0) F.LPC_STAT_FOLLOWER (f 0)).setFld (Pg.lpc 1) F.LPC_STAT_FOLLOWER (f 1)

/-- The counter of a half stops and reads 0 (R66). -/
def Dev.lpcIdle (d : Dev) (h : Nat) : Dev :=
  (((d.setLpcState h Lpc.idle).setLpc h {}).setRate h 0).setFld (Pg.lpc h) F.LPC_STAT_FOLLOWER 0

/-- Entry to READY (R70): a synthetic source locks at once on ANCHOR, any other waits for its first anchor. The line event of a synthetic
source's first anchor gives ANCHOR as its old LP too (DESIGN CHOICE, log entry 14: R74 gives the old LP no value where the counter leaves
IDLE). -/
def Dev.lpcLeaveIdle (d : Dev) (h : Nat) : Dev :=
  let d := d.setRate h d.synInc
  let x : LpcSt := { track := ⟨ckTime d.ck, d.anchorPos, []⟩, readyCk := d.ck, wordCk := d.ck }
  if d.refSrc = 2 then
    let d := (((d.setLpcState h Lpc.locked).setLpc h { x with lag := true }).showFollower).startWindow h
    (d.pend (Pg.lpc h) 3).lpcEvent h 1 (lpOfPos d.anchorPos) (lpOfPos d.anchorPos)
  else ((d.setLpcState h Lpc.unanchored).setLpc h { x with await := 1 }).showFollower

/-- The cause of the re-anchoring after a loss (R71); a changed source that has not come yet still anchors with its own (R68). -/
def Dev.relockCause (d : Dev) (x : LpcSt) : Nat := if x.await = 8 then 8 else if d.refSrc = 1 then 3 else 2

/-- Entry to FREEWHEEL of one half (R71, R78): positions go on at RATE from the last reference instant. -/
def Dev.freewheelHalf (d : Dev) (h : Nat) : Dev :=
  let x := d.lpcOf h
  let lp := d.ownLp h
  let d := d.setLpcState h Lpc.freewheel
  let d := d.setLpc h { x with await := d.relockCause x, edged := false }
  let d := (d.bump (Pg.lpc h) F.LPC_LOSS_CNT).pend (Pg.lpc h) 0
  d.lpcEvent h 5 lp lp

/-- Does a jump put the counter in LOCKED? A marker slip and a pair adjustment leave its state (R72, R79). -/
def LpcJump.locks (j : LpcJump) : Bool := j.cause ≠ 4 && j.cause ≠ 7

/-- The reference of a half is lost (R71): a LOCKED counter freewheels; one that a jump is about to lock does when the jump takes effect. -/
def Dev.lostHalf (d : Dev) (h : Nat) : Dev :=
  let x := d.lpcOf h
  if x.alone then d
  else if x.jumps.any LpcJump.locks then
    d.setLpc h { x with jumps := x.jumps.map (fun j => if j.locks then { j with lost := true } else j) }
  else if d.lpcState h = Lpc.locked then d.freewheelHalf h
  else d

/-- The reference is lost (R71), in both halves alike. -/
def Dev.freewheel (d : Dev) : Dev := (d.lostHalf 0).lostHalf 1

/-- The reference lane has left ALIGNED (R71). -/
def Dev.refLaneLost (d : Dev) (n : Nat) : Dev := if d.refSrc = 0 ∧ d.refLane = n then d.freewheel else d

/-- A jump waits in the halves that follow the anchor half: it takes effect in both 4 CK after its detection (R70, R73). -/
def Dev.jumpIn (d : Dev) (j : LpcJump) : Dev :=
  [0, 1].foldl (fun (d : Dev) h =>
    let x := d.lpcOf h
    if x.alone then d else d.setLpc h { x with await := if j.locks then 0 else x.await, jumps := x.jumps ++ [j] }) d

/-- The anchor half has detected an anchoring event: its instant takes a position. -/
def Dev.anchorAt (d : Dev) (cause : Nat) (t : Int) (p : Int) : Dev :=
  d.jumpIn ⟨d.ck + 4, cause, ⟨t, p, []⟩, 0, false⟩

/-- A jump takes effect in a half (R70, R73): a first anchor sets bit 3; every other cause shows the jump, counts and sets
bit 1. It locks the counter, whose published LP lags from then on; a follower that re-aligns takes the anchor half's state (R77); the rate windows of a new lock begin (R69), the window under way leaves
the jump out (DESIGN CHOICE, log entry 14). -/
def Dev.applyJump (d : Dev) (h : Nat) (j : LpcJump) : Dev :=
  let old := d.posAt h (ckTime d.ck)
  let was := d.lpcState h
  let x := d.lpcOf h
  let d := match j.cause with
    | 6 =>
      let a := d.lpcOf d.anchorHalf
      (d.setLpc h { a with winCk := x.winCk, winL := x.winL, wordCk := x.wordCk, alone := false }).setLpcState h (d.lpcState d.anchorHalf)
    | 7 => d.setLpc h { x with track := x.track.shift j.shift, jumps := x.jumps.drop 1 }
    | 4 => d.setLpc h { x with track := j.track, jumps := x.jumps.drop 1 }
    | _ => (d.setLpc h { x with track := j.track, jumps := x.jumps.drop 1, await := 0, coast := false, lag := true }).setLpcState h Lpc.locked
  let new := d.posOf (d.lpcOf h) (d.lpcState h) (d.lpcRate (d.lpcFrom h)) (ckTime d.ck)
  let d := if was = Lpc.locked ∨ d.lpcState h ≠ Lpc.locked then d.setLpc h { d.lpcOf h with winL := (d.lpcOf h).winL + (new - old) } else d.startWindow h
  let d :=
    if j.cause = 1 then (d.pend (Pg.lpc h) 3).newWindow h
    else
      let d := d.setReg64 (Pg.lpc h) 0x138 ((lpOfPos new - lpOfPos old).toNat % 2 ^ 64)
      (d.bump (Pg.lpc h) F.LPC_REANCHOR_CNT).pend (Pg.lpc h) 1
  let d := d.lpcEvent h j.cause (lpOfPos old) (lpOfPos new)
  if j.lost then d.freewheelHalf h else d

/-- The jump of a half that is due first, if its CK has come, takes effect. -/
def Dev.dueJump (d : Dev) (h : Nat) : Dev :=
  match (d.lpcOf h).jumps with
  | j :: _ => if j.due ≤ d.ck then d.applyJump h j else d
  | [] => d

/-- Jumps whose CK has come take effect, the follower's before the anchor half's, from which it takes its positions (R73, R77); two events
of the anchor half can be detected in one CK. -/
def Dev.dueJumps (d : Dev) : Dev :=
  let f := 1 - d.anchorHalf
  (((d.dueJump f).dueJump d.anchorHalf).dueJump f).dueJump d.anchorHalf

/-- A reference instant that advances LP by `k` symbols (R67), in the counters that follow the reference and in the jumps that wait. -/
def Dev.refAdvance (d : Dev) (t : Int) (k : Nat) : Dev :=
  let p : Int := (k : Int) * 2 ^ 32
  [0, 1].foldl (fun (d : Dev) h =>
    let x := d.lpcOf h
    if x.alone then d
    else
      let x : LpcSt := { x with jumps := x.jumps.map (fun j => if j.cause = 7 then j else { j with track := j.track.add t p }) }
      d.setLpc h (if d.lpcState h = Lpc.locked ∧ x.coast = false then { x with track := x.track.add t p } else x)) d

/-- A symbol of the reference lane, at its pin time (R67, R70, R71). -/
def Dev.refSymbol (d : Dev) (t : Int) : Dev :=
  let h := d.anchorHalf
  let x := d.lpcOf h
  if d.lpcState h = Lpc.idle then d
  else if x.await = 1 then (if ckTime x.readyCk ≤ t then d.anchorAt 1 t d.anchorPos else d)
  else if x.await ≠ 0 then d.anchorAt x.await t (roundPos (d.posAt h t) 0)
  else d.refAdvance t 1

/-- An LREF edge in a counter that does not follow the reference (R71): the first takes the extrapolated LP, each after it advances LP by
LREF_DIV (DESIGN CHOICE, log entry 14: R71 does not say where the advance sets in). -/
def Dev.edgeFree (d : Dev) (t : Int) (k : Nat) : Dev :=
  let p := d.posAt 0 t
  [0, 1].foldl (fun (d : Dev) h =>
    let x := d.lpcOf h
    if x.alone then d
    else d.setLpc h { x with edged := true, track := if x.edged then x.track.add t ((k : Int) * 2 ^ 32) else x.track.bend t p }) d

/-- A rising LREF_CLK edge, marked or not (R67, R70 to R72). -/
def Dev.lrefEdge (d : Dev) (t : Int) (mark : Bool) : Dev :=
  let x := d.lpcOf 0
  let k := d.fld (Pg.lpc 0) F.LPC_REF_MARK_K
  let div := d.fld (Pg.lpc 0) F.LPC_REF_LREF_DIV
  let next : Int := x.track.l0 + (div : Int) * 2 ^ 32
  if d.refSrc ≠ 1 ∨ d.lpcState 0 = Lpc.idle then d
  else
    let d := ({ d with agenda := agendaDrop .lrefTimeout d.agenda }).sched 64 .lrefTimeout
    if x.await = 1 then (if mark then d.anchorAt 1 t (ceilPos d.anchorPos k) else d)
    else if x.await ≠ 0 then
      if mark then d.anchorAt x.await t (roundPos (if x.edged then next else d.posAt 0 t) k) else d.edgeFree t div
    else
      let follows := d.lpcState 0 = Lpc.locked && !x.coast
      let d := d.refAdvance t div
      if ¬ follows then d
      else if mark ∧ next % 2 ^ (32 + k) ≠ 0 then
        ((d.bump (Pg.lpc 0) F.LPC_MARK_SLIP_CNT).pend (Pg.lpc 0) 2).anchorAt 4 t (roundPos next k)
      else if ¬ mark ∧ next % 2 ^ (32 + k) = 0 then d.bump (Pg.lpc 0) F.LPC_MARK_MISS_CNT
      else d

/-- A reference change (R68): the counter goes on at RATE until the new source's first event; a synthetic source anchors at
once, LREF is lost after 64 CK without an edge. A jump that still waits its 4 CK is dropped (DESIGN CHOICE, log entry 14: the spec does not
say what becomes of it). -/
def Dev.changeRef (d : Dev) (val : Word) : Dev :=
  let now := ckTime d.ck
  let lone := (d.lpcOf (1 - d.anchorHalf)).alone
  let p := d.posAt d.anchorHalf now
  let d := [0, 1].foldl (fun (d : Dev) h =>
    let x := d.lpcOf h
    if x.alone then d
    else d.setLpc h { x with track := x.track.bend now p, coast := true, await := 8, edged := false, jumps := [] }) d
  let was := d.anchorHalf
  let d := (d.setReg (Pg.lpc 0) 0x100 val).setReg (Pg.lpc 1) 0x100 val
  let d : Dev := { d with agenda := agendaDrop .lrefTimeout d.agenda }
  -- a follower that runs alone and now anchors does so on its own; the other half runs alone in its place
  let d := if lone ∧ d.anchorHalf ≠ was then
      (d.setLpc was { d.lpcOf was with alone := true, await := 0 }).setLpc (1 - was) { d.lpcOf (1 - was) with alone := false, await := 8 }
    else d
  let d := d.showFollower
  if d.refSrc = 2 then d.anchorAt 8 now p
  else if d.refSrc = 1 then d.sched 64 .lrefTimeout
  else d

/-- The cases of R68 a write meets: outside READY, invalid setting. -/
def Dev.lpcCases (d : Dev) (invalid : Bool) : List (Nat × Nat) :=
  (if d.mode ≠ Mode.ready.code then [(0, 0x0401)] else []) ++ (if invalid then [(1, 0x0402)] else [])

/-- A write to LPC_N_REF (R68, R457). -/
def Dev.lpcRefWrite (d : Dev) (val : Word) : Dev :=
  let v := val.toNat
  let src := bitsOf v 0 2
  let k := bitsOf v 8 6
  let bad := src = 3 || k < 8 || k > 40 || bitsOf v 14 9 = 0 || bitsOf v 14 9 > 256
  let cases := d.lpcCases bad
  let paired := d.flag Pg.pair F.PAIR_CTRL_EN
  let d := if bitsOf v 23 9 ≠ 0 then d.regErr (Pg.lpc 0) 1 else d
  let d := d.errs (Pg.lpc 0) cases
  let d := if paired then d.err Pg.pair 6 0x1806 else d
  let new := BitVec.ofNat 32 (v % 2 ^ 23)
  if cases ≠ [] ∨ paired then d
  else if d.reg (Pg.lpc 0) 0x100 = new then d
  else d.changeRef new

/-- A write to a word of LPC_N_SYN_INC (R68): the increment is from above 0 to 2 symbols per CK. -/
def Dev.lpcSynIncWrite (d : Dev) (hi : Bool) (val : Word) : Dev :=
  let lo' := if hi then d.fld (Pg.lpc 0) F.LPC_SYN_INC_LO else val.toNat
  let hi' := if hi then bitsOf val.toNat 0 8 else d.fld (Pg.lpc 0) F.LPC_SYN_INC_HI_INT
  let inc := lo' + 2 ^ 32 * hi'
  let cases := d.lpcCases (inc = 0 || inc > 2 * 2 ^ 32)
  let d := if hi ∧ bitsOf val.toNat 8 24 ≠ 0 then d.regErr (Pg.lpc 0) 1 else d
  let d := d.errs (Pg.lpc 0) cases
  if cases ≠ [] then d
  else
    let now := ckTime d.ck
    let d := [0, 1].foldl (fun (d : Dev) h =>
      if d.lpcState h = Lpc.idle ∨ (d.refSrc ≠ 2 ∧ d.lpcState h ≠ Lpc.unanchored) then d
      else let p := d.posAt h now
           d.setLpc h { d.lpcOf h with track := (d.lpcOf h).track.bend now p }) d
    [0, 1].foldl (fun (d : Dev) h => (d.setFld (Pg.lpc h) F.LPC_SYN_INC_LO lo').setFld (Pg.lpc h) F.LPC_SYN_INC_HI_INT hi') d

/-- A write to a word of LPC_N_ANCHOR (R68). -/
def Dev.lpcAnchorWrite (d : Dev) (hi : Bool) (val : Word) : Dev :=
  let cases := d.lpcCases false
  let d := d.errs (Pg.lpc 0) cases
  if cases ≠ [] then d
  else [0, 1].foldl (fun (d : Dev) h => d.setReg (Pg.lpc h) (if hi then 0x110 else 0x10C) val) d

/-- The first anchor takes effect in a half, in its CK (R70). -/
def Dev.lpcFirstAnchor (d : Dev) (h : Nat) : Dev :=
  match (d.lpcOf h).jumps with
  | j :: _ => if j.cause = 1 ∧ j.due ≤ d.ck then d.applyJump h j else d
  | [] => d

/-- A complete locked window ends: RATE is its mean advance per CK, and the next window begins (R69). -/
def Dev.lpcRateWindow (d : Dev) (h : Nat) : Dev :=
  if d.lpcState h ≠ Lpc.locked then d
  else
    let p := d.posAt h (ckTime d.ck)
    let r := ((p - (d.lpcOf h).winL) / 4096).toNat
    (d.setRate h (r % 2 ^ 40)).startWindow h

/-- 64 CK have passed without an LREF edge: the reference is lost (R71). -/
def Dev.lrefTimeout (d : Dev) : Dev := if d.refSrc = 1 then d.freewheel else d

/-- The follower half takes an alignment word: it holds the anchor's LP; after running alone it re-aligns with cause 0x06,
4 CK later (R77, R78). -/
def Dev.lpcAlignWord (d : Dev) (h : Nat) : Dev :=
  if h = d.anchorHalf ∨ d.lpcState h = Lpc.idle then d
  else
    let x : LpcSt := { d.lpcOf h with wordCk := d.ck }
    let a := d.lpcOf d.anchorHalf
    if ¬ x.alone ∨ x.jumps ≠ [] ∨ d.lpcState d.anchorHalf = Lpc.idle then d.setLpc h x
    else d.setLpc h { x with jumps := [⟨d.ck + 4, 6, a.track, 0, false⟩] }

/-- The follower has had no alignment word for 4 CK: it freewheels alone, at its own RATE from the last reference instant (R78). A word of
the last 4 CK stands against the event; a counter that freewheels already enters nothing. -/
def Dev.followerFreewheel (d : Dev) (h : Nat) : Dev :=
  let x := d.lpcOf h
  if h = d.anchorHalf ∨ d.lpcState h = Lpc.idle ∨ d.ck < x.wordCk + 4 then d
  else
    let d := if d.lpcState h = Lpc.freewheel then d else d.freewheelHalf h
    d.setLpc h { d.lpcOf h with await := 0, jumps := [], alone := true }

/-! The commands. -/

/-- LPC_FIRST_ANCHOR (R70). -/
def execLpcFirstAnchor (h : Half) (s : State) : Host.Outcome State Fault Refusal :=
  s.run (.lpcFirstAnchor h) (fun d => d.lpcFirstAnchor h.val)

/-- LPC_RATE_WINDOW (R69). -/
def execLpcRateWindow (h : Half) (s : State) : Host.Outcome State Fault Refusal :=
  s.run (.lpcRateWindow h) (fun d => d.lpcRateWindow h.val)

/-- LREF_EDGE (R67). -/
def execLrefEdge (theta : BitVec 8) (mark : Bool) (s : State) : Host.Outcome State Fault Refusal :=
  s.cmd (fun d => d.lrefEdge (ckTime d.ck - (theta.toNat : Int) * 2 ^ 12) mark)

/-- LREF_TIMEOUT (R71). -/
def execLrefTimeout (s : State) : Host.Outcome State Fault Refusal :=
  s.run .lrefTimeout (fun d => d.lrefTimeout)

/-- LPC_ALIGN_WORD (R77). -/
def execLpcAlignWord (h : Half) (s : State) : Host.Outcome State Fault Refusal :=
  s.run (.lpcAlignWord h) (fun d => d.lpcAlignWord h.val)

/-- FOLLOWER_FREEWHEEL (R78). -/
def execFollowerFreewheel (h : Half) (s : State) : Host.Outcome State Fault Refusal :=
  s.run (.followerFreewheel h) (fun d => d.followerFreewheel h.val)

end Sys2Proof.Machine
end

