-- ==== Sys2Proof/Machine/Lanes.lean ====
section
/-! DEFINITION. The line lanes: alignment, loss and relock, symbols into records, the sieve point (R45 to R64, R91 to R93,
R129). -/

namespace Sys2Proof.Machine

/-! Lane states (Table 3-3). -/

namespace Ln
def off : Nat := 0
def acquire : Nat := 1
def codeLock : Nat := 2
def aligned : Nat := 3
def lost : Nat := 4
def failed : Nat := 5
end Ln

/-- The receive side of a lane. -/
def Dev.laneOf (d : Dev) (n : Nat) : LaneSt := sget {} d.lanes n
def Dev.setLane (d : Dev) (n : Nat) (x : LaneSt) : Dev := { d with lanes := sset {} d.lanes n x }

/-- LANEn_STAT_STATE. -/
def Dev.laneState (d : Dev) (n : Nat) : Nat := d.fld (Pg.lane n) F.LANE_STAT_STATE
def Dev.setLaneState (d : Dev) (n st : Nat) : Dev := d.setFld (Pg.lane n) F.LANE_STAT_STATE st

/-- Is the lane enabled? -/
def Dev.laneEn (d : Dev) (n : Nat) : Bool := d.flag (Pg.lane n) F.LANE_CFG_EN

/-- The lane whose stream a TX lane retimes (R58). -/
def Dev.passSrc (d : Dev) (n : Nat) : Nat := n / 4 * 4 + d.fld (Pg.lane n) F.LANE_CFG_PASS_SRC

/-- Rate and code of a lane and of its source agree (R62). -/
def Dev.passMatch (d : Dev) (n : Nat) : Bool :=
  d.laneRate n = d.laneRate (d.passSrc n) && d.fld (Pg.lane n) F.LANE_CFG_CODE = d.fld (Pg.lane (d.passSrc n)) F.LANE_CFG_CODE

/-- LANEn_STAT_PASS_MISMATCH (R62): in a state that passes, an enabled lane whose source holds another rate or code. -/
def Dev.passMismatch (d : Dev) (n : Nat) : Bool := d.modePasses (laneHalf n) && d.laneEn n && !d.passMatch n

/-- The lane's TX carries the retimed stream (R58, R60, R62). -/
def Dev.passActive (d : Dev) (n : Nat) : Bool :=
  d.modePasses (laneHalf n) && d.laneEn n && d.passMatch n && d.laneState (d.passSrc n) = Ln.aligned

/-- A mismatch counts each time pass-through would start (R62), with both lanes enabled. -/
def Dev.passStart (d : Dev) (n : Nat) : Dev :=
  if d.passMismatch n ∧ d.laneEn (d.passSrc n) then d.err (Pg.lane n) 5 0x0306 else d

/-- What a lane's TX pin carries (R42, R58, R60, R63): high impedance unpowered. -/
inductive TxSt where
  | hiZ | eIdle | pass | lossIdle | generate
  deriving DecidableEq, Repr

/-- The TX of a lane in the state at hand: idle by mode, the retimed stream, the loss output, generated symbols. -/
def Dev.txState (d : Dev) (n : Nat) : TxSt :=
  let loss : TxSt := if d.flag (Pg.lane n) F.LANE_CFG_LOSS_TX ∧ d.laneCode n ≠ 3 then .lossIdle else .eIdle
  if d.rst = .unpowered then .hiZ
  else if d.rst ≠ .running ∨ ¬ d.laneEn n ∨ d.laneState n = Ln.off then .eIdle
  else if d.modeOf (laneHalf n) = Mode.generate.code ∨ d.modeOf (laneHalf n) = Mode.exercise.code then
    (if d.fld (Pg.lane n) F.LANE_CFG_TX_CLK = 0 ∧ d.laneState (d.passSrc n) ≠ Ln.aligned then loss else .generate)
  else if d.modePasses (laneHalf n) then (if d.passActive n then .pass else loss)
  else .eIdle

/-! Attempts (R51). -/

/-- The lane starts an alignment attempt; the state shows LOST after a loss until code lock. SIG and CDR read 0 from its start, since
step 1 acquires both anew; a write of TIMEOUT while it runs leaves its deadline (DESIGN CHOICES, log entry 24: R51 and R65 give
neither). -/
def Dev.startAttempt (d : Dev) (n : Fin 64) (relock : Bool) : Dev :=
  let t := d.fld (Pg.lane n) F.LANE_ALIGN_TIMEOUT
  let d := d.setLaneState n (if relock then Ln.lost else Ln.acquire)
  let d := (d.setFld (Pg.lane n) F.LANE_STAT_SIG 0).setFld (Pg.lane n) F.LANE_STAT_CDR 0
  let d := d.setLane n { d.laneOf n with startCk := d.ck, relock := relock, ended := false, rxOn := true, win := [] }
  let d := { d with agenda := agendaDrop (.alignTimeout n) d.agenda }
  if t = 0 then d else d.sched (1000 * t) (.alignTimeout n)

/-- Has every enabled lane ended its attempt (R33)? -/
def Dev.allEnded (d : Dev) : Bool :=
  (List.range 64).all (fun n => !d.laneEn n || (d.laneOf n).ended || (d.laneState n = Ln.off && d.domOpen (Dom.quad (n / 4))))

/-- READY is entered once every enabled lane has ended its attempt, after the startup release or, every domain the device had closed
being OPEN, a wake-up (R33, R39). -/
def Dev.readyCheck (d : Dev) : Dev :=
  if ((d.mode = Mode.loading.code ∧ d.started) ∨ (d.waking ∧ (List.range 64).all (fun k => !d.byDev k || d.domOpen k))) ∧ d.lanesBegun ∧ d.allEnded
      ∧ ¬ d.agenda.any (fun e => e.2 = .readyEntry) then d.sched 0 .readyEntry
  else d

/-- Every enabled lane with a permitted rate and code begins an attempt (R51, R46). -/
def Dev.beginLanes (d : Dev) : Dev :=
  let d := (List.finRange 64).foldl (fun d n =>
    if d.laneEn n ∧ rateCodeOk (d.laneRate n) (d.fld (Pg.lane n) F.LANE_CFG_CODE) ∧ d.laneState n = Ln.off
        ∧ d.domOpen (Dom.quad (n.val / 4)) then d.startAttempt n false else d) d
  ({ d with lanesBegun := true, lanesDue := none }).readyCheck

/-! The sieve point. -/

/-- Sieve rule fields (Table 5-1). -/
def RL_A_VALUE : Fld := ⟨0, 0, 64⟩
def RL_A_MASK : Fld := ⟨8, 0, 64⟩
def RL_B_VALUE : Fld := ⟨16, 0, 64⟩
def RL_B_MASK : Fld := ⟨24, 0, 64⟩
def RL_R_LO : Fld := ⟨32, 0, 32⟩
def RL_R_HI : Fld := ⟨36, 0, 32⟩
def RL_A_OFF : Fld := ⟨40, 0, 6⟩
def RL_B_OFF : Fld := ⟨41, 0, 6⟩
def RL_R_OFF : Fld := ⟨42, 0, 6⟩
def RL_R_WIDTH : Fld := ⟨42, 6, 2⟩
def RL_R_BE : Fld := ⟨43, 0, 1⟩
def RL_LANES : Fld := ⟨43, 1, 4⟩
def RL_MINLEN : Fld := ⟨44, 0, 7⟩
def RL_ACTION : Fld := ⟨45, 0, 2⟩
def RL_SHED : Fld := ⟨45, 2, 2⟩
def RL_FLOW_ADD : Fld := ⟨45, 4, 2⟩
def RL_FLOW : Fld := ⟨46, 0, 12⟩
def RL_SLICE_LEN : Fld := ⟨48, 0, 16⟩
def RL_VEC_BIT : Fld := ⟨50, 0, 5⟩
def RL_VEC_EN : Fld := ⟨50, 5, 1⟩
def RL_EVENT : Fld := ⟨51, 0, 3⟩
def RL_EV_EN : Fld := ⟨51, 3, 1⟩
def RL_TAG : Fld := ⟨52, 0, 24⟩
def RL_VALID : Fld := ⟨63, 0, 1⟩

/-- The bytes of a range field (R91): 0, 1, 2 or 4. -/
def rangeBytes (w : Nat) : Nat := match w with | 0 => 0 | 1 => 1 | 2 => 2 | _ => 4

/-- The highest byte of an 8-byte term that its mask depends on. -/
def maskTop (off mask : Nat) : List Nat :=
  ((List.range 8).filter (fun k => decide (bitsOf mask (8 * k) 8 ≠ 0))).map (fun k => off + k)

/-- A rule's deciding byte (R92): byte 0 where its outcome depends on none. -/
def decidingByte (r : BitVec 512) : Nat :=
  let ml := eget r RL_MINLEN
  let rw := rangeBytes (eget r RL_R_WIDTH)
  ((if ml = 0 then [] else [ml - 1]) ++ maskTop (eget r RL_A_OFF) (eget r RL_A_MASK)
    ++ maskTop (eget r RL_B_OFF) (eget r RL_B_MASK) ++ (if rw = 0 then [] else [eget r RL_R_OFF + rw - 1])).foldl max 0

/-- Does a term match: 8 payload bytes at an offset, little-endian, under a mask (R91)? -/
def termMatch (p : List Byte) (off mask value : Nat) : Bool :=
  (leNat ((List.range 8).map (fun k => byteAt p (off + k))) ^^^ value) &&& mask = 0

/-- Does a valid rule match a record's first bytes on a lane of its quad (R91)? -/
def ruleMatch (r : BitVec 512) (lane : Nat) (p : List Byte) : Bool :=
  let w := rangeBytes (eget r RL_R_WIDTH)
  let fieldBytes := (List.range w).map (fun k => byteAt p (eget r RL_R_OFF + k))
  let v := leNat (if eget r RL_R_BE = 1 then fieldBytes.reverse else fieldBytes)
  bit (eget r RL_LANES) (lane % 4)
    && decide (eget r RL_MINLEN ≤ p.length)
    && termMatch p (eget r RL_A_OFF) (eget r RL_A_MASK) (eget r RL_A_VALUE)
    && termMatch p (eget r RL_B_OFF) (eget r RL_B_MASK) (eget r RL_B_VALUE)
    && (w = 0 || (decide (eget r RL_R_LO ≤ v) && decide (v ≤ eget r RL_R_HI)))

/-- The valid rules of a sieve, rule numbers ascending. -/
def Dev.validRules (d : Dev) (q : Nat) : SMap (BitVec 512) :=
  ((d.rules.filter (fun e => decide (e.1 / 64 = q) && eget e.2 RL_VALID = 1))).map (fun e => (e.1 % 64, e.2))

/-- A symbol with the record's bytes so far has reached the sieve point: rules whose deciding symbol it is are decided, the
events of those that match follow 5 CK later, and so does the outcome after the outcome symbol (R92, R94, R95). -/
def Dev.sievePoint (d : Dev) (n : Fin 64) (rid : Nat) (lp : LP) : Dev :=
  let r := d.recOf rid
  let now := r.rules.filter (fun e => !r.decided.contains e.1 && (r.ended || decide (decidingByte e.2 < r.payload.length)))
  let hits := now.filter (fun e => ruleMatch e.2 n r.payload)
  let lines := ((hits.filter (fun e => eget e.2 RL_EV_EN = 1)).map (fun e => eget e.2 RL_EVENT)).eraseDups
  let outNow := !r.outSeen && (r.ended || r.typ = 4 || decide (64 ≤ r.payload.length))
  -- these bytes reach the capture queue with the outcome's delay, 5 + 4 CK later (R95, R96)
  let d := d.toQueue (laneHalf n) ⟨d.ck + 9, n, rid, some (r.payload.length, r.ended)⟩
  let d := d.setRec rid { r with decided := r.decided ++ now.map Prod.fst, matched := r.matched ++ hits.map Prod.fst,
                                 outSeen := r.outSeen || outNow }
  let d := if lines = [] then d
    else (d.setLane n { d.laneOf n with evq := (d.laneOf n).evq ++ [(lines, lp, d.reg64 (Pg.lane n) 0x12C)] }).sched 5 (.sieveMatchEvent n)
  if outNow then (d.setLane n { d.laneOf n with outq := (d.laneOf n).outq ++ [rid] }).sched 5 (.sieveOutcome n) else d

/-! Records of a lane (R49, R50, R129). -/

/-- The most payload bytes of one record (R129). -/
def maxPart : Nat := 65504

/-- A record begins at a symbol: it carries the symbol's stamp and takes the sieve's rules as they stand (R76, R93, R100). -/
def Dev.openRecord (d : Dev) (n : Fin 64) (lp : LP) (typ base flags : Nat) (first : Option Nat) : Dev :=
  let h := laneHalf n
  let on := d.flag (Pg.sieve (n / 4)) F.SIEVE_CTRL_EN
  let cv := (d.laneOf n).cvPend
  let rid := d.nextRid
  let d := d.addRec { half := h, lane := n, typ := typ, flags := flags ||| d.fwFlag h ||| b01 cv, lp := lp, base := base,
                      first := first, sieveOn := on, rules := if on ∧ typ = 0 then d.validRules (n / 4) else [] }
  d.setLane n { d.laneOf n with openRec := some rid, cvPend := false, rawCnt := 0 }

/-- Bytes join the open record; beyond 65,504 they go on in a continuation stamped with this symbol (R129). -/
def Dev.joinBytes (d : Dev) (n : Fin 64) (lp : LP) (bs : List Byte) : Dev :=
  match (d.laneOf n).openRec with
  | none => d
  | some rid =>
    let r := d.recOf rid
    let room := maxPart - r.payload.length
    if bs.length ≤ room then d.setRec rid { r with payload := r.payload ++ bs }
    else
      let d := d.setRec rid { r with payload := r.payload ++ bs.take room, flags := r.flags ||| 8, ended := true }
      let d := d.sievePoint n rid lp
      let root := match r.first with | some k => k | none => rid
      let d := d.openRecord n lp 4 (r.base + maxPart) 0 (some root)
      let rid' := d.nextRid - 1
      d.setRec rid' { d.recOf rid' with payload := bs.drop room, outc := r.outc }

/-- The open record stands at the sieve point with the bytes it has so far. -/
def Dev.atSieve (d : Dev) (n : Fin 64) (lp : LP) : Dev :=
  match (d.laneOf n).openRec with
  | none => d
  | some rid => d.sievePoint n rid lp

/-- A symbol's bytes join the open record at the sieve point. -/
def Dev.feed (d : Dev) (n : Fin 64) (lp : LP) (bs : List Byte) : Dev := (d.joinBytes n lp bs).atSieve n lp

/-- The open record ends, with flags added; its last symbol is at the sieve point (R49, R50, R56). -/
def Dev.closeRecord (d : Dev) (n : Fin 64) (lp : LP) (flags : Nat) : Dev :=
  match (d.laneOf n).openRec with
  | none => d
  | some rid =>
    let r := d.recOf rid
    let d := d.setRec rid { r with ended := true, flags := r.flags ||| flags }
    let d := d.setLane n { d.laneOf n with openRec := none, rawCnt := 0 }
    let d := if r.typ = 0 then d.alignNote n r.lp r.payload else d
    d.sievePoint n rid lp

/-- A code violation: counted, and flagged on the open record or the next one (R50). -/
def Dev.violation (d : Dev) (n : Fin 64) : Dev :=
  let d := d.bump (Pg.lane n) F.LANE_CV_CNT
  match (d.laneOf n).openRec with
  | some rid => d.setRec rid { d.recOf rid with flags := (d.recOf rid).flags ||| 1 }
  | none => d.setLane n { d.laneOf n with cvPend := true }

/-- A record of one symbol's bytes (R49: an ordered set of its own). -/
def Dev.wholeRecord (d : Dev) (n : Fin 64) (lp : LP) (bs : List Byte) : Dev :=
  ((d.openRecord n lp 0 0 0 none).feed n lp bs).closeRecord n lp 0

/-! Symbols (R47, R49, R50). -/

/-- The self-synchronising descrambler x^58 + x^39 + 1: the block's bits, and the last 58 received bits (R47). -/
def descramble (s : BitVec 58) (x : BitVec 64) : BitVec 64 × BitVec 58 :=
  let w : BitVec 122 := (x.zeroExtend 122 <<< 58) ||| s.zeroExtend 122
  (x ^^^ ((w >>> 19).truncate 64) ^^^ (w.truncate 64), (x >>> 6).truncate 58)

/-- Data bytes a terminate block carries, by its type byte (IEEE 802.3 Clause 49; none: no terminate block). -/
def termBytes (t : Nat) : Option Nat :=
  match t with
  | 0x87 => some 0 | 0x99 => some 1 | 0xAA => some 2 | 0xB4 => some 3
  | 0xCC => some 4 | 0xD2 => some 5 | 0xE1 => some 6 | 0xFF => some 7
  | _ => none

/-- A block of 64b/66b after descrambling. In an open record a further start block ends it, with no flag, and starts the next; idle and
ordered-set blocks add no bytes and leave it open (DESIGN CHOICE, log entry 16: Table 3-2 says neither). -/
def Dev.block66 (d : Dev) (n : Fin 64) (lp : LP) (sync : BitVec 2) (x : BitVec 64) : Dev :=
  let bytes := leBytes 8 x.toNat
  let opened := (d.laneOf n).openRec.isSome
  if sync = 0b01#2 then d.feed n lp bytes
  else if sync = 0b10#2 then
    let t := (byteAt bytes 0).toNat
    if t = 0x78 then ((d.closeRecord n lp 0).openRecord n lp 0 0 0 none).feed n lp (bytes.drop 1)
    else if t = 0x33 ∨ t = 0x66 then ((d.closeRecord n lp 0).openRecord n lp 0 0 0 none).feed n lp (bytes.drop 5)
    else match termBytes t with
      | some k => (d.feed n lp ((bytes.drop 1).take k)).closeRecord n lp 0
      | none =>
        if t = 0x4B ∨ t = 0x55 ∨ t = 0x2D then
          (if ¬ opened ∧ d.flag (Pg.lane n) F.LANE_FRAME_CTL_REC then d.wholeRecord n lp bytes else d)
        else if t = 0x1E then d
        else (d.violation n).feed n lp bytes
  else (d.violation n).closeRecord n lp 0

/-- A block of 128b/130b (Table 3-2), with the sync header that follows it on the line: where that is an ordered set's, this data block
is the record's last. An invalid header is itself in the record that it ends (R50). -/
def Dev.block130 (d : Dev) (n : Fin 64) (lp : LP) (sync : BitVec 2) (bytes : List Byte) (next : BitVec 2) : Dev :=
  if sync = 0b10#2 then
    let d := if (d.laneOf n).afterGap then (d.closeRecord n lp 0).openRecord n lp 0 0 0 none else d
    let d := (d.setLane n { d.laneOf n with afterGap := false }).joinBytes n lp bytes
    if next = 0b01#2 then d.closeRecord n lp 0 else d.atSieve n lp
  else
    let bad := sync ≠ 0b01#2
    let d := if bad then d.violation n else d
    let d := (d.closeRecord n lp 0).setLane n { (d.closeRecord n lp 0).laneOf n with afterGap := true }
    if ¬ bad ∧ d.flag (Pg.lane n) F.LANE_FRAME_CTL_REC then d.wholeRecord n lp bytes else d

/-- A character of 8b/10b (Table 3-2, R50). -/
def Dev.char810 (d : Dev) (n : Fin 64) (lp : LP) (v : Byte) (ctl bad disp : Bool) : Dev :=
  let opened := (d.laneOf n).openRec.isSome
  if bad then (d.violation n).feed n lp [0#8]
  else
    let isStart := ctl && v.toNat = d.fld (Pg.lane n) F.LANE_FRAME_K_START
    let isEnd := ctl && v.toNat = d.fld (Pg.lane n) F.LANE_FRAME_K_END
    if ¬ opened ∧ isStart then
      let d := d.openRecord n lp 0 0 0 none
      if disp then d.violation n else d
    else
      let d := if disp then d.violation n else d
      if isEnd then d.closeRecord n lp 0 else d.feed n lp [v]

/-- A raw word: records of RAW_LEN words, back to back (Table 3-2). -/
def Dev.rawWord (d : Dev) (n : Fin 64) (lp : LP) (w : BitVec 128) : Dev :=
  let pam4 := match rateRow (d.laneRate n) with | some row => row.pam4 | none => false
  let d := if (d.laneOf n).openRec.isSome then d else d.openRecord n lp 0 0 0 none
  let d := d.feed n lp (leBytes (if pam4 then 16 else 8) w.toNat)
  let k := (d.laneOf n).rawCnt + 1
  let d := d.setLane n { d.laneOf n with rawCnt := k }
  if d.fld (Pg.lane n) F.LANE_FRAME_RAW_LEN ≤ k then d.closeRecord n lp 0 else d

/-- A symbol and a record boundary from user logic (R48). -/
def Dev.userSym (d : Dev) (n : Fin 64) (lp : LP) (bs : List Byte) (first last : Bool) : Dev :=
  let d := if first then (d.closeRecord n lp 0).openRecord n lp 0 0 0 none else d
  let d := d.feed n lp bs
  if last then d.closeRecord n lp 0 else d

/-- Is the symbol one the lane's code carries (R47, R48)? -/
def symFits (code : Nat) (userPcs : Bool) (sym : LineSym) : Bool :=
  match sym with
  | .blk66 .. => code = 0
  | .blk130 .. => code = 1
  | .chr .. => code = 2
  | .raw _ => code = 3
  | .user .. => userPcs

/-- Polarity inversion of the received bits (Table 3-5, RX_INV). -/
def invertSym (sym : LineSym) : LineSym :=
  match sym with
  | .blk66 s x => .blk66 (~~~s) (~~~x)
  | .blk130 s x => .blk130 (~~~s) (~~~x)
  | .raw w => .raw (~~~w)
  | .chr g => .chr (~~~g)
  | other => other

/-- Does the symbol count toward a loss of alignment (R56)? A code group counts where it decodes to no character. -/
def countsToLoss (sym : LineSym) : Bool :=
  match sym with
  | .blk66 s _ => s ≠ 0b01#2 && s ≠ 0b10#2
  | .blk130 s _ => s ≠ 0b01#2 && s ≠ 0b10#2
  | .chr _ => false
  | _ => false

/-- How many such symbols of 64 lose alignment (R56); 65 where none do. -/
def lossThreshold (code : Nat) : Nat := match code with | 0 => 16 | 1 => 8 | 2 => 4 | _ => 65

/-! The stimulus side of a lane whose source goes (R237). -/

/-- The stimulus side of a lane's TX. -/
def Dev.stimOf (d : Dev) (n : Nat) : StimLane := sget {} d.stims n
def Dev.setStim (d : Dev) (n : Nat) (x : StimLane) : Dev := { d with stims := sset {} d.stims n x }

/-- Count an action dropped for want of TX (R237). -/
def Dev.noTx (d : Dev) (n : Nat) : Dev := (d.bump (Pg.stim (laneHalf n)) F.STIM_NOTX_CNT).pend (Pg.stim (laneHalf n)) 2

/-- A TX lane has lost its source, or is OFF: actions pending and active are dropped, symbols on their way give place to the loss
output (R56, R60, R237). -/
def Dev.txGone (d : Dev) (m : Nat) : Dev :=
  let x := d.stimOf m
  let acts := x.pend.length + (match x.run with | some r => if r.op < 5 then 1 else 0 | none => 0)
  let d := (List.range acts).foldl (fun (d : Dev) _ => d.noTx m) d
  let d := match x.run.bind StimRun.stream with
    | some s => d.sched 0 (.playbackRecordDue (halfOf (laneHalf m)) ⟨s % 64, Nat.mod_lt _ (by decide)⟩)
    | none => d
  let d := d.setStim m { d.stimOf m with pend := [], run := none, fifo := [], k28 := none }
  d.setLane m { d.laneOf m with txq := [] }

/-- The lane loses alignment: so does every TX lane it is the source of. -/
def Dev.srcGone (d : Dev) (n : Nat) : Dev :=
  (List.range 4).foldl (fun (d : Dev) k =>
    let m := n / 4 * 4 + k
    if d.passSrc m = n then d.txGone m else d) d

/-! Loss and relock (R56, R57). -/

/-- A loss of alignment, all in the CK of detection (R56). -/
def Dev.laneLoss (d : Dev) (n : Fin 64) : Dev :=
  if d.laneState n ≠ Ln.aligned then d
  else
    let h := laneHalf n
    let x := d.laneOf n
    let last : Int × LP := if x.lastCk = d.ck then (x.prevT, x.prevLp) else (x.lastT, x.lastLp)
    let d := d.closeRecord n x.lastLp 2
    let lp := d.stampAt n (last.1 + d.laneTau n)
    let flags := d.fwFlag h
    let d := d.bump (Pg.lane n) F.LANE_LOCK_LOSS_CNT
    let d := d.lineEvent h n lp flags
      (lineEventPayload 0x10 n h (d.fld (Pg.lane n) F.LANE_LOCK_LOSS_CNT) (lpInt last.2) 0 0)
    let d := d.pend (Pg.lane n) 2
    let d := (d.startAttempt n true)
    let d := d.setLane n { d.laneOf n with lossLp := lp, win := [], fresh := false, relockFlows := none }
    (d.srcGone n).refLaneLost n

/-- The lane goes OFF (R63): an open record is truncated and handed on, no event and no counter. -/
def Dev.laneOff (d : Dev) (n : Fin 64) : Dev :=
  if d.laneState n = Ln.off then d
  else
    let was := d.laneState n
    let x := d.laneOf n
    let d := d.closeRecord n x.lastLp 2
    let d := (d.setFld (Pg.lane n) F.LANE_STAT_SIG 0).setFld (Pg.lane n) F.LANE_STAT_CDR 0
    let d := d.setLaneState n Ln.off
    let d := d.setLane n { d.laneOf n with rxOn := false, fresh := false, relock := false, ended := false, win := [],
                                           relockFlows := none }
    let d := { d with agenda := agendaDrop (.alignTimeout n) d.agenda }
    let d := d.txGone n
    if was = Ln.aligned then (d.srcGone n).refLaneLost n else d

/-- The first symbol after a relock: a line event with its stamp (R57). -/
def Dev.relockEvent (d : Dev) (n : Fin 64) (lp : LP) : Dev :=
  let x := d.laneOf n
  if ¬ x.fresh then d
  else
    let d := d.setLane n { x with fresh := false, relock := false,
                                  relockFlows := if x.relock then some [] else x.relockFlows, afterGap := false }
    if ¬ x.relock then d
    else
      let h := laneHalf n
      d.lineEvent h n lp (d.fwFlag h)
        (lineEventPayload 0x11 n h (d.fld (Pg.lane n) F.LANE_LOCK_LOSS_CNT) (lpInt x.lossLp) 0 0)

/-- Is the symbol a room symbol (Table 11-7), outside every record? SKP is an ordered-set block whose first byte is 0xAA, a record of its
own where FRAME_CTL_REC is 1 (Table 3-2). -/
def roomKind (opened ctlRec : Bool) (sym : LineSym) (y : BitVec 64) (ch : Byte × Bool × Bool × Bool) : Nat :=
  match sym with
  | .blk66 s _ => if ¬ opened ∧ s = 0b10#2 ∧ y = 0x1E#64 then 1 else 0
  | .blk130 s x => if ¬ ctlRec ∧ s = 0b01#2 ∧ x.truncate 8 = 0xAA#8 then 1 else 0
  | .chr _ =>
    if opened ∨ ch.2.2.1 then 0
    else if ch.1 = 0xBC#8 ∧ ch.2.1 then 2
    else if (ch.1 = 0xC5#8 ∨ ch.1 = 0x50#8) ∧ ¬ ch.2.1 then 3
    else 0
  | _ => 0

/-- Hand a received symbol to the TX of every lane that retimes this one: it is at injection select after the retime stage and the
hold line (R58). -/
def Dev.toTx (d : Dev) (n : Fin 64) (e : TxEnt) : Dev :=
  (List.range 4).foldl (fun (d : Dev) k =>
    let m : Fin 64 := ⟨(n.val / 4 * 4 + k) % 64, Nat.mod_lt _ (by decide)⟩
    if d.passSrc m = n.val ∧ d.passActive m then
      let h := 2 + d.fld (Pg.lane m) F.LANE_HOLD_HOLD
      (d.setLane m { d.laneOf m with txq := (d.laneOf m).txq ++ [{ e with sel := d.ck + h }] }).sched h (.passThroughSymbol m)
    else d) d

/-- Count a received symbol (Table 3-5, SYM). -/
def Dev.countSym (d : Dev) (n : Nat) : Dev := d.count64 (Pg.lane n) 0x12C 1

/-- A received symbol as the lane's RX side gives it: polarity restored (RX_INV), PAM4 levels as bits (R48), with the last level. -/
def Dev.rxBits (d : Dev) (n : Nat) (sym : LineSym) : LineSym × BitVec 2 :=
  let pam4 := match rateRow (d.laneRate n) with | some row => row.pam4 | none => false
  let s := if d.flag (Pg.lane n) F.LANE_CFG_RX_INV then invertSym sym else sym
  if pam4 then s.overPairs (pairRx (d.flag (Pg.lane n) F.LANE_CFG_GRAY) (d.flag (Pg.lane n) F.LANE_CFG_PRECODE)) (d.laneOf n).level
  else (s, (d.laneOf n).level)

/-- A symbol decoded: the descrambled 64b/66b payload, the descrambled 128b/130b bytes, the 8b/10b character with its flags. -/
structure RxSym where
  y : BitVec 64 := 0#64
  bytes : List Byte := []
  ch : Byte × Bool × Bool × Bool := (0#8, false, false, false)

/-- Decoding by the state of the line bits, and that state after the symbol (R47). -/
def decodeSym (n : Nat) (x : LaneSt) (sym : LineSym) : RxSym × LaneSt :=
  match sym with
  | .blk66 _ b => let r := descramble x.scr b; ({ y := r.1 }, { x with scr := r.2, rd := none })
  | .blk130 s b =>
    let l := leBytes 16 b.toNat
    ({ bytes := under130 x.lfsr s l }, { x with lfsr := lfsrAfter n x.lfsr s l, rd := none })
  | .chr g => ({ ch := decode810 x.rd g }, { x with rd := rdAfter x.rd g })
  | _ => ({}, x)

/-- The lane measures its symbol duration over 4,096 symbols at a time, by their pin times (R60, R75; log entry 15). -/
def LaneSt.measure (x : LaneSt) (t : Int) : LaneSt :=
  if x.tauN = 0 then { x with tauT := t, tauN := 1 }
  else if x.tauN = 4096 then { x with tau := ((t - x.tauT) / 4096).toNat, tauT := t, tauN := 1 }
  else { x with tauN := x.tauN + 1 }

/-- The last symbol at the sieve point, and the last one of an earlier CK (R56). -/
def LaneSt.noteLast (x : LaneSt) (ck : Nat) (t : Int) (lp : LP) : LaneSt :=
  let x : LaneSt := if x.lastCk < ck then { x with prevT := x.lastT, prevLp := x.lastLp } else x
  { x with lastCk := ck, lastT := t, lastLp := lp }

/-- What standard mode's elastic buffer makes of a room symbol (R55): 1 deletes it, 2 adds another after it; in deterministic mode, and of
any other symbol, nothing. The change is made behind the decode, so that counts, stamps and descrambling are those of the line. -/
def Dev.toTxStd (d : Dev) (n : Fin 64) (comp : Nat) (e : TxEnt) : Dev :=
  if d.flag (Pg.lane n) F.LANE_CFG_DET ∨ e.room = 0 then d.toTx n e
  else match comp with
    | 1 => d
    | 2 => (d.toTx n e).toTx n e
    | _ => d.toTx n e

/-- A symbol from the line at an aligned lane: counted, stamped, handed on to TX, decoded into records or, with USER_PCS, put on the
mortise port (R48). -/
def Dev.lineSymbol (d : Dev) (n : Fin 64) (t : Int) (samp : Nat) (comp : Nat) (next : BitVec 2) (sym : LineSym) (dec : RxSym) (x : LaneSt) :
    Dev :=
  let lfsr := (d.laneOf n).lfsr
  let d := (d.setLane n (x.measure t)).countSym n
  let d := if d.refSrc = 0 ∧ d.refLane = n.val then d.refSymbol t else d
  let lp := d.stampAt n t
  let d := d.relockEvent n lp
  let rec0 := (d.laneOf n).openRec
  let rids := d.nextRid
  let room := roomKind rec0.isSome (d.flag (Pg.lane n) F.LANE_FRAME_CTL_REC) sym dec.y dec.ch
  let d := d.toTxStd n comp { sym := sym, lp := lp, num := d.reg64 (Pg.lane n) 0x12C, samp := samp, pin := ((t + 2 ^ 20 - 1) / 2 ^ 20).toNat,
                              sel := 0, room := room, rd := x.rd, lfsr := lfsr }
  let d := match sym with
    | .blk66 s _ => d.block66 n lp s dec.y
    | .blk130 s _ => d.block130 n lp s dec.bytes next
    | .chr _ => d.char810 n lp dec.ch.1 dec.ch.2.1 dec.ch.2.2.1 dec.ch.2.2.2
    | .raw w => if d.flag (Pg.lane n) F.LANE_CFG_USER_PCS then d.present (.lane n) (.word w) else d.rawWord n lp w
    | .user .. => d
  let rec1 := (d.laneOf n).openRec
  let d := if d.flag (Pg.lane n) F.LANE_CFG_USER_PCS then d
    else d.present (.lane n) (.sym sym lp (decide (rids < d.nextRid)) ((rec0.isSome || decide (rids < d.nextRid)) && decide (rec1 ≠ rec0 ∧ (rec1.isNone ∨ rec0.isSome))))
  let win := ((countsToLoss sym || dec.ch.2.2.1) :: (d.laneOf n).win).take 64
  let d := d.setLane n ({ d.laneOf n with win := win }.noteLast d.ck t lp)
  if lossThreshold (d.laneCode n) ≤ win.countP id then d.laneLoss n else d

/-- LANE_SYMBOL (R47 to R50, R55 to R57, R75): the symbol is at the sieve point in the CK at hand; its lane registered it RX-pin-to-sieve
CK earlier (up to 3 CK more in standard mode, R55; user logic's latency more for a symbol of its own, R48), θ/256 CK after its last UI.
A threshold that it completes is detected in this CK: the spec gives the decode no CK of its own (DESIGN CHOICE, log entry 16). In
CODE_LOCK the line's bits only keep the descramblers' state. -/
def Dev.laneSymbol (d : Dev) (n : Fin 64) (theta : BitVec 8) (buf : RxBuf) (sym0 : LineSym) : Dev :=
  if ¬ symFits (d.laneCode n) (d.flag (Pg.lane n) F.LANE_CFG_USER_PCS) sym0 then d
  else
    let lag := rxLat (d.laneRate n) + (if d.flag (Pg.lane n) F.LANE_CFG_DET then 0 else buf.late.val)
    match sym0 with
    | .user bs first last k =>
      if d.laneState n ≠ Ln.aligned ∨ ¬ d.userUp (.lane n) then d
      else
        let t := d.pinTime n (d.ck - lag - userRound (d.portRatio (.lane n)) k) theta.toNat
        let lp := d.stampAt n t
        let d := (d.relockEvent n lp).userSym n lp bs first last
        d.setLane n ((d.laneOf n).noteLast d.ck t lp)
    | _ =>
      let r := d.rxBits n sym0
      let p := decodeSym n (d.laneOf n) r.1
      let x := { p.2 with level := r.2 }
      if d.laneState n = Ln.codeLock then d.setLane n x
      else if d.laneState n ≠ Ln.aligned then d
      else d.lineSymbol n (d.pinTime n (d.ck - lag) theta.toNat) (d.ck - lag) buf.comp.val buf.next r.1 p.1 x

/-- A record that a lane port of user logic has begun is ended where its bay shuts (R356). -/
def Dev.portsCut (d : Dev) : Dev :=
  d.lanes.foldl (fun (d : Dev) e =>
    let n : Fin 64 := ⟨e.1 % 64, Nat.mod_lt _ (by decide)⟩
    if e.2.openRec.isSome && d.flag (Pg.lane n) F.LANE_CFG_USER_PCS && !d.userUp (.lane n) then d.closeRecord n e.2.lastLp 2 else d) d

/-! Alignment events (R51 to R54). -/

/-- CDR_LOCK (R51 step 1). -/
def Dev.cdrLock (d : Dev) (n : Fin 64) : Dev :=
  if [Ln.acquire, Ln.lost, Ln.failed].contains (d.laneState n) then
    (d.setFld (Pg.lane n) F.LANE_STAT_SIG 1).setFld (Pg.lane n) F.LANE_STAT_CDR 1
  else d

/-- CODE_LOCK (R51 step 2). A FAILED lane keeps trying: STATE shows CODE_LOCK from here (DESIGN CHOICE, log entry 24: the spec names
what STATE shows only at FAILED and at ALIGNED). -/
def Dev.codeLock (d : Dev) (n : Fin 64) : Dev :=
  if [Ln.acquire, Ln.lost, Ln.failed].contains (d.laneState n) ∧ d.flag (Pg.lane n) F.LANE_STAT_CDR then
    d.setLaneState n Ln.codeLock
  else d

/-- LANE_ALIGNED (R51 steps 3 to 5, R53, R57, R75): buffer depth and offset are set, the attempt has ended; `off` is OFF_n × τ_n in
2^-20 CK, which the OFF register shows in 1/256 symbol, rounded. -/
def Dev.laneAligned (d : Dev) (n : Fin 64) (depth : Fin 128) (off : BitVec 32) : Dev :=
  if d.laneState n ≠ Ln.codeLock then d
  else
    let x := d.laneOf n
    let us := min ((d.ck - x.startCk) / 1000) (2 ^ 32 - 1)
    let d := d.setLaneState n Ln.aligned
    let d := d.setFld (Pg.lane n) F.LANE_STAT_EB_DEPTH depth.val
    let d := d.setFld (Pg.lane n) F.LANE_ALIGN_US us
    let d := d.setFld (Pg.lpc (laneHalf n)) (F.LPC_OFF_OFF (n.val % 32)) ((off.toNat * 256 + d.laneTau n / 2) / d.laneTau n)
    let d := d.setLane n { x with ended := true, fresh := true, off := off.toNat, win := [], openRec := none, rd := none, tauN := 0 }
    let d := { d with agenda := agendaDrop (.alignTimeout n) d.agenda }
    let d := d.pendBits (Pg.lane n) (if x.relock then 0b10001 else 0b00001)
    d.readyCheck

/-- ALIGN_TIMEOUT (R51): the lane is FAILED and keeps trying. -/
def Dev.alignTimeout (d : Dev) (n : Fin 64) : Dev :=
  if [Ln.acquire, Ln.codeLock, Ln.lost].contains (d.laneState n) then
    let d := d.setLaneState n Ln.failed
    ((d.setLane n { d.laneOf n with ended := true }).pend (Pg.lane n) 1).readyCheck
  else d

/-- WANDER_SLIP (R54): the fill has moved by so many 64-UI words from its set depth, in deterministic-latency mode. -/
def Dev.wanderSlip (d : Dev) (n : Fin 64) (words : Nat) : Dev :=
  let margin := max 1 (d.fld (Pg.lane n) F.LANE_ALIGN_MARGIN)
  if d.laneState n = Ln.aligned ∧ d.flag (Pg.lane n) F.LANE_CFG_DET ∧ margin < words then
    ((d.bump (Pg.lane n) F.LANE_SLIP_CNT).pend (Pg.lane n) 3).laneLoss n
  else d

/-- LOSS_OF_SIGNAL (R56): the PHY reports loss of signal detect (`sig`) or of CDR lock. In CODE_LOCK it puts the lane back to ACQUIRE, or
LOST, within the same attempt (DESIGN CHOICE, log entry 24: R51 gives no new attempt there). -/
def Dev.lossOfSignal (d : Dev) (n : Fin 64) (sig : Bool) : Dev :=
  let d := if d.laneState n = Ln.aligned then d.laneLoss n
    else if d.laneState n = Ln.codeLock then d.setLaneState n (if (d.laneOf n).relock then Ln.lost else Ln.acquire)
    else d
  let d := d.setFld (Pg.lane n) F.LANE_STAT_CDR 0
  if sig then d.setFld (Pg.lane n) F.LANE_STAT_SIG 0 else d

/-! Software writes of the LANE page. -/

/-- The table row of a register of a block. -/
def rowOf (b : Blk) (off : Nat) : RegDesc :=
  match regDesc b off with
  | some r => r
  | none => ⟨off, 4, 1, 0, 0, 0, 0, 0, 0, false⟩

/-- A write to LANEn_CFG (R46, R51, R62 to R64): while EN is 1 the link fields keep their values; EN going to 1 starts an
attempt, or counts a combination Table 3-1 does not permit; EN going to 0 puts the lane OFF. -/
def Dev.laneCfgWrite (d : Dev) (n : Fin 64) (val : Word) : Dev :=
  let v := val.toNat
  let cur := (d.reg (Pg.lane n) 0x100).toNat
  let was := bit cur 16
  let en := bit v 16
  -- RATE, CODE, DET, GRAY, PRECODE, TX_CLK, PASS_SRC, USER_PCS
  let held := 0x0BE7F
  let locked := was && (v ^^^ cur) &&& held != 0
  let new := if was then ((v &&& (0x1FFFF - held)) ||| (cur &&& held)) else v &&& 0x1FFFF
  let d := if v / 2 ^ 17 ≠ 0 then d.regErr (Pg.lane n) 1 else d
  let d := if locked then d.err (Pg.lane n) 1 0x0302 else d
  let d := d.setReg (Pg.lane n) 0x100 (BitVec.ofNat 32 new)
  if en ∧ ¬ was then
    if ¬ rateCodeOk (bitsOf new 0 4) (bitsOf new 4 2) then d.err (Pg.lane n) 0 0x0301
    else
      let d := (List.range 4).foldl (fun d k =>
        let m := n.val / 4 * 4 + k
        if m = n.val ∨ (d.laneEn m ∧ d.passSrc m = n.val) then d.passStart m else d) d
      if isConfigured (d.heldMode (laneHalf n)) ∧ d.modeReceives (laneHalf n) ∧ d.domOpen (Dom.quad (n.val / 4)) then d.startAttempt n false else d
  else if was ∧ ¬ en then (d.laneOff n).readyCheck
  else d

/-- A write to LANEn_HOLD (R59). -/
def Dev.holdWrite (d : Dev) (n : Fin 64) (val : Word) : Dev :=
  let v := bitsOf val.toNat 0 7
  let cases := (if v > 64 then [(2, 0x0303)] else []) ++ (if d.passActive n then [(3, 0x0304)] else [])
  let d := if val.toNat / 2 ^ 7 ≠ 0 then d.regErr (Pg.lane n) 1 else d
  if cases ≠ [] then d.errs (Pg.lane n) cases else d.setFld (Pg.lane n) F.LANE_HOLD_HOLD v

/-- A write to LANEn_ALIGN (R51, R52): a RETRY of 1 loses alignment, or starts a new attempt. -/
def Dev.alignRetry (d : Dev) (n : Fin 64) (val : Word) : Dev :=
  let d := d.plainWrite (Pg.lane n) 0 (rowOf .lane 0x108) 0x108 val 0
  if ¬ bit val.toNat 31 then d
  else if d.laneState n = Ln.aligned then d.laneLoss n
  else if d.laneState n ≠ Ln.off then d.startAttempt n (d.laneOf n).relock
  else d

/-- A write to LANEn_FRAME (R64): a RAW_LEN of 0 is refused. -/
def Dev.laneFrameWrite (d : Dev) (n : Fin 64) (val : Word) : Dev :=
  let zero := bitsOf val.toNat 17 11 = 0
  let d := if val.toNat / 2 ^ 28 ≠ 0 then d.regErr (Pg.lane n) 1 else d
  let d := if zero then d.err (Pg.lane n) 4 0x0305 else d
  let keep := if zero then bitsOf (d.reg (Pg.lane n) 0x110).toNat 17 11 else bitsOf val.toNat 17 11
  d.setReg (Pg.lane n) 0x110 (BitVec.ofNat 32 (bitsOf val.toNat 0 17 + keep * 2 ^ 17))

/-! The commands. -/

/-- CDR_LOCK (R51). -/
def execCdrLock (n : Fin 64) (s : State) : Host.Outcome State Fault Refusal :=
  s.cmd (fun d => d.cdrLock n)

/-- CODE_LOCK (R51). -/
def execCodeLock (n : Fin 64) (s : State) : Host.Outcome State Fault Refusal :=
  s.cmd (fun d => d.codeLock n)

/-- LANE_ALIGNED (R53). -/
def execLaneAligned (n : Fin 64) (depth : Fin 128) (off : BitVec 32) (s : State) : Host.Outcome State Fault Refusal :=
  s.cmd (fun d => d.laneAligned n depth off)

/-- ALIGN_TIMEOUT (R51). -/
def execAlignTimeout (n : Fin 64) (s : State) : Host.Outcome State Fault Refusal :=
  s.run (.alignTimeout n) (fun d => d.alignTimeout n)

/-- LANE_SYMBOL (R49). -/
def execLaneSymbol (n : Fin 64) (theta : BitVec 8) (buf : RxBuf) (sym : LineSym) (s : State) :
    Host.Outcome State Fault Refusal :=
  s.cmd (fun d => d.laneSymbol n theta buf sym)

/-- WANDER_SLIP (R54). -/
def execWanderSlip (n : Fin 64) (words : Nat) (s : State) : Host.Outcome State Fault Refusal :=
  s.cmd (fun d => d.wanderSlip n words)

/-- LOSS_OF_SIGNAL (R56). -/
def execLossOfSignal (n : Fin 64) (sig : Bool) (s : State) : Host.Outcome State Fault Refusal :=
  s.cmd (fun d => d.lossOfSignal n sig)

end Sys2Proof.Machine
end

