-- ==== Sys2Proof/Machine/Stim.lean ====
section
/-! DEFINITION. The stimulus units: actions and their first affected symbols, templates, room, the TX stream of pass-through and of
generated slots, captured stimulus (R226 to R238, R244). -/

namespace Sys2Proof.Machine

/-- A lane as an operand. -/
def laneFin (n : Nat) : Fin 64 := ⟨n % 64, Nat.mod_lt _ (by decide)⟩

/-! Templates (R228, R229). -/

def tmplKey (h t w : Nat) : Nat := h * 2 ^ 21 + t % 4096 * 512 + w % 512
def Dev.tmplWord (d : Dev) (h t w : Nat) : Word := sget 0#32 d.tmpls (tmplKey h t w)

/-- Entry size of a code (Table 11-4). -/
def entrySize (code : Nat) : Nat := match code with | 0 => 16 | 1 => 32 | 2 => 2 | _ => 16

/-- N and CODE of a template (Table 11-3). -/
def Dev.tmplN (d : Dev) (h t : Nat) : Nat := (d.tmplWord h t 0).toNat % 2 ^ 16
def Dev.tmplCode (d : Dev) (h t : Nat) : Nat := bitsOf (d.tmplWord h t 0).toNat 16 2

/-- Byte j of a template. -/
def Dev.tmplByte (d : Dev) (h t j : Nat) : Byte := byteOf (d.tmplWord h t (j / 4)).toNat (j % 4)

/-- The N entries of a template. -/
def Dev.tmplEntries (d : Dev) (h t : Nat) : List (List Byte) :=
  let sz := entrySize (d.tmplCode h t)
  (List.range (min (d.tmplN h t) 1016)).map (fun i => (List.range sz).map (fun j => d.tmplByte h t (16 + i * sz + j)))

/-- The sync header an entry gives a block of a code. -/
def entrySync (code : Nat) (e : List Byte) : BitVec 2 := (byteAt e (if code = 1 then 16 else 8)).truncate 2

/-- Is the template invalid for the action and the lane (R229)? -/
def Dev.tmplBad (d : Dev) (n op t : Nat) : Bool :=
  let h := laneHalf n
  let code := d.tmplCode h t
  let k := d.tmplN h t
  k = 0 || decide (2032 < k * entrySize code) || code ≠ d.fld (Pg.lane n) F.LANE_CFG_CODE
    || (op = 1 && code = 1 && (d.tmplEntries h t).any (fun e => entrySync 1 e = 0b10#2))

/-! Symbols as sent (Table 11-5). -/

/-- The scrambler x^58 + x^39 + 1 from the state of the transmitted bits. -/
def scramble (s : BitVec 58) (x : BitVec 64) : BitVec 64 :=
  let w0 : BitVec 122 := s.zeroExtend 122
  let y0 : BitVec 64 := x ^^^ ((w0 >>> 19).truncate 64) ^^^ (w0.truncate 64)
  let w : BitVec 122 := ((y0 &&& 0x7FFFFFFFFF#64).zeroExtend 122 <<< 58) ||| w0
  x ^^^ ((w >>> 19).truncate 64) ^^^ (w.truncate 64)

/-- The running disparity a lane encodes from: negative where nothing sent has set it. -/
def StimLane.txRd (x : StimLane) : Bool := x.rd.getD false

/-- The symbol a template entry is sent as (Tables 11-4, 11-5); `lfsr` is that of its position in a 128b/130b stream, whose ordered sets
go unscrambled. -/
def Dev.entrySym (d : Dev) (n : Nat) (lfsr : BitVec 23) (e : List Byte) : LineSym :=
  let x := d.stimOf n
  match d.laneCode n with
  | 0 => .blk66 (entrySync 0 e) (scramble x.scr (BitVec.ofNat 64 (leNat (e.take 8))))
  | 1 =>
    let s := entrySync 1 e
    .blk130 s (BitVec.ofNat 128 (leNat (if s = 0b10#2 then under130 lfsr s (e.take 16) else e.take 16)))
  | 2 => .chr (encode810 x.txRd (byteAt e 0).toNat (bit (byteAt e 1).toNat 0))
  | _ => .raw (BitVec.ofNat 128 (leNat (e.take 16)))

/-- The idle of a code as a template entry (R60, R227): K28.5 and D16.2 in turn in 8b/10b. -/
def idleEntry (code : Nat) (second : Bool) : List Byte :=
  match code with
  | 0 => [0x1E#8] ++ List.replicate 7 0#8 ++ [2#8] ++ List.replicate 7 0#8
  | 1 => List.replicate 16 0#8 ++ [2#8] ++ List.replicate 15 0#8
  | 2 => if second then [0x50#8, 0#8] else [0xBC#8, 1#8]
  | _ => List.replicate 16 0#8

/-- A symbol under a FLIP mask, as encoded on the line (R227, Table 11-4). -/
def flipSym (sym : LineSym) (m : List Byte) : LineSym :=
  match sym with
  | .blk66 s x => .blk66 (s ^^^ entrySync 0 m) (x ^^^ BitVec.ofNat 64 (leNat (m.take 8)))
  | .blk130 s x => .blk130 (s ^^^ entrySync 1 m) (x ^^^ BitVec.ofNat 128 (leNat (m.take 16)))
  | .chr g => .chr (g ^^^ BitVec.ofNat 10 (leNat (m.take 2)))
  | .raw w => .raw (w ^^^ BitVec.ofNat 128 (leNat (m.take 16)))
  | other => other

/-- A symbol passes injection select in a CK: its first UI leaves the pin 6 CK and the serializer's figure later (R58). `enc` is what
the PCS encoded, `out` what leaves, which a FLIP mask makes another: scrambler, LFSR and running disparity go on from what was encoded
(R231). PAM4 bits leave as levels (R48). -/
def Dev.txPut (d : Dev) (n ck : Nat) (enc out : LineSym) : Dev :=
  let x := d.stimOf n
  let x : StimLane := match enc with
    | .blk66 _ b => { x with scr := (b >>> 6).truncate 58 }
    | .blk130 s b => { x with lfsr := lfsrAfter n x.lfsr s (leBytes 16 b.toNat) }
    | .chr g => { x with rd := rdAfter x.rd g }
    | _ => x
  let pam4 := match rateRow (d.laneRate n) with | some row => row.pam4 | none => false
  let r := if pam4 then out.overPairs (pairTx (d.flag (Pg.lane n) F.LANE_CFG_GRAY) (d.flag (Pg.lane n) F.LANE_CFG_PRECODE)) x.level
    else (out, x.level)
  let line := if d.flag (Pg.lane n) F.LANE_CFG_TX_INV then invertSym r.1 else r.1
  (d.setStim n { x with level := r.2 }).emit (.tx n (ck + 6 + txLat (d.laneRate n)) (some line))

def Dev.txSend (d : Dev) (n ck : Nat) (sym : LineSym) : Dev := d.txPut n ck sym sym

/-- Electrical idle for a symbol's duration. -/
def Dev.txQuiet (d : Dev) (n ck : Nat) : Dev := d.emit (.tx n (ck + 6 + txLat (d.laneRate n)) none)

/-- An idle symbol is sent; the next of an idle set is its other character. -/
def Dev.txIdle (d : Dev) (n ck : Nat) (lfsr : BitVec 23) : Dev :=
  let x := d.stimOf n
  let d := d.txSend n ck (d.entrySym n lfsr (idleEntry (d.laneCode n) x.idleD))
  d.setStim n { d.stimOf n with idleD := d.laneCode n = 2 && !x.idleD }

/-! Slots of generated TX (R60, R233). -/

/-- The duration of a lane's TX symbols as a fraction of CK: that of the PASS_SRC lane as measured where TX_CLK is RECOVERED, else bits ×
10^5 over the rate of Table 3-1 (R60). -/
def Dev.tauFrac (d : Dev) (n : Nat) : Nat × Nat :=
  let src := (d.laneOf (d.passSrc n)).tau
  if d.fld (Pg.lane n) F.LANE_CFG_TX_CLK = 0 ∧ src ≠ 0 then (src, 2 ^ 20)
  else match rateRow (d.laneRate n) with
    | some row => (symbolBits row.pam4 (d.laneCode n) * 100000, row.rate)
    | none => (1, 1)
def Dev.tauNum (d : Dev) (n : Nat) : Nat := (d.tauFrac n).1
def Dev.tauDen (d : Dev) (n : Nat) : Nat := (d.tauFrac n).2

/-- The CK in which a slot passes injection select. -/
def Dev.slotCk (d : Dev) (n k : Nat) : Nat :=
  let x := d.stimOf n
  (x.genCk - 1) + (Config.txPhase n % x.genTau.1 + (k - x.genSlot) * x.genTau.1 + x.genTau.2 - 1) / x.genTau.2

/-- Is a lane's TX generated? -/
def Dev.generating (d : Dev) (n : Nat) : Bool := d.txState n = .generate

/-! Arrival (R226, R232, R236, R237). -/

/-- Does the lane's TX carry pass-through or generated symbols, and is the unit enabled (R237)? -/
def Dev.txOk (d : Dev) (n : Nat) : Bool :=
  d.flag (Pg.stim (laneHalf n)) F.STIM_CTRL_EN && (d.txState n = .pass || d.txState n = .generate)

/-- An action is dropped as a collision (R236, R242). -/
def Dev.collide (d : Dev) (n : Nat) : Dev :=
  (d.bump (Pg.stim (laneHalf n)) F.STIM_COLLIDE_CNT).pend (Pg.stim (laneHalf n)) 2

/-- The reaction distance D of an action that arrives A CK after its anchor was sampled (R232). -/
def Dev.reaction (d : Dev) (n a : Nat) : Nat :=
  let delta := a - rxLat (d.laneRate n) - 2 - d.fld (Pg.lane n) F.LANE_HOLD_HOLD
  (delta * d.tauDen n + d.tauNum n - 1) / d.tauNum n

/-- Is a symbol the anchor of an action: the one that a sieve event named, or the first stamped at or above its base (R232)? -/
def isAnchor (anchor : Option Nat) (base : LP) (num : Nat) (lp : LP) : Bool :=
  match anchor with
  | some k => decide (num = k)
  | none => decide (0 ≤ (lp - base).toInt)

/-- The first affected symbol or slot of an action that arrives now, but for DELAY_SYM; none while its anchor has not been sampled, which
gives D = 0 (R232, R233). A scheduler's action counts A from the first CK at or after the anchor's pin time, from which R82 has its
target reached: that gives the columns of Table 11-6 (R234; DEDUCED, log entry 24). -/
def Dev.firstOf (d : Dev) (n : Nat) (base : LP) (anchor : Option Nat) (sched : Bool) : Option Nat :=
  let x := d.stimOf n
  if d.generating n then some x.slot
  else
    let old := (x.hist.filter (fun (e : Nat × LP × Nat × Nat) => isAnchor anchor base e.1 e.2.1)).getLast?
    match old with
    | some e => some (e.1 + d.reaction n (d.ck - (if sched then e.2.2.2 else e.2.2.1)))
    | none => match (d.laneOf n).txq.find? (fun e => isAnchor anchor base e.num e.lp) with
      | some e => some (e.num + d.reaction n (d.ck - (if sched then e.pin else e.samp)))
      | none => none

/-- A STIM action reaches its unit: it becomes pending, or is dropped (R236, R237); outside the modes with stimulus it is discarded
(R37). -/
def Dev.stimAccept (d : Dev) (n a0 : Nat) (base : LP) (sym : Option (Nat × Nat)) (sched : Bool) : Dev :=
  if ¬ isStimulus (d.modeOf (laneHalf n)) then d
  else if ¬ d.txOk n then d.noTx n
  else
    let x := d.stimOf n
    if 4 ≤ x.pend.length then d.collide n
    else
      let anchor : Option Nat := match sym with
        | some (l, k) => if l = d.passSrc n then some k else none
        | none => none
      let a : StimAct := { op := stimOp a0, tmpl := stimTemplate a0, count := stimCount a0, delay := stimDelay a0, base := base,
                           anchor := anchor, first := (d.firstOf n base anchor sched).map (fun f => f + stimDelay a0) }
      d.setStim n { x with pend := x.pend ++ [a] }

/-- The order of actions that reach a unit in one CK (R236): own scheduler, own sequencers by number, the other half's. -/
def arrivalRank (h : Nat) (a : Action) : Nat :=
  (if a.half = h then 0 else 100) + (match a.src with | .evs _ => 0 | .seq q _ => 1 + q | .port => 200)

/-- Is the action a scheduler's? -/
def Action.scheduled (a : Action) : Bool := match a.src with | .evs _ => true | _ => false

/-- The next action of a class at a half's unit, and the others. -/
def Dev.stimNext (d : Dev) (h cls : Nat) : Option (Action × List Action) :=
  let mine (a : Action) : Bool := a.cls = cls && laneHalf (a.arg1 % 64) = h
  let best := (d.stimIn.filter mine).foldl (fun (b : Option Action) a => match b with
    | none => some a
    | some y => if arrivalRank h a < arrivalRank h y then some a else b) none
  best.map (fun a => (a, d.stimIn.erase a))

/-- STIM_ACTION_ARRIVAL (R226, R232, R236, R237). -/
def Dev.stimActionArrival (d : Dev) (h : Nat) : Dev :=
  match d.stimNext h Cl.stim with
  | none => d
  | some (a, rest) => ({ d with stimIn := rest } : Dev).stimAccept (a.arg1 % 64) a.arg0 a.lp a.sym a.scheduled

/-- STIM_PORT_ACTION (R312, R314): the check of R226, then as an action whose base is the published LP, behind the others of its CK. -/
def Dev.stimPortAction (d : Dev) (h a0 a1 : Nat) : Dev :=
  if ¬ argOk Cl.stim a0 a1 ∨ laneHalf (a1 % 64) ≠ h then (d.err (Pg.stim h) 1 0x0B02).present (.stim h) (.taken false)
  else
    let d := d.present (.stim h) (.taken true)
    let a : Action := { half := h, src := .port, cls := Cl.stim, arg0 := a0, arg1 := a1, tag := 0, lp := d.pubLp h, pub := d.pubLp h, dest := h }
    ({ d with stimIn := d.stimIn ++ [a] } : Dev).sched 0 (.stimActionArrival (halfOf h))

/-! Applying (R227, R229, R235, R236, R238). -/

/-- The number of the symbol or slot at injection select now, if one is. -/
def Dev.selNum (d : Dev) (n : Nat) : Option Nat :=
  let x := d.stimOf n
  if d.generating n then (if d.slotCk n x.slot ≤ d.ck then some x.slot else none)
  else match (d.laneOf n).txq with
    | e :: _ => if e.sel ≤ d.ck then some e.num else none
    | [] => none

/-- Pending actions whose first affected symbol is at injection select, and the others. -/
def Dev.dueActs (d : Dev) (n : Nat) : List StimAct × List StimAct :=
  let x := d.stimOf n
  match d.selNum n with
  | none => ([], x.pend)
  | some k =>
    let due (a : StimAct) : Bool := match a.first with | some f => decide (f ≤ k) | none => false
    (x.pend.filter due, x.pend.filter (fun a => !due a))

/-- The stamp of the first affected symbol, or the slot's LP (R233, R238). -/
def Dev.selLp (d : Dev) (n : Nat) : LP :=
  if d.generating n then d.pubLp (laneHalf n)
  else match (d.laneOf n).txq with
    | e :: _ => e.lp
    | [] => d.pubLp (laneHalf n)

/-- Captured stimulus (R238): a data record with flag bit 5, allocated in this CK. -/
def Dev.stimCapture (d : Dev) (n : Nat) (payload : List Byte) (tag : Nat) : Dev :=
  let h := laneHalf n
  if ¬ bit (d.fld (Pg.stim h) F.STIM_CAP_LANES) (n % 32) then d
  else
    let f := d.fld (Pg.stim h) F.STIM_CAP_FLOW_FLOW
    let rid := d.nextRid
    (d.addRec { half := h, lane := n, typ := 0, flags := 32 ||| d.fwFlag h, lp := d.selLp n, flow := f, tag := tag, payload := payload,
                ended := true, reached := payload.length, complete := true, outSeen := true,
                outc := some ⟨.keep, f, 0, tag, 0, 0⟩ }).toAlloc h 0 (64 + n) rid

/-- The first W symbols of a lane's hold line: W is ROOM_WIN or the symbols HOLD holds, whichever is fewer (R235). -/
def Dev.roomWindow (d : Dev) (n : Nat) : List TxEnt :=
  let w := min (d.fld (Pg.stim (laneHalf n)) (F.STIM_LANE_ROOM_WIN (n % 32)))
    (d.fld (Pg.lane n) F.LANE_HOLD_HOLD * d.tauDen n / d.tauNum n)
  (d.laneOf n).txq.take w

/-- The numbers of the room symbols of a window: an 8b/10b idle set counts as its two characters. -/
def roomNums : List TxEnt → List Nat
  | a :: b :: r =>
    if a.room = 1 then a.num :: roomNums (b :: r)
    else if a.room = 2 ∧ b.room = 3 then a.num :: b.num :: roomNums r
    else roomNums (b :: r)
  | [a] => if a.room = 1 then [a.num] else []
  | [] => []

/-- Begin what changes the lane's stream: an insertion in pass-through has its symbols sent before this one (R235). -/
def Dev.begin' (d : Dev) (n : Nat) (r : StimRun) (inserts : Bool) (del : List Nat) : Dev :=
  let x := d.stimOf n
  if inserts then d.setStim n { x with run := some { r with del := del }, fifo := r.syms.map TxItem.entry }
  else d.setStim n { x with run := some r }

/-- An action is applied, or dropped: for another that is active or queued before it on the same symbol, for no TX, for its template,
for room. -/
def Dev.stimApply (d : Dev) (n op : Nat) : Dev :=
  let h := laneHalf n
  match d.dueActs n with
  | ([], _) => d
  | (a :: same, later) =>
    if a.op ≠ op then d
    else
      let d := d.setStim n { d.stimOf n with pend := later }
      let d := same.foldl (fun (d : Dev) _ => d.collide n) d
      let entries := d.tmplEntries h a.tmpl
      let uses := op = 0 || op = 1 || op = 3
      let inserts := op = 1 && !d.generating n
      let room := roomNums (d.roomWindow n)
      if (d.stimOf n).run.isSome then d.collide n
      else if ¬ d.txOk n then d.noTx n
      else if uses ∧ d.tmplBad n op a.tmpl then d.err (Pg.stim h) 1 0x0B02
      else if inserts ∧ room.length < entries.length then
        (d.bump (Pg.stim h) F.STIM_NOROOM_CNT).pend (Pg.stim h) 1
      else
        let d := d.bump (Pg.stim h) F.STIM_APPLY_CNT
        let d := if uses then d.stimCapture n entries.flatten (a.tmpl + op * 4096)
          else d.stimCapture n (leBytes 8 a.count) (op * 4096)
        d.begin' n { op := op, tmpl := a.tmpl, syms := if uses then entries else [],
                     left := if uses then entries.length else a.count } inserts (room.take entries.length)

/-- REPLACE, INSERT, DELETE, FLIP, HOLD (R227): the due action of the lane is applied where its operation is the one named. -/
def Dev.replace (d : Dev) (n : Nat) : Dev := d.stimApply n 0
def Dev.insert (d : Dev) (n : Nat) : Dev := d.stimApply n 1
def Dev.delete (d : Dev) (n : Nat) : Dev := d.stimApply n 2
def Dev.flip (d : Dev) (n : Nat) : Dev := d.stimApply n 3
def Dev.hold (d : Dev) (n : Nat) : Dev := d.stimApply n 4

/-- The command that applies an operation. -/
def applyCmd (n : Fin 64) (op : Nat) : Instr :=
  match op with
  | 0 => .replace n
  | 1 => .insert n
  | 2 => .delete n
  | 3 => .flip n
  | _ => .hold n

/-! TMPL_DATA (R230, R244). -/

/-- Does an action, pending or active, name a template? -/
def Dev.tmplNamed (d : Dev) (h t : Nat) : Bool :=
  let names (op tm : Nat) : Bool := (op = 0 || op = 1 || op = 3) && tm = t
  d.stims.any (fun (e : Nat × StimLane) => laneHalf e.1 = h &&
    (e.2.pend.any (fun a => names a.op a.tmpl) || (match e.2.run with | some r => names r.op r.tmpl | none => false)))
    || d.stimIn.any (fun a => a.cls = Cl.stim && laneHalf (a.arg1 % 64) = h && names (stimOp a.arg0) (stimTemplate a.arg0))

/-- TMPL_DATA_ACCESS (R230, R244): the word, then WORD advances, but under PEEK. -/
def Dev.tmplDataAccess (d : Dev) (h : Nat) (wr : Option Word) (peek : Bool) : Dev :=
  let pg := Pg.stim h
  let t := d.fld pg F.STIM_TMPL_ADDR_TMPL
  let w := d.fld pg F.STIM_TMPL_ADDR_WORD
  let step (d : Dev) : Dev := d.setFld pg F.STIM_TMPL_ADDR_WORD ((w + 1) % 512)
  match wr with
  | none =>
    let d := d.emit (.rdata (raddr pg 0x104) (d.tmplWord h t w))
    if peek then d else step d
  | some v =>
    step (if d.tmplNamed h t then d.err pg 0 0x0B01 else { d with tmpls := sset 0#32 d.tmpls (tmplKey h t w) v })

/-! The commands. -/

/-- STIM_ACTION_ARRIVAL (R236). -/
def execStimActionArrival (h : Half) (s : State) : Host.Outcome State Fault Refusal :=
  s.run (.stimActionArrival h) (fun d => d.stimActionArrival h.val)

/-- STIM_PORT_ACTION (R314). -/
def execStimPortAction (h : Half) (arg0 arg1 : Word) (s : State) : Host.Outcome State Fault Refusal :=
  s.cmd (fun d => if d.userUp (.stim h.val) then d.stimPortAction h.val arg0.toNat arg1.toNat else d)

/-- REPLACE (R227). -/
def execReplace (n : Fin 64) (s : State) : Host.Outcome State Fault Refusal :=
  s.run (.replace n) (fun d => d.replace n.val)

/-- INSERT (R235). -/
def execInsert (n : Fin 64) (s : State) : Host.Outcome State Fault Refusal :=
  s.run (.insert n) (fun d => d.insert n.val)

/-- DELETE (R227). -/
def execDelete (n : Fin 64) (s : State) : Host.Outcome State Fault Refusal :=
  s.run (.delete n) (fun d => d.delete n.val)

/-- FLIP (R227). -/
def execFlip (n : Fin 64) (s : State) : Host.Outcome State Fault Refusal :=
  s.run (.flip n) (fun d => d.flip n.val)

/-- HOLD (R227). -/
def execHold (n : Fin 64) (s : State) : Host.Outcome State Fault Refusal :=
  s.run (.hold n) (fun d => d.hold n.val)

/-- TMPL_DATA_ACCESS (R230). -/
def execTmplDataAccess (h : Half) (wr : Option Word) (peek : Bool) (s : State) : Host.Outcome State Fault Refusal :=
  s.cmd (fun d => match wr with
    | none => d.tmplDataAccess h.val none peek
    | some v => d.swGate (raddr (Pg.stim h.val) 0x104) v (fun d => d.tmplDataAccess h.val (some v) peek))

end Sys2Proof.Machine
end

