-- ==== Sys2Proof/Machine/Play.lean ====
section
/-! DEFINITION. Playback streams, and the TX stream symbol by symbol: pass-through with its changes, generated slots (R58, R227, R235,
R237 to R243). -/

namespace Sys2Proof.Machine

/-! Streams (R239, R242). -/

/-! Stream states (Table 11-10). -/
namespace Ps
def idle : Nat := 0
def armed : Nat := 1
def running : Nat := 2
def ended : Nat := 3
end Ps

def Dev.playOf (d : Dev) (h s : Nat) : PlaySt := sget {} d.plays (h * 64 + s)
def Dev.setPlay (d : Dev) (h s : Nat) (x : PlaySt) : Dev := { d with plays := sset {} d.plays (h * 64 + s) x }
def Dev.playState (d : Dev) (h s : Nat) : Nat := d.fld (Pg.stim h) (F.STIM_PLAY_STAT_STATE s)
def Dev.setPlayState (d : Dev) (h s st : Nat) : Dev := d.setFld (Pg.stim h) (F.STIM_PLAY_STAT_STATE s) st

/-! Stream entry (Table 11-9). -/
def PL_START : Fld := ⟨0, 0, 40⟩
def PL_FLOW : Fld := ⟨5, 0, 12⟩
def PL_H : Fld := ⟨6, 4, 1⟩
def PL_SRC : Fld := ⟨6, 5, 1⟩
def PL_END : Fld := ⟨8, 0, 40⟩
def PL_REPEAT : Fld := ⟨16, 0, 16⟩
def PL_TIME : Fld := ⟨18, 0, 1⟩
def PL_GAP : Fld := ⟨20, 0, 32⟩

/-- Does an entry keep Table 11-9? -/
def playEntryOk (e : BitVec 256) : Bool :=
  eget e PL_START % 32 = 0 && eget e PL_END % 32 = 0 && decide (eget e PL_START < eget e PL_END)
    && eget e ⟨6, 6, 10⟩ = 0 && eget e ⟨13, 0, 24⟩ = 0 && eget e ⟨18, 1, 15⟩ = 0 && eget e ⟨24, 0, 64⟩ = 0

/-- A stream number as an operand. -/
def streamFin (s : Nat) : Fin 64 := ⟨s % 64, Nat.mod_lt _ (by decide)⟩

/-- The channels of the pattern space, ascending. -/
def Dev.patChans (d : Dev) (h : Nat) : List Nat := (setBits (d.fld (Pg.stim h) F.STIM_PAT_CFG_CHANS) 8).map (fun k => 8 * h + k)

/-- Pieces of `n` bytes of the pattern space from x on (R183, R239). -/
def Dev.patPieces (d : Dev) (h : Nat) : Nat → Nat → Nat → List Piece
  | 0, _, _ => []
  | fuel + 1, x, n =>
    if n = 0 then []
    else
      let cs := d.patChans h
      let k := max 1 cs.length
      let g := 2 ^ d.fld (Pg.stim h) F.STIM_PAT_CFG_GRAIN
      let m := min n (g - x % g)
      let off := d.fld (Pg.stim h) F.STIM_PAT_BASE_BASE * 4096 + x / (g * k) * g + x % g
      (⟨cs.getD (x / g % k) 0, off, m, none⟩ : Piece) :: d.patPieces h fuel (x + m) (n - m)

/-- Bytes of the pattern space. -/
def Dev.patSize (d : Dev) (h : Nat) : Nat := d.fld (Pg.stim h) F.STIM_PAT_SIZE_SIZE * 4096 * (d.patChans h).length

/-- A stream reads on while its 64 KiB buffer has room: one read at a time, of up to 2 KiB; beyond END it goes on with the next pass
(R239, R240, R242). -/
def Dev.playFetch (d : Dev) (h s : Nat) : Dev :=
  let x := d.playOf h s
  let e := x.entry
  let st := d.playState h s
  if x.read.isSome ∨ ¬ (x.arming ∨ st = Ps.armed ∨ st = Ps.running) then d
  else
    let fin := eget e PL_END
    let again := eget e PL_REPEAT = 0xFFFF || decide (x.rdPass < eget e PL_REPEAT)
    let wrap := fin ≤ x.rdOff && again && !x.arming
    let off := if wrap then eget e PL_START else x.rdOff
    let pass := if wrap then x.rdPass + 1 else x.rdPass
    let room := 65536 - 32 * x.buf.length
    let n := min (min 2048 room) (fin - off)
    if n = 0 then d
    else if eget e PL_SRC = 0 then
      let id := d.nextRead
      let H := eget e PL_H
      let a := H * 2 ^ 52 + eget e PL_FLOW * 2 ^ 40 + off
      let d := if d.bridged (Ep.stim h) (Ep.index H) then
          let m := d.packet (Ep.stim h) (Ep.index H) 1 1
          m.1.bar2Read (.play h s) a n (m.2 + 3 - d.ck)
        else
          let us := unitsOfRead a n
          let d := d.err (Pg.noc h) 1 0x1302
          let r : CapRead := { src := .play h s, off := a, len := n,
                               done := some ((us.map (fun _ => fillOf clsUnavail)).flatten, us.map (fun _ => clsUnavail)) }
          ({ d with nextRead := id + 1, capReads := sput d.capReads id r } : Dev).sched 0
            (.playbackReadData (halfOf h) (streamFin s))
      d.setPlay h s { x with rdOff := off + n, rdPass := pass, read := some (id, off, n) }
    else
      let tx := d.nextTx
      let got := min n (d.patSize h - off)
      let d := d.dramMulti (some (Ep.stim h)) (d.patPieces h 64 off got) false 5 7 (decide (n ≤ 64)) false (some (.playbackReadData (halfOf h) (streamFin s)))
      d.setPlay h s { x with rdOff := off + n, rdPass := pass, read := some (tx, off, n) }

/-- The 32-byte units of what a read returned. -/
def playUnits (off : Nat) (bytes : List Byte) (cls : List Nat) : List PlayUnit :=
  cls.zipIdx.map (fun p => ⟨off + 32 * p.2, (bytes.drop (32 * p.2)).take 32, p.1⟩)

/-- PLAYBACK_READ_DATA (R239, R242): the data joins the buffer; an arming stream is armed once the buffer is full, or holds it all. -/
def Dev.playbackReadData (d : Dev) (h s : Nat) : Dev :=
  let x := d.playOf h s
  match x.read with
  | none => d
  | some (id, off, n) =>
    let got : Option (Dev × List PlayUnit) :=
      if eget x.entry PL_SRC = 0 then
        match sfind d.capReads id with
        | some r => match r.done with
          | some (bytes, cls) => some ({ d with capReads := serase d.capReads id }, playUnits off bytes cls)
          | none => none
        | none => none
      else
        match sfind d.dtx id with
        | some t =>
          if ¬ d.txDone t then none
          else
            let bs := t.bytes
            let cls := (List.range (n / 32)).map (fun k =>
              let u := (bs.drop (32 * k)).take 32
              if u.length < 32 then clsUnavail else if u.any (fun b => b.2) then clsPoisoned else clsData)
            some ({ d with dtx := serase d.dtx id }, playUnits off (bs.map Prod.fst) cls)
        | none => none
    match got with
    | none => d
    | some (d, us) =>
      -- what a skip has left behind, or a pass that is over, is not wanted any more
      let us := if x.rdPass < x.passes then []
        else if x.rdPass = x.passes then us.filter (fun u => decide (x.pos ≤ u.off)) else us
      let x := { x with read := none, buf := x.buf ++ us }
      let d := d.setPlay h s x
      if x.arming ∧ (65536 ≤ 32 * x.buf.length ∨ eget x.entry PL_END ≤ x.rdOff) then d.schedOnce 0 (.playArmed (halfOf h) (streamFin s))
      else d.playFetch h s

/-- PLAY_ARMED (R242). -/
def Dev.playArmed (d : Dev) (h s : Nat) : Dev :=
  let x := d.playOf h s
  if ¬ x.arming then d
  else ((d.setPlay h s { x with arming := false }).setPlayState h s Ps.armed).playFetch h s

/-- A stream ends (R242). -/
def Dev.playEnd (d : Dev) (h s : Nat) : Dev :=
  let x := d.playOf h s
  ((d.setPlay h s { x with buf := [], stop := false, origin := none, first := none }).setPlayState h s Ps.ended).pend (Pg.stim h) 0

/-- Is a record of the stream being sent? -/
def Dev.playSending (d : Dev) (h s : Nat) : Bool :=
  let m := d.stimOf (d.playOf h s).lane
  let mine (r : Option StimRun) : Bool := match r with | some r => r.stream = some s | none => false
  mine m.run || mine m.play

/-- A running stream is told to end at its next record boundary (R37, R242). -/
def Dev.playStopAt (d : Dev) (h s : Nat) : Dev :=
  if d.playState h s ≠ Ps.running then d
  else if d.playSending h s then d.setPlay h s { d.playOf h s with stop := true }
  else d.playEnd h s

/-! The commands of PLAY_CMD (R242). -/

/-- A command is refused. -/
def Dev.playRefuse (d : Dev) (h : Nat) : Dev := (d.err (Pg.stim h) 2 0x0B03).setFld (Pg.stim h) F.STIM_PLAY_CMD_STATUS 2
def Dev.playOk (d : Dev) (h : Nat) : Dev := d.setFld (Pg.stim h) F.STIM_PLAY_CMD_STATUS 0
def Dev.playSel (d : Dev) (h : Nat) : Nat := d.fld (Pg.stim h) F.STIM_PLAY_IDX_STREAM
/-- Is the stream IDLE or ENDED, and not filling? -/
def Dev.playFree (d : Dev) (h s : Nat) : Bool := d.playState h s = Ps.idle || d.playState h s = Ps.ended

/-- PLAY_WRITE. -/
def Dev.playWrite (d : Dev) (h : Nat) : Dev :=
  let s := d.playSel h
  let e := d.window 256 (Pg.stim h) 0x124 8
  if ¬ d.playFree h s ∨ ¬ playEntryOk e then d.playRefuse h
  else (d.setPlay h s { entry := e }).playOk h

/-- PLAY_READ. -/
def Dev.playRead (d : Dev) (h : Nat) : Dev := (d.setWindow (Pg.stim h) 0x124 8 (d.playOf h (d.playSel h)).entry).playOk h

/-- PLAY_ARM: prefetch begins. -/
def Dev.playArm (d : Dev) (h : Nat) : Dev :=
  let s := d.playSel h
  if ¬ d.playFree h s then d.playRefuse h
  else
    let e := (d.playOf h s).entry
    let d := d.setPlay h s { entry := e, arming := true, rdOff := eget e PL_START, pos := eget e PL_START }
    let d := d.setFld (Pg.stim h) (F.STIM_PLAY_STAT_PASSES s) 0
    (d.playFetch h s).playOk h

/-- A stream starts on a lane (R240, R242): its time origin is the LP of the first affected slot with DELAY_SYM 0. -/
def Dev.playBegin (d : Dev) (s n : Nat) (base : LP) (sym : Option (Nat × Nat)) (sched : Bool) : Dev :=
  let h := laneHalf n
  let anchor : Option Nat := match sym with
    | some (l, k) => if l = d.passSrc n then some k else none
    | none => none
  if ¬ isStimulus (d.modeOf h) then d
  else if ¬ d.txOk n then d.noTx n
  else
    let d := d.bump (Pg.stim h) F.STIM_APPLY_CNT
    (d.setPlay h s { d.playOf h s with lane := n, base := base, anchor := anchor, first := d.firstOf n base anchor sched }).setPlayState h s
      Ps.running

/-- PLAY_START. -/
def Dev.playStart (d : Dev) (h : Nat) : Dev :=
  let s := d.playSel h
  let n := d.fld (Pg.stim h) F.STIM_PLAY_IDX_LANE
  if d.playState h s ≠ Ps.armed ∨ laneHalf n ≠ h then d.playRefuse h
  else (d.playBegin s n (d.pubLp h) none false).playOk h

/-- PLAY_STOP. -/
def Dev.playStop (d : Dev) (h : Nat) : Dev := (d.playStopAt h (d.playSel h)).playOk h

/-- PLAY_ACTION (R242): a stream that is not ARMED makes it a collision. -/
def Dev.playAction (d : Dev) (h : Nat) : Dev :=
  match d.stimNext h Cl.play with
  | none => d
  | some (a, rest) =>
    let d : Dev := { d with stimIn := rest }
    let s := a.arg0 % 64
    if ¬ isStimulus (d.modeOf h) then d
    else if d.playState h s ≠ Ps.armed then d.bump (Pg.stim h) F.STIM_COLLIDE_CNT
    else d.playBegin s (a.arg1 % 64) a.lp a.sym a.scheduled

/-! The next record of a stream (R240, R243). -/

/-- What a stream's next step is: it waits for data; a pass is over; a record is skipped to an offset; a record that is not sent but
counts in time; a record to send. -/
inductive PlayNext where
  | wait
  | passEnd
  | skip (dst : Nat)
  | time (due : LP) (size : Nat) (lp : LP)
  | send (due : LP) (size : Nat) (lp : LP) (tag : Nat) (payload : List Byte)
  deriving DecidableEq, Repr

/-- The next step of a stream whose time origin is known. -/
def PlaySt.next (x : PlaySt) (origin : LP) : PlayNext :=
  let fin := eget x.entry PL_END
  let cut := min fin ((x.pos / extBytes + 1) * extBytes)
  if fin ≤ x.pos then .passEnd
  else match x.buf with
    | [] => .wait
    | u :: _ =>
      if u.cls ≠ clsData then .skip cut
      else
        let hd (k n : Nat) : Nat := leNat ((u.bytes.drop k).take n)
        let len := hd 12 2
        let size := 32 + alignUp len 32
        let lp : LP := mkLp (hd 0 8) (hd 8 1)
        let due : LP := if eget x.entry PL_TIME = 0 then origin + x.acc + lp else origin + (lp - x.lp0.getD lp)
        if fin < x.pos + size then .passEnd
        else
          let us := x.buf.take (size / 32)
          if us.length < size / 32 then .wait
          else if us.any (fun v => v.cls ≠ clsData) ∨ bit (hd 14 2) 4 then .skip (x.pos + size)
          else if bitsOf (hd 10 2) 12 4 ≠ 0 then .time due size lp
          else .send due size lp (hd 29 3) (((us.map (fun v => v.bytes)).flatten.drop 32).take len)

/-- The stream past a number of bytes, its buffer and its prefetch with it. -/
def Dev.playPast (d : Dev) (h s dst : Nat) : Dev :=
  let x := d.playOf h s
  (d.setPlay h s { x with pos := dst, rdOff := if x.rdPass = x.passes then max x.rdOff dst else x.rdOff,
                          buf := x.buf.dropWhile (fun u => decide (u.off < dst) && decide (x.pos ≤ u.off)) }).playFetch h s

/-- Time goes on past a record. -/
def Dev.playCount (d : Dev) (h s : Nat) (due lp : LP) : Dev :=
  let x := d.playOf h s
  d.setPlay h s { x with acc := x.acc + lp, lp0 := some (x.lp0.getD lp), lastDue := due }

/-- The symbols of a record, framed by the delimiters of the lane's code (R240, Table 3-2), as template entries. -/
def Dev.frameRecord (d : Dev) (n : Nat) (p : List Byte) : List (List Byte) :=
  let pad (l : List Byte) (k : Nat) : List Byte := (l ++ List.replicate k 0#8).take k
  let blk66 (bs : List Byte) (sync : Byte) : List Byte := pad (pad bs 8 ++ [sync]) 16
  let chunks (l : List Byte) (k : Nat) : List (List Byte) := (List.range ((l.length + k - 1) / k)).map (fun i => (l.drop (k * i)).take k)
  match d.laneCode n with
  | 0 =>
    let rest := p.drop 7
    let full := rest.length / 8
    let tail := rest.drop (8 * full)
    let t : Byte := [0x87#8, 0x99#8, 0xAA#8, 0xB4#8, 0xCC#8, 0xD2#8, 0xE1#8, 0xFF#8].getD tail.length 0x87#8
    [blk66 (0x78#8 :: pad p 7) 2#8] ++ ((chunks (rest.take (8 * full)) 8).map (fun b => blk66 b 1#8)) ++ [blk66 (t :: tail) 2#8]
  | 1 =>
    let skp := List.replicate 12 0xAA#8 ++ [0xE1#8] ++ leBytes 3 (Config.skpTail n (d.stimOf n).slot).toNat
    (chunks p 16).map (fun b => pad (pad b 16 ++ [2#8]) 32) ++ [pad (skp ++ [1#8]) 32]
  | 2 =>
    [[byteOf (d.fld (Pg.lane n) F.LANE_FRAME_K_START) 0, 1#8]] ++ p.map (fun b => [b, 0#8])
      ++ [[byteOf (d.fld (Pg.lane n) F.LANE_FRAME_K_END) 0, 1#8]]
  | _ =>
    let pam4 := match rateRow (d.laneRate n) with | some row => row.pam4 | none => false
    (chunks p (if pam4 then 16 else 8)).map (fun b => pad b 16)

/-- PLAYBACK_RECORD_DUE (R240, R241, R243): the stream's next step is made; one told to stop, whose record is over or cut, ends. -/
def Dev.playbackRecordDue (d : Dev) (h s : Nat) : Dev :=
  let x := d.playOf h s
  let n := x.lane
  if x.stop ∧ d.playState h s = Ps.running ∧ ¬ d.playSending h s then d.playEnd h s
  else match x.origin with
  | none => d
  | some t =>
    if d.playState h s ≠ Ps.running then d
    else match x.next t with
    | .wait => d
    | .passEnd =>
      if d.playSending h s then d
      else
        let passes := x.passes + 1
        let d := d.setFld (Pg.stim h) (F.STIM_PLAY_STAT_PASSES s) (min passes 0xFFFF)
        if eget x.entry PL_REPEAT ≠ 0xFFFF ∧ eget x.entry PL_REPEAT < passes then (d.setPlay h s { x with passes := passes }).playEnd h s
        else
          (d.setPlay h s { x with passes := passes, pos := eget x.entry PL_START, acc := 0#72, lp0 := none,
                                  rdOff := if x.rdPass = x.passes then max x.rdOff (eget x.entry PL_END) else x.rdOff,
                                  buf := x.buf.dropWhile (fun u => decide (x.pos ≤ u.off)),
                                  origin := some (x.lastDue + mkLp (eget x.entry PL_GAP) 0) }).playFetch h s
    | .skip dst => (d.err (Pg.stim h) 3 0x0B04).playPast h s dst
    | .time due size lp => (d.playCount h s due lp).playPast h s (x.pos + size)
    | .send due size lp tag payload =>
      let m := d.stimOf n
      if ¬ reached due (d.selLp n) ∨ m.play.isSome ∨ m.run.isSome then d
      else
        let syms := d.frameRecord n payload
        let r : StimRun := { op := 5, syms := syms, left := syms.length, stream := some s }
        let go (d : Dev) : Dev := (d.playCount h s due lp).playPast h s (x.pos + size)
        if d.generating n then
          let late := match m.lastLp with | some p => reached due p | none => false
          let d := if late then (d.bump (Pg.stim h) F.STIM_PLAY_LATE_CNT).pend (Pg.stim h) 3 else d
          let d := d.stimCapture n payload tag
          go (d.setStim n { d.stimOf n with play := some r })
        else
          let room := roomNums (d.roomWindow n)
          if room.length < syms.length then go ((d.bump (Pg.stim h) F.STIM_NOROOM_CNT).pend (Pg.stim h) 1)
          else go ((d.stimCapture n payload tag).begin' n r true (room.take syms.length))

/-- The streams running on a lane. -/
def Dev.playsOn (d : Dev) (n : Nat) : List Nat :=
  let h := laneHalf n
  (d.plays.filter (fun (e : Nat × PlaySt) => e.1 / 64 = h && e.2.lane = n && d.playState h (e.1 % 64) = Ps.running)).map (fun e => e.1 % 64)

/-- Streams of the lane whose origin is this symbol or slot take its LP (R240). -/
def Dev.playOrigins (d : Dev) (n num : Nat) (lp : LP) : Dev :=
  let h := laneHalf n
  (d.playsOn n).foldl (fun (d : Dev) s =>
    let x := d.playOf h s
    let at' : Bool := match x.first with
      | some f => decide (f ≤ num)
      | none => isAnchor x.anchor x.base num lp
    if x.origin.isNone ∧ at' then d.setPlay h s { x with origin := some lp } else d) d

/-- The stream of the lane whose next step is due at an LP, if any. -/
def Dev.playDue (d : Dev) (n : Nat) (lp : LP) : Option Nat :=
  let h := laneHalf n
  let m := d.stimOf n
  (d.playsOn n).find? (fun s =>
    let x := d.playOf h s
    match x.origin with
    | none => false
    | some t => match x.next t with
      | .wait => false
      | .passEnd => !d.playSending h s
      | .skip _ => true
      | .time .. => true
      | .send due .. => reached due lp && m.play.isNone && m.run.isNone)

/-! The stream of a TX lane. -/

/-- What changed the stream is over once nothing of it is left; a stream told to stop then ends. -/
def Dev.runOver (d : Dev) (n : Nat) (r : StimRun) : Dev :=
  match r.stream with
  | some s => if (d.playOf (laneHalf n) s).stop then d.playEnd (laneHalf n) s else d
  | none => d

/-- A received symbol that nothing changes (R58), but for the idle set that restores the running disparity (Table 11-5). -/
def Dev.sendReceived (d : Dev) (n : Nat) (e : TxEnt) : Dev :=
  let x := d.stimOf n
  match x.k28 with
  | some (k, ck) =>
    let d := d.setStim n { x with k28 := none }
    if e.room = 3 then
      let d := d.txSend n ck (.chr (encode810 x.txRd 0xBC true))
      let y := d.stimOf n
      -- D5.6 keeps the running disparity, D16.2 changes it
      let v := if rdAfter y.rd (encode810 y.txRd 0xC5 false) = e.rd then 0xC5 else 0x50
      (d.txSend n e.sel (.chr (encode810 y.txRd v false))).bump (Pg.stim (laneHalf n)) F.STIM_RD_FIX_CNT
    else (d.txSend n ck k).txSend n e.sel e.sym
  | none =>
    if e.room = 2 ∧ x.rd.isSome ∧ x.selRd.isSome ∧ x.rd ≠ x.selRd then d.setStim n { x with k28 := some (e.sym, e.sel) }
    else d.txSend n e.sel e.sym

/-- A held K28.5 goes as received before a changed symbol. -/
def Dev.flushK28 (d : Dev) (n : Nat) : Dev :=
  match (d.stimOf n).k28 with
  | some (k, ck) => (d.setStim n { d.stimOf n with k28 := none }).txSend n ck k
  | none => d

/-- One item of the hold line is sent. -/
def Dev.sendItem (d : Dev) (n ck : Nat) (i : TxItem) : Dev :=
  match i with
  | .entry e => d.txSend n ck (d.entrySym n (d.stimOf n).lfsr e)
  | .recv sym => d.txSend n ck sym

/-- A received symbol passes injection select under an active action. -/
def Dev.sendChanged (d : Dev) (n : Nat) (r : StimRun) (e : TxEnt) : Dev :=
  let d := d.flushK28 n
  if r.op = 1 ∨ r.op = 5 then
    let x := d.stimOf n
    let fifo := if r.del.contains e.num then x.fifo else x.fifo ++ [.recv e.sym]
    let del := r.del.filter (fun k => decide (e.num < k))
    let d := d.setStim n { x with fifo := fifo.drop 1, run := if del = [] then none else some { r with del := del } }
    let d := match fifo with
      | i :: _ => d.sendItem n e.sel i
      | [] => d
    if del = [] then d.runOver n r else d
  else
    let d := match r.op with
      | 0 => d.txSend n e.sel (d.entrySym n e.lfsr (r.syms.headD []))
      | 2 => d.txIdle n e.sel e.lfsr
      | 3 => d.txPut n e.sel e.sym (flipSym e.sym (r.syms.headD []))
      | _ => d.txQuiet n e.sel
    d.setStim n { d.stimOf n with run := if r.left ≤ 1 then none else some { r with left := r.left - 1, syms := r.syms.drop 1 },
                                  idleD := if r.left ≤ 1 then false else (d.stimOf n).idleD }

/-- Pending actions whose anchor is this symbol (R232: D is 0). -/
def Dev.anchorActs (d : Dev) (n num : Nat) (lp : LP) : Dev :=
  let x := d.stimOf n
  d.setStim n { x with pend := x.pend.map (fun a =>
    if a.first.isNone ∧ isAnchor a.anchor a.base num lp then { a with first := some (num + a.delay) } else a) }

/-- Do actions of this CK still come? -/
def Dev.actionsCome (d : Dev) : Bool := d.flying.any (fun f => decide (f.due ≤ d.ck)) || d.stimIn ≠ []

/-- PASS_THROUGH_SYMBOL (R58, R227, R235, R240): the head of the lane's hold line is at injection select; what begins at it begins
first; then it is sent, changed or not. -/
def Dev.passThroughSymbol (d : Dev) (n : Fin 64) : Dev :=
  match (d.laneOf n).txq with
  | [] => d
  | e :: rest =>
    if d.ck < e.sel then d
    else if d.actionsCome then d.sched 0 (.passThroughSymbol n)
    else
      let d := (d.anchorActs n e.num e.lp).playOrigins n e.num e.lp
      match (d.dueActs n).1, d.playDue n e.lp with
      | a :: _, _ => (d.sched 0 (applyCmd n a.op)).sched 0 (.passThroughSymbol n)
      | [], some s => (d.sched 0 (.playbackRecordDue (halfOf (laneHalf n)) (streamFin s))).sched 0 (.passThroughSymbol n)
      | [], none =>
        let d := d.setLane n { d.laneOf n with txq := rest }
        let d := match (d.stimOf n).run with
          | some r => d.sendChanged n r e
          | none => d.sendReceived n e
        let x := d.stimOf n
        d.setStim n { x with selRd := e.rd, hist := (e.num, e.lp, e.samp, e.pin) :: x.hist }

/-- A generated slot is sent (R227, R240): a playback record's symbol or idle, under what an active action makes of it. -/
def Dev.sendSlot (d : Dev) (n ck : Nat) (lp : LP) : Dev :=
  let x := d.stimOf n
  let rest (r : StimRun) : Option StimRun := if r.left ≤ 1 then none else some { r with left := r.left - 1, syms := r.syms.drop 1 }
  let own : Option (List Byte) := match x.play with | some r => r.syms.head? | none => none
  let idle := idleEntry (d.laneCode n) x.idleD
  let base := own.getD idle
  let sym (d : Dev) (e : List Byte) : LineSym := d.entrySym n x.lfsr e
  -- does this slot carry idle, whose next character is then the other one of its set?
  let idles : Bool := match x.run with | some r => r.op = 2 || (r.op = 3 && own.isNone) | none => own.isNone
  let d := match x.run with
    | none => d.txSend n ck (sym d base)
    | some r => match r.op with
      | 2 => d.txSend n ck (sym d idle)
      | 3 => d.txPut n ck (sym d base) (flipSym (sym d base) (r.syms.headD []))
      | 4 => d.txQuiet n ck
      | _ => d.txSend n ck (sym d (r.syms.headD []))
  let d := d.setStim n { d.stimOf n with play := x.play.bind rest, run := x.run.bind rest, idleD := idles && d.laneCode n = 2 && !x.idleD,
                                         slot := x.slot + 1, lastLp := some lp }
  match x.play with
  | some r => if r.left ≤ 1 then d.runOver n r else d
  | none => d

/-- The slots of a lane that pass injection select in this CK; true where an action or a record begins first. A lane that shows the loss
output sends the code's idle in them (R60). -/
def Dev.laneSlots (n : Fin 64) : Nat → Dev → Dev × Bool
  | 0, d => (d, false)
  | fuel + 1, d =>
    let x := d.stimOf n
    if d.ck < d.slotCk n x.slot then (d, false)
    else if ¬ d.generating n then
      let d := d.txIdle n d.ck x.lfsr
      Dev.laneSlots n fuel (d.setStim n { d.stimOf n with slot := x.slot + 1 })
    else
      let lp := d.pubLp (laneHalf n)
      let d := d.playOrigins n x.slot lp
      match (d.dueActs n).1, d.playDue n lp with
      | a :: _, _ => (d.sched 0 (applyCmd n a.op), true)
      | [], some s => (d.sched 0 (.playbackRecordDue (halfOf (laneHalf n)) (streamFin s)), true)
      | [], none => Dev.laneSlots n fuel (d.sendSlot n d.ck lp)

/-! The commands. -/

/-- PLAY_WRITE (R242). -/
def execPlayWrite (h : Half) (s : State) : Host.Outcome State Fault Refusal :=
  s.cmd (fun d => d.swGate (raddr (Pg.stim h.val) 0x144) 1#32 (fun d => d.playWrite h.val))

/-- PLAY_READ (R242). -/
def execPlayRead (h : Half) (s : State) : Host.Outcome State Fault Refusal :=
  s.cmd (fun d => d.swGate (raddr (Pg.stim h.val) 0x144) 2#32 (fun d => d.playRead h.val))

/-- PLAY_ARM (R242). -/
def execPlayArm (h : Half) (s : State) : Host.Outcome State Fault Refusal :=
  s.cmd (fun d => d.swGate (raddr (Pg.stim h.val) 0x144) 3#32 (fun d => d.playArm h.val))

/-- PLAY_ARMED (R242). -/
def execPlayArmed (h : Half) (stream : Fin 64) (s : State) : Host.Outcome State Fault Refusal :=
  s.run (.playArmed h stream) (fun d => d.playArmed h.val stream.val)

/-- PLAY_START (R242). -/
def execPlayStart (h : Half) (s : State) : Host.Outcome State Fault Refusal :=
  s.cmd (fun d => d.swGate (raddr (Pg.stim h.val) 0x144) 5#32 (fun d => d.playStart h.val))

/-- PLAY_STOP (R242). -/
def execPlayStop (h : Half) (s : State) : Host.Outcome State Fault Refusal :=
  s.cmd (fun d => d.swGate (raddr (Pg.stim h.val) 0x144) 4#32 (fun d => d.playStop h.val))

/-- PLAY_ACTION (R242). -/
def execPlayAction (h : Half) (s : State) : Host.Outcome State Fault Refusal :=
  s.run (.playAction h) (fun d => d.playAction h.val)

/-- PLAYBACK_READ_DATA (R239). -/
def execPlaybackReadData (h : Half) (stream : Fin 64) (s : State) : Host.Outcome State Fault Refusal :=
  s.run (.playbackReadData h stream) (fun d => d.playbackReadData h.val stream.val)

/-- PLAYBACK_RECORD_DUE (R240). -/
def execPlaybackRecordDue (h : Half) (stream : Fin 64) (s : State) : Host.Outcome State Fault Refusal :=
  s.run (.playbackRecordDue h stream) (fun d => d.playbackRecordDue h.val stream.val)

/-- PASS_THROUGH_SYMBOL (R58). -/
def execPassThroughSymbol (n : Fin 64) (s : State) : Host.Outcome State Fault Refusal :=
  s.run (.passThroughSymbol n) (fun d => d.passThroughSymbol n)

end Sys2Proof.Machine
end

