-- ==== Sys2Proof/Machine/Sieve.lean ====
section
/-! DEFINITION. The sieves: match events, outcomes, the rule table's commands (R90 to R100, R113, R114). -/

namespace Sys2Proof.Machine

/-! Events at the sequencers (R101 to R103). -/

/-- An event is present at a half's sequencers in the CK at hand; those that no DELAY can reach any more go. -/
def Dev.trigEvent (d : Dev) (h src : Nat) (lp : LP) (sym : Option (Nat × Nat) := none) : Dev :=
  let old : List TrigEv := (sget [] d.trigEvs h).filter (fun e => decide (d.ck ≤ e.ck + 16))
  { d with trigEvs := sset [] d.trigEvs h (old ++ [⟨d.ck, src, lp, sym⟩]) }

/-- What the trigger class carries out of a half in this CK, with an addition; it arrives 4 CK later (R103). -/
def Dev.toBridge (d : Dev) (h : Nat) (f : BridgeOut → BridgeOut) : Dev :=
  let l := sget [] d.bridgeOut h
  match l.find? (fun b => decide (b.ck = d.ck)) with
  | some b => { d with bridgeOut := sset [] d.bridgeOut h (l.map (fun x => if x = b then f b else x)) }
  | none => ({ d with bridgeOut := sset [] d.bridgeOut h (l ++ [f { ck := d.ck }]) }).sched 4 (.trigBridgeWord (halfOf h))

/-- A sieve raises an event line: source 0x01 + 8 × (q mod 8) + e at once in its own half; lines 0 to 3 cross, with the
published LP (R94, R102, R103). -/
def Dev.raiseLine (d : Dev) (q e : Nat) (lp : LP) (sym : Option (Nat × Nat)) : Dev :=
  let h := q / 8
  let d := d.trigEvent h (0x01 + 8 * (q % 8) + e) lp sym
  if e ≤ 3 then
    let l := 4 * (q % 8) + e
    d.toBridge h (fun b => if b.lines.contains l then b else { b with lines := b.lines ++ [l], lps := b.lps ++ [d.pubLp h], syms := b.syms ++ [sym] })
  else d

/-- SIEVE_MATCH_EVENT (R94): the events of the lane's oldest decided rules are raised. -/
def Dev.sieveMatchEvent (d : Dev) (n : Fin 64) : Dev :=
  match (d.laneOf n).evq with
  | [] => d
  | (lines, lp, num) :: rest =>
    let d := d.setLane n { d.laneOf n with evq := rest }
    lines.foldl (fun d e => d.raiseLine (n.val / 4) e lp (some (n.val, num))) d

/-! Outcomes (R95 to R97, R113). -/

/-- The outcome that a record's matched rules give; where none matched SIEVEq_DEFAULT (R95), as it stands in the CK of the outcome (DESIGN
CHOICE, log entry 46: R93 fixes the rule table and EN at the first symbol, no rule says when DEFAULT is taken). -/
def Dev.outcomeOf (d : Dev) (r : Rec) : Outcome :=
  let q := r.lane / 4
  match r.rules.find? (fun e => r.matched.contains e.1) with
  | some (_, b) =>
    let add := match eget b RL_FLOW_ADD with | 1 => r.lane % 4 | 2 => r.lane | _ => 0
    let hits := r.rules.filter (fun (e : Nat × BitVec 512) => r.matched.contains e.1 && eget e.2 RL_VEC_EN = 1)
    { act := match eget b RL_ACTION with | 1 => .drop | 2 => .slice | _ => .keep
      flow := (eget b RL_FLOW + add) % 4096
      slice := eget b RL_SLICE_LEN
      tag := eget b RL_TAG
      vec := hits.foldl (fun v (e : Nat × BitVec 512) => v ||| 2 ^ eget e.2 RL_VEC_BIT) 0
      shed := eget b RL_SHED }
  | none =>
    { act := match d.fld (Pg.sieve q) F.SIEVE_DEFAULT_ACTION with | 1 => .drop | 2 => .slice | _ => .keep
      flow := 0, slice := d.fld (Pg.sieve q) F.SIEVE_DEFAULT_SLICE_LEN, tag := 0, vec := 0, shed := 0 }

/-- The first record of a flow after a relock carries flag bit 6 (R57). -/
def Dev.relockFlag (d : Dev) (n flow : Nat) : Dev × Nat :=
  match (d.laneOf n).relockFlows with
  | some fs => if fs.contains flow then (d, 0) else (d.setLane n { d.laneOf n with relockFlows := some (flow :: fs) }, 64)
  | none => (d, 0)

/-- Count a first part's outcome, once per record (R113). -/
def Dev.countOutcome (d : Dev) (r : Rec) (o : Outcome) (shed : Bool) : Dev :=
  let pg := Pg.sieve (r.lane / 4)
  let d := r.matched.foldl (fun d i => d.bump pg (F.SIEVE_HIT i)) d
  let d := if r.matched = [] then d.bump pg F.SIEVE_NOMATCH_CNT else d
  if shed then d
  else match o.act with
    | .keep => d.bump pg F.SIEVE_KEEP_CNT
    | .drop => d.bump pg F.SIEVE_DROP_CNT
    | .slice => d.bump pg F.SIEVE_SLICE_CNT

/-- SIEVE_OUTCOME (R95 to R97): the outcome of the lane's oldest record that awaits one; a record that is kept, sliced or shed
reaches its allocation point 4 CK later. -/
def Dev.sieveOutcome (d : Dev) (n : Fin 64) : Dev :=
  match (d.laneOf n).outq with
  | [] => d
  | rid :: rest =>
    let d := d.setLane n { d.laneOf n with outq := rest }
    let r := d.recOf rid
    let h := laneHalf n
    let o := match r.outc with | some o => o | none => d.outcomeOf r
    -- a part that its slice does not reach is not kept, so nothing of it is shed (R96, R97, R129)
    let gone := decide (o.act = .drop) || (decide (o.act = .slice) && r.typ = 4 && decide (o.slice ≤ r.base))
    let shed := !gone && decide (o.shed ≠ 0) && decide (o.shed ≤ d.cqLevel h) && isCapturing (d.modeOf h)
    let d := if r.typ = 0 then d.countOutcome r o shed else d
    let d := if shed then (d.bump (Pg.sieve (n / 4)) F.SIEVE_SHED_CNT).pend (Pg.sieve (n / 4)) 0 else d
    let p : Dev × Nat := if o.act = .drop then (d, 0) else d.relockFlag n o.flow
    let d := p.1
    let fl := p.2
    let d := if r.typ = 0 then d.present (.sieve (n / 4)) (.record (r.payload.take 64) n (BitVec.ofNat 32 o.vec)) else d
    let d := d.setRec rid { r with outc := some o, shed := shed, flow := o.flow, tag := o.tag, vec := o.vec, flags := r.flags ||| fl }
    -- parts that have begun share the outcome
    let d := { d with recs := d.recs.map (fun (e : Nat × Rec) => if e.2.first = some rid then (e.1, { e.2 with outc := some o }) else e) }
    if gone then
      d.setRec rid { d.recOf rid with outc := some { o with act := .drop } }
    else d.toAlloc h 4 n rid

/-! The rule table (R90, R114). -/

/-- The rule at an index of a sieve. -/
def Dev.rule (d : Dev) (q i : Nat) : BitVec 512 := sget 0#512 d.rules (q * 64 + i)
def Dev.setRule (d : Dev) (q i : Nat) (r : BitVec 512) : Dev := { d with rules := sset 0#512 d.rules (q * 64 + i) r }

/-- The rule with its reserved bits 0 (R7). -/
def ruleClean (r : BitVec 512) : BitVec 512 :=
  [(⟨40, 6, 2⟩ : Fld), ⟨41, 6, 2⟩, ⟨43, 5, 3⟩, ⟨44, 7, 1⟩, ⟨45, 6, 2⟩, ⟨46, 12, 4⟩, ⟨50, 6, 2⟩, ⟨51, 4, 4⟩, ⟨52, 24, 8⟩,
   ⟨56, 0, 56⟩, ⟨63, 1, 7⟩].foldl (fun r f => eput r f 0) r

/-- The refusals of R114 a rule meets. -/
def ruleErrors (q : Nat) (r : BitVec 512) : List (Nat × Nat) :=
  let w := rangeBytes (eget r RL_R_WIDTH)
  let fa := eget r RL_FLOW_ADD
  let top := match fa with | 1 => 3 | 2 => 4 * q + 3 | _ => 0
  (if eget r RL_A_OFF > 56 ∨ eget r RL_B_OFF > 56 ∨ eget r RL_R_OFF + w > 64 then [(0, 0x0501)] else [])
    ++ (if eget r RL_R_LO > eget r RL_R_HI ∨ eget r RL_MINLEN > 64 then [(1, 0x0502)] else [])
    ++ (if eget r RL_ACTION = 3 ∨ (eget r RL_ACTION = 2 ∧ eget r RL_SLICE_LEN = 0) then [(2, 0x0503)] else [])
    ++ (if fa = 3 ∨ eget r RL_FLOW + top > 4095 then [(3, 0x0504)] else [])

/-- SIEVE_CMD WRITE (R114). -/
def Dev.sieveWrite (d : Dev) (q : Nat) : Dev :=
  let pg := Pg.sieve q
  let r := d.window 512 pg 0x104 16
  match ruleErrors q r with
  | [] => (d.setRule q (d.fld pg F.SIEVE_IDX_IDX) (ruleClean r)).setFld pg F.SIEVE_CMD_STATUS 0
  | es => (d.errs pg es).setFld pg F.SIEVE_CMD_STATUS 2

/-- SIEVE_CMD READ (Table 5-6). -/
def Dev.sieveRead (d : Dev) (q : Nat) : Dev :=
  let pg := Pg.sieve q
  (d.setWindow pg 0x104 16 (d.rule q (d.fld pg F.SIEVE_IDX_IDX))).setFld pg F.SIEVE_CMD_STATUS 0

/-- SIEVE_CMD INVALIDATE (Table 5-6). -/
def Dev.sieveInvalidate (d : Dev) (q : Nat) : Dev :=
  let pg := Pg.sieve q
  let i := d.fld pg F.SIEVE_IDX_IDX
  (d.setRule q i (eput (d.rule q i) RL_VALID 0)).setFld pg F.SIEVE_CMD_STATUS 0

/-- A write to SIEVEq_DEFAULT (R114): refused with STATUS 0b10. One that is accepted leaves STATUS as it was (DESIGN CHOICE, log entry 46:
R114 gives the STATUS of a refused write only). -/
def Dev.sieveDefaultWrite (d : Dev) (q : Nat) (val : Word) : Dev :=
  let pg := Pg.sieve q
  let act := bitsOf val.toNat 0 2
  let bad := act = 3 || (act = 2 && bitsOf val.toNat 16 16 = 0)
  let d := if bitsOf val.toNat 2 14 ≠ 0 then d.regErr pg 1 else d
  if bad then (d.err pg 2 0x0503).setFld pg F.SIEVE_CMD_STATUS 2
  else d.setReg pg 0x148 (BitVec.ofNat 32 (act + 2 ^ 16 * bitsOf val.toNat 16 16))

/-! The commands. -/

/-- SIEVE_MATCH_EVENT (R94). -/
def execSieveMatchEvent (n : Fin 64) (s : State) : Host.Outcome State Fault Refusal :=
  s.run (.sieveMatchEvent n) (fun d => d.sieveMatchEvent n)

/-- SIEVE_OUTCOME (R95). -/
def execSieveOutcome (n : Fin 64) (s : State) : Host.Outcome State Fault Refusal :=
  s.run (.sieveOutcome n) (fun d => d.sieveOutcome n)

/-- SIEVE_WRITE (R114). -/
def execSieveWrite (q : Fin 16) (s : State) : Host.Outcome State Fault Refusal :=
  s.cmd (fun d => d.swGate (raddr (Pg.sieve q.val) 0x144) 1#32 (fun d => d.sieveWrite q.val))

/-- SIEVE_READ (R90). -/
def execSieveRead (q : Fin 16) (s : State) : Host.Outcome State Fault Refusal :=
  s.cmd (fun d => d.swGate (raddr (Pg.sieve q.val) 0x144) 2#32 (fun d => d.sieveRead q.val))

/-- SIEVE_INVALIDATE (R90). -/
def execSieveInvalidate (q : Fin 16) (s : State) : Host.Outcome State Fault Refusal :=
  s.cmd (fun d => d.swGate (raddr (Pg.sieve q.val) 0x144) 3#32 (fun d => d.sieveInvalidate q.val))

end Sys2Proof.Machine
end

