-- ==== Sys2Proof/Machine/Fabric.lean ====
section
/-! DEFINITION. Hard blocks of the fabric: Sills, block memories, ports, ring oscillators, the flash block, serial ports, boundary scan
(R304 to R307, R312 to R321). -/

namespace Sys2Proof.Machine

/-- Change the fabric's part of the state. -/
def Dev.onFab (d : Dev) (f : FabSt → FabSt) : Dev := { d with fab := f d.fab }

/-- Does a command of a bay's user logic reach the hard block behind a port (R311)? Not before the first words launched since the
startup release and since the bay's own can have come. -/
def Dev.portUp (d : Dev) (b : Nat) (p : Port) : Bool :=
  d.bayLive b && d.slotIn p (max (d.startCk.getD 0) ((d.bayOf b).freeCk.getD 0))

/-! Sills and block memories. -/

/-- SILL_CONTENTION (R304): counted once for the CK, however many Sills are in it; where FIRST held none before the CK, it latches the
lowest-numbered of them. -/
def Dev.sillContention (d : Dev) (b sill winner : Nat) : Dev :=
  let pg := Pg.bay b
  let x := d.bayOf b
  let again := x.sillCk = some d.ck
  let d := if again then d else (d.err pg 1 0x0F01).pend pg 3
  let own := ¬ d.flag pg F.BAY_SILL_FIRST_VALID ∨ (again ∧ x.sillOwn ∧ sill < d.fld pg F.BAY_SILL_FIRST_SILL)
  let d := d.setBay b { x with sillCk := some d.ck, sillOwn := decide own || (decide again && x.sillOwn) }
  if own then ((d.setFld pg F.BAY_SILL_FIRST_SILL sill).setFld pg F.BAY_SILL_FIRST_WINNER winner).setFld pg F.BAY_SILL_FIRST_VALID 1 else d

/-- Write bits of a BM36: `wd` bits from bit `lo` of its 36,864. -/
def Dev.bmPut (d : Dev) (b m lo wd v : Nat) : Dev :=
  let base := 18 * (1440 * b + m)
  (List.range wd).foldl (fun (d : Dev) k =>
    let i := lo + k
    let a := base + i / 2048 % 18
    let f := sget 0#2048 d.fab.bm36 a
    let f := BitVec.ofNat 2048 (bitsPut f.toNat (i % 2048) 1 (v / 2 ^ k))
    d.onFab (fun x => { x with bm36 := sset 0#2048 x.bm36 a f })) d

/-- BM36_DOUBLE_WRITE (R306): port A's data is stored. -/
def Dev.bm36DoubleWrite (d : Dev) (b m lo wd : Nat) (data : BitVec 72) : Dev :=
  ((d.bmPut b m lo wd data.toNat).err (Pg.bay b) 4 0x0F04).pend (Pg.bay b) 6

/-- BM36_ECC_READ (R307): a word reads corrected and is written back, or uncorrectable with ERR set. -/
def Dev.bm36EccRead (d : Dev) (b : Nat) (unc : Bool) : Dev :=
  if unc then ((d.err (Pg.bay b) 2 0x0F02).pend (Pg.bay b) 4).emit (.port 0x0F02 b)
  else d.bump (Pg.bay b) F.BAY_BM_CORR_CNT

/-- QUEUE_PORT_RECORD (R313): allocated in this CK, after records of lanes and before trigger marks. -/
def Dev.queuePortRecord (d : Dev) (b lane typ : Nat) (lp : LP) (flow tag : Nat) (payload : List Byte) : Dev :=
  let h := b / 6
  if laneHalf lane ≠ h ∨ typ ≠ 0 then d.err (Pg.bay b) 5 0x0F05
  else
    let rid := d.nextRid
    (d.addRec { half := h, lane := lane, typ := 0, flags := 0, lp := lp, flow := flow, tag := tag, payload := payload.take 65504,
                ended := true, reached := (payload.take 65504).length, complete := true, outSeen := true,
                outc := some ⟨.keep, flow, 0, tag, 0, 0⟩ }).toAlloc h 0 (200 + lane) rid

/-- USER_EVENT_LINE (R100, R102, R312): an event of the half with the published LP; a line is raised once in a CK. -/
def Dev.userEventLine (d : Dev) (h line : Nat) : Dev :=
  if (sget [] d.trigEvs h).any (fun e => e.ck = d.ck && e.src = 0x69 + line) then d
  else d.trigEvent h (0x69 + line) (d.pubLp h)

/-! Ring oscillators (R315). -/

/-- The fewest and the most edges of an oscillator in 65,536 CK: 25 MHz × (FSEL + 1), ±15%. -/
def roLow (fsel : Nat) : Nat := 25 * (fsel + 1) * 65536 * 85 / 100000
def roHigh (fsel : Nat) : Nat := 25 * (fsel + 1) * 65536 * 115 / 100000

/-- RO_START: a write to DEV_ROi; START clears DONE and begins a count. -/
def Dev.roStart (d : Dev) (i : Fin 16) (val : Word) : Dev :=
  let d := d.plainWrite Pg.dev 0 (rowOf .dev (0x400 + 4 * i.val)) (0x400 + 4 * i.val) val 0
  if ¬ bit val.toNat 31 then d
  else ({ d.setFld Pg.dev (F.DEV_RO_DONE i.val) 0 with agenda := agendaDrop (.roCountDone i) d.agenda }).sched 65536 (.roCountDone i)

/-- RO_COUNT_DONE. -/
def Dev.roCountDone (d : Dev) (i : Nat) : Dev :=
  let f := d.fld Pg.dev (F.DEV_RO_FSEL i)
  let n := if d.flag Pg.dev (F.DEV_RO_EN i) then roLow f + Config.roCount i d.ck % (roHigh f - roLow f + 1) else 0
  ((d.setFld Pg.dev (F.DEV_RO_COUNT i) n).setFld Pg.dev (F.DEV_RO_DONE i) 1).pend Pg.dev 17

/-! The flash block (R316, R317). -/

/-- Refuse a flash command. -/
def Dev.flashRefuse (d : Dev) : Dev := (d.err Pg.dev 3 0x0F11).setFld Pg.dev F.DEV_FLASH_CMD_STATUS 2

/-- Is the 2 MiB block of an address write-protected? -/
def Dev.flashWp (d : Dev) (a : Nat) : Bool := bit (d.fld Pg.dev F.DEV_FLASH_WP_WP) (a / 2 ^ 21)

/-- FLASH_PROGRAM: within 600 µs. -/
def Dev.flashProgram (d : Dev) : Dev :=
  let a := d.fld Pg.dev F.DEV_FLASH_ADDR_ADDR
  if a % 256 ≠ 0 ∨ d.flashWp a ∨ d.fab.flash.isSome ∨ d.fab.pages.contains (a / 256) then d.flashRefuse
  else
    let buf := ((List.range 64).map (fun j => leBytes 4 (d.fld Pg.dev (F.DEV_FLASH_BUF j)))).flatten
    (((d.onFab (fun x => { x with flash := some (false, a, buf) })).setFld Pg.dev F.DEV_FLASH_CMD_STATUS 1)).sched 600000 (.flashCmdDone true)

/-- FLASH_ERASE: within 150 ms. -/
def Dev.flashErase (d : Dev) : Dev :=
  let a := d.fld Pg.dev F.DEV_FLASH_ADDR_ADDR
  if a % 65536 ≠ 0 ∨ d.flashWp a ∨ d.fab.flash.isSome then d.flashRefuse
  else
    let d : Dev := d.onFab (fun x => { x with flash := some (true, a, []) })
    (d.setFld Pg.dev F.DEV_FLASH_CMD_STATUS 1).sched 150000000 (.flashCmdDone true)

/-- FLASH_CMD_DONE: the page is ANDed with the buffer, or the sector reads 0xFF; a command that fails its verify counts. -/
def Dev.flashCmdDone (d : Dev) (ok : Bool) : Dev :=
  match d.fab.flash with
  | none => d
  | some (erase, a, buf) =>
    let base := Na.flash + a
    let pgs : List Nat := if erase then d.fab.pages.filter (fun p => decide (p / 256 ≠ a / 65536)) else a / 256 :: d.fab.pages
    let d := d.onFab (fun x => { x with flash := none, pages := pgs })
    let d : Dev :=
      match ok, erase with
      | false, _ => d
      | true, true => { d with mem := d.mem.filter (fun e => !(decide (base ≤ e.1) && decide (e.1 < base + 65536))) }
      | true, false => d.setBytes base (((d.bytes base 256).zip buf).map (fun p => p.1 &&& p.2))
    let d := if ok then d.setFld Pg.dev F.DEV_FLASH_CMD_STATUS 0 else (d.err Pg.dev 3 0x0F11).setFld Pg.dev F.DEV_FLASH_CMD_STATUS 3
    d.pend Pg.dev 16

/-! Serial ports (R318, R321). -/

def Dev.serOf (d : Dev) (p : Nat) : SerSt := sget {} d.fab.sers p
def Dev.setSer (d : Dev) (p : Nat) (x : SerSt) : Dev := d.onFab (fun f => { f with sers := sset {} f.sers p x })

/-- CK that an entry takes on the wire: UART frame, SPI byte, I²C byte or STOP. -/
def Dev.serCk (d : Dev) (p e : Nat) : Nat :=
  let dv := d.fld Pg.dev (F.DEV_SP_CTRL_DIV p)
  let md := d.fld Pg.dev (F.DEV_SP_CTRL_MODE p)
  if p < 4 then (9 + (if md = 0 then 0 else 1) + (if bit (d.fld Pg.dev (F.DEV_SP_CTRL_SEL p)) 0 then 2 else 1)) * 16 * dv
  else if p < 6 then 16 * dv
  else
    let t := match md with | 0 => 10000 | 1 => 2500 | _ => 1000
    if bitsOf e 8 2 = 3 then t else 9 * t + (if bit e 10 then t else 0)

/-- A port's number as an operand. -/
def serFin (p : Nat) : Fin 7 := ⟨p % 7, Nat.mod_lt _ (by decide)⟩

/-- An enabled port with nothing in transfer sends its oldest entry. -/
def Dev.serKick (d : Dev) (p : Nat) : Dev :=
  let x := d.serOf p
  match x.tx, x.busy with
  | e :: rest, none =>
    if d.flag Pg.dev (F.DEV_SP_CTRL_EN p) then
      (d.setSer p { x with tx := rest, busy := some e }).sched (d.serCk p e) (.serialByteSent (serFin p) false false)
    else d
  | _, _ => d

/-- A dropped byte, or a register write to a port the fabric owns. -/
def Dev.serDrop (d : Dev) : Dev := d.err Pg.dev 5 0x0F13

/-- A write to a port's TX: NACK and ARB clear, the entry waits. -/
def Dev.serTx (d : Dev) (p e : Nat) : Dev :=
  if d.flag Pg.dev (F.DEV_SP_CTRL_OWNER p) then d.serDrop
  else
    let d := (d.setFld Pg.dev (F.DEV_SP_STAT_NACK p) 0).setFld Pg.dev (F.DEV_SP_STAT_ARB p) 0
    let x := d.serOf p
    if 64 ≤ x.tx.length then d.serDrop else (d.setSer p { x with tx := x.tx ++ [e] }).serKick p

/-- SERIAL_TX_WRITE, on a UART or SPI port: CMD and START have no value but 0 there. -/
def Dev.serialTxWrite (d : Dev) (p : Nat) (val : Word) : Dev :=
  let v := val.toNat
  let d := if v / 2 ^ 11 ≠ 0 then d.regErr Pg.dev 1 else if bitsOf v 8 3 ≠ 0 then d.regErr Pg.dev 4 else d
  d.serTx p (v % 256)

/-- I2C_WRITE, I2C_READ_ACK, I2C_READ_NACK, I2C_STOP on I2C0. -/
def i2cEntry (cmd : Nat) (start : Bool) (v : Byte) : Nat := v.toNat + 256 * cmd + 1024 * b01 start
def Dev.i2cWrite (d : Dev) (start : Bool) (v : Byte) : Dev := d.serTx 6 (i2cEntry 0 start v)
def Dev.i2cReadAck (d : Dev) (start : Bool) (v : Byte) : Dev := d.serTx 6 (i2cEntry 1 start v)
def Dev.i2cReadNack (d : Dev) (start : Bool) (v : Byte) : Dev := d.serTx 6 (i2cEntry 2 start v)
def Dev.i2cStop (d : Dev) (start : Bool) (v : Byte) : Dev := d.serTx 6 (i2cEntry 3 start v)

/-- SERIAL_BYTE_SENT: what a slave answers on I2C0 shows in NACK; a lost arbitration ends the transfer. -/
def Dev.serialByteSent (d : Dev) (p : Nat) (nack arb : Bool) : Dev :=
  let x := d.serOf p
  match x.busy with
  | none => d
  | some e =>
    let d := d.setSer p { x with busy := none, tx := if p = 6 ∧ arb then [] else x.tx }
    let d := if p = 6 ∧ nack then d.setFld Pg.dev (F.DEV_SP_STAT_NACK p) 1 else d
    let d := if p = 6 ∧ arb then d.setFld Pg.dev (F.DEV_SP_STAT_ARB p) 1 else d
    let d := if p ≠ 6 ∨ bitsOf e 8 2 = 0 then d.emit (.serial p (byteOf e 0)) else d
    d.serKick p

/-- SERIAL_BYTE_RECEIVED: a byte at a port; `bad`: a framing or parity error. -/
def Dev.serialByteReceived (d : Dev) (p : Nat) (v : Byte) (bad : Bool) : Dev :=
  if d.flag Pg.dev (F.DEV_SP_CTRL_OWNER p) then d.present (.serial p) (.data v.toNat)
  else if ¬ d.flag Pg.dev (F.DEV_SP_CTRL_EN p) then d
  else
    let x := d.serOf p
    if (bad ∧ p < 4) ∨ 64 ≤ x.rx.length then d.serDrop
    else
      let d := d.setSer p { x with rx := x.rx ++ [v] }
      if x.rx = [] then d.pend Pg.dev (18 + p) else d

/-- SERIAL_RX_REMOVE. -/
def Dev.serialRxRemove (d : Dev) (p : Nat) : Dev :=
  if d.flag Pg.dev (F.DEV_SP_CTRL_OWNER p) then d.serDrop
  else d.setSer p { d.serOf p with rx := (d.serOf p).rx.drop 1 }

/-! Boundary scan (R319). -/

/-- An instruction is taken into the TAP. -/
def Dev.tapIr (d : Dev) (i : Nat) : Dev := d.onFab (fun x => { x with tap := i })

/-- IDCODE: the identification register is selected. -/
def Dev.idcode (d : Dev) : Dev := (d.tapIr 0x01).emit (.port 0x100 0x1C19224B)
/-- SAMPLE_PRELOAD: the boundary register takes what is shifted in. -/
def Dev.samplePreload (d : Dev) (bits : List Bool) : Dev := (d.tapIr 0x02).onFab (fun x => { x with bsr := bits })
def Dev.extest (d : Dev) : Dev := d.tapIr 0x03
def Dev.clamp (d : Dev) : Dev := d.tapIr 0x04
def Dev.highz (d : Dev) : Dev := d.tapIr 0x05
def Dev.bypass (d : Dev) : Dev := d.tapIr 0xFF
/-- TRST_N: Test-Logic-Reset, which selects IDCODE (R319, R328). -/
def Dev.trstN (d : Dev) : Dev := d.tapIr 0x01

/-! The commands. -/

/-- SILL_CONTENTION (R304). -/
def execSillContention (b : Fin 12) (sill : Fin 7904) (winner : Fin 960) (s : State) : Host.Outcome State Fault Refusal :=
  s.cmd (fun d => if d.bayLive b.val then d.sillContention b.val sill.val winner.val else d)

/-- BM36_DOUBLE_WRITE (R306). -/
def execBm36DoubleWrite (b : Fin 12) (m : Fin 1440) (lo : Fin 36864) (wd : Fin 73) (data : BitVec 72) (s : State) : Host.Outcome State Fault Refusal :=
  s.cmd (fun d => if d.bayLive b.val then d.bm36DoubleWrite b.val m.val lo.val wd.val data else d)

/-- BM36_ECC_READ (R307). -/
def execBm36EccRead (b : Fin 12) (unc : Bool) (s : State) : Host.Outcome State Fault Refusal :=
  s.cmd (fun d => if d.bayLive b.val then d.bm36EccRead b.val unc else d)

/-- QUEUE_PORT_RECORD (R313). -/
def execQueuePortRecord (b : Fin 12) (lane : Fin 64) (typ : Fin 16) (lp : LP) (flow : Fin 4096) (tag : BitVec 24) (payload : List Byte) (s : State) : Host.Outcome State Fault Refusal :=
  s.cmd (fun d => if d.portUp b.val (.queue (b.val / 6)) then d.queuePortRecord b.val lane.val typ.val lp flow.val tag.toNat payload else d)

/-- USER_EVENT_LINE (R312): from EMIT, whose event is due, or from the event port. -/
def execUserEventLine (h : Half) (line : Fin 8) (s : State) : Host.Outcome State Fault Refusal :=
  s.run (.userEventLine h line) (fun d =>
    if s.dev.agenda.any (fun e => decide (e.1 ≤ s.dev.ck) && decide (e.2 = .userEventLine h line)) || d.userUp (.event h.val) then
      d.userEventLine h.val line.val
    else d)

/-- RO_START (R315). -/
def execRoStart (i : Fin 16) (val : Word) (s : State) : Host.Outcome State Fault Refusal :=
  s.cmd (fun d => d.roStart i val)

/-- RO_COUNT_DONE (R315). -/
def execRoCountDone (i : Fin 16) (s : State) : Host.Outcome State Fault Refusal :=
  s.run (.roCountDone i) (fun d => d.roCountDone i.val)

/-- FLASH_PROGRAM (R317). -/
def execFlashProgram (s : State) : Host.Outcome State Fault Refusal :=
  s.cmd (fun d => d.flashProgram)

/-- FLASH_ERASE (R317). -/
def execFlashErase (s : State) : Host.Outcome State Fault Refusal :=
  s.cmd (fun d => d.flashErase)

/-- FLASH_CMD_DONE (R317). -/
def execFlashCmdDone (ok : Bool) (s : State) : Host.Outcome State Fault Refusal :=
  s.run (.flashCmdDone ok) (fun d => d.flashCmdDone ok)

/-- SERIAL_TX_WRITE (R318). -/
def execSerialTxWrite (p : Fin 6) (val : Word) (s : State) : Host.Outcome State Fault Refusal :=
  s.cmd (fun d => d.serialTxWrite p.val val)

/-- I2C_WRITE (R318). -/
def execI2cWrite (start : Bool) (data : Byte) (s : State) : Host.Outcome State Fault Refusal :=
  s.cmd (fun d => d.i2cWrite start data)

/-- I2C_READ_ACK (R318). -/
def execI2cReadAck (start : Bool) (data : Byte) (s : State) : Host.Outcome State Fault Refusal :=
  s.cmd (fun d => d.i2cReadAck start data)

/-- I2C_READ_NACK (R318). -/
def execI2cReadNack (start : Bool) (data : Byte) (s : State) : Host.Outcome State Fault Refusal :=
  s.cmd (fun d => d.i2cReadNack start data)

/-- I2C_STOP (R318). -/
def execI2cStop (start : Bool) (data : Byte) (s : State) : Host.Outcome State Fault Refusal :=
  s.cmd (fun d => d.i2cStop start data)

/-- SERIAL_RX_REMOVE (R318). -/
def execSerialRxRemove (p : Fin 7) (s : State) : Host.Outcome State Fault Refusal :=
  s.cmd (fun d => d.serialRxRemove p.val)

/-- SERIAL_BYTE_RECEIVED (R318). -/
def execSerialByteReceived (p : Fin 7) (val : Byte) (bad : Bool) (s : State) : Host.Outcome State Fault Refusal :=
  s.cmd (fun d => d.serialByteReceived p.val val bad)

/-- SERIAL_BYTE_SENT (R318). -/
def execSerialByteSent (p : Fin 7) (nack arb : Bool) (s : State) : Host.Outcome State Fault Refusal :=
  s.run (.serialByteSent p nack arb) (fun d => d.serialByteSent p.val nack arb)

/-- IDCODE (R319). -/
def execIdcode (s : State) : Host.Outcome State Fault Refusal :=
  s.cmdAlways (fun d => d.idcode)

/-- SAMPLE_PRELOAD (R319). -/
def execSamplePreload (bits : List Bool) (s : State) : Host.Outcome State Fault Refusal :=
  s.cmdAlways (fun d => d.samplePreload bits)

/-- EXTEST (R319). -/
def execExtest (s : State) : Host.Outcome State Fault Refusal :=
  s.cmdAlways (fun d => d.extest)

/-- CLAMP (R319). -/
def execClamp (s : State) : Host.Outcome State Fault Refusal :=
  s.cmdAlways (fun d => d.clamp)

/-- HIGHZ (R319). -/
def execHighz (s : State) : Host.Outcome State Fault Refusal :=
  s.cmdAlways (fun d => d.highz)

/-- BYPASS (R319). -/
def execBypass (s : State) : Host.Outcome State Fault Refusal :=
  s.cmdAlways (fun d => d.bypass)

/-- TRST_N (R328). -/
def execTrstN (s : State) : Host.Outcome State Fault Refusal :=
  s.cmdAlways (fun d => d.trstN)

end Sys2Proof.Machine
end

