-- ==== Sys2Proof/Machine/Wires.lean ====
section
/-! DEFINITION. Wires, switch boxes, Sills and border signals, and the combinational part of cells (R296, R298, R299, R301 to R304, R356,
R357, Tables 15-1, 15-2, 17-4, 18-2). -/

namespace Sys2Proof.Machine

/-! One cell: `f` is its cluster's frame, `s` its number, `x` its inputs, as `cellX` orders them. -/

/-- Control bit `k` of a cell (Table 15-1). -/
def cellBit (f s k : Nat) : Bool := bit f (1024 + 8 * s + k)

/-- O6 (R296): split, the upper half of the table on inputs 1 to 5. -/
def cellO6 (f s x : Nat) : Bool := bit f (64 * s + (if cellBit f s 0 then 32 + x % 32 else x % 64))

/-- O5 (R296): the lower half of a split table. -/
def cellO5 (f s x : Nat) : Bool := if cellBit f s 0 then bit f (64 * s + x % 32) else bit x 8

/-- The carry out of a cell (R299). -/
def cellCarry (f s x : Nat) (cin : Bool) : Bool :=
  if cellBit f s 5 then (if cellO6 f s x then cin else cellO5 f s x) else bit x 9

/-! Wires (R301, R302). -/

/-- How many clusters a wire crosses, and how many of its kind start in a cluster each way (Table 15-2). -/
def WireKind.span : WireKind → Nat
  | .peg => 1 | .rafter => 4 | .beam => 16
def WireKind.count : WireKind → Nat
  | .peg => 16 | .rafter => 8 | .beam => 4

/-- The bay, the column and the row of a cluster by its frame address (Table 17-3). -/
def bayAt (a : Nat) : Nat := a / 53760
def colAt (a : Nat) : Nat := a % 53760 / 960
def rowAt (a : Nat) : Nat := a % 960

/-- The cluster `n` steps before `a` on a wire that runs `way`: north and south over the borders of the bays of a half, east and west within
the bay (R301). -/
def clusterBack (a : Nat) (way : Way) (n : Nat) : Option Nat :=
  let y := bayAt a % 6 * 960 + rowAt a
  let up (y : Nat) : Nat := 53760 * (bayAt a / 6 * 6 + y / 960) + 960 * colAt a + y % 960
  match way with
  | .north => if n ≤ y then some (up (y - n)) else none
  | .south => if y + n < 5760 then some (up (y + n)) else none
  | .east => if n ≤ colAt a then some (a - 960 * n) else none
  | .west => if colAt a + n < 56 then some (a + 960 * n) else none

/-- A border signal's number (Table 18-2), `r` being how many rows before the border's its wire starts. -/
def borderNum (way : Way) (kind : WireKind) (col k r : Nat) : Nat :=
  let j := match kind with
    | .peg => k
    | .rafter => 16 + k + 8 * (3 - r)
    | .beam => 48 + k + 4 * (15 - r)
  (if way = .north then 0 else 6272) + 112 * col + j

/-- The border signal that a wire which starts at `a` is where it leaves its bay. -/
def borderOf (a : Nat) (way : Way) (kind : WireKind) (k : Nat) : Nat :=
  borderNum way kind (colAt a) k (if way = .north then 959 - rowAt a else rowAt a)

/-! Sills (R303, R304). -/

/-- The Sill that tap `k` of a cluster is on, by its number in the bay. -/
def sillNum (a k : Nat) : Nat := if k < 8 then 8 * rowAt a + k else 7680 + 4 * colAt a + (k - 8)

/-- The tap, and the cluster of the driver of an index, of a Sill of a bay. -/
def sillTap (n : Nat) : Nat := if n < 7680 then n % 8 else 8 + (n - 7680) % 4
def sillAt (b n i : Nat) : Nat :=
  if n < 7680 then 53760 * b + 960 * i + n / 8 else 53760 * b + 960 * ((n - 7680) / 4) + i
def sillDrivers (n : Nat) : Nat := if n < 7680 then 56 else 960

/-- A cluster's driver of its tap `k`: 0 none, 1 static, 2 dynamic (Table 17-4). -/
def sillDriver (f : BitVec 2048) (k : Nat) : Nat := bitsOf f.toNat (2021 + 2 * k) 2

/-! Values. -/

/-- A value somewhere in the fabric: a wire, by the cluster it starts at; a pin; an output of a cell; the carry into cell `s` of a cluster
(16: out of its last); a Sill of a bay. -/
inductive Sig where
  | wire (a : Nat) (kind : WireKind) (way : Way) (k : Nat)
  | pin (a : Nat) (p : Pin)
  | cell (a s : Nat) (o : CellOut)
  | carry (a s : Nat)
  | sill (b n : Nat)
  deriving DecidableEq, Repr

def Dev.frame (d : Dev) (a : Nat) : BitVec 2048 := sget 0#2048 d.fab.clusters a

/-- What a multiplexer of a cluster connects; a select of 0 connects nothing (Table 17-4). -/
def Dev.connects (d : Dev) (a : Nat) (m : Mux) : Option Src :=
  let p := Config.muxBits m
  match bitsOf (bitsOf (d.frame a).toNat 1152 864) p.1 p.2 with
  | 0 => none
  | v => some (Config.muxSource m v)

section
variable (d : Dev) (val : Sig → Bool)

/-- What a source of a cluster reads. A wire of a bay whose borders are shut reads what the bay's border signal is held at. -/
def Dev.srcVal (a : Nat) : Src → Bool
  | .wire kind way k back =>
    match (if 0 < back ∧ back ≤ kind.span ∧ k < kind.count then clusterBack a way back else none) with
    | none => Config.openPin a none d.ck
    | some a0 =>
      match (if bayAt a0 = bayAt a then none else (d.bayOf (bayAt a0)).edge) with
      | some l => l.contains (borderOf a0 way kind k)
      | none => val (.wire a0 kind way k)
  | .cell s o => val (.cell a s o)
  | .sill k => val (.sill (bayAt a) (sillNum a k))
  | .hard n => Config.hardOut a n d.ck

/-- A cell's inputs: bits 0 to 5 inputs 1 to 6, bit 6 the bypass, bit 7 the second; bits 8 and 9 what the spec does not state. -/
def Dev.cellX (a s : Nat) : Nat :=
  (List.range 8).foldl (fun x j => x + b01 (val (.pin a (.cell s j))) * 2 ^ j) 0 + 256 * (Config.cellFree a s d.ck).toNat

/-- Is the driver of index `i` of a Sill enabled? -/
def Dev.sillDrives (b n i : Nat) : Bool :=
  let a := sillAt b n i
  match sillDriver (d.frame a) (sillTap n) with
  | 0 => false
  | 1 => true
  | _ => val (.pin a (.sillOn (sillTap n)))

/-- The enabled drivers of a Sill, lowest index first. -/
def Dev.sillEnabled (b n : Nat) : List Nat := (List.range (sillDrivers n)).filter (fun i => d.sillDrives val b n i)

/-- A value from the values it is made of: a wire has the one driver, 0 where that connects nothing (R302); a Sill carries what its enabled
driver of the lowest index does, else what its keeper holds (R304). -/
def Dev.sigVal : Sig → Bool
  | .wire a kind way k =>
    match d.connects a (.wire kind way k) with
    | none => false
    | some x => d.srcVal val a x
  | .pin a p =>
    match d.connects a (.pin p) with
    | none => Config.openPin a (some p) d.ck
    | some x => d.srcVal val a x
  | .cell a s o =>
    let f := (d.frame a).toNat
    match o with
    | .o6 => cellO6 f s (d.cellX val a s)
    | .o5 => cellO5 f s (d.cellX val a s)
    | .sum => cellO6 f s (d.cellX val a s) ^^ val (.carry a s)
    | .ff0 => bit (sget 0#32 d.fab.ffs a).toNat (2 * s)
    | .ff1 => bit (sget 0#32 d.fab.ffs a).toNat (2 * s + 1)
  | .carry a 0 => if bit (d.frame a).toNat 2020 && decide (rowAt a ≠ 0) then val (.carry (a - 1) 16) else false
  | .carry a (s + 1) => cellCarry (d.frame a).toNat s (d.cellX val a s) (val (.carry a s))
  | .sill b n =>
    match d.sillEnabled val b n with
    | i :: _ => val (.pin (sillAt b n i) (.sillData (sillTap n)))
    | [] => sget false d.fab.sills (7904 * b + n)

end

/-- A value in the CK at hand, over so many steps; a value that no end of steps settles is on a loop. -/
def Dev.sigAt (d : Dev) : Nat → Sig → Bool
  | 0 => fun _ => Config.loopValue d.ck
  | n + 1 => d.sigVal (d.sigAt n)

/-- A value in the CK at hand. No path without a loop has as many steps as the fabric has values: 645,120 clusters of 112 wires, 154 pins,
80 outputs and 17 carries, and 94,848 Sills. -/
def Dev.sig (d : Dev) : Sig → Bool := d.sigAt (2 ^ 28)

/-- The carry into cell 0 of a cluster (R299). -/
def Dev.carryIn (d : Dev) (a : Nat) : Bool := d.sig (.carry a 0)

/-! Keepers and contention (R304). -/

/-- The Sills that a frame of the configuration drives: bay and number. -/
def Dev.sillsDriven (d : Dev) : List (Nat × Nat) :=
  (d.fab.clusters.flatMap (fun (e : Nat × BitVec 2048) =>
    ((List.range 12).filter (fun k => sillDriver e.2 k ≠ 0)).map (fun k => (bayAt e.1, sillNum e.1 k)))).eraseDups

/-- At the end of a CK a keeper holds what its Sill carried. -/
def Dev.sillsNext (d : Dev) : SMap Bool :=
  d.sillsDriven.foldl (fun (m : SMap Bool) e => sset false m (7904 * e.1 + e.2) (d.sig (.sill e.1 e.2))) d.fab.sills

/-- The Sills in contention in this CK. -/
def Dev.sillsMet (d : Dev) : List (Nat × Nat) := d.sillsDriven.filter (fun e => decide (1 < (d.sillEnabled d.sig e.1 e.2).length))

/-- Contention of this CK is counted, bay by bay. -/
def Dev.sillsContend (d : Dev) : Dev :=
  d.sillsMet.foldl (fun (x : Dev) e =>
    if d.bayLive e.1 then x.sillContention e.1 e.2 ((d.sillEnabled d.sig e.1 e.2).headD 0) else x) d

/-! Border signals of a shut bay (R356, R357, R435). -/

/-- The wire that is border signal `n` of a bay. -/
def borderWire (b n : Nat) : Sig :=
  let north := n < 6272
  let col := n % 6272 / 112
  let k := n % 112
  let w : WireKind × Nat × Nat :=
    if k < 16 then (.peg, k, 0) else if k < 48 then (.rafter, (k - 16) % 8, 3 - (k - 16) / 8) else (.beam, (k - 48) % 4, 15 - (k - 48) / 4)
  .wire (53760 * b + 960 * col + (if north then 959 - w.2.2 else w.2.2)) w.1 (if north then .north else .south) w.2.1

/-- What a border signal is held at from the CK after this one: 0b10 drives 0, 0b11 drives 1, 0b00 holds the value it carries now. -/
def Dev.borderHeld (d : Dev) (b n : Nat) : Bool :=
  match bitsOf (sget 0#2048 d.fab.borders (16 * b + n / 1024)).toNat (2 * (n % 1024)) 2 with
  | 0 => d.sig (borderWire b n)
  | v => v = 3

/-- Are a bay's borders shut in the CK after this one? -/
def Dev.bordersShut (d : Dev) (b : Nat) : Bool :=
  d.started && ((d.rcfg b ≠ Rc.opened && decide ((d.bayOf b).armCk + 1 ≤ d.ck)) || !d.domOpen (Dom.bay b))

/-- At the end of the CK of `d`, in `e`: the borders of a bay shut, or are open again. -/
def Dev.bordersKeep (d e : Dev) (b : Nat) : Dev :=
  match d.bordersShut b, (e.bayOf b).edge with
  | true, none => e.setBay b { e.bayOf b with edge := some ((List.range 12544).filter (d.borderHeld b)) }
  | false, some _ => e.setBay b { e.bayOf b with edge := none }
  | _, _ => e

end Sys2Proof.Machine
end

