-- ==== Sys2Proof/Machine/Cells.lean ====
section
/-! DEFINITION. Clock edges of user logic and what they change: flip-flops, arithmetic slices, ports of BM36s, keepers of Sills (R297 to
R300, R304 to R306, R309, R310, R325, R331, Tables 15-1 and 17-4). -/

namespace Sys2Proof.Machine

/-- The data of a cell's flip-flops (Table 15-1, R299). -/
def cellData (f s x : Nat) (cin : Bool) : Bool × Bool :=
  (if cellBit f s 3 then bit x 6 else if cellBit f s 5 then cellO6 f s x ^^ cin else cellO6 f s x,
   if cellBit f s 4 then bit x 7 else cellO5 f s x)

/-- A flip-flop after a clock edge (R300, Table 15-1): its INIT value under the cluster's reset, as it stood while the enable is 0. -/
def ffNext (srEn ceEn init sr ce old data : Bool) : Bool :=
  if srEn && sr then init else if ceEn && !ce then old else data

/-- A cell's flip-flops after an edge: bit 0 FF0, bit 1 FF1. -/
def cellNext (f s x cl old : Nat) (cin : Bool) : Nat :=
  let q (k : Nat) (data : Bool) : Bool := ffNext (cellBit f s 7) (cellBit f s 6) (cellBit f s (1 + k)) (bit cl 1) (bit cl 0) (bit old k) data
  let dt := cellData f s x cin
  b01 (q 0 dt.1) + 2 * b01 (q 1 dt.2)

/-! One cluster. -/

/-- The INIT values of a cluster's flip-flops. -/
def clusterInit (f : BitVec 2048) : BitVec 32 :=
  BitVec.ofNat 32 ((List.range 16).foldl (fun x s => x + bitsOf f.toNat (1024 + 8 * s + 1) 2 * 2 ^ (2 * s)) 0)

/-- The flip-flops of the cluster at `a` after an edge. -/
def Dev.clusterNext (d : Dev) (a : Nat) : BitVec 32 :=
  let f := (d.frame a).toNat
  let old := (sget 0#32 d.fab.ffs a).toNat
  let cl := b01 (d.sig (.pin a .enable)) + 2 * b01 (d.sig (.pin a .reset))
  BitVec.ofNat 32 ((List.range 16).foldl (fun r s =>
    r + cellNext f s (d.cellX d.sig a s) cl (bitsOf old (2 * s) 2) (d.sig (.carry a s)) * 2 ^ (2 * s)) 0)

/-! Clock edges. -/

/-- Do a bay's networks deliver edges in this CK: open, and not the CK of its release (R331, R356, R361)? -/
def Dev.netsOpen (d : Dev) (b : Nat) : Bool := d.bayLive b && d.startCk ≠ some d.ck && (d.bayOf b).freeCk ≠ some d.ck

/-- Does a bay network bring an edge in this CK (R310, R325)? -/
def Dev.netEdge (d : Dev) (b k : Nat) : Bool :=
  match Config.bayNet b k (d.bayOf b).freeCk with
  | some r => decide (d.phi % (r.val + 1) = 0)
  | none => Config.outerEdge b k d.ck

/-- Do the flip-flops of the cluster at `a` have an edge in this CK (CLKSEL and CLKON of Table 17-4)? -/
def Dev.clusterEdge (d : Dev) (a : Nat) : Bool :=
  bit (d.frame a).toNat 2019 && d.netsOpen (a / 53760) && d.netEdge (a / 53760) (bitsOf (d.frame a).toNat 2016 3)

/-! Arithmetic slices (R309). -/

/-- An operand of `n` bits, signed or not. -/
def sliceOp (signed : Bool) (n x : Nat) : Int := if signed then (BitVec.ofNat n x).toInt else (x % 2 ^ n : Nat)

/-- The product of a slice's mode: DUAL two of 36 bits, WIDE one of 54, CLMUL the two halves of a carry-less one of 64 × 64. -/
def sliceProd (cfg : BitVec 16) (x : BitVec 128) : BitVec 128 :=
  let op (k at_ n : Nat) : Int := sliceOp (bit cfg.toNat (8 + k)) n (bitsOf x.toNat at_ n)
  match bitsOf cfg.toNat 0 2 with
  | 0 => BitVec.setWidth 128 (BitVec.ofInt 36 (op 0 0 18 * op 1 18 18)) ||| BitVec.setWidth 128 (BitVec.ofInt 36 (op 2 36 18 * op 3 54 18)) <<< 64
  | 1 => BitVec.setWidth 128 (BitVec.ofInt 54 (op 0 0 36 * op 1 36 18))
  | _ => BitVec.ofNat 128 ((List.range 64).foldl (fun r k => if bit x.toNat (64 + k) then r ^^^ (bitsOf x.toNat 0 64 * 2 ^ k) else r) 0)

/-- The product that a MAC adds or subtracts: signed where an operand of it is. -/
def sliceTerm (cfg : BitVec 16) (p : BitVec 128) : Int :=
  let c := cfg.toNat
  if bitsOf c 0 2 = 1 then sliceOp (bit c 8 || bit c 9) 54 p.toNat
  else if bit c 4 then sliceOp (bit c 10 || bit c 11) 36 (p.toNat / 2 ^ 64)
  else sliceOp (bit c 8 || bit c 9) 36 p.toNat

/-- A slice after an edge of its clock, all pipeline registers enabled: a product 3 edges after its operands, the accumulator 4, modulo
2^72; its overflow output is set where the signed result wraps. -/
def SliceSt.next (x : SliceSt) (cfg : BitVec 16) (inp : BitVec 129) : SliceSt :=
  let t := sliceTerm cfg x.prod
  let sum := if bit cfg.toNat 3 then x.acc.toInt - t else x.acc.toInt + t
  let acc := BitVec.ofInt 72 sum
  { ops1 := inp.setWidth 128, ops2 := x.ops1, prod := sliceProd cfg x.ops2
    acc := if bit inp.toNat 128 || !bit cfg.toNat 2 then 0#72 else acc
    wrapped := !bit inp.toNat 128 && bit cfg.toNat 2 && decide (acc.toInt ≠ sum) }

/-- The slices that the configuration of the bays uses. -/
def Dev.slicesUsed (d : Dev) (p : Nat → Bool) : List (Nat × SliceSt) :=
  ((List.range 11520).filter (fun i => p (i / 960) && (Config.sliceMode (i / 960) (i % 960) (d.bayOf (i / 960)).freeCk).isSome)).map (fun i => (i, {}))

/-- The slices at the end of this CK. -/
def Dev.slicesNext (d : Dev) : List (Nat × SliceSt) :=
  d.fab.slices.map (fun (e : Nat × SliceSt) =>
    let b := e.1 / 960
    match Config.sliceMode b (e.1 % 960) (d.bayOf b).freeCk with
    | some cfg => if d.netsOpen b && d.netEdge b (bitsOf cfg.toNat 12 3) then (e.1, e.2.next cfg (Config.sliceIn b (e.1 % 960) d.ck)) else e
    | none => e)

/-! Ports of BM36s (R305 to R307). -/

/-- Bits of a BM36: `wd` bits from bit `lo` of its 36,864. -/
def Dev.bmGet (d : Dev) (b m lo wd : Nat) : Nat :=
  let base := 18 * (1440 * b + m)
  (List.range wd).foldl (fun v k => v + b01 (bit (sget 0#2048 d.fab.bm36 (base + (lo + k) / 2048 % 18)).toNat ((lo + k) % 2048)) * 2 ^ k) 0

/-- The place and the width of the word that an address names in a shape. The shapes of 1, 2 and 4 bits leave the ninth bits alone. -/
def bmWord (shape a : Nat) : Nat × Nat :=
  match shape with
  | 0 => (9 * (a / 8) + a % 8, 1)
  | 1 => (9 * (a / 4) + 2 * (a % 4), 2)
  | 2 => (9 * (a / 2) + 4 * (a % 2), 4)
  | 3 => (9 * a, 9)
  | 4 => (18 * a, 18)
  | 5 => (36 * a, 36)
  | _ => (72 * a, 72)

/-- What a port of a BM36 does at an edge: its place, the word it writes, whether it reads. In shape 512 × 72 port A writes and B reads. -/
structure BmOp where
  lo : Nat
  wd : Nat
  wr : Option Nat
  rd : Bool
  ecc : Bool
  deriving DecidableEq, Repr

/-- The access of a port in this CK: none where it has no edge or user logic makes none. -/
def Dev.bmOp (d : Dev) (b m port : Nat) : Option BmOp :=
  match Config.bmMode b m (d.bayOf b).freeCk with
  | none => none
  | some cfg =>
    let c := cfg.toNat
    let x := (Config.bmIn b m port d.ck).toNat
    if d.netsOpen b && d.netEdge b (bitsOf c (8 + 3 * port) 3) && bit x 88 then
      let sh := bitsOf c 0 3
      let a := bitsOf x 72 15 % (if sh = 6 then 512 else 32768 / 2 ^ sh)
      let w := bmWord sh a
      let wr := bit x 87 && (decide (sh < 6) || decide (port = 0))
      let ecc := bit c 3 && decide (sh = 6)
      let data := if ecc then x % 2 ^ 64 + lightC (x % 2 ^ 64) * 2 ^ 64 else x % 2 ^ w.2
      some ⟨w.1, w.2, if wr then some data else none, decide (sh < 6) || decide (port = 1), ecc⟩
    else none

/-- A port of a BM36 reads a word (R305, R307): with ECC it reads corrected, to be written back, or as stored with ERR set. -/
def Dev.bmRead (d : Dev) (b m port : Nat) (o : BmOp) : Dev :=
  let i := 1440 * b + m
  let raw := d.bmGet b m o.lo o.wd
  let old := sget {} d.fab.bmPorts (2 * i + port)
  let reads (d : Dev) (v : Nat) (bad : Bool) : Dev :=
    d.onFab (fun f => { f with bmPorts := sset {} f.bmPorts (2 * i + port) { data := BitVec.ofNat 72 v, out := old.data, bad := bad } })
  match if o.ecc then ecc72 raw else some raw with
  | none => ((reads d raw true).err (Pg.bay b) 2 0x0F02).pend (Pg.bay b) 4
  | some v =>
    if v = raw then reads d raw false
    else ((reads d v false).onFab (fun f => { f with bmFixes := f.bmFixes ++ [(i, o.lo, v)] })).bump (Pg.bay b) F.BAY_BM_CORR_CNT

/-- The words of a BM36 that wait to be written back: in a CK with no access they are stored, and a write of the word itself comes before. -/
def Dev.bmFix (d : Dev) (b m : Nat) (ops : List (Option BmOp)) : Dev :=
  let i := 1440 * b + m
  if ops.any Option.isSome then
    d.onFab (fun f => { f with bmFixes := f.bmFixes.filter (fun x =>
      !(decide (x.1 = i) && ops.any (fun o => o.any (fun y => y.wr.isSome && decide (y.lo = x.2.1))))) })
  else
    let d := (d.fab.bmFixes.filter (fun x => decide (x.1 = i))).foldl (fun (d : Dev) x => d.bmPut b m x.2.1 72 x.2.2) d
    d.onFab (fun f => { f with bmFixes := f.bmFixes.filter (fun x => decide (x.1 ≠ i)) })

/-- Both ports of a BM36 in this CK: A's data is stored where both write one word, which counts; a read sees what the CK stores. -/
def Dev.bmEdge (d : Dev) (b m : Nat) : Dev :=
  let ops := [d.bmOp b m 0, d.bmOp b m 1]
  let put (d : Dev) (o : Option BmOp) : Dev := match o with
    | some x => (match x.wr with | some v => d.bmPut b m x.lo x.wd v | none => d)
    | none => d
  let twice := match ops with
    | [some x, some y] => x.wr.isSome && y.wr.isSome && decide (x.lo = y.lo)
    | _ => false
  let d := put (put (d.bmFix b m ops) (ops.getD 1 none)) (ops.getD 0 none)
  let d := if twice then (d.err (Pg.bay b) 4 0x0F04).pend (Pg.bay b) 6 else d
  [0, 1].foldl (fun (d : Dev) p =>
    match ops.getD p none with
    | some o => if o.rd then d.bmRead b m p o else d
    | none => d) d

/-- The BM36s that the configuration of the bays uses. -/
def Dev.bmsUsed (d : Dev) (p : Nat → Bool) : List Nat :=
  (List.range 17280).filter (fun i => p (i / 1440) && (Config.bmMode (i / 1440) (i % 1440) (d.bayOf (i / 1440)).freeCk).isSome)

/-- The loader's check bits of BM36s in shape 512 × 72 with ECC (R338). -/
def Dev.bmsEncode (d : Dev) (l : List Nat) : Dev :=
  l.foldl (fun (d : Dev) i =>
    let b := i / 1440
    match Config.bmMode b (i % 1440) (d.bayOf b).freeCk with
    | none => d
    | some cfg =>
      if bitsOf cfg.toNat 0 3 = 6 ∧ bit cfg.toNat 3 then
        (List.range 512).foldl (fun (d : Dev) a => d.bmPut b (i % 1440) (72 * a + 64) 8 (lightC (d.bmGet b (i % 1440) (72 * a) 64))) d
      else d) d

/-! All of them. -/

/-- Every flip-flop at the end of this CK: those with no edge stand as they are. -/
def Dev.ffsNext (d : Dev) : SMap (BitVec 32) :=
  d.fab.clusters.foldl (fun m (e : Nat × BitVec 2048) => if d.clusterEdge e.1 then sset 0#32 m e.1 (d.clusterNext e.1) else m) d.fab.ffs

/-- The edges of this CK. -/
def Dev.userEdges (d : Dev) : Dev := d.onFab (fun x => { x with ffs := d.ffsNext, sills := d.sillsNext, slices := d.slicesNext })

/-- The end of a CK in the fabric: contention is counted, ports of BM36s act, the edges come; borders of bays that shut hold what they carried
before. -/
def Dev.fabricCk (d : Dev) : Dev :=
  let e := (d.fab.bms.foldl (fun (e : Dev) i => e.bmEdge (i / 1440) (i % 1440)) d.sillsContend).userEdges
  (List.range 12).foldl (fun (e : Dev) b => d.bordersKeep e b) e

/-- Clusters at their INIT values, over what is held of the others. -/
def ffsInit (l : SMap (BitVec 2048)) (m : SMap (BitVec 32)) : SMap (BitVec 32) :=
  l.foldl (fun m (e : Nat × BitVec 2048) => sset 0#32 m e.1 (clusterInit e.2)) m

/-- Startup release: every flip-flop shows its INIT value (R300, Table 16-4). -/
def Dev.ffsStart (d : Dev) : Dev :=
  let fresh := d.slicesUsed (fun _ => true)
  let bms := d.bmsUsed (fun _ => true)
  d.onFab (fun x => { x with ffs := ffsInit x.clusters [], sills := [], slices := fresh, bms := bms, bmPorts := [], bmFixes := [] })

/-- The release of a bay: so do those of the bay (R361). -/
def Dev.ffsRelease (d : Dev) (b : Nat) : Dev :=
  let other {α : Type} (n : Nat) (l : List (Nat × α)) : List (Nat × α) := l.filter (fun e => decide (e.1 / n ≠ b))
  let fresh := d.slicesUsed (fun k => decide (k = b))
  let bms := d.bmsUsed (fun k => decide (k = b))
  d.onFab (fun x => { x with
    ffs := ffsInit (x.clusters.filter (fun e => decide (e.1 / 53760 = b))) (other 53760 x.ffs)
    sills := other 7904 x.sills
    slices := other 960 x.slices ++ fresh
    bms := x.bms.filter (fun i => decide (i / 1440 ≠ b)) ++ bms
    bmFixes := x.bmFixes.filter (fun y => decide (y.1 / 1440 ≠ b)) })

/-- The flip-flops of a bay as READBACK frames (R365): cluster c holds numbers 32c to 32c + 31. -/
def readback (m : SMap (BitVec 32)) (b : Nat) : SMap (BitVec 2048) :=
  (m.filter (fun e => decide (e.1 / 53760 = b))).foldl (fun m e =>
    let c := e.1 % 53760
    let i := c / 64
    sset 0#2048 m i (BitVec.ofNat 2048 (bitsPut (sget 0#2048 m i).toNat (32 * (c % 64)) 32 e.2.toNat))) []

/-- What a snapshot of a bay copies in this CK (R364); before startup release flip-flops stand at the INIT values of the frames. -/
def Dev.snapFrames (d : Dev) (b : Nat) : SMap (BitVec 2048) :=
  readback (if d.started then d.ffsNext else ffsInit d.fab.clusters []) b

end Sys2Proof.Machine
end

