-- ==== Sys2Proof/Machine/Noc.lean ====
section
/-! DEFINITION. The on-chip network up to injection: the address map, requests and their responses (R372 to R375, R491, R492). What a delivered request does at its target stands in NocTarget.lean. -/

namespace Sys2Proof.Machine

/-! The address map (Table 19-2). -/

/-- A target and the byte within it. -/
inductive NocTgt where
  | regs (off : Nat) | flash (off : Nat) | bay (b off : Nat) | scratch (e off : Nat) | port (q off : Nat)
  | gecko (h off : Nat) | dram (c off : Nat) | cap (off : Nat)
  deriving DecidableEq, Repr

/-- The range that holds an address. -/
def nocTgt (a : Nat) : Option NocTgt :=
  if Na.reg ≤ a ∧ a < Na.regEnd then some (.regs (a - Na.reg))
  else if Na.flash ≤ a ∧ a < Na.flashEnd then some (.flash (a - Na.flash))
  else if Na.bay 0 ≤ a ∧ a < Na.bayEnd then some (.bay ((a - Na.bay 0) / 0x40_0000) ((a - Na.bay 0) % 0x40_0000))
  else if Na.sp 0 ≤ a ∧ a < Na.spEnd then some (.scratch ((a - Na.sp 0) / 0x2_0000) ((a - Na.sp 0) % 0x2_0000))
  else if Na.port ≤ a ∧ a < Na.portEnd then some (.port ((a - Na.port) / 0x1000_0000) ((a - Na.port) % 0x1000_0000))
  else if Na.gecko ≤ a ∧ a < Na.geckoEnd then some (.gecko ((a - Na.gecko) / 2 ^ 32) ((a - Na.gecko) % 2 ^ 32))
  else if Na.dram 0 ≤ a ∧ a < Na.dramEnd then some (.dram ((a - Na.dram 0) / 2 ^ 38) ((a - Na.dram 0) % 2 ^ 38))
  else if Na.cap ≤ a ∧ a < Na.cap + 2 ^ 53 then some (.cap (a - Na.cap))
  else none

/-- Do two targets lie in one range? -/
def sameRange : NocTgt → NocTgt → Bool
  | .regs _, .regs _ => true
  | .flash _, .flash _ => true
  | .bay b _, .bay b' _ => b = b'
  | .scratch e _, .scratch e' _ => e = e'
  | .port q _, .port q' _ => q = q'
  | .gecko h _, .gecko h' _ => h = h'
  | .dram c _, .dram c' _ => c = c'
  | .cap _, .cap _ => true
  | _, _ => false

/-- The target of a request's bytes, if they lie in one range (R372). -/
def decodeReq (a n : Nat) : Option NocTgt :=
  match nocTgt a, nocTgt (a + n - 1) with
  | some x, some y => if sameRange x y then some x else none
  | _, _ => none

/-- The half that serves a page (R475). -/
def pageHalf (pg : Nat) : Nat :=
  match blkOfPage pg with
  | some (.lane, n) => n / 32
  | some (.sieve, q) => q / 8
  | some (.drc, c) => c / 8
  | some (.memi, c) => c / 8
  | some (.newt, e) => e / 96
  | some (.gecko, k) => k / 2
  | some (.bay, b) => b / 6
  | some (.dmach, k) => k / 32
  | some (.dev, _) => 0
  | some (.pmc, _) => 0
  | some (.therm, _) => 0
  | some (.cfg, _) => 0
  | some (.scrub, _) => 0
  | some (.hostif, _) => 0
  | some (.dbg, _) => 0
  | some (.pair, _) => 0
  | some (.steward, _) => 0
  | some (_, h) => h % 2
  | none => 0

/-- The destination end point of a target; the steward page is served in the reader's own half (R409). -/
def tgtEp (srcHalf : Nat) : NocTgt → Nat
  | .regs off => if off / 4096 = Pg.steward then Ep.regs srcHalf else Ep.regs (pageHalf (off / 4096))
  | .flash _ => Ep.flash
  | .bay b _ => Ep.bay b
  | .scratch e _ => Ep.newt e
  | .port q _ => Ep.mortise (q / 2) (q % 2)
  | .gecko h _ => Ep.gecko h
  | .dram c _ => Ep.dram c
  | .cap off => Ep.index (capHalf off)

/-! Requests and their responses (R491). -/

/-- I and E of a master (Table 26-3). -/
def issueCk : NocWho → Nat
  | .pcie _ => 16
  | _ => 1
def useCk : NocWho → Nat
  | .pcie _ => 15
  | _ => 1

/-! Requests. -/

/-! STATUS codes (Table 19-5). -/
namespace Ns
def ok : Nat := 0
def decode : Nat := 1
def error : Nat := 2
def busy : Nat := 3
def reconfig : Nat := 4
def dead : Nat := 5
def isolated : Nat := 6
def condFail : Nat := 7
end Ns

/-- May the request be repeated (Table 19-5)? -/
def retryable (status : Nat) : Bool := status = Ns.busy || status = Ns.reconfig

def Dev.setReq (d : Dev) (id : Nat) (r : NocReq) : Dev := { d with nocReqs := sput d.nocReqs id r }

/-- A master puts a request out; it is injected I CK later (R491). Its number is `d.nextNoc`. -/
def Dev.nocSend (d : Dev) (r : NocReq) : Dev :=
  let id := d.nextNoc
  ({ d with nocReqs := sput d.nocReqs id r, nextNoc := id + 1 } : Dev).sched (issueCk r.who) (.nocInject id 0)

/-- Data flits of a response (Table 19-4): one a 32-byte unit of a read that is served. -/
def NocReq.flits (r : NocReq) : Nat :=
  if r.status = Ns.ok ∧ (r.op = .read ∨ r.op = .readRes) then (r.addr % 32 + r.len + 31) / 32 else 0

/-- Data flits of a request (Table 19-4): one a 32-byte unit of a write. -/
def NocReq.outFlits (r : NocReq) : Nat :=
  if r.op = .read ∨ r.op = .readRes then 0 else (r.addr % 32 + r.len + 31) / 32

/-- The power domain of a target (R435). -/
def tgtDom : NocTgt → Option Nat
  | .bay b _ => some (Dom.bay b)
  | .scratch e _ => some (Dom.bay (e / 16))
  | .port q _ => some (Dom.bay (q / 2))
  | .gecko h _ => some (Dom.gecko h)
  | .dram c _ => some (Dom.dram c)
  | _ => none

/-- The domain a request's target lies in. -/
def NocReq.dom (r : NocReq) : Option Nat := if r.host then none else (decodeReq r.addr r.len).bind tgtDom

/-- The response header of a request is injected `k` CK from now, then its data flits (R377); the master uses it E CK after the last
(R491). -/
def Dev.nocReply (d : Dev) (id k : Nat) : Dev :=
  match sfind d.nocReqs id with
  | none => d
  | some r =>
    let d : Dev := { d with agenda := d.agenda.filter (fun (e : Nat × Instr) => !decide (e.2 = .deadTargetTimeout id)) }
    let m := d.packet r.dst r.src (1 + r.flits) k
    (m.1.setReq id { r with ph := .answer }).sched (m.2 + r.flits + useCk r.who - d.ck) (.nocResponse id)

/-- A router answers a request with a status `k` CK from now. -/
def Dev.nocRefuse (d : Dev) (id k status : Nat) : Dev :=
  match sfind d.nocReqs id with
  | none => d
  | some r => (d.setReq id { r with status := status }).nocReply id k

/-- What an end point still owes once its router has answered DEAD goes by a number of its own. -/
def ghostOf (id : Nat) : Nat := id + 2 ^ 40

/-- The end point responds `k` CK from now. A packet of a dead end point is absorbed (R383); one of an end point that a forced close
isolates is not sent (R382). -/
def Dev.nocAnswer (d : Dev) (id k : Nat) : Dev :=
  match sfind d.nocReqs id with
  | none => d
  | some r =>
    if 2 ^ 40 ≤ id then
      let d := if (d.nocOf (epHalf r.dst)).dead.contains r.dst then d.bump (Pg.noc (epHalf r.dst)) F.NOC_ABSORB_CNT else d
      { d with nocReqs := serase d.nocReqs id }
    else if (match r.dom with | some m => d.forced m | none => false) then d
    else d.nocReply id k

/-- An end point's answer with a status and no data, `k` CK from now. -/
def Dev.nocFail (d : Dev) (id k status : Nat) : Dev :=
  match sfind d.nocReqs id with
  | none => d
  | some r => (d.setReq id { r with status := status }).nocAnswer id k

/-! Writes that reservations see (R172, R374). -/

/-- Does a write of `n` bytes at an address meet an 8-byte granule? -/
def meets (g a n : Nat) : Bool := decide (g < a + n) && decide (a < g + 8)

/-- Bytes have been written: reservations on their granules are cleared. -/
def Dev.written (d : Dev) (a n : Nat) : Dev :=
  let engs := d.engs.map (fun (x : Nat × EngSt) => match x.2.resv with
    | some g => if meets g a n then (x.1, { x.2 with resv := none }) else x
    | none => x)
  { d with engs := engs.filter (fun (x : Nat × EngSt) => decide (x.2 ≠ {}))
           resvs := (d.resvs.map (fun (x : Nat × List (Nat × Nat)) => (x.1, x.2.filter (fun (y : Nat × Nat) => !meets y.1 a n)))).filter
             (fun (x : Nat × List (Nat × Nat)) => decide (x.2 ≠ [])) }

/-- Some of the bytes from an address on have been written. -/
def Dev.writtenSome (d : Dev) (a : Nat) (l : List (Option Byte)) : Dev :=
  (l.zipIdx).foldl (fun (d : Dev) p => if p.1.isSome then d.written (a + p.2) 1 else d) d

/-- The memory that keeps a reservation table: scratchpads by engine, then bay memories (R374). -/
def resvMem : NocTgt → Option Nat
  | .scratch e _ => some e
  | .bay b _ => some (1000 + b)
  | _ => none

/-- A memory of 16 granules takes a reservation for a requester: the newest first, the oldest displaced (R374). -/
def Dev.reserve (d : Dev) (mem g src : Nat) : Dev :=
  let l := (sget [] d.resvs mem).filter (fun (y : Nat × Nat) => y.2 ≠ src)
  { d with resvs := sset [] d.resvs mem (((g, src) :: l).take 16) }

/-- Does a memory hold the requester's reservation of a granule? -/
def Dev.reserved (d : Dev) (mem g src : Nat) : Bool := (sget [] d.resvs mem).contains (g, src)

end Sys2Proof.Machine
end

