-- ==== Sys2Proof/Machine/Dma.lean ====
section
/-! DEFINITION. The DMA engines: descriptors, bursts and their arbitration, check values, endings, pause, abort and power domains
(R411 to R421). -/

namespace Sys2Proof.Machine

/-! Channel states (DMACHn_STAT_STATE). -/
namespace Dc
def idle : Nat := 0
def fetch : Nat := 1
def run : Nat := 2
def pausing : Nat := 3
def paused : Nat := 4
def done : Nat := 5
def halted : Nat := 6
end Dc

def Dev.dmaOf (d : Dev) (k : Nat) : DmaSt := sget {} d.dmas k
def Dev.setDma (d : Dev) (k : Nat) (x : DmaSt) : Dev := { d with dmas := sset {} d.dmas k x }
def Dev.dmaState (d : Dev) (k : Nat) : Nat := d.fld (Pg.dmach k) F.DMACH_STAT_STATE
def Dev.setDmaState (d : Dev) (k st : Nat) : Dev := d.setFld (Pg.dmach k) F.DMACH_STAT_STATE st

/-- A channel and an engine as operands. -/
def chOp (k : Nat) : Fin 64 := ⟨k % 64, Nat.mod_lt _ (by decide)⟩

/-! Descriptor fields (Table 21-1). -/
namespace DmaSt
def num (x : DmaSt) (at_ n : Nat) : Nat := leNat ((x.desc.drop at_).take n)
def src (x : DmaSt) : Nat := x.num 0 8
def dst (x : DmaSt) : Nat := x.num 8 8
def len (x : DmaSt) : Nat := x.num 16 4
def ctl (x : DmaSt) : Nat := x.num 20 1
def chk (x : DmaSt) : Nat := x.ctl % 4
def append (x : DmaSt) : Bool := bit x.ctl 2 && decide (x.chk ≠ 0)
def srcHost (x : DmaSt) : Bool := bit x.ctl 3
def dstHost (x : DmaSt) : Bool := bit x.ctl 4
def hint (x : DmaSt) : Bool := bit x.ctl 7
def nextAddr (x : DmaSt) : Nat := x.num 24 8
/-- Bursts whose data has not come. -/
def flying (x : DmaSt) : Nat := (x.bursts.filter (fun b => b.data.isNone)).length
/-- The check value to show: the CRC ends with its final XOR (R125). -/
def result (x : DmaSt) : Nat := if x.chk = 1 then 2 ^ 32 - 1 - x.check else if x.chk = 2 then x.check else 0
end DmaSt

/-- The check value after more data (R416). -/
def checkStep (chk : Nat) (v : Nat) (l : List Byte) : Nat :=
  match chk with
  | 1 => (l.foldl crcByte (BitVec.ofNat 32 v)).toNat
  | 2 => ((List.range (l.length / 8)).foldl (fun s j => s + leNat ((l.drop (8 * j)).take 8)) v) % 2 ^ 64
  | _ => 0

/-- Domains a channel's transfer touches: those of its source and its destination, and the spine. -/
def DmaSt.doms (x : DmaSt) : List Nat :=
  let one (host : Bool) (a : Nat) : List Nat := if host then [] else ((nocTgt a).bind tgtDom).toList
  Dom.spine :: (one x.srcHost x.src ++ one x.dstHost x.dst)

/-- A request of a channel: `part` 0 the descriptor, 1 its status, 2 the appended unit, 8 + 2 × burst a read, one more a write. -/
def Dev.dmaSend (d : Dev) (k part : Nat) (op : NocOp) (host : Bool) (addr len : Nat) (wr : List Byte) (close : Bool) : Dev :=
  d.nocSend { who := .dma k part, src := Ep.dma (k / 32) (k % 32), op := op, addr := addr, host := host, len := len, wr := wr.map some,
              cls := 1, close := close }

/-- The engine chooses a read in the next CK. -/
def Dev.dmaKick (d : Dev) (k : Nat) : Dev := d.schedOnce 1 (.dmaReadIssue (halfOf (k / 32)))

/-- A channel's counters and status at the end of a descriptor (R418, Table 21-2). -/
def Dev.dmaEnded (d : Dev) (k st : Nat) : Dev :=
  let pg := Pg.dmach k
  let d := (d.setFld pg F.DMACH_LAST_STATUS_STATUS st).bump pg F.DMACH_DESC_CNT
  match st with
  | 1 => d.err pg 0 0x1501
  | 2 => d.err pg 1 0x1502
  | 3 => d.err pg 2 0x1503
  | 4 => d.err pg 3 0x1504
  | 5 => d.err pg 4 0x1505
  | 6 => d.err pg 4 0x1505
  | 7 => d.err pg 4 0x1505
  | 9 => d.err pg 5 0x1506
  | _ => d

/-- The channel stops: HALTED with its interrupt. -/
def Dev.dmaHalted (d : Dev) (k st : Nat) : Dev :=
  let d := (d.setDma k { d.dmaOf k with bursts := [], fin := none, abort := false, halt := none }).setDmaState k Dc.halted
  (d.dmaEnded k st).pend (Pg.dmach k) 1

/-- Bytes 48 to 63 are written, ENDED last (R418). -/
def Dev.dmaStatus (d : Dev) (k st : Nat) : Dev :=
  let x := d.dmaOf k
  let bs := leBytes 8 (if st = 1 ∨ st = 2 ∨ st = 3 then 0 else x.result) ++ leBytes 4 x.acked ++ [byteOf st 0, 1#8, 0#8, 0#8]
  (d.setDma k { x with fin := some st }).dmaSend k 1 .write x.host (x.addr + 48) 16 bs x.hint

/-- Fetch the descriptor at an address; one that is misaligned is refused (R412). -/
def Dev.dmaFetch (d : Dev) (k addr : Nat) (host : Bool) : Dev :=
  let d := (d.setDma k { addr := addr, host := host }).setDmaState k Dc.fetch
  if addr % 64 ≠ 0 then d.dmaStatus k 1 else d.dmaSend k 0 .read host addr 64 [] false

/-- What stops a transfer goes on or comes to its end (R416 to R420). -/
def Dev.dmaSettle (d : Dev) (k : Nat) : Dev :=
  let x := d.dmaOf k
  let st := d.dmaState k
  if x.fin.isSome ∨ (st ≠ Dc.run ∧ st ≠ Dc.pausing ∧ st ≠ Dc.paused) then d
  else if x.abort then
    if x.bursts.any (fun b => b.data.isNone || (b.issued && decide (0 < b.writes))) then d
    else (d.setDma k { x with bursts := [] }).dmaStatus k 8
  else match x.halt with
    | some (n, cause) =>
      let keep := x.bursts.filter (fun b => decide (b.no < n) || b.data.isNone || (b.issued && decide (0 < b.writes)))
      let d := d.setDma k { x with bursts := keep }
      if keep ≠ [] then d else d.dmaStatus k cause
    | none =>
      if x.bursts ≠ [] then d
      else if x.len ≤ x.off ∧ x.desc ≠ [] ∧ st ≠ Dc.paused then
        if x.append then
          (d.setDma k { x with fin := some 0 }).dmaSend k 2 .write x.dstHost (x.dst + x.len) 64
            (leBytes 8 x.result ++ List.replicate 56 0#8) x.hint
        else d.dmaStatus k 0
      else if st = Dc.pausing then d.schedOnce 0 (.dmaPaused (chOp k))
      else d

/-- Does PAUSE or a power domain hold the channel (R419)? -/
def Dev.dmaHeld (d : Dev) (k : Nat) : Bool := d.flag (Pg.dmach k) F.DMACH_CTRL_PAUSE || d.flag (Pg.dmach k) F.DMACH_STAT_PWR

/-- A channel follows its holds: RUN to PAUSING, back to RUN. -/
def Dev.dmaFollow (d : Dev) (k : Nat) : Dev :=
  let st := d.dmaState k
  if st = Dc.run ∧ d.dmaHeld k then (d.setDmaState k Dc.pausing).dmaSettle k
  else if (st = Dc.pausing ∨ st = Dc.paused) ∧ ¬ d.dmaHeld k then ((d.setDmaState k Dc.run).dmaSettle k).dmaKick k
  else d

/-- STAT_PWR of a channel from the domains its transfer touches. -/
def Dev.dmaPower (d : Dev) (k : Nat) : Dev :=
  let st := d.dmaState k
  let busy := st = Dc.run ∨ st = Dc.pausing ∨ st = Dc.paused
  let pwr := decide busy && (d.dmaOf k).doms.any (fun m => !d.domOpen m)
  (d.setFld (Pg.dmach k) F.DMACH_STAT_PWR (b01 pwr)).dmaFollow k

/-- A domain's state has changed (R435, R437). -/
def Dev.dmaDomains (d : Dev) : Dev := (d.dmas.map (fun (e : Nat × DmaSt) => e.1)).foldl (fun (d : Dev) k => d.dmaPower k) d

/-- Does a first and a last byte lie in one range of Table 19-2? -/
def oneRange (host : Bool) (a n : Nat) : Bool := if host then decide (a + n ≤ 2 ^ 64) else (decodeReq a n).isSome

/-- What a descriptor is refused for (R412). -/
def DmaSt.refusals (x : DmaSt) : List Nat :=
  let srcRegs := !x.srcHost && (match nocTgt x.src with | some (.regs _) => true | _ => false)
  let dstBad := !x.dstHost && (match nocTgt x.dst with | some (.regs _) => true | some (.flash _) => true | some (.cap _) => true | _ => false)
  (if x.src % 64 ≠ 0 ∨ x.dst % 64 ≠ 0 ∨ x.len % 64 ≠ 0 then [1] else [])
  ++ (if x.len = 0 ∨ ¬ oneRange x.srcHost x.src x.len ∨ ¬ oneRange x.dstHost x.dst (x.len + (if bit x.ctl 2 then 64 else 0)) ∨ srcRegs ∨ dstBad
      then [2] else [])
  ++ (if x.chk = 3 ∨ x.num 21 1 ≠ 0 ∨ x.num 32 16 ≠ 0 ∨ x.num 61 1 / 2 ≠ 0 ∨ x.num 62 2 ≠ 0 then [3] else [])

/-- Take a response of a channel's request: its status, bytes, poison; none where the request is not known. -/
def Dev.dmaTake (d : Dev) (id : Nat) (host : Option (List Byte)) : Option (Dev × NocReq × Nat × List Byte × Bool) :=
  (sfind d.nocReqs id).map (fun r =>
    let d : Dev := { d with nocReqs := serase d.nocReqs id, agenda := agendaDrop (.pcieCompletionTimeout id) d.agenda }
    let readHost := r.host && r.op = .read
    let status := if readHost ∧ host.isNone then Ns.error else r.status
    let data := if readHost then ((host.getD []) ++ List.replicate r.len 0#8).take r.len else r.data
    (d, r, status, data, decide (r.bad ≠ [])))

/-- A retryable response within its limit is retried (R415): what is left to do, or none where it has been put off. -/
def Dev.dmaRetryable (d : Dev) (k id part status : Nat) (r : NocReq) : Dev × Bool :=
  let x := d.dmaOf k
  let n := sget 0 x.retries part
  if retryable status ∧ n < 16 then
    let d := ((d.setDma k { x with retries := sset 0 x.retries part (n + 1) }).bump (Pg.dmach k) F.DMACH_RETRY_CNT).setReq id
      { r with ph := .done }
    (d.sched 256 (.dmaRetry (chOp k) id), true)
  else (d, false)

/-- DMA_RETRY: the request goes out again. -/
def Dev.dmaRetry (d : Dev) (id : Nat) : Dev :=
  match sfind d.nocReqs id with
  | some r => ({ d with nocReqs := serase d.nocReqs id } : Dev).nocSend { r with ph := .source, status := 0, data := [], bad := [], tx := 0 }
  | none => d

/-- DMA_DESC_FETCH: the descriptor has come. -/
def Dev.dmaDescFetch (d : Dev) (k id : Nat) (host : Option (List Byte)) : Dev :=
  match d.dmaTake id host with
  | none => d
  | some (d, r, status, data, bad) =>
    match d.dmaRetryable k id 0 status r with
    | (d, true) => d
    | (d, false) =>
      let x := d.dmaOf k
      if d.dmaState k ≠ Dc.fetch then d
      else if status ≠ Ns.ok ∨ bad then d.dmaHalted k 9
      else
        let y : DmaSt := { x with desc := data, acked := 0, off := 0, no := 0, check := 0, retries := [] }
        if y.abort then ((d.setDma k y).setDmaState k Dc.run).dmaSettle k
        else match y.refusals with
          | c :: cs => (d.setDma k y).dmaStatus k (cs.foldl min c)
          | [] =>
            let pg := Pg.dmach k
            let y := { y with check := if y.chk = 1 then 0xFFFFFFFF else 0 }
            let d := (((d.setDma k y).setReg64 pg 0x10C y.src).setReg64 pg 0x114 y.dst).setFld pg F.DMACH_REMAIN y.len
            ((((d.setReg64 pg 0x120 y.result).setDmaState k Dc.run).dmaPower k).dmaFollow k).dmaKick k

/-- Is the channel ready for a read (R414)? -/
def Dev.dmaReady (d : Dev) (k : Nat) : Bool :=
  let x := d.dmaOf k
  d.dmaState k = Dc.run && decide (x.flying < 8) && decide (x.off < x.len) && x.halt = none && !x.abort

/-- The next channel of a level in turn. -/
def turnNext (l : List Nat) (after : Nat) : Option Nat :=
  match l.filter (fun k => decide (after ≤ k)) with
  | k :: _ => some k
  | [] => l.head?

/-- The channel R414 chooses among the ready ones, and whether it starved. -/
def Dev.dmaChoose (d : Dev) (h : Nat) (ready : List Nat) : Option (Nat × Bool) :=
  match ready.find? (fun k => decide (64 ≤ (d.dmaOf k).passed)) with
  | some k => some (k, true)
  | none =>
    let prio (k : Nat) : Nat := d.fld (Pg.dmach k) F.DMACH_CTRL_PRIO
    let top := (ready.map prio).foldl max 0
    (turnNext (ready.filter (fun k => prio k = top)) (sget 0 d.dmaTurn (h * 4 + top))).map (fun k => (k, false))

/-- DMA_READ_ISSUE: one burst read of the chosen channel (R413, R414). -/
def Dev.dmaReadIssue (d : Dev) (h : Nat) : Dev :=
  let chans := (List.range 32).map (fun i => 32 * h + i)
  let ready := chans.filter d.dmaReady
  let flying := (chans.map (fun k => (d.dmaOf k).flying)).sum
  if 32 ≤ flying then d
  else match d.dmaChoose h ready with
    | none => d
    | some (k, starved) =>
      let d := if starved then d.bump (Pg.dma h) F.DMA_STARVE_CNT
        else { d with dmaTurn := sset 0 d.dmaTurn (h * 4 + d.fld (Pg.dmach k) F.DMACH_CTRL_PRIO) (k + 1) }
      let d := chans.foldl (fun (d : Dev) j =>
        let x := d.dmaOf j
        let n := if j ≠ k ∧ ready.contains j then x.passed + 1 else 0
        if n = x.passed then d else d.setDma j { x with passed := n }) d
      let x := d.dmaOf k
      let a := x.src + x.off
      let len := min (2048 - a % 2048) (x.len - x.off)
      let d := d.setDma k { x with off := x.off + len, no := x.no + 1, bursts := x.bursts ++ [{ no := x.no, off := x.off, len := len }] }
      let d := (d.setReg64 (Pg.dmach k) 0x10C (a + len)).dmaSend k (8 + 2 * x.no) .read x.srcHost a len [] x.hint
      if ready.length = 1 ∧ ¬ d.dmaReady k then d else d.dmaKick k

/-- A halt takes effect at a burst; an earlier one stands (R417). -/
def DmaSt.haltAt (x : DmaSt) (n cause : Nat) : DmaSt :=
  match x.halt with
  | some (m, _) => if n < m then { x with halt := some (n, cause) } else x
  | none => { x with halt := some (n, cause) }

/-- DMA_READ_DATA: a burst's data, or the halt it causes. -/
def Dev.dmaReadData (d : Dev) (k id : Nat) (host : Option (List Byte)) : Dev :=
  match d.dmaTake id host with
  | none => d
  | some (d, r, status, data, bad) =>
    let part := match r.who with | .dma _ p => p | _ => 0
    match d.dmaRetryable k id part status r with
    | (d, true) => d
    | (d, false) =>
      let n := (part - 8) / 2
      let x := d.dmaOf k
      let cause := if retryable status then some 7 else if status ≠ Ns.ok then some 5 else if bad then some 4 else none
      let x := { x with bursts := x.bursts.map (fun b => if b.no = n then { b with data := some data } else b) }
      let x := match cause with | some c => x.haltAt n c | none => x
      (((d.setDma k x).schedOnce 0 (.dmaBurstWrite (chOp k))).dmaSettle k).dmaKick k

/-- The pieces of a write, none crossing 2 KiB (R413). -/
def writePieces : Nat → Nat → List Byte → List (Nat × List Byte)
  | 0, _, _ => []
  | _, _, [] => []
  | fuel + 1, a, l =>
    let n := 2048 - a % 2048
    (a, l.take n) :: writePieces fuel (a + n) (l.drop n)

/-- DMA_BURST_WRITE: the oldest burst, once its data has come and the burst before it is acknowledged. -/
def Dev.dmaBurstWrite (d : Dev) (k : Nat) : Dev :=
  let x := d.dmaOf k
  match x.bursts with
  | b :: rest =>
    let stopped := x.abort || (match x.halt with | some (n, _) => decide (n ≤ b.no) | none => false)
    match b.data with
    | some data =>
      if b.issued ∨ stopped then d
      else
        let ps := writePieces 3 (x.dst + b.off) data
        let d := d.setDma k { x with bursts := { b with issued := true, writes := ps.length } :: rest }
        ps.foldl (fun (d : Dev) p => d.dmaSend k (9 + 2 * b.no) .write x.dstHost p.1 p.2.length p.2 x.hint) d
    | none => d
  | [] => d

/-- A write of a burst is acknowledged: with the last the burst is done (R416). -/
def Dev.dmaBurstAck (d : Dev) (k n : Nat) : Dev :=
  let x := d.dmaOf k
  match x.bursts.find? (fun b => b.no = n) with
  | none => d
  | some b =>
    if 1 < b.writes then d.setDma k { x with bursts := x.bursts.map (fun c => if c.no = n then { c with writes := c.writes - 1 } else c) }
    else
      let good : Bool := match x.halt with | some (m, _) => decide (n < m) | none => true
      let x := { x with bursts := x.bursts.filter (fun c => c.no ≠ n) }
      if ¬ good then (d.setDma k x).dmaSettle k
      else
        let x := { x with acked := x.acked + b.len, check := checkStep x.chk x.check (b.data.getD []) }
        let pg := Pg.dmach k
        let d := ((d.setDma k x).setReg64 pg 0x114 (x.dst + x.acked)).setFld pg F.DMACH_REMAIN (x.len - x.acked)
        let d := (d.setReg64 pg 0x120 x.result).count64 (Pg.dma (k / 32)) 0x108 b.len
        (d.schedOnce 0 (.dmaBurstWrite (chOp k))).dmaSettle k

/-- DMA_WRITE_ACK: data, the appended unit, or the descriptor's status. -/
def Dev.dmaWriteAck (d : Dev) (k id : Nat) : Dev :=
  match d.dmaTake id none with
  | none => d
  | some (d, r, status, _, _) =>
    let part := match r.who with | .dma _ p => p | _ => 0
    match d.dmaRetryable k id part status r with
    | (d, true) => d
    | (d, false) =>
      let x := d.dmaOf k
      let cause := if retryable status then 7 else 6
      if part = 1 then
        if status = Ns.ok then d.schedOnce 0 (.dmaDescEnd (chOp k)) else d.dmaHalted k 9
      else if part = 2 then d.dmaStatus k (if status = Ns.ok then 0 else cause)
      else
        let n := (part - 8) / 2
        (if status = Ns.ok then d else d.setDma k (x.haltAt n cause)).dmaBurstAck k n

/-- DMA_DESC_END (R418). -/
def Dev.dmaDescEnd (d : Dev) (k : Nat) : Dev :=
  let x := d.dmaOf k
  match x.fin with
  | none => d
  | some 0 =>
    let d := d.dmaEnded k 0
    let d := if bit x.ctl 5 then d.pend (Pg.dmach k) 0 else d
    if bit x.ctl 6 then d.dmaFetch k x.nextAddr x.host
    else ((d.setDma k { x with fin := none }).setFld (Pg.dmach k) F.DMACH_STAT_PWR 0).setDmaState k Dc.done
  | some st => (d.setFld (Pg.dmach k) F.DMACH_STAT_PWR 0).dmaHalted k st

/-- DMA_PAUSED (R419). -/
def Dev.dmaPaused (d : Dev) (k : Nat) : Dev :=
  let x := d.dmaOf k
  if d.dmaState k = Dc.pausing ∧ x.bursts = [] ∧ x.halt = none ∧ ¬ x.abort ∧ x.fin = none then
    (d.setDmaState k Dc.paused).pend (Pg.dmach k) 2
  else d

/-- The channel may take GO and new descriptor registers (R420). -/
def Dev.dmaFree (d : Dev) (k : Nat) : Bool :=
  let st := d.dmaState k
  st = Dc.idle || st = Dc.done || st = Dc.halted

/-- ABORT (R420): a channel that runs nothing has nothing to abort. -/
def Dev.dmaAbortNow (d : Dev) (k : Nat) : Dev :=
  if d.dmaFree k then d else (d.setDma k { d.dmaOf k with abort := true }).dmaSettle k

/-- A write to DMACHn_CTRL (R412, R419, R420). -/
def Dev.dmaCtrlWrite (d : Dev) (k : Nat) (val : Word) : Dev :=
  let pg := Pg.dmach k
  let v := val.toNat
  let d := match regDesc .dmach 0x008 with
    | some r => d.plainWrite pg k r 0x008 (val &&& 0xFFFFFFFA#32) 0
    | none => d
  let d := if bit v 2 then d.dmaAbortNow k
    else if bit v 0 then
      if d.dmaFree k then d.dmaFetch k (d.reg64 pg 0x100) (d.flag pg F.DMACH_DESC_CFG_HOST) else d.err pg 6 0x1507
    else d
  d.dmaFollow k

/-- DMA_GO, DMA_PAUSE and DMA_ABORT are writes to DMACHn_CTRL. -/
def Dev.dmaGo (d : Dev) (k : Nat) (val : Word) : Dev := d.dmaCtrlWrite k (val ||| 1#32)
def Dev.dmaPause (d : Dev) (k : Nat) (val : Word) : Dev := d.dmaCtrlWrite k (val &&& 0xFFFFFFFA#32)
def Dev.dmaAbort (d : Dev) (k : Nat) (val : Word) : Dev := d.dmaCtrlWrite k (val ||| 4#32)

/-- A write to DESC or DESC_CFG (R420). -/
def Dev.dmaDescWrite (d : Dev) (k off : Nat) (val : Word) : Dev :=
  if ¬ d.dmaFree k then d.err (Pg.dmach k) 6 0x1507
  else match regDesc .dmach off with
    | some r => d.plainWrite (Pg.dmach k) k r off val 0
    | none => d

/-- Entry to BLANK aborts every channel (R420). -/
def Dev.dmaAbortAll (d : Dev) : Dev := (d.dmas.map (fun (e : Nat × DmaSt) => e.1)).foldl (fun (d : Dev) k => d.dmaAbortNow k) d

/-! The commands. -/

/-- DMA_GO (R412). -/
def execDmaGo (k : Fin 64) (val : Word) (s : State) : Host.Outcome State Fault Refusal :=
  s.cmd (fun d => d.dmaGo k.val val)

/-- DMA_PAUSE (R419). -/
def execDmaPause (k : Fin 64) (val : Word) (s : State) : Host.Outcome State Fault Refusal :=
  s.cmd (fun d => d.dmaPause k.val val)

/-- DMA_ABORT (R420). -/
def execDmaAbort (k : Fin 64) (val : Word) (s : State) : Host.Outcome State Fault Refusal :=
  s.cmd (fun d => d.dmaAbort k.val val)

/-- DMA_DESC_FETCH (R412). -/
def execDmaDescFetch (k : Fin 64) (id : Nat) (host : Option (List Byte)) (s : State) : Host.Outcome State Fault Refusal :=
  s.run (.dmaDescFetch k id host) (fun d => d.dmaDescFetch k.val id host)

/-- DMA_READ_ISSUE (R414). -/
def execDmaReadIssue (h : Half) (s : State) : Host.Outcome State Fault Refusal :=
  s.run (.dmaReadIssue h) (fun d => d.dmaReadIssue h.val)

/-- DMA_READ_DATA (R417). -/
def execDmaReadData (k : Fin 64) (id : Nat) (host : Option (List Byte)) (s : State) : Host.Outcome State Fault Refusal :=
  s.run (.dmaReadData k id host) (fun d => d.dmaReadData k.val id host)

/-- DMA_BURST_WRITE (R413). -/
def execDmaBurstWrite (k : Fin 64) (s : State) : Host.Outcome State Fault Refusal :=
  s.run (.dmaBurstWrite k) (fun d => d.dmaBurstWrite k.val)

/-- DMA_WRITE_ACK (R417). -/
def execDmaWriteAck (k : Fin 64) (id : Nat) (s : State) : Host.Outcome State Fault Refusal :=
  s.run (.dmaWriteAck k id) (fun d => d.dmaWriteAck k.val id)

/-- DMA_RETRY (R415). -/
def execDmaRetry (k : Fin 64) (id : Nat) (s : State) : Host.Outcome State Fault Refusal :=
  s.run (.dmaRetry k id) (fun d => d.dmaRetry id)

/-- DMA_DESC_END (R418). -/
def execDmaDescEnd (k : Fin 64) (s : State) : Host.Outcome State Fault Refusal :=
  s.run (.dmaDescEnd k) (fun d => d.dmaDescEnd k.val)

/-- DMA_PAUSED (R419). -/
def execDmaPaused (k : Fin 64) (s : State) : Host.Outcome State Fault Refusal :=
  s.run (.dmaPaused k) (fun d => d.dmaPaused k.val)

end Sys2Proof.Machine
end

