-- ==== Sys2Proof/Machine/EngIns.lean ====
section
/-! DEFINITION. Which engine an instruction is for, and the agenda entry by which the engine's next instruction waits to issue. -/

namespace Sys2Proof.Machine

/-- The engine that an instruction, or the trap taken in its place, is for; 192 to 195 are the Gecko cores. -/
def insTarget : Instr → Option Nat
  | .add e .. | .sub e .. | .aluAnd e .. | .aluOr e .. | .aluXor e .. | .aluAndn e .. | .sll e .. | .srl e .. | .sra e ..
  | .rol e .. | .ror e .. | .mul e .. | .mulhu e .. | .sel e .. | .clz e .. | .popc e .. | .bswap e .. | .addi e ..
  | .andi e .. | .ori e .. | .xori e .. | .shiSll e .. | .shiSrl e .. | .shiSra e .. | .shiRol e .. | .lsi e .. | .ext e ..
  | .exts e .. | .ins e .. | .cmpEqm e .. | .cmpNem e .. | .cmpEq e .. | .cmpNe e .. | .cmpLtu e .. | .cmpGeu e ..
  | .cmpLt e .. | .cmpGe e .. | .cmpiEq e .. | .cmpiNe e .. | .cmpiLtu e .. | .cmpiGeu e .. | .predAnd e .. | .predOr e ..
  | .predXor e .. | .predAndn e .. | .predSet e .. | .predClr e .. | .clmulLo e .. | .clmulHi e .. | .br e .. | .jal e ..
  | .jr e .. | .ld8u e .. | .ld16u e .. | .ld32u e .. | .ld64 e .. | .ld8s e .. | .ld16s e .. | .ld32s e .. | .st8 e ..
  | .st16 e .. | .st32 e .. | .st64 e .. | .lr e .. | .sc e .. | .fence e .. | .fenceW e .. | .pop e .. | .peek e ..
  | .pushCur e .. | .pushSp e .. | .emit e .. | .trap e .. | .csrr e .. | .csrw e .. | .csrs e .. | .csrc e .. | .eret e ..
  | .wfi e .. | .ecall e .. | .engineTrap e .. => some e.val
  | .geckoException k _ _ _ => some (192 + k.val)
  | .interruptTaken k => some (192 + k.val)
  | _ => none

/-- An engine's instruction that waits on the agenda is dropped: another takes its place, or none. -/
def Dev.dropFetch (d : Dev) (e : Nat) : Dev :=
  { d with agenda := d.agenda.filter (fun (x : Nat × Instr) => decide (insTarget x.2 ≠ some e)) }

/-- An engine or core as an operand. -/
def tgtOp (e : Nat) : Fin 196 := if h : e < 196 then ⟨e, h⟩ else 0
def gkOp (k : Nat) : Fin 4 := if h : k < 4 then ⟨k, h⟩ else 0

/-- The state of a target in its own encoding (Tables 7-2, 20-7). -/
def Dev.tgtState (d : Dev) (e : Nat) : Nat :=
  if e < 192 then d.engState e else d.fld (Pg.gecko (e - 192)) F.GECKO_STAT_STATE

/-! Gecko core states (Table 20-7). -/

namespace Gs
def reset : Nat := 0
def run : Nat := 1
def wfi : Nat := 2
def stopped : Nat := 3
def monitor : Nat := 4
end Gs

/-- Is the target in MONITOR (R422)? -/
def Dev.inMonitor (d : Dev) (e : Nat) : Bool := d.tgtState e = (if e < 192 then Es.monitor else Gs.monitor)

end Sys2Proof.Machine
end

