-- ==== Sys2Proof/Machine/DbgBase.lean ====
section
/-! DEFINITION. What running targets need of debug: break and watch ranges, the detection of a stop (R423, R428, R429). -/

namespace Sys2Proof.Machine

def Dev.dbgOf (d : Dev) (t : Nat) : DbgSt := sget {} d.dbgs t
def Dev.setDbg (d : Dev) (t : Nat) (x : DbgSt) : Dev := { d with dbgs := sset {} d.dbgs t x }

/-- A register of the DBG page that acts on a target (R431). -/
def Dev.treg (d : Dev) (t off : Nat) : Word := sget 0#32 (d.dbgOf t).regs off
def Dev.setTreg (d : Dev) (t off : Nat) (v : Word) : Dev :=
  d.setDbg t { d.dbgOf t with regs := sset 0#32 (d.dbgOf t).regs off v }

/-- A field of it. -/
def Dev.tfld (d : Dev) (t : Nat) (f : Fld) : Nat := bitsOf (d.treg t f.off).toNat f.lo f.wd
def Dev.setTfld (d : Dev) (t : Nat) (f : Fld) (v : Nat) : Dev :=
  d.setTreg t f.off (BitVec.ofNat 32 (bitsPut (d.treg t f.off).toNat f.lo f.wd v))
def Dev.tflag (d : Dev) (t : Nat) (f : Fld) : Bool := decide (d.tfld t f = 1)

/-- Bounds of a range. -/
def Dev.rngBase (d : Dev) (t k : Nat) : Nat := d.tfld t (F.DBG_RNG_BASE_LO k) + 2 ^ 32 * d.tfld t (F.DBG_RNG_BASE_HI k)
def Dev.rngLimit (d : Dev) (t k : Nat) : Nat := d.tfld t (F.DBG_RNG_LIMIT_LO k) + 2 ^ 32 * d.tfld t (F.DBG_RNG_LIMIT_HI k)

/-- Does the context of a range match (R428)? -/
def Dev.ctxOk (d : Dev) (t k : Nat) : Bool :=
  let v := d.tfld t (F.DBG_RNG_CTX_VALUE k)
  if ¬ d.tflag t (F.DBG_RNG_CTRL_CTX_EN k) then true
  else if t < 192 then
    d.flag (Pg.newt t) F.NEWT_CUR_FLOW_VALID && d.fld (Pg.newt t) F.NEWT_CUR_FLOW_FLOW = bitsOf v 0 12
  else (sget 0#64 (sget ({} : GkSt) d.gks (t - 192)).csr 0x00A).toNat % 2 ^ 16 = v

/-- Does range `k` hit what spans `lo` to `hi` (R428, R429)? -/
def Dev.rngHit (d : Dev) (t k lo hi : Nat) : Bool :=
  d.tflag t (F.DBG_RNG_CTRL_EN k) && decide (d.rngBase t k ≤ hi) && decide (lo ≤ d.rngLimit t k) && d.ctxOk t k
    && (!d.tflag t (F.DBG_RNG_CTRL_LINK_EN k) || d.tflag t (F.DBG_RNG_CTRL_ARMED k))

/-- The effects of hits that do not stop, and the first range that does (R429). -/
def Dev.rngEffects (d : Dev) (t : Nat) (hits : List Nat) : Dev × Option Nat :=
  let d := hits.foldl (fun (d : Dev) k =>
    if d.tflag t (F.DBG_RNG_CTRL_LINK_EN k) then d.setTfld t (F.DBG_RNG_CTRL_ARMED k) 0 else d) d
  let arms := hits.filter (fun k => d.tflag t (F.DBG_RNG_CTRL_ACT k))
  let d := arms.foldl (fun (d : Dev) k => (List.range 12).foldl (fun (d : Dev) j =>
    if d.tflag t (F.DBG_RNG_CTRL_LINK_EN j) ∧ d.tfld t (F.DBG_RNG_CTRL_LINK_SRC j) = k then
      d.setTfld t (F.DBG_RNG_CTRL_ARMED j) 1 else d) d) d
  (d, hits.find? (fun k => !d.tflag t (F.DBG_RNG_CTRL_ACT k)))

/-- A cause of entry to MONITOR is detected: 4 CK later the target enters; of causes of one CK the lowest stands (R423). Nothing
issues meanwhile. -/
def Dev.detectStop (d : Dev) (t cause idx : Nat) : Dev :=
  let x := d.dbgOf t
  let d := d.dropFetch t
  let d := d.setEng t { d.engOf t with held := none }
  match x.stop with
  | none => d.setDbg t { x with stop := some (cause, idx, 0, d.ck + 4) }
  | some (c, _, _, due) => if due = d.ck + 4 ∧ cause < c then d.setDbg t { x with stop := some (cause, idx, 0, due) } else d

/-- The instruction at an index is next to issue: ranges 0 to 7 (R428). The answer tells whether it stops. -/
def Dev.insRanges (d : Dev) (t idx : Nat) : Dev × Bool :=
  if (d.dbgOf t).regs = [] then (d, false)
  else if (d.dbgOf t).skip then (d.setDbg t { d.dbgOf t with skip := false }, false)
  else
    let hits := (List.range 8).filter (fun k => d.rngHit t k idx idx)
    match d.rngEffects t hits with
    | (d, some k) => (d.detectStop t 2 k, true)
    | (d, none) => (d, false)

/-- A load or store completes: ranges 8 to 11 (R428). -/
def Dev.dataRanges (d : Dev) (t addr size : Nat) (load store : Bool) : Dev :=
  if (d.dbgOf t).regs = [] then d
  else
    let hits := [8, 9, 10, 11].filter (fun k => d.rngHit t k addr (addr + size - 1)
      && ((load && d.tflag t (F.DBG_RNG_CTRL_R k)) || (store && d.tflag t (F.DBG_RNG_CTRL_W k))))
    match d.rngEffects t hits with
    | (d, some k) => d.detectStop t 3 k
    | (d, none) => d

end Sys2Proof.Machine
end

