-- ==== Sys2Proof/Machine/GkBase.lean ====
section
/-! DEFINITION. A Gecko core's control registers, protection regions, interrupt sources, address map, caches (R176 to R181, R385 to
R392, R483). -/

namespace Sys2Proof.Machine

def Dev.gkOf (d : Dev) (k : Nat) : GkSt := sget {} d.gks k
def Dev.setGk (d : Dev) (k : Nat) (x : GkSt) : Dev := { d with gks := sset {} d.gks k x }

/-- A store waits for the fill of its line (R387). -/
def GkSt.missed (x : GkSt) : Bool := x.loads.any (fun l => l.st.isSome)

/-! Control registers (Table 8-7). -/

/-- The reset value of a control register: STATUS has PRV and PPRV at K. -/
def csrReset (num : Nat) : BitVec 64 := if num = 0 then 0xC#64 else 0#64

/-- A stored control register, and a field of it. -/
def Dev.csr (d : Dev) (k num : Nat) : BitVec 64 := sget (csrReset num) (d.gkOf k).csr num
def Dev.setCsr (d : Dev) (k num : Nat) (v : BitVec 64) : Dev :=
  d.setGk k { d.gkOf k with csr := sset (csrReset num) (d.gkOf k).csr num v }
def Dev.csrBit (d : Dev) (k num b : Nat) : Bool := (d.csr k num).getLsbD b
def Dev.setCsrBit (d : Dev) (k num b : Nat) (v : Bool) : Dev :=
  d.setCsr k num (BitVec.ofNat 64 (bitsPut (d.csr k num).toNat b 1 (b01 v)))

/-- A complex's control registers by name (R178). -/
inductive Csr where
  | status | epc | cause | badaddr | tvec | ie | ip | taskid | cycle | lp | lpfrac | core
  deriving DecidableEq, Repr

/-- Their numbers: the trap registers from 0x000, the interrupt ones from 0x008, the counters from 0x010. -/
def Csr.num (c : Csr) : Nat := let i := c.ctorIdx
  if i < 5 then i else if i < 8 then i + 3 else i + 8

/-- Fields of STATUS. -/
def Dev.gkIE (d : Dev) (k : Nat) : Bool := d.csrBit k Csr.status.num 0
def Dev.gkPriv (d : Dev) (k : Nat) : Bool := d.csrBit k Csr.status.num 2
def Dev.gkEXL (d : Dev) (k : Nat) : Bool := d.csrBit k Csr.status.num 4

/-- CYCLE: CK since the core's reset. -/
def Dev.gkCycle (d : Dev) (k : Nat) : Nat := d.ck - (d.gkOf k).bornCk

/-! Interrupt sources (Table 20-2, R483). -/

/-- A page line as it stood `n` CK ago. -/
def Dev.lineAgo (d : Dev) (pg n : Nat) : Bool :=
  match d.lineLog.find? (fun (e : Nat × Nat × Bool) => e.2.1 = pg && decide (d.ck < e.1 + n)) with
  | some e => e.2.2
  | none => d.line pg

/-- Pages routed to a source of a core: GROUP is the source and CORES names the core (R483). -/
def Dev.routedPages (d : Dev) (k g : Nat) : List Nat :=
  (d.regs.filter (fun (e : Nat × Word) => e.1 % 4096 = 0x044 && bitsOf e.2.toNat F.IRQ_ROUTE_GROUP.lo 5 = g
    && bit (bitsOf e.2.toNat F.IRQ_ROUTE_CORES.lo 4) k)).map (fun (e : Nat × Word) => e.1 / 4096)

/-- IP of a core. -/
def Dev.gkIp (d : Dev) (k : Nat) : Nat :=
  let own := (d.gkOf k).srcs.foldl (fun x s => x ||| 2 ^ s) 0
  let timer := if (d.fld (Pg.gecko k) F.GECKO_TIMER_CMP_LO + 2 ^ 32 * d.fld (Pg.gecko k) F.GECKO_TIMER_CMP_HI) ≤ d.gkCycle k then 2 else 0
  let groups := (List.range 24).foldl (fun x i =>
    if (d.routedPages k (8 + i)).any (fun pg => d.lineAgo pg (if pageHalf pg = k / 2 then 2 else 6)) then x ||| 2 ^ (8 + i) else x) 0
  own ||| timer ||| groups

/-- A source of its own is raised in a core (R392). -/
def Dev.gkRaise (d : Dev) (k s : Nat) : Dev :=
  let x := d.gkOf k
  if x.srcs.contains s then d else d.setGk k { x with srcs := s :: x.srcs }
def Dev.gkClear (d : Dev) (k s : Nat) : Dev :=
  let x := d.gkOf k
  d.setGk k { x with srcs := x.srcs.filter (fun t => t ≠ s) }

/-- Sources both pending and enabled. -/
def Dev.gkWaiting (d : Dev) (k : Nat) : Nat := d.gkIp k &&& ((d.csr k Csr.ie.num).toNat % 2 ^ 32)

/-- The lowest takeable source (R180). -/
def Dev.gkTakeable (d : Dev) (k : Nat) : Option Nat :=
  if d.gkIE k ∧ ¬ d.gkEXL k then (setBits (d.gkWaiting k) 32).head? else none

/-! Protection regions (R179). -/

/-- Does the access pass? `bitNo` is 1 for R, 2 for W, 3 for X. -/
def Dev.prPasses (d : Dev) (k addr size bitNo : Nat) : Bool :=
  let at_ (r i : Nat) : Nat := (d.csr k (0x040 + 3 * r + i)).toNat
  let lo (r : Nat) : Nat := at_ r 0 / 4096 * 4096
  let hi (r : Nat) : Nat := at_ r 1 / 4096 * 4096 + 4095
  let priv := d.gkPriv k
  let checked (r : Nat) : Bool := bit (at_ r 2) 0 && (!priv || bit (at_ r 2) 4)
  match (List.range 16).find? (fun r => checked r && decide (lo r ≤ addr) && decide (addr ≤ hi r)) with
  | some r => decide (addr + size - 1 ≤ hi r) && bit (at_ r 2) bitNo
  | none => priv

/-! The address map and the cache windows (Table 20-1, R387). -/

/-- What a core's address names: its complex's SRAM (as a NoC byte address), the ROM, the NoC. -/
inductive GkTgt where
  | sram (a : Nat) | rom (off : Nat) | noc | hole
  deriving DecidableEq, Repr

def gkTgt (k a : Nat) : GkTgt :=
  if a < 0x8_0000 then .sram (Na.gecko + k / 2 * 2 ^ 32 + a)
  else if 0x10_0000 ≤ a ∧ a < 0x11_0000 then .rom (a - 0x10_0000)
  else if 2 ^ 32 ≤ a then .noc
  else .hole

/-- The attribute of a NoC address: 1 UNCACHED, 2 SHARED, 3 PRIVATE. -/
def Dev.cacheAttr (d : Dev) (k a : Nat) : Nat :=
  let pg := Pg.gecko k
  let never := (decide (Na.reg ≤ a) && decide (a < Na.regEnd)) || (decide (Na.port ≤ a) && decide (a < Na.portEnd)) || decide (Na.cap ≤ a)
  match (List.range 4).find? (fun w => d.fld pg (F.GECKO_CWIN_ATTR_ATTR w) ≠ 0
      && decide (d.fld pg (F.GECKO_CWIN_BASE w) ≤ a / 4096) && decide (a / 4096 ≤ d.fld pg (F.GECKO_CWIN_LIMIT w))) with
  | some w => if never then 1 else d.fld pg (F.GECKO_CWIN_ATTR_ATTR w)
  | none => 1

/-! Caches: 128 sets of 4 lines of 64 bytes, least recently used first out (R385). -/

def lineOf (a : Nat) : Nat := a / 64 * 64
def setOf (line : Nat) : Nat := line / 64 % 128

/-- The line of a cache, if held. -/
def cacheFind (c : List CLine) (line : Nat) : Option CLine := c.find? (fun x => x.line = line)

/-- The cache after a use or a change of a held line: it is the most recent. -/
def cacheUse (c : List CLine) (x : CLine) : List CLine := x :: c.filter (fun y => y.line ≠ x.line)

/-- The cache with a line put in, and the line its set gives up. -/
def cachePut (c : List CLine) (x : CLine) : List CLine × Option CLine :=
  let rest := c.filter (fun y => y.line ≠ x.line)
  let mine := rest.filter (fun y => setOf y.line = setOf x.line)
  if mine.length < 4 then (x :: rest, none)
  else match mine.getLast? with
    | some v => (x :: rest.filter (fun y => y.line ≠ v.line), some v)
    | none => (x :: rest, none)

/-- A core asks for a line through the NoC, once (R387). -/
def Dev.gkFill (d : Dev) (k line : Nat) (ins : Bool) : Dev :=
  let x := d.gkOf k
  if x.filling.contains (line, ins) then d
  else (d.setGk k { x with filling := (line, ins) :: x.filling }).nocSend
    { who := .fill k line ins, src := engEp (192 + k), op := .read, addr := line, len := 64, cls := 3 }

end Sys2Proof.Machine
end

