-- ==== Sys2Proof/Machine/EngDecode.lean ====
section
/-! DEFINITION. Decoding an engine's instruction word (R161, R162, Tables 8-1 to 8-5). A reserved encoding answers none. -/

namespace Sys2Proof.Machine

/-- A register number, a predicate number, a shift amount out of a word. -/
def wReg (w : Word) (lo : Nat) : Fin 32 := Fin.ofNat 32 (bitsOf w.toNat lo 5)
def wPred (w : Word) (lo : Nat) : Fin 8 := Fin.ofNat 8 (bitsOf w.toNat lo 3)
def wAmt (w : Word) (lo : Nat) : Fin 64 := Fin.ofNat 64 (bitsOf w.toNat lo 6)

/-- ALU (Table 8-3): s3 is 0 but for SEL, b is 0 for unary subops. -/
def decodeAlu (e : Fin 196) (w : Word) : Option Instr :=
  let n := w.toNat
  let d := wReg w 21
  let a := wReg w 16
  let b := wReg w 11
  let s3 := bitsOf n 6 5
  let plain (i : Instr) : Option Instr := if s3 = 0 then some i else none
  let unary (i : Instr) : Option Instr := if s3 = 0 ∧ bitsOf n 11 5 = 0 then some i else none
  match bitsOf n 0 6 with
  | 0x00 => plain (.add e d a b)
  | 0x01 => plain (.sub e d a b)
  | 0x02 => plain (.aluAnd e d a b)
  | 0x03 => plain (.aluOr e d a b)
  | 0x04 => plain (.aluXor e d a b)
  | 0x05 => plain (.aluAndn e d a b)
  | 0x06 => plain (.sll e d a b)
  | 0x07 => plain (.srl e d a b)
  | 0x08 => plain (.sra e d a b)
  | 0x09 => plain (.rol e d a b)
  | 0x0A => plain (.ror e d a b)
  | 0x0B => plain (.mul e d a b)
  | 0x0C => plain (.mulhu e d a b)
  | 0x0D => if s3 < 8 then some (.sel e d a b (wPred w 6)) else none
  | 0x0E => unary (.clz e d a)
  | 0x0F => unary (.popc e d a)
  | 0x10 => unary (.bswap e d a)
  | _ => none

/-- BF: OFF + LEN at most 64 (R162, R167). -/
def decodeBf (e : Fin 196) (w : Word) : Option Instr :=
  let n := w.toNat
  let d := wReg w 21
  let a := wReg w 16
  let off := wAmt w 10
  let len1 := wAmt w 4
  if 64 < off.val + len1.val + 1 then none
  else match bitsOf n 0 4 with
    | 0 => some (.ext e d a off len1)
    | 1 => some (.exts e d a off len1)
    | 2 => some (.ins e d a off len1)
    | _ => none

/-- CMP: mode 0b11 and other conditions are reserved; s3 is 0 unless EQM or NEM (R168). -/
def decodeCmp (e : Fin 196) (w : Word) : Option Instr :=
  let n := w.toNat
  let m : BitVec 2 := BitVec.ofNat 2 (bitsOf n 24 2)
  let pd := wPred w 21
  let a := wReg w 16
  let b := wReg w 11
  let plain (i : Instr) : Option Instr := if bitsOf n 6 5 = 0 then some i else none
  if m = 3#2 then none
  else match bitsOf n 0 6 with
    | 0 => some (.cmpEqm e pd m a b (wReg w 6))
    | 1 => some (.cmpNem e pd m a b (wReg w 6))
    | 2 => plain (.cmpEq e pd m a b)
    | 3 => plain (.cmpNe e pd m a b)
    | 4 => plain (.cmpLtu e pd m a b)
    | 5 => plain (.cmpGeu e pd m a b)
    | 6 => plain (.cmpLt e pd m a b)
    | 7 => plain (.cmpGe e pd m a b)
    | _ => none

/-- PRED: mode, a [20:19], b [15:14] and s3 are 0; SET and CLR have pa and pb 0 (R168). -/
def decodePred (e : Fin 196) (w : Word) : Option Instr :=
  let n := w.toNat
  let pd := wPred w 21
  let pa := wPred w 16
  let pb := wPred w 11
  let none2 := bitsOf n 16 3 = 0 ∧ bitsOf n 11 3 = 0
  if bitsOf n 24 2 ≠ 0 ∨ bitsOf n 19 2 ≠ 0 ∨ bitsOf n 14 2 ≠ 0 ∨ bitsOf n 6 5 ≠ 0 then none
  else match bitsOf n 0 6 with
    | 0 => some (.predAnd e pd pa pb)
    | 1 => some (.predOr e pd pa pb)
    | 2 => some (.predXor e pd pa pb)
    | 3 => some (.predAndn e pd pa pb)
    | 4 => if none2 then some (.predSet e pd) else none
    | 5 => if none2 then some (.predClr e pd) else none
    | _ => none

/-- STRM, on a Newt engine (Table 8-5). -/
def decodeStrm (e : Fin 196) (w : Word) : Option Instr :=
  let n := w.toNat
  let dz := bitsOf n 21 5 = 0
  let abz := bitsOf n 16 5 = 0 ∧ bitsOf n 11 5 = 0
  let hi := bitsOf n 6 5
  let d := wReg w 21
  let a := wReg w 16
  let b := wReg w 11
  if 192 ≤ e.val then none
  else match bitsOf n 0 6 with
    | 0 => if dz ∧ abz ∧ hi = 0 then some (.pop e) else none
    | 1 => if abz ∧ hi = 0 then some (.peek e d) else none
    | 2 => if dz ∧ hi < 2 then some (.pushCur e a b (decide (hi = 1))) else none
    | 3 => if hi < 2 then some (.pushSp e d a b (decide (hi = 1)) 0) else none
    | 4 => if dz ∧ abz ∧ hi % 2 = 0 ∧ hi < 16 then some (.emit e (wPred w 7)) else none
    | _ => none

/-- CSR, on a Gecko core: the operation stands in the b field, the register in f; CSRR has a = 0 (R177). -/
def decodeCsr (e : Fin 196) (w : Word) : Option Instr :=
  let n := w.toNat
  let d := wReg w 21
  let a := wReg w 16
  let num : BitVec 11 := BitVec.ofNat 11 (bitsOf n 0 11)
  if e.val < 192 then none
  else match bitsOf n 11 5 with
    | 0 => if bitsOf n 16 5 = 0 then some (.csrr e d num) else none
    | 1 => some (.csrw e d a num)
    | 2 => some (.csrs e d a num)
    | 3 => some (.csrc e d a num)
    | _ => none

/-- SYS, on a Gecko core. -/
def decodeSys (e : Fin 196) (w : Word) : Option Instr :=
  let n := w.toNat
  if e.val < 192 ∨ bitsOf n 11 15 ≠ 0 then none
  else match bitsOf n 0 11 with
    | 0 => some (.eret e)
    | 1 => some (.wfi e)
    | 2 => some (.ecall e)
    | _ => none

/-- SHI: imm [15:8] is 0, [7:6] the operation, [5:0] the amount. -/
def decodeShi (e : Fin 196) (w : Word) : Option Instr :=
  let n := w.toNat
  let d := wReg w 21
  let a := wReg w 16
  let m := wAmt w 0
  if bitsOf n 8 8 ≠ 0 then none
  else match bitsOf n 6 2 with
    | 0 => some (.shiSll e d a m)
    | 1 => some (.shiSrl e d a m)
    | 2 => some (.shiSra e d a m)
    | _ => some (.shiRol e d a m)

/-- The instruction a word is to an engine (Table 8-2); none is a reserved encoding. -/
def decodeEng (e : Fin 196) (w : Word) : Option Instr :=
  let n := w.toNat
  let d := wReg w 21
  let a := wReg w 16
  let imm : BitVec 16 := BitVec.ofNat 16 (bitsOf n 0 16)
  let pd := wPred w 21
  match bitsOf n 26 6 with
  | 0x00 => decodeAlu e w
  | 0x01 => some (.addi e d a imm)
  | 0x02 => some (.andi e d a imm)
  | 0x03 => some (.ori e d a imm)
  | 0x04 => some (.xori e d a imm)
  | 0x05 => decodeShi e w
  | 0x06 => some (.lsi e d a imm)
  | 0x08 => decodeBf e w
  | 0x0A => decodeCmp e w
  | 0x0B => match bitsOf n 24 2 with
    | 0 => some (.cmpiEq e pd a imm)
    | 1 => some (.cmpiNe e pd a imm)
    | 2 => some (.cmpiLtu e pd a imm)
    | _ => some (.cmpiGeu e pd a imm)
  | 0x0C => decodePred e w
  | 0x10 => match bitsOf n 0 11 with
    | 0 => some (.clmulLo e d a (wReg w 11))
    | 1 => some (.clmulHi e d a (wReg w 11))
    | _ => none
  | 0x14 => if bitsOf n 25 1 = 0 ∧ bitsOf n 16 5 = 0 then some (.br e (bit n 24) pd imm) else none
  | 0x15 => if bitsOf n 16 5 = 0 then some (.jal e d imm) else none
  | 0x16 => some (.jr e d a imm)
  | 0x18 => some (.ld8u e d a imm 0)
  | 0x19 => some (.ld16u e d a imm 0)
  | 0x1A => some (.ld32u e d a imm 0)
  | 0x1B => some (.ld64 e d a imm 0)
  | 0x1C => some (.ld8s e d a imm 0)
  | 0x1D => some (.ld16s e d a imm 0)
  | 0x1E => some (.ld32s e d a imm 0)
  | 0x20 => some (.st8 e d a imm)
  | 0x21 => some (.st16 e d a imm)
  | 0x22 => some (.st32 e d a imm)
  | 0x23 => some (.st64 e d a imm)
  | 0x24 => some (.lr e d a imm 0)
  | 0x25 => if bitsOf n 0 11 = 0 then some (.sc e d a (wReg w 11)) else none
  | 0x26 => if bitsOf n 11 15 ≠ 0 then none
    else match bitsOf n 0 11 with
      | 0 => some (.fence e)
      | 1 => some (.fenceW e)
      | _ => none
  | 0x28 => decodeStrm e w
  | 0x2C => if bitsOf n 0 26 = 0 then some (.trap e) else none
  | 0x30 => decodeCsr e w
  | 0x31 => decodeSys e w
  | _ => none

end Sys2Proof.Machine
end

