-- ==== Sys2Proof/Machine/Flags.lean ====
section
/-! DEFINITION. The conditions of CMP and CMPI and how a condition combines into a predicate (R168). -/

namespace Sys2Proof.Machine

/-- The conditions that compare two registers (R168). -/
inductive Cond where
  | eq | ne | ltu | geu | lt | ge
  deriving DecidableEq, Repr

/-- Does the condition hold? LTU and GEU compare without a sign, LT and GE with one. -/
def Cond.holds (c : Cond) (x y : Word64) : Bool :=
  match c with
  | .eq => decide (x = y)
  | .ne => decide (x ≠ y)
  | .ltu => x.ult y
  | .geu => !x.ult y
  | .lt => x.slt y
  | .ge => !x.slt y

/-- EQM: equal in the bits of a mask; NEM is its negation. -/
def equalUnder (mask x y : Word64) : Bool := decide ((x ^^^ y) &&& mask = 0#64)

/-- The mode field combines a result with the predicate's old value; 0b11 is reserved. -/
def combine (mode : BitVec 2) (old c : Bool) : Option Bool :=
  match mode.toNat with
  | 0 => some c
  | 1 => some (old && c)
  | 2 => some (old || c)
  | _ => none

end Sys2Proof.Machine
end

