-- ==== Sys2Proof/Machine/Operands.lean ====
section
/-! DEFINITION. An engine's registers and predicates, immediates, and the arithmetic of Tables 8-2 and 8-3 (R160, R161, R166, R167,
R169). -/

namespace Sys2Proof.Machine

/-! Registers: n0 reads as 0 and discards writes (R160). -/

def EngSt.reg (g : EngSt) (r : Fin 32) : Word64 := if r = 0 then 0#64 else sget 0#64 g.n r.val
def EngSt.setReg (g : EngSt) (r : Fin 32) (v : Word64) : EngSt := if r = 0 then g else { g with n := sset 0#64 g.n r.val v }
def EngSt.pred (g : EngSt) (p : Fin 8) : Bool := g.p.getLsbD p.val
def EngSt.setPred (g : EngSt) (p : Fin 8) (v : Bool) : EngSt :=
  { g with p := if v then g.p ||| (1#8 <<< p.val) else g.p &&& ~~~(1#8 <<< p.val) }

/-- Register r and predicate p as the timing of results knows them. -/
def nReg (r : Fin 32) : Nat := r.val
def pReg (p : Fin 8) : Nat := 32 + p.val

/-- Immediates: sext(imm16), zext(imm16). -/
def sext16 (i : BitVec 16) : Word64 := i.signExtend 64
def zext16 (i : BitVec 16) : Word64 := i.zeroExtend 64

/-! ALU (Table 8-3). Shift amounts are b AND 63. -/

/-- The shifts and rotations. -/
inductive Shift where
  | sll | srl | sra | rol | ror
  deriving DecidableEq, Repr

def Shift.apply (k : Shift) (x amount : Word64) : Word64 :=
  let n := amount.toNat % 64
  match k with
  | .sll => x <<< n
  | .srl => x >>> n
  | .sra => x.sshiftRight n
  | .rol => x.rotateLeft n
  | .ror => x.rotateRight n

def aluMulhu (a b : Word64) : Word64 := BitVec.ofNat 64 (a.toNat * b.toNat / 2 ^ 64)
def aluClz (a : Word64) : Word64 := BitVec.ofNat 64 (((List.range 64).takeWhile (fun i => !a.getLsbD (63 - i))).length)
def aluPopc (a : Word64) : Word64 := BitVec.ofNat 64 (popc a.toNat 64)
def aluBswap (a : Word64) : Word64 := BitVec.ofNat 64 (leNat (leBytes 8 a.toNat).reverse)
def aluLsi (a : Word64) (i : BitVec 16) : Word64 := (a <<< 16) ||| zext16 i

/-! Bit fields (R167): `len1` is LEN − 1. -/

def bfExt (a : Word64) (off len1 : Nat) : Word64 := BitVec.ofNat 64 (bitsOf a.toNat off (len1 + 1))
def bfExts (a : Word64) (off len1 : Nat) : Word64 := BitVec.ofInt 64 (signed (len1 + 1) (bitsOf a.toNat off (len1 + 1)))
def bfIns (d a : Word64) (off len1 : Nat) : Word64 := BitVec.ofNat 64 (bitsPut d.toNat off (len1 + 1) a.toNat)

/-! Carry-less product (R169). -/

def clmul (a b : Word64) : Nat :=
  (List.range 64).foldl (fun x i => if b.getLsbD i then x ^^^ (a.toNat * 2 ^ i) else x) 0
def clmulLo (a b : Word64) : Word64 := BitVec.ofNat 64 (clmul a b)
def clmulHi (a b : Word64) : Word64 := BitVec.ofNat 64 (clmul a b / 2 ^ 64)

/-! Loads: the bytes read, zero- or sign-extended (Table 8-2). -/

def loadVal (size : Nat) (sx : Bool) (l : List Byte) : Word64 :=
  if sx then BitVec.ofInt 64 (signed (8 * size) (leNat l)) else BitVec.ofNat 64 (leNat l)

end Sys2Proof.Machine
end

