-- ==== Sys2Proof/Machine/Issue.lean ====
section
/-! DEFINITION. How engines fetch, issue and trap (R144, R145, R155, R156, R163, R164, R180, R181). An instruction command issues
in its CK where the rules let it; else the block raises it again when they do. -/

namespace Sys2Proof.Machine

/-- An instruction as issue sees it: slot, registers and predicates read and written (Table 8-4), whether R163 has it issue
alone. -/
structure Isu where
  mSlot : Bool := false
  /-- It takes no slot, so it is never the second of a pair (Table 8-4). -/
  noSlot : Bool := false
  reads : List Nat := []
  writes : List Nat := []
  alone : Bool := false
  /-- POP waits for the acknowledgement of every store (R171). -/
  afterStores : Bool := false
  deriving DecidableEq, Repr

/-- The same without n0, which is never awaited (R160). -/
def Isu.trim (x : Isu) : Isu := { x with reads := x.reads.filter (fun r => r ≠ 0), writes := x.writes.filter (fun r => r ≠ 0) }

/-- May the target issue instructions? A Newt engine that runs a task, a handler or start code, a core in RUN; after a stop also one
that is to retry the POP or WFI it waited in. -/
def Dev.mayIssue (d : Dev) (t : Nat) : Bool :=
  let st := d.tgtState t
  let again := !(d.engOf t).popWait
  (if t < 192 then (st = Es.run || st = Es.trap || (st = Es.wait && again) || (st = Es.stopping && again))
    else (st = Gs.run || (st = Gs.wfi && again)))
  && (d.dbgOf t).stop.isNone

/-! Waits (R164). -/

/-- The stores of an engine or core are all acknowledged, but for one whose time is known. -/
def Dev.storesOut (d : Dev) (t : Nat) : Bool :=
  let g := d.engOf t
  g.bayStores ≠ 0 || g.stores ≠ [] || (192 ≤ t && ((d.gkOf (t - 192)).wbuf ≠ [] || (d.gkOf (t - 192)).spill ≠ []
    || (d.gkOf (t - 192)).missed))

/-- Loads are outstanding whose time is not known. -/
def EngSt.loadsOut (g : EngSt) : Bool := g.n0Loads ≠ 0 || g.ready.any (fun (r : Nat × (Nat × Bool)) => r.2.1 = 0)

/-- The last known CK at which a load returns. -/
def EngSt.lastLoad (g : EngSt) : Nat := g.ready.foldl (fun m (r : Nat × (Nat × Bool)) => if r.2.2 then max m r.2.1 else m) 0

/-- The CK from which a fence is met: none while it is not known. -/
def Dev.fenceMet (d : Dev) (t : Nat) (storesOnly : Bool) : Option Nat :=
  let g := d.engOf t
  if d.storesOut t ∨ (¬ storesOnly ∧ g.loadsOut) then none
  else some (max g.stAck (if storesOnly then 0 else g.lastLoad))

/-- The first CK from which the M slot is free: none while a fence holds it (R164, R173). -/
def Dev.mSlotAt (d : Dev) (t : Nat) : Option Nat :=
  let g := d.engOf t
  match g.fence with
  | none => some g.mFree
  | some w => (d.fenceMet t w).map (fun c => max c g.mFree)

/-- What an instruction waits for: nothing; a CK, and the CK up to which memory is what it waits for (0 for none); memory whose time is
not known. -/
inductive Wait where
  | go | till (ck mem : Nat) | memory
  deriving DecidableEq, Repr

/-- The later of two waits; memory whose time is not known comes first. -/
def Wait.max (a b : Wait) : Wait :=
  match a, b with
  | .memory, _ => .memory
  | _, .memory => .memory
  | .go, x => x
  | x, .go => x
  | .till c m, .till c' m' => .till (Nat.max c c') (Nat.max m m')

/-- The wait for a register to hold its result; one only to be written waits for a load alone (R164). -/
def EngSt.regWait (g : EngSt) (now : Nat) (write : Bool) (r : Nat) : Wait :=
  match sfind g.ready r with
  | none => .go
  | some (c, m) =>
    if write ∧ ¬ m then .go
    else if c = 0 then .memory
    else if now < c then .till c (if m then c else 0)
    else .go

/-- The wait of an instruction. -/
def Dev.waitOf (d : Dev) (t : Nat) (x : Isu) : Wait :=
  let g := d.engOf t
  let slot : Wait := if ¬ x.mSlot then .go
    else match d.mSlotAt t with
      | none => .memory
      | some c => if d.ck < c then .till c c else .go
  let acks : Wait := if ¬ x.afterStores then .go
    else match d.fenceMet t true with
      | none => .memory
      | some c => if d.ck < c then .till c c else .go
  let slot := slot.max acks
  x.writes.foldl (fun w r => w.max (g.regWait d.ck true r)) (x.reads.foldl (fun w r => w.max (g.regWait d.ck false r)) slot)

/-- CKs an engine has waited on memory, up to the CK at hand. -/
def EngSt.stallCks (g : EngSt) (now : Nat) : Nat := if g.heldCk = 0 then 0 else now + 1 - g.heldCk

/-- CKs in which the engine waited on memory are counted (R164). -/
def Dev.countStall (d : Dev) (t n : Nat) : Dev := if t < 192 ∧ n ≠ 0 then d.bumpBy (Pg.newt t) F.NEWT_STALL_CNT n else d

/-- The engine waits no more; what it waited on memory is counted. -/
def Dev.settleStall (d : Dev) (t : Nat) : Dev :=
  (d.setEng t { d.engOf t with heldCk := 0, held := none }).countStall t ((d.engOf t).stallCks d.ck)

/-- The first CK not yet used for issue. -/
def EngSt.freeCk (g : EngSt) (now : Nat) : Nat := match g.first with | some p => if p.ck = now then now + 1 else now | none => now

/-- A wait on memory begins. -/
def Dev.startStall (d : Dev) (t : Nat) : Dev :=
  let g := d.engOf t
  if g.heldCk ≠ 0 then d else d.setEng t { g with heldCk := g.freeCk d.ck + 1 }

/-- The instruction that waits for memory tries again. -/
def Dev.wake (d : Dev) (t k : Nat) : Dev :=
  match (d.engOf t).held with
  | some i => (d.dropFetch t).sched k i
  | none => d

/-! Fetch. -/

/-- A word to be issued next: the instruction it decodes to, or the trap of a reserved encoding (R162), not before the CK the
engine may issue in. -/
def Dev.offerWord (d : Dev) (t : Nat) (w : Word) : Dev :=
  let g := d.engOf t
  let d := d.dropFetch t
  match decodeEng (tgtOp t) w with
  | some i => d.sched (g.nextCk - d.ck) i
  | none =>
    let k := max g.nextCk (g.freeCk d.ck) - d.ck
    if t < 192 then d.sched k (.engineTrap (engOp t) 2 false 0#64) else d.sched k (.geckoException (gkOp (t - 192)) 2 false 0#64)

/-- Word `pc` of an engine's instruction memory. -/
def Dev.imemWord (d : Dev) (e pc : Nat) : Word := sget 0#32 d.imem (e * 8192 + pc % 8192)

/-- A Gecko fetch trap waits in the fetched instruction's place. -/
def Dev.gkFetchTrap (d : Dev) (k cause addr : Nat) : Dev :=
  let g := d.engOf (192 + k)
  (d.dropFetch (192 + k)).sched (max g.nextCk (g.freeCk d.ck) - d.ck) (.geckoException (gkOp k) (Fin.ofNat 16 cause) false (BitVec.ofNat 64 addr))

/-- The engine fetches the instruction at its program counter (R137, R160, R385). A Gecko fetch from the NoC waits for the line or
the word. -/
def Dev.fetch (d : Dev) (t : Nat) : Dev :=
  if ¬ d.mayIssue t then d
  else
    let pc := (d.engOf t).pc
    if t < 192 then d.offerWord t (d.imemWord t pc)
    else
      let k := t - 192
      let a := pc * 4 % 2 ^ 64
      if gkTgt k a = .hole then d.gkFetchTrap k 4 a
      else if ¬ d.prPasses k a 4 3 then d.gkFetchTrap k 0xA a
      else match gkTgt k a with
        | .sram x => d.offerWord t (BitVec.ofNat 32 (leNat (d.bytes x 4)))
        | .rom o => d.offerWord t (BitVec.ofNat 32 (leNat ((List.range 4).map (fun i => Config.monitorRom (o + i)))))
        | .hole => d.gkFetchTrap k 4 a
        | .noc =>
          if d.cacheAttr k a = 1 then
            (d.dropFetch t).nocSend { who := .fetch k, src := engEp t, op := .read, addr := a, len := 4, cls := 3 }
          else match cacheFind (d.gkOf k).icache (lineOf a) with
            | some l => (d.setGk k { d.gkOf k with icache := cacheUse (d.gkOf k).icache l }).offerWord t
                (BitVec.ofNat 32 (leNat ((l.data.drop (a % 64)).take 4)))
            | none => (d.dropFetch t).gkFill k (lineOf a) true

/-! Exceptions (R155, R181, R426). -/

/-- The task of an engine ends: its window, its budget, what STAT shows. -/
def Dev.endTask (d : Dev) (e : Nat) : Dev :=
  let g := d.engOf e
  let d := d.setEng e { g with task := none, pushed := false, taskCk := 0, offCk := 0, offFrom := 0, poison := false, window := [] }
  let pg := Pg.newt e
  ((d.setFld pg F.NEWT_STAT_TASK 0).setFld pg F.NEWT_STAT_POISON 0).setFld pg F.NEWT_CUR_FLOW_VALID 0

/-- The record of a task that has not pushed is discarded (R149); the task ends; its flow may now be handed over or give its slot
back. -/
def Dev.closeTask (d : Dev) (e : Nat) : Dev :=
  match (d.engOf e).task with
  | none => d
  | some rid =>
    let h := engHalf e
    let f := d.fld (Pg.newt e) F.NEWT_CUR_FLOW_FLOW
    let pushed := (d.engOf e).pushed
    let d := d.endTask e
    let d := if pushed then d else (d.bump (Pg.newt e) F.NEWT_DISC_CNT).loseRec rid 3
    (d.boundaryCheck h f).slotCheck h f

/-- The reservation is cleared. -/
def Dev.dropResv (d : Dev) (t : Nat) : Dev := d.setEng t { d.engOf t with resv := none }

/-- A Newt engine enters its handler (R155): the first instruction 4 CK after the exception. -/
def Dev.enterTrap (d : Dev) (e : Nat) : Dev :=
  let g := d.engOf e
  let d := d.setEng e { g with inTrap := true, pc := d.fld (Pg.newt e) F.NEWT_TRAP_VEC_PC, nextCk := d.ck + 4,
                               offFrom := if g.offFrom = 0 then d.ck + 1 else g.offFrom }
  let d := if g.stopping then d else d.setEngState e Es.trap
  (d.pend (Pg.newt e) 0).fetch e

/-- An exception of a Newt engine (R155, Table 7-5): EPC, CAUSE and BADADDR, then the handler, or MONITOR where it is caught; in the
handler it halts the engine. -/
def Dev.newtTrap (d : Dev) (e cause : Nat) (retry : Bool) (addr : Nat) : Dev :=
  if ¬ d.mayIssue e then d
  else
    let pg := Pg.newt e
    let d := (d.dropFetch e).settleStall e
    let g := d.engOf e
    let d := d.setEng e { g with resv := none, storeErr := none, held := none }
    if g.inTrap then
      let d := ((d.setFld pg F.NEWT_CAUSE_NESTED 1).err pg 2 0x0703).pend pg 1
      let d := d.setEng e { d.engOf e with inTrap := false, stopping := false, popWait := false }
      (d.closeTask e).setEngState e Es.halted
    else
      let d := if cause = 1 then d.err pg 0 0x0701 else d.err pg 1 0x0702
      let d := d.setFld pg F.NEWT_EPC_PC g.pc
      let d := ((d.setFld pg F.NEWT_CAUSE_CODE cause).setFld pg F.NEWT_CAUSE_RETRY (b01 retry)).setFld pg F.NEWT_CAUSE_NESTED 0
      let d := d.setReg64 pg 0x114 addr
      if d.tflag e F.DBG_TGT_CFG_CATCH then (d.setDbg e { d.dbgOf e with caught := true }).detectStop e 1 0
      else d.enterTrap e

/-- A Gecko core enters its handler: the instruction at TVEC issues 4 CK after the exception (R181). -/
def Dev.enterHandler (d : Dev) (k : Nat) : Dev :=
  let t := 192 + k
  (d.setEng t { d.engOf t with pc := (d.csr k Csr.tvec.num).toNat % 2 ^ 62, nextCk := d.ck + 4 }).fetch t

/-- STATUS on entry: PPRV and PIE take PRV and IE, then K, interrupts off, EXL set (R181). -/
def statusEntry (s : BitVec 64) : BitVec 64 :=
  BitVec.ofNat 64 (4 + 16 + (if s.getLsbD 0 then 2 else 0) + (if s.getLsbD 2 then 8 else 0))

/-- STATUS after ERET: PRV and IE from PPRV and PIE, EXL clear (R181). -/
def statusReturn (s : BitVec 64) : BitVec 64 :=
  BitVec.ofNat 64 ((if s.getLsbD 1 then 1 + 2 else 0) + (if s.getLsbD 3 then 4 + 8 else 0))

/-- CAUSE as an exception writes it. -/
def causeWord (cause : Nat) (retry : Bool) (irq : Nat) : BitVec 64 := BitVec.ofNat 64 (cause % 16 + 16 * b01 retry + 2 ^ 8 * (irq % 32))

/-- A core stops (R181, R393): INT_PEND bit 0. -/
def Dev.gkStop (d : Dev) (k : Nat) : Dev :=
  let t := 192 + k
  let d := (d.dropFetch t).setEng t { d.engOf t with held := none, heldCk := 0 }
  ((d.setFld (Pg.gecko k) F.GECKO_STAT_STATE Gs.stopped).setDbg t { d.dbgOf t with stop := none, step := 0 }).pend (Pg.gecko k) 0

/-- An exception or interrupt of a Gecko core (R180, R181): saved state and TVEC, or MONITOR where an exception is caught; while EXL
is 1 it stops the core. -/
def Dev.gkTrap (d : Dev) (k cause : Nat) (retry : Bool) (addr irq : Nat) : Dev :=
  let t := 192 + k
  if ¬ d.mayIssue t then d
  else
    let pg := Pg.gecko k
    let d := (d.dropFetch t).settleStall t
    let g := d.engOf t
    let d := d.setEng t { g with resv := none, storeErr := none, held := none }
    let d := if cause = 1 then d.err pg 0 0x1401 else d
    if d.gkEXL k then ((d.setCsrBit k Csr.cause.num 5 true).err pg 1 0x1402).gkStop k
    else
      let d := d.setCsr k Csr.status.num (statusEntry (d.csr k Csr.status.num))
      let d := d.setCsr k Csr.epc.num (BitVec.ofNat 64 (g.pc % 2 ^ 62))
      let d := d.setCsr k Csr.cause.num (causeWord cause retry irq)
      let d := d.setCsr k Csr.badaddr.num (BitVec.ofNat 64 addr)
      if cause ≠ 0xC ∧ d.tflag t F.DBG_TGT_CFG_CATCH then (d.setDbg t { d.dbgOf t with caught := true }).detectStop t 1 0
      else d.enterHandler k

/-- An exception of a target. -/
def Dev.except (d : Dev) (t cause : Nat) (retry : Bool) (addr : Nat) : Dev :=
  if t < 192 then d.newtTrap t cause retry addr else d.gkTrap (t - 192) cause retry addr 0

/-! Issue (R163, R164). -/

/-- May the instruction issue in one CK after the first (R163)? -/
def pairs (p : IssueSt) (x : Isu) : Bool :=
  (p.aSlot = x.mSlot) && !p.alone && !x.noSlot && !(x.reads ++ x.writes).any (fun r => p.writes.contains r)

/-- Each CK in which an engine issues counts (R156). -/
def Dev.countIssue (d : Dev) (t : Nat) : Dev :=
  if t < 192 ∧ (d.engOf t).issueCk ≠ d.ck + 1 then
    let p := d.pluOf (engHalf t)
    (d.bump (Pg.newt t) F.NEWT_ISSUE_CNT).setPlu (engHalf t) { p with issue := sset 0 p.issue (t % 96) (sget 0 p.issue (t % 96) + 1) }
  else d

/-- Is the issue the first of a task? -/
def EngSt.begins (g : EngSt) : Bool := g.task.isSome && g.taskCk = 0

/-- The engine once an instruction has issued: the CK, the pair, the slots, the task's first CK (R156, R163). -/
def EngSt.issued (g : EngSt) (now : Nat) (x : Isu) : EngSt :=
  let second : Bool := match g.first with | some p => p.ck = now | none => false
  { g with
    issueCk := now + 1
    first := some (match g.first with
      | some p => if p.ck = now then p else ⟨now, !x.mSlot, x.writes, x.alone⟩
      | none => ⟨now, !x.mSlot, x.writes, x.alone⟩)
    nextCk := if second then max g.nextCk (now + 1) else g.nextCk
    mFree := if x.mSlot then max g.mFree (now + 1) else g.mFree
    fence := if x.mSlot then none else g.fence
    taskCk := if g.begins then now + 1 else g.taskCk }

/-- The budget of a task that begins runs from its first CK (R156). -/
def Dev.startBudget (d : Dev) (t : Nat) (begins : Bool) : Dev :=
  let limit := d.fld (Pg.newt t) F.NEWT_TASK_LIMIT
  if t < 192 ∧ begins ∧ limit ≠ 0 then d.sched limit (.taskLimitExpiry (engOp t)) else d

/-- A single step ends before the next issue (R422). -/
def Dev.noteStep (d : Dev) (t : Nat) : Dev :=
  if (d.dbgOf t).step = 1 then d.setDbg t { d.dbgOf t with step := d.ck + 2 } else d

/-- What an issue itself changes: counts, slots, the task's first CK, a step (R156, R163, R422). -/
def Dev.noteIssue (d : Dev) (t : Nat) (x : Isu) : Dev :=
  let d := d.countIssue t
  let g := d.engOf t
  ((d.setEng t (g.issued d.ck x)).startBudget t g.begins).noteStep t

/-- An instruction tries to issue in this CK; `f` is its effect. -/
def Dev.issue (d : Dev) (e : Fin 196) (i : Instr) (x : Isu) (f : Dev → Dev) : Dev :=
  let t := e.val
  let x := x.trim
  if ¬ d.mayIssue t then d
  else
    let d := d.dropFetch t
    let g := d.engOf t
    let paired : Bool := match g.first with
      | some p => p.ck ≠ d.ck || pairs p x
      | none => true
    if d.ck < g.nextCk then d.sched (g.nextCk - d.ck) i
    else if 2 ≤ (d.dbgOf t).step ∧ (d.dbgOf t).step - 2 < d.ck then (d.setDbg t { d.dbgOf t with step := 0 }).detectStop t 4 0
    else if 192 ≤ t ∧ (d.gkTakeable (t - 192)).isSome then d.sched 0 (.interruptTaken (gkOp (t - 192)))
    else match g.storeErr with
      | some (a, retry) => d.except t 5 retry a
      | none =>
        if ¬ paired then d.sched 1 i
        else match d.waitOf t x with
          | .memory => (d.startStall t).setEng t { (d.startStall t).engOf t with held := some i }
          | .till c m => if d.ck < m then (d.startStall t).sched (m - d.ck) i else (d.settleStall t).sched (c - d.ck) i
          | .go =>
            let d := d.settleStall t
            match d.insRanges t g.pc with
            | (d, true) => d
            | (d, false) => f (d.noteIssue t x)

/-- The program counter moves on to an index (R160). -/
def Dev.goTo (d : Dev) (t idx : Nat) : Dev :=
  d.setEng t { d.engOf t with pc := if t < 192 then idx % 8192 else idx % 2 ^ 62 }

/-- The instruction is done: the next one is fetched. -/
def Dev.next (d : Dev) (t : Nat) : Dev := (d.goTo t ((d.engOf t).pc + 1)).fetch t

/-- A taken branch: its target issues 2 CK later (Table 8-4). -/
def Dev.jump (d : Dev) (t idx : Nat) : Dev :=
  ((d.goTo t idx).setEng t { (d.goTo t idx).engOf t with nextCk := d.ck + 2 }).fetch t

/-- A result in a register, ready `k` CK later; of n0 only the time a load returns is kept (R170, R173). -/
def Dev.result (d : Dev) (t : Nat) (r : Fin 32) (v : Word64) (k : Nat) (mem : Bool) : Dev :=
  let g := d.engOf t
  if r = 0 ∧ ¬ mem then d
  else
    let was := if r = 0 then (match sfind g.ready 0 with | some x => x.1 | none => 0) else 0
    d.setEng t { g.setReg r v with ready := sput g.ready r.val (max was (d.ck + k), mem) }

/-- A result in a predicate. -/
def Dev.predResult (d : Dev) (t : Nat) (p : Fin 8) (v : Bool) (k : Nat) (mem : Bool) : Dev :=
  let g := d.engOf t
  d.setEng t { g.setPred p v with ready := sput g.ready (32 + p.val) (d.ck + k, mem) }

/-- A load's register awaits its value; loads to n0 are counted. -/
def Dev.await (d : Dev) (t : Nat) (r : Fin 32) : Dev :=
  let g := d.engOf t
  if r = 0 then d.setEng t { g with n0Loads := g.n0Loads + 1 } else d.setEng t { g with ready := sput g.ready r.val (0, true) }

/-- The register awaits its value no more. -/
def Dev.unawait (d : Dev) (t r : Nat) : Dev :=
  let g := d.engOf t
  if r = 0 then d.setEng t { g with n0Loads := g.n0Loads - 1 } else d.setEng t { g with ready := serase g.ready r }

/-- An awaited load has returned. -/
def Dev.loaded (d : Dev) (t r : Nat) (v : Word64) (k : Nat) : Dev := (d.unawait t r).result t (Fin.ofNat 32 r) v k true

/-- An A-slot instruction that writes one register: its value is computed from the registers as they stand (Table 8-4). -/
def Dev.alu (d : Dev) (e : Fin 196) (i : Instr) (dst : Fin 32) (reads : List Nat) (k : Nat) (v : EngSt → Word64) : Dev :=
  d.issue e i { reads := reads, writes := [nReg dst] } (fun d => (d.result e.val dst (v (d.engOf e.val)) k false).next e.val)

/-- An A-slot instruction that writes one predicate. -/
def Dev.predOp (d : Dev) (e : Fin 196) (i : Instr) (pd : Fin 8) (reads : List Nat) (v : EngSt → Bool) : Dev :=
  d.issue e i { reads := reads, writes := [pReg pd] } (fun d => (d.predResult e.val pd (v (d.engOf e.val)) 1 false).next e.val)

/-- An exception in place of an instruction of a Gecko core: a takeable interrupt is taken first, and the exception arises again when the
instruction reissues (R180). Of the causes only those of Tables 7-5 and 8-6 that a core can raise are recorded (R176). -/
def Dev.gkFault (d : Dev) (k cause : Nat) (retry : Bool) (addr : Nat) : Dev :=
  if ¬ [1, 2, 3, 4, 5, 8, 9, 0xA, 0xB].contains cause then d
  else match d.gkTakeable k with
    | some s => d.gkTrap k 0xC false 0 s
    | none => d.gkTrap k cause retry addr 0

/-- A reserved form of an instruction raises cause 0x2 as the engine decodes it (R162). -/
def Dev.reservedForm (d : Dev) (e : Fin 196) : Dev :=
  if e.val < 192 then d.newtTrap e.val 2 false 0 else d.gkFault (e.val - 192) 2 false 0

end Sys2Proof.Machine
end

