-- ==== Sys2Proof/Machine/EngMem.lean ====
section
/-! DEFINITION. Loads and stores of the engines: the Newt map of Table 7-1, bay banks, scratchpad banks, remote accesses; a Gecko
core's SRAM, caches and write buffer (R137 to R140, R147, R150, R157, R170 to R173, R385 to R391). -/

namespace Sys2Proof.Machine

/-! What a poisoned or bad word does (R150, R391). -/

/-- A load of a Newt engine returned uncorrectable data: the task is poisoned; a Gecko core raises source 0. -/
def Dev.poisonLoad (d : Dev) (t : Nat) : Dev :=
  if t < 192 then
    let d := (d.bump (Pg.newt t) F.NEWT_POISON_CNT).err (Pg.newt t) 5 0x0706
    if (d.engOf t).task.isSome then (d.setEng t { d.engOf t with poison := true }).setFld (Pg.newt t) F.NEWT_STAT_POISON 1 else d
  else (d.gkRaise (t - 192) 0).err (Pg.gecko (t - 192)) 3 0x1404

/-- A load reads a word of an on-chip memory: clean 0, corrected 1, uncorrectable 2. -/
def Dev.ocmLoad (d : Dev) (t cls ecc : Nat) : Dev :=
  let d := d.ocm cls ecc
  if ecc = 2 then d.poisonLoad t else d

/-! The Newt map (Table 7-1). -/

inductive NewtTgt where
  | scratch (off : Nat) | ctx (off : Nat) | window (off : Nat) | bay (off : Nat) | remote | hole
  deriving DecidableEq, Repr

def newtTgt (a : Nat) : NewtTgt :=
  if a < 0x2_0000 then .scratch a
  else if a < 0x2_0100 then .ctx (a - 0x2_0000)
  else if 0x3_0000 ≤ a ∧ a < 0x4_0000 then .window (a - 0x3_0000)
  else if 0x10_0000 ≤ a ∧ a < 0x50_0000 then .bay (a - 0x10_0000)
  else if 2 ^ 32 ≤ a then .remote
  else .hole

/-- Does the engine have a task? -/
def Dev.hasTask (d : Dev) (e : Nat) : Bool := (d.engOf e).task.isSome

/-- The first byte of the context slot of the task's flow (R139). -/
def Dev.taskSlot (d : Dev) (e : Nat) : Nat :=
  match sfind (d.engOf e).slots (d.fld (Pg.newt e) F.NEWT_CUR_FLOW_FLOW) with
  | some k => ctxAddr e k
  | none => ctxAddr e 0

/-- The engine uses a scratchpad bank in this CK (R138). -/
def Dev.touchBank (d : Dev) (e off : Nat) : Dev :=
  d.setEng e { d.engOf e with banks := sput (d.engOf e).banks (off / 0x8000) (d.ck + 1) }

/-- A store is acknowledged in the CK after it issues (R171). -/
def Dev.ackNext (d : Dev) (e : Nat) : Dev := d.setEng e { d.engOf e with stAck := max (d.engOf e).stAck (d.ck + 1) }

/-! Banks of bay memories (R140). -/

def bayKey (b off : Nat) : Nat := b * 16 + off / 8 % 16

/-- A request joins its bank; the bank arbitrates in the CK it first contends. -/
def Dev.bayAsk (d : Dev) (b : Nat) (r : BayReq) : Dev :=
  let k := bayKey b r.word
  let d : Dev := { d with bayQ := sset [] d.bayQ k (sget [] d.bayQ k ++ [r]) }
  d.schedOnce (r.due - d.ck) (.bayMemArbitrate (Fin.ofNat 12 b) (Fin.ofNat 16 (k % 16)) [] 0)

/-- The result of an SC (R172). -/
def scResult (ok : Bool) : Word64 := if ok then 0#64 else 1#64

/-- A request wins its bank: it reads or writes the word (R140, R171, R172). -/
def Dev.bayServe (d : Dev) (b : Nat) (r : BayReq) (ecc : Nat) : Dev :=
  let a := Na.bay b + r.word
  let bytes := d.bytes a 8
  let t := 16 * b + r.who
  let src := Ep.newt t
  let write (d : Dev) (l : List (Option Byte)) : Dev := (d.setSome a l).writtenSome a l
  let d := if r.who < 16 then d.setEng t { d.engOf t with bayCk := d.ck + 1 } else d
  if r.who < 16 then
    match r.load, r.sc, r.wr with
    | some (reg, at_, size, sx), _, _ =>
      let d := d.ocmLoad t Oc.bay ecc
      let d := d.loaded t reg (loadVal size sx ((bytes.drop at_).take size)) 5
      let d := if r.lr then (d.reserve (1000 + b) a src).setEng t { d.engOf t with resv := some a } else d
      d.wake t 5
    | none, some reg, some l =>
      let ok := (d.engOf t).resv = some a && d.reserved (1000 + b) a src
      let d := if ok then write d l else d
      let d := d.setEng t { d.engOf t with resv := none, bayStores := (d.engOf t).bayStores - 1, stAck := max (d.engOf t).stAck d.ck }
      (d.loaded t reg (scResult ok) 5).wake t 5
    | _, _, some l =>
      let d := write d l
      (d.setEng t { d.engOf t with bayStores := (d.engOf t).bayStores - 1, stAck := max (d.engOf t).stAck d.ck }).wake t 0
    | _, _, _ => d
  else if r.who < 20 then
    match r.wr with
    | some l => write d l
    | none => (d.ocm Oc.bay ecc).present (.bayMem b (r.who - 16)) (.data (leNat bytes))
  else match sfind d.nocReqs r.id with
    | none => d
    | some q =>
      let unit := (r.word - (q.addr - Na.bay b) / 32 * 32) / 32
      let d := if r.wr.isSome then d else d.ocm Oc.bay ecc
      let ok := q.op ≠ NocOp.writeCond ∨ d.reserved (1000 + b) a q.src
      let d := match r.wr with
        | some l => if ok then write d l else d
        | none => if q.op = NocOp.readRes then d.reserve (1000 + b) a q.src else d
      let status := if ok then q.status else Ns.condFail
      let data : List Byte := match r.wr with
        | some _ => q.data
        | none => (List.range q.len).map (fun i => let x := q.addr + i
            if a ≤ x ∧ x < a + 8 then byteAt bytes (x - a) else byteAt q.data i)
      let bad := if r.wr.isNone ∧ ecc = 2 ∧ ¬ q.bad.contains unit then unit :: q.bad else q.bad
      let d := d.setReq r.id { q with data := data, bad := bad, left := q.left - 1, status := status }
      if q.left = 1 then d.nocAnswer r.id (6 - ((q.addr % 32 + q.len + 31) / 32 - 1)) else d

/-- A bay access of an engine contends once every earlier one of the engine has been served, in an earlier CK (R171). -/
def Dev.bayTurn (d : Dev) (b : Nat) (r : BayReq) : Bool :=
  decide (16 ≤ r.who) || ((d.engOf (16 * b + r.who)).bayCk ≠ d.ck + 1
    && !d.bayQ.any (fun (x : Nat × List BayReq) => x.1 / 16 = b && x.2.any (fun q => q.who = r.who && decide (q.due < r.due))))

/-- The requester that wins a bank: the most starving, ties and others in the fixed order (R140). -/
def bayWinner (l : List BayReq) : Option BayReq :=
  let best (p : BayReq → BayReq → Bool) (l : List BayReq) : Option BayReq :=
    l.foldl (fun (b : Option BayReq) r => match b with
      | none => some r
      | some y => if p r y then some r else b) none
  match best (fun r y => decide (y.lost < r.lost) || (r.lost = y.lost && decide (r.who < y.who))) (l.filter (fun r => decide (8 ≤ r.lost))) with
  | some r => some r
  | none => best (fun r y => decide (r.who < y.who)) l

/-- The first request of each requester that contends in this CK. -/
def contenders (now : Nat) : List BayReq → List Nat → List BayReq
  | [], _ => []
  | r :: rest, seen =>
    if seen.contains r.who ∨ now < r.due then contenders now rest (if now < r.due then r.who :: seen else seen)
    else r :: contenders now rest (r.who :: seen)

/-- BAY_MEM_ARBITRATE (R140): the winner accesses the bank, the others lose the CK. Requests of the mortise ports come with it. -/
def Dev.bayArbitrate (d : Dev) (b bank : Nat) (ports : List PortAcc) (ecc : Nat) : Dev :=
  let key := b * 16 + bank
  let fresh := (ports.filter (fun p => p.word / 8 % 16 = bank)).map (fun p => ({ who := 16 + p.port.val, word := p.word / 8 * 8, wr := p.wr, due := d.ck } : BayReq))
  let q := sget [] d.bayQ key ++ fresh
  let cs := contenders d.ck (q.filter (fun r => d.bayTurn b r)) []
  match bayWinner cs with
  | none =>
    let d : Dev := { d with bayQ := sset [] d.bayQ key q }
    if q = [] then d else d.schedOnce 1 (.bayMemArbitrate (Fin.ofNat 12 b) (Fin.ofNat 16 bank) [] 0)
  | some w =>
    let pg := Pg.bay b
    let losers := cs.filter (fun r => r.who ≠ w.who)
    let rest := (q.erase w).map (fun (r : BayReq) => if losers.contains r then { r with lost := r.lost + 1 } else r)
    let d : Dev := { d with bayQ := sset [] d.bayQ key rest }
    let d := if losers = [] then d else d.bumpBy pg F.BAY_MEM_LOST_CNT losers.length
    let d := if 8 ≤ w.lost then d.bump pg F.BAY_MEM_STARVE_CNT else d
    let most := losers.foldl (fun m r => max m (r.lost + 1)) 0
    let d := if d.fld pg F.BAY_MEM_MAXWAIT_MAX < most then d.setFld pg F.BAY_MEM_MAXWAIT_MAX most else d
    let d := if rest = [] then d else d.schedOnce 1 (.bayMemArbitrate (Fin.ofNat 12 b) (Fin.ofNat 16 bank) [] 0)
    d.bayServe b w ecc

/-! Newt loads and stores. -/

/-- A load or LR of a Newt engine. -/
def Dev.newtLoad (d : Dev) (e : Nat) (reg : Fin 32) (size : Nat) (sx lr : Bool) (ecc addr : Nat) : Dev :=
  let done (d : Dev) : Dev := (d.dataRanges e addr size true false).next e
  if addr % size ≠ 0 then d.except e 3 false addr
  else match newtTgt addr with
    | .scratch off =>
      let d := (d.touchBank e off).ocmLoad e Oc.scratch ecc
      let d := d.result e reg (loadVal size sx (d.bytes (Na.sp e + off) size)) 2 true
      done (if lr then (d.reserve e (Na.sp e + off) (Ep.newt e)).setEng e { d.engOf e with resv := some (Na.sp e + off) } else d)
    | .ctx off =>
      if lr ∨ ¬ d.hasTask e then d.except e 4 false addr
      else
        let a := d.taskSlot e + off
        let bytes := (List.range size).map (fun i => sget 0#8 d.ctx (a + i))
        let d := if d.ctxBad.contains (a / 8) then d.poisonLoad e else d.ocmLoad e Oc.scratch ecc
        done (d.result e reg (loadVal size sx bytes) 2 true)
    | .window off =>
      if lr ∨ ¬ d.hasTask e then d.except e 4 false addr
      else
        let bytes := (List.range size).map (fun i => byteAt (d.engOf e).window (off + i))
        done ((d.ocmLoad e Oc.queue ecc).result e reg (loadVal size sx bytes) 4 true)
    | .bay off =>
      let r : BayReq := { who := e % 16, word := off / 8 * 8, load := some (reg.val, off % 8, size, sx), lr := lr, due := d.ck + 1 }
      done ((d.await e reg).bayAsk (e / 16) r)
    | .remote =>
      let q : NocReq := { who := .load e reg.val size sx, src := Ep.newt e, op := if lr then .readRes else .read, addr := addr,
                          len := size, cls := 2 }
      let d := if lr then d.setEng e { d.engOf e with resv := some addr } else d
      done ((d.await e reg).nocSend q)
    | .hole => d.except e 4 false addr

/-- The bytes of a word that a store enables. -/
def inWord (at_ : Nat) (l : List Byte) : List (Option Byte) :=
  (List.range 8).map (fun i => if at_ ≤ i ∧ i < at_ + l.length then some (byteAt l (i - at_)) else none)

/-- A store of a Newt engine. -/
def Dev.newtStore (d : Dev) (e size : Nat) (val : Word64) (addr : Nat) : Dev :=
  let done (d : Dev) : Dev := (d.dataRanges e addr size false true).next e
  let l := leBytes size val.toNat
  if addr % size ≠ 0 then d.except e 3 false addr
  else match newtTgt addr with
    | .scratch off =>
      let a := Na.sp e + off
      done ((((d.touchBank e off).setBytes a l).written a size).ackNext e)
    | .ctx off =>
      if ¬ d.hasTask e then d.except e 4 false addr
      else
        let a := d.taskSlot e + off
        let d : Dev := (l.zipIdx).foldl (fun (d : Dev) p => { d with ctx := sset 0#8 d.ctx (a + p.2) p.1 }) d
        let d : Dev := if size = 8 then { d with ctxBad := d.ctxBad.filter (fun w => w ≠ a / 8) } else d
        done (d.ackNext e)
    | .window _ => d.except e 4 false addr
    | .bay off =>
      let r : BayReq := { who := e % 16, word := off / 8 * 8, wr := some (inWord (off % 8) l), due := d.ck + 1 }
      done ((d.setEng e { d.engOf e with bayStores := (d.engOf e).bayStores + 1 }).bayAsk (e / 16) r)
    | .remote =>
      let id := d.nextNoc
      let d := d.nocSend { who := .store e, src := Ep.newt e, op := .write, addr := addr, len := size, wr := l.map some, cls := 2 }
      done (d.setEng e { d.engOf e with stores := (d.engOf e).stores ++ [id] })
    | .hole => d.except e 4 false addr

/-- SC of a Newt engine (R172). -/
def Dev.newtCond (d : Dev) (e : Nat) (reg : Fin 32) (val : Word64) (addr : Nat) : Dev :=
  let done (d : Dev) : Dev := (d.dataRanges e addr 8 false true).next e
  let l := leBytes 8 val.toNat
  if addr % 8 ≠ 0 then d.except e 3 false addr
  else match newtTgt addr with
    | .scratch off =>
      let a := Na.sp e + off
      let ok := (d.engOf e).resv = some a && d.reserved e a (Ep.newt e)
      let d := d.touchBank e off
      let d := if ok then ((d.setBytes a l).written a 8).ackNext e else d
      done ((d.dropResv e).result e reg (scResult ok) 2 true)
    | .bay off =>
      let r : BayReq := { who := e % 16, word := off, wr := some (l.map some), sc := some reg.val, due := d.ck + 1 }
      let d := d.setEng e { d.engOf e with bayStores := (d.engOf e).bayStores + 1 }
      done ((d.await e reg).bayAsk (e / 16) r)
    | .remote =>
      let held := decide ((d.engOf e).resv = some addr)
      let id := d.nextNoc
      let wr : List (Option Byte) := if held then l.map some else l.map (fun _ => none)
      let d := (d.dropResv e).nocSend { who := .cond e reg.val held, src := Ep.newt e, op := .writeCond, addr := addr, len := 8, wr := wr, cls := 2 }
      done ((d.await e reg).setEng e { (d.await e reg).engOf e with stores := (d.engOf e).stores ++ [id] })
    | _ => d.except e 4 false addr

/-! Scratchpads seen from outside (R138). -/

/-- Does the engine use a bank of its scratchpad in this CK, a PUSH.SP copy included? -/
def Dev.bankBusy (d : Dev) (e bank : Nat) : Bool :=
  let g := d.engOf e
  sget 0 g.banks bank = d.ck + 1
    || (match g.copy with
      | some (_, a, n, c) => decide ((d.ck - c) * 32 < n) && (a + (d.ck - c) * 32) / 0x8000 = bank
      | none => false)

/-- A write from outside changes what a PUSH.SP has still to copy (R174). -/
def Dev.patchCopy (d : Dev) (e off : Nat) (l : List (Option Byte)) : Dev :=
  match (d.engOf e).copy with
  | none => d
  | some (rid, a, n, c) =>
    match sfind d.recs rid with
    | none => d
    | some r => match r.emit with
      | none => d
      | some (p, fl) =>
        let p' := (p.zipIdx).map (fun (x : Byte × Nat) =>
          let at_ := a + x.2
          if x.2 < n ∧ d.ck ≤ c + x.2 / 32 ∧ off ≤ at_ ∧ at_ < off + l.length then (l.getD (at_ - off) none).getD x.1 else x.1)
        d.setRec rid { r with emit := some (p', fl) }

/-- A unit of a request is served by a bank. -/
def Dev.spServe (d : Dev) (e id unit ecc : Nat) : Dev :=
  match sfind d.nocReqs id with
  | none => d
  | some q =>
    let base := q.addr / 32 * 32 + 32 * unit
    let mine (x : Nat) : Bool := decide (base ≤ x) && decide (x < base + 32)
    let d := if q.op = .read ∨ q.op = .readRes then
        let data := (List.range q.len).map (fun i => if mine (q.addr + i) then d.byte (q.addr + i) else byteAt q.data i)
        let bad := if ecc = 2 then unit :: q.bad else q.bad
        let d := if q.op = .readRes then d.reserve e (q.addr / 8 * 8) q.src else d
        (d.ocm Oc.scratch ecc).setReq id { q with data := data, bad := bad, left := q.left - 1 }
      else if q.op = .writeCond ∧ ¬ d.reserved e (q.addr / 8 * 8) q.src then
        d.setReq id { q with left := q.left - 1, status := Ns.condFail }
      else
        let l := (q.wr.zipIdx).map (fun (p : Option Byte × Nat) => if mine (q.addr + p.2) then p.1 else none)
        let a := q.addr
        (((d.setSome a l).writtenSome a l).patchCopy e (a - Na.sp e) l).setReq id { q with left := q.left - 1 }
    if q.left = 1 then d.nocAnswer id 3 else d

/-- SCRATCHPAD_REQUEST (R138): the oldest request of a bank is served in a CK the engine leaves the bank idle. -/
def Dev.scratchpadRequest (d : Dev) (e bank ecc : Nat) : Dev :=
  let key := e * 4 + bank
  let ev : Instr := .scratchpadRequest (engOp e) (Fin.ofNat 4 bank) 0
  match sget [] d.spQ key with
  | [] => d
  | (x, _) :: rest =>
    if d.agenda.any (fun (a : Nat × Instr) => decide (a.1 ≤ d.ck) && decide (insTarget a.2 = some e)) then d.schedOnce 0 ev
    else if d.bankBusy e bank then d.schedOnce 1 ev
    else
      let d : Dev := { d with spQ := sset [] d.spQ key rest }
      let d := d.spServe e (x / 64) (x % 64) ecc
      if rest = [] then d else d.schedOnce 1 ev

/-- SCRATCHPAD_BUSY_TIMEOUT (R138): a request not served for 1,024 CK is answered busy. -/
def Dev.scratchpadTimeout (d : Dev) (id : Nat) : Dev :=
  match sfind d.nocReqs id with
  | none => d
  | some q =>
    if ¬ d.spQ.any (fun (x : Nat × List (Nat × Nat)) => x.2.any (fun (y : Nat × Nat) => y.1 / 64 = id)) then d
    else
      let e := (q.addr - Na.sp 0) / 0x2_0000
      let left := d.spQ.map (fun (x : Nat × List (Nat × Nat)) => (x.1, x.2.filter (fun (y : Nat × Nat) => y.1 / 64 ≠ id)))
      let d : Dev := { d with spQ := left.filter (fun (x : Nat × List (Nat × Nat)) => decide (x.2 ≠ [])) }
      ((d.bump (Pg.newt e) F.NEWT_SP_BUSY_CNT).err (Pg.newt e) 6 0x0707).nocFail id 0 Ns.busy

/-! Gecko loads and stores (R385 to R389). -/

/-- The write buffer and a victim's units that wait for it hold bytes of an access. -/
def GkSt.holdsBytes (x : GkSt) (a n : Nat) : Bool :=
  (x.wbuf ++ x.spill).any (fun (w : WEnt) => (w.bytes.zipIdx).any (fun (p : Option Byte × Nat) =>
    p.1.isSome && decide (a ≤ w.unit + p.2) && decide (w.unit + p.2 < a + n)))

/-- WBUF of a core's STAT. -/
def Dev.showWbuf (d : Dev) (k : Nat) : Dev := d.setFld (Pg.gecko k) F.GECKO_STAT_WBUF (d.gkOf k).wbuf.length

/-- The buffer's head begins to drain if nothing does (R388). -/
def Dev.kickDrain (d : Dev) (k : Nat) : Dev :=
  if (d.gkOf k).wbuf = [] then d else d.schedOnce 4 (.writeBufferDrain (gkOp k))

/-- May a store of a unit enter the buffer: it merges, or there is room? -/
def GkSt.takes (x : GkSt) (unit : Nat) : Bool := x.wbuf.any (fun w => w.unit = unit) || decide (x.wbuf.length < 8)

/-- Bytes enter the buffer, merging into the entry of their unit. -/
def Dev.bufferUnit (d : Dev) (k : Nat) (w : WEnt) : Dev :=
  let x := d.gkOf k
  let merge (o : WEnt) : WEnt := { o with
    bytes := (List.range 32).map (fun i => match w.bytes.getD i none with | some b => some b | none => o.bytes.getD i none)
    poison := o.poison || w.poison }
  let buf := if x.wbuf.any (fun o => o.unit = w.unit) then x.wbuf.map (fun o => if o.unit = w.unit then merge o else o)
    else x.wbuf ++ [w]
  ((d.setGk k { x with wbuf := buf }).showWbuf k).kickDrain k

/-- The entry of a store: its unit and the bytes it enables. -/
def storeEnt (a : Nat) (l : List Byte) : WEnt :=
  ⟨a / 32 * 32, (List.range 32).map (fun i => if a % 32 ≤ i ∧ i < a % 32 + l.length then some (byteAt l (i - a % 32)) else none), false⟩

/-- A line's two units as entries. -/
def lineEnts (x : CLine) (poison : Bool) : List WEnt :=
  [⟨x.line, (x.data.take 32).map some, poison⟩, ⟨x.line + 32, (x.data.drop 32).map some, poison⟩]

/-- Units wait for room in the buffer: as many as fit go in. -/
def Dev.pourSpill (d : Dev) (k : Nat) : Nat → Dev
  | 0 => d
  | n + 1 =>
    match (d.gkOf k).spill with
    | [] => d
    | w :: rest =>
      if (d.gkOf k).takes w.unit then
        ((d.setGk k { d.gkOf k with spill := rest }).bufferUnit k w).pourSpill k n
      else d

/-- A line is written back through the buffer. -/
def Dev.writeBackLine (d : Dev) (k : Nat) (x : CLine) (poison : Bool) : Dev :=
  (d.setGk k { d.gkOf k with spill := (d.gkOf k).spill ++ lineEnts x poison }).pourSpill k 2

/-- The data cache with a line put in; a dirty victim is written back. -/
def Dev.dcPut (d : Dev) (k : Nat) (x : CLine) : Dev :=
  let p := cachePut (d.gkOf k).dcache x
  let d := d.setGk k { d.gkOf k with dcache := p.1 }
  match p.2 with
  | some v => if v.dirty then d.writeBackLine k v false else d
  | none => d

/-- The line with bytes stored in it. -/
def CLine.store (x : CLine) (a : Nat) (l : List Byte) (dirty : Bool) : CLine :=
  { x with data := (x.data.zipIdx).map (fun (p : Byte × Nat) => let at_ := x.line + p.2
             if a ≤ at_ ∧ at_ < a + l.length then byteAt l (at_ - a) else p.1)
           dirty := x.dirty || dirty }

/-- An instruction waits for the buffer and tries again when an entry has drained (R388). -/
def Dev.holdFor (d : Dev) (t : Nat) (i : Instr) : Dev := d.setEng t { d.engOf t with held := some i }

/-- A load or LR of a Gecko core. -/
def Dev.gkLoad (d : Dev) (k : Nat) (i : Instr) (reg : Fin 32) (size : Nat) (sx lr : Bool) (ecc addr : Nat) : Dev :=
  let t := 192 + k
  let done (d : Dev) : Dev := (d.dataRanges t addr size true false).next t
  let val (l : List Byte) : Word64 := loadVal size sx l
  if addr % size ≠ 0 then d.except t 3 false addr
  else if gkTgt k addr = .hole then d.except t 4 false addr
  else if ¬ d.prPasses k addr size 1 then d.except t 0xA false addr
  else match gkTgt k addr with
    | .hole => d
    | .sram a =>
      let d := (d.ocmLoad t Oc.gecko ecc).result t reg (val (d.bytes a size)) 4 true
      done (if lr then d.setEng t { d.engOf t with resv := some a } else d)
    | .rom off => done ((d.result t reg (val ((List.range size).map (fun i => Config.monitorRom (off + i)))) 4 true).setEng t
        { (d.result t reg (val ((List.range size).map (fun i => Config.monitorRom (off + i)))) 4 true).engOf t with
          resv := if lr then some addr else (d.engOf t).resv })
    | .noc =>
      if (d.gkOf k).holdsBytes addr size then d.holdFor t i
      else if lr ∨ d.cacheAttr k addr = 1 then
        let d := if lr then d.setEng t { d.engOf t with resv := some addr } else d
        done ((d.await t reg).nocSend { who := .load t reg.val size sx, src := engEp t, op := if lr then .readRes else .read,
                                        addr := addr, len := size, cls := 3 })
      else
        let wait (d : Dev) : Dev := ((d.await t reg).setGk k { d.gkOf k with loads := (d.gkOf k).loads ++ [⟨reg.val, size, sx, addr, none⟩] }).gkFill k
          (lineOf addr) false
        match cacheFind (d.gkOf k).dcache (lineOf addr) with
        | none => done (wait d)
        | some x =>
          let bytes := (x.data.drop (addr % 64)).take size
          if ecc = 2 ∧ ¬ x.dirty then
            done (wait ((d.bump Pg.dev (F.DEV_OCM_CORR Oc.gecko)).setGk k
              { d.gkOf k with dcache := (d.gkOf k).dcache.filter (fun y => y.line ≠ x.line) }))
          else if ecc = 2 then
            let d := d.setGk k { d.gkOf k with dcache := (d.gkOf k).dcache.filter (fun y => y.line ≠ x.line) }
            done (((d.writeBackLine k x true).ocmLoad t Oc.gecko 2).result t reg (val bytes) 2 true)
          else
            let d := (d.ocm Oc.gecko ecc).setGk k { d.gkOf k with dcache := cacheUse (d.gkOf k).dcache x }
            done (d.result t reg (val bytes) 2 true)

/-- A store of a Gecko core. -/
def Dev.gkStore (d : Dev) (k : Nat) (i : Instr) (size : Nat) (v : Word64) (addr : Nat) : Dev :=
  let t := 192 + k
  let done (d : Dev) : Dev := (d.dataRanges t addr size false true).next t
  let l := leBytes size v.toNat
  let bad : Bool := match gkTgt k addr with
    | .hole => true
    | .rom _ => true
    | _ => false
  if addr % size ≠ 0 then d.except t 3 false addr
  else if bad then d.except t 4 false addr
  else if ¬ d.prPasses k addr size 2 then d.except t 0xA false addr
  else match gkTgt k addr with
    | .sram a => done ((d.setBytes a l).written a size)
    | _ =>
      let own (d : Dev) : Dev := match (d.engOf t).resv with
        | some g => if meets g addr size then d.dropResv t else d
        | none => d
      let attr := d.cacheAttr k addr
      let hit := cacheFind (d.gkOf k).dcache (lineOf addr)
      if attr = 3 then
        match hit with
        | some x => done (own (d.setGk k { d.gkOf k with dcache := cacheUse (d.gkOf k).dcache (x.store addr l true) }))
        | none => done (own ((d.setGk k { d.gkOf k with loads := (d.gkOf k).loads ++ [⟨0, size, false, addr, some l⟩] }).gkFill k
            (lineOf addr) false))
      else if ¬ (d.gkOf k).takes (addr / 32 * 32) ∨ (d.gkOf k).spill ≠ [] then d.holdFor t i
      else
        let d := match hit with
          | some x => if attr = 2 then d.setGk k { d.gkOf k with dcache := cacheUse (d.gkOf k).dcache (x.store addr l false) } else d
          | none => d
        done (own (d.bufferUnit k (storeEnt addr l)))

/-- SC of a Gecko core (R172, R386). -/
def Dev.gkCond (d : Dev) (k : Nat) (reg : Fin 32) (v : Word64) (addr : Nat) : Dev :=
  let t := 192 + k
  let done (d : Dev) : Dev := (d.dataRanges t addr 8 false true).next t
  let l := leBytes 8 v.toNat
  let bad : Bool := match gkTgt k addr with
    | .hole => true
    | .rom _ => true
    | _ => false
  if addr % 8 ≠ 0 then d.except t 3 false addr
  else if bad then d.except t 4 false addr
  else if ¬ d.prPasses k addr 8 2 then d.except t 0xA false addr
  else match gkTgt k addr with
    | .sram a =>
      let ok := decide ((d.engOf t).resv = some a)
      let d := if ok then (d.setBytes a l).written a 8 else d
      done ((d.dropResv t).result t reg (scResult ok) 4 true)
    | _ =>
      let held := decide ((d.engOf t).resv = some addr)
      let id := d.nextNoc
      let wr : List (Option Byte) := if held then l.map some else l.map (fun _ => none)
      let d := (d.dropResv t).nocSend { who := .cond t reg.val held, src := engEp t, op := .writeCond, addr := addr, len := 8, wr := wr, cls := 3 }
      let d := d.await t reg
      done (d.setEng t { d.engOf t with stores := (d.engOf t).stores ++ [id] })

/-- WRITE_BUFFER_DRAIN (R388): the oldest entry leaves the buffer as a NoC write. -/
def Dev.writeBufferDrain (d : Dev) (k : Nat) : Dev :=
  let t := 192 + k
  let x := d.gkOf k
  match x.wbuf with
  | [] => d
  | w :: rest =>
    let on := (List.range 32).filter (fun i => (w.bytes.getD i none).isSome)
    let lo := on.headD 0
    let hi := on.getLastD 0
    let id := d.nextNoc
    let d := (d.setGk k { x with wbuf := rest }).nocSend
      { who := .drain k, src := engEp t, op := .write, addr := w.unit + lo, len := hi + 1 - lo,
        wr := (w.bytes.drop lo).take (hi + 1 - lo), poison := w.poison, cls := 3 }
    let d := d.setEng t { d.engOf t with stores := (d.engOf t).stores ++ [id] }
    (((d.pourSpill k 16).showWbuf k).kickDrain k).wake t 0

/-- CACHE_LINE_FILL (R387, R391): a line has come; poisoned data is not allocated. Loads and stores that wait for it proceed in
order; the fetch of an instruction line goes on. -/
def Dev.cacheLineFill (d : Dev) (k line : Nat) (ins : Bool) : Dev :=
  let t := 192 + k
  match d.nocReqs.find? (fun (p : Nat × NocReq) => p.2.who = .fill k line ins && p.2.ph = .done) with
  | none => d
  | some (id, q) =>
    let x := d.gkOf k
    let d : Dev := { d with nocReqs := serase d.nocReqs id }
    let d := d.setGk k { x with filling := x.filling.filter (fun f => f ≠ (line, ins)) }
    if ins then
      if q.status ≠ Ns.ok then d.gkFetchTrap k 5 line
      else if q.bad ≠ [] then d.gkFetchTrap k 1 line
      else
        let p := cachePut (d.gkOf k).icache ⟨line, q.data, false⟩
        (d.setGk k { d.gkOf k with icache := p.1 }).fetch t
    else
      let mine := (d.gkOf k).loads.filter (fun l => lineOf l.addr = line)
      let d := d.setGk k { d.gkOf k with loads := (d.gkOf k).loads.filter (fun l => lineOf l.addr ≠ line) }
      if q.status ≠ Ns.ok then
        let d := mine.foldl (fun (d : Dev) l => if l.st.isSome then d else d.unawait t l.reg) d
        (d.setEng t { d.engOf t with storeErr := some ((mine.map (fun l => l.addr)).headD line, retryable q.status) }).wake t 0
      else
        let step (acc : Dev × CLine) (l : GLoad) : Dev × CLine :=
          match l.st with
          | some b => (acc.1, acc.2.store l.addr b true)
          | none =>
            let unit := l.addr % 64 / 32
            let d := if q.bad.contains unit then acc.1.poisonLoad t else acc.1
            (d.loaded t l.reg (loadVal l.size l.sext ((acc.2.data.drop (l.addr % 64)).take l.size)) 0, acc.2)
        let p := mine.foldl step (d, ⟨line, q.data, false⟩)
        let d := if q.bad = [] then p.1.dcPut k p.2 else if p.2.dirty then p.1.writeBackLine k p.2 true else p.1
        d.wake t 0

/-! Responses (R157, R171). -/

/-- REMOTE_RESPONSE: the response to a load, a store or an SC is used. -/
def Dev.remoteResponse (d : Dev) (t id : Nat) : Dev :=
  match sfind d.nocReqs id with
  | none => d
  | some q =>
    if q.ph ≠ .done then d
    else
      let d : Dev := { d with nocReqs := serase d.nocReqs id }
      let d := d.setEng t { d.engOf t with stores := (d.engOf t).stores.filter (fun x => x ≠ id) }
      let bad := q.status ≠ Ns.ok ∧ q.status ≠ Ns.condFail
      let fail (d : Dev) : Dev :=
        if (d.engOf t).storeErr.isSome then d else d.setEng t { d.engOf t with storeErr := some (q.addr, retryable q.status) }
      let d := match q.who with
        | .load _ reg size sx =>
          if bad then fail (d.unawait t reg)
          else
            let d := if q.bad ≠ [] then d.poisonLoad t else d
            d.loaded t reg (loadVal size sx q.data) 0
        | .cond _ reg held =>
          -- an SC without its reservation has failed, whatever the response is (R172)
          if bad ∧ held then fail (d.unawait t reg)
          else d.loaded t reg (scResult (held && q.status = Ns.ok)) 0
        | _ => if bad then fail d else d
      d.wake t 0

end Sys2Proof.Machine
end

