-- ==== Sys2Proof/Machine/Stream.lean ====
section
/-! DEFINITION. Tasks: POP and the offers that end it, PEEK, PUSH, EMIT; RUN, the task budget, instruction memory, the background
test (R142 to R151, R156, R158, R171, R174, R207, R308). -/

namespace Sys2Proof.Machine

/-- A task begins on a record (R146, R147): header words in n1 to n4, first instruction at the flow's ENTRY 3 CK later. -/
def Dev.startTask (d : Dev) (e rid : Nat) : Dev :=
  let r := d.recOf rid
  let b := r.body
  let win := headerBytes r b.1 b.2 ++ b.1
  let word (i : Nat) : Word64 := BitVec.ofNat 64 (leNat ((win.drop (8 * i)).take 8))
  let pg := Pg.newt e
  let g := d.engOf e
  let g := (((g.setReg 1 (word 0)).setReg 2 (word 1)).setReg 3 (word 2)).setReg 4 (word 3)
  let poisoned := bit r.flags 4 || r.poison
  let d := d.setEng e { g with
    task := some rid, pushed := false, taskCk := 0, offCk := 0, offFrom := 0, poison := poisoned, window := win, popWait := false
    inTrap := false, pc := d.flowFld (engHalf e) r.flow FL_ENTRY, nextCk := d.ck + 3
    ready := g.ready.filter (fun (x : Nat × (Nat × Bool)) => ¬ (1 ≤ x.1 ∧ x.1 ≤ 4)) }
  let d := (d.setRec rid { r with st := .taken }).bump pg F.NEWT_TAKEN_CNT
  let d := ((d.setFld pg F.NEWT_STAT_TASK 1).setFld pg F.NEWT_STAT_POISON (b01 poisoned)).setFld pg F.NEWT_CUR_FLOW_VALID 1
  let d := d.setFld pg F.NEWT_CUR_FLOW_FLOW r.flow
  (if d.engState e = Es.stopping then d else d.setEngState e Es.run).fetch e

/-- POP issues (R145, R146, R149, R155): the task ends, its record discarded if nothing was pushed; a stop takes effect; the next
record is taken, or the engine waits. -/
def Dev.pop (d : Dev) (e : Nat) : Dev :=
  let d := (d.dropResv e).closeTask e
  let g := d.engOf e
  if g.stopping then
    (d.setEng e { g with stopping := false, inTrap := false, popWait := false }).setEngState e Es.off
  else
    let d := d.setEng e { g with inTrap := false }
    match d.nextOffer e with
    | some (rid, _) => d.startTask e rid
    | none => (d.setEng e { d.engOf e with popWait := true }).setEngState e Es.wait

/-- RECORD_OFFER (R207): an engine whose POP waits takes the record it is offered. -/
def Dev.recordOffer (d : Dev) (e : Nat) : Dev :=
  if ¬ (d.engOf e).popWait ∨ d.engState e = Es.monitor then d
  else match d.nextOffer e with
    | some (rid, _) => d.startTask e rid
    | none => d

/-- PEEK (R146): header bytes 8 to 15 of the next offered record, p0 set; or 0 and p0 clear. -/
def Dev.peek (d : Dev) (e : Nat) (dst : Fin 32) : Dev :=
  let v : Word64 × Bool := match d.nextOffer e with
    | some (_, r) => (BitVec.ofNat 64 (leNat (((headerBytes r r.body.1 r.body.2).drop 8).take 8)), true)
    | none => (0#64, false)
  ((d.result e dst v.1 2 false).predResult e 0 v.2 2 false).next e

/-- A task emits its record (R148): it reaches the capture writer 4 CK later. -/
def Dev.push (d : Dev) (e : Nat) (payload : List Byte) (trunc : Bool) (tag : Nat) : Dev :=
  let g := d.engOf e
  match g.task with
  | none => d
  | some rid =>
    let r := d.recOf rid
    let fl := r.body.2
    let flags := bitsPut (bitsPut fl 1 1 (b01 (bit fl 1 || trunc))) 4 1 (b01 g.poison)
    let d := d.setRec rid { r with st := .emitted, emit := some (payload, flags), poison := g.poison, engine := e, tag := tag % 2 ^ 24,
                                   emitCk := d.ck + 4 }
    ((d.setEng e { g with pushed := true }).bump (Pg.newt e) F.NEWT_EMIT_CNT).sched 4 (.captureWrite (halfOf r.half) 0)

/-- PUSH.CUR: the first L bytes of the popped payload. -/
def Dev.pushCur (d : Dev) (e : Nat) (len : Nat) (tag : Nat) (trunc : Bool) : Dev :=
  let g := d.engOf e
  let popped := g.window.length - 32
  if g.task.isNone ∨ g.pushed ∨ popped < len then d.except e 7 false 0
  else (d.push e ((g.window.drop 32).take len) (trunc || decide (len < popped)) tag).next e

/-- PUSH.SP: L bytes of the scratchpad, copied at 32 bytes a CK; the M slot is held meanwhile (R174). The record reaches the capture
writer 4 CK after the PUSH (R148); as its CRC stands in its header it is written once the last CK's bytes have come 4 CK later (DESIGN
CHOICE, log entry 22). -/
def Dev.pushSp (d : Dev) (e : Nat) (addr len tag : Nat) (trunc : Bool) (ecc : Nat) : Dev :=
  let g := d.engOf e
  if g.task.isNone ∨ g.pushed ∨ 65504 < len ∨ addr % 32 ≠ 0 ∨ 0x2_0000 < addr + len then d.except e 7 false 0
  else
    let d := d.ocmLoad e Oc.scratch ecc
    let d := d.push e (d.bytes (Na.sp e + addr) len) trunc tag
    let g := d.engOf e
    let n := max 1 ((len + 31) / 32)
    let d := match g.task with
      | some rid => (d.setRec rid { d.recOf rid with copyCk := d.ck + n + 3 }).sched (n + 3) (.captureWrite (halfOf (engHalf e)) 0)
      | none => d
    (d.setEng e { g with mFree := max g.mFree (d.ck + n), copy := g.task.map (fun rid => (rid, addr, len, d.ck)) }).next e

/-- FENCE and FENCE.W (R173): the M slot is held until accesses have ended; on a Gecko core FENCE.W takes the drain's time. -/
def Dev.fenceOp (d : Dev) (t : Nat) (storesOnly : Bool) : Dev :=
  let g := d.engOf t
  let n := if t < 192 then 0 else (d.gkOf (t - 192)).wbuf.length + (d.gkOf (t - 192)).spill.length
  let g' : EngSt :=
    if 192 ≤ t ∧ storesOnly then
      { g with mFree := max g.mFree (d.ck + (if n = 0 ∧ g.stores = [] then 1 else 8 + 4 * n))
               fence := if (d.gkOf (t - 192)).missed then some true else g.fence }
    else match d.fenceMet t storesOnly with
      | some c => { g with mFree := max g.mFree (max c (d.ck + 1)) }
      | none => { g with fence := some storesOnly }
  (d.setEng t g').next t

/-! RUN (R145). -/

/-- The engine starts at START with every register 0 and no task. -/
def Dev.engineStart (d : Dev) (e : Nat) : Dev :=
  let g := d.engOf e
  let d := d.setEng e { slots := g.slots, pc := d.fld (Pg.newt e) F.NEWT_START_PC, nextCk := d.ck }
  (((d.setEngState e Es.run).setFld (Pg.newt e) F.NEWT_STAT_TASK 0).setFld (Pg.newt e) F.NEWT_CUR_FLOW_VALID 0).fetch e

/-- NEWT_RUN_WRITE: a write to NEWTn_CTRL. RUN 0 to 1 starts the engine where it is OFF or HALTED; RUN 1 to 0 takes effect at the
next POP, at once where no task runs to one. -/
def Dev.newtCtrlWrite (d : Dev) (e : Nat) (val : Word) : Dev :=
  let pg := Pg.newt e
  let was := d.flag pg F.NEWT_CTRL_RUN
  let run := bit val.toNat 0
  let d := match regDesc .newt 0x008 with
    | some r => d.plainWrite pg e r 0x008 val 0
    | none => d
  let st := d.engState e
  if run ∧ ¬ was then
    if st = Es.off ∨ st = Es.halted then (if d.started ∧ d.domOpen (Dom.bay (e / 16)) then d.engineStart e else d)
    else
      let g := d.engOf e
      let d := d.setEng e { g with stopping := false }
      if st = Es.stopping then d.setEngState e (if g.inTrap then Es.trap else Es.run) else d
  else if was ∧ ¬ run then
    let g := d.engOf e
    if st = Es.halted then d.setEngState e Es.off
    else if st = Es.wait then (d.setEng e { g with popWait := false }).setEngState e Es.off
    else if st = Es.run ∨ st = Es.trap then (d.setEng e { g with stopping := true }).setEngState e Es.stopping
    else if st = Es.monitor then d.setEng e { g with stopping := true }
    else d
  else d

/-- TASK_LIMIT_EXPIRY (R156): the budget does not count CKs in TRAP or MONITOR. -/
def Dev.taskLimitExpiry (d : Dev) (e : Nat) : Dev :=
  let g := d.engOf e
  let limit := d.fld (Pg.newt e) F.NEWT_TASK_LIMIT
  if g.task.isNone ∨ g.taskCk = 0 ∨ limit = 0 ∨ g.offFrom ≠ 0 then d
  else
    let spent := d.ck + 1 - g.taskCk - g.offCk
    if spent < limit then d.schedOnce (limit - spent) (.taskLimitExpiry (engOp e))
    else d.newtTrap e 6 false 0

/-! Instruction memory's window (R158). -/

/-- IMEM_DATA_ACCESS: a read or a write of the instruction at IDX, which moves on but for a PEEK read; a write while running is
refused. -/
def Dev.imemData (d : Dev) (e : Nat) (wr : Option Word) (peek : Bool) : Dev :=
  let pg := Pg.newt e
  let i := d.fld pg F.NEWT_IMEM_IDX_IDX
  let key := e * 8192 + i
  let step (d : Dev) : Dev := d.setFld pg F.NEWT_IMEM_IDX_IDX ((i + 1) % 8192)
  match wr with
  | none =>
    let d := d.emit (.rdata (raddr pg 0x124) (sget 0#32 d.imem key))
    if peek then d else step d
  | some v =>
    let st := d.engState e
    step (if st = Es.off ∨ st = Es.halted then { d with imem := sset 0#32 d.imem key v } else d.err pg 3 0x0704)

/-! The background test (R142, R143, R308). -/

/-- The number of a BM36's test. -/
def bmKey (b m : Nat) : Nat := 1000 + 1440 * b + m

/-- The number of a memory's test; BM36s of a bay together have one for their lap. -/
def TestMem.key : TestMem → Nat
  | .imem e => e.val
  | .scratch e => 192 + e.val
  | .ctx e => 384 + e.val
  | .bay b => 576 + b.val
  | .bm36 b m => bmKey b.val m.val
def bmLapKey (b : Nat) : Nat := 600 + b

/-- Regions of 256 words of a memory (R142, R308). -/
def TestMem.regions : TestMem → Nat
  | .imem _ => 32
  | .scratch _ => 64
  | .ctx _ => 8
  | .bay _ => 2048
  | .bm36 _ _ => 2

/-- The test of a memory. -/
def Dev.testOf (d : Dev) (k : Nat) : TestSt := sget {} d.tests k
def Dev.setTest (d : Dev) (k : Nat) (x : TestSt) : Dev := { d with tests := sset {} d.tests k x }

/-- TEST_EN of a memory. -/
def Dev.testEn (d : Dev) : TestMem → Bool
  | .imem e => d.flag (Pg.newt e) F.NEWT_CTRL_TEST_EN
  | .scratch e => d.flag (Pg.newt e) F.NEWT_CTRL_TEST_EN
  | .ctx e => d.flag (Pg.newt e) F.NEWT_CTRL_TEST_EN
  | .bay b => d.flag (Pg.bay b) F.BAY_TEST_TEST_EN
  | .bm36 b _ => d.flag (Pg.bay b) F.BAY_BM_TEST_TEST_EN

/-- A lap in µs: 1,000 CK each. -/
def lapTime (ck since : Nat) : Word := BitVec.ofNat 32 ((ck - since) / 1000)

/-- The lap of a memory is done: its time is shown; a bay's BM36s have a lap once each of them still tested has (R142, R308). -/
def Dev.lapDone (d : Dev) (m : TestMem) (since : Nat) : Dev :=
  match m with
  | .imem e => d.setReg (Pg.newt e) 0x150 (lapTime d.ck since)
  | .scratch e => d.setReg (Pg.newt e) 0x154 (lapTime d.ck since)
  | .ctx e => d.setReg (Pg.newt e) 0x158 (lapTime d.ck since)
  | .bay b => d.setReg (Pg.bay b) 0x110 (lapTime d.ck since)
  | .bm36 b _ =>
    let all := d.testOf (bmLapKey b)
    let done (k : Nat) : Bool := let x := d.testOf (bmKey b k); x.ended || decide (all.laps < x.laps)
    if (List.range 1440).all done then
      (d.setReg (Pg.bay b) 0x14C (lapTime d.ck all.since)).setTest (bmLapKey b) { all with laps := all.laps + 1, since := d.ck }
    else d

/-- A region has failed: its memory is served from the shadow for good and tested no more (R143, R308). -/
def Dev.testFailed (d : Dev) (m : TestMem) : Dev :=
  let newt (rep : Fld) (e : Nat) : Dev := ((d.setFld (Pg.newt e) rep 1).err (Pg.newt e) 4 0x0705).pend (Pg.newt e) 2
  match m with
  | .imem e => newt F.NEWT_TEST_STAT_IMEM_REP e
  | .scratch e => newt F.NEWT_TEST_STAT_SP_REP e
  | .ctx e => newt F.NEWT_TEST_STAT_CTX_REP e
  | .bay b => ((d.setFld (Pg.bay b) F.BAY_TEST_REPAIRED 1).err (Pg.bay b) 0 0x0711).pend (Pg.bay b) 2
  | .bm36 b _ =>
    let pg := Pg.bay b
    ((d.setFld pg F.BAY_BM_REP_CNT_CNT (min 1440 (d.fld pg F.BAY_BM_REP_CNT_CNT + 1))).err pg 3 0x0F03).pend pg 5

/-- MEM_TEST_REGION: the region under test passes and the test moves on, or fails; of any other region no test is under way. A test whose
TEST_EN is 0 stands still once it has finished its region; set again, TEST_EN has it go on with the next. -/
def Dev.memTestRegion (d : Dev) (m : TestMem) (region : Nat) (pass : Bool) : Dev :=
  let k := m.key
  let x := d.testOf k
  let en := d.testEn m
  if region ≠ x.region ∨ x.ended ∨ (x.idle ∧ ¬ en) then d
  else if ¬ pass then (d.setTest k { x with ended := true }).testFailed m
  else if x.region + 1 < m.regions then d.setTest k { x with region := x.region + 1, idle := !en }
  else (d.setTest k { x with region := 0, laps := x.laps + 1, since := d.ck, idle := !en }).lapDone m x.since

/-! The commands. -/

/-- NEWT_RUN_WRITE (R145). -/
def execNewtRunWrite (e : Fin 192) (val : Word) (s : State) : Host.Outcome State Fault Refusal :=
  s.cmd (fun d => d.swGate (raddr (Pg.newt e.val) 0x008) val (fun d => d.newtCtrlWrite e.val val))

/-- RECORD_OFFER (R207). -/
def execRecordOffer (e : Fin 192) (s : State) : Host.Outcome State Fault Refusal :=
  s.run (.recordOffer e) (fun d => d.recordOffer e.val)

/-- SCRATCHPAD_REQUEST (R138). -/
def execScratchpadRequest (e : Fin 192) (bank : Fin 4) (ecc : Fin 3) (s : State) : Host.Outcome State Fault Refusal :=
  s.run (.scratchpadRequest e bank ecc) (fun d => d.scratchpadRequest e.val bank.val ecc.val)

/-- SCRATCHPAD_BUSY_TIMEOUT (R138). -/
def execScratchpadBusyTimeout (id : Nat) (s : State) : Host.Outcome State Fault Refusal :=
  s.run (.scratchpadBusyTimeout id) (fun d => d.scratchpadTimeout id)

/-- BAY_MEM_ARBITRATE (R140). -/
def execBayMemArbitrate (b : Fin 12) (bank : Fin 16) (ports : List PortAcc) (ecc : Fin 3) (s : State) :
    Host.Outcome State Fault Refusal :=
  s.run (.bayMemArbitrate b bank ports ecc) (fun d =>
    d.bayArbitrate b.val bank.val (ports.filter (fun p => d.portUp b.val (.bayMem b.val p.port.val))) ecc.val)

/-- MEM_TEST_REGION (R142). -/
def execMemTestRegion (mem : TestMem) (region : Fin 2048) (pass : Bool) (s : State) : Host.Outcome State Fault Refusal :=
  s.run (.memTestRegion mem region pass) (fun d => d.memTestRegion mem region.val pass)

/-- ENGINE_TRAP (R155). -/
def execEngineTrap (e : Fin 192) (cause : Fin 16) (retry : Bool) (addr : Word64) (s : State) : Host.Outcome State Fault Refusal :=
  s.run (.engineTrap e cause retry addr) (fun d =>
    if 1 ≤ cause.val ∧ cause.val ≤ 8 then d.newtTrap e.val cause.val retry addr.toNat else d)

/-- TASK_LIMIT_EXPIRY (R156). -/
def execTaskLimitExpiry (e : Fin 192) (s : State) : Host.Outcome State Fault Refusal :=
  s.run (.taskLimitExpiry e) (fun d => d.taskLimitExpiry e.val)

/-- REMOTE_RESPONSE (R171). -/
def execRemoteResponse (e : Fin 196) (id : Nat) (s : State) : Host.Outcome State Fault Refusal :=
  s.run (.remoteResponse e id) (fun d => d.remoteResponse e.val id)

/-- IMEM_DATA_ACCESS (R158). -/
def execImemDataAccess (e : Fin 192) (wr : Option Word) (peek : Bool) (s : State) : Host.Outcome State Fault Refusal :=
  s.cmd (fun d => match wr with
    | none => d.imemData e.val none peek
    | some v => d.swGate (raddr (Pg.newt e.val) 0x124) v (fun d => d.imemData e.val (some v) peek))

/-- CACHE_LINE_FILL (R387). -/
def execCacheLineFill (k : Fin 4) (line : Nat) (ins : Bool) (s : State) : Host.Outcome State Fault Refusal :=
  s.run (.cacheLineFill k line ins) (fun d => d.cacheLineFill k.val line ins)

/-- WRITE_BUFFER_DRAIN (R388). -/
def execWriteBufferDrain (k : Fin 4) (s : State) : Host.Outcome State Fault Refusal :=
  s.run (.writeBufferDrain k) (fun d => d.writeBufferDrain k.val)

end Sys2Proof.Machine
end

