-- ==== Sys2Proof/Machine/Bays.lean ====
section
/-! DEFINITION. One bay at a time: arming, closing, release and wipe; snapshots and readback (R355 to R365, R369). -/

namespace Sys2Proof.Machine

def bayOp (b : Nat) : Fin 12 := ⟨b % 12, Nat.mod_lt _ (by decide)⟩
def Dev.setRcfg (d : Dev) (b st : Nat) : Dev := d.setFld (Pg.bay b) F.BAY_RCFG_STAT_STATE st
def Dev.armed (d : Dev) (b : Nat) : Bool := d.flag (Pg.bay b) F.BAY_RCFG_CTRL_ARM
def Dev.engRetain (d : Dev) (b : Nat) : Bool := d.flag (Pg.bay b) F.BAY_RCFG_CTRL_ENG_RETAIN
/-- The bay that is armed. -/
def Dev.armedBay (d : Dev) : Option Nat := (List.range 12).find? d.armed
def Dev.bayRefuse (d : Dev) (b code : Nat) : Dev := d.err (Pg.bay b) 6 code
def bayEngines (b : Nat) : List Nat := (List.range 16).map (fun i => 16 * b + i)

/-! Arming (R355, R356, R358). -/

/-- ENG_RETAIN and BM_KEEP of a write to RCFG_CTRL: refused while ARM is 1 if they change (R355). -/
def Dev.rcfgFields (d : Dev) (b : Nat) (val : Word) : Dev :=
  let cur := (d.reg (Pg.bay b) 0x180).toNat
  if d.armed b then (if bitsOf cur 1 2 ≠ bitsOf val.toNat 1 2 then d.bayRefuse b 0x1211 else d)
  else d.setReg (Pg.bay b) 0x180 (BitVec.ofNat 32 (bitsPut cur 1 2 (bitsOf val.toNat 1 2)))

def Dev.rcfgReserved (d : Dev) (b : Nat) (val : Word) : Dev := if val.toNat / 8 ≠ 0 then d.regErr (Pg.bay b) 1 else d

/-- BAY_ARM: a write of ARM 1 (R355); one that is refused changes no field. -/
def Dev.bayArm (d : Dev) (b : Nat) (val : Word) : Dev :=
  let d := d.rcfgReserved b val
  if d.armed b then d.rcfgFields b val
  else
    let m := d.mode
    if (m ≠ Mode.ready.code ∧ ¬ isOperating m ∧ m ≠ Mode.offload.code) ∨ d.armedBay.isSome ∨ ¬ d.domOpen (Dom.bay b)
        ∨ d.flag Pg.cfg F.CFG_STAT_WIPING then d.bayRefuse b 0x1211
    else
      let d := (((d.rcfgFields b val).setFld (Pg.bay b) F.BAY_RCFG_CTRL_ARM 1).setRcfg b Rc.closing).setBay b { d.bayOf b with armCk := d.ck }
      let d := if d.engRetain b then d else (bayEngines b).foldl (fun (d : Dev) e =>
        d.newtCtrlWrite e (d.reg (Pg.newt e) 0x008 &&& 0xFFFFFFFE#32)) d
      d.sched 2 (.bayClosed (bayOp b))

/-- Are the bay's engines stopped (R359)? -/
def Dev.engsStopped (d : Dev) (b : Nat) : Bool :=
  (bayEngines b).all (fun e => d.engState e = Es.off || d.engState e = Es.halted)

/-- Is a scrubber access to the bay in progress (R359)? -/
def Dev.scrubOn (d : Dev) (b : Nat) : Bool :=
  match d.scrub.repair with
  | some (a, _) => decide (a / 53760 = b)
  | none => false

/-! Release (R361, R363). -/

/-- The release of a bay at the first CK at or after v + 16 in which φ is 0. -/
def Dev.releaseBay (d : Dev) (b : Nat) : Dev :=
  let k := 16
  let at_ := match d.startCk with | some s => (d.ck + k - s) % 12 | none => 0
  d.schedOnce (k + (12 - at_) % 12) (.bayRelease (bayOp b))

/-- The shadow of a bay no longer holds (R368). -/
def Dev.shadowGone (d : Dev) (b : Nat) : Dev := d.setFld Pg.scrub ⟨0x00C, 2 + b, 1⟩ 0

/-- Return a NoC end point to service (R383). -/
def Dev.reviveEp (d : Dev) (ep : Nat) : Dev :=
  let h := epHalf ep
  d.setNoc h { d.nocOf h with dead := (d.nocOf h).dead.filter (fun x => x ≠ ep) }

/-- The NoC end points of a bay. -/
def bayEps (b : Nat) : List Nat := (bayEngines b).map Ep.newt ++ [Ep.bay b, Ep.mortise b 0, Ep.mortise b 1]

/-- BAY_RELEASE: S_b. A bay released after its domain opened has no ARM to measure from. -/
def Dev.bayRelease (d : Dev) (b : Nat) : Dev :=
  let pg := Pg.bay b
  let d := if d.armed b then d.setFld pg F.BAY_RCFG_CK (min (d.ck - (d.bayOf b).armCk) (2 ^ 32 - 1)) else d
  let d := (((d.setRcfg b Rc.opened).setFld pg F.BAY_RCFG_CTRL_ARM 0).setBay b { armCk := 0, freeCk := some d.ck }).shadowGone b
  let d := d.ffsRelease b
  let d := if d.flag pg F.BAY_RCFG_CTRL_BM_KEEP then d else d.bmsEncode (d.fab.bms.filter (fun i => decide (i / 1440 = b)))
  ((bayEps b).foldl (fun (d : Dev) e => d.reviveEp e) d).pend pg 8

/-- BAY_DISARM: a write of ARM 0 (R363). -/
def Dev.bayDisarm (d : Dev) (b : Nat) (val : Word) : Dev :=
  let d := (d.rcfgReserved b val).rcfgFields b val
  if ¬ d.armed b then d
  else if d.rcfg b = Rc.closed ∨ d.rcfg b = Rc.failed then d.releaseBay b
  else d.bayRefuse b 0x1211

/-! Wipe (R362). -/

/-- Frames of a bay leave a map of frames that holds `n` a bay. -/
def dropBay {α : Type} (m : SMap α) (b n : Nat) : SMap α := m.filter (fun e => decide (e.1 / n ≠ b))

/-- A bay-load failure wipes the armed bay: frames, signatures, instruction memories unless the engines are retained. -/
def Dev.wipeBay (d : Dev) (b : Nat) : Dev :=
  let keep := d.engRetain b
  let d := d.onFab (fun x => { x with clusters := dropBay x.clusters b 53760, sigs := dropBay x.sigs b 53760, bm36 := dropBay x.bm36 b 25920,
                                      borders := dropBay x.borders b 16 })
  let d := if keep then d else { d with imem := d.imem.filter (fun e => decide (e.1 / 8192 / 16 ≠ b)) }
  let d : Dev := { d with agenda := agendaDrop (.bayRelease (bayOp b)) (agendaDrop (.bayClosed (bayOp b)) d.agenda) }
  ((d.shadowGone b).setRcfg b Rc.wiping).sched 131072 (.bayWipeDone (bayOp b))

/-- BAY_WIPE_DONE. -/
def Dev.bayWipeDone (d : Dev) (b : Nat) : Dev :=
  if d.rcfg b ≠ Rc.wiping then d else (d.setRcfg b Rc.failed).pend (Pg.bay b) 9

/-! Snapshot and readback (R364, R365). -/

/-- SNAP: the capture CK. -/
def Dev.snap (d : Dev) (b : Nat) : Dev :=
  let pg := Pg.bay b
  if d.rcfg b ≠ Rc.opened ∨ ¬ d.domOpen (Dom.bay b) ∨ d.flag pg F.BAY_SNAP_CTRL_HOLD then d.bayRefuse b 0x1212
  else
    let lp := d.pubLp (b / 6)
    let d := d.onFab (fun x => { x with snaps := sput x.snaps b { ck := d.ck, frames := d.snapFrames b } })
    let d := (d.setReg64 pg 0x198 d.ck).setReg64 pg 0x1A0 (lpInt lp)
    ((d.setFld pg F.BAY_SNAP_LP_FRAC_FRAC (lpFrac lp)).setFld pg F.BAY_SNAP_STAT_VALID 1).pend pg 7

/-- RB_DATAj: a word of the frame that RB_IDX selects. -/
def Dev.rbData (d : Dev) (b j : Nat) : Word :=
  match sfind d.fab.snaps b with
  | none => 0#32
  | some s => eword (sget 0#2048 s.frames (d.fld (Pg.bay b) F.BAY_RB_IDX_FRAME)) j

/-! The commands. -/

/-- BAY_ARM (R355). -/
def execBayArm (b : Fin 12) (val : Word) (s : State) : Host.Outcome State Fault Refusal :=
  s.cmd (fun d => d.bayArm b.val val)

/-- BAY_RELEASE (R361). -/
def execBayRelease (b : Fin 12) (s : State) : Host.Outcome State Fault Refusal :=
  s.run (.bayRelease b) (fun d => d.bayRelease b.val)

/-- BAY_WIPE_DONE (R362). -/
def execBayWipeDone (b : Fin 12) (s : State) : Host.Outcome State Fault Refusal :=
  s.run (.bayWipeDone b) (fun d => d.bayWipeDone b.val)

/-- BAY_DISARM (R363). -/
def execBayDisarm (b : Fin 12) (val : Word) (s : State) : Host.Outcome State Fault Refusal :=
  s.cmd (fun d => d.bayDisarm b.val val)

/-- SNAP (R364). -/
def execSnap (b : Fin 12) (s : State) : Host.Outcome State Fault Refusal :=
  s.run (.snap b) (fun d => d.snap b.val)

end Sys2Proof.Machine
end

