-- ==== Sys2Proof/Machine/HostEvents.lean ====
section
/-! DEFINITION. Events to the host: generation, the queue of 256, the event ring (R406, Table 20-6). -/

namespace Sys2Proof.Machine

/-- Table 20-6: the entry without its PHASE bit. -/
def hostEvent (dseq hseq typ status code : Nat) (lp : LP) (payload : List Byte) : BitVec 512 :=
  BitVec.ofNat 512 (leNat (leBytes 4 dseq ++ leBytes 4 hseq ++ [byteOf typ 0, byteOf status 0, 0#8, 0#8] ++ leBytes 4 code
    ++ leBytes 8 (lpInt lp) ++ (payload ++ List.replicate 40 0#8).take 40))

/-- Has the event ring room, and does EVT_EN let events be written (R406)? -/
def Dev.evtReady (d : Dev) : Bool :=
  let size := 2 ^ d.fld Pg.hostif F.HOSTIF_EVT_CFG_LOG2
  d.flag Pg.hostif F.HOSTIF_CTRL_EVT_EN
    && decide ((d.fld Pg.hostif F.HOSTIF_EVT_TAIL_IDX + 1) % size ≠ d.fld Pg.hostif F.HOSTIF_EVT_HEAD_IDX)

/-- Where an event waits and the ring has room, it is written next. -/
def Dev.evtKick (d : Dev) : Dev :=
  if d.hostEvs ≠ [] ∧ d.evtReady ∧ ¬ d.agenda.any (fun e => e.2 = .eventWrite) then d.sched 0 .eventWrite else d

/-- An event takes the next DSEQ and waits for the ring; one that finds 256 waiting is dropped and counted (R406). -/
def Dev.genEvent (d : Dev) (hseq typ status code : Nat) (payload : List Byte) : Dev :=
  let dseq := d.fld Pg.hostif F.HOSTIF_EVT_SEQ_NEXT
  let next := (dseq + 1) % 2 ^ 32
  let d := d.setFld Pg.hostif F.HOSTIF_EVT_SEQ_NEXT (if next = 0 then 1 else next)
  if 256 ≤ d.hostEvs.length then (d.bump Pg.hostif F.HOSTIF_EVT_DROP_CNT).pend Pg.hostif 1
  else ({ d with hostEvs := d.hostEvs ++ [hostEvent dseq hseq typ status code (d.pubLp 0) payload] }).evtKick

/-- EVENT_WRITE (R406): the oldest event goes to EVT_TAIL with its PHASE, and its vector is sent. -/
def Dev.eventWrite (d : Dev) : Dev :=
  match d.hostEvs with
  | [] => d
  | e :: rest =>
    if ¬ d.evtReady then d
    else
      let size := 2 ^ d.fld Pg.hostif F.HOSTIF_EVT_CFG_LOG2
      let tail := d.fld Pg.hostif F.HOSTIF_EVT_TAIL_IDX
      let base := d.fld Pg.hostif F.HOSTIF_EVT_BASE_LO_ADDR * 4096 + 2 ^ 32 * d.fld Pg.hostif F.HOSTIF_EVT_BASE_HI
      let e := bitsPut e.toNat 80 1 (b01 d.evtPhase)
      let next := (tail + 1) % size
      let d := d.emit (.hostWrite (base + 64 * tail) (leBytes 64 e))
      let d := d.setFld Pg.hostif F.HOSTIF_EVT_TAIL_IDX next
      let d := { d with hostEvs := rest, evtPhase := if next = 0 then !d.evtPhase else d.evtPhase }
      (d.sendVec (d.fld Pg.hostif F.HOSTIF_EVT_CFG_VEC)).evtKick

/-! The commands. -/

/-- EVENT_WRITE (R406). -/
def execEventWrite (s : State) : Host.Outcome State Fault Refusal :=
  s.run .eventWrite (fun d => d.eventWrite)

end Sys2Proof.Machine
end

