-- ==== Sys2Proof/Machine/Evs.lean ====
section
/-! DEFINITION. The event schedulers: entries, firing, and their commands (R80 to R87). -/

namespace Sys2Proof.Machine

/-! Scheduler entry (Table 4-5). -/

def EV_TARGET : Fld := ⟨0, 0, 64⟩
def EV_TFRAC : Fld := ⟨8, 0, 8⟩
def EV_CLASS : Fld := ⟨9, 0, 8⟩
def EV_REPEAT : Fld := ⟨10, 0, 16⟩
def EV_PERIOD : Fld := ⟨12, 0, 32⟩
def EV_ARG0 : Fld := ⟨16, 0, 32⟩
def EV_ARG1 : Fld := ⟨20, 0, 32⟩
def EV_TAG : Fld := ⟨24, 0, 24⟩
def EV_VALID : Fld := ⟨28, 0, 1⟩
def EV_LATE : Fld := ⟨28, 1, 1⟩

/-- The entry with its reserved bits 0 (R7). -/
def evsClean (e : BitVec 256) : BitVec 256 :=
  eput (eput e ⟨24, 24, 8⟩ 0) ⟨28, 2, 30⟩ 0

/-- The entry at an index of a half's scheduler. -/
def Dev.evsEntry (d : Dev) (h i : Nat) : BitVec 256 := sget 0#256 d.evs (h * 1024 + i)
def Dev.setEvsEntry (d : Dev) (h i : Nat) (e : BitVec 256) : Dev := { d with evs := sset 0#256 d.evs (h * 1024 + i) e }

/-- The target of an entry as an LP. -/
def evsTarget (e : BitVec 256) : LP := mkLp (eget e EV_TARGET) (eget e EV_TFRAC)

/-- The valid entries of a half, indices ascending. -/
def Dev.evsValid (d : Dev) (h : Nat) : List (Nat × BitVec 256) :=
  (d.evs.filter (fun e => decide (e.1 / 1024 = h) && eget e.2 EV_VALID = 1)).map (fun e => (e.1 % 1024, e.2))

/-- The scheduler looks for due entries again in the next CK while it holds a valid one. -/
def Dev.evsKeep (d : Dev) (h k : Nat) : Dev :=
  let i : Instr := .evsEntryDue (halfOf h)
  if d.evsValid h = [] ∨ d.lpcState h = Lpc.idle ∨ d.agenda.any (fun e => e.2 = i) then d else d.sched k i

/-- Put an entry into ascending order of target, the nearest to the past first, then of index (R83). -/
def insDue (x : Int × Nat × BitVec 256) : List (Int × Nat × BitVec 256) → List (Int × Nat × BitVec 256)
  | [] => [x]
  | y :: r => if y.1 < x.1 ∨ (y.1 = x.1 ∧ y.2.1 < x.2.1) then y :: insDue x r else x :: y :: r

/-- The due entries in firing order (R82, R83). -/
def Dev.evsDueList (d : Dev) (h : Nat) : List (Nat × BitVec 256) :=
  let lp := d.pubLp h
  (((d.evsValid h).filter (fun e => reached (evsTarget e.2) lp)).foldl
    (fun l e => insDue ((evsTarget e.2 - lp).toInt, e.1, e.2) l) []).map (fun x => x.2)

/-- An entry after its firing (R84). -/
def evsAfter (e : BitVec 256) : BitVec 256 :=
  let r := eget e EV_REPEAT
  if r = 0 then eput e EV_VALID 0
  else
    let e := eput e EV_TARGET (eget e EV_TARGET + eget e EV_PERIOD)
    if r = 0xFFFF then e else eput e EV_REPEAT (r - 1)

/-- An entry fires (R82, R84, R85): its action leaves 2 CK later. -/
def Dev.evsFire (d : Dev) (h i : Nat) (e : BitVec 256) : Dev :=
  let d := (d.bump (Pg.evs h) F.EVS_FIRE_CNT)
  let d := if d.lpcState h = Lpc.unanchored ∨ d.lpcState h = Lpc.freewheel then d.bump (Pg.evs h) F.EVS_FW_FIRE_CNT else d
  let d := d.setEvsEntry h i (evsAfter e)
  let d := { d with evsLate := d.evsLate.filter (fun k => decide (k ≠ h * 1024 + i)), evsFired := (h * 1024 + i) :: d.evsFired }
  d.fly 2 { half := h, src := .evs i, cls := eget e EV_CLASS, arg0 := eget e EV_ARG0, arg1 := eget e EV_ARG1,
            tag := eget e EV_TAG, lp := evsTarget e, pub := 0#72,
            dest := d.actionHalf h (eget e EV_CLASS) (eget e EV_ARG0) (eget e EV_ARG1) }

/-- A firing is deferred to the next CK, counted once (R83). -/
def Dev.evsDefer (d : Dev) (h i : Nat) : Dev :=
  if d.evsLate.contains (h * 1024 + i) then d
  else (({ d with evsLate := (h * 1024 + i) :: d.evsLate }).bump (Pg.evs h) F.EVS_LATE_CNT).pend (Pg.evs h) 1

/-- A STIM or PLAY entry due in a mode without stimulus is discarded (R86). -/
def Dev.evsDiscard (d : Dev) (h i : Nat) (e : BitVec 256) : Dev :=
  ((d.setEvsEntry h i (eput e EV_VALID 0)).bump (Pg.evs h) F.EVS_MODE_DISC_CNT).pend (Pg.evs h) 2

/-- The due entries in firing order: at most 8 fire, at most 6 of them to the other half (R83, R104). -/
def Dev.evsFireAll (d : Dev) (h : Nat) : Nat → Nat → List (Nat × BitVec 256) → Dev
  | _, _, [] => d
  | n, x, (i, e) :: r =>
    let cls := eget e EV_CLASS
    if (cls = Cl.stim ∨ cls = Cl.play) ∧ ¬ isStimulus (d.modeOf h) then (d.evsDiscard h i e).evsFireAll h n x r
    else
      let cross := cls ≠ Cl.host ∧ d.actionHalf h cls (eget e EV_ARG0) (eget e EV_ARG1) ≠ h
      if n ≥ 8 ∨ (cross ∧ x ≥ 6) then (d.evsDefer h i).evsFireAll h n x r
      else (d.evsFire h i e).evsFireAll h (n + 1) (if cross then x + 1 else x) r

/-- The due entries of a CK are taken once (R82 to R86). -/
def Dev.evsTake (d : Dev) (h : Nat) : Dev :=
  if d.lpcState h = Lpc.idle ∨ sget 0 d.evsRan h = d.ck + 1 then d
  else
    let d := { d with evsRan := sset 0 d.evsRan h (d.ck + 1),
                      evsFired := d.evsFired.filter (fun k => decide (k / 1024 ≠ h)) }
    d.evsFireAll h 0 0 (d.evsDueList h)

/-- EVS_ENTRY_DUE. -/
def Dev.evsEntryDue (d : Dev) (h : Nat) : Dev := (d.evsTake h).evsKeep h 1

/-- Install an entry (R87), with the codes of a refusal. -/
def evsErrors (e : BitVec 256) : List (Nat × Nat) :=
  let cls := eget e EV_CLASS
  let res := cls = 0 || cls > 6
  (if res then [(0, 0x0411)] else [])
    ++ (if eget e EV_PERIOD = 0 ∧ eget e EV_REPEAT ≠ 0 then [(1, 0x0412)] else [])
    ++ (if ¬ res ∧ ¬ argOk cls (eget e EV_ARG0) (eget e EV_ARG1) then [(2, 0x0413)] else [])

/-- A write of an entry at an index (R87), the status it returns. An entry written with VALID 0 neither counts in PAST_CNT nor fires,
wherever its target stands (DESIGN CHOICE, log entry 46: R87 does not name VALID there). -/
def Dev.evsInstall (d : Dev) (h i : Nat) (e0 : BitVec 256) : Dev × Nat :=
  let d := d.evsTake h
  let fired := d.evsFired.contains (h * 1024 + i) && sget 0 d.evsRan h = d.ck + 1
  match evsErrors e0 with
  | c :: cs => (d.errs (Pg.evs h) (c :: cs), 2)
  | [] =>
    let e := evsClean e0
    let d := { d with evsLate := d.evsLate.filter (fun k => decide (k ≠ h * 1024 + i)) }
    let past := eget e EV_VALID = 1 && reached (evsTarget e) (d.pubLp h)
    let d := if past then d.bump (Pg.evs h) F.EVS_PAST_CNT else d
    let d := if past ∧ eget e EV_LATE = 1 then (d.setEvsEntry h i (eput e EV_VALID 0)).pend (Pg.evs h) 2
             else d.setEvsEntry h i e
    (d.evsKeep h 1, if fired then 1 else 0)

/-- A cancel of an entry (R87), the status it returns. -/
def Dev.evsDrop (d : Dev) (h i : Nat) : Dev × Nat :=
  let d := d.evsTake h
  let fired := d.evsFired.contains (h * 1024 + i) && sget 0 d.evsRan h = d.ck + 1
  let e := d.evsEntry h i
  let d' := { d with evsLate := d.evsLate.filter (fun k => decide (k ≠ h * 1024 + i)) }
  (d'.setEvsEntry h i (eput e EV_VALID 0), if fired ∨ eget e EV_VALID = 0 then 1 else 0)

/-- EVS_CMD WRITE, READ, CANCEL. -/
def Dev.evsWrite (d : Dev) (h : Nat) : Dev :=
  let r := d.evsInstall h (d.fld (Pg.evs h) F.EVS_IDX_IDX) (d.window 256 (Pg.evs h) 0x104 8)
  r.1.setFld (Pg.evs h) F.EVS_CMD_STATUS r.2
def Dev.evsRead (d : Dev) (h : Nat) : Dev :=
  (d.setWindow (Pg.evs h) 0x104 8 (d.evsEntry h (d.fld (Pg.evs h) F.EVS_IDX_IDX))).setFld (Pg.evs h) F.EVS_CMD_STATUS 0
def Dev.evsCancel (d : Dev) (h : Nat) : Dev :=
  let r := d.evsDrop h (d.fld (Pg.evs h) F.EVS_IDX_IDX)
  r.1.setFld (Pg.evs h) F.EVS_CMD_STATUS r.2

/-- On leaving the modes with stimulus every valid STIM and PLAY entry is discarded and counted (R37, R86). -/
def Dev.evsModeDiscard (d : Dev) (h : Nat) : Dev :=
  (d.evsValid h).foldl (fun d e =>
    if eget e.2 EV_CLASS = Cl.stim ∨ eget e.2 EV_CLASS = Cl.play then d.evsDiscard h e.1 e.2 else d) d

/-! The commands. -/

/-- EVS_ENTRY_DUE (R82). -/
def execEvsEntryDue (h : Half) (s : State) : Host.Outcome State Fault Refusal :=
  s.run (.evsEntryDue h) (fun d => d.evsEntryDue h.val)

/-- EVS_WRITE (R87). -/
def execEvsWrite (h : Half) (s : State) : Host.Outcome State Fault Refusal :=
  s.cmd (fun d => d.swGate (raddr (Pg.evs h.val) 0x124) 1#32 (fun d => d.evsWrite h.val))

/-- EVS_READ (R87). -/
def execEvsRead (h : Half) (s : State) : Host.Outcome State Fault Refusal :=
  s.cmd (fun d => d.swGate (raddr (Pg.evs h.val) 0x124) 2#32 (fun d => d.evsRead h.val))

/-- EVS_CANCEL (R87). -/
def execEvsCancel (h : Half) (s : State) : Host.Outcome State Fault Refusal :=
  s.cmd (fun d => d.swGate (raddr (Pg.evs h.val) 0x124) 3#32 (fun d => d.evsCancel h.val))

end Sys2Proof.Machine
end

