-- ==== Sys2Proof/Machine/Trig.lean ====
section
/-! DEFINITION. The trigger sequencers: tables, evaluation, timers, issued actions, the bridge's trigger class, and their
commands (R101 to R112, R115). -/

namespace Sys2Proof.Machine

/-! Table entries (Tables 5-3, 5-4, R110). -/

def SS_MASK (k : Nat) : Fld := ⟨4 * k, 0, 16⟩
def SS_MODE (k : Nat) : Fld := ⟨4 * k + 2, 0, 2⟩
def SS_CNT (k : Nat) : Fld := ⟨4 * k + 2, 2, 1⟩
def SS_NEXT (k : Nat) : Fld := ⟨4 * k + 3, 0, 4⟩
def SS_ACT (k : Nat) : Fld := ⟨4 * k + 3, 4, 4⟩
def SS_TIMEOUT : Fld := ⟨8, 0, 48⟩
def SS_CNT_CLR : Fld := ⟨14, 0, 1⟩
def SS_CNT_LIMIT : Fld := ⟨16, 0, 32⟩
def SA_ARG0 : Fld := ⟨0, 0, 32⟩
def SA_ARG1 : Fld := ⟨4, 0, 32⟩
def SA_CLASS : Fld := ⟨8, 0, 8⟩
def SA_TAG : Fld := ⟨12, 0, 24⟩
def SEL_SRC (i : Nat) : Fld := ⟨2 * i, 0, 8⟩
def SEL_DELAY (i : Nat) : Fld := ⟨2 * i, 8, 4⟩

/-- A sequencer's number in the device. -/
def seqKey (h q : Nat) : Nat := h * 8 + q

def Dev.seqState (d : Dev) (h q st : Nat) : BitVec 256 := sget 0#256 d.seqStates (seqKey h q * 16 + st)
def Dev.seqSlot (d : Dev) (h q a : Nat) : BitVec 128 := sget 0#128 d.seqSlots (seqKey h q * 16 + a)
def Dev.seqSelOf (d : Dev) (h q : Nat) : BitVec 256 := sget 0#256 d.seqSel (seqKey h q)
def Dev.seqOf (d : Dev) (h q : Nat) : SeqSt := sget {} d.seqs (seqKey h q)
def Dev.setSeq (d : Dev) (h q : Nat) (x : SeqSt) : Dev := { d with seqs := sset {} d.seqs (seqKey h q) x }

/-- Is the sequencer armed (SEQs_STAT_ARMED)? -/
def Dev.seqArmed (d : Dev) (h q : Nat) : Bool := d.flag (Pg.trig h) (F.TRIG_SEQ_STAT_ARMED q)
def Dev.setArmed (d : Dev) (h q : Nat) (v : Nat) : Dev :=
  (d.setFld (Pg.trig h) (F.TRIG_SEQ_STAT_ARMED q) v).setFld (Pg.trig h) (F.TRIG_SEQ_CTRL_ARM q) v

/-- The sequencer is evaluated in a CK to come (R107). -/
def Dev.seqSched (d : Dev) (h : Nat) (q : Fin 8) (k : Nat) : Dev :=
  let i : Instr := .seqEvaluate (halfOf h) q
  if d.agenda.any (fun e => e.2 = i) then d else d.sched k i

/-- A state change is complete: STAT shows it, and bit s is set where both branches are off (R108, R115). -/
def Dev.seqShow (d : Dev) (h q : Nat) (x : SeqShow) : Dev :=
  let pg := Pg.trig h
  let d := (d.setFld pg (F.TRIG_SEQ_STAT_STATE q) x.st).setFld pg (F.TRIG_SEQ_STAT_TIMER_RUN q) (b01 x.run)
  if x.rest then d.pend pg q else d

/-- The state changes of a sequencer that are complete in the CK at hand. -/
def Dev.seqShows (d : Dev) (h q : Nat) : Dev :=
  let x := d.seqOf h q
  (x.shows.filter (fun s => decide (s.due ≤ d.ck))).foldl (fun d s => d.seqShow h q s)
    (d.setSeq h q { x with shows := x.shows.filter (fun s => decide (d.ck < s.due)) })

/-- Enter a state (R108): the counter clears if CNT_CLR says so or the caller does, the timer runs to base + TIMEOUT; the state change as
STAT is to show it. -/
def Dev.seqEnter (d : Dev) (h q st : Nat) (base : LP) (clear : Bool) : Dev × SeqShow :=
  let s := d.seqState h q st
  let t := eget s SS_TIMEOUT
  let d := if clear ∨ eget s SS_CNT_CLR = 1 then d.setFld (Pg.trig h) (F.TRIG_SEQ_CNT q) 0 else d
  (d.setSeq h q { d.seqOf h q with st := st, deadline := base + BitVec.ofNat 72 (t * 256), timer := decide (t ≠ 0), enterCk := d.ck,
                                   expired := false },
   ⟨d.ck + 2, st, eget s (SS_MODE 0) = 0 && eget s (SS_MODE 1) = 0, decide (t ≠ 0)⟩)

/-- A control write puts the sequencer in state 0 at once (R109): no state change before it is shown any more. -/
def Dev.seqHome (d : Dev) (h q : Nat) : Dev :=
  let p := d.seqEnter h q 0 (d.pubLp h) true
  (p.1.setSeq h q { p.1.seqOf h q with shows := [] }).seqShow h q p.2

/-- SEQ_TIMER_EXPIRY (R108): the timer of an armed sequencer expires in the CK in which the published LP reaches its deadline,
from the first evaluated CK of the state on. -/
def Dev.seqTimerExpiry (d : Dev) (h q : Nat) : Dev :=
  let x := d.seqOf h q
  if d.seqArmed h q ∧ x.timer ∧ x.enterCk < d.ck ∧ d.lpcState h ≠ Lpc.idle ∧ reached x.deadline (d.pubLp h) then
    match x.shows.getLast? with
    | none => (d.setSeq h q { x with timer := false, expired := true }).setFld (Pg.trig h) (F.TRIG_SEQ_STAT_TIMER_RUN q) 0
    | some s => d.setSeq h q { x with timer := false, expired := true, shows := x.shows.dropLast ++ [{ s with run := false }] }
  else d

/-- The events that assert input i in the CK at hand: LP, deciding symbol (R101, R102). -/
def Dev.seqInput (d : Dev) (h q i : Nat) : List StepBase :=
  let sel := d.seqSelOf h q
  let src := eget sel (SEL_SRC i)
  ((sget [] d.trigEvs h).filter (fun e =>
    (src ≠ 0 && e.src = src && decide (e.ck + eget sel (SEL_DELAY i) = d.ck))
      || (e.src = 0x100 + 16 * q + i && e.ck = d.ck))).map (fun e => ⟨e.lp, e.sym⟩)

/-- The base of higher LP; of equal ones, the first (R108). -/
def baseMax (a b : StepBase) : StepBase := if a.lp.toNat < b.lp.toNat then b else a

/-- A branch's condition in a CK, with the base it would give (R107, R108). -/
def Dev.seqBranch (d : Dev) (h q k : Nat) (s : BitVec 256) : Option StepBase :=
  let ins := (setBits (eget s (SS_MASK k)) 16).map (d.seqInput h q)
  let hot := ins.filter (fun l => l ≠ [])
  let top : Option StepBase := match hot.flatten with
    | [] => none
    | b :: bs => some (bs.foldl baseMax b)
  match eget s (SS_MODE k) with
  | 1 => top
  | 2 => if ins = [] then some ⟨d.pubLp h, none⟩ else if hot.length = ins.length then top else none
  | 3 => if (d.seqOf h q).expired then some ⟨(d.seqOf h q).deadline, none⟩ else none
  | _ => none

/-- A taken branch (R108): NEXT is entered, its action leaves 2 CK later, when STAT shows the state. -/
def Dev.seqTake (d : Dev) (h q k : Nat) (s : BitVec 256) (base : StepBase) : Dev :=
  let a := eget s (SS_ACT k)
  let e := d.seqSlot h q a
  let d := if a = 0 then d
    else d.fly 2 { half := h, src := .seq q a, cls := eget e SA_CLASS, arg0 := eget e SA_ARG0, arg1 := eget e SA_ARG1,
                   tag := eget e SA_TAG, lp := base.lp, pub := 0#72, dest := h, sym := base.sym }
  let p := d.seqEnter h q (eget s (SS_NEXT k)) base.lp false
  p.1.setSeq h q { p.1.seqOf h q with shows := (p.1.seqOf h q).shows ++ [p.2] }

/-- A control write takes effect (R109). -/
def Dev.seqCtl (d : Dev) (h : Nat) (q : Fin 8) (c : SeqCtl) : Dev :=
  match c with
  | .arm => if d.seqArmed h q then d else ((d.setArmed h q 1).seqHome h q).seqSched h q 1
  | .disarm => d.setArmed h q 0
  | .reset =>
    if d.seqArmed h q then d.seqHome h q
    else
      let x := d.seqOf h q
      let s := d.seqState h q 0
      ((d.setSeq h q { x with st := 0, shows := [] }).setFld (Pg.trig h) (F.TRIG_SEQ_CNT q) 0).seqShow h q
        ⟨d.ck, 0, eget s (SS_MODE 0) = 0 && eget s (SS_MODE 1) = 0, d.flag (Pg.trig h) (F.TRIG_SEQ_STAT_TIMER_RUN q)⟩

/-- Control writes of the CK take effect after its evaluation (R109). -/
def Dev.seqAfter (d : Dev) (h : Nat) (q : Fin 8) : Dev :=
  let l := (d.seqOf h q).after
  l.foldl (fun d c => d.seqCtl h q c) (d.setSeq h q { d.seqOf h q with after := [] })

/-- Does what may still assert an input in this CK stand on the agenda? An evaluation follows it (R102). -/
def Dev.seqWaits (d : Dev) : Bool :=
  d.agenda.any (fun e => decide (e.1 ≤ d.ck) && (match e.2 with
    | .userEventLine .. | .sieveMatchEvent .. | .trigBridgeWord .. | .actionArrival => true
    | _ => false))

/-- Is the evaluation of this CK still to come? -/
def Dev.seqDue (d : Dev) (h : Nat) (q : Fin 8) : Bool :=
  d.seqArmed h q && d.agenda.any (fun e => decide (e.1 ≤ d.ck ∧ e.2 = .seqEvaluate (halfOf h) q))

/-- The evaluation of a CK: the timer, the branches, the counter, at most one branch taken (R107, R108). -/
def Dev.seqEval (d : Dev) (h : Nat) (q : Fin 8) : Dev :=
  let pg := Pg.trig h
  let d := d.seqTimerExpiry h q
  let d := d.setSeq h q { d.seqOf h q with evalCk := d.ck + 1 }
  let s := d.seqState h q (d.seqOf h q).st
  let b0 := d.seqBranch h q 0 s
  let b1 := d.seqBranch h q 1 s
  let counts := (b0.isSome && eget s (SS_CNT 0) = 1) || (b1.isSome && eget s (SS_CNT 1) = 1)
  let d := if counts then d.bump pg (F.TRIG_SEQ_CNT q) else d
  let full := decide (eget s SS_CNT_LIMIT ≤ d.fld pg (F.TRIG_SEQ_CNT q))
  let d := d.setSeq h q { d.seqOf h q with expired := false }
  let takes (k : Nat) (b : Option StepBase) : Option StepBase := if eget s (SS_CNT k) = 1 ∧ ¬ full then none else b
  let d := match takes 0 b0, takes 1 b1 with
    | some base, _ => d.seqTake h q 0 s base
    | none, some base => d.seqTake h q 1 s base
    | none, none => d
  d.seqSched h q 1

/-- SEQ_EVALUATE (R107): an armed sequencer evaluates its state once in a CK, from the CK after it is armed, when all that reaches its
inputs in the CK has come; control writes of the CK follow. -/
def Dev.seqEvaluate (d : Dev) (h : Nat) (q : Fin 8) : Dev :=
  let x := d.seqOf h q
  if ¬ d.seqArmed h q then d.seqAfter h q
  else if x.evalCk = d.ck + 1 ∨ x.enterCk = d.ck then (d.seqSched h q 1).seqAfter h q
  else if d.seqWaits then d.seqSched h q 0
  else (d.seqEval h q).seqAfter h q

/-! Issue and crossing (R103, R104, R110, R111). -/

/-- The step base as the trigger class carries it: the published LP plus the difference, kept within 128 symbols (R103). -/
def carriedBase (lp pub : LP) : LP × Bool :=
  let x := (lp - pub).toInt
  let y := max (-32768) (min 32767 x)
  (pub + BitVec.ofInt 72 y, x ≠ y)

/-- An action leaves its unit (R110, R111): a sequencer's is counted and pulses source 0x61 + s; one its mode forbids is
discarded; the rest go on to their destination, 2 CK away in the half, over the bridge otherwise. -/
def Dev.issueAction (d : Dev) (a : Action) : Dev :=
  let h := a.half
  let pub := d.pubLp h
  let go (d : Dev) (a : Action) : Dev :=
    if a.dest = h then ({ d with flying := d.flying ++ [(⟨d.ck + 2, true, a⟩ : Flying)] }).sched 2 .actionArrival
    else d.toBridge h (fun b => { b with acts := b.acts ++ [a] })
  match a.src with
  | .evs i =>
    if a.cls = Cl.host then (d.genEvent 0 2 0 0 (leBytes 4 a.tag ++ leBytes 2 i)).pend (Pg.evs h) 0 else go d { a with pub := pub }
  | .port => go d { a with pub := pub }
  | .seq q _ =>
    let d := (d.bump (Pg.trig h) (F.TRIG_SEQ_ACT_CNT q)).trigEvent h (0x61 + q) a.lp
    if ((a.cls = Cl.stim ∨ a.cls = Cl.play) ∧ ¬ isStimulus (d.modeOf h)) ∨ (a.cls = Cl.mark ∧ ¬ isCapturing (d.modeOf h)) then
      d.bump (Pg.trig h) F.TRIG_MODE_DISC_CNT
    else if a.cls = Cl.host then (d.genEvent 0 2 0 0 (leBytes 4 a.tag)).pend (Pg.evs h) 0
    else
      let dest := d.actionHalf h a.cls a.arg0 a.arg1
      if dest = h then go d { a with pub := pub, dest := dest }
      else
        let (lp, sat) := carriedBase a.lp pub
        go (if sat then d.bump (Pg.trig h) F.TRIG_BASE_SAT_CNT else d) { a with pub := pub, dest := dest, lp := lp }

/-- TRIG_BRIDGE_WORD (R103, R104): the other half takes the oldest word of this half: events at its sequencers, actions that
reach their destination 2 CK later. -/
def Dev.trigBridgeWord (d : Dev) (h : Nat) : Dev :=
  match sget [] d.bridgeOut h with
  | [] => d
  | b :: rest =>
    let d := { d with bridgeOut := sset [] d.bridgeOut h rest }
    if ¬ d.bridgeOk then d
    else
      let d := (b.lines.zip (b.lps.zip b.syms)).foldl (fun d p => d.trigEvent (1 - h) (0x41 + p.1) p.2.1 p.2.2) d
      b.acts.foldl (fun d a =>
        ({ d with flying := d.flying ++ [(⟨d.ck + 2, true, a⟩ : Flying)] }).sched 2 .actionArrival) d

/-- A TRIG entry reaches its sequencer: it asserts the named input in this CK (R101). -/
def Dev.trigInput (d : Dev) (a : Action) : Dev :=
  d.trigEvent (bitsOf a.arg0 3 1) (0x100 + 16 * bitsOf a.arg0 0 3 + bitsOf a.arg0 4 4) a.lp

/-! Arming (R109, R111). -/

/-- A control write: after the evaluation of its CK where that is still to come. -/
def Dev.seqControl (d : Dev) (h : Nat) (q : Fin 8) (c : SeqCtl) : Dev :=
  if d.seqDue h q then d.setSeq h q { d.seqOf h q with after := (d.seqOf h q).after ++ [c] } else d.seqCtl h q c

/-- SEQ_ARM: ARM written 1 while 0 arms at state 0; written 0 stops evaluation. -/
def Dev.seqArm (d : Dev) (h : Nat) (q : Fin 8) (arm : Bool) : Dev := d.seqControl h q (if arm then .arm else .disarm)

/-- SEQ_RESET: state 0, counter 0; the timer runs again if the sequencer is armed. -/
def Dev.seqReset (d : Dev) (h : Nat) (q : Fin 8) : Dev := d.seqControl h q .reset

/-! The tables (R105, R112). -/

/-- Does a selector entry take an event of the other half? -/
def selTakesOther (sel : BitVec 256) : Bool :=
  (List.range 16).any (fun i => decide (0x41 ≤ eget sel (SEL_SRC i)) && decide (eget sel (SEL_SRC i) ≤ 0x60))

/-- Is a slot aimed at the other half (R105)? -/
def Dev.slotAimsOther (d : Dev) (h : Nat) (e : BitVec 128) : Bool :=
  let c := eget e SA_CLASS
  if c = Cl.trig ∨ c = Cl.host ∨ c = 0 then false else d.actionHalf h c (eget e SA_ARG0) (eget e SA_ARG1) ≠ h

/-- Is some written slot of the sequencer, but for one, aimed at the other half? -/
def Dev.seqAimsOther (d : Dev) (h q but : Nat) : Bool :=
  (List.range 16).any (fun a => a ≠ but && d.slotAimsOther h (d.seqSlot h q a))

/-- The refusals of R112 a table write meets, but for arming. -/
def Dev.trigErrors (d : Dev) (h q entry table : Nat) (x : BitVec 256) : List (Nat × Nat) :=
  match table with
  | 0 =>
    if [0, 1].any (fun k => eget x (SS_ACT k) ≠ 0 && eget (d.seqSlot h q (eget x (SS_ACT k))) SA_CLASS = 0) then [(1, 0x0512)]
    else []
  | 1 =>
    let e : BitVec 128 := x.truncate 128
    let c := eget e SA_CLASS
    let res := c = 0 || c > 6
    (if entry = 0 ∨ res ∨ (c = Cl.trig ∧ bitsOf (eget e SA_ARG0) 3 1 ≠ h) then [(1, 0x0512)] else [])
      ++ (if selTakesOther (d.seqSelOf h q) ∧ (d.slotAimsOther h e ∨ d.seqAimsOther h q entry) then [(2, 0x0513)] else [])
      ++ (if ¬ res ∧ ¬ argOk c (eget e SA_ARG0) (eget e SA_ARG1) then [(3, 0x0514)] else [])
  | _ =>
    (if (List.range 16).any (fun i => decide (0x71 ≤ eget x (SEL_SRC i))) then [(1, 0x0512)] else [])
      ++ (if selTakesOther x ∧ d.seqAimsOther h q 0 then [(2, 0x0513)] else [])

/-- A state entry with its reserved bits 0 (R7). -/
def stateClean (x : BitVec 256) : BitVec 256 :=
  [(⟨2, 3, 5⟩ : Fld), ⟨6, 3, 5⟩, ⟨14, 1, 15⟩, ⟨20, 0, 96⟩].foldl (fun x f => eput x f 0) x
/-- A slot with its reserved bits 0. -/
def slotClean (x : BitVec 128) : BitVec 128 := eput (eput x ⟨9, 0, 24⟩ 0) ⟨15, 0, 8⟩ 0
/-- Selectors with their reserved bits 0. -/
def selClean (x : BitVec 256) : BitVec 256 := (List.range 16).foldl (fun x i => eput x ⟨2 * i, 12, 4⟩ 0) x

/-- TRIG_CMD WRITE (R112). -/
def Dev.trigWrite (d : Dev) (h : Nat) : Dev :=
  let pg := Pg.trig h
  let q := d.fld pg F.TRIG_IDX_SEQ
  let entry := d.fld pg F.TRIG_IDX_ENTRY
  let table := d.fld pg F.TRIG_IDX_TABLE
  let x := d.window 256 pg 0x104 8
  match (if d.seqArmed h q then [(0, 0x0511)] else []) ++ d.trigErrors h q entry table x with
  | [] =>
    let d := match table with
      | 0 => { d with seqStates := sset 0#256 d.seqStates (seqKey h q * 16 + entry) (stateClean x) }
      | 1 => { d with seqSlots := sset 0#128 d.seqSlots (seqKey h q * 16 + entry) (slotClean (x.truncate 128)) }
      | _ => { d with seqSel := sset 0#256 d.seqSel (seqKey h q) (selClean x) }
    d.setFld pg F.TRIG_CMD_STATUS 0
  | es => (d.errs pg es).setFld pg F.TRIG_CMD_STATUS 2

/-- TRIG_CMD READ (Table 5-7). -/
def Dev.trigRead (d : Dev) (h : Nat) : Dev :=
  let pg := Pg.trig h
  let q := d.fld pg F.TRIG_IDX_SEQ
  let entry := d.fld pg F.TRIG_IDX_ENTRY
  let x : BitVec 256 := match d.fld pg F.TRIG_IDX_TABLE with
    | 0 => d.seqState h q entry
    | 1 => (d.seqSlot h q entry).zeroExtend 256
    | _ => d.seqSelOf h q
  (d.setWindow pg 0x104 8 x).setFld pg F.TRIG_CMD_STATUS 0

/-! The commands. -/

/-- SEQ_EVALUATE (R107). -/
def execSeqEvaluate (h : Half) (q : Fin 8) (s : State) : Host.Outcome State Fault Refusal :=
  s.run (.seqEvaluate h q) (fun d => d.seqEvaluate h.val q)

/-- SEQ_TIMER_EXPIRY (R108). -/
def execSeqTimerExpiry (h : Half) (q : Fin 8) (s : State) : Host.Outcome State Fault Refusal :=
  s.run (.seqTimerExpiry h q) (fun d => d.seqTimerExpiry h.val q.val)

/-- TRIG_BRIDGE_WORD (R103). -/
def execTrigBridgeWord (h : Half) (s : State) : Host.Outcome State Fault Refusal :=
  s.run (.trigBridgeWord h) (fun d => d.trigBridgeWord h.val)

/-- SEQ_ARM (R109). -/
def execSeqArm (h : Half) (q : Fin 8) (arm : Bool) (s : State) : Host.Outcome State Fault Refusal :=
  s.cmd (fun d => d.swGate (raddr (Pg.trig h.val) (0x140 + 4 * q.val)) (BitVec.ofNat 32 (b01 arm)) (fun d => d.seqArm h.val q arm))

/-- SEQ_RESET (R109). -/
def execSeqReset (h : Half) (q : Fin 8) (s : State) : Host.Outcome State Fault Refusal :=
  s.cmd (fun d => d.swGate (raddr (Pg.trig h.val) (0x140 + 4 * q.val)) (BitVec.ofNat 32 (2 + b01 (d.seqArmed h.val q.val))) (fun d => d.seqReset h.val q))

/-- TRIG_WRITE (R112). -/
def execTrigWrite (h : Half) (s : State) : Host.Outcome State Fault Refusal :=
  s.cmd (fun d => d.swGate (raddr (Pg.trig h.val) 0x124) 1#32 (fun d => d.trigWrite h.val))

/-- TRIG_READ (R115). -/
def execTrigRead (h : Half) (s : State) : Host.Outcome State Fault Refusal :=
  s.cmd (fun d => d.swGate (raddr (Pg.trig h.val) 0x124) 2#32 (fun d => d.trigRead h.val))

end Sys2Proof.Machine
end

