-- ==== Sys2Proof/Machine/Arrive.lean ====
section
/-! DEFINITION. Where actions arrive after their fan-out (R82, R104, R110, R118, R131). -/

namespace Sys2Proof.Machine

/-- The payload of a trigger mark (Table 6-7). -/
def markPayload (a : Action) : List Byte :=
  let p : Nat × Nat × Nat × Nat := match a.src with
    | .evs i => (0, 0, 0, i)
    | .seq q slot => (1, q, slot, 0)
    | .port => (0, 0, 0, 0)
  [byteOf p.1 0, byteOf a.half 0, byteOf p.2.1 0, byteOf p.2.2.1 0] ++ leBytes 2 p.2.2.2 ++ [0#8, 0#8] ++ leBytes 8 (lpInt a.pub)
    ++ List.replicate 16 0#8

/-- A trigger mark at the capture queue, after every other record of its CK (R119). -/
def Dev.markArrives (d : Dev) (a : Action) : Dev :=
  let rid := d.nextRid
  (d.addRec { half := a.dest, lane := ownLane a.dest, typ := 2, lp := a.lp, flow := a.arg0 % 4096, tag := a.tag, payload := markPayload a,
              ended := true, reached := 32, complete := true, outSeen := true, mark := some a.src,
              outc := some ⟨.keep, a.arg0 % 4096, 0, a.tag, 0, 0⟩ }).toAlloc a.dest 0 400 rid

/-- An issued action at its destination. -/
def Dev.actionArrives (d : Dev) (a : Action) : Dev :=
  match a.cls with
  | 1 => ({ d with stimIn := d.stimIn ++ [a] } : Dev).sched 0 (.stimActionArrival (halfOf a.dest))
  | 2 => ({ d with stimIn := d.stimIn ++ [a] } : Dev).sched 0 (.playAction (halfOf a.dest))
  | 3 => d.trigInput a
  | 4 => d.snap (a.arg0 % 16)
  | 6 => d.markArrives a
  | _ => d

/-- The first action on its way whose CK has come, and the others. -/
def takeFlying (now : Nat) : List Flying → Option (Flying × List Flying)
  | [] => none
  | f :: r => if f.due ≤ now then some (f, r) else (takeFlying now r).map (fun p => (p.1, f :: p.2))

/-- ACTION_ARRIVAL: an action leaves its unit, or reaches its destination. -/
def Dev.actionArrival (d : Dev) : Dev :=
  match takeFlying d.ck d.flying with
  | none => d
  | some (f, rest) =>
    let d : Dev := { d with flying := rest }
    if f.issued then d.actionArrives f.act else d.issueAction f.act

/-! The commands. -/

/-- ACTION_ARRIVAL (R82). -/
def execActionArrival (s : State) : Host.Outcome State Fault Refusal :=
  s.run .actionArrival (fun d => d.actionArrival)

end Sys2Proof.Machine
end

