-- ==== Sys2Proof/Machine/IsaMem.lean ====
section
/-! DEFINITION. The instructions that reach memory and the record stream (R170 to R175, Tables 8-2, 8-4, 8-5). -/

namespace Sys2Proof.Machine

/-- The effective address of a load, store or LR (R170). -/
def EngSt.ea (g : EngSt) (a : Fin 32) (imm : BitVec 16) : Nat := (g.reg a + sext16 imm).toNat

/-- A load of either profile. -/
def Dev.load (d : Dev) (e : Fin 196) (i : Instr) (dst a : Fin 32) (imm : BitVec 16) (size : Nat) (sx lr : Bool) (ecc : Nat) : Dev :=
  d.issue e i { mSlot := true, reads := [nReg a], writes := [nReg dst] } (fun d =>
    let ea := (d.engOf e.val).ea a imm
    if e.val < 192 then d.newtLoad e.val dst size sx lr ecc ea else d.gkLoad (e.val - 192) i dst size sx lr ecc ea)

/-- A store of either profile. -/
def Dev.store (d : Dev) (e : Fin 196) (i : Instr) (src a : Fin 32) (imm : BitVec 16) (size : Nat) : Dev :=
  d.issue e i { mSlot := true, reads := [nReg src, nReg a] } (fun d =>
    let g := d.engOf e.val
    let ea := g.ea a imm
    if e.val < 192 then d.newtStore e.val size (g.reg src) ea else d.gkStore (e.val - 192) i size (g.reg src) ea)

/-- A stream instruction: the engine profile has it, on a Gecko core it is a reserved encoding (R162, R174). -/
def Dev.stream (d : Dev) (e : Fin 196) (i : Instr) (x : Isu) (f : Dev → Dev) : Dev :=
  if e.val < 192 then d.issue e i x f else d.reservedForm e

/-- LD8U (R170). -/
def execLd8u (e : Fin 196) (dst a : Fin 32) (imm : BitVec 16) (ecc : Fin 3) (s : State) : Host.Outcome State Fault Refusal :=
  s.run (.ld8u e dst a imm ecc) (fun d => d.load e (.ld8u e dst a imm ecc) dst a imm 1 false false ecc.val)

/-- LD16U (R170). -/
def execLd16u (e : Fin 196) (dst a : Fin 32) (imm : BitVec 16) (ecc : Fin 3) (s : State) : Host.Outcome State Fault Refusal :=
  s.run (.ld16u e dst a imm ecc) (fun d => d.load e (.ld16u e dst a imm ecc) dst a imm 2 false false ecc.val)

/-- LD32U (R170). -/
def execLd32u (e : Fin 196) (dst a : Fin 32) (imm : BitVec 16) (ecc : Fin 3) (s : State) : Host.Outcome State Fault Refusal :=
  s.run (.ld32u e dst a imm ecc) (fun d => d.load e (.ld32u e dst a imm ecc) dst a imm 4 false false ecc.val)

/-- LD64 (R170). -/
def execLd64 (e : Fin 196) (dst a : Fin 32) (imm : BitVec 16) (ecc : Fin 3) (s : State) : Host.Outcome State Fault Refusal :=
  s.run (.ld64 e dst a imm ecc) (fun d => d.load e (.ld64 e dst a imm ecc) dst a imm 8 false false ecc.val)

/-- LD8S (R170). -/
def execLd8s (e : Fin 196) (dst a : Fin 32) (imm : BitVec 16) (ecc : Fin 3) (s : State) : Host.Outcome State Fault Refusal :=
  s.run (.ld8s e dst a imm ecc) (fun d => d.load e (.ld8s e dst a imm ecc) dst a imm 1 true false ecc.val)

/-- LD16S (R170). -/
def execLd16s (e : Fin 196) (dst a : Fin 32) (imm : BitVec 16) (ecc : Fin 3) (s : State) : Host.Outcome State Fault Refusal :=
  s.run (.ld16s e dst a imm ecc) (fun d => d.load e (.ld16s e dst a imm ecc) dst a imm 2 true false ecc.val)

/-- LD32S (R170). -/
def execLd32s (e : Fin 196) (dst a : Fin 32) (imm : BitVec 16) (ecc : Fin 3) (s : State) : Host.Outcome State Fault Refusal :=
  s.run (.ld32s e dst a imm ecc) (fun d => d.load e (.ld32s e dst a imm ecc) dst a imm 4 true false ecc.val)

/-- ST8 (R171). -/
def execSt8 (e : Fin 196) (dst a : Fin 32) (imm : BitVec 16) (s : State) : Host.Outcome State Fault Refusal :=
  s.run (.st8 e dst a imm) (fun d => d.store e (.st8 e dst a imm) dst a imm 1)

/-- ST16 (R171). -/
def execSt16 (e : Fin 196) (dst a : Fin 32) (imm : BitVec 16) (s : State) : Host.Outcome State Fault Refusal :=
  s.run (.st16 e dst a imm) (fun d => d.store e (.st16 e dst a imm) dst a imm 2)

/-- ST32 (R171). -/
def execSt32 (e : Fin 196) (dst a : Fin 32) (imm : BitVec 16) (s : State) : Host.Outcome State Fault Refusal :=
  s.run (.st32 e dst a imm) (fun d => d.store e (.st32 e dst a imm) dst a imm 4)

/-- ST64 (R171). -/
def execSt64 (e : Fin 196) (dst a : Fin 32) (imm : BitVec 16) (s : State) : Host.Outcome State Fault Refusal :=
  s.run (.st64 e dst a imm) (fun d => d.store e (.st64 e dst a imm) dst a imm 8)

/-- LR (R172). -/
def execLr (e : Fin 196) (dst a : Fin 32) (imm : BitVec 16) (ecc : Fin 3) (s : State) : Host.Outcome State Fault Refusal :=
  s.run (.lr e dst a imm ecc) (fun d => d.load e (.lr e dst a imm ecc) dst a imm 8 false true ecc.val)

/-- SC (R172). -/
def execSc (e : Fin 196) (dst a b : Fin 32) (s : State) : Host.Outcome State Fault Refusal :=
  s.run (.sc e dst a b) (fun d => d.issue e (.sc e dst a b) { mSlot := true, reads := [nReg a, nReg b], writes := [nReg dst] } (fun d =>
    let g := d.engOf e.val
    let ea := (g.reg a).toNat
    if e.val < 192 then d.newtCond e.val dst (g.reg b) ea else d.gkCond (e.val - 192) dst (g.reg b) ea))

/-- FENCE (R173). -/
def execFence (e : Fin 196) (s : State) : Host.Outcome State Fault Refusal :=
  s.run (.fence e) (fun d => d.issue e (.fence e) { mSlot := true } (fun d => d.fenceOp e.val false))

/-- FENCE_W (R173). -/
def execFenceW (e : Fin 196) (s : State) : Host.Outcome State Fault Refusal :=
  s.run (.fenceW e) (fun d => d.issue e (.fenceW e) { mSlot := true } (fun d => d.fenceOp e.val true))

/-- POP (R146). -/
def execPop (e : Fin 196) (s : State) : Host.Outcome State Fault Refusal :=
  s.run (.pop e) (fun d => d.stream e (.pop e) 
    { mSlot := true, alone := true, afterStores := true, writes := [1, 2, 3, 4] } (fun d => d.pop e.val))

/-- PEEK (R146). -/
def execPeek (e : Fin 196) (dst : Fin 32) (s : State) : Host.Outcome State Fault Refusal :=
  s.run (.peek e dst) (fun d => d.stream e (.peek e dst) { mSlot := true, writes := [nReg dst, pReg 0] } (fun d => d.peek e.val dst))

/-- PUSH_CUR (R148). -/
def execPushCur (e : Fin 196) (a b : Fin 32) (trunc : Bool) (s : State) : Host.Outcome State Fault Refusal :=
  s.run (.pushCur e a b trunc) (fun d => d.stream e (.pushCur e a b trunc) { mSlot := true, reads := [nReg a, nReg b] } (fun d =>
    let g := d.engOf e.val
    d.pushCur e.val ((g.reg a).toNat % 2 ^ 16) ((g.reg b).toNat % 2 ^ 24) trunc))

/-- PUSH_SP (R148). -/
def execPushSp (e : Fin 196) (dst a b : Fin 32) (trunc : Bool) (ecc : Fin 3) (s : State) : Host.Outcome State Fault Refusal :=
  s.run (.pushSp e dst a b trunc ecc) (fun d => d.stream e (.pushSp e dst a b trunc ecc) { mSlot := true, reads := [nReg dst, nReg a, nReg b] } (fun d =>
    let g := d.engOf e.val
    d.pushSp e.val (g.reg dst).toNat ((g.reg a).toNat % 2 ^ 16) ((g.reg b).toNat % 2 ^ 24) trunc ecc.val))

/-- EMIT (R151). -/
def execEmit (e : Fin 196) (line : Fin 8) (s : State) : Host.Outcome State Fault Refusal :=
  s.run (.emit e line) (fun d => d.stream e (.emit e line) { mSlot := true } (fun d =>
    (d.sched 1 (.userEventLine (halfOf (engHalf e.val)) line)).next e.val))

/-- TRAP (R175). -/
def execTrap (e : Fin 196) (s : State) : Host.Outcome State Fault Refusal :=
  s.run (.trap e) (fun d => d.issue e (.trap e) { noSlot := true, alone := true } (fun d => d.except e.val 8 false 0))

end Sys2Proof.Machine
end

