-- ==== Sys2Proof/Machine/Gecko.lean ====
section
/-! DEFINITION. The control profile and the Gecko cores: control registers, ERET, WFI, ECALL, interrupts, mailboxes, watchdogs, resets,
cache operations (R176 to R181, R390 to R394, R425 to R427). -/

namespace Sys2Proof.Machine

/-! CSR instructions (R176, R177, Table 8-7). -/

/-- The bits a control register accepts: none for a number Table 8-7 does not list, 0 for one whose fields are all RO. -/
def csrMask (num : Nat) : Option Nat :=
  match num with
  | 0x000 => some 0x1F
  | 0x001 => some (2 ^ 62 - 1)
  | 0x002 => some 0x1F1F
  | 0x003 => some (2 ^ 64 - 1)
  | 0x004 => some (2 ^ 62 - 1)
  | 0x005 => some (2 ^ 64 - 1)
  | 0x006 => some (2 ^ 64 - 1)
  | 0x008 => some (2 ^ 32 - 1)
  | 0x009 => some 0
  | 0x00A => some 0xFFFF
  | 0x010 => some 0
  | 0x011 => some 0
  | 0x012 => some 0
  | 0x013 => some 0
  | n => if 0x040 ≤ n ∧ n < 0x070 then some (if (n - 0x040) % 3 = 2 then 0x1F else 2 ^ 64 - 4096) else none

/-- Registers a CSRR may read at U. -/
def csrUser (num : Nat) : Bool := [Csr.cycle.num, Csr.lp.num, Csr.lpfrac.num, Csr.core.num, Csr.taskid.num].contains num

/-- A control register as it reads. -/
def Dev.csrRead (d : Dev) (k num : Nat) : BitVec 64 :=
  match num with
  | 0x009 => BitVec.ofNat 64 (d.gkIp k)
  | 0x010 => BitVec.ofNat 64 (d.gkCycle k)
  | 0x011 => BitVec.ofNat 64 (lpInt (d.pubLp (k / 2)))
  | 0x012 => (d.gkOf k).lpFrac.zeroExtend 64
  | 0x013 => BitVec.ofNat 64 k
  | _ => d.csr k num

/-- Reading LP takes its fraction along. -/
def Dev.csrTouch (d : Dev) (k num : Nat) : Dev :=
  if num = Csr.lp.num then d.setGk k { d.gkOf k with lpFrac := BitVec.ofNat 8 (lpFrac (d.pubLp (k / 2))) } else d

/-- A write of the register's writable bits. -/
def Dev.csrWrite (d : Dev) (k num : Nat) (v : BitVec 64) : Dev :=
  match csrMask num with
  | some m =>
    let mv := BitVec.ofNat 64 m
    if m = 0 then d else d.setCsr k num ((d.csr k num &&& ~~~mv) ||| (v &&& mv))
  | none => d

/-- The cause a CSR instruction raises, the lowest first: an unlisted register or a write of one whose fields are all RO, privilege
(R176, R177). -/
def Dev.csrCause (d : Dev) (k num : Nat) (write : Bool) : Option Nat :=
  match csrMask num with
  | none => some 2
  | some m =>
    if write ∧ m = 0 then some 2
    else if ¬ d.gkPriv k ∧ (write ∨ ¬ csrUser num) then some 9
    else none

/-- A CSR instruction of a Gecko core: `new` gives the value written from the old one. -/
def Dev.csrOp (d : Dev) (e : Fin 196) (i : Instr) (dst : Fin 32) (reads : List Nat) (num : Nat) (write : Bool)
    (new : EngSt → BitVec 64 → BitVec 64) : Dev :=
  if e.val < 192 then d.reservedForm e
  else
    let k := e.val - 192
    d.issue e i { reads := reads, writes := [nReg dst] } (fun d =>
      match d.csrCause k num write with
      | some c => d.except e.val c false 0
      | none =>
        let old := d.csrRead k num
        let g := d.engOf e.val
        let d := (d.csrTouch k num).result e.val dst old 1 false
        (if write then d.csrWrite k num (new g old) else d).next e.val)

/-- A SYS instruction: the control profile has it, on a Newt engine it is a reserved encoding (R162). -/
def Dev.sysOp (d : Dev) (e : Fin 196) (i : Instr) (x : Isu) (f : Nat → Dev → Dev) : Dev :=
  if e.val < 192 then d.reservedForm e else d.issue e i { x with alone := true } (f (e.val - 192))

/-- ERET (R181, R425): from a live handler back to DPC the core is in MONITOR again before that instruction issues. -/
def Dev.eret (d : Dev) (k : Nat) : Dev :=
  let t := 192 + k
  if ¬ d.gkPriv k then d.except t 9 false 0
  else
    let d := d.setCsr k Csr.status.num (statusReturn (d.csr k Csr.status.num))
    let pc := (d.csr k Csr.epc.num).toNat % 2 ^ 62
    let dpc := d.tfld t F.DBG_DPC_LO + 2 ^ 32 * d.tfld t F.DBG_DPC_HI
    if (d.gkOf k).live ∧ pc = dpc then
      ((d.setGk k { d.gkOf k with live := false }).goTo t pc).detectStop t (d.tfld t F.DBG_TGT_STAT_CAUSE) (d.tfld t F.DBG_TGT_STAT_INDEX)
    else d.jump t pc

/-- WFI (R180): it completes once a source is pending and enabled, whatever STATUS.IE holds. -/
def Dev.wfi (d : Dev) (k : Nat) : Dev :=
  let t := 192 + k
  if ¬ d.gkPriv k then d.except t 9 false 0
  else if d.gkWaiting k ≠ 0 then (d.setFld (Pg.gecko k) F.GECKO_STAT_STATE Gs.run).next t
  else (d.setEng t { d.engOf t with popWait := true }).setFld (Pg.gecko k) F.GECKO_STAT_STATE Gs.wfi

/-- A core in WFI goes on when its condition holds. -/
def Dev.wfiWake (d : Dev) (k : Nat) : Dev :=
  let t := 192 + k
  if d.fld (Pg.gecko k) F.GECKO_STAT_STATE = Gs.wfi ∧ (d.engOf t).popWait ∧ (d.dbgOf t).stop.isNone ∧ d.gkWaiting k ≠ 0 then
    ((d.setEng t { d.engOf t with popWait := false }).setFld (Pg.gecko k) F.GECKO_STAT_STATE Gs.run).next t
  else d

/-! The watchdog (R393, R427). -/

/-- The watchdog starts from its full period, or stands still at period 0. -/
def Dev.wdogReload (d : Dev) (k : Nat) : Dev :=
  let p := d.fld (Pg.gecko k) F.GECKO_WDOG_PERIOD
  let d : Dev := { d with agenda := d.agenda.filter (fun (e : Nat × Instr) => !decide (e.2 = .watchdogExpiry (gkOp k))) }
  if p = 0 then d.setGk k { d.gkOf k with wdogCk := none }
  else (d.setGk k { d.gkOf k with wdogCk := some (d.ck + 1000 * p) }).sched (1000 * p) (.watchdogExpiry (gkOp k))

/-- KICK: the watchdog reloads, source 2 clears. -/
def Dev.kick (d : Dev) (k : Nat) : Dev :=
  ((d.setGk k { d.gkOf k with wdogOnce := false }).gkClear k 2).wdogReload k

/-- A value arrives in a core's mailbox with source 4. -/
def Dev.mailTo (d : Dev) (k : Nat) (v : Word) : Dev := (d.setReg (Pg.gecko k) 0x10C v).gkRaise k 4

/-- The other core of a complex. -/
def otherCore (k : Nat) : Nat := if k % 2 = 0 then k + 1 else k - 1

/-- WATCHDOG_EXPIRY: the first raises source 2 and reloads, the second without a kick stops the core. -/
def Dev.watchdogExpiry (d : Dev) (k : Nat) : Dev :=
  let st := d.fld (Pg.gecko k) F.GECKO_STAT_STATE
  let due : Bool := match (d.gkOf k).wdogCk with | some c => decide (c ≤ d.ck) | none => false
  if ¬ due ∨ st = Gs.reset ∨ st = Gs.stopped then d
  else if (d.gkOf k).wdogOnce then
    let d := d.setGk k { d.gkOf k with wdogCk := none }
    let d := if st = Gs.monitor then
        (d.setFld Pg.dbg F.DBG_STAT_STOPPED (d.fld Pg.dbg F.DBG_STAT_STOPPED - 1)).setTfld (192 + k) F.DBG_TGT_STAT_STOPPED 0
      else d
    ((d.err (Pg.gecko k) 2 0x1403).gkStop k).mailTo (otherCore k) 0xFFFFFFFF#32
  else ((d.setGk k { d.gkOf k with wdogOnce := true }).gkRaise k 2).wdogReload k

/-! Monitor exits of a core (R425, R427). -/

/-- A target leaves MONITOR: the count of stopped targets, a core's watchdog. -/
def Dev.leaveMonitor (d : Dev) (t : Nat) : Dev :=
  let d := (d.setFld Pg.dbg F.DBG_STAT_STOPPED (d.fld Pg.dbg F.DBG_STAT_STOPPED - 1)).setTfld t F.DBG_TGT_STAT_STOPPED 0
  if 192 ≤ t ∧ d.flag Pg.dbg F.DBG_CTRL_WDOG_HOLD then d.wdogReload (t - 192) else d

/-- DPC of a stopped target. -/
def Dev.dpcOf (d : Dev) (t : Nat) : Nat := d.tfld t F.DBG_DPC_LO + 2 ^ 32 * d.tfld t F.DBG_DPC_HI

/-- INTERRUPT_TAKEN (R180): the lowest takeable source; from MONITOR one that LIVE lets through (R425). -/
def Dev.interruptTaken (d : Dev) (k : Nat) : Dev :=
  let t := 192 + k
  if d.inMonitor t then
    let can := setBits (d.gkWaiting k &&& d.tfld t F.DBG_LIVE) 32
    match can.head? with
    | some s =>
      if d.gkIE k ∧ ¬ d.gkEXL k then
        let d := (d.leaveMonitor t).setTfld t F.DBG_TGT_STAT_LIVE_RUN 1
        let d := d.setGk k { d.gkOf k with live := true }
        let d := ((d.setFld (Pg.gecko k) F.GECKO_STAT_STATE Gs.run).goTo t (d.dpcOf t))
        d.gkTrap k 0xC false 0 s
      else d
    | none => d
  else match d.gkTakeable k with
    | some s => d.gkTrap k 0xC false 0 s
    | none => d

/-! Resets and cache operations (R390, R394). -/

/-- A core starts at an index with every register zero, at K (R394, R396). -/
def Dev.coreStart (d : Dev) (k idx : Nat) : Dev :=
  let t := 192 + k
  let d := d.setEng t { pc := idx, nextCk := d.ck }
  let d := d.setGk k { entry := some idx, bornCk := d.ck, wdogCk := (d.gkOf k).wdogCk, srcs := [] }
  let d := (d.setFld (Pg.gecko k) F.GECKO_STAT_STATE Gs.run).showWbuf k
  (d.wdogReload k).fetch t

/-- GECKO_CORE_RESET (R394): RESET for 16 CK, then the entry index of the last boot. -/
def Dev.geckoCoreReset (d : Dev) (k : Nat) : Dev :=
  let x := d.gkOf k
  let t := 192 + k
  match x.resetCk, x.entry with
  | some c, some idx => if c ≤ d.ck then (d.setGk k { x with resetCk := none }).coreStart k idx else d
  | _, _ =>
    let was := d.inMonitor t
    let d := d.dropFetch t
    let d : Dev := { d with agenda := d.agenda.filter (fun (e : Nat × Instr) => !decide (e.2 = .writeBufferDrain (gkOp k))
                              && !decide (e.2 = .watchdogExpiry (gkOp k)) && !decide (e.2 = .cacheOpDone (gkOp k))) }
    let d := if was then (d.setFld Pg.dbg F.DBG_STAT_STOPPED (d.fld Pg.dbg F.DBG_STAT_STOPPED - 1)).setTfld t F.DBG_TGT_STAT_STOPPED 0 else d
    let d := (d.setEng t {}).setDbg t { d.dbgOf t with stop := none, step := 0, caught := false }
    let d := d.setGk k { entry := x.entry, resetCk := x.entry.map (fun _ => d.ck + 16), bornCk := d.ck }
    let d := (((d.setFld (Pg.gecko k) F.GECKO_STAT_STATE Gs.reset).setFld (Pg.gecko k) F.GECKO_DC_OP_STATUS 0)).showWbuf k
    if x.entry.isSome then d.sched 16 (.geckoCoreReset (gkOp k)) else d

/-- A cache operation (R390): `clean` writes back dirty lines of the range, `inval` discards lines of it. -/
def Dev.cacheOp (d : Dev) (k : Nat) (clean inval ic : Bool) : Dev :=
  let pg := Pg.gecko k
  let a := d.reg64 pg 0x164
  let n := d.fld pg F.GECKO_DC_LEN
  if a % 64 ≠ 0 ∨ n % 64 ≠ 0 ∨ n = 0 ∨ (d.gkOf k).opCk.isSome then (d.setFld pg F.GECKO_DC_OP_STATUS 2).err pg 4 0x1405
  else
    let mine (x : CLine) : Bool := decide (a ≤ x.line) && decide (x.line < a + n)
    let dirty := ((d.gkOf k).dcache.filter (fun x => mine x && x.dirty))
    let d := if clean then dirty.foldl (fun (d : Dev) x => d.writeBackLine k x false) d else d
    let x := d.gkOf k
    let dc := if inval then x.dcache.filter (fun y => !mine y)
      else x.dcache.map (fun y => if mine y then { y with dirty := false } else y)
    let icl := if ic then x.icache.filter (fun y => !mine y) else x.icache
    let t := 8 + n / 64
    ((d.setGk k { x with dcache := dc, icache := icl, opCk := some (d.ck + t) }).setFld pg F.GECKO_DC_OP_STATUS 1).sched t
      (.cacheOpDone (gkOp k))

/-- CACHE_OP_DONE: once every write-back has entered the buffer, STATUS is 0b00 and INT_PEND bit 1 sets (R390, R408). -/
def Dev.cacheOpDone (d : Dev) (k : Nat) : Dev :=
  match (d.gkOf k).opCk with
  | none => d
  | some _ =>
    if (d.gkOf k).spill ≠ [] then d.sched 1 (.cacheOpDone (gkOp k))
    else ((d.setGk k { d.gkOf k with opCk := none }).setFld (Pg.gecko k) F.GECKO_DC_OP_STATUS 0).pend (Pg.gecko k) 1

/-- A write to GECKOn_IRQ_ACK: bits 0, 4 and 5 clear their sources (R392). -/
def Dev.irqAck (d : Dev) (k : Nat) (val : Word) : Dev :=
  let v := val.toNat
  let d := [0, 4, 5].foldl (fun (d : Dev) s => if bit v s then d.gkClear k s else d) d
  if v / 64 ≠ 0 then d.regErr (Pg.gecko k) 1 else d

/-! The commands. -/

/-- CSRR (R177). -/
def execCsrr (e : Fin 196) (dst : Fin 32) (num : BitVec 11) (s : State) : Host.Outcome State Fault Refusal :=
  s.run (.csrr e dst num) (fun d => d.csrOp e (.csrr e dst num) dst [] num.toNat false (fun _ old => old))

/-- CSRW (R177). -/
def execCsrw (e : Fin 196) (dst a : Fin 32) (num : BitVec 11) (s : State) : Host.Outcome State Fault Refusal :=
  s.run (.csrw e dst a num) (fun d => d.csrOp e (.csrw e dst a num) dst [nReg a] num.toNat true (fun g _ => g.reg a))

/-- CSRS (R177). -/
def execCsrs (e : Fin 196) (dst a : Fin 32) (num : BitVec 11) (s : State) : Host.Outcome State Fault Refusal :=
  s.run (.csrs e dst a num) (fun d => d.csrOp e (.csrs e dst a num) dst [nReg a] num.toNat true (fun g old => old ||| g.reg a))

/-- CSRC (R177). -/
def execCsrc (e : Fin 196) (dst a : Fin 32) (num : BitVec 11) (s : State) : Host.Outcome State Fault Refusal :=
  s.run (.csrc e dst a num) (fun d => d.csrOp e (.csrc e dst a num) dst [nReg a] num.toNat true (fun g old => old &&& ~~~g.reg a))

/-- ERET (R181). -/
def execEret (e : Fin 196) (s : State) : Host.Outcome State Fault Refusal :=
  s.run (.eret e) (fun d => d.sysOp e (.eret e) {} (fun k d => d.eret k))

/-- WFI (R180). -/
def execWfi (e : Fin 196) (s : State) : Host.Outcome State Fault Refusal :=
  s.run (.wfi e) (fun d => d.sysOp e (.wfi e) { mSlot := true } (fun k d => d.wfi k))

/-- ECALL (R176). -/
def execEcall (e : Fin 196) (s : State) : Host.Outcome State Fault Refusal :=
  s.run (.ecall e) (fun d => d.sysOp e (.ecall e) { noSlot := true } (fun k d => d.except (192 + k) 0xB false 0))

/-- GECKO_EXCEPTION (R181). -/
def execGeckoException (k : Fin 4) (cause : Fin 16) (retry : Bool) (addr : Word64) (s : State) : Host.Outcome State Fault Refusal :=
  s.run (.geckoException k cause retry addr) (fun d => d.gkFault k.val cause.val retry addr.toNat)

/-- INTERRUPT_TAKEN (R180). -/
def execInterruptTaken (k : Fin 4) (s : State) : Host.Outcome State Fault Refusal :=
  s.run (.interruptTaken k) (fun d => d.interruptTaken k.val)

/-- GECKO_CORE_RESET (R394). -/
def execGeckoCoreReset (k : Fin 4) (s : State) : Host.Outcome State Fault Refusal :=
  s.run (.geckoCoreReset k) (fun d => d.geckoCoreReset k.val)

/-- KICK (R393). -/
def execKick (k : Fin 4) (s : State) : Host.Outcome State Fault Refusal := s.cmd (fun d => d.kick k.val)

/-- WATCHDOG_EXPIRY (R393). -/
def execWatchdogExpiry (k : Fin 4) (s : State) : Host.Outcome State Fault Refusal :=
  s.run (.watchdogExpiry k) (fun d => d.watchdogExpiry k.val)

/-- TIMER_COMPARE (R392): CYCLE has reached TIMER_CMP, which is source 1 by itself; a core in WFI goes on. -/
def execTimerCompare (k : Fin 4) (s : State) : Host.Outcome State Fault Refusal :=
  s.run (.timerCompare k) (fun d => d.wfiWake k.val)

/-- MBOX_WRITE (R392): the value and source 4 go to the other core of the complex. -/
def execMboxWrite (k : Fin 4) (val : Word) (s : State) : Host.Outcome State Fault Refusal :=
  s.cmd (fun d => d.mailTo (otherCore k.val) val)

/-- IRQ_ACK (R392). -/
def execIrqAck (k : Fin 4) (val : Word) (s : State) : Host.Outcome State Fault Refusal := s.cmd (fun d => d.irqAck k.val val)

/-- CLEAN (R390). -/
def execClean (k : Fin 4) (ic : Bool) (s : State) : Host.Outcome State Fault Refusal := s.cmd (fun d => d.cacheOp k.val true false ic)

/-- INVAL (R390). -/
def execInval (k : Fin 4) (ic : Bool) (s : State) : Host.Outcome State Fault Refusal := s.cmd (fun d => d.cacheOp k.val false true ic)

/-- CLEAN_INVAL (R390). -/
def execCleanInval (k : Fin 4) (ic : Bool) (s : State) : Host.Outcome State Fault Refusal :=
  s.cmd (fun d => d.cacheOp k.val true true ic)

/-- CACHE_OP_DONE (R390). -/
def execCacheOpDone (k : Fin 4) (s : State) : Host.Outcome State Fault Refusal := s.run (.cacheOpDone k) (fun d => d.cacheOpDone k.val)

end Sys2Proof.Machine
end

