-- ==== Sys2Proof/Machine/Debug.lean ====
section
/-! DEFINITION. Run control and the inspection master: HALT, RESUME and STEP, entry to MONITOR, register accesses, break ranges
(R422 to R431). -/

namespace Sys2Proof.Machine

/-- The target DBG_SEL names. -/
def Dev.dbgSel (d : Dev) : Nat := d.fld Pg.dbg F.DBG_SEL_TARGET

/-- The detected stop takes effect (R423): the state before, the cause, DPC, the reservation, the task budget, a core's watchdog. -/
def Dev.monitorEnter (d : Dev) (t : Nat) : Dev :=
  match (d.dbgOf t).stop with
  | none => d
  | some (cause, idx, _, due) =>
    if d.ck < due then d
    else
      let prev := d.tgtState t
      let d := (d.dropFetch t).settleStall t
      let d := d.setDbg t { d.dbgOf t with stop := none, step := 0, skip := false }
      let d := if d.tflag t F.DBG_TGT_STAT_LIVE_RUN then d.setTfld t F.DBG_TGT_STAT_LIVE_RUN 0 else d.setTfld t F.DBG_TGT_STAT_PREV prev
      let d := ((d.setTfld t F.DBG_TGT_STAT_STOPPED 1).setTfld t F.DBG_TGT_STAT_CAUSE cause).setTfld t F.DBG_TGT_STAT_INDEX idx
      let g := d.engOf t
      let d := (d.setTfld t F.DBG_DPC_LO (g.pc % 2 ^ 32)).setTfld t F.DBG_DPC_HI (g.pc / 2 ^ 32)
      let d := d.setEng t { g with resv := none, offFrom := if g.taskCk ≠ 0 ∧ g.offFrom = 0 then d.ck + 1 else g.offFrom }
      let d := if t < 192 then d.setEngState t Es.monitor
        else
          let k := t - 192
          let d := d.setFld (Pg.gecko k) F.GECKO_STAT_STATE Gs.monitor
          if d.flag Pg.dbg F.DBG_CTRL_WDOG_HOLD then
            let d : Dev := { d with agenda := d.agenda.filter (fun (e : Nat × Instr) => !decide (e.2 = .watchdogExpiry (gkOp k))) }
            d.setGk k { d.gkOf k with wdogCk := none }
          else d
      let d := d.setFld Pg.dbg F.DBG_STAT_STOPPED (d.fld Pg.dbg F.DBG_STAT_STOPPED + 1)
      (d.bump Pg.dbg F.DBG_STOP_CNT).pend Pg.dbg 0

/-- A run-control operation is refused (R422). -/
def Dev.runRefused (d : Dev) : Dev := (d.setFld Pg.dbg F.DBG_RUN_CMD_STATUS 2).err Pg.dbg 0 0x1601

/-- HALT. -/
def Dev.halt (d : Dev) : Dev :=
  let t := d.dbgSel
  let st := d.tgtState t
  let ok := d.inMonitor t || (if t < 192 then [Es.run, Es.wait, Es.trap, Es.stopping].contains st else [Gs.run, Gs.wfi].contains st)
  if d.flag Pg.dbg F.DBG_CTRL_DISABLE ∨ ¬ ok then d.runRefused
  else
    let d := d.setFld Pg.dbg F.DBG_RUN_CMD_STATUS 0
    if d.inMonitor t then d else d.detectStop t 5 0

/-- RESUME and STEP: the state before returns; the first instruction issues at DPC 4 CK later, or the handler of a caught exception
(R422, R426). -/
def Dev.resume (d : Dev) (step : Bool) : Dev :=
  let t := d.dbgSel
  if d.flag Pg.dbg F.DBG_CTRL_DISABLE ∨ ¬ d.inMonitor t then d.runRefused
  else
    let x := d.dbgOf t
    let g := d.engOf t
    let d := (d.setFld Pg.dbg F.DBG_RUN_CMD_STATUS 0).leaveMonitor t
    let d := d.setDbg t { d.dbgOf t with skip := true, step := if step then 1 else 0, caught := false }
    let prev := d.tfld t F.DBG_TGT_STAT_PREV
    if t < 192 ∧ g.stopping ∧ prev = Es.wait then
      (d.setEng t { g with stopping := false, popWait := false }).setEngState t Es.off
    else
      let back := if t < 192 ∧ g.stopping then Es.stopping else prev
      let spent := if g.offFrom = 0 then 0 else g.offFrom - g.taskCk - g.offCk
      let goesOn := t < 192 ∧ g.taskCk ≠ 0 ∧ g.offFrom ≠ 0 ∧ ¬ g.inTrap ∧ ¬ x.caught
      let g := if goesOn then { g with offCk := g.offCk + (d.ck + 5 - g.offFrom), offFrom := 0 } else g
      let limit := d.fld (Pg.newt t) F.NEWT_TASK_LIMIT
      let d := d.setEng t { g with pc := d.dpcOf t, nextCk := d.ck + 4, popWait := false, held := none, heldCk := 0 }
      let d := if goesOn ∧ limit ≠ 0 then d.sched (4 + (limit - spent)) (.taskLimitExpiry (engOp t)) else d
      let d := if t < 192 then d.setEngState t back else d.setFld (Pg.gecko (t - 192)) F.GECKO_STAT_STATE back
      if ¬ x.caught then d.fetch t
      else if t < 192 then d.enterTrap t
      else d.enterHandler (t - 192)

/-! Register accesses (R424). -/

/-- A register access to target `t` is refused. -/
def Dev.regAccessRefused (d : Dev) (t : Nat) : Dev := (d.setTfld t F.DBG_REG_CMD_STATUS 2).err Pg.dbg 1 0x1602

/-- The target whose register access of a direction completes now. -/
def Dev.accessDue (d : Dev) (write : Bool) : Option Nat :=
  (d.dbgs.find? (fun (e : Nat × DbgSt) => e.2.regDue.any (fun c => decide (c ≤ d.ck)) && e.2.regWr == write)).map Prod.fst

/-- May the register named be reached? -/
def Dev.dbgRegOk (d : Dev) (t : Nat) : Bool :=
  let num := d.tfld t F.DBG_REG_SEL_NUM
  d.inMonitor t && (match d.tfld t F.DBG_REG_SEL_SPACE with
    | 0 => decide (num < 32)
    | 1 => true
    | 2 => decide (192 ≤ t) && (csrMask num).isSome
    | _ => false)

/-- The register's value. -/
def Dev.dbgRegValue (d : Dev) (t : Nat) : Word64 :=
  let num := d.tfld t F.DBG_REG_SEL_NUM
  match d.tfld t F.DBG_REG_SEL_SPACE with
  | 0 => (d.engOf t).reg (Fin.ofNat 32 num)
  | 1 => (d.engOf t).p.zeroExtend 64
  | _ => d.csrRead (t - 192) num

/-- The register takes DBG_REG_DATA; a write to n0 or an RO field has no effect. -/
def Dev.dbgRegStore (d : Dev) (t : Nat) : Dev :=
  let num := d.tfld t F.DBG_REG_SEL_NUM
  let v : Word64 := BitVec.ofNat 64 (d.tfld t F.DBG_REG_DATA_LO + 2 ^ 32 * d.tfld t F.DBG_REG_DATA_HI)
  match d.tfld t F.DBG_REG_SEL_SPACE with
  | 0 => d.setEng t ((d.engOf t).setReg (Fin.ofNat 32 num) v)
  | 1 => d.setEng t { d.engOf t with p := v.truncate 8 }
  | _ => d.csrWrite (t - 192) num v

/-- An access completes after 2 CK on a Newt engine; the resident monitor takes up to 200 CK (log entry 28). -/
def accessCk (t : Nat) : Nat := if t < 192 then 2 else 200

/-- DBG_REG_READ and DBG_REG_WRITE: the completion of an access under way, or else the command. STATUS is the target's (R431). -/
def Dev.dbgRegCmd (d : Dev) (ev : Instr) (write : Bool) : Dev :=
  match d.accessDue write with
  | some t =>
    let d := d.setDbg t { d.dbgOf t with regDue := none }
    if ¬ d.dbgRegOk t then d.regAccessRefused t
    else
      let d := d.setTfld t F.DBG_REG_CMD_STATUS 0
      if write then d.dbgRegStore t
      else
        let v := d.dbgRegValue t
        (d.setTfld t F.DBG_REG_DATA_LO (v.toNat % 2 ^ 32)).setTfld t F.DBG_REG_DATA_HI (v.toNat / 2 ^ 32)
  | none =>
    let t := d.dbgSel
    let x := d.dbgOf t
    if ¬ d.dbgRegOk t then (d.setDbg t { x with regDue := none }).regAccessRefused t
    else ((d.setDbg t { x with regDue := some (d.ck + accessCk t), regWr := write }).setTfld t F.DBG_REG_CMD_STATUS 1).sched (accessCk t) ev

/-! Ranges (R429). -/

/-- The ranges of a target as a write would leave them. -/
def Dev.rangeRefused (d : Dev) (t k : Nat) : Bool :=
  let en := d.tflag t (F.DBG_RNG_CTRL_EN k)
  let src := d.tfld t (F.DBG_RNG_CTRL_LINK_SRC k)
  (en && decide (d.rngLimit t k < d.rngBase t k))
  || (en && decide (8 ≤ k) && !d.tflag t (F.DBG_RNG_CTRL_R k) && !d.tflag t (F.DBG_RNG_CTRL_W k))
  || (d.tflag t (F.DBG_RNG_CTRL_LINK_EN k) && (src = k || decide (12 ≤ src) || !d.tflag t (F.DBG_RNG_CTRL_ACT src)))

/-- The offset of register `j` of range `k`: BASE, LIMIT, CTRL, CTX. -/
def rngOff (k j : Nat) : Nat := 0x140 + 0x20 * k + 4 * j

/-- DBG_RANGE_WRITE: a write to a range's register; a write to CTRL clears ARMED. -/
def Dev.dbgRangeWrite (d : Dev) (k j : Nat) (val : Word) : Dev :=
  let t := d.dbgSel
  let mask := if j = 4 then 0x3FF else if j = 5 then 0xFFFF else 0xFFFFFFFF
  let v := val.toNat
  let d' := d.setTreg t (rngOff k j) (BitVec.ofNat 32 (v &&& mask))
  if d'.rangeRefused t k then d.err Pg.dbg 2 0x1603
  else if v &&& (0xFFFFFFFF - mask) ≠ 0 then d'.regErr Pg.dbg 1
  else d'

/-! The inspection master (R430). -/

/-- Is an inspection request outstanding? -/
def Dev.inspecting (d : Dev) : Bool := d.nocReqs.any (fun (e : Nat × NocReq) => decide (e.2.who = .inspect) && decide (e.2.ph ≠ .done))

/-- IM_READ and IM_WRITE: one request of the 32-byte unit at DBG_IM_ADDR under DBG_IM_BE; a read carries PEEK. STATUS shows the last
command: refused, also while an earlier request is outstanding. -/
def Dev.inspect (d : Dev) (write : Bool) : Dev :=
  let pg := Pg.dbg
  let a := d.fld pg F.DBG_IM_ADDR_LO + 2 ^ 32 * d.fld pg F.DBG_IM_ADDR_HI
  if d.inspecting ∨ a % 32 ≠ 0 then (d.setFld pg F.DBG_IM_CMD_STATUS 2).err pg 3 0x1604
  else
    let be := d.fld pg F.DBG_IM_BE
    let bytes := ((List.range 8).map (fun j => leBytes 4 (d.fld pg (F.DBG_IM_DATA j)))).flatten
    let wr := (bytes.zipIdx).map (fun (p : Byte × Nat) => if bit be p.2 then some p.1 else none)
    (d.setFld pg F.DBG_IM_CMD_STATUS 1).nocSend
      { who := .inspect, src := Ep.inspect, op := if write then .write else .read, addr := a, len := 32,
        wr := wr, cls := 4, peek := !write }

/-- The response to an inspection request. -/
def Dev.inspectDone (d : Dev) (q : NocReq) : Dev :=
  let pg := Pg.dbg
  let d := ((d.setFld pg F.DBG_IM_CMD_STATUS 0).setFld pg F.DBG_IM_CMD_RESP q.status).setFld pg F.DBG_IM_CMD_POISON (b01 (q.bad ≠ []))
  let d := if q.op = .read ∧ q.status = Ns.ok then
      (List.range 8).foldl (fun (d : Dev) j => d.setFld pg (F.DBG_IM_DATA j) (leNat ((q.data.drop (4 * j)).take 4))) d
    else d
  (d.bump pg F.DBG_IM_CNT).pend pg 1

/-! The commands. -/

/-- HALT (R422). -/
def execHalt (s : State) : Host.Outcome State Fault Refusal := s.cmd (fun d => d.halt)
/-- RESUME (R422). -/
def execResume (s : State) : Host.Outcome State Fault Refusal := s.cmd (fun d => d.resume false)
/-- STEP (R422). -/
def execStep (s : State) : Host.Outcome State Fault Refusal := s.cmd (fun d => d.resume true)
/-- DBG_REG_READ (R424). -/
def execDbgRegRead (s : State) : Host.Outcome State Fault Refusal := s.run .dbgRegRead (fun d => d.dbgRegCmd .dbgRegRead false)
/-- DBG_REG_WRITE (R424). -/
def execDbgRegWrite (s : State) : Host.Outcome State Fault Refusal := s.run .dbgRegWrite (fun d => d.dbgRegCmd .dbgRegWrite true)
/-- DBG_RANGE_WRITE (R429). -/
def execDbgRangeWrite (k : Fin 12) (reg : Fin 6) (val : Word) (s : State) : Host.Outcome State Fault Refusal :=
  s.cmd (fun d => d.dbgRangeWrite k.val reg.val val)
/-- IM_READ (R430). -/
def execImRead (s : State) : Host.Outcome State Fault Refusal := s.cmd (fun d => d.inspect false)
/-- IM_WRITE (R430). -/
def execImWrite (s : State) : Host.Outcome State Fault Refusal := s.cmd (fun d => d.inspect true)

end Sys2Proof.Machine
end

