-- ==== Sys2Proof/Machine/Power.lean ====
section
/-! DEFINITION. Power domains: closing, opening, what a domain loses (R432 to R439). -/

namespace Sys2Proof.Machine

/-! Kinds of domain (Table 23-1). -/

/-- What a domain number names. -/
inductive DomKind where
  | aon | gecko (h : Nat) | bay (b : Nat) | quad (q : Nat) | dram (c : Nat) | bank (h k : Nat) | spine
  deriving DecidableEq, Repr

def domKind (k : Nat) : DomKind :=
  if k = 0 then .aon
  else if k < 3 then .gecko (k - 1)
  else if k < 15 then .bay (k - 3)
  else if k < 31 then .quad (k - 15)
  else if k < 47 then .dram (k - 31)
  else if k < 63 then .bank ((k - 47) / 8) ((k - 47) % 8)
  else .spine

/-- The half a domain lies in; the always-on domain and the spine span both. -/
def domHalf (k : Nat) : Option Nat :=
  match domKind k with
  | .aon => none
  | .gecko h => some h
  | .bay b => some (b / 6)
  | .quad q => some (q / 8)
  | .dram c => some (c / 8)
  | .bank h _ => some h
  | .spine => none

/-- The domain of a NoC end point, if it lies in one that closes. -/
def epDom (ep : Nat) : Option Nat :=
  (List.range 47).find? (fun k => match domKind k with
    | .gecko h => ep = Ep.gecko h
    | .bay b => (bayEps b).contains ep
    | .dram c => ep = Ep.dram c
    | _ => false)

/-- The open time of a domain, in CK (Tables 19-6 and 23-1, R259). -/
def Dev.openTime (d : Dev) (k : Nat) : Nat :=
  match domKind k with
  | .aon => 0
  | .gecko _ => 4000
  | .bay _ => 12000
  | .quad _ => 20000
  | .dram c => 522 + d.fld (Pg.drc c) F.DRC_TIMING2_TRFC
  | .bank _ _ => 1000
  | .spine => 2000

/-- Is a packet on its way to an end point of the domain, or in its hands? -/
def Dev.epsBusy (d : Dev) (k : Nat) : Bool :=
  d.nocReqs.any (fun (e : Nat × NocReq) => decide (epDom e.2.dst = some k) && (e.2.ph = .transit || e.2.ph = .target || e.2.ph = .answer))

/-- Is any packet in flight (Table 23-1, the spine)? -/
def Dev.packetOut (d : Dev) : Bool :=
  d.nocReqs.any (fun (e : Nat × NocReq) => e.2.ph = .transit || e.2.ph = .target || e.2.ph = .answer)
    || d.linkBusy || d.dtx.any (fun (e : Nat × DTx) => e.2.src.isSome && !d.txDone e.2)

/-- The drain condition of Table 23-1. A channel drains into self-refresh if it is ONLINE. -/
def Dev.drained (d : Dev) (k : Nat) : Bool :=
  match domKind k with
  | .aon => false
  | .gecko _ => !d.epsBusy k
  | .bay b => d.engsStopped b && !d.scrubOn b && !d.epsBusy k
  | .quad _ => true
  | .dram c =>
    let st := d.chanState c
    !d.epsBusy k && (st = Ch.selfRefresh || st = Ch.off || st = Ch.failed)
  | .bank h _ => (d.cqOf h).fill = 0
  | .spine => !d.packetOut

/-! Engines of a bay (R145, R435, R437). -/

/-- An engine stops as a write of 0 to RUN stops it, RUN unchanged. -/
def Dev.engineQuit (d : Dev) (e : Nat) : Dev :=
  let g := d.engOf e
  let st := d.engState e
  if st = Es.wait then (d.setEng e { g with popWait := false }).setEngState e Es.off
  else if st = Es.run ∨ st = Es.trap then (d.setEng e { g with stopping := true }).setEngState e Es.stopping
  else if st = Es.monitor then d.setEng e { g with stopping := true }
  else d

/-- An engine whose RUN reads 1 goes on, or starts. -/
def Dev.engineResume (d : Dev) (e : Nat) : Dev :=
  if ¬ d.flag (Pg.newt e) F.NEWT_CTRL_RUN then d
  else
    let g := d.engOf e
    let st := d.engState e
    if st = Es.stopping then (d.setEng e { g with stopping := false }).setEngState e (if g.inTrap then Es.trap else Es.run)
    else if st = Es.monitor then d.setEng e { g with stopping := false }
    else if st = Es.off then d.engineStart e
    else d

/-- Remove the bytes of a span of memory: they read as nothing ever written. -/
def Dev.dropBytes (d : Dev) (a n : Nat) : Dev :=
  { d with mem := d.mem.filter (fun (e : Nat × Byte) => !(decide (a ≤ e.1) && decide (e.1 < a + n))) }

/-- What a bay loses while CLOSED (R436): user flip-flops, shared memory, scratchpads, context memories; its engines are off. -/
def Dev.bayLoses (d : Dev) (b : Nat) : Dev :=
  let d := (d.dropBytes (Na.bay b) 0x40_0000).dropBytes (Na.sp (16 * b)) (16 * 0x2_0000)
  let d := d.onFab (fun x => { x with ffs := x.ffs.filter (fun e => decide (e.1 / 53760 ≠ b)) })
  let d : Dev := { d with ctx := d.ctx.filter (fun (e : Nat × Byte) => decide (e.1 / 16384 / 16 ≠ b)),
                          ctxBad := d.ctxBad.filter (fun e => decide (e / 16384 / 16 ≠ b)),
                          bayQ := d.bayQ.filter (fun (e : Nat × List BayReq) => decide (e.1 / 16 ≠ b)),
                          resvs := d.resvs.filter (fun (e : Nat × List (Nat × Nat)) => decide (e.1 ≠ 1000 + b) && decide (e.1 / 16 ≠ b)) }
  (bayEngines b).foldl (fun (d : Dev) e =>
    if d.engState e = Es.off then d
    else (((d.endTask e).dropFetch e).setEng e { slots := (d.engOf e).slots }).setEngState e Es.off) d

/-- A Gecko complex loses its cores' state; they restart as R394 when it opens again. -/
def Dev.complexOff (d : Dev) (h : Nat) : Dev :=
  [2 * h, 2 * h + 1].foldl (fun (d : Dev) k =>
    let d := { d.setGk k { d.gkOf k with resetCk := none } with agenda := agendaDrop (.geckoCoreReset (gkOp k)) d.agenda }
    let d := d.geckoCoreReset k
    { d.setGk k { d.gkOf k with resetCk := none } with agenda := agendaDrop (.geckoCoreReset (gkOp k)) d.agenda }) d

/-- A forced close takes a channel to self-refresh at once; its requests are never answered (R382, R439). -/
def Dev.dramForced (d : Dev) (c : Nat) : Dev :=
  let st := d.chanState c
  let d : Dev := { d with agenda := agendaDrop (.selfRefreshDone (chanOf c)) (agendaDrop (.selfRefreshExitDone (chanOf c)) d.agenda) }
  let d := d.setDrc c { d.drcOf c with drain := .none, srDue := false, exiting := false }
  let d := [0, 1].foldl (fun (d : Dev) s => d.setSub c s { lastScrub := (d.subOf c s).lastScrub }) d
  if st = Ch.online ∨ st = Ch.retrain then ((d.setChanState c Ch.selfRefresh).bump (Pg.drc c) F.DRC_SR_CNT).stopRefresh c else d

/-! Closing (R433, R435, R439). -/

/-- The domain is CLOSED. -/
def Dev.domShut (d : Dev) (k : Nat) : Dev :=
  let d := (d.setDomState k Ds.closed).pend Pg.pmc 0
  let d := match domKind k with
    | .bay b => d.bayLoses b
    | .gecko h => d.complexOff h
    | _ => d
  d.dmaDomains

/-- What starts to drain when a domain is CLOSING. -/
def Dev.startClose (d : Dev) (k : Nat) : Dev :=
  match domKind k with
  | .bay b => (bayEngines b).foldl (fun (d : Dev) e => d.engineQuit e) d
  | .dram c => d.selfRefreshEntry c
  | _ => d

/-- A close: `dev` the device's own, marked in BYDEV (R438). Requests injected in its CK cancel it (R435). One that meets a domain that is OPENING waits. -/
def Dev.domClose (d : Dev) (k : Nat) (dev : Bool) : Dev :=
  let st := d.domState k
  if st = Ds.opened then
    let d := (d.setDomState k Ds.closing).bump Pg.pmc F.PMC_CLOSE_CNT
    let d := if dev then d.setFld Pg.pmc (byDevFld k) 1 else d
    let d : Dev := { d with nocReqs := d.nocReqs.map (fun (e : Nat × NocReq) =>
      (e.1, if e.2.ph = .transit ∧ e.2.came = d.ck ∧ e.2.dom = some k then { e.2 with late := true } else e.2)) }
    ((d.startClose k).dmaDomains).sched 0 (.domainClosed (domOp k))
  else if st = Ds.opening ∧ dev then
    { d with pmc := { d.pmc with later := if d.pmc.later.contains k then d.pmc.later else k :: d.pmc.later } }
  else d

/-- A forced close (R439): CLOSED in the same CK from any state but CLOSED. -/
def Dev.domForce (d : Dev) (k : Nat) : Dev :=
  let st := d.domState k
  if st = Ds.closed then d
  else
    let d := if st = Ds.opened then d.bump Pg.pmc F.PMC_CLOSE_CNT else d
    let d : Dev := { d with agenda := agendaDrop (.domainClosed (domOp k)) (agendaDrop (.domainOpened (domOp k)) d.agenda) }
    let d := (d.setFld Pg.pmc (byDevFld k) 1).setFld Pg.pmc (forcedFld k) 1
    let d := [0, 1].foldl (fun (d : Dev) h => d.setNoc h { d.nocOf h with isolated := (d.nocOf h).isolated.filter (fun x => decide (x ≠ k)) }) d
    let d := match domKind k with
      | .dram c => d.dramForced c
      | _ => d
    d.domShut k

/-- DOMAIN_CLOSED: the first CK in which the drain condition holds. -/
def Dev.domainClosed (d : Dev) (k : Nat) : Dev :=
  if d.domState k ≠ Ds.closing then d
  else if d.drained k then d.domShut k
  else
    -- a channel that was not yet ONLINE, or an engine that a record has started, drains now
    let d := match domKind k with
      | .dram c => d.selfRefreshEntry c
      | _ => d
    d.schedOnce 1 (.domainClosed (domOp k))

/-! Opening (R434, R435, R437). -/

/-- The close of a domain is cancelled (R435). -/
def Dev.domCancel (d : Dev) (k : Nat) : Dev :=
  let d := d.domCancelled k
  let d := match domKind k with
    | .dram c => (d.stopDrain c).resumeChannel c
    | .bay b => (bayEngines b).foldl (fun (d : Dev) e => d.engineResume e) d
    | _ => d
  d.dmaDomains

/-- An open: a CLOSED domain is OPENING, a CLOSING one is OPEN again. -/
def Dev.domOpening (d : Dev) (k : Nat) : Dev :=
  let st := d.domState k
  if st = Ds.closing then d.domCancel k
  else if st = Ds.closed then
    let t := d.openTime k
    let d := d.setDomState k Ds.opening
    let d := match domKind k with
      | .dram c => d.selfRefreshExit c
      | _ => d
    d.schedOnce t (.domainOpened (domOp k))
  else d

/-- A request put among others by the CK they arrived in. -/
def byArrival (e : Nat × NocReq) : List (Nat × NocReq) → List (Nat × NocReq)
  | [] => [e]
  | x :: l => if e.2.came < x.2.came then e :: x :: l else x :: byArrival e l

/-- Requests held for a domain, and those held for the spine, go on in arrival order (R380, R381). -/
def Dev.letGo (d : Dev) (k : Nat) : Dev :=
  let held := d.nocReqs.filter (fun (e : Nat × NocReq) => e.2.ph = .held && epDom e.2.dst = some k)
  (held.foldl (fun l e => byArrival e l) []).foldl (fun (d : Dev) (e : Nat × NocReq) =>
    (d.setReq e.1 { e.2 with ph := .transit }).sched 0 (.nocDelivery e.1 0)) (if k = Dom.spine then d.unpark else d)

/-- DOMAIN_OPENED: the open time has passed. -/
def Dev.domainOpened (d : Dev) (k : Nat) : Dev :=
  if d.domState k ≠ Ds.opening then d
  else
    let d := (d.setDomState k Ds.opened).setFld Pg.pmc (forcedFld k) 0
    let d := match domKind k with
      | .gecko h => (d.geckoCoreReset (2 * h)).geckoCoreReset (2 * h + 1)
      | .bay b =>
        let d := if d.started ∧ ¬ d.armed b then d.releaseBay b else d
        if isConfigured d.mode then (bayEngines b).foldl (fun (d : Dev) e => d.engineResume e) d else d
      | .quad q =>
        [0, 1, 2, 3].foldl (fun (d : Dev) i =>
          let n := laneFin (4 * q + i)
          if d.laneEn n ∧ d.laneState n = Ln.off ∧ d.modeReceives (laneHalf n) ∧ rateCodeOk (d.laneRate n) (d.fld (Pg.lane n) F.LANE_CFG_CODE)
          then d.startAttempt n false else d) d
      | .dram c => d.resumeChannel c
      | _ => d
    let d := (d.dmaDomains.letGo k).readyCheck
    if d.pmc.later.contains k then ({ d with pmc := { d.pmc with later := d.pmc.later.filter (fun x => decide (x ≠ k)) } } : Dev).domClose k true
    else d

/-! DOM_CMD (R434). -/

/-- The close condition of Table 23-1: where it holds a software close is refused. -/
def Dev.closeRefused (d : Dev) (k : Nat) : Bool :=
  match domKind k with
  | .aon => true
  | .gecko h => d.stewardHalf = h || [2 * h, 2 * h + 1].any (fun c =>
      let st := d.fld (Pg.gecko c) F.GECKO_STAT_STATE
      !(st = Gs.wfi || st = Gs.stopped || st = Gs.reset))
  | .bay b => d.rcfg b ≠ Rc.opened
  | .quad q => [0, 1, 2, 3].any (fun i => d.laneEn (4 * q + i))
  | .dram c => d.chanState c ≠ Ch.online
  | .bank _ _ => true
  | .spine => true

def Dev.domRefused (d : Dev) : Dev := (d.setFld Pg.pmc F.PMC_DOM_CMD_STATUS 2).err Pg.pmc 0 0x1701
def Dev.domAccepted (d : Dev) : Dev := d.setFld Pg.pmc F.PMC_DOM_CMD_STATUS 0
def Dev.domReserved (d : Dev) (val : Word) : Dev :=
  if bitsOf val.toNat 6 2 ≠ 0 ∨ bitsOf val.toNat 10 22 ≠ 0 then d.regErr Pg.pmc 1 else d

/-- DOMAIN_CLOSE: a write of OP CLOSE. -/
def Dev.domainClose (d : Dev) (val : Word) : Dev :=
  let d := d.domReserved val
  let k := bitsOf val.toNat 0 6
  let st := d.domState k
  if st = Ds.closing ∨ st = Ds.closed then d.domAccepted
  else if st = Ds.opening ∨ d.closeRefused k then d.domRefused
  else (d.domClose k false).domAccepted

/-- DOMAIN_OPEN: a write of OP OPEN. -/
def Dev.domainOpen (d : Dev) (val : Word) : Dev :=
  let d := d.domReserved val
  let k := bitsOf val.toNat 0 6
  if d.forced k then d.domRefused else (d.domOpening k).domAccepted

/-! A lane's EN (R434). -/

/-- A write that sets EN while the lane's quad is not OPEN opens the quad. -/
def Dev.laneEnWrite (d : Dev) (n : Fin 64) (val : Word) : Dev :=
  let k := Dom.quad (n / 4)
  let was := d.laneEn n
  let d := d.laneCfgWrite n val
  if d.laneEn n ∧ ¬ was ∧ ¬ d.domOpen k ∧ ¬ d.forced k then d.domOpening k else d

/-! The domains that a mode closes (R438). -/

/-- All bays, DRAM channels and queue banks; the lane quads in SLEEP and under HOLD_IDLE; the spine in SLEEP if SPINE_SLEEP is 1.
Of a half alone, its own. -/
def Dev.modeDoms (d : Dev) (m : Nat) (halves : List Nat) : List Nat :=
  (List.range 64).filter (fun k => match domKind k with
    | .bay b => halves.contains (b / 6)
    | .dram c => halves.contains (c / 8)
    | .bank h _ => halves.contains h
    | .quad q => halves.contains (q / 8) && (m = Mode.sleep.code || !d.flag Pg.dev F.DEV_SAFE_POLICY)
    | .spine => m = Mode.sleep.code && d.flag Pg.pmc F.PMC_CTRL_SPINE_SLEEP
    | _ => false)

/-- The domains the device has closed. -/
def Dev.byDevDoms (d : Dev) : List Nat := (List.range 64).filter d.byDev

/-! The commands. -/

/-- DOMAIN_CLOSED (R433). -/
def execDomainClosed (k : Fin 64) (s : State) : Host.Outcome State Fault Refusal :=
  s.run (.domainClosed k) (fun d => d.domainClosed k.val)

/-- DOMAIN_OPENED (R437). -/
def execDomainOpened (k : Fin 64) (s : State) : Host.Outcome State Fault Refusal :=
  s.run (.domainOpened k) (fun d => d.domainOpened k.val)

/-- DOMAIN_CLOSE (R434). -/
def execDomainClose (val : Word) (s : State) : Host.Outcome State Fault Refusal :=
  s.cmd (fun d => d.domainClose val)

/-- DOMAIN_OPEN (R434). -/
def execDomainOpen (val : Word) (s : State) : Host.Outcome State Fault Refusal :=
  s.cmd (fun d => d.domainOpen val)

end Sys2Proof.Machine
end

