-- ==== Sys2Proof/Machine/Scrub.lean ====
section
/-! DEFINITION. The configuration scrubber and its shadow (R366 to R368, R370). -/

namespace Sys2Proof.Machine

/-- Cluster frames of the device. -/
def frameCount : Nat := 645120

/-- A cluster frame, 0 where none has been written. -/
def Dev.clusterFrame (d : Dev) (a : Nat) : BitVec 2048 := sget 0#2048 d.fab.clusters a

/-- The golden signature of a frame's bytes (R342). -/
def signature (f : BitVec 2048) : Word := crc32c (leBytes 256 f.toNat)

/-- The scrubber's next read, 16 CK on. -/
def Dev.scrubNext (d : Dev) : Dev := d.schedOnce 16 (.configScrubFrame 0#2048 0)

/-- The scrubber runs: EN, and a configuration that has started. -/
def Dev.scrubKick (d : Dev) : Dev := if d.started ∧ d.flag Pg.scrub F.SCRUB_CTRL_EN then d.scrubNext else d

/-- It starts a lap at startup release (R366). -/
def Dev.scrubStart (d : Dev) : Dev :=
  ((({ d with scrub := { lapCk := d.ck } } : Dev).setFld Pg.scrub F.SCRUB_POS_FRAME 0).setFld Pg.scrub F.SCRUB_STAT_FILLING 0).scrubKick

/-- Report a frame with a class of Table 18-4 (R367). -/
def Dev.scrubReport (d : Dev) (a cls : Nat) : Dev :=
  let pg := Pg.scrub
  let w := BitVec.ofNat 32 (a + cls * 2 ^ 20)
  let d := d.setReg pg 0x11C w
  let d := if d.flag pg F.SCRUB_FIRST_VALID then d else d.setReg pg 0x118 (w ||| 0x80000000#32)
  let d := d.bump pg F.SCRUB_MISMATCH_CNT
  match cls with
  | 1 => d.bump pg F.SCRUB_REPAIR_CNT
  | 4 => (d.err pg 3 0x1204).pend pg 1
  | _ => (d.err pg 0 0x1201).pend pg 1

/-- Shadow place of a frame: channel and offset. -/
def Dev.shadowChan (d : Dev) : Nat := d.fld Pg.scrub F.SCRUB_SHADOW_CFG_CHAN
def Dev.shadowOff (d : Dev) (a : Nat) : Nat := d.fld Pg.scrub F.SCRUB_SHADOW_BASE_BASE * 4096 + 256 * a
def Dev.shadowEn (d : Dev) : Bool := d.flag Pg.scrub F.SCRUB_SHADOW_CFG_EN

/-- Are the frames of a bay read (R366)? -/
def Dev.scrubs (d : Dev) (b : Nat) : Bool :=
  d.rcfg b = Rc.opened && d.domOpen (Dom.bay b) && bit (d.fld Pg.scrub F.SCRUB_BAYS_MASK) b

/-- What the surroundings have done to a frame's bits. -/
def Dev.upset (d : Dev) (a : Nat) (flip : BitVec 2048) : Dev :=
  if flip = 0#2048 then d else d.onFab (fun x => { x with clusters := sset 0#2048 x.clusters a (sget 0#2048 x.clusters a ^^^ flip) })

/-- Does a frame match the signature it was loaded with? A frame never loaded has none. -/
def Dev.frameOk (d : Dev) (a : Nat) : Bool :=
  match sfind d.fab.sigs a with
  | some w => signature (d.clusterFrame a) = w
  | none => true

/-- The position moves on; a lap ends after the last address. -/
def Dev.scrubStep (d : Dev) : Dev :=
  let pos := d.fld Pg.scrub F.SCRUB_POS_FRAME + 1
  if pos < frameCount then d.setFld Pg.scrub F.SCRUB_POS_FRAME pos
  else
    let d := (d.setFld Pg.scrub F.SCRUB_POS_FRAME 0).setFld Pg.scrub F.SCRUB_LAP ((d.ck - d.scrub.lapCk) / 1000)
    ({ d with scrub := { d.scrub with lapCk := d.ck } } : Dev).pend Pg.scrub 0

/-- A shadow read has come: the frame is repaired, or reported (R367). -/
def Dev.scrubRepair (d : Dev) (a tx : Nat) : Dev :=
  match sfind d.dtx tx with
  | none => { d with scrub := { d.scrub with repair := none } }
  | some t =>
    if ¬ d.txDone t then d
    else
      let (d, t) := d.takeTx tx
      let d : Dev := { d with scrub := { d.scrub with repair := none } }
      let f := BitVec.ofNat 2048 (leNat (t.bytes.map Prod.fst))
      if t.resp = .ok ∧ ¬ t.poisoned ∧ sfind d.fab.sigs a = some (signature f) then
        (d.onFab (fun x => { x with clusters := sset 0#2048 x.clusters a f })).scrubReport a 1
      else d.scrubReport a 3

/-- The scrubber reads one frame: `sig` 1 a corrected signature, 2 an uncorrectable one. -/
def Dev.scrubFrame (d : Dev) (flip : BitVec 2048) (sig : Nat) : Dev :=
  let a := d.fld Pg.scrub F.SCRUB_POS_FRAME
  let b := a / 53760
  if ¬ d.scrubs b then d.scrubStep.scrubNext
  else
    let d := d.upset a flip
    if sig = 2 ∧ (sfind d.fab.sigs a).isSome then (d.scrubReport a 4).scrubStep.scrubNext
    else if d.frameOk a then d.scrubStep.scrubNext
    else if d.flag Pg.scrub F.SCRUB_CTRL_REPAIR ∧ d.shadowEn ∧ d.flag Pg.scrub ⟨0x00C, 2 + b, 1⟩ then
      let d : Dev := { d with scrub := { d.scrub with repair := some (a, d.nextTx) } }
      (d.dramAccess (some (Ep.regs 0)) d.shadowChan (d.shadowOff a) 256 none false 1 8 false false (some (.configScrubFrame 0#2048 0))).scrubStep
    else (d.scrubReport a 2).scrubStep.scrubNext

/-! Filling the shadow (R368). -/

/-- The next frame of the bays to fill. -/
def Dev.fillNext (d : Dev) : Option Nat :=
  ((List.range 12).find? (fun b => bit d.scrub.fillMask b && decide (d.scrub.fillPos < (b + 1) * 53760))).map
    (fun b => max d.scrub.fillPos (b * 53760))

/-- Shadow writes that have been answered. -/
def Dev.fillCollect (d : Dev) : Dev :=
  d.scrub.fillTx.foldl (fun (d : Dev) (e : Nat × Nat) =>
    match sfind d.dtx e.1 with
    | some t =>
      if ¬ d.txDone t then d
      else
        let (d, t) := d.takeTx e.1
        let d : Dev := { d with scrub := { d.scrub with fillTx := serase d.scrub.fillTx e.1 } }
        if t.resp = .ok then d
        else (d.err Pg.scrub 1 0x1202 : Dev) |> fun d => { d with scrub := { d.scrub with fillBad := e.2 :: d.scrub.fillBad } }
    | none => d) d

def Dev.fillFail (d : Dev) (b : Nat) : Dev := { d with scrub := { d.scrub with fillBad := b :: d.scrub.fillBad } }

/-- A frame of the fill. -/
def Dev.fillFrame (d : Dev) (flip : BitVec 2048) (sig : Nat) : Dev :=
  match d.fillNext with
  | none => if d.scrub.fillTx = [] then d.schedOnce 0 .fillDone else d
  | some a =>
    if d.ck < d.scrub.fillCk then d
    else
      let b := a / 53760
      let d : Dev := { d with scrub := { d.scrub with fillPos := a + 1, fillCk := d.ck + 16 } }
      let d : Dev :=
        if d.rcfg b ≠ Rc.opened ∨ ¬ d.domOpen (Dom.bay b) then d.fillFail b
        else
          let d := d.upset a flip
          if sig = 2 ∧ (sfind d.fab.sigs a).isSome then (d.scrubReport a 4).fillFail b
          else if ¬ d.frameOk a then (d.scrubReport a 2).fillFail b
          else
            let d : Dev := { d with scrub := { d.scrub with fillTx := sput d.scrub.fillTx d.nextTx b } }
            d.dramAccess (some (Ep.regs 0)) d.shadowChan (d.shadowOff a) 256 (some ((leBytes 256 (d.clusterFrame a).toNat).map some)) false 1 8 false false
              (some (.configScrubFrame 0#2048 0))
      d.sched 16 (.configScrubFrame 0#2048 0)

/-- FILL_DONE. -/
def Dev.fillDone (d : Dev) : Dev :=
  if ¬ d.flag Pg.scrub F.SCRUB_STAT_FILLING then d
  else
    let d := (List.range 12).foldl (fun (d : Dev) b =>
      if bit d.scrub.fillMask b ∧ ¬ d.scrub.fillBad.contains b then d.setFld Pg.scrub ⟨0x00C, 2 + b, 1⟩ 1 else d) d
    let d : Dev := { d with scrub := { d.scrub with fillMask := 0, fillBad := [], fillPos := 0, fillCk := 0 } }
    ((d.setFld Pg.scrub F.SCRUB_STAT_FILLING 0).pend Pg.scrub 2).scrubKick

/-- FILL is refused, or starts a fill (R368). -/
def Dev.fillStart (d : Dev) : Dev :=
  if ¬ d.shadowEn ∨ ¬ d.chanOnline d.shadowChan ∨ d.flag Pg.scrub F.SCRUB_STAT_FILLING
      ∨ d.chanCap d.shadowChan < d.shadowOff 0 + 165150720 then d.err Pg.scrub 2 0x1203
  else
    let d : Dev := { d with scrub := { d.scrub with fillMask := d.fld Pg.scrub F.SCRUB_FILL_MASK_MASK, fillBad := [], fillPos := 0, fillTx := [],
                                                    fillCk := d.ck + 16 } }
    (d.setFld Pg.scrub F.SCRUB_STAT_FILLING 1).sched 16 (.configScrubFrame 0#2048 0)

/-- FILL: a write to SCRUB_CTRL with FILL 1. -/
def Dev.fill (d : Dev) (val : Word) : Dev :=
  let d := match regDesc .scrub 0x008 with
    | some r => d.plainWrite Pg.scrub 0 r 0x008 val 0
    | none => d
  (d.fillStart).scrubKick

/-- CONFIG_SCRUB_FRAME: `flip`, the bits of the frame that have changed by themselves; `sig`, how its signature reads. -/
def Dev.configScrubFrame (d : Dev) (flip : BitVec 2048) (sig : Nat) : Dev :=
  if d.flag Pg.scrub F.SCRUB_STAT_FILLING then d.fillCollect.fillFrame flip sig
  else match d.scrub.repair with
    | some (a, tx) => (d.scrubRepair a tx).scrubKick
    | none =>
      if ¬ d.started ∨ ¬ d.flag Pg.scrub F.SCRUB_CTRL_EN then d
      else if d.cfg.cmd.isSome then d.schedOnce 1 (.configScrubFrame 0#2048 0)
      else d.scrubFrame flip sig

/-! The commands. -/

/-- CONFIG_SCRUB_FRAME (R366). -/
def execConfigScrubFrame (flip : BitVec 2048) (sig : Fin 3) (s : State) : Host.Outcome State Fault Refusal :=
  s.run (.configScrubFrame flip sig) (fun d => d.configScrubFrame flip sig.val)

/-- FILL (R368). -/
def execFill (val : Word) (s : State) : Host.Outcome State Fault Refusal :=
  s.cmd (fun d => d.fill val)

/-- FILL_DONE (R368). -/
def execFillDone (s : State) : Host.Outcome State Fault Refusal :=
  s.run .fillDone (fun d => d.fillDone)

end Sys2Proof.Machine
end

