-- ==== Sys2Proof/Machine/Wipe.lean ====
section
/-! DEFINITION. The wipe: what returns to its reset value when a configuration is lost (R350, R353). -/

namespace Sys2Proof.Machine

/-- The pages whose fields and window contents a wipe returns. -/
def wipedBlk : Blk → Bool
  | .lane => true | .lpc => true | .evs => true | .sieve => true | .trig => true | .flow => true | .plu => true | .cq => true
  | .idx => true | .stim => true | .drc => true | .memi => true | .crypt => true | .newt => true | .bay => true | .noc => true
  | .scrub => true | .pair => true
  | _ => false

/-- Read-only registers of those pages that show the state a block takes, besides STAT: counters and results keep their values. -/
def stateReg : Blk → Nat → Bool
  | .lpc, off => decide (0x118 ≤ off) && decide (off ≤ 0x128)
  | .trig, off => decide (0x160 ≤ off) && decide (off < 0x180)
  | .stim, off => decide (0x200 ≤ off)
  | .crypt, off => decide (0x100 ≤ off) && decide (off < 0x200)
  | .newt, off => decide (off = 0x11C)
  | .bay, off => decide (off = 0x184) || decide (off = 0x194)
  | _, _ => false

/-- Bits of fields outside those pages whose reset reads "from stream". -/
def streamBits : Blk → Nat → Nat
  | .dev, off => if off = 0x108 then 1 else if off = 0x448 then 0xFFFF
                 else if 0x460 ≤ off ∧ off < 0x4C0 ∧ off % 16 = 0 then 1 else 0
  | .pmc, off => if off = 0x008 then 6
                 else if 0x200 ≤ off ∧ off < 0x280 then
                   (match off % 16 with | 0 => 0x3FFFF | 4 => 0xFFFFFFFF | 8 => 0xFFFF | _ => 0)
                 else 0
  | .clkrst, off => if off = 0x100 then 0xFFFF else if off = 0x104 ∨ off = 0x108 then 0x1FFFF else 0
  | _, _ => 0

/-- Registers of the common header that a wipe leaves. -/
def headerReg (off : Nat) : Bool := decide (off < 0x100) && decide (off ≠ 0x008) && decide (off ≠ 0x00C)

/-- A register after a wipe. -/
def wipedReg (wrote : List Nat) (a : Nat) (v : Word) : Word :=
  let off := a % 4096
  match blkOfPage (a / 4096) with
  | none => v
  | some (b, _) =>
    if headerReg off then v
    else match regDesc b off with
      | none => v
      | some r =>
        let back (mask : Nat) : Word := BitVec.ofNat 32 ((v.toNat &&& (0xFFFFFFFF - mask)) ||| (r.reset &&& mask))
        if wipedBlk b then
          (if off = 0x00C ∨ stateReg b off then BitVec.ofNat 32 r.reset else back (r.rw ||| r.rwl ||| r.wo))
        else back (streamBits b off ||| (if wrote.contains a then r.rw ||| r.rwl ||| r.wo else 0))

/-- Events of the blocks that a wipe makes idle. -/
def wipedEvent : Instr → Bool
  | .alignTimeout _ => true
  | .passThroughSymbol _ => true
  | .lpcFirstAnchor _ => true
  | .lpcRateWindow _ => true
  | .lrefTimeout => true
  | .lpcAlignWord _ => true
  | .followerFreewheel _ => true
  | .evsEntryDue _ => true
  | .sieveMatchEvent _ => true
  | .sieveOutcome _ => true
  | .seqEvaluate _ _ => true
  | .seqTimerExpiry _ _ => true
  | .trigBridgeWord _ => true
  | .actionArrival => true
  | .queueAllocation _ => true
  | .queueUnit _ => true
  | .gapMarkerClose _ _ => true
  | .recordOffer _ => true
  | .flowHandover _ _ _ => true
  | .engineTrap _ _ _ _ => true
  | .taskLimitExpiry _ => true
  | .placementWindow _ => true
  | .newExtent _ _ => true
  | .engineAssign _ _ => true
  | .engineStoppedMove _ => true
  | .spillStart _ => true
  | .spillEnd _ => true
  | .captureWrite _ _ => true
  | .captureWriteAck _ _ _ => true
  | .flushDone _ => true
  | .tapPopTimeout _ => true
  | .seekDone _ => true
  | .descRead _ => true
  | .stimActionArrival _ => true
  | .replace _ => true
  | .insert _ => true
  | .delete _ => true
  | .flip _ => true
  | .hold _ => true
  | .playArmed _ _ => true
  | .playAction _ => true
  | .playbackReadData _ _ => true
  | .playbackRecordDue _ _ => true
  | .retrainStart _ => true
  | .dramTrainingDone _ _ _ _ => true
  | .dramRequest _ _ => true
  | .dramDecision _ _ _ => true
  | .dramServiceDone _ _ _ _ => true
  | .refresh _ _ _ _ _ => true
  | .mr4Read _ _ _ _ => true
  | .selfRefreshDone _ => true
  | .selfRefreshExit _ => true
  | .selfRefreshExitDone _ => true
  | .scrubRead _ _ => true
  | .regionInitDone _ => true
  | .cryptInitDone _ _ => true
  | .resealDone _ => true
  | .bayClosed _ => true
  | .bayRelease _ => true
  | .bayWipeDone _ => true
  | .configScrubFrame _ _ => true
  | .fillDone => true
  | .swapCheckDone _ => true
  | .oldEpochRetired _ => true
  | .startupRelease _ _ => true
  | .pad => true
  | .frame => true
  | .regCmd => true
  | .endCmd => true
  | .blockVerify _ => true
  | .cfgTimeoutExpiry => true
  | .heartbeatSend => true
  | .mirroredWriteApply => true
  | .pairAlignTimeout => true
  | .digestSend => true
  | .resyncLeadBoundary => true
  | .resyncShadowBoundary => true
  | .heartbeatYield => true
  | .heartbeatTimeout => true
  | .peerOkFell _ => true
  | .alignRemeasure => true
  | .scarfTrainingTimeout => true
  | .readyEntry => true  | _ => false

/-- Every request that a DRAM channel holds. -/
def Dev.dramHeld (d : Dev) : List DReq :=
  d.subs.flatMap (fun (e : Nat × DSub) => e.2.waiting ++ e.2.queue ++ e.2.serving.map Prod.snd)

/-- The engines read OFF at once; those in MONITOR are no longer among the stopped. -/
def Dev.enginesOff (d : Dev) : Dev :=
  let mon := (d.engs.map Prod.fst).filter (fun e => decide (e < 192) && decide (d.engState e = Es.monitor))
  let d := d.setFld Pg.dbg F.DBG_STAT_STOPPED (d.fld Pg.dbg F.DBG_STAT_STOPPED - mon.length)
  let d := mon.foldl (fun (d : Dev) t => (d.setTfld t F.DBG_TGT_STAT_STOPPED 0).setDbg t
    { (d.setTfld t F.DBG_TGT_STAT_STOPPED 0).dbgOf t with stop := none, step := 0, caught := false }) d
  { d with engs := d.engs.filter (fun (e : Nat × EngSt) => decide (192 ≤ e.1)) }

/-- What every full wipe does in its first CK (R350). -/
def Dev.wipe (d : Dev) : Dev :=
  let d := d.dramHeld.foldl (fun (d : Dev) r => d.burstAnswered r .error []) d
  let wrote := d.cfg.wrote
  let d := d.enginesOff
  let d : Dev := { d with
    agenda := d.agenda.filter (fun (e : Nat × Instr) => !wipedEvent e.2)
    lanes := [], recs := [], lpc := [], evs := [], evsLate := [], evsRan := [], evsFired := [], rules := []
    seqStates := [], seqSlots := [], seqSel := [], seqs := [], trigEvs := [], bridgeOut := [], flying := [], stimIn := []
    stims := [], plays := [], tmpls := [], allocs := [], flows := [], nums := [], runs := [], closing := [], frozeLp := []
    cq := [], subs := [], drcs := [], memis := [], crypts := [], bays := [], scrub := {}, exts := [], opened := [], nextOpen := 0
    plus := [], handovers := [], jrnTx := [], meta64 := [], offers := [], seeks := [], descReads := [], nocs := [], imem := []
    epochs := [], alignRecs := [], holds := [], pair := {}, linkRuns := []
    fab := { d.fab with clusters := [], sigs := [], bm36 := [], borders := [], snaps := [], ffs := [], sills := [], slices := [], bms := [], bmPorts := [], bmFixes := [], slots := [] }
    cfg := { d.cfg with key := 0#256, wrote := [] } }
  let d := (d.regs.map Prod.fst).foldl (fun (d : Dev) a => d.setReg (a / 4096) (a % 4096) (wipedReg wrote a (d.reg (a / 4096) (a % 4096)))) d
  let d := (d.setFld Pg.dev F.DEV_CFG_LOCK_LOCK 0).setFld Pg.cfg F.CFG_STAT_WIPING 1
  d.sched 1048576 .wipeDone

/-- WIPE_DONE. -/
def Dev.wipeDone (d : Dev) : Dev :=
  if ¬ d.flag Pg.cfg F.CFG_STAT_WIPING ∨ d.awaits .wipeDone then d else (d.setFld Pg.cfg F.CFG_STAT_WIPING 0).pend Pg.cfg 2

/-! The commands. -/

/-- WIPE_DONE (R350). -/
def execWipeDone (s : State) : Host.Outcome State Fault Refusal :=
  s.run .wipeDone (fun d => d.wipeDone)

end Sys2Proof.Machine
end

