-- ==== Sys2Proof/Machine/CfgBase.lean ====
section
/-! DEFINITION. The load under way: its end, and failures of a bay stream (R349, R362). -/

namespace Sys2Proof.Machine

def Dev.onCfg (d : Dev) (f : CfgSt → CfgSt) : Dev := { d with cfg := f d.cfg }

/-- Events of a stream being taken or executed. -/
def streamEvent : Instr → Bool
  | .streamHeader _ => true
  | .blockVerify _ => true
  | .pad => true
  | .frame => true
  | .regCmd => true
  | .endCmd => true
  | .cfgTimeoutExpiry => true
  | _ => false

/-- The port stops: nothing of the stream is left; what its REG pairs wrote is known until a wipe. -/
def Dev.cfgStop (d : Dev) : Dev :=
  { d with cfg := { wrote := d.cfg.wrote, fuse := d.cfg.fuse, failCk := d.cfg.failCk },
           agenda := d.agenda.filter (fun (e : Nat × Instr) => !streamEvent e.2) }

/-- Blocks of the stream whose header was accepted. -/
def Dev.blockCount (d : Dev) : Nat := leNat ((d.cfg.hdr.drop 16).take 4)

/-- The condition of a failure of a stream counts, with the block being taken, which is the first not verified (R349, R362; see the
log). -/
def Dev.cfgCount (d : Dev) (idx code : Nat) : Dev :=
  let i := if d.cfg.hdr = [] then 0 else min (d.fld Pg.cfg F.CFG_BLOCKS) (d.blockCount - 1)
  ((d.err Pg.cfg idx code).setReg Pg.cfg 0x11C (BitVec.ofNat 32 i)).pend Pg.cfg 1

/-- A bay-load failure: the stream ends, the armed bay is wiped, no mode changes (R362). -/
def Dev.bayLoadFail (d : Dev) (idx code : Nat) : Dev :=
  let d := (d.cfgCount idx code).cfgStop
  match d.armedBay with
  | some b => d.wipeBay b
  | none => d

/-- Entry to SAFE or SLEEP while the armed bay is LOADING fails its load (R362). -/
def Dev.bayLoadCut (d : Dev) : Dev :=
  match d.armedBay with
  | some b => if d.rcfg b = Rc.loading then d.bayLoadFail 5 0x1107 else d
  | none => d

/-- No design is released: φ reads 0, user clocks are gated (R331, R332). -/
def Dev.unrelease (d : Dev) : Dev :=
  { d with started := false, startCk := none, lanesBegun := false, lanesDue := none, agenda := agendaDrop (.startupRelease 0 0) d.agenda }

end Sys2Proof.Machine
end

