-- ==== Sys2Proof/Machine/Modes.lean ====
section
/-! DEFINITION. Device modes: requests, transitions, SAFE entry, entry to READY (R31 to R42, R514). -/

namespace Sys2Proof.Machine

/-- The halves that a transition of the steward's mode changes: both, or the steward half alone while the halves are split (R31). -/
def Dev.actHalves (d : Dev) : List Nat := if d.south.isSome then [d.stewardHalf] else [0, 1]

/-- The mode that the steward half holds. -/
def Dev.ownMode (d : Dev) : Nat := d.heldMode d.stewardHalf

/-- Causes live (R33, R34), as DEV_MODE_SAFE_CAUSE numbers them. -/
def Dev.liveCauses (d : Dev) : Nat := d.fld Pg.pmc ⟨0x00C, 0, 3⟩

/-- The halves hold a new mode; the transition is complete (R31, R32, R406). A South half that is still split reports its mode by the
steward class where the bridge stands, 4 CK later. -/
def Dev.putMode (d : Dev) (hs : List Nat) (new : Nat) : Dev :=
  let old := d.heldMode (hs.headD 0)
  let d := if hs.contains 0 then
      ((d.setFld Pg.dev F.DEV_MODE_MODE new).setFld Pg.dev F.DEV_MODE_PREV old).setFld Pg.dev F.DEV_MODE_TRANS 0
    else d
  let d : Dev := { d with offEntry := d.offEntry.filter (fun h => !hs.contains h) }
  let d : Dev := match d.south with
    | none => d.setFld Pg.dev F.DEV_MODE_OTHER new
    | some x =>
      if hs.contains 1 then
        let d : Dev := { d with south := some { x with mode := new, entry := false } }
        if d.flag Pg.steward F.STEWARD_STAT_BRIDGE_OK then d.sched 4 .stewardWord else d
      else d
  d.genEvent 0 3 0 0 [byteOf old 0, byteOf new 0, byteOf (d.fld Pg.dev F.DEV_MODE_SAFE_CAUSE) 0]

/-- DEV_MODE_PASS of halves (R38). -/
def Dev.putPass (d : Dev) (hs : List Nat) (v : Bool) : Dev :=
  let d := if hs.contains 0 then d.setFld Pg.dev F.DEV_MODE_PASS (b01 v) else d
  match d.south with
  | none => d
  | some x => if hs.contains 1 then { d with south := some { x with pass := v } } else d

def lanesOf (hs : List Nat) : List (Fin 64) := (List.finRange 64).filter (fun n => hs.contains (laneHalf n))

/-! What a change of mode does. -/

/-- What a half's TX lanes carry by its mode: 1 the retimed stream, 2 generated symbols, 0 nothing. -/
def Dev.txKind (d : Dev) (h : Nat) : Nat :=
  if d.modePasses h then 1
  else if d.modeOf h = Mode.generate.code ∨ d.modeOf h = Mode.exercise.code then 2
  else 0

/-- The stream a lane's TX carried ends at its next symbol boundary (R36, R44): symbols not yet at injection select go nowhere, what
changed them is over, a stream told to stop ends. The spec leaves open what becomes of an injection or a record that has begun:
while the TX carries the same stream it goes on to its end, here it ends (DESIGN CHOICE, log entry 24). -/
def Dev.txEnds (d : Dev) (n : Fin 64) : Dev :=
  let x := d.stimOf n
  let cut := ([x.run, x.play].filterMap (fun r => r)).filterMap StimRun.stream
  let d := d.setStim n { x with run := none, play := none, fifo := [], k28 := none, slot := 0, genCk := 0 }
  let d := d.setLane n { d.laneOf n with txq := [] }
  cut.foldl (fun (d : Dev) s => d.sched 0 (.playbackRecordDue (halfOf (laneHalf n)) (streamFin s))) d

/-- A half leaves the modes with stimulus (R37): pending entries are discarded, streams stop at their next record boundary,
injections that have not reached injection select are cancelled. -/
def Dev.stimCancel (d : Dev) (h : Nat) : Dev :=
  let d := d.evsModeDiscard h
  let d := (List.range 64).foldl (fun (d : Dev) s => d.playStopAt h s) d
  { d with stimIn := d.stimIn.filter (fun a => decide (a.dest ≠ h)),
           stims := d.stims.map (fun (e : Nat × StimLane) => if laneHalf e.1 = h then (e.1, { e.2 with pend := [] }) else e) }

/-- Before the new mode holds: stimulus ends, sequencers are disarmed, flows stop emitting (R37, R111, R122). -/
def Dev.leaveMode (d : Dev) (hs : List Nat) (old new : Nat) : Dev :=
  let d := if isStimulus old ∧ ¬ isStimulus new then hs.foldl (fun (d : Dev) h => d.stimCancel h) d else d
  let d := if new = Mode.blank.code ∨ new = Mode.sleep.code ∨ new = Mode.safe.code then
      hs.foldl (fun (d : Dev) h => (List.range 8).foldl (fun (d : Dev) q => d.setArmed h q 0) d) d
    else d
  if isCapturing old ∧ ¬ isCapturing new then hs.foldl (fun (d : Dev) h => d.stopFlows h (new = Mode.safe.code)) d else d

/-- Once the new mode holds: a TX stream of another kind has ended, lanes of a mode that does not receive are OFF, pass-through starts
(R36, R62, R63); `was` is what the TX lanes carried. -/
def Dev.lanesFollow (d : Dev) (hs : List Nat) (was : Nat) : Dev :=
  (lanesOf hs).foldl (fun (d : Dev) (n : Fin 64) =>
    let h := laneHalf n
    let d := if was ≠ 0 ∧ d.txKind h ≠ was then d.txEnds n else d
    if ¬ d.modeReceives h then d.laneOff n
    else if d.modePasses h ∧ was ≠ 1 then d.passStart n else d) d

/-- Is a record that the queue holds, or a line event, still on its way into a half's queue? What the sieve hands on in a mode that
does not capture is not. -/
def Dev.arriving (d : Dev) (h : Nat) : Bool :=
  (sget [] d.allocs h).any (fun (x : AllocItem) => let r := d.recOf x.rid; decide (0 < r.units) || (r.typ = 1 && x.unit = none))

/-- Nothing is left in a half's capture queue or on its way there. -/
def Dev.captureIdle (d : Dev) (h : Nat) : Bool := (d.cqOf h).fill = 0 && !d.arriving h

/-- The device flushes a half's queue itself, once what is on its way is in it (R38, R40, R211). -/
def Dev.drainAsk (d : Dev) (h : Nat) : Dev := d.setCq h { d.cqOf h with drain := true }
def Dev.drainMark (d : Dev) (h : Nat) : Dev :=
  if (d.cqOf h).drain ∧ ¬ d.arriving h then (d.setCq h { d.cqOf h with drain := false }).cqFlush h else d

/-- Entry to BLANK from a configured mode (R350, R353, R362): the wipe; transfers end; the counters read 0 (R66). -/
def Dev.enterBlank (d : Dev) (configured : Bool) : Dev :=
  let d := (d.unrelease.cfgStop).dmaAbortAll
  let d := d.actHalves.foldl (fun (d : Dev) h => d.lpcIdle h) d
  let d := if configured then d.wipe else d
  d.setFld Pg.dev F.DEV_CFG_LOCK_LOCK 0

/-- OFFLOAD takes effect (R36, R38): capture stops, pass-through goes on or not, the records held drain; the transition is complete, and
the mode changes, once they have. -/
def Dev.offloadBegin (d : Dev) (hs : List Nat) : Dev :=
  let old := d.heldMode (hs.headD 0)
  let was := d.txKind (hs.headD 0)
  let d := d.leaveMode hs old Mode.offload.code
  let d := hs.foldl (fun (d : Dev) h => { d with frozeLp := sput d.frozeLp h (d.pubLp h) }) d
  let d := d.putPass hs (decide (old = Mode.through.code ∨ old = Mode.intercept.code))
  let d := ({ d with offEntry := hs } : Dev).lanesFollow hs was
  (hs.foldl (fun (d : Dev) h => d.drainAsk h) d).sched 0 .offloadDrainDone

/-- A transition but to OFFLOAD takes effect (R36 to R39). -/
def Dev.switchTo (d : Dev) (hs : List Nat) (new : Nat) : Dev :=
  let old := d.heldMode (hs.headD 0)
  let was := d.txKind (hs.headD 0)
  let d := d.leaveMode hs old new
  let d := if old = Mode.offload.code then d.putPass hs false else d
  let d := (d.putMode hs new).lanesFollow hs was
  let d := if old = Mode.offload.code ∧ isCapturing new then
      hs.foldl (fun (d : Dev) h =>
        d.lineEvent h (ownLane h) (d.pubLp h) (d.fwFlag h) (lineEventPayload 0x20 0 h 0 (lpInt (sget 0#72 d.frozeLp h)) 0 0)) d
    else d
  if new = Mode.blank.code then d.enterBlank (isConfigured old)
  else if new = Mode.sleep.code then (d.modeDoms Mode.sleep.code hs).foldl (fun (d : Dev) k => d.domClose k true) d.bayLoadCut
  else d

/-! Requests (R34 to R36, R398). -/

/-- The codes a request meets. -/
def Dev.requestErrors (d : Dev) (t : Nat) (safeInCk : Bool) : List (Nat × Nat) :=
  let m := d.ownMode
  let busy := d.flag Pg.dev F.DEV_MODE_TRANS
  (if d.safeEntry ∨ safeInCk then [(1, 0x0203)] else if busy then [(1, 0x0202)] else [])
  ++ (if t = m then []
      else if ¬ legalRequest m t (d.fld Pg.dev F.DEV_MODE_PREV) then [(0, 0x0201)]
      else if m = Mode.safe.code ∧ d.liveCauses ≠ 0 then [(1, 0x0204)] else [])

/-- The exit from SLEEP or SAFE begins: the domains that the device closed open again (R39, R40, R438). -/
def Dev.wakeUp (d : Dev) : Dev :=
  let d : Dev := { d with waking := true, pmc := { d.pmc with later := [] } }
  (d.byDevDoms.foldl (fun (d : Dev) k => d.domOpening k) d).readyCheck

/-- A request reaches the steward: accepted or refused. A SAFE trigger that comes later in the CK refuses it still (R35). -/
def Dev.modeArrives (d : Dev) (t : Nat) (safeInCk : Bool) : Dev :=
  match d.requestErrors t safeInCk with
  | c :: cs => d.errs Pg.dev (c :: cs)
  | [] =>
    let m := d.ownMode
    let d : Dev := { d with reqCk := some d.ck }
    if t = m then d
    else
      let d : Dev := { d.setFld Pg.dev F.DEV_MODE_TRANS 1 with modeTarget := some t }
      if t = Mode.ready.code ∧ (m = Mode.sleep.code ∨ m = Mode.safe.code) then d.wakeUp else d.sched 8 .modeTransitionDone

/-- Is this event of the agenda due? -/
def Dev.dueNow (d : Dev) (i : Instr) : Bool := d.agenda.any (fun (e : Nat × Instr) => decide (e.1 ≤ d.ck) && sameEvent e.2 i)

/-- MODE_REQUEST: a write to DEV_MODE_REQ at stop 0 of the North half, or a request that has come to the steward. A South steward
takes it 4 CK later, if the bridge stands. -/
def Dev.modeRequest (d : Dev) (val : Word) (safeInCk due : Bool) : Dev :=
  let t := bitsOf val.toNat 0 4
  if due then d.modeArrives t safeInCk
  else
    let d := if bitsOf val.toNat 4 27 ≠ 0 then d.regErr Pg.dev 1 else d
    if ¬ bit val.toNat 31 then d
    else if d.stewardHalf = 0 then d.modeArrives t safeInCk
    else if d.south.isSome then d
    else d.sched 4 (.modeRequest (val &&& 0x8000000F#32) false)

/-- MODE_TRANSITION_DONE. -/
def Dev.modeTransitionDone (d : Dev) : Dev :=
  match d.modeTarget with
  | none => d
  | some t =>
    if d.waking then d
    else
      let d : Dev := { d with modeTarget := none }
      if t = Mode.offload.code then d.offloadBegin d.actHalves else d.switchTo d.actHalves t

/-- OFFLOAD_DRAIN_DONE: the transition is complete once the records held have drained. -/
def Dev.offloadDrainDone (d : Dev) : Dev :=
  let hs := d.offEntry
  if hs = [] then d
  else
    let d := hs.foldl (fun (d : Dev) h => d.drainMark h) d
    if hs.all d.captureIdle then d.putMode hs Mode.offload.code else d.schedOnce 1 .offloadDrainDone

/-! SAFE (R33, R35, R40, R439). -/

/-- A record not yet WRITING is lost where the DRAM supplies are out of limits (R40). -/
def Dev.discardQueue (d : Dev) (h : Nat) : Dev :=
  (d.recs.filter (fun (e : Nat × Rec) => e.2.half = h && decide (0 < e.2.units) && e.2.st ≠ .writing)).foldl
    (fun (d : Dev) (e : Nat × Rec) => d.fullLoss e.1) d

/-- The mode from which a half enters SAFE has its capture queues and DRAM channels closed: no line event, no drain (R40). SAFE itself,
left for READY and entered again before READY was reached, is as SLEEP (DEDUCED, log entry 33). -/
def queuesClosed (m : Nat) : Bool := m = Mode.sleep.code || m = Mode.safe.code

/-- Does the mode of these halves follow the steward's requests? -/
def Dev.steered (d : Dev) (hs : List Nat) : Bool := hs.any (fun h => d.actHalves.contains h)

/-- A transition in progress ends at once (R35): its target, its wake-up, its drain to OFFLOAD, what of it waits on the agenda; a request
accepted earlier in this CK counts as refused. -/
def Dev.cutTransition (d : Dev) (hs : List Nat) : Dev :=
  let d : Dev := { d with offEntry := d.offEntry.filter (fun h => !hs.contains h) }
  if ¬ d.steered hs then d
  else
    let d := if d.reqCk = some d.ck then d.err Pg.dev 1 0x0203 else d
    { d with modeTarget := none, waking := false, reqCk := none, safeDue := 0,
             agenda := agendaDrop .modeTransitionDone (agendaDrop .offloadDrainDone (agendaDrop .readyEntry d.agenda)) }

/-- SAFE entry begins in these halves, which held one mode, with the causes that were due since the entry to READY (R514). -/
def Dev.safeBegin (d : Dev) (hs : List Nat) (cause : Nat) : Dev :=
  let old := d.heldMode (hs.headD 0)
  let acts := d.modeOf (hs.headD 0)
  let was := d.txKind (hs.headD 0)
  let cause := if d.steered hs then cause ||| d.safeDue else cause
  let d := (d.leaveMode hs acts Mode.safe.code).cutTransition hs
  let d := if hs.contains 0 then
      ({ d with safeEntry := true, safeCk := d.ck }.setFld Pg.dev F.DEV_MODE_SAFE_CAUSE cause).setFld Pg.dev F.DEV_MODE_TRANS 1
    else d
  let d : Dev := match d.south with
    | some x => if hs.contains 1 then { d with south := some { x with entry := true, cause := cause, ck := d.ck } } else d
    | none => d
  let d := (d.lanesFollow hs was).bayLoadCut
  let d := if queuesClosed old then d
    else
      let d := hs.foldl (fun (d : Dev) h =>
        (d.lineEvent h (ownLane h) (d.pubLp h) (d.fwFlag h) (lineEventPayload 0x21 cause h 0 0 0 0)).drainAsk h) d
      if bit cause 0 then d.sched 1000000 .thermalDrainTimeout else d
  d.schedOnce 0 .safeEntryDone

/-- The halves hold one mode again once a rejoined half and the steward's hold the same, none entering SAFE (R401); SAFE_CAUSE is that of
the last SAFE entry, of both where they began in one CK. -/
def Dev.unite (d : Dev) : Dev :=
  match d.south with
  | none => d
  | some x =>
    if d.flag Pg.steward F.STEWARD_STAT_BRIDGE_OK ∧ x.mode = d.mode ∧ ¬ x.entry ∧ ¬ d.safeEntry then
      let c := d.fld Pg.dev F.DEV_MODE_SAFE_CAUSE
      let c := if d.safeCk < x.ck then x.cause else if d.safeCk = x.ck then c ||| x.cause else c
      (({ d with south := none } : Dev).setFld Pg.dev F.DEV_MODE_OTHER d.mode).setFld Pg.dev F.DEV_MODE_SAFE_CAUSE c
    else d

/-- SAFE is reached: the mode, then the domains close, by force for the thermal cause (R40, R438, R439). -/
def Dev.safeFinish (d : Dev) (hs : List Nat) (cause : Nat) : Dev :=
  let d : Dev := if hs.contains 0 then { d with safeEntry := false } else d
  let d := ((d.putMode hs Mode.safe.code).putPass hs false)
  let d : Dev := { d with agenda := agendaDrop .thermalDrainTimeout d.agenda }
  ((d.modeDoms Mode.safe.code hs).foldl (fun (d : Dev) k => if bit cause 0 then d.domForce k else d.domClose k true) d).unite

/-- The groups of halves in SAFE entry, each with its causes: both halves together, or each by itself while they are split. -/
def Dev.entering (d : Dev) : List (List Nat × Nat) :=
  let c := d.fld Pg.dev F.DEV_MODE_SAFE_CAUSE
  match d.south with
  | none => if d.safeEntry then [([0, 1], c)] else []
  | some x => (if d.safeEntry then [([0], c)] else []) ++ (if x.entry then [([1], x.cause)] else [])

/-- SAFE_ENTRY_DONE: once the drain has ended. -/
def Dev.safeEntryDone (d : Dev) : Dev :=
  d.entering.foldl (fun (d : Dev) (g : List Nat × Nat) =>
    if queuesClosed (d.heldMode (g.1.headD 0)) then d.safeFinish g.1 g.2
    else
      let d := g.1.foldl (fun (d : Dev) h => d.drainMark h) (if d.dramSupplyOk then d else g.1.foldl (fun (d : Dev) h => d.discardQueue h) d)
      if g.1.all d.captureIdle then d.safeFinish g.1 g.2 else d.schedOnce 1 .safeEntryDone) d

/-- THERMAL_DRAIN_TIMEOUT: 1 ms after SAFE entry each record not yet disposed is lost with cause 1 (R439). -/
def Dev.thermalDrainTimeout (d : Dev) : Dev :=
  d.entering.foldl (fun (d : Dev) (g : List Nat × Nat) =>
    if ¬ bit g.2 0 then d
    else
      let d := g.1.foldl (fun (d : Dev) h =>
        let d := (d.recs.filter (fun (e : Nat × Rec) => e.2.half = h && decide (0 < e.2.units))).foldl
          (fun (d : Dev) (e : Nat × Rec) => d.loseRec e.1 1) d
        d.drainMark h) d
      (d.safeFinish g.1 g.2)) d

/-- A cause of the same CK as a SAFE entry joins it (R32): SAFE_CAUSE, and byte 1 of the line events that the entry wrote. -/
def Dev.joinCause (d : Dev) (hs : List Nat) (cause : Nat) : Dev :=
  let d := if hs.contains 0 ∧ d.safeCk = d.ck then
      d.setFld Pg.dev F.DEV_MODE_SAFE_CAUSE (d.fld Pg.dev F.DEV_MODE_SAFE_CAUSE ||| cause)
    else d
  let d : Dev := match d.south with
    | some x => if hs.contains 1 ∧ x.ck = d.ck then { d with south := some { x with cause := x.cause ||| cause } } else d
    | none => d
  let mine (h : Nat) (rid : Nat) (r : Rec) : Bool := r.half = h && r.typ = 1 && r.payload.head? = some 0x21#8
    && (sget [] d.allocs h).any (fun (x : AllocItem) => x.rid = rid && x.due = d.ck + 4)
  let d : Dev := { d with recs := d.recs.map (fun (e : Nat × Rec) =>
    if hs.any (fun h => mine h e.1 e.2) then
      (e.1, { e.2 with payload := e.2.payload.take 1 ++ [byteAt e.2.payload 1 ||| byteOf cause 0] ++ e.2.payload.drop 2 })
    else e) }
  if bit cause 0 then d.schedOnce 1000000 .thermalDrainTimeout else d

/-- A SAFE trigger for a half or for both (R33, R35, R514): only from a configured mode; a cause of the same CK as the entry joins it; one
in the CK of the entry to READY begins SAFE entry in the next; in SAFE it ends a transition to READY that is under way. -/
def Dev.safeTriggerOf (d : Dev) (hs : List Nat) (cause : Nat) : Dev :=
  let h := hs.headD 0
  let m := d.heldMode h
  if d.rst ≠ .running ∨ ¬ isConfigured m then d
  else if d.enteringSafe h then d.joinCause hs cause
  else if m = Mode.safe.code ∧ ¬ (d.waking ∧ d.steered hs) then d
  else if d.readyCk = some d.ck ∧ d.steered hs then
    ({ d with safeDue := d.safeDue ||| cause } : Dev).schedOnce 1 .readyEntry
  else d.safeBegin hs cause

/-- A SAFE trigger of the device: in every half, or in the halves it concerns while they are split. -/
def Dev.safeTrigger (d : Dev) (hs : List Nat) (cause : Nat) : Dev :=
  if d.south.isNone then d.safeTriggerOf [0, 1] cause
  else hs.foldl (fun (d : Dev) h => d.safeTriggerOf [h] cause) d

/-! READY (R33, R39, R70, R514). -/

/-- The DRAM channels' waiting requests go on. -/
def Dev.resumeAll (d : Dev) : Dev := (List.range 16).foldl (fun (d : Dev) c => d.resumeChannel c) d

/-- READY_ENTRY: after a load or a wake-up; one CK later SAFE entry begins for the causes that were live. -/
def Dev.readyEntry (d : Dev) : Dev :=
  if d.safeDue ≠ 0 then d.safeTrigger d.actHalves d.safeDue
  else if ¬ (((d.mode = Mode.loading.code ∧ d.started) ∨ (d.waking ∧ (List.range 64).all (fun k => !d.byDev k || d.domOpen k)))
      ∧ d.lanesBegun ∧ d.allEnded) then d
  else
    let load := d.mode = Mode.loading.code
    let hs := if load then [0, 1] else d.actHalves
    let d : Dev := { d with waking := false, modeTarget := none, readyCk := some d.ck }
    let d := if load then d else d.byDevDoms.foldl (fun (d : Dev) k => d.setFld Pg.pmc (byDevFld k) 0) d
    let d := d.putMode hs Mode.ready.code
    let d := if load then [0, 1].foldl (fun (d : Dev) h => (d.lpcLeaveIdle h).newWindow h) d.cfgStop else d.resumeAll
    if d.liveCauses ≠ 0 then ({ d with safeDue := d.liveCauses } : Dev).sched 1 .readyEntry else d

/-! The commands. -/

/-- MODE_REQUEST (R34). -/
def execModeRequest (val : Word) (safeInCk : Bool) (s : State) : Host.Outcome State Fault Refusal :=
  if s.dev.dueNow (.modeRequest val safeInCk) then s.run (.modeRequest val safeInCk) (fun d => d.modeRequest val safeInCk true)
  else s.cmd (fun d => d.swGate (raddr Pg.dev 0x104) val (fun d => d.modeRequest val safeInCk false))

/-- MODE_TRANSITION_DONE (R36). -/
def execModeTransitionDone (s : State) : Host.Outcome State Fault Refusal :=
  s.run .modeTransitionDone (fun d => d.modeTransitionDone)

/-- OFFLOAD_DRAIN_DONE (R38). -/
def execOffloadDrainDone (s : State) : Host.Outcome State Fault Refusal :=
  s.run .offloadDrainDone (fun d => d.offloadDrainDone)

/-- SAFE_ENTRY_DONE (R40). -/
def execSafeEntryDone (s : State) : Host.Outcome State Fault Refusal :=
  s.run .safeEntryDone (fun d => d.safeEntryDone)

/-- READY_ENTRY (R33). -/
def execReadyEntry (s : State) : Host.Outcome State Fault Refusal :=
  s.run .readyEntry (fun d => d.readyEntry)

/-- THERMAL_DRAIN_TIMEOUT (R439). -/
def execThermalDrainTimeout (s : State) : Host.Outcome State Fault Refusal :=
  s.run .thermalDrainTimeout (fun d => d.thermalDrainTimeout)

end Sys2Proof.Machine
end

