-- ==== Sys2Proof/Machine/Reset.lean ====
section
/-! DEFINITION. Whole-device resets and the reference clocks (R324, R326 to R329, R442, R504 to R506). How the device leaves
reset stands in Release.lean. -/

namespace Sys2Proof.Machine

/-! Reset sources, by their bit of RST_CAUSE (Table 16-2). -/
namespace Src
def por : Nat := 0
def pin : Nat := 1
def therm : Nat := 2
def refloss : Nat := 3
def sw : Nat := 4
end Src

/-- What a whole-device reset leaves: fuse values, straps and balls, the flash, boundary scan; the displays of what the supply
monitors and the quad references show (R324, R444). -/
def Dev.resetState (d : Dev) : Dev :=
  let x : Dev := { ck := 0, ins := d.ins, pins := d.pins, fuses := d.fuses, thermTrip := d.thermTrip,
                   mem := d.mem.filter (fun (e : Nat × Byte) => decide (Na.flash ≤ e.1) && decide (e.1 < Na.flashEnd)),
                   fab := { pages := d.fab.pages, tap := d.fab.tap, bsr := d.fab.bsr } }
  let x := x.setFld Pg.pmc F.PMC_STAT_MON_OK (d.fld Pg.pmc F.PMC_STAT_MON_OK)
  [0, 1].foldl (fun (x : Dev) h => x.setFld (Pg.clkrst h) F.CLKRST_STAT_QREF_OK (d.fld (Pg.clkrst h) F.CLKRST_STAT_QREF_OK)) x

/-- A source becomes active (R327, R329). One that joins a reset holds it; power-on begins its own, which keeps THERM alone of
RST_CAUSE, and that only if VDD_AON stayed up, and ends the SW source. -/
def Dev.resetBy (d : Dev) (src : Nat) (aonKept : Bool) : Dev :=
  let all := if d.sources.contains src then d.sources else src :: d.sources
  if src ≠ Src.por ∧ d.sources ≠ [] then { d with sources := all }
  else
    let wasTherm := d.flag (Pg.clkrst 0) F.CLKRST_RST_CAUSE_THERM || d.sources.contains Src.therm
    let cause := (all.filter (fun s => decide (s ≠ Src.therm) || decide (src = Src.therm))).foldl (fun c s => c ||| 2 ^ s) 0
    let cause := if src = Src.por ∧ aonKept ∧ wasTherm then cause ||| 2 ^ Src.therm else cause
    let x := d.resetState
    let x : Dev := { x with sources := if src = Src.por then all.filter (fun s => decide (s ≠ Src.sw)) else all, rst := if src = Src.por then .unpowered else .held }
    let x := if src = Src.por then
        [0, 1].foldl (fun (x : Dev) h => x.setReg (Pg.clkrst h) 0x00C 0#32) (x.setFld Pg.pmc F.PMC_STAT_MON_OK 0)
      else x
    [0, 1].foldl (fun (x : Dev) h =>
      (x.setReg (Pg.clkrst h) 0x10C (BitVec.ofNat 32 cause)).setFld (Pg.clkrst h) F.CLKRST_STAT_CK_LOCK 0) x

/-- A source becomes inactive; with the last one t0 has come (R330). -/
def Dev.dropSource (d : Dev) (src : Nat) : Dev :=
  if ¬ d.sources.contains src then d
  else
    let d : Dev := { d with sources := d.sources.filter (fun s => decide (s ≠ src)) }
    if d.sources = [] then d.schedOnce 0 (.resetRelease d.ins.pairSide d.ins.halfSteward d.ins.cfgAuto d.ins.pullSel) else d

/-- POWER_ON_RESET: a supply of the device is below its threshold; `aonKept` tells whether VDD_AON has stayed above its own. -/
def Dev.powerOnReset (d : Dev) (aonKept : Bool) : Dev := d.resetBy Src.por aonKept

/-- RESET_PIN: RESET_N has passed its filter low, or has risen. -/
def Dev.resetPin (d : Dev) (low : Bool) : Dev := if low then d.resetBy Src.pin true else d.dropSource Src.pin

/-- REFCLK_LOSS: no edge for 1 µs, or REF_CLK is back. -/
def Dev.refclkLoss (d : Dev) (lost : Bool) : Dev := if lost then d.resetBy Src.refloss true else d.dropSource Src.refloss

/-- SOFTWARE_RESET: a write to SWRST (R329). -/
def Dev.softwareReset (d : Dev) (h : Nat) (val : Word) : Dev :=
  if bitsOf val.toNat 0 16 = 0x5EED then (d.resetBy Src.sw true).sched 1000 .softwareResetExpiry
  else d.err (Pg.clkrst h) 2 0x1003

/-- SOFTWARE_RESET_EXPIRY (R327). -/
def Dev.softwareResetExpiry (d : Dev) : Dev := d.dropSource Src.sw

/-- SUPPLIES_UP (R504, R505): the balls leave high impedance, the power-on timer of 100 µs starts. -/
def Dev.suppliesUp (d : Dev) : Dev :=
  if d.rst ≠ .unpowered then d else ({ d with rst := .held } : Dev).sched 100000 .porRelease

/-- POR_RELEASE (R442, R505): the power-on source is inactive, and thermal shutdown with it. -/
def Dev.porRelease (d : Dev) : Dev :=
  if d.rst ≠ .held ∨ ¬ d.sources.contains Src.por then d
  else ({ d with thermTrip := false, sources := d.sources.filter (fun s => decide (s ≠ Src.therm)) } : Dev).dropSource Src.por

/-- Thermal shutdown (R441, R442). -/
def Dev.thermalShutdown (d : Dev) : Dev := { d with thermTrip := true }.resetBy Src.therm true

/-! Reference clocks (R324, R326). -/

/-- QREF_LOSS: the quad's lanes lose CDR lock. -/
def Dev.qrefLoss (d : Dev) (q : Nat) : Dev :=
  let pg := Pg.clkrst (q / 8)
  let f : Fld := ⟨0x00C, 1 + q % 8, 1⟩
  if ¬ d.flag pg f then d
  else
    let d := ((d.setFld pg f 0).err pg 0 0x1001).pend pg 0
    [0, 1, 2, 3].foldl (fun (d : Dev) i =>
      d.lossOfSignal (laneFin (4 * q + i)) false) d

/-- QREF_RETURN. -/
def Dev.qrefReturn (d : Dev) (q : Nat) : Dev := d.setFld (Pg.clkrst (q / 8)) ⟨0x00C, 1 + q % 8, 1⟩ 1

/-- Is the output frequency of a fabric PLL's fields within 10 to 800 MHz, from fields Table 16-5 allows (R326)? -/
def fpllOk (h val : Nat) : Bool :=
  let src := bitsOf val 1 3
  let mult := bitsOf val 4 7
  let div := bitsOf val 11 6
  let inp := if src = 0 then 100000 else Config.uclkKHz h (src - 1)
  decide (src ≤ 4) && decide (8 ≤ mult) && decide (mult ≤ 100) && decide (1 ≤ div)
    && decide (10000 * div ≤ inp * mult) && decide (inp * mult ≤ 800000 * div)

/-- FPLL_WRITE: a setting that runs the PLL out of range is refused; one that changes it unlocks it. -/
def Dev.fpllWrite (d : Dev) (h j : Nat) (val : Word) : Dev :=
  let pg := Pg.clkrst h
  let off := 0x104 + 4 * j
  let v := bitsOf val.toNat 0 17
  let d := if val.toNat / 2 ^ 17 ≠ 0 then d.regErr pg 1 else d
  if bit v 0 ∧ ¬ fpllOk h v then d.err pg 3 0x1004
  else if (d.reg pg off).toNat = v then d
  else (d.setReg pg off (BitVec.ofNat 32 v)).setFld pg ⟨0x00C, 9 + j, 1⟩ 0

/-- FPLL_LOCK_LOSS. -/
def Dev.fpllLockLoss (d : Dev) (h j : Nat) : Dev :=
  let pg := Pg.clkrst h
  let f : Fld := ⟨0x00C, 9 + j, 1⟩
  if ¬ d.flag pg f then d else ((d.setFld pg f 0).err pg 1 0x1002).pend pg 1

/-- FPLL_LOCK. -/
def Dev.fpllLock (d : Dev) (h j : Nat) : Dev :=
  let pg := Pg.clkrst h
  let f : Fld := ⟨0x00C, 9 + j, 1⟩
  if d.flag pg f ∨ ¬ d.flag pg (F.CLKRST_FPLL_EN j) then d else (d.setFld pg f 1).pend pg 2

/-! The commands. -/

/-- POWER_ON_RESET (R327). -/
def execPowerOnReset (aonKept : Bool) (s : State) : Host.Outcome State Fault Refusal :=
  s.cmdAlways (fun d => d.powerOnReset aonKept)

/-- RESET_PIN (R506). -/
def execResetPin (low : Bool) (s : State) : Host.Outcome State Fault Refusal :=
  s.cmdAlways (fun d => d.resetPin low)

/-- REFCLK_LOSS (R327). -/
def execRefclkLoss (lost : Bool) (s : State) : Host.Outcome State Fault Refusal :=
  s.cmdAlways (fun d => d.refclkLoss lost)

/-- SOFTWARE_RESET (R329). -/
def execSoftwareReset (h : Half) (val : Word) (s : State) : Host.Outcome State Fault Refusal :=
  s.cmd (fun d => d.softwareReset h.val val)

/-- SOFTWARE_RESET_EXPIRY (R327). -/
def execSoftwareResetExpiry (s : State) : Host.Outcome State Fault Refusal :=
  s.runAlways .softwareResetExpiry (fun d => d.softwareResetExpiry)

/-- SUPPLIES_UP (R504). -/
def execSuppliesUp (s : State) : Host.Outcome State Fault Refusal :=
  s.cmdAlways (fun d => d.suppliesUp)

/-- POR_RELEASE (R505). -/
def execPorRelease (s : State) : Host.Outcome State Fault Refusal :=
  s.runAlways .porRelease (fun d => d.porRelease)

/-- QREF_LOSS (R324). -/
def execQrefLoss (q : Fin 16) (s : State) : Host.Outcome State Fault Refusal :=
  s.cmd (fun d => d.qrefLoss q.val)

/-- QREF_RETURN (R324). -/
def execQrefReturn (q : Fin 16) (s : State) : Host.Outcome State Fault Refusal :=
  s.cmd (fun d => d.qrefReturn q.val)

/-- FPLL_WRITE (R326). -/
def execFpllWrite (h : Half) (j : Fin 2) (val : Word) (s : State) : Host.Outcome State Fault Refusal :=
  s.cmd (fun d => d.fpllWrite h.val j.val val)

/-- FPLL_LOCK_LOSS (R326). -/
def execFpllLockLoss (h : Half) (j : Fin 2) (s : State) : Host.Outcome State Fault Refusal :=
  s.cmd (fun d => d.fpllLockLoss h.val j.val)

/-- FPLL_LOCK (R326). -/
def execFpllLock (h : Half) (j : Fin 2) (s : State) : Host.Outcome State Fault Refusal :=
  s.cmd (fun d => d.fpllLock h.val j.val)

end Sys2Proof.Machine
end

