-- ==== Sys2Proof/Machine/Thermal.lean ====
section
/-! DEFINITION. Temperature and supplies (R440 to R449, R502). -/

namespace Sys2Proof.Machine

/-! Temperature, in units of 0.25 °C (R440, R441). -/

/-- The samples shown: the latest valid ones of the bays. -/
def Dev.validTemps (d : Dev) : List (Nat × Int) :=
  ((List.range 12).filter (fun b => d.flag Pg.therm (F.THERM_BAY_VALID b))).map (fun b => (b, signed 16 (d.fld Pg.therm (F.THERM_BAY_TEMP b))))

/-- THERM_HIGHEST: the highest of them, the lowest bay on a tie. -/
def Dev.showHighest (d : Dev) : Dev :=
  match d.validTemps with
  | [] => d
  | x :: xs =>
    let best := xs.foldl (fun (a : Nat × Int) (b : Nat × Int) => if a.2 < b.2 then b else a) x
    (d.setFld Pg.therm F.THERM_HIGHEST_TEMP (best.2 % 65536).toNat).setFld Pg.therm F.THERM_HIGHEST_BAY best.1

/-- A sample is shown; one outside −64 to 160 °C or that fails the self-check is invalid. -/
def Dev.showSample (d : Dev) (b : Nat) (temp : Int) (valid : Bool) : Dev :=
  let pg := Pg.therm
  if ¬ valid then (((d.setFld pg (F.THERM_BAY_VALID b) 0).err pg 0 0x1711).pend pg 4).showHighest
  else
    let v := (temp % 65536).toNat
    let d := (d.setFld pg (F.THERM_BAY_TEMP b) v).setFld pg (F.THERM_BAY_VALID b) 1
    let first := !d.pmc.sampled.contains b
    let d := if first ∨ signed 16 (d.fld pg (F.THERM_MAX_TEMP b)) < temp then d.setFld pg (F.THERM_MAX_TEMP b) v else d
    let d : Dev := if first then { d with pmc := { d.pmc with sampled := b :: d.pmc.sampled } } else d
    d.showHighest

/-- THERMAL_SAMPLE: the thresholds of Table 23-2. -/
def Dev.thermalSample (d : Dev) (b : Nat) (temp : Int) (ok : Bool) : Dev :=
  let pg := Pg.therm
  let valid := ok && decide (-256 ≤ temp) && decide (temp ≤ 640)
  let r : Int := if valid then temp else 512
  let warn : Fld := ⟨0x00C, b, 1⟩
  let trip : Fld := ⟨0x00C, 12 + b, 1⟩
  let d := d.showSample b temp valid
  if 540 ≤ r then d.thermalShutdown
  else
    let none := d.fld pg F.THERM_STAT_WARN = 0
    let was := d.flag pg warn
    let d := d.setFld pg warn (if 440 ≤ r then 1 else 0)
    let d := if 440 ≤ r ∧ none then d.pend pg 0 else d
    let d := if was ∧ r < 440 ∧ d.fld pg F.THERM_STAT_WARN = 0 then d.pend pg 1 else d
    let d := if 512 ≤ r then (if d.flag pg trip then d else (d.setFld pg trip 1).err pg 1 0x1712).pend pg 2
      else if r < 440 then d.setFld pg trip 0 else d
    let d := d.setFld Pg.pmc F.PMC_STAT_THERM_LIVE (b01 (d.fld pg F.THERM_STAT_TRIP ≠ 0))
    if 512 ≤ r then d.safeTrigger [b / 6] 1 else d

/-! Supplies (R444). -/

/-- Does the rail have CRITICAL set? -/
def Dev.critical (d : Dev) (r : Nat) : Bool := d.flag Pg.pmc (F.PMC_RAIL_CFG_CRITICAL r)

/-- Every group lies within its window and no CRITICAL rail reports a fault. -/
def Dev.suppliesGood (d : Dev) : Bool :=
  d.fld Pg.pmc F.PMC_STAT_MON_OK = 0xFF && !d.pmc.railFault.any d.critical

/-- The 1 ms without a break after which the cause clears starts, or starts again. -/
def Dev.supplyTimer (d : Dev) : Dev :=
  if ¬ d.suppliesGood then { d with agenda := agendaDrop .supplyCauseClear d.agenda }
  else if d.flag Pg.pmc F.PMC_STAT_SUPPLY_LIVE then d.schedOnce 1000000 .supplyCauseClear
  else d

/-- Enabled channels start training once the DRAM supplies are within limits (R248, R341). -/
def Dev.trainAll (d : Dev) : Dev := (List.range 16).foldl (fun (d : Dev) c => d.trainStart c) d

/-- Every ramp stops at its current step (R447). -/
def Dev.stopRamps (d : Dev) : Dev :=
  (List.range 8).foldl (fun (d : Dev) r =>
    if d.flag Pg.pmc (F.PMC_RAIL_CFG_RAMPING r) then (d.setFld Pg.pmc (F.PMC_RAIL_CFG_RAMPING r) 0).pend Pg.pmc 3 else d) d

/-- A supply fault. -/
def Dev.supplyFault (d : Dev) : Dev :=
  let d := ((d.setFld Pg.pmc F.PMC_STAT_SUPPLY_LIVE 1).err Pg.pmc 4 0x1705).pend Pg.pmc 2
  let d := d.safeTrigger [0, 1] 2
  let d := if d.modeOf d.stewardHalf = Mode.safe.code then d.stopRamps else d
  { d with agenda := agendaDrop .supplyCauseClear d.agenda }.supplyTimer

/-- MONITOR_GROUP_CHANGE: MON_OK follows in every CK, in reset too. -/
def Dev.monitorGroupChange (d : Dev) (g : Nat) (ok : Bool) : Dev :=
  let d := d.setFld Pg.pmc ⟨0x00C, 3 + g, 1⟩ (b01 ok)
  if d.rst ≠ .running then d
  else
    let d : Dev := if ok then { d with pmc := { d.pmc with groupFault := d.pmc.groupFault.filter (fun x => decide (x ≠ g)) } } else d
    d.trainAll.supplyTimer

/-- SUPPLY_WINDOW_FAULT: a group has been out of its window for 10 µs. -/
def Dev.supplyWindowFault (d : Dev) (g : Nat) : Dev :=
  if bit (d.fld Pg.pmc F.PMC_STAT_MON_OK) g ∨ d.pmc.groupFault.contains g then d
  else ({ d with pmc := { d.pmc with groupFault := g :: d.pmc.groupFault } } : Dev).supplyFault

/-- SUPPLY_CAUSE_CLEAR. -/
def Dev.supplyCauseClear (d : Dev) : Dev :=
  if d.suppliesGood then d.setFld Pg.pmc F.PMC_STAT_SUPPLY_LIVE 0 else d

/-! PMBus (R444, R446, R447). -/

/-- Fault bits of STATUS_WORD: all but BUSY (PMBus, log entry 17). -/
def statusFault (w : BitVec 16) : Bool := w &&& 0xFF7F#16 ≠ 0#16

/-- A transaction of a rail failed. -/
def Dev.pmbusFailed (d : Dev) : Dev := d.err Pg.pmc 3 0x1704

/-- The poll of one rail. -/
def Dev.railPoll (d : Dev) (x : RailRead) : Dev :=
  let r := x.rail.val
  if ¬ d.flag Pg.pmc (F.PMC_RAIL_CFG_EN r) then d
  else
    let d := match x.vout with
      | some v => d.setFld Pg.pmc (F.PMC_RAIL_MEAS_VOUT_MV r) v.toNat
      | none => d
    let d := match x.iout with
      | some v => d.setFld Pg.pmc (F.PMC_RAIL_MEAS_IOUT r) v.toNat
      | none => d
    match x.status with
    | none =>
      let n : Nat := sget 0 d.pmc.fails r + 1
      let d : Dev := { d.pmbusFailed with pmc := { d.pmbusFailed.pmc with fails := sset 0 d.pmc.fails r (if n = 3 then 0 else n) } }
      if n = 3 ∧ d.critical r then d.supplyFault else d
    | some w =>
      let had := d.pmc.railFault.contains r
      let bad := statusFault w
      let l := d.pmc.railFault.filter (fun y => decide (y ≠ r))
      let d : Dev := { d with pmc := { d.pmc with fails := sset 0 d.pmc.fails r 0, railFault := if bad then r :: l else l } }
      if bad ∧ ¬ had ∧ d.critical r then d.supplyFault else d

/-- PMBUS_POLL. -/
def Dev.pmbusPoll (d : Dev) (reads : List RailRead) : Dev :=
  (reads.foldl (fun (d : Dev) x => d.railPoll x) d).trainAll.supplyTimer

/-- The voltage a rail's next step takes, from the last toward the target by STEP_MV at most. -/
def Dev.rampNext (d : Dev) (r from_ : Nat) : Nat :=
  let t := d.fld Pg.pmc (F.PMC_RAIL_TARGET_MV r)
  let s := d.fld Pg.pmc F.PMC_RAMP_STEP_MV
  if from_ ≤ t then min t (from_ + s) else max t (from_ - s)

/-- VOUT_COMMAND is written; READ_VOUT follows SETTLE_US later. -/
def Dev.rampWrite (d : Dev) (r from_ : Nat) : Dev :=
  let v := d.rampNext r from_
  let d : Dev := { d with pmc := { d.pmc with steps := sput d.pmc.steps r v } }
  (d.emit (.pmbus r v)).sched (1000 * d.fld Pg.pmc F.PMC_RAMP_SETTLE_US) (.rampStep ⟨r % 8, Nat.mod_lt _ (by decide)⟩ (some (BitVec.ofNat 16 v)))

/-- A ramp starts from the rail's last step, or from its last reading. -/
def Dev.rampStart (d : Dev) (r : Nat) : Dev :=
  let cur := match sfind d.pmc.steps r with
    | some v => v
    | none => d.fld Pg.pmc (F.PMC_RAIL_MEAS_VOUT_MV r)
  (d.setFld Pg.pmc (F.PMC_RAIL_CFG_RAMPING r) 1).rampWrite r cur

/-- RAIL_TARGET_WRITE. A stream's target is ramped to from the startup release on. -/
def Dev.railTargetWrite (d : Dev) (r : Nat) (val : Word) : Dev :=
  let pg := Pg.pmc
  let v := bitsOf val.toNat 0 16
  let d := if val.toNat / 65536 ≠ 0 then d.regErr pg 1 else d
  let d := d.setFld pg (F.PMC_RAIL_CFG_RAMP_ERR r) 0
  if v < d.fld pg (F.PMC_RAIL_LIMIT_MIN_MV r) ∨ d.fld pg (F.PMC_RAIL_LIMIT_MAX_MV r) < v ∨ ¬ d.flag pg (F.PMC_RAIL_CFG_EN r)
      ∨ d.flag pg (F.PMC_RAIL_CFG_RAMPING r) ∨ (d.mode = Mode.safe.code ∧ d.flag pg F.PMC_STAT_SUPPLY_LIVE) then d.err pg 1 0x1702
  else
    let d := d.setFld pg (F.PMC_RAIL_TARGET_MV r) v
    if d.mode = Mode.loading.code ∧ ¬ d.started then d else d.rampStart r

/-- RAMP_STEP: the step is verified, and the next one written. -/
def Dev.rampStep (d : Dev) (r : Nat) (vout : Option (BitVec 16)) : Dev :=
  let pg := Pg.pmc
  if ¬ d.flag pg (F.PMC_RAIL_CFG_RAMPING r) then d
  else
    let step := sget 0 d.pmc.steps r
    match vout with
    | none =>
      d.pmbusFailed.sched (1000 * d.fld pg F.PMC_RAMP_SETTLE_US) (.rampStep ⟨r % 8, Nat.mod_lt _ (by decide)⟩ (some (BitVec.ofNat 16 step)))
    | some v =>
      let d := d.setFld pg (F.PMC_RAIL_MEAS_VOUT_MV r) v.toNat
      let off := max v.toNat step - min v.toNat step
      if d.fld pg F.PMC_RAMP_TOL_MV < off then
        (((d.setFld pg (F.PMC_RAIL_CFG_RAMPING r) 0).setFld pg (F.PMC_RAIL_CFG_RAMP_ERR r) 1).err pg 2 0x1703).pend pg 3
      else if step = d.fld pg (F.PMC_RAIL_TARGET_MV r) then (d.setFld pg (F.PMC_RAIL_CFG_RAMPING r) 0).pend pg 3
      else d.rampWrite r step

/-- At the startup release the rails' VOUT_MODE is read (R446): a rail that is not linear is disabled; targets of the stream are
ramped to. -/
def Dev.railsStart (d : Dev) (nonLinear failed : BitVec 8) : Dev :=
  (List.range 8).foldl (fun (d : Dev) r =>
    if ¬ d.flag Pg.pmc (F.PMC_RAIL_CFG_EN r) then d
    else if failed.getLsbD r then d.pmbusFailed
    else if nonLinear.getLsbD r then (d.setFld Pg.pmc (F.PMC_RAIL_CFG_EN r) 0).pmbusFailed
    else if d.fld Pg.pmc (F.PMC_RAIL_TARGET_MV r) ≠ 0 then d.rampStart r
    else d) d

/-! The commands. -/

/-- THERMAL_SAMPLE (R441). -/
def execThermalSample (b : Fin 12) (temp : Int) (ok : Bool) (s : State) : Host.Outcome State Fault Refusal :=
  s.cmd (fun d => d.thermalSample b.val temp ok)

/-- SUPPLY_WINDOW_FAULT (R444). -/
def execSupplyWindowFault (g : Fin 8) (s : State) : Host.Outcome State Fault Refusal :=
  s.cmd (fun d => d.supplyWindowFault g.val)

/-- MONITOR_GROUP_CHANGE (R444). -/
def execMonitorGroupChange (g : Fin 8) (ok : Bool) (s : State) : Host.Outcome State Fault Refusal :=
  s.cmdAlways (fun d => d.monitorGroupChange g.val ok)

/-- SUPPLY_CAUSE_CLEAR (R444). -/
def execSupplyCauseClear (s : State) : Host.Outcome State Fault Refusal :=
  s.run .supplyCauseClear (fun d => d.supplyCauseClear)

/-- PMBUS_POLL (R444). -/
def execPmbusPoll (reads : List RailRead) (s : State) : Host.Outcome State Fault Refusal :=
  s.cmd (fun d => d.pmbusPoll reads)

/-- RAIL_TARGET_WRITE (R447). -/
def execRailTargetWrite (r : Fin 8) (val : Word) (s : State) : Host.Outcome State Fault Refusal :=
  s.cmd (fun d => d.railTargetWrite r.val val)

/-- RAMP_STEP (R447). -/
def execRampStep (r : Fin 8) (vout : Option (BitVec 16)) (s : State) : Host.Outcome State Fault Refusal :=
  s.run (.rampStep r vout) (fun d => d.rampStep r.val vout)

end Sys2Proof.Machine
end

