-- ==== Sys2Proof/Machine/Steward.lean ====
section
/-! DEFINITION. Boot of the Gecko complexes, the steward token, loss of the bridge between the halves (R395 to R401, R445). -/

namespace Sys2Proof.Machine

/-! Boot (R395, R396). -/

/-- Bytes of the flash as the boot loader reads them. -/
def Dev.flashBytes (d : Dev) (off n : Nat) : List Byte := d.bytes (Na.flash + off) n

/-- The flash offset of a boot header. -/
def bootHeader (fallback : Bool) : Nat := if fallback then 0x1000000 else 0

/-- LENGTH, OFFSET and ENTRY of a valid header (Table 20-3). -/
def Dev.bootImage (d : Dev) (fallback : Bool) : Option (Nat × Nat × Nat) :=
  let hd := d.flashBytes (bootHeader fallback) 28
  let f (i n : Nat) : Nat := leNat ((hd.drop i).take n)
  let len := f 4 4
  let off := f 8 4
  if f 0 4 = 0x4B434547 ∧ f 24 4 = (crc32c (hd.take 24)).toNat ∧ len % 32 = 0 ∧ 32 ≤ len ∧ len ≤ 524288
      ∧ off + len ≤ 0x2000000 then some (len, off, f 12 8) else none

/-- The image's CRC, as the header gives it and as read. -/
def Dev.imageOk (d : Dev) (fallback : Bool) (len off : Nat) : Bool :=
  leNat (d.flashBytes (bootHeader fallback + 20) 4) = (crc32c (d.flashBytes off len)).toNat

/-- A load begins: 72 CK for each unit of header and image, 16 more to the release (R396). -/
def Dev.bootLoad (d : Dev) (start : Nat) (fallback : Bool) : Dev :=
  let k := match d.bootImage fallback with
    | none => 144
    | some (len, off, _) => 72 * (2 + len / 32) + (if d.imageOk fallback len off then 16 else 0)
  ({ d with boot := some (start, fallback), agenda := agendaDrop .bootDone d.agenda } : Dev).sched k .bootDone

/-- The boot starts. -/
def Dev.bootStart (d : Dev) : Dev := (d.setFld Pg.steward F.STEWARD_BOOT_STAT_STATE 0).bootLoad d.ck false

def Dev.stewardRefused (d : Dev) : Dev := d.err Pg.steward 2 0x1413

/-- BOOT_GO: refused while a core is in a state other than RESET or STOPPED. -/
def Dev.bootGo (d : Dev) : Dev :=
  if [0, 1, 2, 3].any (fun k => d.tgtState (192 + k) ≠ Gs.reset && d.tgtState (192 + k) ≠ Gs.stopped) then d.stewardRefused
  else d.bootStart

/-- The image stands in both complexes' local memories; the cores leave RESET at ENTRY. -/
def Dev.bootRelease (d : Dev) (start len off entry : Nat) (fallback : Bool) : Dev :=
  let img := d.flashBytes off len
  let d := [0, 1].foldl (fun (d : Dev) h => (d.dropBytes (Na.gecko + h * 2 ^ 32) 0x8_0000).setBytes (Na.gecko + h * 2 ^ 32) img) d
  let d := [0, 1, 2, 3].foldl (fun (d : Dev) k =>
    let d : Dev := { d with agenda := agendaDrop (.geckoCoreReset (gkOp k)) d.agenda }
    d.coreStart k entry) d
  let d := d.setFld Pg.steward F.STEWARD_BOOT_STAT_STATE (if fallback then 2 else 1)
  (({ d with boot := none } : Dev).setReg Pg.steward 0x128 (BitVec.ofNat 32 (d.ck - start))).pend Pg.steward 2

/-- BOOT_DONE: the cores leave RESET, or the fallback is loaded, or the boot has failed. -/
def Dev.bootDone (d : Dev) : Dev :=
  match d.boot with
  | none => d
  | some (start, fallback) =>
    let fail (d : Dev) : Dev :=
      if fallback then ((({ d with boot := none } : Dev).setFld Pg.steward F.STEWARD_BOOT_STAT_STATE 3).err Pg.steward 1 0x1412).pend Pg.steward 2
      else (d.err Pg.steward 0 0x1411).bootLoad start true
    match d.bootImage fallback with
    | none => fail d
    | some (len, off, entry) =>
      if d.imageOk fallback len off then d.bootRelease start len off entry fallback else fail d

/-! The token (R397, R399, R445). -/

/-- Is the complex of a half alive? -/
def Dev.complexAlive (d : Dev) (h : Nat) : Bool :=
  [2 * h, 2 * h + 1].any (fun k => [Gs.run, Gs.wfi, Gs.monitor].contains (d.tgtState (192 + k)))

def aliveFld (h : Nat) : Fld := ⟨0x00C, 5 + h, 1⟩
def roleFld (h : Nat) : Fld := ⟨0x00C, 2 * h, 2⟩
/-- The half that the HALF_STEWARD strap names. -/
def Dev.strapHalf (d : Dev) : Nat := d.fld Pg.steward F.STEWARD_STAT_STRAP

/-- Is the steward lost: the holder not alive and no handover possible? -/
def Dev.stewardLost (d : Dev) : Bool :=
  let s := d.stewardHalf
  !d.complexAlive s && (!d.complexAlive (1 - s) || !d.bridgeOk)

/-- A waiting firmware command stands at the cores of the steward (R405). -/
def Dev.fwSource (d : Dev) : Dev :=
  [0, 1, 2, 3].foldl (fun (d : Dev) k =>
    if d.flag Pg.hostif F.HOSTIF_STAT_FW_PEND ∧ k / 2 = d.stewardHalf then d.gkRaise k 3 else d.gkClear k 3) d

/-- The token passes to a half, its epoch incremented; `was` is the role of the half that gives it up. -/
def Dev.tokenTo (d : Dev) (h was : Nat) : Dev :=
  let d := (d.setFld Pg.steward (roleFld h) 0).setFld Pg.steward (roleFld (1 - h)) was
  let d := (d.setFld Pg.steward F.STEWARD_EPOCH_EPOCH (d.fld Pg.steward F.STEWARD_EPOCH_EPOCH + 1)).bump Pg.steward F.STEWARD_HANDOVER_CNT
  let d : Dev := { d with tokenCk := none }
  let d := ([0, 1, 2, 3].foldl (fun (d : Dev) k => d.gkRaise k 5) d).fwSource
  (d.pend Pg.steward 0).genEvent 0 4 0 0 (leBytes 2 (d.fld Pg.steward F.STEWARD_EPOCH_EPOCH) ++ [byteOf h 0])

/-- Would the next word tell something new? -/
def Dev.stewardDue (d : Dev) : Bool :=
  [0, 1].any (fun h => d.flag Pg.steward (aliveFld h) ≠ d.complexAlive h)
    || d.flag Pg.pmc F.PMC_STAT_STEWARD_LIVE ≠ d.stewardLost

/-- DEV_MODE_OTHER is the South half's mode as a word reports it (R31, R397). -/
def Dev.otherReported (d : Dev) : Dev :=
  match d.south with
  | some x => d.setFld Pg.dev F.DEV_MODE_OTHER x.mode
  | none => d

/-- STEWARD_WORD: what the halves tell each other in this CK. While the bridge is lost, a word that comes (`heard`) is one of those that
a rejoin counts (R401): it reports the other half's mode. -/
def Dev.stewardWord (d : Dev) (heard : Bool) : Dev :=
  let d := if d.bridgeOk ∨ heard then d.otherReported else d
  let wasLost := d.flag Pg.pmc F.PMC_STAT_STEWARD_LIVE
  let d := [0, 1].foldl (fun (d : Dev) h => d.setFld Pg.steward (aliveFld h) (b01 (d.complexAlive h))) d
  let s := d.stewardHalf
  let mine := d.complexAlive s
  let other := d.complexAlive (1 - s)
  if ¬ mine ∧ other ∧ d.bridgeOk then
    (if wasLost then (d.tokenTo (1 - s) 1).setFld Pg.pmc F.PMC_STAT_STEWARD_LIVE 0
     else match d.tokenCk with
      | none => ({ d with tokenCk := some (d.ck + 4) } : Dev).sched 4 .stewardWord
      | some t => if t ≤ d.ck then d.tokenTo (1 - s) 1 else d)
  else
    let d : Dev := { d with tokenCk := none }
    if mine then
      let d := if wasLost ∧ other ∧ d.bridgeOk ∧ d.strapHalf ≠ s then d.tokenTo d.strapHalf 1 else d
      d.setFld Pg.pmc F.PMC_STAT_STEWARD_LIVE 0
    else if wasLost then d
    else (d.setFld Pg.pmc F.PMC_STAT_STEWARD_LIVE 1).safeTrigger (if d.south.isSome then [s] else [0, 1]) 4

/-- YIELD (R399): the rule gives no CK for the passing of the token, though the steward class takes 4 CK to cross; the model passes it at
once (DESIGN CHOICE, log entry 35). -/
def Dev.yieldToken (d : Dev) : Dev :=
  let s := d.stewardHalf
  if d.complexAlive (1 - s) ∧ d.bridgeOk then d.tokenTo (1 - s) 1 else d.stewardRefused

/-! The bridge (R400, R401). -/

/-- BRIDGE_LOST: no steward word for 64 CK. -/
def Dev.bridgeLost (d : Dev) : Dev :=
  if ¬ d.bridgeOk then d
  else
    let d := ((d.setFld Pg.steward F.STEWARD_STAT_BRIDGE_OK 0).err Pg.steward 3 0x1414).pend Pg.steward 1
    let s := d.strapHalf
    let d := if d.stewardHalf = s then d.setFld Pg.steward (roleFld (1 - s)) 2 else d.tokenTo s 2
    let d := if d.south.isSome then d else
      { d with south := some ⟨d.mode, d.safeEntry, d.fld Pg.dev F.DEV_MODE_SAFE_CAUSE, d.flag Pg.dev F.DEV_MODE_PASS, d.safeCk⟩ }
    let f := 1 - d.anchorHalf
    let due := (d.lpcOf f).wordCk + 4
    if d.ck < due then d.schedOnce (due - d.ck) (.followerFreewheel (halfOf f)) else d.followerFreewheel f

/-- ISOLATION_REJOIN: 1,024 CK of words have come. -/
def Dev.isolationRejoin (d : Dev) : Dev :=
  if d.bridgeOk then d
  else
    let d := (d.setFld Pg.steward F.STEWARD_STAT_BRIDGE_OK 1).setFld Pg.steward (roleFld (1 - d.stewardHalf)) 1
    let d := d.otherReported
    if d.heldMode 0 = d.heldMode 1 ∧ d.entering = [] then d.unite else (d.safeTrigger [0, 1] 4).unite

/-! The commands. -/

/-- BOOT_GO (R395). -/
def execBootGo (s : State) : Host.Outcome State Fault Refusal :=
  s.cmd (fun d => d.bootGo)

/-- BOOT_DONE (R396). -/
def execBootDone (s : State) : Host.Outcome State Fault Refusal :=
  s.run .bootDone (fun d => d.bootDone)

/-- STEWARD_WORD (R397). -/
def execStewardWord (s : State) : Host.Outcome State Fault Refusal :=
  s.run .stewardWord (fun d => d.stewardWord (!s.dev.dueNow .stewardWord))

/-- YIELD (R399). -/
def execYield (s : State) : Host.Outcome State Fault Refusal :=
  s.cmd (fun d => d.yieldToken)

/-- BRIDGE_LOST (R400). -/
def execBridgeLost (s : State) : Host.Outcome State Fault Refusal :=
  s.run .bridgeLost (fun d => d.bridgeLost)

/-- ISOLATION_REJOIN (R401). -/
def execIsolationRejoin (s : State) : Host.Outcome State Fault Refusal :=
  s.run .isolationRejoin (fun d => d.isolationRejoin)

end Sys2Proof.Machine
end

