-- ==== Sys2Proof/Machine/HostRing.lean ====
section
/-! DEFINITION. The command ring of the host, firmware commands and events (R403 to R407). What REG_WRITE and REG_READ do stands in
HostCmds.lean. -/

namespace Sys2Proof.Machine

/-! Fetching (R403). -/

/-- Entries of the command ring. -/
def Dev.cmdSize (d : Dev) : Nat := 2 ^ d.fld Pg.hostif F.HOSTIF_CMD_CFG_LOG2

/-- The next entry is fetched while none executes: CMD_EN 1, not halted, HEAD not at TAIL. A read of host memory without completion for
50 ms is answered ERROR (R402). -/
def Dev.cmdKick (d : Dev) : Dev :=
  let head := d.fld Pg.hostif F.HOSTIF_CMD_HEAD_IDX
  if ¬ d.flag Pg.hostif F.HOSTIF_CTRL_CMD_EN ∨ d.flag Pg.hostif F.HOSTIF_STAT_CMD_HALTED ∨ d.hcmd.isSome ∨ d.fetching
      ∨ head = d.fld Pg.hostif F.HOSTIF_CMD_TAIL_IDX then d
  else
    let base := d.fld Pg.hostif F.HOSTIF_CMD_BASE_LO_ADDR * 4096 + 2 ^ 32 * d.fld Pg.hostif F.HOSTIF_CMD_BASE_HI
    (({ d with fetching := true } : Dev).emit (.hostRead (base + 64 * head) 64)).sched 50000000 (.cmdFetch none)

/-- A ring setting is refused (R407). -/
def Dev.ringRefused (d : Dev) : Dev := d.err Pg.hostif 5 0x1426

/-- A command ends: SEQ_DONE, its completion event if it asked for one or failed, the next fetch. -/
def Dev.cmdEnd (d : Dev) (status code : Nat) (payload : List Byte) : Dev :=
  match d.hcmd with
  | none => d
  | some c =>
    let d : Dev := { d with hcmd := none }
    let d := (d.setFld Pg.hostif F.HOSTIF_STAT_CMD_BUSY 0).setFld Pg.hostif F.HOSTIF_CMD_SEQ_DONE c.hseq
    let d := if bit c.flags 0 ∨ status ≠ 0 then d.genEvent c.hseq 1 status code payload else d
    d.cmdKick

/-- A byte, a number of the command at hand. -/
def HostCmd.at (c : HostCmd) (i n : Nat) : Nat := leNat ((c.bytes.drop i).take n)

/-- Are bytes of the entry 0 from here up to there? -/
def HostCmd.zeros (c : HostCmd) (i j : Nat) : Bool := ((c.bytes.drop i).take (j - i)).all (fun b => decide (b = 0#8))

/-- Does a command have a reserved OP, reserved bytes that are not 0, or operands Table 20-5 does not give (R404)? -/
def HostCmd.reserved (c : HostCmd) : Bool :=
  decide (1 < c.flags) || !c.zeros 6 8 || (match c.op with
    | 1 => decide (c.at 8 1 < 1) || decide (6 < c.at 8 1) || !c.zeros 9 16 || !c.zeros (16 + 8 * c.at 8 1) 64
    | 2 => decide (c.at 8 1 < 1) || decide (6 < c.at 8 1) || !c.zeros 9 16
             || (List.range 6).any (fun i => !c.zeros (20 + 8 * i) (24 + 8 * i)) || !c.zeros (16 + 8 * c.at 8 1) 64
    | 3 => decide (15 < c.at 8 1) || !c.zeros 9 64
    | 4 => decide (1 < c.at 8 1) || (decide (c.at 9 1 ≠ 1) && decide (c.at 9 1 ≠ 3)) || decide (1023 < c.at 10 2) || !c.zeros 12 16
             || !c.zeros 48 64
    | 5 => decide (3 < c.at 8 1) || !c.zeros 9 64
    | 6 => decide (4095 < c.at 8 2) || decide (1 < c.at 10 1) || !c.zeros 11 16 || !c.zeros 24 64
    | 7 => !c.zeros 8 64
    | op => decide (op < 0x80))

/-- The event that executes a command. -/
def HostCmd.event (c : HostCmd) : Instr :=
  match c.op with
  | 1 => .regWrite
  | 2 => .regRead
  | 3 => .mode
  | 4 => .sched
  | 5 => .flush
  | 6 => .seek
  | 7 => .nopCmd
  | _ => .firmwareCommand

/-- Is a BAR0 write on its way that reached the device before the doorbell? It takes effect before a command does (R402). -/
def Dev.bar0Owed (d : Dev) : Bool :=
  d.nocReqs.any (fun (e : Nat × NocReq) => e.2.who = .pcie none && decide (e.1 < d.cmdBell)
    && (e.2.ph = .source || e.2.ph = .parked || e.2.ph = .transit || e.2.ph = .held))

/-- CMD_FETCH: the entry at CMD_HEAD arrives, or its read ends in an error; it waits for BAR0 writes that came before the doorbell. -/
def Dev.cmdFetch (d : Dev) (entry : Option (List Byte)) : Dev :=
  if ¬ d.fetching then d
  else if entry.isSome ∧ d.bar0Owed then d.sched 1 (.cmdFetch entry)
  else
    let d : Dev := { d with fetching := false }
    match entry with
    | none => ((d.setFld Pg.hostif F.HOSTIF_STAT_CMD_HALTED 1).err Pg.hostif 2 0x1423).pend Pg.hostif 0
    | some l =>
      let l := (l ++ List.replicate 64 0#8).take 64
      let c : HostCmd := { hseq := leNat (l.take 4), op := (byteAt l 4).toNat, flags := (byteAt l 5).toNat, bytes := l }
      let d := d.setFld Pg.hostif F.HOSTIF_CMD_HEAD_IDX ((d.fld Pg.hostif F.HOSTIF_CMD_HEAD_IDX + 1) % d.cmdSize)
      let seen := d.fld Pg.hostif F.HOSTIF_CMD_SEQ_SEEN
      if c.hseq = 0 ∨ signed 32 (c.hseq + 2 ^ 32 - seen) ≤ 0 then (d.bump Pg.hostif F.HOSTIF_CMD_DUP_CNT).cmdKick
      else
        let d : Dev := { d.setFld Pg.hostif F.HOSTIF_CMD_SEQ_SEEN c.hseq with hcmd := some c }
        let d := d.setFld Pg.hostif F.HOSTIF_STAT_CMD_BUSY 1
        if c.reserved then (d.err Pg.hostif 0 0x1421).cmdEnd 2 0 [] else d.sched 0 c.event

/-- Run a host command that is under way, by its event. -/
def Dev.ifCmd (d : Dev) (ev : Instr) (f : HostCmd → Dev) : Dev :=
  match d.hcmd with
  | some c => if c.event = ev then f c else d
  | none => d

/-- The command goes on in a later phase, looked at again in the next CK. -/
def Dev.cmdWait (d : Dev) (c : HostCmd) (phase k : Nat) : Dev :=
  ({ d with hcmd := some { c with phase := phase } } : Dev).schedOnce k c.event

/-! Commands (R404, R405). -/

/-- MODE: a request to the steward, whose reach of a South half takes 4 CK (R398); a pair mirrors it or, on a shadow, refuses it (R464,
R465). -/
def Dev.modeCmd (d : Dev) : Dev :=
  d.ifCmd .mode (fun c =>
    if c.phase = 0 ∧ (d.isShadow ∨ d.mirroring) then
      let full := d.isShadow || decide (4096 ≤ d.pair.writes.length)
      let d := d.swGate (raddr Pg.dev 0x104) (BitVec.ofNat 32 (c.at 8 1 + 2 ^ 31)) id
      if full then d.cmdEnd 1 0x1803 [] else d.cmdEnd 0 0 []
    else if d.stewardHalf = 1 ∧ d.south.isSome then d.cmdWait c 0 1
    else if d.stewardHalf = 1 ∧ c.phase = 0 then d.cmdWait c 1 4
    else
      let t := c.at 8 1
      match d.requestErrors t false with
      | (_, code) :: _ => (d.modeArrives t false).cmdEnd 1 code []
      | [] => (d.modeArrives t false).cmdEnd 0 0 [])

/-- SCHED: an entry written or cancelled, as the EVS commands do (R87). -/
def Dev.schedCmd (d : Dev) : Dev :=
  d.ifCmd .sched (fun c =>
    let h := c.at 8 1
    let before := d.log.errs.length
    let (d, st) := if c.at 9 1 = 1 then d.evsInstall h (c.at 10 2) (BitVec.ofNat 256 (c.at 16 32)) else d.evsDrop h (c.at 10 2)
    if st ≠ 2 then d.cmdEnd 0 0 []
    else
      let new := (d.log.errs.take (d.log.errs.length - before)).filter (fun e => decide (e.1 = Pg.evs h))
      d.cmdEnd 1 (((leastErr (new.map Prod.snd)).map Prod.snd).getD 0) [])

/-- FLUSH: the named halves are flushed; it ends when FLUSH_PEND has cleared in each. -/
def Dev.flushCmd (d : Dev) : Dev :=
  d.ifCmd .flush (fun c =>
    let hs := setBits (c.at 8 1) 2
    if c.phase = 0 then (hs.foldl (fun (d : Dev) h => d.cqFlush h) d).cmdWait c 1 0
    else if hs.any (fun h => d.flag (Pg.cq h) F.CQ_STAT_FLUSH_PEND) then d.cmdWait c 1 1
    else d.cmdEnd 0 0 [])

/-- SEEK: by the index unit of the half; the result, its offset and its CK. -/
def Dev.seekCmd (d : Dev) : Dev :=
  d.ifCmd .seek (fun c =>
    let h := c.at 10 1
    let pg := Pg.idx h
    if c.phase = 0 then
      (if d.flag pg F.IDX_STAT_SEEK_BUSY then (d.err pg 2 0x0A13).cmdEnd 1 0x0A13 []
       else ((d.setReg64 pg 0x108 (c.at 16 8)).seekGo h (BitVec.ofNat 32 (2 ^ 31 + 4096 * h + c.at 8 2))).cmdWait c 1 1)
    else if d.flag pg F.IDX_STAT_SEEK_BUSY then d.cmdWait c 1 1
    else d.cmdEnd 0 0 (leBytes 4 (d.fld pg F.IDX_SEEK_STAT_RESULT)
      ++ leBytes 8 (d.fld pg F.IDX_SEEK_RES_LO + 2 ^ 32 * d.fld pg F.IDX_SEEK_RES_HI_OFF) ++ leBytes 4 (d.fld pg F.IDX_SEEK_STAT_CK)))

/-- NOP. -/
def Dev.nopCmd (d : Dev) : Dev := d.ifCmd .nopCmd (fun _ => d.cmdEnd 0 0 [])

/-- FIRMWARE_COMMAND: the entry stands in FW_CMD, source 3 at the steward's cores, the timeout runs (R405). -/
def Dev.firmwareCmd (d : Dev) : Dev :=
  d.ifCmd .firmwareCommand (fun c =>
    let d := (d.setWindow Pg.hostif 0x180 16 (BitVec.ofNat 512 (leNat c.bytes))).setFld Pg.hostif F.HOSTIF_STAT_FW_PEND 1
    let us := d.fld Pg.hostif F.HOSTIF_CMD_TIMEOUT_US
    (if us = 0 then d else d.sched (1000 * us) .firmwareTimeout).fwSource)

/-- Does a firmware command wait? -/
def Dev.fwWaits (d : Dev) : Bool := d.flag Pg.hostif F.HOSTIF_STAT_FW_PEND && d.hcmd.isSome

/-- The firmware command has ended. -/
def Dev.fwEnd (d : Dev) (status code : Nat) (payload : List Byte) : Dev :=
  let d : Dev := { d with agenda := agendaDrop .firmwareTimeout d.agenda }
  ((d.setFld Pg.hostif F.HOSTIF_STAT_FW_PEND 0).fwSource).cmdEnd status code payload

/-- FW_DONE: refused under R8 when no firmware command waits, or with a STATUS that is neither 0 nor 4. -/
def Dev.fwDone (d : Dev) (val : Word) : Dev :=
  let v := val.toNat
  let st := v % 8
  let ok := d.fwWaits ∧ (st = 0 ∨ st = 4)
  let d := if bitsOf v 3 13 ≠ 0 then d.regErr Pg.hostif 1 else if ok then d else d.regErr Pg.hostif 4
  if ok then
    d.fwEnd st (if st = 4 then v / 2 ^ 16 else 0) (((List.range 10).map (fun j => leBytes 4 (d.fld Pg.hostif (F.HOSTIF_FW_RES j)))).flatten)
  else d

/-- FIRMWARE_TIMEOUT. -/
def Dev.firmwareTimeout (d : Dev) : Dev := if d.fwWaits then (d.err Pg.hostif 4 0x1425).fwEnd 3 0 [] else d

/-- The 64 bytes of FW_EVT0 to FW_EVT15, in order. -/
def Dev.fwEvt (d : Dev) : List Byte := ((List.range 16).map (fun j => leBytes 4 (d.fld Pg.hostif (F.HOSTIF_FW_EVT j)))).flatten

/-- FW_EVT_GO: the event that FW_EVT0 to FW_EVT15 spell; a TYPE below 0x80 is refused. -/
def Dev.fwEvtGo (d : Dev) : Dev :=
  let l := d.fwEvt
  if (byteAt l 8).toNat < 0x80 then d.regErr Pg.hostif 4
  else d.genEvent 0 (byteAt l 8).toNat (byteAt l 9).toNat (leNat ((l.drop 12).take 4)) (l.drop 24)

/-! Settings of the rings (R407). -/

/-- RING_RESET. -/
def Dev.ringReset (d : Dev) : Dev :=
  let d := (((d.setFld Pg.hostif F.HOSTIF_CMD_HEAD_IDX 0).setFld Pg.hostif F.HOSTIF_CMD_TAIL_IDX 0).setFld Pg.hostif
    F.HOSTIF_EVT_TAIL_IDX 0).setFld Pg.hostif F.HOSTIF_STAT_CMD_HALTED 0
  ({ d with evtPhase := true, fetching := false, agenda := agendaDrop (.cmdFetch none) d.agenda } : Dev).cmdKick

/-- A write to HOSTIF_CTRL: CMD_EN from 0 to 1 ends a halt. -/
def Dev.hostCtrlWrite (d : Dev) (val : Word) : Dev :=
  let v := val.toNat
  let d := if v / 8 ≠ 0 then d.regErr Pg.hostif 1 else d
  let rise := bit v 0 && !d.flag Pg.hostif F.HOSTIF_CTRL_CMD_EN
  let d := d.setReg Pg.hostif 0x008 (BitVec.ofNat 32 (v % 4))
  let d := if bit v 2 then d.ringReset else d
  let d := if rise then d.setFld Pg.hostif F.HOSTIF_STAT_CMD_HALTED 0 else d
  d.cmdKick.evtKick

/-- A write to an index of a ring: one at or above the ring's size is refused. -/
def Dev.ringIndex (d : Dev) (off : Nat) (log2 : Fld) (val : Word) : Dev :=
  let v := val.toNat
  let d := if v / 2 ^ 16 ≠ 0 then d.regErr Pg.hostif 1 else d
  if 2 ^ d.fld Pg.hostif log2 ≤ v % 2 ^ 16 then d.ringRefused else d.setReg Pg.hostif off (BitVec.ofNat 32 (v % 2 ^ 16))

/-- CMD_TAIL_WRITE: the doorbell. -/
def Dev.cmdTailWrite (d : Dev) (val : Word) : Dev :=
  ({ d.ringIndex 0x10C F.HOSTIF_CMD_CFG_LOG2 val with cmdBell := d.nextNoc } : Dev).cmdKick

/-- A write to EVT_HEAD: waiting events may find room. -/
def Dev.evtHeadWrite (d : Dev) (val : Word) : Dev := (d.ringIndex 0x12C F.HOSTIF_EVT_CFG_LOG2 val).evtKick

/-- A write to a BASE or CFG register: refused while a ring is enabled; LOG2 is 4 to 15. -/
def Dev.ringSetting (d : Dev) (off : Nat) (val : Word) : Dev :=
  if d.flag Pg.hostif F.HOSTIF_CTRL_CMD_EN ∨ d.flag Pg.hostif F.HOSTIF_CTRL_EVT_EN then d.ringRefused
  else d.plainWrite Pg.hostif 0 (rowOf .hostif off) off val (if (off = 0x108 ∨ off = 0x128) ∧ val.toNat % 16 < 4 then 0xF else 0)

/-! The commands. -/

/-- CMD_TAIL_WRITE (R403). -/
def execCmdTailWrite (val : Word) (s : State) : Host.Outcome State Fault Refusal :=
  s.cmd (fun d => d.cmdTailWrite val)

/-- CMD_FETCH (R403). -/
def execCmdFetch (entry : Option (List Byte)) (s : State) : Host.Outcome State Fault Refusal :=
  s.run (.cmdFetch entry) (fun d => d.cmdFetch entry)

/-- MODE (R404). -/
def execMode (s : State) : Host.Outcome State Fault Refusal :=
  s.run .mode (fun d => d.modeCmd)

/-- SCHED (R404). -/
def execSched (s : State) : Host.Outcome State Fault Refusal :=
  s.run .sched (fun d => d.schedCmd)

/-- FLUSH (R404). -/
def execFlush (s : State) : Host.Outcome State Fault Refusal :=
  s.run .flush (fun d => d.flushCmd)

/-- SEEK (R404). -/
def execSeek (s : State) : Host.Outcome State Fault Refusal :=
  s.run .seek (fun d => d.seekCmd)

/-- NOP (R404). -/
def execNopCmd (s : State) : Host.Outcome State Fault Refusal :=
  s.run .nopCmd (fun d => d.nopCmd)

/-- FIRMWARE_COMMAND (R405). -/
def execFirmwareCommand (s : State) : Host.Outcome State Fault Refusal :=
  s.run .firmwareCommand (fun d => d.firmwareCmd)

/-- FW_DONE (R405). -/
def execFwDone (val : Word) (s : State) : Host.Outcome State Fault Refusal :=
  s.cmd (fun d => d.fwDone val)

/-- FIRMWARE_TIMEOUT (R405). -/
def execFirmwareTimeout (s : State) : Host.Outcome State Fault Refusal :=
  s.run .firmwareTimeout (fun d => d.firmwareTimeout)

/-- FW_EVT_GO (R406). -/
def execFwEvtGo (s : State) : Host.Outcome State Fault Refusal :=
  s.cmd (fun d => d.fwEvtGo)

/-- RING_RESET (R407). -/
def execRingReset (s : State) : Host.Outcome State Fault Refusal :=
  s.cmd (fun d => d.ringReset)

end Sys2Proof.Machine
end

