-- ==== Sys2Proof/Machine/Load.lean ====
section
/-! DEFINITION. Configuration streams: ports, header, blocks, commands and frames, fuses (R333 to R352, R359, R360). What a REG
pair writes and the startup release stand in CfgExec.lean. -/

namespace Sys2Proof.Machine

open Sys2Proof.Config

/-! Failures (R349, R362). -/

/-- A configuration failure: FAULTED, and the wipe where Table 17-6 says Wiped. -/
def Dev.loadFail (d : Dev) (idx code : Nat) (wiped : Bool) : Dev :=
  let d := (((d.cfgCount idx code).cfgStop).unrelease).putMode [0, 1] Mode.faulted.code
  let d := d.onCfg (fun x => { x with failCk := d.ck + 1 })
  if wiped then d.wipe else d

/-- A condition of Table 17-6 met by the stream at hand. -/
def Dev.streamFail (d : Dev) (idx code : Nat) (wiped : Bool) : Dev :=
  if d.mode = Mode.loading.code then d.loadFail idx code wiped else d.bayLoadFail idx code

/-- Malformed content (R337 to R341, R360). -/
def Dev.malformed (d : Dev) : Dev := d.streamFail 4 0x1106 true

/-! The timeout (R349): bytes remain, intake is not paced. -/

def Dev.bytesRemain (d : Dev) : Bool :=
  if d.cfg.hdr = [] then d.mode = Mode.loading.code || !(d.cfg.bytes = []) else decide (d.cfg.block < d.blockCount)

/-- The timeout starts again at a byte. -/
def Dev.cfgTimer (d : Dev) : Dev :=
  let d : Dev := { d with agenda := agendaDrop .cfgTimeoutExpiry d.agenda }
  let us := d.fld Pg.cfg F.CFG_TIMEOUT
  if us = 0 ∨ ¬ d.bytesRemain ∨ d.cfgPaced then d else d.sched (1000 * us) .cfgTimeoutExpiry

/-- It starts again when intake goes on. -/
def Dev.cfgResume (d : Dev) : Dev := if d.awaits .cfgTimeoutExpiry then d else d.cfgTimer

/-- CFG_TIMEOUT_EXPIRY. -/
def Dev.cfgTimeoutExpiry (d : Dev) : Dev :=
  if d.bytesRemain ∧ ¬ d.cfgPaced then d.streamFail 3 0x1105 true else d

/-! Execution (R336, R337). -/

/-- When the next unit of a command is executed whole: what remains of verified blocks, oldest first; the bytes still needed; how many
blocks are used up before it, and what they give it. The last CK of a block comes with it. -/
def nextUnit (need : Nat) : List CfgBlock → Option (Nat × Nat × List Byte)
  | [] => none
  | b :: rest =>
    match b.start with
    | none => none
    | some t =>
      let left := b.bytes.length - b.pos
      if need ≤ left then some (t + (b.pos + need - 1) / 32, 0, (b.bytes.drop b.pos).take need)
      else match nextUnit (need - left) rest with
        | some (ck, n, l) => some (ck, n + 1, b.bytes.drop b.pos ++ l)
        | none => none

/-- Bytes of the next unit: a frame, else a pair or a command's first word. -/
def Dev.unitLen (d : Dev) : Nat :=
  match d.cfg.cmd with
  | some (1, _, _, _) => 256
  | _ => 8

/-- Take a unit that is there: its bytes. -/
def Dev.takeUnit (d : Dev) : Dev × List Byte :=
  match nextUnit d.unitLen d.cfg.blocks with
  | none => (d, [])
  | some (_, n, l) =>
    let rest := d.cfg.blocks.drop n
    let used := l.length - ((d.cfg.blocks.take n).map (fun (b : CfgBlock) => b.bytes.length - b.pos)).foldl (· + ·) 0
    let rest : List CfgBlock := match rest with
      | b :: r => { b with pos := b.pos + used } :: r
      | [] => []
    (d.onCfg (fun x => { x with blocks := rest }), l)

/-- The event that executes a unit, by its command or by the OP of a first word. -/
def Dev.unitEvent (d : Dev) (l : List Byte) : Instr :=
  match (match d.cfg.cmd with | some (op, _, _, _) => op | none => (byteAt l 0).toNat) with
  | 1 => .frame
  | 2 => .regCmd
  | 3 => .endCmd
  | _ => .pad

/-- CK in which the last byte of a block is executed. -/
def CfgBlock.last (b : CfgBlock) : Nat := b.start.getD 0 + (b.bytes.length - 1) / 32

/-- Put the next unit on the agenda for the CK of its last byte. The last block without END fails in the CK of its last byte. -/
def Dev.cfgNext (d : Dev) : Dev :=
  if (d.cfg.cmd.map Prod.fst) = some 3 ∨ d.cfg.hdr = [] then d
  else match nextUnit d.unitLen d.cfg.blocks with
    | some (ck, _, l) => d.schedOnce (ck - d.ck) (d.unitEvent l)
    | none =>
      match d.cfg.blocks.getLast? with
      | some b => if b.idx + 1 = d.blockCount ∧ b.start.isSome then d.schedOnce (b.last - d.ck) .endCmd else d
      | none => d

/-- Blocks that may begin, begin: each in the CK after its verification or after the block before it (R336); those of a bay stream
once the bay is CLOSED or LOADING (R360). -/
def Dev.cfgBegin (d : Dev) : Dev :=
  let go : Bool := match d.armedBay with
    | some b => decide (d.rcfg b = Rc.closed) || decide (d.rcfg b = Rc.loading)
    | none => false
  if d.mode ≠ Mode.loading.code ∧ ¬ go then d
  else
    let (bs, e) := d.cfg.blocks.foldl (fun (p : List CfgBlock × Nat) b =>
      match b.start with
      | some _ => (p.1 ++ [b], p.2)
      | none =>
        let t := max (d.ck + 1) p.2
        (p.1 ++ [{ b with start := some t }], t + (b.bytes.length + 31) / 32)) ([], d.cfg.execCk)
    (d.onCfg (fun x => { x with blocks := bs, execCk := e })).cfgNext

/-- In the CK of the first executed unit of a bay stream the bay becomes LOADING; block memories that are not kept read zero (R360). -/
def Dev.bayExecutes (d : Dev) : Dev :=
  match d.armedBay with
  | some b =>
    if d.mode = Mode.loading.code ∨ d.rcfg b ≠ Rc.closed then d
    else
      let d := d.setRcfg b Rc.loading
      if d.flag (Pg.bay b) F.BAY_RCFG_CTRL_BM_KEEP then d else d.onFab (fun x => { x with bm36 := dropBay x.bm36 b 25920 })
  | none => d

/-- A unit of this event is next: its bytes taken. -/
def Dev.ifUnit (d : Dev) (ev : Instr) (f : Dev → List Byte → Dev) : Dev :=
  match nextUnit d.unitLen d.cfg.blocks with
  | none => d
  | some (_, _, l) =>
    if d.cfg.hdr = [] ∨ (d.cfg.cmd.map Prod.fst) = some 3 ∨ d.unitEvent l ≠ ev then d
    else
      let (d, l) := d.bayExecutes.takeUnit
      f d l

/-- A command's first word: OP, CLASS, COUNT, ADDR. -/
def cmdWord (l : List Byte) : Nat × Nat × Nat × Nat :=
  ((byteAt l 0).toNat, (byteAt l 1).toNat, leNat ((l.drop 2).take 2), leNat ((l.drop 4).take 4))

/-- PAD: nothing; an OP that names no command is malformed. -/
def Dev.padUnit (d : Dev) : Dev :=
  d.ifUnit .pad (fun d l => if cmdWord l = (0, 0, 0, 0) then d.cfgNext.cfgResume else d.malformed)

/-! Frames (R338 to R340, R342, R357, R378). -/

/-- Does the range of COUNT frames from ADDR lie within its class's range (Table 17-3)? -/
def frameRange (cls count addr : Nat) : Bool :=
  match cls with
  | 0 => decide (addr + count ≤ 645120)
  | 1 => decide (addr + count ≤ 311040)
  | 2 => decide (addr + count ≤ 24576)
  | 3 => decide (addr / 65536 < 2) && decide (addr % 65536 + count ≤ 33)
  | 4 => decide (addr + count ≤ 192)
  | _ => false

/-- A bay stream may hold a frame of the armed bay alone, none of the NOC, none of its engines while they are retained (R360). -/
def Dev.bayFrameOk (d : Dev) (cls addr : Nat) : Bool :=
  match d.armedBay with
  | none => false
  | some b =>
    match cls with
    | 0 => addr / 53760 = b
    | 1 => addr / 25920 = b
    | 2 => addr / 2048 = b && !d.engRetain b
    | 4 => addr / 16 = b
    | _ => false

/-- The static Sill drivers of a CLUSTER frame: horizontal 0 to 7, then vertical 0 to 3 (Table 17-4). -/
def staticSills (f : BitVec 2048) : List Nat := (List.range 12).filter (fun k => bitsOf f.toNat (2021 + 2 * k) 2 = 1)

/-- Is a CLUSTER frame rejected (R340)? A clock source is of the selects, of which 0 connects nothing. -/
def Dev.clusterBad (d : Dev) (a : Nat) (f : BitVec 2048) : Bool :=
  let v := f.toNat
  let col (x : Nat) : Nat := x % 53760 / 960
  let row (x : Nat) : Nat := x % 960
  let carry := (List.range 16).any (fun i => bit v (1024 + 8 * i + 5) && !bit v (1024 + 8 * i))
  let sill := (List.range 12).any (fun k => bitsOf v (2021 + 2 * k) 2 = 3)
  let mine := staticSills f
  let second := !(mine = []) && d.fab.clusters.any (fun (e : Nat × BitVec 2048) =>
    e.1 / 53760 = a / 53760 && e.1 ≠ a && (staticSills e.2).any (fun k =>
      mine.contains k && (if k < 8 then decide (row e.1 = row a) else decide (col e.1 = col a))))
  let sel := bitsOf v 1152 864
  let clock := decide (sel ≠ 0) && (Config.portClocks a (BitVec.ofNat 864 sel)).any Option.isNone
  carry || (bit v 2020 && decide (row a = 0)) || sill || decide (bitsOf v 2045 3 ≠ 0) || second || clock

/-- Is a BORDER frame malformed (R357)? -/
def borderBad (i : Nat) (f : BitVec 2048) : Bool :=
  let v := f.toNat
  (List.range 1024).any (fun n => bitsOf v (2 * n) 2 = 1)
    || (decide (i = 12) && decide (v / 2 ^ 512 ≠ 0)) || (decide (12 < i) && decide (v ≠ 0))

/-- Write a NOC frame: the links, or a router's table, in a half whose topology it makes FITTED (R378). -/
def Dev.nocFrame (d : Dev) (a : Nat) (l : List Byte) : Dev :=
  let h := a / 65536
  let i := a % 65536
  let d := d.setFld (Pg.noc h) F.NOC_STAT_TOPO 1
  if i = 0 then
    d.setNoc h { d.nocOf h with links := (List.range 256).foldl (fun (m : SMap Byte) k => sset 0#8 m k (byteAt l k)) (d.nocOf h).links }
  else
    d.setNoc h { d.nocOf h with active := (List.range 64).foldl (fun (m : SMap (BitVec 16)) k =>
      sset 0#16 m (64 * (i - 1) + k) (BitVec.ofNat 16 (leNat ((l.drop (2 * k)).take 2)))) (d.nocOf h).active }

/-- Write a frame, or reject it. -/
def Dev.writeFrame (d : Dev) (cls a : Nat) (l : List Byte) : Dev :=
  let f : BitVec 2048 := BitVec.ofNat 2048 (leNat l)
  let d' : Option Dev :=
    if d.mode ≠ Mode.loading.code ∧ ¬ d.bayFrameOk cls a then none
    else match cls with
      | 0 => if d.clusterBad a f then none else some (d.onFab (fun x => { x with
          clusters := sset 0#2048 x.clusters a f, sigs := sset 0#32 x.sigs a (signature f) }))
      | 1 => some (d.onFab (fun x => { x with bm36 := sset 0#2048 x.bm36 a f }))
      | 2 => some { d with imem := (List.range 64).foldl (fun (m : SMap Word) j =>
          sset 0#32 m (8192 * (a / 128) + 64 * (a % 128) + j) (BitVec.ofNat 32 (leNat ((l.drop (4 * j)).take 4)))) d.imem }
      | 3 => some (d.nocFrame a l)
      | 4 => if borderBad (a % 16) f then none else some (d.onFab (fun x => { x with borders := sset 0#2048 x.borders a f }))
      | _ => none
  match d' with
  | none => d.malformed
  | some d => (d.setReg Pg.cfg 0x114 (d.reg Pg.cfg 0x114 + 1#32)).cfgNext.cfgResume

/-- FRAME: its first word, or the next of its frames. -/
def Dev.frameUnit (d : Dev) : Dev :=
  d.ifUnit .frame (fun d l =>
    match d.cfg.cmd with
    | some (op, cls, n, a) =>
      (d.onCfg (fun x => { x with cmd := if n ≤ 1 then none else some (op, cls, n - 1, a + 1) })).writeFrame cls a l
    | none =>
      let (op, cls, n, a) := cmdWord l
      if n = 0 ∨ ¬ frameRange cls n a then d.malformed
      else (d.onCfg (fun x => { x with cmd := some (op, cls, n, a) })).cfgNext.cfgResume)

/-! The end of the stream (R331, R337, R361). -/

/-- Enabled channels have ended their training. -/
def Dev.trainingOver (d : Dev) : Bool :=
  (List.range 16).all (fun c => !d.flag (Pg.drc c) F.DRC_CTRL_EN || !(d.chanState c = Ch.off || d.chanState c = Ch.training))

/-- The startup release comes 16 CK after the last frame is verified and training has ended (R331). -/
def Dev.releaseCheck (d : Dev) : Dev :=
  if d.mode = Mode.loading.code ∧ d.cfg.done ∧ ¬ d.started ∧ d.trainingOver then d.schedOnce 16 (.startupRelease 0 0) else d

/-- The END block has been executed: the last frame counts as verified; a bay stream's bay is released. -/
def Dev.endOfStream (d : Dev) : Dev :=
  if d.mode = Mode.loading.code then (d.onCfg (fun x => { x with done := true })).releaseCheck
  else
    let armed := d.armedBay
    let d := d.cfgStop
    match armed with
    | some b => d.releaseBay b
    | none => d

/-- END: its word; then the end of its block. A last block without END fails in the CK of its last byte. -/
def Dev.endUnit (d : Dev) : Dev :=
  if d.cfg.done then d.releaseCheck
  else if (d.cfg.cmd.map Prod.fst) = some 3 then
    (if d.cfg.blocks.all (fun (b : CfgBlock) => decide (b.last ≤ d.ck)) then d.endOfStream else d)
  else match nextUnit d.unitLen d.cfg.blocks with
    | none =>
      match d.cfg.blocks.getLast? with
      | some b => if d.cfg.hdr ≠ [] ∧ b.idx + 1 = d.blockCount ∧ b.start.isSome ∧ b.last ≤ d.ck then d.bayExecutes.streamFail 2 0x1104 true else d
      | none => d
    | some _ =>
      d.ifUnit .endCmd (fun d l =>
        match d.cfg.blocks with
        | [] => d
        | b :: _ =>
          if cmdWord l ≠ (3, 0, 0, 0) ∨ (b.bytes.drop b.pos).any (fun x => decide (x ≠ 0#8)) then d.malformed
          else if b.idx + 1 ≠ d.blockCount ∨ d.fld Pg.cfg F.CFG_FRAMES ≠ leNat ((d.cfg.hdr.drop 12).take 4) then d.streamFail 2 0x1104 true
          else (d.onCfg (fun x => { x with cmd := some (3, 0, 0, 0) })).schedOnce (b.last - d.ck) .endCmd)

/-! Blocks (R335, R336). -/

/-- AES-256-GCM of a block: nonce IV with its last word XORed with the index, header as additional data; the plaintext if the tag
holds. -/
def gcmOpen (key : BitVec 256) (iv aad : List Byte) (i : Nat) (wire : List Byte) : Option (List Byte) :=
  let ct := wire.take 4096
  let nonce := iv.take 8 ++ xorBytes (iv.drop 8) (leBytes 4 i)
  let enc (n : Nat) : List Byte := leBytes 16 (aes256 key (BitVec.ofNat 128 (leNat (nonce ++ (leBytes 4 n).reverse)))).toNat
  let hkey := beBlock (leBytes 16 (aes256 key 0#128).toNat)
  let len (l : List Byte) : List Byte := (leBytes 8 (8 * l.length)).reverse
  let all := aad ++ ct ++ len aad ++ len ct
  let s := (List.range (all.length / 16)).foldl (fun (y : BitVec 128) n => ghashMul (y ^^^ beBlock ((all.drop (16 * n)).take 16)) hkey) 0#128
  if s ^^^ beBlock (enc 1) = beBlock (wire.drop 4096) then
    some (((List.range 256).map (fun u => xorBytes ((ct.drop (16 * u)).take 16) (enc (u + 2)))).flatten)
  else none

/-- A block's tag verifies, or fails; a roll block gives the next key. -/
def Dev.verifyBlock (d : Dev) (i : Nat) (wire : List Byte) : Dev :=
  let iv := (d.cfg.hdr.drop 20).take 12
  match gcmOpen d.cfg.key iv d.cfg.hdr i wire with
  | none => d.streamFail 1 0x1103 true
  | some pt =>
    let roll := i % 64 = 63 ∧ i + 1 ≠ d.blockCount
    let key := if roll then unwrapKey d.cfg.key ((pt.drop 4048).take 40) else some d.cfg.key
    match key with
    | none => d.streamFail 1 0x1103 true
    | some k =>
      let b : CfgBlock := { idx := i, start := none, bytes := if roll then pt.take 4048 else pt }
      let d := d.onCfg (fun x => { x with key := k, blocks := x.blocks.filter (fun (b : CfgBlock) => decide (b.pos < b.bytes.length)) ++ [b] })
      (d.setReg Pg.cfg 0x118 (d.reg Pg.cfg 0x118 + 1#32)).cfgBegin

/-- Bytes that HOST_LEN still allows from an offset of the stream on (R348); the other ports have no such bound. -/
def Dev.hostBytes (d : Dev) (off : Nat) (l : List Byte) : List Byte :=
  if d.cfg.port = 3 then l.take (d.fld Pg.cfg F.CFG_HOST_LEN - off) else l

/-- A PCIe port asks for the stream's next bytes (R348). -/
def Dev.hostAsk (d : Dev) (off n : Nat) : Dev :=
  if d.cfg.port = 3 then d.emit (.hostRead (d.reg64 Pg.cfg 0x108 + off) n) else d

/-- BLOCK_VERIFY: on the bus, of the block taken 24 CK ago; on the other ports, of the bytes the port has taken, which end the stream
early where they are too few (R336, R348). -/
def Dev.blockVerify (d : Dev) (bytes : List Byte) : Dev :=
  match d.cfg.taken with
  | (i, wire) :: rest => (d.onCfg (fun x => { x with taken := rest })).verifyBlock i wire
  | [] =>
    let i := d.cfg.block
    if d.cfg.port = 2 ∨ d.cfg.hdr = [] ∨ d.blockCount ≤ i then d
    else
      let wire := d.hostBytes (64 + 4112 * i) (bytes.take 4112)
      if wire.length < 4112 then d.streamFail 2 0x1104 true
      else
        let d := (d.onCfg (fun x => { x with block := i + 1 })).verifyBlock i wire
        if d.cfg.hdr = [] then d
        else
          let d := if d.cfg.block < d.blockCount then d.hostAsk (64 + 4112 * d.cfg.block) 4112 else d
          d.cfgTimer

/-! The header (R334, R344, R360). -/

/-- Is the key slot usable for configuration (R351)? -/
def Dev.slotCfg (d : Dev) (s : Nat) : Bool :=
  d.fuses.prog.contains s && d.fuses.useCfg.contains s && !d.fuses.revoked.contains s

/-- The codes a header meets. -/
def Dev.headerCodes (d : Dev) (l : List Byte) : List Nat :=
  let b (i : Nat) : Nat := (byteAt l i).toNat
  let other := decide (leNat (l.take 4) ≠ 0x4C56524F) || decide (leNat ((l.drop 4).take 2) ≠ 0x4F52)
    || decide (leNat ((l.drop 6).take 2) ≠ 0xC192) || (decide (b 8 % 16 ≠ 1) && decide (b 8 % 16 ≠ 15))
  let reserved := decide (b 8 / 16 ≠ 0) || decide (b 10 / 16 ≠ 0) || decide (b 11 / 4 ≠ 0) || (l.drop 48).any (fun x => decide (x ≠ 0#8))
  let full := d.mode = Mode.loading.code
  let place : Bool := match d.armedBay with
    | some k => decide (d.rcfg k = Rc.closing) || decide (d.rcfg k = Rc.closed)
    | none => false
  let unusable := decide (b 9 ≠ 1) || reserved || !d.slotCfg (b 10 % 16) || decide (leNat ((l.drop 12).take 4) = 0)
    || decide (leNat ((l.drop 16).take 4) = 0) || (bit (b 11) 1 && decide full) || (!bit (b 11) 1 && !decide full)
    || (bit (b 11) 1 && !decide full && !place)
  (if other then [0x1101] else []) ++ (if unusable then [0x1102] else [])

/-- The 64th byte of a header: it is checked, and accepted or rejected. -/
def Dev.headerCheck (d : Dev) (l : List Byte) : Dev :=
  let d := d.onCfg (fun x => { x with bytes := [] })
  match d.headerCodes l with
  | c :: _ =>
    if d.mode = Mode.loading.code then d.loadFail 0 c false
    else if bit (byteAt l 11).toNat 1 then d.bayLoadFail 0 c
    else
      let d := (d.cfgCount 0 c).cfgStop
      d.onCfg (fun x => { x with discard := 4112 * leNat ((l.drop 16).take 4) })
  | [] =>
    let hdr := (byteAt l 10).toNat % 16 + 16 * (byteAt l 9).toNat + 4096 * ((byteAt l 11).toNat % 4)
    let d := (((d.setReg Pg.cfg 0x120 (BitVec.ofNat 32 hdr)).setWindow Pg.cfg 0x124 4 (BitVec.ofNat 128 (leNat ((l.drop 32).take 16)))).setReg
      Pg.cfg 0x114 0#32).setReg Pg.cfg 0x118 0#32
    let d := (d.onCfg (fun x => { x with hdr := l, block := 0, execCk := d.ck, key := d.slotKey ((byteAt l 10).toNat % 16) })).setFld
      Pg.cfg F.CFG_STAT_PORT (if d.mode = Mode.loading.code then d.cfg.port else 2)
    (d.onCfg (fun x => { x with port := if d.mode = Mode.loading.code then x.port else 2 })).hostAsk 64 4112

/-- Bytes arrive on the port that serves: header bytes up to the 64th, block bytes up to the tag's last. -/
def Dev.takeBytes (d : Dev) (l : List Byte) : Dev :=
  let all := d.cfg.bytes ++ l
  if d.cfg.hdr = [] then
    (if 64 ≤ all.length then (d.headerCheck (all.take 64)).cfgTimer else (d.onCfg (fun x => { x with bytes := all })).cfgTimer)
  else if d.blockCount ≤ d.cfg.block then d
  else if 4112 ≤ all.length then
    ((d.onCfg (fun x => { x with bytes := [], block := x.block + 1, taken := x.taken ++ [(x.block, all.take 4112)] })).sched 24
      (.blockVerify [])).cfgTimer
  else (d.onCfg (fun x => { x with bytes := all })).cfgTimer

/-! Ports (R343 to R348). -/

/-- The first header byte of a load: LOADING. -/
def Dev.loadBegins (d : Dev) (port : Nat) : Dev :=
  let d := (d.setFld Pg.cfg F.CFG_STAT_PORT port).putMode [0, 1] Mode.loading.code
  let d := ((d.setReg Pg.cfg 0x114 0#32).setReg Pg.cfg 0x118 0#32)
  { d with cfg := { wrote := d.cfg.wrote, fuse := d.cfg.fuse, port := port }, modeTarget := none,
           agenda := agendaDrop .modeTransitionDone d.agenda }

/-- May a load begin? -/
def Dev.mayLoad (d : Dev) : Bool := (d.mode = Mode.blank.code || d.mode = Mode.faulted.code) && !d.flag Pg.cfg F.CFG_STAT_WIPING

/-- CFG_BUS_WORD: a word is taken, ignored, or held by CFG_WAIT (R343, R344, R346). -/
def Dev.cfgBusWord (d : Dev) (w : Word) : Dev :=
  let l := leBytes 4 w.toNat
  if d.flag Pg.cfg F.CFG_STAT_WIPING ∨ d.cfgPaced then d
  else if d.mode = Mode.loading.code then (if d.cfg.port = 2 then d.takeBytes l else d.err Pg.cfg 6 0x1108)
  else if d.mayLoad then (d.loadBegins 2).takeBytes l
  else if 0 < d.cfg.discard then d.onCfg (fun x => { x with discard := x.discard - 4 })
  else d.takeBytes l

/-- LOAD_START: the first bytes of a header on a port; the ports that the device drives serve only on their GO. -/
def Dev.loadStart (d : Dev) (port : Nat) (bytes : List Byte) : Dev :=
  if port = 2 then d.cfgBusWord (BitVec.ofNat 32 (leNat (bytes.take 4)))
  else if ¬ d.mayLoad ∨ d.cfg.port ≠ port ∨ port = 0 then d
  else
    let l := d.hostBytes 0 (bytes.take 64)
    (d.loadBegins port).takeBytes l

/-- STREAM_HEADER: the bytes up to the 64th; a port that ends before it ends the stream early (R348). -/
def Dev.streamHeader (d : Dev) (bytes : List Byte) : Dev :=
  if d.cfg.hdr ≠ [] ∨ (d.mode ≠ Mode.loading.code ∧ d.cfg.bytes = []) then d
  else
    let l := d.hostBytes d.cfg.bytes.length (bytes.take (64 - d.cfg.bytes.length))
    if d.cfg.port = 2 ∨ 64 ≤ d.cfg.bytes.length + l.length then d.takeBytes l
    else d.streamFail 2 0x1104 true

/-- CFG_ERR_SEEN (R347): in LOADING; a second failure of the CK counts (R349). -/
def Dev.cfgErrSeen (d : Dev) : Dev :=
  if d.mode = Mode.loading.code then d.loadFail 5 0x1107 true
  else if d.mode = Mode.faulted.code ∧ d.cfg.failCk = d.ck + 1 then d.err Pg.cfg 5 0x1107
  else d

def Dev.cfgRefused (d : Dev) : Dev := d.err Pg.cfg 6 0x1108

/-- OSPI_GO and HOST_GO. -/
def Dev.portGo (d : Dev) (port : Nat) (ok : Bool) : Dev :=
  if ¬ d.mayLoad ∨ d.cfg.port ≠ 0 ∨ ¬ ok then d.cfgRefused
  else (d.onCfg (fun x => { x with port := port })).hostAsk 0 (min 64 (d.fld Pg.cfg F.CFG_HOST_LEN))

def Dev.ospiGo (d : Dev) : Dev := d.portGo 1 true
def Dev.hostGo (d : Dev) : Dev := d.portGo 3 (decide (d.fld Pg.cfg F.CFG_HOST_LEN ≠ 0))

/-- ABORT: fails a load or a bay stream, ends a discard (R344, Table 17-6, R354). -/
def Dev.cfgAbort (d : Dev) : Dev :=
  if d.mode = Mode.loading.code then d.loadFail 5 0x1107 true
  else if 0 < d.cfg.discard then d.onCfg (fun x => { x with discard := 0 })
  else if d.cfg.hdr ≠ [] then d.bayLoadFail 5 0x1107
  else d.cfgRefused

/-! Bay streams (R359, R360). -/

/-- BAY_CLOSED: looked for in every CK until the engines have stopped and the scrubber is off the bay. -/
def Dev.bayClosed (d : Dev) (b : Fin 12) : Dev :=
  if d.rcfg b.val ≠ Rc.closing then d
  else if d.ck < (d.bayOf b.val).armCk + 2 ∨ ¬ (d.engsStopped b.val ∨ d.engRetain b.val) ∨ d.scrubOn b.val then d.schedOnce 1 (.bayClosed b)
  else (d.setRcfg b.val Rc.closed).cfgBegin

/-! Fuses (R351, R352). -/

/-- Clear FUSE_DATA. -/
def Dev.clearFuseData (d : Dev) : Dev := (List.range 8).foldl (fun (d : Dev) j => d.setReg Pg.cfg (0x144 + 4 * j) 0#32) d

def Dev.fuseSlot (d : Dev) : Nat := d.fld Pg.cfg F.CFG_FUSE_SEL_SLOT

/-- A fuse command: refused, or busy for at most 20 ms. -/
def Dev.fuseCommand (d : Dev) (op : Nat) : Dev :=
  let key := d.window 256 Pg.cfg 0x144 8
  let bad := d.mode ≠ Mode.blank.code ∨ d.fuses.lock ∨ d.cfg.fuse.isSome ∨ (op = 1 ∧ d.fuses.prog.contains d.fuseSlot)
  let d := d.clearFuseData
  if bad then (d.setFld Pg.cfg F.CFG_FUSE_CMD_STATUS 2).cfgRefused
  else
    ((d.onCfg (fun x => { x with fuse := some (op, d.fuseSlot, bitsOf (d.reg Pg.cfg 0x140).toNat 4 2, key) })).setFld
      Pg.cfg F.CFG_FUSE_CMD_STATUS 1).sched 20000000 (.fuseCmdDone true)

def Dev.programKey (d : Dev) : Dev := d.fuseCommand 1
def Dev.revoke (d : Dev) : Dev := d.fuseCommand 2
def Dev.setDbgPlain (d : Dev) : Dev := d.fuseCommand 3
def Dev.lockFuses (d : Dev) : Dev := d.fuseCommand 4

/-- What a fuse command leaves in the fuses. -/
def Fuses.apply (x : Fuses) (op slot use : Nat) (key : BitVec 256) : Fuses :=
  match op with
  | 1 => { x with keys := sput x.keys slot key, prog := slot :: x.prog, useCfg := if bit use 0 then slot :: x.useCfg else x.useCfg,
                  useData := if bit use 1 then slot :: x.useData else x.useData }
  | 2 => { x with revoked := if x.revoked.contains slot then x.revoked else slot :: x.revoked }
  | 3 => { x with dbgPlain := true }
  | _ => { x with lock := true }

/-- FUSE_CMD_DONE: the fuses take effect, or the verify fails. -/
def Dev.fuseCmdDone (d : Dev) (ok : Bool) : Dev :=
  match d.cfg.fuse with
  | none => d
  | some (op, slot, use, key) =>
    let d := (d.onCfg (fun x => { x with fuse := none })).clearFuseData
    let d : Dev := if ok then { d.setFld Pg.cfg F.CFG_FUSE_CMD_STATUS 0 with fuses := d.fuses.apply op slot use key }
      else (d.setFld Pg.cfg F.CFG_FUSE_CMD_STATUS 3).cfgRefused
    d.pend Pg.cfg 3

/-! The commands. -/

/-- LOAD_START (R343). -/
def execLoadStart (port : Fin 4) (bytes : List Byte) (s : State) : Host.Outcome State Fault Refusal :=
  s.cmd (fun d => d.loadStart port.val bytes)

/-- CFG_BUS_WORD (R346). -/
def execCfgBusWord (w : Word) (s : State) : Host.Outcome State Fault Refusal :=
  s.cmd (fun d => d.cfgBusWord w)

/-- STREAM_HEADER (R334). -/
def execStreamHeader (bytes : List Byte) (s : State) : Host.Outcome State Fault Refusal :=
  s.run (.streamHeader bytes) (fun d => d.streamHeader bytes)

/-- BLOCK_VERIFY (R336). -/
def execBlockVerify (bytes : List Byte) (s : State) : Host.Outcome State Fault Refusal :=
  s.run (.blockVerify bytes) (fun d => d.blockVerify bytes)

/-- PAD (R337). -/
def execPad (s : State) : Host.Outcome State Fault Refusal :=
  s.run .pad (fun d => d.padUnit)

/-- FRAME (R338). -/
def execFrame (s : State) : Host.Outcome State Fault Refusal :=
  s.run .frame (fun d => d.frameUnit)

/-- END (R337). -/
def execEndCmd (s : State) : Host.Outcome State Fault Refusal :=
  s.run .endCmd (fun d => d.endUnit)

/-- CFG_TIMEOUT_EXPIRY (R349). -/
def execCfgTimeoutExpiry (s : State) : Host.Outcome State Fault Refusal :=
  s.run .cfgTimeoutExpiry (fun d => d.cfgTimeoutExpiry)

/-- CFG_ERR_SEEN (R347). -/
def execCfgErrSeen (s : State) : Host.Outcome State Fault Refusal :=
  s.cmd (fun d => d.cfgErrSeen)

/-- OSPI_GO (R345). -/
def execOspiGo (s : State) : Host.Outcome State Fault Refusal :=
  s.cmd (fun d => d.ospiGo)

/-- HOST_GO (R348). -/
def execHostGo (s : State) : Host.Outcome State Fault Refusal :=
  s.cmd (fun d => d.hostGo)

/-- ABORT (R344). -/
def execAbort (s : State) : Host.Outcome State Fault Refusal :=
  s.cmd (fun d => d.cfgAbort)

/-- PROGRAM_KEY (R352). -/
def execProgramKey (s : State) : Host.Outcome State Fault Refusal :=
  s.cmd (fun d => d.programKey)

/-- REVOKE (R352). -/
def execRevoke (s : State) : Host.Outcome State Fault Refusal :=
  s.cmd (fun d => d.revoke)

/-- SET_DBG_PLAIN (R352). -/
def execSetDbgPlain (s : State) : Host.Outcome State Fault Refusal :=
  s.cmd (fun d => d.setDbgPlain)

/-- LOCK_FUSES (R352). -/
def execLockFuses (s : State) : Host.Outcome State Fault Refusal :=
  s.cmd (fun d => d.lockFuses)

/-- FUSE_CMD_DONE (R352). -/
def execFuseCmdDone (ok : Bool) (s : State) : Host.Outcome State Fault Refusal :=
  s.run (.fuseCmdDone ok) (fun d => d.fuseCmdDone ok)

/-- BAY_CLOSED (R359). -/
def execBayClosed (b : Fin 12) (s : State) : Host.Outcome State Fault Refusal :=
  s.run (.bayClosed b) (fun d => d.bayClosed b)

end Sys2Proof.Machine
end

