-- ==== Sys2Proof/Machine/NocTab.lean ====
section
/-! DEFINITION. Routing tables of FITTED and the end points declared dead (R379, R383). -/

namespace Sys2Proof.Machine

/-- Is the destination reached from a router within the links left? Output 0 is local, 5 the bridge (R378). -/
def routeOk (links : List Byte) (t : SMap (BitVec 16)) (h dest : Nat) : Nat → Nat → Bool
  | 0, router => let e := (tblEntry t router dest).toNat
    bit e 3 && ((e % 8 = 0 && dest = 32 * h + router) || (e % 8 = 5 && dest / 32 ≠ h))
  | n + 1, router => let e := (tblEntry t router dest).toNat
    bit e 3 && ((e % 8 = 0 && dest = 32 * h + router) || (e % 8 = 5 && dest / 32 ≠ h)
      || (decide (1 ≤ e % 8 ∧ e % 8 ≤ 4) && routeOk links t h dest n (Config.nocLinkEnd links router (e % 8))))

/-- The check of a shadow table (R379): every router reaches every stop of both halves within 32 links. -/
def Dev.tableOk (d : Dev) (h : Nat) : Bool :=
  let stops (g : Nat) : List Nat := (List.range (min 32 (Config.nocRouters (d.linkFrame g)))).map (fun s => 32 * g + s)
  let dests : List Nat := stops 0 ++ stops 1
  (List.range (min 32 (Config.nocRouters (d.linkFrame h)))).all (fun r =>
    dests.all (fun t => routeOk (d.linkFrame h) (d.nocOf h).shadow h t 32 r))

def Dev.swapRefused (d : Dev) (h : Nat) : Dev := (d.err (Pg.noc h) 2 0x1303).pend (Pg.noc h) 2

/-- SWAP: a write of CTRL_SWAP. -/
def Dev.nocSwap (d : Dev) (h : Nat) : Dev :=
  let pg := Pg.noc h
  if ¬ d.fitted h ∨ d.flag pg F.NOC_STAT_OLD_LIVE ∨ d.flag pg F.NOC_STAT_SWAP_BUSY then d.swapRefused h
  else d.setFld pg F.NOC_STAT_SWAP_BUSY 1

/-- Does a packet that carries the epoch remain in the half: on its way from it, or to it? -/
def Dev.epochOut (d : Dev) (h epoch : Nat) : Bool :=
  d.nocReqs.any (fun (x : Nat × NocReq) => x.2.epoch = epoch && (epHalf x.2.src = h || epHalf x.2.dst = h)
    && (x.2.ph = .transit || x.2.ph = .held || x.2.ph = .target || x.2.ph = .answer))
    || d.linkRuns.any (fun r => r.link / 512 = h && r.epoch = epoch && decide (d.ck < r.start + r.flits))

/-- SWAP_CHECK_DONE: the tables change places in one CK, or the SWAP is refused. -/
def Dev.swapCheckDone (d : Dev) (h : Fin 2) : Dev :=
  let pg := Pg.noc h.val
  if ¬ d.flag pg F.NOC_STAT_SWAP_BUSY then d
  else
    let d := d.setFld pg F.NOC_STAT_SWAP_BUSY 0
    if ¬ d.tableOk h.val then d.swapRefused h.val
    else
      let x := d.nocOf h.val
      let d := d.setNoc h.val { x with active := x.shadow, shadow := x.active }
      ((d.setFld pg F.NOC_STAT_EPOCH (1 - d.fld pg F.NOC_STAT_EPOCH)).setFld pg F.NOC_STAT_OLD_LIVE 1).schedOnce 1 (.oldEpochRetired h)

/-- OLD_EPOCH_RETIRED: looked for in every CK. -/
def Dev.oldEpochRetired (d : Dev) (h : Fin 2) : Dev :=
  let pg := Pg.noc h.val
  if ¬ d.flag pg F.NOC_STAT_OLD_LIVE then d
  else if d.epochOut h.val (1 - d.fld pg F.NOC_STAT_EPOCH) then d.schedOnce 1 (.oldEpochRetired h)
  else (d.setFld pg F.NOC_STAT_OLD_LIVE 0).pend pg 1

/-- TBL_DATA_WRITE: the shadow entry that TBL_IDX selects; outputs 6 and 7 are reserved. -/
def Dev.tblDataWrite (d : Dev) (h : Nat) (val : Word) : Dev :=
  let pg := Pg.noc h
  let v := val.toNat
  if ¬ d.fitted h ∨ d.flag pg F.NOC_STAT_OLD_LIVE ∨ d.flag pg F.NOC_STAT_SWAP_BUSY then d.err pg 3 0x1304
  else
    let d := if v / 2 ^ 16 ≠ 0 then d.regErr pg 1 else if 6 ≤ v % 8 then d.regErr pg 4 else d
    if 6 ≤ v % 8 then d
    else d.setNoc h { d.nocOf h with
      shadow := sset 0#16 (d.nocOf h).shadow (64 * d.fld pg F.NOC_TBL_IDX_ROUTER + d.fld pg F.NOC_TBL_IDX_DEST) (BitVec.ofNat 16 v) }

/-- TBL_DATA as it reads. -/
def Dev.tblData (d : Dev) (h : Nat) : Word :=
  (tblEntry (d.nocOf h).shadow (d.fld (Pg.noc h) F.NOC_TBL_IDX_ROUTER) (d.fld (Pg.noc h) F.NOC_TBL_IDX_DEST)).setWidth 32

/-- REVIVE: a dead end point returns to service; any other is refused under R8. -/
def Dev.revive (d : Dev) (h : Nat) (val : Word) : Dev :=
  let pg := Pg.noc h
  let ep := val.toNat % 4096
  let d := if val.toNat / 4096 ≠ 0 then d.regErr pg 1 else if (d.nocOf h).dead.contains ep then d else d.regErr pg 4
  d.setNoc h { d.nocOf h with dead := (d.nocOf h).dead.filter (fun x => decide (x ≠ ep)) }

/-! The commands. -/

/-- SWAP (R379). -/
def execSwap (h : Half) (s : State) : Host.Outcome State Fault Refusal :=
  s.cmd (fun d => d.nocSwap h.val)

/-- SWAP_CHECK_DONE (R379). -/
def execSwapCheckDone (h : Half) (s : State) : Host.Outcome State Fault Refusal :=
  s.run (.swapCheckDone h) (fun d => d.swapCheckDone h)

/-- OLD_EPOCH_RETIRED (R379). -/
def execOldEpochRetired (h : Half) (s : State) : Host.Outcome State Fault Refusal :=
  s.run (.oldEpochRetired h) (fun d => d.oldEpochRetired h)

/-- TBL_DATA_WRITE (R379). -/
def execTblDataWrite (h : Half) (val : Word) (s : State) : Host.Outcome State Fault Refusal :=
  s.cmd (fun d => d.tblDataWrite h.val val)

/-- REVIVE (R383). -/
def execRevive (h : Half) (val : Word) (s : State) : Host.Outcome State Fault Refusal :=
  s.cmd (fun d => d.revive h.val val)

end Sys2Proof.Machine
end

