-- ==== Sys2Proof/Machine/Pair.lean ====
section
/-! DEFINITION. Paired operation (R450 to R473): the Scarf link as received, roles and states, alignment, SYNC, mirrored writes on their
way, digests, resynchronisation, failover, sync marks. -/

namespace Sys2Proof.Machine

/-- PAIR_SIDE: 0 A, 1 B. -/
def Dev.side (d : Dev) : Nat := b01 d.ins.pairSide

/-- Change what the pair holds beyond registers. -/
def Dev.onPair (d : Dev) (f : PairSt → PairSt) : Dev := { d with pair := f d.pair }

/-! Sync marks (R472). -/

/-- Payload of a sync mark (Table 24-7). -/
def Dev.markPayload (d : Dev) (cause : Byte) (old new h : Nat) : List Byte :=
  padTo 32 ([cause, byteOf old 0, byteOf new 0, byteOf d.side 0, byteOf h 0, 0#8, 0#8, 0#8]
    ++ leBytes 4 (d.fld Pg.pair F.PAIR_RX_SEQ) ++ leBytes 4 (d.fld Pg.pair F.PAIR_TX_SEQ)
    ++ leBytes 2 (d.fld Pg.steward F.STEWARD_EPOCH_EPOCH))

/-- A sync mark in flow 0 of each half that captures. -/
def Dev.pairMark (d : Dev) (cause : Byte) (old new : Nat) : Dev :=
  [0, 1].foldl (fun (d : Dev) h =>
    if ¬ isCapturing (d.modeOf h) then d
    else
      let m : PairMark := ⟨d.pubLp h, d.flowFld h 0 FL_NEXT_SEQ, d.markPayload cause old new h⟩
      (d.onPair (fun p => { p with marks := sset [] p.marks h (d.marksOf h ++ [m]) })).kickWriter h) d

/-! Roles and states (R458 to R460, R469 to R471). -/

/-- PAIR_ACTIVE keeps its level for 12 CK (R470). -/
def Dev.activeHold (d : Dev) : Dev := d.onPair (fun p => { p with wasActive := d.pins.pairActive, roleCk := d.ck + 12 })

/-- A role change: counted, shown, marked (R469, R472). -/
def Dev.setRole (d : Dev) (new : Nat) (cause : Byte) : Dev :=
  let old := d.pairRole
  if old = new then d
  else (((d.activeHold.setFld Pg.pair F.PAIR_STAT_ROLE new).bump Pg.pair F.PAIR_FAILOVER_CNT).pend Pg.pair 2).pairMark cause old new

/-- Engines whose flows were held are offered their records. -/
def Dev.reoffer (d : Dev) (keys : List Nat) : Dev :=
  keys.foldl (fun (d : Dev) k =>
    let e := d.curEngine (k / 4096) (k % 4096)
    if e < 192 then d.schedOnce 0 (.recordOffer (engOp e)) else d) d

/-- Every resync ends without a context; the records held go on (R468). -/
def Dev.dropSyncs (d : Dev) : Dev :=
  let ks := d.holds.map Prod.fst
  ({ d.onPair (fun p => { p with resyncs := [], leadSyncs := [] }) with holds := [] } : Dev).reoffer ks

/-- A measurement of ALIGN begins with fresh records (R461). -/
def Dev.alignStart (d : Dev) : Dev :=
  let d := (List.range 64).foldl (fun (d : Dev) i => d.setReg Pg.pair (0x400 + 4 * i) 0#32) d
  { d.onPair (fun p => { p with alignIn := [], diffs := [], offRun := (0, 0), aligned := false, alignSent := 0 }) with
    alignRecs := []
    agenda := agendaDrop .alignRemeasure d.agenda }

/-- The shadow enters ALIGN (R461). -/
def Dev.enterAlign (d : Dev) : Dev :=
  let d := (d.setPairState Ps.align).alignStart
  let d : Dev := { d with agenda := agendaDrop .pairAlignTimeout d.agenda }
  (d.sched 1000000 .alignRemeasure).sched 100000000 .pairAlignTimeout

/-- What follows LINK once the link is UP, HELLO exchanged and PAIR_OK high (Table 24-3). -/
def Dev.pairAdvance (d : Dev) : Dev :=
  if ¬ (d.pairEn ∧ d.linkUp ∧ d.pair.hello ∧ d.pairOkLevel ∧ d.pairState = Ps.link) then d
  else if d.pairRole = Ps.lead then d.setPairState Ps.degraded
  else d.enterAlign

/-- A role decided by R469: a LEAD sets TAKEOVER and is DEGRADED, a SHADOW begins again at LINK. -/
def Dev.become (d : Dev) (role cause : Nat) : Dev :=
  let d := (d.setRole role (byteOf cause 0)).dropSyncs
  let d := d.onPair (fun p => { p with takeover := decide (role = Ps.lead), yielding := decide (role = Ps.shadow ∧ cause = 6),
                                       peer := 0, sendq := [], synced := false, applied := false, seqs := [] })
  if role = Ps.lead then d.setPairState Ps.degraded else (d.setPairState Ps.link).pairAdvance

/-- isolate() (R471). -/
def Dev.isolate (d : Dev) : Dev :=
  ((d.activeHold.setPairState Ps.isolated).pend Pg.pair 5).pairMark 7#8 d.pairRole d.pairRole

/-- Isolation ends (R471). -/
def Dev.unisolate (d : Dev) : Dev :=
  if d.pairState ≠ Ps.isolated then d
  else (d.activeHold.setPairState (if d.pairRole = Ps.lead then Ps.degraded else Ps.link)).pairMark 8#8 d.pairRole d.pairRole

/-- hb_age (R469). -/
def Dev.hbAge (d : Dev) : Nat := d.ck - d.pair.hbCk

/-- Does R469 act in this CK? -/
def Dev.pairJudges (d : Dev) : Bool := d.pairEn && d.pairRole ≠ 0 && d.pairState ≠ Ps.off

/-- A lead with peer_ok yields at YIELD (R469). -/
def Dev.yieldDue (d : Dev) : Bool :=
  d.pairJudges && decide (d.fld Pg.pair F.PAIR_HB_YIELD ≤ d.hbAge) && d.ins.pairOkIn && d.pairRole = Ps.lead

/-- At TIMEOUT a shadow takes over or side B isolates (R469). -/
def Dev.timeoutDue (d : Dev) : Bool :=
  d.pairJudges && decide (d.fld Pg.pair F.PAIR_HB_TIMEOUT ≤ d.hbAge)
    && ((d.pairRole = Ps.shadow && (d.ins.pairOkIn || d.side = 0))
      || (!d.ins.pairOkIn && d.side = 1 && d.pairState ≠ Ps.isolated))

/-- HEARTBEAT_YIELD (R469). -/
def Dev.heartbeatYield (d : Dev) : Dev := if d.yieldDue then d.become Ps.shadow 6 else d

/-- HEARTBEAT_TIMEOUT (R469). -/
def Dev.heartbeatTimeout (d : Dev) : Dev :=
  if d.yieldDue ∨ ¬ d.timeoutDue then d
  else if d.pairRole = Ps.shadow ∧ (d.ins.pairOkIn ∨ d.side = 0) then d.become Ps.lead 3
  else d.isolate

/-- PEER_OK_FELL (R469, Table 24-6): the level of PAIR_OK_IN changes; on a fall a shadow becomes LEAD, a lead has no shadow in step. -/
def Dev.peerOkFell (d : Dev) (fell : Bool) : Dev :=
  let was := d.ins.pairOkIn
  let d : Dev := { d with ins := { d.ins with pairOkIn := !fell } }
  if ¬ fell ∨ ¬ was ∨ ¬ d.pairJudges then d
  else if d.pairRole = Ps.shadow then d.become Ps.lead 2
  else if d.pairState = Ps.inStep then d.setPairState Ps.degraded
  else d

/-! The link (R453, R456, R457). -/

/-- SCARF_TRAINING_TIMEOUT: the attempt starts again. -/
def Dev.scarfTrainingTimeout (d : Dev) : Dev :=
  if d.fld Pg.pair F.PAIR_STAT_LINK ≠ 1 ∨ d.awaits .scarfTrainingTimeout then d else d.sched 100000 .scarfTrainingTimeout

/-- The HELLO of this device. -/
def Dev.helloPayload (d : Dev) : List Byte :=
  padTo 32 ((List.range 4).flatMap (fun j => leBytes 4 (d.fld Pg.cfg (F.CFG_DESIGN j)))
    ++ [byteOf d.side 0, byteOf d.pairRole 0, byteOf d.stewardMode 0, byteOf (b01 (d.pairState = Ps.isolated)) 0])

/-- SCARF_LINK_UP: latency and phase are measured, numbers start again, isolation ends, HELLO goes out. -/
def Dev.scarfLinkUp (d : Dev) (latency : BitVec 16) (phase : BitVec 8) : Dev :=
  if ¬ d.pairEn ∨ d.fld Pg.pair F.PAIR_STAT_LINK ≠ 1 then d
  else
    let hello := d.helloPayload
    let d := (d.setFld Pg.pair F.PAIR_STAT_LINK 2).setFld Pg.pair F.PAIR_LINK_CK_CK latency.toNat
    let d := (d.setFld Pg.pair F.PAIR_CK_PHASE_PHASE phase.toNat).pend Pg.pair 0
    let d := (d.setFld Pg.pair F.PAIR_TX_SEQ 0).setFld Pg.pair F.PAIR_RX_SEQ 0
    let d := d.onPair (fun p => { p with replay := [], sendq := [], muted := false, hello := false, peer := 0 })
    let d : Dev := { d with agenda := agendaDrop .heartbeatSend (agendaDrop .scarfTrainingTimeout d.agenda) }
    (d.unisolate.pairSend 1 hello).sched 128 .heartbeatSend

/-- SCARF_LANE_LOSS: the link goes DOWN. -/
def Dev.scarfLaneLoss (d : Dev) : Dev := if d.linkUp then d.linkDown else d

/-- HEARTBEAT_SEND: every 128 CK. -/
def Dev.heartbeatSend (d : Dev) : Dev :=
  if ¬ d.linkUp then d
  else
    let bits := b01 d.pins.pairOk + 2 * b01 d.pins.pairActive + 4 * b01 d.pair.yielding + 8 * b01 d.pair.takeover
    let p := padTo 32 (leBytes 8 (lpInt (d.pubLp 0)) ++ [byteOf d.stewardMode 0, byteOf d.pairRole 0, byteOf bits 0, 0#8]
      ++ leBytes 4 (d.ck % 2 ^ 32))
    (d.pairSend 2 p).schedOnce 128 .heartbeatSend

/-- EN goes to 1 (R457). -/
def Dev.pairEnable (d : Dev) : Dev :=
  let m := d.stewardMode
  if ¬ (m = Mode.ready.code ∨ isOperating m ∨ m = Mode.offload.code) then d.err Pg.pair 6 0x1806
  else
    let d := ((d.setFld Pg.pair F.PAIR_CTRL_EN 1).setPairState Ps.link).setFld Pg.pair F.PAIR_STAT_LINK 1
    (d.onPair (fun p => { p with hbCk := d.ck })).sched 100000 .scarfTrainingTimeout

/-- EN goes to 0: the link is DOWN, the role SOLO, the state OFF (R457). -/
def Dev.pairDisable (d : Dev) : Dev :=
  let d := d.dropSyncs.setRole 0 (Config.roleMarkCause d.ck)
  let d := ((d.setFld Pg.pair F.PAIR_CTRL_EN 0).setFld Pg.pair F.PAIR_STAT_LINK 0).setPairState Ps.off
  let d : Dev := { d with alignRecs := [] }
  d.onPair (fun p => { ({} : PairSt) with writes := p.writes, ring := p.ring, marks := p.marks })

/-- CLAIM (R471): an isolated lead's alone. -/
def Dev.pairClaim (d : Dev) : Dev :=
  if d.pairState = Ps.isolated ∧ d.pairRole = Ps.lead then d.unisolate else d.err Pg.pair 6 0x1806

/-! Receiving (R454, R455). -/

/-- Does the payload have the units of its type (Table 24-2)? -/
def unitsOk (typ n : Nat) : Bool :=
  match typ with
  | 6 => n % 32 = 0 && decide (32 ≤ n) && decide (n ≤ 544)
  | 7 => n = 544
  | 9 => n = 288
  | _ => n = 32

/-- The receiver asks for the number it expects. -/
def Dev.pairNak (d : Dev) : Dev :=
  let want := nextSeq (d.fld Pg.pair F.PAIR_RX_SEQ)
  if d.pair.muted then d else (d.bump Pg.pair F.PAIR_NAK_CNT).pairSend 10 (padTo 32 (leBytes 4 want))

/-- A message arrives: the expected one is accepted and acts, an earlier one counts as a duplicate, any other draws a NAK. -/
def Dev.pairRecv (d : Dev) (typ : Nat) (seq ack : Word) (good : Bool) (payload : List Byte) (f : Dev → Dev) : Dev :=
  if ¬ d.linkUp then d
  else
    let rx := d.fld Pg.pair F.PAIR_RX_SEQ
    if ¬ good ∨ ¬ unitsOk typ payload.length then (d.err Pg.pair 1 0x1801).pairNak
    else if seq.toNat = nextSeq rx then
      let d := d.setFld Pg.pair F.PAIR_RX_SEQ seq.toNat
      let d := d.onPair (fun p => { p with replay := p.replay.filter (fun m => !decide (signed 32 ((m.seq + 2 ^ 32 - ack.toNat) % 2 ^ 32) ≤ 0)) })
      f d.pairPump
    else if signed 32 ((seq.toNat + 2 ^ 32 - rx) % 2 ^ 32) ≤ 0 then d.bump Pg.pair F.PAIR_DUP_CNT
    else d.pairNak

/-- Bytes of a payload as a number. -/
def pf (l : List Byte) (i n : Nat) : Nat := leNat ((l.drop i).take n)

/-- NAK: every message held from the one named goes out again; one no longer held takes the link DOWN. -/
def Dev.nakAct (d : Dev) (want : Nat) : Dev :=
  if want = nextSeq (d.fld Pg.pair F.PAIR_TX_SEQ) then d
  else if d.pair.replay.any (fun m => m.seq = want) then
    (d.pair.replay.dropWhile (fun m => m.seq ≠ want)).foldl (fun (d : Dev) m =>
      d.emit (.scarf m.typ m.seq (d.fld Pg.pair F.PAIR_RX_SEQ) m.payload)) d
  else d.linkDown

/-- The role of Table 24-5. -/
def helloRole (mine theirs side : Nat) : Nat :=
  if mine = Ps.lead ∧ theirs ≠ Ps.lead then Ps.lead
  else if mine ≠ Ps.lead ∧ theirs = Ps.lead then Ps.shadow
  else if side = 0 then Ps.lead else Ps.shadow

/-- HELLO (R458). -/
def Dev.helloAct (d : Dev) (p : List Byte) : Dev :=
  let same := (List.range 4).all (fun j => decide (pf p (4 * j) 4 = d.fld Pg.cfg (F.CFG_DESIGN j)))
  if ¬ same ∨ pf p 16 1 = d.side then
    ((d.err Pg.pair 0 0x1800).pend Pg.pair 6).onPair (fun x => { x with muted := true })
  else
    let old := d.pairRole
    let new := helloRole old (pf p 17 1) d.side
    let d := d.setRole new (Config.roleMarkCause d.ck)
    let d := d.onPair (fun x => { x with hello := true, hbCk := d.ck, takeover := x.takeover || (decide (new = Ps.lead) && decide (old ≠ new)) })
    let d := if old = new then d else d.setPairState Ps.link
    d.pairAdvance

/-! SYNC (R462). -/

def regW (pg off val : Nat) : Nat × Word := (raddr pg off, BitVec.ofNat 32 val)

/-- Registers as they stand. -/
def Dev.plainW (d : Dev) (pg : Nat) (offs : List Nat) : List (Nat × Word) := offs.map (fun o => (raddr pg o, d.reg pg o))

/-- Offsets of consecutive registers. -/
def offs (first n : Nat) : List Nat := (List.range n).map (fun j => first + 4 * j)

/-- A window entry: index, data, command. -/
def winW {n : Nat} (pg idx data words cmd op i : Nat) (x : BitVec n) : List (Nat × Word) :=
  regW pg idx i :: ((List.range words).map (fun j => (raddr pg (data + 4 * j), eword x j)) ++ [regW pg cmd op])

/-- Writes that reproduce a half's sequencers: disarmed, their tables, armed again. -/
def Dev.trigW (d : Dev) (h : Nat) : List (Nat × Word) :=
  let pg := Pg.trig h
  let tab (q t e : Nat) (x : BitVec 256) : List (Nat × Word) := winW pg 0x100 0x104 8 0x124 1 (q + 16 * e + 256 * t) x
  (List.range 8).map (fun q => regW pg (0x140 + 4 * q) 0)
    ++ (List.range 8).flatMap (fun q =>
      (List.range 16).flatMap (fun e => tab q 0 e (d.seqState h q e) ++ tab q 1 e ((d.seqSlot h q e).zeroExtend 256))
        ++ tab q 2 0 (d.seqSelOf h q))
    ++ d.plainW pg (offs 0x100 9)
    ++ (List.range 8).map (fun q => regW pg (0x140 + 4 * q) (b01 (d.seqArmed h q)))

/-- Writes that reproduce a half's stimulus unit. -/
def Dev.stimW (d : Dev) (h : Nat) : List (Nat × Word) :=
  let pg := Pg.stim h
  (List.range 4096).flatMap (fun t => regW pg 0x100 (t * 512) :: (List.range 512).map (fun w =>
      (raddr pg 0x104, sget 0#32 d.tmpls (h * 2 ^ 21 + t * 512 + w))))
    ++ (List.range 64).flatMap (fun s =>
      let x : PlaySt := sget {} d.plays (h * 64 + s)
      winW pg 0x120 0x124 8 0x144 1 (s + 256 * (x.lane % 64)) x.entry)
    ++ d.plainW pg ([0x100, 0x110, 0x114] ++ offs 0x120 9 ++ offs 0x200 32 ++ [0x008])

/-- Writes that reproduce an engine. -/
def Dev.newtW (d : Dev) (e : Nat) : List (Nat × Word) :=
  let pg := Pg.newt e
  regW pg 0x120 0 :: ((List.range 8192).map (fun i => (raddr pg 0x124, sget 0#32 d.imem (e * 8192 + i)))
    ++ d.plainW pg [0x100, 0x104, 0x108, 0x120, 0x008])

/-- The writes that reproduce every mirrored register and window entry (Table 24-4), DEV_MODE_REQ last. -/
def Dev.syncWrites (d : Dev) : List (Nat × Word) :=
  (List.range 64).flatMap (fun n => d.plainW (Pg.lane n) [0x100, 0x104, 0x110])
    ++ [0, 1].flatMap (fun h =>
      (List.range 1024).flatMap (fun i =>
        let e := d.evsEntry h i
        if e = 0#256 then [regW (Pg.evs h) 0x100 i, regW (Pg.evs h) 0x124 3] else winW (Pg.evs h) 0x100 0x104 8 0x124 1 i e)
      ++ d.plainW (Pg.evs h) (offs 0x100 9))
    ++ (List.range 16).flatMap (fun q =>
      (List.range 64).flatMap (fun i => winW (Pg.sieve q) 0x100 0x104 16 0x144 1 i (d.rule q i))
      ++ d.plainW (Pg.sieve q) (offs 0x100 17 ++ [0x148, 0x008]))
    ++ [0, 1].flatMap (fun h => d.trigW h)
    ++ [0, 1].flatMap (fun h =>
      (List.range 4096).flatMap (fun f => winW (Pg.flow h) 0x100 0x104 16 0x144 1 f (d.flow h f))
      ++ d.plainW (Pg.flow h) (offs 0x100 17))
    ++ [0, 1].flatMap (fun h => d.stimW h)
    ++ (List.range 192).flatMap (fun e => d.newtW e)
    ++ [regW Pg.dev 0x104 (d.mode + 2 ^ 31)]

/-- Is a sequencer carried: disarmed, or at rest in a state whose branches are both off? -/
def Dev.seqCarried (d : Dev) (h q : Nat) : Bool :=
  let s := d.seqState h q (d.seqOf h q).st
  !d.seqArmed h q || (eget s (SS_MODE 0) = 0 && eget s (SS_MODE 1) = 0)

/-- The payload of a sequencer's SEQ_STATE. -/
def Dev.seqPayload (d : Dev) (h q : Nat) : List Byte :=
  let x := d.seqOf h q
  padTo 32 ([byteOf h 0, byteOf q 0, byteOf x.st 0, byteOf (b01 (d.seqArmed h q)) 0]
    ++ leBytes 4 (d.fld (Pg.trig h) (F.TRIG_SEQ_CNT q)) ++ leBytes 8 (if x.timer then lpInt x.deadline else 0))

/-- The lead sends its mirrored state to a shadow in SYNC. -/
def Dev.leadSync (d : Dev) : Dev :=
  let lp := (lpInt (d.pubLp 0) + d.fld Pg.pair F.PAIR_APPLY_DIST) % 2 ^ 64
  let ws : List (Nat × List Byte) := d.syncWrites.map (fun (w : Nat × Word) => (4, writePayload ⟨lp, w.1, w.2⟩))
  let qs : List (Nat × List Byte) := ((List.range 16).filter (fun k => d.seqCarried (k / 8) (k % 8))).map (fun k =>
    (5, d.seqPayload (k / 8) (k % 8)))
  (d.onPair (fun p => { p with sendq := p.sendq ++ ws ++ qs, synced := true })).pairPump

/-- Entry to IN_STEP: epochs are checked from the first that begins after this CK (R462). -/
def Dev.enterInStep (d : Dev) : Dev :=
  let ep (h : Nat) : Nat := lpInt (d.pubLp h) / 2 ^ 16 + 1
  let d := d.onPair (fun p => { p with nextEpoch := sset 0 (sset 0 [] 0 (ep 0)) 1 (ep 1), ended := [], own := [], theirs := [] })
  ((d.setPairState Ps.inStep).pend Pg.pair 3).pairMark 1#8 d.pairRole d.pairRole

/-- HEARTBEAT: the partner's role ends TAKEOVER and YIELD; its bits decide by R469; its state leads through SYNC to IN_STEP. -/
def Dev.heartbeatAct (d : Dev) (p : List Byte) (peer : Nat) : Dev :=
  let role := pf p 9 1
  let bits := pf p 10 1
  let was := d.pair.peer
  let d := d.onPair (fun x => { x with
    hbCk := d.ck, peer := peer, takeover := x.takeover && decide (role ≠ Ps.shadow), yielding := x.yielding && decide (role ≠ Ps.lead) })
  if ¬ d.pairJudges then d
  else if bit bits 3 ∧ d.pairRole = Ps.lead then d.become Ps.shadow 5
  else if bit bits 2 ∧ d.pairRole = Ps.shadow then d.become Ps.lead 4
  else if d.pairRole ≠ Ps.lead then d
  else
    let d := if peer = Ps.align ∧ was ≠ Ps.align then d.alignStart.sched 1000000 .alignRemeasure else d
    let d := if peer = Ps.sync ∨ peer = Ps.inStep then d else d.onPair (fun x => { x with synced := false })
    if peer = Ps.sync ∧ ¬ d.pair.synced ∧ d.pairState = Ps.degraded then d.leadSync
    else if peer = Ps.inStep ∧ d.pairState = Ps.degraded ∧ d.pair.synced then d.enterInStep
    else if peer ≠ Ps.inStep ∧ d.pairState = Ps.inStep then d.setPairState Ps.degraded
    else d

/-- The carried state of a sequencer takes its place (R462). -/
def Dev.seqInstall (d : Dev) (x : PairSeq) : Dev :=
  let pg := Pg.trig x.half
  let q := x.seq
  let run : Bool := decide (x.deadline ≠ 0)
  let d := ((d.setArmed x.half q (b01 x.armed)).setFld pg (F.TRIG_SEQ_STAT_STATE q) x.state).setFld pg (F.TRIG_SEQ_CNT q) x.count
  let d := d.setFld pg (F.TRIG_SEQ_STAT_TIMER_RUN q) (b01 run)
  let d := d.setSeq x.half q { d.seqOf x.half q with st := x.state, shows := [], deadline := mkLp x.deadline 0, timer := run, enterCk := d.ck, expired := false }
  let d := d.setFld Pg.pair F.PAIR_SEQ_PEND_SEQS (bitsPut (d.fld Pg.pair F.PAIR_SEQ_PEND_SEQS) (8 * x.half + q) 1 0)
  if x.armed then d.seqSched x.half (Fin.ofNat 8 q) 1 else d

/-- SEQ_STATE: held until SYNC's writes have applied (R462). -/
def Dev.seqStateAct (d : Dev) (p : List Byte) : Dev :=
  let x : PairSeq := ⟨pf p 0 1 % 2, pf p 1 1 % 8, pf p 2 1 % 16, bit (pf p 3 1) 0, pf p 4 4, pf p 8 8⟩
  if ¬ d.isShadow then d
  else if d.pair.applied then d.seqInstall x
  else d.onPair (fun y => { y with seqs := y.seqs ++ [x] })

/-! Alignment (R461). -/

/-- The lane whose matches give the offset. -/
def Dev.alignLane (d : Dev) : Nat :=
  if d.refSrc = 0 then d.refLane
  else ((List.range 64).find? (fun n => d.flag (Pg.lane n) F.LANE_CFG_EN)).getD 0

/-- The offset is accepted: a re-anchor of both halves; what has been measured moves with it (R73, R79). -/
def Dev.alignAccept (d : Dev) (off : Int) : Dev :=
  let d := d.jumpIn ⟨d.ck + 4, 7, {}, off * 2 ^ 32, false⟩
  let d : Dev := { d with alignRecs := d.alignRecs.map (fun (r : AlignRec) => { r with lp := r.lp + BitVec.ofInt 72 (off * 256) }) }
  d.onPair (fun p => { p with aligned := true, offRun := (0, 0),
                              diffs := p.diffs.map (fun (e : Nat × List Int) => (e.1, e.2.map (fun x => x - off * 256))) })

/-- A match of the offset's lane: the offset, rounded to the nearest integer, halves up; accepted when 8 in a row agree. -/
def Dev.alignOffset (d : Dev) (x : Int) : Dev :=
  let o := (x + 128) / 256
  let n := if d.pair.offRun.1 = o then d.pair.offRun.2 + 1 else 1
  let d := d.onPair (fun p => { p with offRun := (o, n) })
  if n = 8 ∧ ¬ d.pair.aligned then d.alignAccept o else d

/-- Entries are matched to the shadow's own records. -/
def Dev.alignMatch (d : Dev) : Dev :=
  d.pair.alignIn.foldl (fun (d : Dev) (e : AlignRec) =>
    let near (r : AlignRec) : Bool := r.lane = e.lane && r.len = e.len && r.crc = e.crc
      && decide ((e.lp - r.lp).toInt.natAbs < 2 ^ 28)
    match d.alignRecs.find? near with
    | none => d
    | some r =>
      let x := (e.lp - r.lp).toInt
      let d : Dev := { d with alignRecs := d.alignRecs.erase r }
      let d := d.onPair (fun p => { p with alignIn := p.alignIn.erase e, diffs := sset [] p.diffs e.lane (sget [] p.diffs e.lane ++ [x]) })
      if e.lane = d.alignLane then d.alignOffset x else d) d

/-- A mean difference in a lane's own symbols, signed 8.8. -/
def Dev.alignSkew (d : Dev) (n : Nat) (l : List Int) : Nat :=
  let sum : Int := l.foldl (fun (a x : Int) => a + x) 0
  let den : Int := ((l.length * max 1 (d.lpcRate (laneHalf n)) * max 1 (d.laneTau n) : Nat) : Int)
  let v := (2 * sum * 2 ^ 52 + den) / (2 * den)
  (v % 2 ^ 16).toNat

/-- PAIR_SKEWi of every lane with at least 8 matches; ALIGN ends when each reads 0. -/
def Dev.alignShow (d : Dev) : Dev :=
  if ¬ d.pair.aligned then d
  else
    let ls := d.pair.diffs.filter (fun (e : Nat × List Int) => decide (8 ≤ e.2.length))
    let d := ls.foldl (fun (d : Dev) (e : Nat × List Int) =>
      (d.setFld Pg.pair (F.PAIR_SKEW_SKEW e.1) (d.alignSkew e.1 e.2)).setFld Pg.pair (F.PAIR_SKEW_VALID e.1) 1) d
    if ls.all (fun (e : Nat × List Int) => d.fld Pg.pair (F.PAIR_SKEW_SKEW e.1) = 0) then
      let d : Dev := { d.setPairState Ps.sync with agenda := agendaDrop .pairAlignTimeout (agendaDrop .alignRemeasure d.agenda) }
      { d.onPair (fun p => { p with applied := false, seqs := [], alignIn := [], diffs := [] }) with alignRecs := [] }
    else d

/-- ALIGN_REC: entries of 16 bytes; one of length 0 pads the last unit. -/
def Dev.alignRecAct (d : Dev) (p : List Byte) : Dev :=
  if ¬ d.isShadow ∨ d.pairState ≠ Ps.align then d
  else
    let es : List AlignRec := (List.range (p.length / 16)).map (fun k =>
      let b := 16 * k
      ⟨mkLp (pf p b 8) (pf p (b + 8) 1), pf p (b + 9) 1, pf p (b + 10) 2, pf p (b + 12) 4⟩)
    (d.onPair (fun x => { x with alignIn := x.alignIn ++ es.filter (fun e => decide (e.len ≠ 0)) })).alignMatch.alignShow

/-- The lead sends the records it has delimited. -/
def Dev.alignSend (d : Dev) : Dev :=
  (d.alignRecs.drop d.pair.alignSent).foldl (fun (d : Dev) (r : AlignRec) =>
    (d.onPair (fun p => { p with alignSent := p.alignSent + 1 })).pairSend 6
      (padTo 32 (leBytes 8 (lpInt r.lp) ++ [byteOf (lpFrac r.lp) 0, byteOf r.lane 0] ++ leBytes 2 r.len ++ leBytes 4 r.crc))) d

/-- ALIGN_REMEASURE: both devices begin again with fresh records every 1 ms of ALIGN. -/
def Dev.alignRemeasure (d : Dev) : Dev :=
  if (d.isShadow ∧ d.pairState = Ps.align) ∨ (d.isLead ∧ d.linkUp ∧ d.pair.peer = Ps.align) then
    d.alignStart.sched 1000000 .alignRemeasure
  else d

/-- PAIR_ALIGN_TIMEOUT: without an offset ALIGN starts again. -/
def Dev.pairAlignTimeout (d : Dev) : Dev :=
  if ¬ d.isShadow ∨ d.pairState ≠ Ps.align ∨ d.pair.aligned then d else (d.err Pg.pair 4 0x1804).enterAlign

/-! Resynchronisation (R468). -/

/-- The first number of a flow that its engine has not been offered. -/
def Dev.firstUnoffered (d : Dev) (h f : Nat) : Nat :=
  let un (n : Num) : Bool := n.lost.isNone && (match sfind d.recs n.rid with
    | some r => r.st = .arriving || r.st = .queued
    | none => false)
  match (sget [] d.nums (flowKey h f)).find? un with
  | some n => n.seq
  | none => d.flowFld h f FL_NEXT_SEQ

/-- Is a flow at its boundary before a number: no task of it, the number next to be offered (R152)? -/
def Dev.atBoundary (d : Dev) (h f s : Nat) : Bool :=
  let e := d.curEngine h f
  let busy : Bool := e < 192 && (d.engOf e).task.isSome && d.fld (Pg.newt e) F.NEWT_CUR_FLOW_FLOW = f
  !busy && !d.inHandover h f && !seqBefore (d.firstUnoffered h f) s

/-- Hold a flow's records from a number on. -/
def Dev.holdFrom (d : Dev) (h f s : Nat) : Dev := { d with holds := sput d.holds (flowKey h f) s }
def Dev.unhold (d : Dev) (h f : Nat) : Dev := ({ d with holds := serase d.holds (flowKey h f) } : Dev).reoffer [flowKey h f]

/-- The shadow begins to resynchronise a flow. -/
def Dev.resync (d : Dev) (h f : Nat) : Dev :=
  if d.pair.resyncs.any (fun r => r.half = h && r.flow = f) then d
  else if d.flowFld h f FL_BYPASS = 1 then d.bump Pg.pair F.PAIR_RESYNC_CNT
  else
    let s := d.firstUnoffered h f
    let d := (d.holdFrom h f s).onPair (fun p => { p with resyncs := p.resyncs ++ [⟨h, f, s, s, none⟩] })
    d.pairSend 8 (padTo 32 (leBytes 2 f ++ [byteOf h 0, 0#8] ++ leBytes 4 s))

/-- Every flow enabled in a half. -/
def Dev.resyncHalf (d : Dev) (h : Nat) : Dev := ((d.listedFlows h).filter (fun f => d.flowEn h f)).foldl (fun (d : Dev) f => d.resync h f) d

/-- RESYNC_ALL: on a shadow alone (R467). -/
def Dev.resyncAll (d : Dev) : Dev := if d.isShadow then [0, 1].foldl (fun (d : Dev) h => d.resyncHalf h) d else d.regErr Pg.pair 4

/-- RESYNC_REQ: the lead takes S. -/
def Dev.resyncReqAct (d : Dev) (p : List Byte) : Dev :=
  let f := pf p 0 2 % 4096
  let h := pf p 2 1 % 2
  let low := pf p 4 4
  if ¬ d.isLead then d
  else
    let u := d.firstUnoffered h f
    let s := if seqBefore u low then low else u
    (d.holdFrom h f s).onPair (fun x => { x with leadSyncs := x.leadSyncs ++ [⟨h, f, s, low, none⟩] })

/-- The context slot of a flow; zeros where it has none. -/
def Dev.slotBytes (d : Dev) (h f : Nat) : List Byte :=
  let e := d.curEngine h f
  match (if e < 192 then sfind (d.engOf e).slots f else none) with
  | some k => (List.range 256).map (fun i => sget 0#8 d.ctx (ctxAddr e k + i))
  | none => List.replicate 256 0#8

/-- Is a resync of the lead at its boundary, or its flow disabled? -/
def Dev.leadReady (d : Dev) (r : PairResync) : Bool := !d.flowEn r.half r.flow || d.atBoundary r.half r.flow r.seq

/-- RESYNC_LEAD_BOUNDARY: the lead copies the slot and sends it. -/
def Dev.resyncLeadBoundary (d : Dev) : Dev :=
  (d.pair.leadSyncs.filter (fun r => d.leadReady r)).foldl (fun (d : Dev) (r : PairResync) =>
    let on := d.flowEn r.half r.flow
    let s := if on then r.seq else r.low
    let slot := if on then d.slotBytes r.half r.flow else List.replicate 256 0#8
    let d := d.onPair (fun p => { p with leadSyncs := p.leadSyncs.erase r })
    (d.pairSend 9 (padTo 16 (leBytes 2 r.flow ++ [byteOf r.half 0, 0#8] ++ leBytes 4 s)
      ++ leBytes 16 (d.flowFld r.half r.flow FL_CONFIG) ++ slot)).unhold r.half r.flow) d

/-- RESYNC_DATA: the records before S go on. -/
def Dev.resyncDataAct (d : Dev) (p : List Byte) : Dev :=
  let f := pf p 0 2 % 4096
  let h := pf p 2 1 % 2
  let s := pf p 4 4
  match d.pair.resyncs.find? (fun r => r.half = h && r.flow = f && r.slot.isNone) with
  | none => d
  | some r =>
    let d := d.onPair (fun x => { x with resyncs := x.resyncs.map (fun y =>
      if y = r then { y with seq := s, slot := some ((p.drop 32).take 256) } else y) })
    (d.holdFrom h f s).reoffer [flowKey h f]

/-- Is a resync of the shadow at its boundary, with a slot for what it carries? -/
def Dev.shadowReady (d : Dev) (r : PairResync) : Bool :=
  match r.slot with
  | none => false
  | some l => d.atBoundary r.half r.flow r.seq && (decide (d.curEngine r.half r.flow < 192) || l.all (fun b => b = 0#8))

/-- RESYNC_SHADOW_BOUNDARY: the lead's slot takes the place of the flow's. -/
def Dev.resyncShadowBoundary (d : Dev) : Dev :=
  (d.pair.resyncs.filter (fun r => d.shadowReady r)).foldl (fun (d : Dev) (r : PairResync) =>
    let e := d.curEngine r.half r.flow
    let d : Dev := match (if e < 192 then sfind (d.engOf e).slots r.flow else none), r.slot with
      | some k, some l =>
        let a := ctxAddr e k
        (List.range 256).foldl (fun (d : Dev) i => ({ d with ctx := sset 0#8 d.ctx (a + i) (byteAt l i) } : Dev)) (d.zeroSlot e k)
      | _, _ => d
    let d := (d.bump Pg.pair F.PAIR_RESYNC_CNT).onPair (fun p => { p with resyncs := p.resyncs.erase r })
    d.unhold r.half r.flow) d

/-- A flow that has no engine asks for one where a context waits for it. -/
def Dev.resyncEngines (d : Dev) : Dev :=
  (d.pair.resyncs.filter (fun r => match r.slot with
    | some l => !l.all (fun b => b = 0#8) && !decide (d.curEngine r.half r.flow < 192)
    | none => false)).foldl (fun (d : Dev) (r : PairResync) => d.askEngine r.half r.flow) d

/-! Digests (R466, R467). -/

/-- The epoch of a half's published LP. -/
def Dev.epochNow (d : Dev) (h : Nat) : Nat := lpInt (d.pubLp h) / 2 ^ 16

/-- An epoch of a half as counted; one without records is empty. -/
def Dev.epochOf (d : Dev) (h e : Nat) : Epoch :=
  (d.epochs.find? (fun (x : Epoch) => x.half = h && x.epoch = e)).getD { half := h, epoch := e }

/-- Epochs that have ended are listed while IN_STEP; others are forgotten once resolved. -/
def Dev.epochWalk (d : Dev) : Dev :=
  let d := if d.pairState ≠ Ps.inStep then d.onPair (fun p => { p with ended := [] })
    else [0, 1].foldl (fun (d : Dev) h =>
      let n := sget 0 d.pair.nextEpoch h
      let c := d.epochNow h
      d.onPair (fun p => { p with
        ended := p.ended ++ (List.range (c - n)).map (fun k => (h, n + k)), nextEpoch := sset 0 p.nextEpoch h (max n c) })) d
  { d with epochs := d.epochs.filter (fun (x : Epoch) =>
      !(decide (x.unresolved = 0) && decide (x.epoch < d.epochNow x.half) && !d.pair.ended.contains (x.half, x.epoch))) }

/-- Ended epochs whose records are all written or lost. -/
def Dev.digestsDue (d : Dev) : List (Nat × Nat) := d.pair.ended.filter (fun (k : Nat × Nat) => (d.epochOf k.1 k.2).unresolved = 0)

/-- The loss bitmap's bytes. -/
def lossBytes (l : List Nat) : List Byte := leBytes 512 (l.foldl (fun n f => n ||| 2 ^ (f % 4096)) 0)

/-- The last 8 digests of a half. -/
def keepEight (l : List Epoch) (x : Epoch) : List Epoch :=
  let mine := (l.filter (fun (y : Epoch) => y.half = x.half)) ++ [x]
  l.filter (fun (y : Epoch) => y.half ≠ x.half) ++ mine.drop (mine.length - 8)

/-- The shadow compares both devices' digests of an epoch. -/
def Dev.digestCompare (d : Dev) (a b : Epoch) : Dev :=
  if a.lost = [] ∧ b.lost = [] then
    if a.digest = b.digest then d.bump Pg.pair F.PAIR_CHECKED_CNT
    else ((d.bump Pg.pair F.PAIR_MISMATCH_CNT).pend Pg.pair 4).resyncHalf a.half
  else (a.lost ++ b.lost).eraseDups.foldl (fun (d : Dev) f => d.resync a.half f) (d.bump Pg.pair F.PAIR_UNCHECKED_CNT)

/-- Both digests of an epoch and half are here. -/
def Dev.digestPair (d : Dev) (h e : Nat) : Dev :=
  let at' (x : Epoch) : Bool := x.half = h && x.epoch = e
  match d.pair.own.find? at', d.pair.theirs.find? at' with
  | some a, some b => (d.onPair (fun p => { p with theirs := p.theirs.filter (fun x => !at' x) })).digestCompare a b
  | _, _ => d

/-- DIGEST_SEND: the digests of ended epochs go out. -/
def Dev.digestSend (d : Dev) : Dev :=
  d.digestsDue.foldl (fun (d : Dev) (k : Nat × Nat) =>
    let x := d.epochOf k.1 k.2
    let d : Dev := { d with epochs := d.epochs.filter (fun (y : Epoch) => !(y.half = k.1 && y.epoch = k.2)) }
    let d := d.onPair (fun p => { p with ended := p.ended.filter (fun j => j ≠ k), own := keepEight p.own x })
    let d := d.pairSend 7 (padTo 32 (leBytes 8 x.epoch ++ [byteOf x.half 0, 0#8, 0#8, 0#8] ++ leBytes 4 x.count ++ leBytes 8 x.digest)
      ++ lossBytes x.lost)
    if d.isShadow then d.digestPair k.1 k.2 else d) d

/-- DIGEST: one for an epoch no longer held counts as not checked. -/
def Dev.digestAct (d : Dev) (p : List Byte) : Dev :=
  let h := pf p 8 1 % 2
  let e := pf p 0 8
  let x : Epoch := { half := h, epoch := e, count := pf p 12 4, digest := pf p 16 8, lost := setBits (pf p 32 512) 4096 }
  if ¬ d.isShadow then d
  else if d.pairState = Ps.inStep ∧ e < sget 0 d.pair.nextEpoch h ∧ ¬ d.pair.ended.contains (h, e)
      ∧ ¬ d.pair.own.any (fun y => y.half = h && y.epoch = e) then d.bump Pg.pair F.PAIR_UNCHECKED_CNT
  else (d.onPair (fun y => { y with theirs := keepEight y.theirs x })).digestPair h e

/-! The journal (R463). -/

/-- The lead's journal entries go to the shadow. -/
def Dev.journalSend (d : Dev) : Dev :=
  let es := d.offers
  let d : Dev := { d with offers := [] }
  if d.isLead ∧ d.linkUp ∧ d.pair.hello then es.foldl (fun (d : Dev) (e : Nat × BitVec 256) => d.pairSend 3 (leBytes 32 e.2.toNat)) d
  else d

/-- JOURNAL: an entry of the mirror ring; an engine choice is compared with the shadow's own. -/
def Dev.journalAct (d : Dev) (p : List Byte) : Dev :=
  if ¬ d.isShadow then d
  else
    let a := d.fld Pg.pair F.PAIR_MJRN_BASE_BASE * 4096 + d.pair.ring % 2 ^ d.fld Pg.pair F.PAIR_MJRN_CFG_LOG2 * 32
    let d := (d.burstWrite Ep.scarf (d.fld Pg.pair F.PAIR_MJRN_CFG_CHAN) a p).onPair (fun x => { x with ring := x.ring + 1 })
    let differs := pf p 4 1 = 7 && decide (pf p 22 1 ≤ 1)
      && decide (pf p 20 1 ≠ d.curEngine (pf p 5 1 % 2) (pf p 6 2 % 4096))
    if differs then d.bump Pg.pair F.PAIR_JRN_DIFF_CNT else d

/-! Mirrored writes (R464). -/

/-- Is a mirrored write due in this CK? -/
def Dev.writeDue (d : Dev) (w : PairWr) : Bool := reached (mkLp w.lp 0) (d.pubLp 0)

/-- WRITE_MESSAGE: the shadow queues the write; one whose apply LP has passed counts as late and applies at once. -/
def Dev.writeAct (d : Dev) (p : List Byte) : Dev :=
  if ¬ d.isShadow then d
  else
    let w : PairWr := ⟨pf p 8 8, pf p 0 4, BitVec.ofNat 32 (pf p 4 4)⟩
    let late := d.writeDue w
    let d := d.onPair (fun x => { x with writes := x.writes ++ [w] })
    if late then (d.bump Pg.pair F.PAIR_LATE_CNT).schedOnce 0 .mirroredWriteApply else d

/-- What the pair takes from a write that has applied: a sequencer's control ends its mark in SEQ_PEND; DEV_MODE_REQ is the last write of
SYNC, after which carried states are installed and every flow is resynchronised (R462). -/
def Dev.pairApplied (d : Dev) (addr : Nat) : Dev :=
  let off := addr % 4096
  let d := match blkOfPage (addr / 4096) with
    | some (.trig, h) => if 0x140 ≤ off ∧ off < 0x160 then
        d.setFld Pg.pair F.PAIR_SEQ_PEND_SEQS (bitsPut (d.fld Pg.pair F.PAIR_SEQ_PEND_SEQS) (8 * h + (off - 0x140) / 4) 1 0) else d
    | _ => d
  if ¬ (addr = raddr Pg.dev 0x104 ∧ d.isShadow ∧ d.pairState = Ps.sync ∧ ¬ d.pair.applied) then d
  else
    let held := d.pair.seqs
    let d := d.onPair (fun p => { p with applied := true, seqs := [] })
    let d := d.setFld Pg.pair F.PAIR_SEQ_PEND_SEQS 0xFFFF
    let d := held.foldl (fun (d : Dev) x => d.seqInstall x) d
    [0, 1].foldl (fun (d : Dev) h => d.resyncHalf h) d

/-! What the pair does in every CK. -/

/-- Messages, alignment, SYNC, epochs and failover as they stand in this CK; events fall due in it. -/
def Dev.pairWork (d : Dev) : Dev :=
  let d := if ¬ d.linkUp ∧ (d.pair.resyncs ≠ [] ∨ d.pair.leadSyncs ≠ []) then d.dropSyncs else d
  let d := d.journalSend.epochWalk
  if ¬ d.pairEn then d
  else
    let d := d.pairAdvance.pairPump.resyncEngines
    let d := if d.isLead ∧ d.linkUp ∧ d.pair.peer = Ps.align then d.alignSend else d
    let d := if d.isShadow ∧ d.pairState = Ps.align then d.alignMatch.alignShow else d
    let d := if d.isShadow ∧ d.pairState = Ps.sync ∧ d.pair.applied ∧ d.pair.resyncs = [] then d.enterInStep else d
    let d := if d.pair.writes.any (fun w => d.writeDue w) then d.schedOnce 0 .mirroredWriteApply else d
    let d := if d.pair.leadSyncs.any (fun r => d.leadReady r) then d.schedOnce 0 .resyncLeadBoundary else d
    let d := if d.pair.resyncs.any (fun r => d.shadowReady r) then d.schedOnce 0 .resyncShadowBoundary else d
    let d := if d.digestsDue ≠ [] then d.schedOnce 0 .digestSend else d
    if d.pair.evalCk = d.ck + 1 then d
    else
      let d := d.onPair (fun p => { p with evalCk := d.ck + 1 })
      if d.yieldDue then d.schedOnce 0 .heartbeatYield
      else if d.timeoutDue then d.schedOnce 0 .heartbeatTimeout
      else d

/-- A write to PAIR_CTRL: EN, RESYNC_ALL, CLAIM (R457, R467, R471). -/
def Dev.pairCtrlWrite (d : Dev) (val : Word) : Dev :=
  let v := val.toNat
  let resv := bitsOf v 3 29 ≠ 0
  let bad := bit v 1 && !d.isShadow
  let d := if resv then d.regErr Pg.pair 1 else if bad then d.regErr Pg.pair 4 else d
  let d := if bit v 1 ∧ ¬ bad then d.resyncAll else d
  let d := if bit v 2 then d.pairClaim else d
  if bit v 0 ∧ ¬ d.pairEn then d.pairEnable else if ¬ bit v 0 ∧ d.pairEn then d.pairDisable else d

/-! The commands. -/

/-- SCARF_TRAINING_TIMEOUT (R453). -/
def execScarfTrainingTimeout (s : State) : Host.Outcome State Fault Refusal :=
  s.run .scarfTrainingTimeout (fun d => d.scarfTrainingTimeout)

/-- SCARF_LINK_UP (R453). -/
def execScarfLinkUp (latency : BitVec 16) (phase : BitVec 8) (s : State) : Host.Outcome State Fault Refusal :=
  s.cmd (fun d => d.scarfLinkUp latency phase)

/-- SCARF_LANE_LOSS (R453). -/
def execScarfLaneLoss (s : State) : Host.Outcome State Fault Refusal :=
  s.cmd (fun d => d.scarfLaneLoss)

/-- PAIR_EN_WRITE (R457). -/
def execPairEnWrite (val : Word) (s : State) : Host.Outcome State Fault Refusal :=
  s.cmd (fun d => d.pairCtrlWrite val)

/-- HELLO (R458). -/
def execHello (seq ack : Word) (good : Bool) (payload : List Byte) (s : State) : Host.Outcome State Fault Refusal :=
  s.cmd (fun d => d.pairRecv 1 seq ack good payload (fun d => d.helloAct payload))

/-- HEARTBEAT (R469). -/
def execHeartbeat (seq ack : Word) (good : Bool) (payload : List Byte) (peer : Fin 8) (s : State) : Host.Outcome State Fault Refusal :=
  s.cmd (fun d => d.pairRecv 2 seq ack good payload (fun d => d.heartbeatAct payload peer.val))

/-- HEARTBEAT_SEND (R456). -/
def execHeartbeatSend (s : State) : Host.Outcome State Fault Refusal :=
  s.run .heartbeatSend (fun d => d.heartbeatSend)

/-- JOURNAL (R463). -/
def execJournal (seq ack : Word) (good : Bool) (payload : List Byte) (s : State) : Host.Outcome State Fault Refusal :=
  s.cmd (fun d => d.pairRecv 3 seq ack good payload (fun d => d.journalAct payload))

/-- WRITE_MESSAGE (R464). -/
def execWriteMessage (seq ack : Word) (good : Bool) (payload : List Byte) (s : State) : Host.Outcome State Fault Refusal :=
  s.cmd (fun d => d.pairRecv 4 seq ack good payload (fun d => d.writeAct payload))

/-- SEQ_STATE (R462). -/
def execSeqState (seq ack : Word) (good : Bool) (payload : List Byte) (s : State) : Host.Outcome State Fault Refusal :=
  s.cmd (fun d => d.pairRecv 5 seq ack good payload (fun d => d.seqStateAct payload))

/-- ALIGN_REC (R461). -/
def execAlignRec (seq ack : Word) (good : Bool) (payload : List Byte) (s : State) : Host.Outcome State Fault Refusal :=
  s.cmd (fun d => d.pairRecv 6 seq ack good payload (fun d => d.alignRecAct payload))

/-- PAIR_ALIGN_TIMEOUT (R461). -/
def execPairAlignTimeout (s : State) : Host.Outcome State Fault Refusal :=
  s.run .pairAlignTimeout (fun d => d.pairAlignTimeout)

/-- DIGEST_SEND (R466). -/
def execDigestSend (s : State) : Host.Outcome State Fault Refusal :=
  s.run .digestSend (fun d => d.digestSend)

/-- DIGEST (R467). -/
def execDigest (seq ack : Word) (good : Bool) (payload : List Byte) (s : State) : Host.Outcome State Fault Refusal :=
  s.cmd (fun d => d.pairRecv 7 seq ack good payload (fun d => d.digestAct payload))

/-- RESYNC_REQ (R468). -/
def execResyncReq (seq ack : Word) (good : Bool) (payload : List Byte) (s : State) : Host.Outcome State Fault Refusal :=
  s.cmd (fun d => d.pairRecv 8 seq ack good payload (fun d => d.resyncReqAct payload))

/-- RESYNC_LEAD_BOUNDARY (R468). -/
def execResyncLeadBoundary (s : State) : Host.Outcome State Fault Refusal :=
  s.run .resyncLeadBoundary (fun d => d.resyncLeadBoundary)

/-- RESYNC_DATA (R468). -/
def execResyncData (seq ack : Word) (good : Bool) (payload : List Byte) (s : State) : Host.Outcome State Fault Refusal :=
  s.cmd (fun d => d.pairRecv 9 seq ack good payload (fun d => d.resyncDataAct payload))

/-- RESYNC_SHADOW_BOUNDARY (R468). -/
def execResyncShadowBoundary (s : State) : Host.Outcome State Fault Refusal :=
  s.run .resyncShadowBoundary (fun d => d.resyncShadowBoundary)

/-- RESYNC_ALL (R467). -/
def execResyncAll (s : State) : Host.Outcome State Fault Refusal :=
  s.cmd (fun d => d.resyncAll)

/-- NAK (R455). -/
def execNak (seq ack : Word) (good : Bool) (payload : List Byte) (s : State) : Host.Outcome State Fault Refusal :=
  s.cmd (fun d => d.pairRecv 10 seq ack good payload (fun d => d.nakAct (pf payload 0 4)))

/-- PEER_OK_FELL (R469). -/
def execPeerOkFell (fell : Bool) (s : State) : Host.Outcome State Fault Refusal :=
  s.run (.peerOkFell fell) (fun d => d.peerOkFell fell)

/-- HEARTBEAT_YIELD (R469). -/
def execHeartbeatYield (s : State) : Host.Outcome State Fault Refusal :=
  s.run .heartbeatYield (fun d => d.heartbeatYield)

/-- HEARTBEAT_TIMEOUT (R469). -/
def execHeartbeatTimeout (s : State) : Host.Outcome State Fault Refusal :=
  s.run .heartbeatTimeout (fun d => d.heartbeatTimeout)

/-- CLAIM (R471). -/
def execClaim (s : State) : Host.Outcome State Fault Refusal :=
  s.cmd (fun d => d.pairClaim)

/-- ALIGN_REMEASURE (R461). -/
def execAlignRemeasure (s : State) : Host.Outcome State Fault Refusal :=
  s.run .alignRemeasure (fun d => d.alignRemeasure)

end Sys2Proof.Machine
end

