-- ==== Sys2Proof/Machine/ReadReg.lean ====
section
/-! DEFINITION. Reading a register: what each shows beyond what is stored, the latch of a page, the reads that have a side effect
(R6, R7, R10, R480), and the rows that read. -/

namespace Sys2Proof.Machine

/-- A register's value with a field shown as a number. -/
def showFld (x : Nat) (f : Fld) (v : Nat) : Nat := bitsPut x f.lo f.wd v

/-- The bits of a word, low first, that a list of flags gives. -/
def flagWord (l : List Bool) : Nat := (l.zipIdx).foldl (fun n (p : Bool × Nat) => n + b01 p.1 * 2 ^ p.2) 0

/-- DEV page. -/
def Dev.showDev (d : Dev) (off x : Nat) : Nat :=
  if off = 0x100 then
    let x := showFld x F.DEV_MODE_SPLIT (b01 d.south.isSome)
    if d.south.isSome then x else showFld x F.DEV_MODE_OTHER d.mode
  else if 0x460 ≤ off ∧ off < 0x4D0 then
    let p := (off - 0x460) / 16
    let s := d.serOf p
    if (off - 0x460) % 16 = 4 then
      showFld (showFld (showFld x (F.DEV_SP_STAT_RXN p) s.rx.length) (F.DEV_SP_STAT_TXN p) s.tx.length) (F.DEV_SP_STAT_BUSY p)
        (b01 s.busy.isSome)
    else if (off - 0x460) % 16 = 12 then (byteAt s.rx 0).toNat + 256 * b01 (s.rx ≠ [])
    else x
  else x

/-- The fuse bits of eight key slots (R351). -/
def Dev.fuseBits (d : Dev) (first : Nat) : Nat :=
  flagWord (((List.range 8).map (fun i => let s := first + i
    [d.fuses.prog.contains s, d.fuses.revoked.contains s, d.fuses.useCfg.contains s, d.fuses.useData.contains s])).flatten)

/-- CFG_FUSE_KCV (R351). -/
def Dev.kcv (d : Dev) (s : Nat) : Nat := if d.fuses.prog.contains s then (aes256 (d.slotKey s) 0#128).toNat % 2 ^ 32 else 0

/-- CFG page. -/
def Dev.showCfg (d : Dev) (off x : Nat) : Nat :=
  if off = 0x00C then
    showFld (showFld (showFld (showFld x F.CFG_STAT_LOADING (b01 (d.mode = Mode.loading.code))) F.CFG_STAT_DONE_PIN (b01 (!d.pins.cfgDoneLow)))
      F.CFG_STAT_ERR_PIN (b01 (!d.pins.cfgErrLow))) F.CFG_STAT_AUTO (b01 d.ins.cfgAuto)
  else if off = 0x168 then d.fuseBits 0
  else if off = 0x16C then d.fuseBits 8
  else if off = 0x170 then d.kcv d.fuseSlot
  else if off = 0x174 then flagWord [d.fuses.dbgPlain, d.fuses.lock]
  else x

/-- PAIR page (Table 24-9). -/
def Dev.showPair (d : Dev) (off x : Nat) : Nat :=
  if off = 0x00C then
    showFld (showFld (showFld (showFld x F.PAIR_STAT_SIDE d.side) F.PAIR_STAT_PEER_OK (b01 d.ins.pairOkIn)) F.PAIR_STAT_OK_OUT
      (b01 d.pins.pairOk)) F.PAIR_STAT_ACTIVE_OUT (b01 d.pins.pairActive)
  else if off = 0x118 then min d.hbAge 0xFFFF
  else x

/-- LPC pages (R88). -/
def Dev.showLpc (d : Dev) (h off x : Nat) : Nat :=
  if off = 0x118 then lpInt (d.ownLp h) % 2 ^ 32
  else if off = 0x11C then lpInt (d.ownLp h) / 2 ^ 32
  else if off = 0x120 then lpFrac (d.ownLp h)
  else x

/-- The record at RP of a capture queue (Table 10-5). -/
def Dev.recAtRp (d : Dev) (h : Nat) : Option Rec :=
  match (d.cqOf h).runs with
  | [] => none
  | r :: _ => if r.live then sfind d.recs r.rid else none

/-- The two bits that name a record's state. -/
def RecSt.code : RecSt → Nat
  | .arriving => 0
  | .queued => 0
  | .taken => 1
  | .emitted => 2
  | .writing => 3

/-- CQ pages. -/
def Dev.showCq (d : Dev) (h off x : Nat) : Nat :=
  if off = 0x00C then showFld x F.CQ_STAT_LEVEL (d.cqLevel h)
  else if off = 0x108 then (d.cqOf h).fill
  else if off = 0x110 then
    match d.recAtRp h with
    | some r => r.flow + 2 ^ 12 * r.st.code + 2 ^ 14
    | none => 0
  else if off = 0x114 then
    match d.recAtRp h with
    | some r => min (d.ck - r.allocCk) (2 ^ 32 - 1)
    | none => 0
  else x

/-- PLU pages. -/
def Dev.showPlu (d : Dev) (h off x : Nat) : Nat :=
  if 0x140 ≤ off ∧ off < 0x160 then d.freeSlots h ((off - 0x140) / 4)
  else if off = 0x1CC then (List.range 8).foldl (fun n s => n + d.retiredSlots h s) 0
  else if off = 0x1F4 then d.rateOf h (d.fld (Pg.plu h) F.PLU_RATE_IDX_FLOW)
  else if 0x200 ≤ off ∧ off < 0x380 then d.engLoad (96 * h + (off - 0x200) / 4)
  else x

/-- IDX pages (R221, R225). -/
def Dev.showIdx (d : Dev) (h off x : Nat) : Nat :=
  let f := d.fld (Pg.idx h) F.IDX_FLOWSEL_FLOW
  if off = 0x144 then d.oldest h f + 2 ^ 31 * b01 (d.heldOf h f ≠ [])
  else if off = 0x148 then d.newest h f
  else if off = 0x14C then d.frontier h f % 2 ^ 32
  else if off = 0x150 then d.frontier h f / 2 ^ 32 % 2 ^ 8
  else x

/-- STIM pages. -/
def Dev.showStim (d : Dev) (h off x : Nat) : Nat :=
  if off = 0x00C then (List.range 64).countP (fun s => d.playState h s = 2)
  else if 0x200 ≤ off ∧ off < 0x280 then
    let i := (off - 0x200) / 4
    let l := d.stimOf (32 * h + i)
    showFld (showFld x (F.STIM_LANE_PEND i) l.pend.length) (F.STIM_LANE_BUSY i)
      (b01 (!l.pend.isEmpty || (match l.run with | some r => decide (r.op < 5) | none => false)))
  else if off = 0x104 then (d.tmplWord h (d.fld (Pg.stim h) F.STIM_TMPL_ADDR_TMPL) (d.fld (Pg.stim h) F.STIM_TMPL_ADDR_WORD)).toNat
  else x

/-- DRC pages (Table 12-6): the group that LANE_SEL names. -/
def Dev.showDrc (d : Dev) (c off x : Nat) : Nat :=
  let g := sget {} (d.drcOf c).groups (d.fld (Pg.drc c) F.DRC_LANE_SEL_GROUP)
  if off = 0x124 then g.word.toNat
  else if off = 0x128 then unsigned 8 g.rd + 256 * unsigned 8 g.wr
  else x

/-- MEMI pages: the log entry that LOG_IDX names (Table 13-6). -/
def Dev.showMemi (d : Dev) (c off x : Nat) : Nat :=
  if 0x1C4 ≤ off ∧ off < 0x1D0 then
    match (d.memiOf c).log[d.fld (Pg.memi c) F.MEMI_LOG_IDX_IDX]? with
    | none => 0
    | some e =>
      match (off - 0x1C4) / 4 with
      | 0 => e.burst
      | 1 => e.cls + 8 * e.pos + 2 ^ 10 * b01 e.hard + 2 ^ 16 * min e.count 0xFFFF
      | _ => e.reader
  else x

/-- DMA pages. -/
def Dev.showDma (d : Dev) (h off x : Nat) : Nat :=
  if off = 0x00C then flagWord ((List.range 32).map (fun i => [Dc.fetch, Dc.run, Dc.pausing].contains (d.dmaState (32 * h + i))))
  else if off = 0x100 then (List.range 32).foldl (fun n i => n + (d.dmaOf (32 * h + i)).flying) 0
  else x

/-- CLKRST pages. -/
def Dev.showClk (d : Dev) (off x : Nat) : Nat :=
  if off = 0x114 then d.ck % 2 ^ 32 else if off = 0x118 then d.ck / 2 ^ 32 % 2 ^ 32 else if off = 0x11C then d.phi else x

/-- Does a register of the DBG page act on the target DBG_SEL names (R431)? -/
def dbgTargetReg (off : Nat) : Bool := decide (0x108 ≤ off) && decide (off ≤ 0x2B4)

/-- What a register of a block shows, from what is stored in its visible bits. -/
def Dev.shown (d : Dev) (b : Blk) (i off x : Nat) : Nat :=
  match b with
  | .dev => d.showDev off x
  | .pmc => x
  | .therm => x
  | .cfg => d.showCfg off x
  | .scrub => if off = 0x00C then showFld x F.SCRUB_STAT_RUN (b01 (d.awaits (.configScrubFrame 0#2048 0))) else x
  | .hostif => if off = 0x138 then min d.hostEvs.length 256 else x
  | .dbg => if dbgTargetReg off then (d.treg d.dbgSel off).toNat else x
  | .pair => d.showPair off x
  | .steward => x
  | .lane => if off = 0x00C then showFld x F.LANE_STAT_PASS_MISMATCH (b01 (d.passMismatch i)) else x
  | .lpc => d.showLpc i off x
  | .evs => if off = 0x00C then (d.evsValid i).length else x
  | .sieve => if off = 0x00C then (d.validRules i).length else x
  | .trig => x
  | .flow => if off = 0x00C then ((d.listedFlows i).filter (fun f => d.flowEn i f)).length else x
  | .plu => d.showPlu i off x
  | .cq => d.showCq i off x
  | .idx => d.showIdx i off x
  | .stim => d.showStim i off x
  | .drc => d.showDrc i off x
  | .memi => d.showMemi i off x
  | .crypt => if off = 0x00C then showFld x F.CRYPT_STAT_DBG_PLAIN (b01 d.fuses.dbgPlain) else x
  | .newt => if off = 0x124 then (sget 0#32 d.imem (i * 8192 + d.fld (Pg.newt i) F.NEWT_IMEM_IDX_IDX)).toNat else x
  | .gecko => x
  | .bay => if 0x200 ≤ off ∧ off < 0x300 then (d.rbData i ((off - 0x200) / 4)).toNat else x
  | .noc => if off = 0x104 then (d.tblData i).toNat else x
  | .dma => d.showDma i off x
  | .dmach => x
  | .clkrst => d.showClk off x

/-- The live value of a register: WO and reserved bits read as 0 (R6, R7). -/
def Dev.liveReg (d : Dev) (b : Blk) (i : Nat) (r : RegDesc) (off : Nat) : Word :=
  let pg := b.base + i
  let x := (d.reg pg off).toNat
  if off = 0x000 then BitVec.ofNat 32 (b.base + 2 ^ 16 * i)
  else if off = 0x004 then 0x0100#32
  else if off = 0x010 then d.reg pg off
  else if 0x014 ≤ off ∧ off < 0x048 then BitVec.ofNat 32 (x &&& (r.rw ||| r.ro))
  else BitVec.ofNat 32 (d.shown b i off (x &&& (r.rw ||| r.rwl ||| r.ro)))

/-- The partner registers a latching register latches (R480); none for the others. -/
def latchPartners (b : Blk) (off : Nat) : List Nat :=
  match b with
  | .lane => if off = 0x12C then [0x130] else []
  | .lpc => if off = 0x118 then [0x11C, 0x120] else if off = 0x124 then [0x128] else []
  | .bay => if off = 0x198 then [0x19C] else if off = 0x1A0 then [0x1A4, 0x1A8] else []
  | .dma => if off = 0x108 then [0x10C] else []
  | .clkrst => if off = 0x114 then [0x118] else []
  | _ => []

/-- A register's live value by its offset. -/
def Dev.liveAt (d : Dev) (b : Blk) (i off : Nat) : Word :=
  match regDesc b off with
  | none => 0#32
  | some r => d.liveReg b i r off

/-- A read of a BAR0 register: its value, or none where a read of TAP_POP waits (R213); a read that carries PEEK changes nothing (R10). -/
def Dev.readReg (d : Dev) (addr : Nat) (peek : Bool) (who : TapWho) : Dev × Option Word :=
  let pg := addr / 4096
  let off := addr % 4096
  match blkOfPage pg with
  | none => (if peek then d else d.regErr Pg.dev 3, some 0#32)
  | some (b, i) =>
    match regDesc b off with
    | none => (if peek then d else d.regErr pg 3, some 0#32)
    | some r =>
      if b = .cq ∧ off = 0x144 then d.tapRead i peek who
      else
        let v := d.liveReg b i r off
        if peek then (d, some v)
        else if b = .newt ∧ off = 0x124 then
          (d.setFld pg F.NEWT_IMEM_IDX_IDX ((d.fld pg F.NEWT_IMEM_IDX_IDX + 1) % 8192), some v)
        else if b = .stim ∧ off = 0x104 then
          (d.setFld pg F.STIM_TMPL_ADDR_WORD ((d.fld pg F.STIM_TMPL_ADDR_WORD + 1) % 512), some v)
        else
          match latchPartners b off with
          | [] =>
            match (d.latchOf pg).find? (fun (p : Nat × Word) => decide (p.1 = off)) with
            | some p => (d, some p.2)
            | none => (d, some v)
          | ps => (d.setLatch pg (ps.map (fun o => (o, d.liveAt b i o))), some v)

/-- A read as a command: the value goes out. -/
def Dev.readOut (d : Dev) (addr : Nat) (peek : Bool) : Dev :=
  let p := d.readReg addr peek .cmd
  match p.2 with
  | some v => p.1.emit (.rdata addr v)
  | none => p.1

end Sys2Proof.Machine
end

