-- ==== Sys2Proof/Machine/SoftWrite.lean ====
section
/-! DEFINITION. Software writes: what a write to each register does (R6 to R9, R464, R465, R477 and the owning chapters). A write
refused by a value the register's row does not allow counts in ERRCNT7 with code 0x0004 (Table 25-3). -/

namespace Sys2Proof.Machine

/-- A write by the common rules alone, with the bits refused for their value. -/
def Dev.plain (d : Dev) (b : Blk) (i off : Nat) (val : Word) (bad : Nat) : Dev :=
  d.plainWrite (b.base + i) i (rowOf b off) off val bad

/-- The mask to refuse where a value is out of its range. -/
def badIf (out : Bool) (mask : Nat) : Nat := if out then mask else 0

/-- A register whose WO fields hold what a later command takes: the value is kept and reads as 0. -/
def Dev.keepWo (d : Dev) (b : Blk) (i off : Nat) (val : Word) : Dev := d.setReg (b.base + i) off val

/-- Registers of the common header, 0x000 to 0x0FF but CTRL and STAT (R474, R477, R478, R481). -/
def Dev.headerWrite (d : Dev) (b : Blk) (i off : Nat) (val : Word) : Dev :=
  let pg := b.base + i
  if off = 0x010 then d.intPendWrite pg val 0#32
  else if off = 0x014 then d.intEnWrite pg val
  else if off = 0x018 then d.intForceWrite pg val
  else if off = 0x01C then d.errFirstWrite pg none
  else if 0x020 ≤ off ∧ off < 0x040 then d.counterWrite pg off false
  else if off = 0x044 then d.irqRouteWrite pg val
  else d.plain b i off val 0

/-- What a write to DEV_SPp_CTRL may not hold (R321): MODE 3 on a UART or the I²C port, a DIV of 0, an SPI DIV below 10. -/
def spCtrlBad (p v : Nat) : Nat :=
  let spi := p = 4 ∨ p = 5
  let div := bitsOf v 16 16
  badIf (decide (¬ spi ∧ bitsOf v 2 2 = 3)) 0xC + badIf (decide (div = 0 ∨ (spi ∧ div < 10))) 0xFFFF0000

/-- DEV page. -/
def Dev.writeDev (d : Dev) (off : Nat) (val : Word) : Dev :=
  let v := val.toNat
  let p := (off - 0x460) / 16
  if off = 0x104 then d.modeRequest val false false
  else if 0x400 ≤ off ∧ off < 0x440 then d.roStart (Fin.ofNat 16 ((off - 0x400) / 4)) val
  else if off = 0x440 then
    let d := d.plain .dev 0 off val (badIf (v % 4 = 3) 3)
    if v % 4 = 1 then d.flashProgram else if v % 4 = 2 then d.flashErase else d
  else if 0x460 ≤ off ∧ off < 0x4D0 ∧ off % 16 = 0 then (d.plain .dev 0 off val (spCtrlBad p v)).serKick p
  else if 0x460 ≤ off ∧ off < 0x4D0 ∧ off % 16 = 8 then
    if p < 6 then d.serialTxWrite p val
    else (if v / 2 ^ 11 ≠ 0 then d.regErr Pg.dev 1 else d).serTx p (v % 2 ^ 11)
  else if 0x460 ≤ off ∧ off < 0x4D0 ∧ off % 16 = 12 then d.serialRxRemove p
  else d.plain .dev 0 off val 0

/-- PMC page. -/
def Dev.writePmc (d : Dev) (off : Nat) (val : Word) : Dev :=
  let v := val.toNat
  if off = 0x008 then d.plain .pmc 0 off val (badIf (bitsOf v 1 2 = 3) 6)
  else if off = 0x100 then
    match bitsOf v 8 2 with
    | 1 => d.domainOpen val
    | 2 => d.domainClose val
    | op => d.plain .pmc 0 off val (badIf (op = 3) 0x300)
  else if off = 0x104 then d.plain .pmc 0 off val (badIf (v % 256 = 0) 0xFF)
  else if off = 0x108 then d.plain .pmc 0 off val (badIf (v % 65536 < 100) 0xFFFF)
  else if 0x200 ≤ off ∧ off % 16 = 8 then d.railTargetWrite ((off - 0x200) / 16) val
  else d.plain .pmc 0 off val 0

/-- THERM page: any write to MAXb sets it to the latest sample. -/
def Dev.writeTherm (d : Dev) (off : Nat) (val : Word) : Dev :=
  if 0x140 ≤ off ∧ off < 0x170 then
    let b := (off - 0x140) / 4
    d.setFld Pg.therm (F.THERM_MAX_TEMP b) (d.fld Pg.therm (F.THERM_BAY_TEMP b))
  else d.plain .therm 0 off val 0

/-- CFG page. ABORT acts before a GO of the same write. -/
def Dev.writeCfg (d : Dev) (off : Nat) (val : Word) : Dev :=
  let v := val.toNat
  if off = 0x008 then
    let d := d.plain .cfg 0 off val 0
    let d := if bit v 2 then d.cfgAbort else d
    let d := if bit v 0 then d.ospiGo else d
    if bit v 1 then d.hostGo else d
  else if 0x144 ≤ off ∧ off < 0x164 then d.keepWo .cfg 0 off val
  else if off = 0x164 then
    let op := v % 8
    let d := d.plain .cfg 0 off val (badIf (decide (4 < op)) 7)
    if 1 ≤ op ∧ op ≤ 4 then d.fuseCommand op else d
  else d.plain .cfg 0 off val 0

/-- SCRUB page. -/
def Dev.writeScrub (d : Dev) (off : Nat) (val : Word) : Dev :=
  if off = 0x008 then (if bit val.toNat 2 then d.fill val else (d.plain .scrub 0 off val 0).scrubKick)
  else d.plain .scrub 0 off val 0

/-- HOSTIF page. -/
def Dev.writeHostif (d : Dev) (off : Nat) (val : Word) : Dev :=
  if off = 0x008 then d.hostCtrlWrite val
  else if off = 0x10C then d.cmdTailWrite val
  else if off = 0x12C then d.evtHeadWrite val
  else if off = 0x100 ∨ off = 0x104 ∨ off = 0x108 ∨ off = 0x120 ∨ off = 0x124 ∨ off = 0x128 then d.ringSetting off val
  else if off = 0x1C0 then d.fwDone val
  else if off = 0x240 then
    let go := bit val.toNat 0
    let bad := go && decide ((byteAt d.fwEvt 8).toNat < 0x80)
    let d := d.plain .hostif 0 off val (badIf bad 1)
    if go && !bad then d.fwEvtGo else d
  else d.plain .hostif 0 off val 0

/-- A register of the DBG page that acts on the target DBG_SEL names (R431): DPC only while it is stopped; DPC_HI and LIVE are 0 on a
Newt engine. -/
def Dev.writeTarget (d : Dev) (off : Nat) (val : Word) : Dev :=
  let t := d.dbgSel
  let r := rowOf .dbg off
  let v := val.toNat
  if 0x140 ≤ off then d.dbgRangeWrite ((off - 0x140) / 32) ((off - 0x140) % 32 / 4) val
  else if (off = 0x110 ∨ off = 0x114) ∧ ¬ d.inMonitor t then d.regErr Pg.dbg 4
  else if r.rw = 0 then d.regErr Pg.dbg 1
  else
    let d := if v &&& (0xFFFFFFFF - r.rw) ≠ 0 then d.regErr Pg.dbg 1 else d
    d.setTreg t off (if (off = 0x114 ∨ off = 0x12C) ∧ t < 192 then 0#32 else BitVec.ofNat 32 (v &&& r.rw))

/-- DBG page. -/
def Dev.writeDbg (d : Dev) (off : Nat) (val : Word) : Dev :=
  let v := val.toNat
  let op := v % 4
  if off = 0x100 then d.plain .dbg 0 off val (badIf (decide (195 < v % 256)) 0xFF)
  else if off = 0x104 then
    let d := d.plain .dbg 0 off val 0
    if op = 1 then d.halt else if op = 2 then d.resume false else if op = 3 then d.resume true else d
  else if off = 0x11C then
    let d := d.plain .dbg 0 off val (badIf (op = 3) 3)
    if op = 1 then d.dbgRegCmd .dbgRegRead false else if op = 2 then d.dbgRegCmd .dbgRegWrite true else d
  else if off = 0x308 then
    let d := d.plain .dbg 0 off val (badIf (op = 3) 3)
    if op = 1 then d.inspect false else if op = 2 then d.inspect true else d
  else if dbgTargetReg off then d.writeTarget off val
  else d.plain .dbg 0 off val 0

/-- PAIR page (R457, R464, R467, R469, R471). -/
def Dev.writePair (d : Dev) (off : Nat) (val : Word) : Dev :=
  let v := val.toNat
  if off = 0x008 then d.pairCtrlWrite val
  else if off = 0x100 then
    let badT := decide (v % 65536 < 512)
    let t := if badT then d.fld Pg.pair F.PAIR_HB_TIMEOUT else v % 65536
    d.plain .pair 0 off val (badIf badT 0xFFFF + badIf (decide (t - 256 ≤ v / 65536)) 0xFFFF0000)
  else if off = 0x104 then d.plain .pair 0 off val (badIf (decide (v % 2 ^ 24 < 256)) 0xFFFFFF)
  else if off = 0x120 then d.plain .pair 0 off val (badIf (decide (bitsOf v 4 5 < 10) || decide (24 < bitsOf v 4 5)) 0x1F0)
  else d.plain .pair 0 off val 0

/-- STEWARD page. -/
def Dev.writeSteward (d : Dev) (off : Nat) (val : Word) : Dev :=
  let d := d.plain .steward 0 off val 0
  if off = 0x008 ∧ bit val.toNat 0 then d.yieldToken
  else if off = 0x120 ∧ bit val.toNat 0 then d.bootGo
  else d

/-- LANE pages. -/
def Dev.writeLane (d : Dev) (n : Fin 64) (off : Nat) (val : Word) : Dev :=
  if off = 0x100 then d.laneEnWrite n val
  else if off = 0x104 then d.holdWrite n val
  else if off = 0x108 then d.alignRetry n val
  else if off = 0x110 then d.laneFrameWrite n val
  else d.plain .lane n.val off val 0

/-- LPC pages: the South page holds read-only copies (R88). -/
def Dev.writeLpc (d : Dev) (h off : Nat) (val : Word) : Dev :=
  if h = 1 then d.plain .lpc h off val 0
  else if off = 0x100 then d.lpcRefWrite val
  else if off = 0x104 then d.lpcSynIncWrite false val
  else if off = 0x108 then d.lpcSynIncWrite true val
  else if off = 0x10C then d.lpcAnchorWrite false val
  else if off = 0x110 then d.lpcAnchorWrite true val
  else d.plain .lpc h off val 0

/-- EVS pages. -/
def Dev.writeEvs (d : Dev) (h off : Nat) (val : Word) : Dev :=
  let d := d.plain .evs h off val 0
  if off ≠ 0x124 then d
  else match val.toNat % 4 with
    | 1 => d.evsWrite h
    | 2 => d.evsRead h
    | 3 => d.evsCancel h
    | _ => d

/-- SIEVE pages. -/
def Dev.writeSieve (d : Dev) (q off : Nat) (val : Word) : Dev :=
  if off = 0x148 then d.sieveDefaultWrite q val
  else
    let d := d.plain .sieve q off val 0
    if off ≠ 0x144 then d
    else match val.toNat % 4 with
      | 1 => d.sieveWrite q
      | 2 => d.sieveRead q
      | 3 => d.sieveInvalidate q
      | _ => d

/-- TRIG pages: SEQs_CTRL takes ARM, then RESET (R109). -/
def Dev.writeTrig (d : Dev) (h off : Nat) (val : Word) : Dev :=
  let v := val.toNat
  if 0x140 ≤ off ∧ off < 0x160 then
    let q : Fin 8 := Fin.ofNat 8 ((off - 0x140) / 4)
    let d := if v / 4 ≠ 0 then d.regErr (Pg.trig h) 1 else d
    let d := d.seqArm h q (bit v 0)
    if bit v 1 then d.seqReset h q else d
  else
    let d := d.plain .trig h off val (if off = 0x124 then badIf (v % 4 = 3) 3 else 0)
    if off ≠ 0x124 then d
    else match v % 4 with
      | 1 => d.trigWrite h
      | 2 => d.trigRead h
      | _ => d

/-- FLOW pages. -/
def Dev.writeFlow (d : Dev) (h off : Nat) (val : Word) : Dev :=
  let d := d.plain .flow h off val 0
  if off ≠ 0x144 then d
  else match val.toNat % 4 with
    | 1 => d.flowWrite h
    | 2 => d.flowRead h
    | 3 => d.flowClear h
    | _ => d

/-- PLU pages (R187, R194, R203). -/
def Dev.writePlu (d : Dev) (h off : Nat) (val : Word) : Dev :=
  let v := val.toNat
  if off = 0x110 then d.pluRelWrite h val
  else if off = 0x1C0 then d.plain .plu h off val (badIf (decide (bitsOf v 3 5 < 10) || decide (24 < bitsOf v 3 5)) 0xF8)
  else if off = 0x104 ∨ off = 0x108 ∨ off = 0x10C ∨ (0x120 ≤ off ∧ off < 0x140) ∨ (0x180 ≤ off ∧ off < 0x1C0) then d.stripeWrite h off val
  else d.plain .plu h off val 0

/-- CQ thresholds: out of order they are refused; a fill already across a new threshold crosses it now (R209, R210, R224). -/
def Dev.cqThresholds (d : Dev) (h off : Nat) (val : Word) : Dev :=
  let pg := Pg.cq h
  let v := val.toNat
  let bad := if off = 0x100 then decide (v % 256 = 0) || decide (bitsOf v 8 8 ≤ v % 256) || decide (bitsOf v 16 8 ≤ bitsOf v 8 8)
    else decide (v % 256 ≤ bitsOf v 8 8)
  let fill := (d.cqOf h).fill
  let was := d.cqLevel h
  if bad then (if v &&& (0xFFFFFFFF - (rowOf .cq off).rw) ≠ 0 then d.regErr pg 1 else d).err pg 0 0x0A01
  else
    let d := d.plain .cq h off val 0
    let d := if was < 3 ∧ d.cqLevel h = 3 then d.pend pg 0 else d
    if ¬ d.cqSpill h ∧ d.fld pg F.CQ_SPILL_ON * 2 ^ 13 ≤ fill then
      ((d.setFld pg F.CQ_STAT_SPILL 1).pend pg 1).pluAsk h 1 0 (.spillStart (halfOf h))
    else if d.cqSpill h ∧ fill < d.fld pg F.CQ_SPILL_OFF * 2 ^ 13 then
      ((d.setFld pg F.CQ_STAT_SPILL 0).pend pg 2).pluAsk h 1 0 (.spillEnd (halfOf h))
    else d

/-- CQ pages. -/
def Dev.writeCq (d : Dev) (h off : Nat) (val : Word) : Dev :=
  if off = 0x100 ∨ off = 0x104 then d.cqThresholds h off val
  else
    let d := d.plain .cq h off val 0
    if off = 0x008 ∧ bit val.toNat 0 then d.cqFlush h else d

/-- IDX pages: LOG2 outside 15 to 19 is refused (Table 10-7). -/
def Dev.writeIdx (d : Dev) (h off : Nat) (val : Word) : Dev :=
  let v := val.toNat
  if off = 0x100 ∧ ¬ d.cfgLock ∧ (bitsOf v 3 5 < 15 ∨ 19 < bitsOf v 3 5) then
    (if v / 256 ≠ 0 then d.regErr (Pg.idx h) 1 else d).err (Pg.idx h) 3 0x0A14
  else
    let d := d.plain .idx h off val 0
    if off = 0x110 ∧ bit v 31 then d.seekGo h val
    else if off = 0x124 ∧ bit v 0 then d.descRead h
    else d

/-- STIM pages. -/
def Dev.writeStim (d : Dev) (h off : Nat) (val : Word) : Dev :=
  let v := val.toNat
  if off = 0x104 then d.tmplDataAccess h (some val) false
  else if off = 0x144 then
    let d := d.plain .stim h off val (badIf (decide (5 < v % 8)) 7)
    match v % 8 with
    | 1 => d.playWrite h
    | 2 => d.playRead h
    | 3 => d.playArm h
    | 4 => d.playStop h
    | 5 => d.playStart h
    | _ => d
  else if off = 0x148 then
    d.plain .stim h off val (badIf (!([1, 2, 4, 8].contains (popc v 8))) 0xFF + badIf (decide (bitsOf v 8 4 < 8)) 0xF00)
  else if 0x200 ≤ off ∧ off < 0x280 then d.plain .stim h off val (badIf (decide (103 < v % 128)) 0x7F)
  else d.plain .stim h off val 0

/-- DRC pages: a channel whose EN a write sets starts to train; one whose EN it clears is OFF (R247, R248). -/
def Dev.writeDrc (d : Dev) (c off : Nat) (val : Word) : Dev :=
  let v := val.toNat
  if off = 0x008 then
    let was := d.flag (Pg.drc c) F.DRC_CTRL_EN
    let d := d.plain .drc c off val 0
    let en := d.flag (Pg.drc c) F.DRC_CTRL_EN
    let d := if en ∧ ¬ was then d.trainStart c
      else if was ∧ ¬ en then ((d.setChanState c Ch.off).stopRefresh c).resumeChannel c
      else d
    if bit v 1 then d.retrainWrite c else d
  else if off = 0x110 then d.plain .drc c off val (badIf (decide (64 < bitsOf v 1 7)) 0xFE)
  else if off = 0x120 then d.plain .drc c off val (badIf (decide (19 < v % 32)) 0x1F)
  else d.plain .drc c off val 0

/-- MEMI pages. -/
def Dev.writeMemi (d : Dev) (c off : Nat) (val : Word) : Dev :=
  if off = 0x008 then
    let d := d.plain .memi c off val 0
    if bit val.toNat 1 then d.logClr c else d
  else if 0x100 ≤ off ∧ off ≤ 0x180 then d.memiRegionWrite c off val
  else if off = 0x184 then d.devfailWrite c val
  else if 0x200 ≤ off ∧ off < 0x300 then d.retirementWrite c ((off - 0x200) / 4) val
  else d.plain .memi c off val 0

/-- CRYPT pages. -/
def Dev.writeCrypt (d : Dev) (h off : Nat) (val : Word) : Dev :=
  let v := val.toNat
  if 0x100 ≤ off ∧ off < 0x200 ∧ off % 32 < 0x18 then d.cryptRangeWrite h ((off - 0x100) / 32) (off % 32) val
  else if 0x200 ≤ off ∧ off < 0x228 then d.keepWo .crypt h off val
  else if off = 0x228 then
    let d := d.plain .crypt h off val (badIf (v % 4 = 3) 3)
    match v % 4 with
    | 1 => d.loadSlot h (bitsOf v 8 3) (bitsOf v 12 4)
    | 2 => d.unwrap h (bitsOf v 8 3) (bitsOf v 12 4)
    | _ => d
  else if off = 0x230 then d.reseal h val
  else if off = 0x234 then d.plain .crypt h off val (badIf (decide (12 < v % 16)) 0xF)
  else d.plain .crypt h off val 0

/-- NEWT pages. A new TASK_LIMIT holds for the task that runs (R156). -/
def Dev.writeNewt (d : Dev) (e off : Nat) (val : Word) : Dev :=
  if off = 0x008 then d.newtCtrlWrite e val
  else if off = 0x124 then d.imemData e (some val) false
  else if off = 0x108 then (d.plain .newt e off val 0).taskLimitExpiry e
  else d.plain .newt e off val 0

/-- GECKO pages. A new WDOG_PERIOD is counted from the write on a core whose watchdog counts (R393, R427). -/
def Dev.writeGecko (d : Dev) (k off : Nat) (val : Word) : Dev :=
  let v := val.toNat
  if off = 0x008 then
    let d := d.plain .gecko k off val 0
    let d := if bit v 0 then d.geckoCoreReset k else d
    if bit v 1 then d.kick k else d
  else if off = 0x100 then
    let d := d.plain .gecko k off val 0
    let st := d.tgtState (192 + k)
    if st = Gs.run ∨ st = Gs.wfi ∨ (st = Gs.monitor ∧ ¬ d.flag Pg.dbg F.DBG_CTRL_WDOG_HOLD) then
      ({ d with agenda := d.agenda.filter (fun (e : Nat × Instr) => !decide (e.2 = .watchdogExpiry (gkOp k))) } : Dev).wdogReload k
    else d
  else if off = 0x10C then d.mailTo (otherCore k) val
  else if off = 0x110 then d.irqAck k val
  else if off = 0x160 then
    let d := d.plain .gecko k off val 0
    match v % 4 with
    | 1 => d.cacheOp k true false (bit v 2)
    | 2 => d.cacheOp k false true (bit v 2)
    | 3 => d.cacheOp k true true (bit v 2)
    | _ => d
  else d.plain .gecko k off val 0

/-- BAY pages. -/
def Dev.writeBay (d : Dev) (b off : Nat) (val : Word) : Dev :=
  let v := val.toNat
  if off = 0x180 then (if bit v 0 then d.bayArm b val else d.bayDisarm b val)
  else if off = 0x190 then
    let d := d.plain .bay b off val 0
    if bit v 0 then d.sched 1 (.snap (bayOp b)) else d
  else if off = 0x1B0 then d.plain .bay b off val (badIf (decide (839 < v % 1024)) 0x3FF)
  else d.plain .bay b off val 0

/-- NOC pages. -/
def Dev.writeNoc (d : Dev) (h off : Nat) (val : Word) : Dev :=
  if off = 0x104 then d.tblDataWrite h val
  else if off = 0x108 then d.revive h val
  else
    let d := d.plain .noc h off val 0
    if off = 0x008 ∧ bit val.toNat 0 then d.nocSwap h else d

/-- DMACH pages. -/
def Dev.writeDmach (d : Dev) (k off : Nat) (val : Word) : Dev :=
  if off = 0x008 then d.dmaCtrlWrite k val
  else if off = 0x100 ∨ off = 0x104 ∨ off = 0x108 then d.dmaDescWrite k off val
  else d.plain .dmach k off val 0

/-- CLKRST pages. -/
def Dev.writeClk (d : Dev) (h off : Nat) (val : Word) : Dev :=
  if off = 0x104 then d.fpllWrite h 0 val
  else if off = 0x108 then d.fpllWrite h 1 val
  else if off = 0x110 then
    (if val.toNat / 2 ^ 16 ≠ 0 then d.regErr (Pg.clkrst h) 1 else d).softwareReset h val
  else d.plain .clkrst h off val 0

/-- A write to a register of a block's page. -/
def Dev.blockWrite (d : Dev) (b : Blk) (i off : Nat) (val : Word) : Dev :=
  match b with
  | .dev => d.writeDev off val
  | .pmc => d.writePmc off val
  | .therm => d.writeTherm off val
  | .cfg => d.writeCfg off val
  | .scrub => d.writeScrub off val
  | .hostif => d.writeHostif off val
  | .dbg => d.writeDbg off val
  | .pair => d.writePair off val
  | .steward => d.writeSteward off val
  | .lane => d.writeLane (Fin.ofNat 64 i) off val
  | .lpc => d.writeLpc i off val
  | .evs => d.writeEvs i off val
  | .sieve => d.writeSieve i off val
  | .trig => d.writeTrig i off val
  | .flow => d.writeFlow i off val
  | .plu => d.writePlu i off val
  | .cq => d.writeCq i off val
  | .idx => d.writeIdx i off val
  | .stim => d.writeStim i off val
  | .drc => d.writeDrc i off val
  | .memi => d.writeMemi i off val
  | .crypt => d.writeCrypt i off val
  | .newt => d.writeNewt i off val
  | .gecko => d.writeGecko i off val
  | .bay => d.writeBay i off val
  | .noc => d.writeNoc i off val
  | .dma => d.plain .dma i off val 0
  | .dmach => d.writeDmach i off val
  | .clkrst => d.writeClk i off val

/-- A register write takes effect (R6 to R8, R475): none where no register occupies the offset. -/
def Dev.softWrite (d : Dev) (addr : Nat) (val : Word) : Dev :=
  let off := addr % 4096
  match blkOfPage (addr / 4096) with
  | none => d.regErr Pg.dev 3
  | some (b, i) =>
    match regDesc b off with
    | none => d.regErr (addr / 4096) 3
    | some _ => if off < 0x100 ∧ off ≠ 0x008 ∧ off ≠ 0x00C then d.headerWrite b i off val else d.blockWrite b i off val

/-- A software write: one to a mirrored register of a pair waits or is refused (R464, R465). -/
def Dev.busWrite (d : Dev) (addr : Nat) (val : Word) : Dev := d.swGate addr val (fun d => d.softWrite addr val)

/-! Rows of the common header. A page no block has counts in DEV (R475). -/

/-- A row of the header on a page that exists. -/
def Dev.onPage (d : Dev) (pg : Nat) (f : Dev → Dev) : Dev :=
  match blkOfPage pg with
  | none => d.regErr Pg.dev 3
  | some _ => f d

/-- COUNTER_CLEAR: a counter, recorded maximum or first-event register that any write clears (R9); its event in the same CK leaves 1 in
a counter. Any other register takes the value. -/
def Dev.counterClear (d : Dev) (addr : Nat) (val : Word) (eventInCk : Bool) : Dev :=
  let pg := addr / 4096
  let off := addr % 4096
  match blkOfPage pg with
  | none => d.busWrite addr val
  | some (b, _) =>
    match regDesc b off with
    | none => d.busWrite addr val
    | some r =>
      if r.clr = 0xFFFFFFFF ∧ r.ro = 0xFFFFFFFF then d.counterWrite pg off eventInCk
      else d.busWrite addr val

end Sys2Proof.Machine
end

