-- ==== Sys2Proof/Machine/CfgExec.lean ====
section
/-! DEFINITION. What configuration streams execute last: register pairs and the startup release (R331, R341, R360). -/

namespace Sys2Proof.Machine

/-- May the stream at hand hold a pair of this register: in a full stream not of page CFG, nor a SWRST (R341); in a bay stream only of the
armed bay and its engines (R360). -/
def Dev.pairAllowed (d : Dev) (addr : Nat) : Bool :=
  let pg := addr / 4096
  let named := pg = Pg.cfg || ((pg = Pg.clkrst 0 || pg = Pg.clkrst 1) && addr % 4096 = 0x110)
  if named then false
  else if d.mode = Mode.loading.code then true
  else match d.armedBay with
    | none => false
    | some b => pg = Pg.bay b || (bayEngines b).any (fun e => pg = Pg.newt e)

/-- REG: its first word, or the next of its pairs, a software write in the CK of its last byte. -/
def Dev.regUnit (d : Dev) : Dev :=
  d.ifUnit .regCmd (fun d l =>
    match d.cfg.cmd with
    | none =>
      let (op, cls, n, a) := cmdWord l
      if n = 0 ∨ cls ≠ 0 ∨ a ≠ 0 then d.malformed
      else (d.onCfg (fun x => { x with cmd := some (op, cls, n, a) })).cfgNext.cfgResume
    | some (op, cls, n, a) =>
      let addr := leNat (l.take 4)
      let d := d.onCfg (fun x => { x with cmd := if n ≤ 1 then none else some (op, cls, n - 1, a) })
      if ¬ d.pairAllowed addr then d.malformed
      else
        let d := d.onCfg (fun x => { x with wrote := if x.wrote.contains addr then x.wrote else addr :: x.wrote })
        ((d.softWrite addr (BitVec.ofNat 32 (leNat ((l.drop 4).take 4)))).cfgNext).cfgResume)

/-- STARTUP_RELEASE: S (Table 16-4). The PMBus reads of the rails' VOUT_MODE come with it (R446). -/
def Dev.startupRelease (d : Dev) (nonLinear failed : BitVec 8) : Dev :=
  if d.mode ≠ Mode.loading.code ∨ ¬ d.cfg.done ∨ d.started then d
  else
    let d : Dev := { d with started := true, startCk := some d.ck, lanesBegun := false, lanesDue := some (d.ck + 8) }
    let d := d.ffsStart
    let d := d.bmsEncode d.fab.bms
    let d := if bit (byteAt d.cfg.hdr 11).toNat 0 then d.setFld Pg.dev F.DEV_CFG_LOCK_LOCK 1 else d
    let d := (List.range 192).foldl (fun (d : Dev) e =>
      if d.flag (Pg.newt e) F.NEWT_CTRL_RUN ∧ d.domOpen (Dom.bay (e / 16)) then d.engineStart e else d) d
    ((d.scrubStart).railsStart nonLinear failed).pend Pg.cfg 0

/-! The commands. -/

/-- REG (R341). -/
def execRegCmd (s : State) : Host.Outcome State Fault Refusal :=
  s.run .regCmd (fun d => d.regUnit)

/-- STARTUP_RELEASE (R331). -/
def execStartupRelease (nonLinear failed : BitVec 8) (s : State) : Host.Outcome State Fault Refusal :=
  s.run (.startupRelease nonLinear failed) (fun d => d.startupRelease nonLinear failed)

end Sys2Proof.Machine
end

