-- ==== Sys2Proof/Machine/NocTarget.lean ====
section
/-! DEFINITION. Requests of the on-chip network from injection to their response: decode, holds and wakes, isolation, dead targets, what
each target does with a request, who takes the response (R372 to R383, R491, R492). -/

namespace Sys2Proof.Machine

/-! Injection (R372, R375, R380). -/

/-- A request asks for its target's domain; in SLEEP the device leaves SLEEP instead (R380). -/
def Dev.nocWake (d : Dev) (h k : Nat) : Dev :=
  if d.domState k ≠ Ds.closed ∨ d.forced k then d
  else
    let d := d.bump (Pg.noc h) F.NOC_WAKE_CNT
    let d := if d.ownMode = Mode.sleep.code ∧ d.modeTarget.isNone ∧ ¬ d.enteringSafe d.stewardHalf then
        d.schedOnce 0 (.modeRequest 0x80000003#32 false)
      else d
    if d.ownMode = Mode.sleep.code ∧ d.byDev k then d else d.domOpening k

/-- NOC_INJECT: after `wait` CK without a credit or room the request enters the network, or its master is answered DECODE, or DEAD where
the bridge is lost, or BUSY where its channel retrains (R247); it stays at its master while the spine is closed or its channel trains, and
the router of a master that is declared dead absorbs it (R383). -/
def Dev.nocInject (d : Dev) (id wait : Nat) : Dev :=
  match sfind d.nocReqs id with
  | none => d
  | some r =>
    let h := epHalf r.src
    let d := d.bumpBy (Pg.noc h) F.NOC_INJ_WAIT_CNT wait
    let tgt := decodeReq r.addr r.len
    let dst := if r.host then Ep.pcie else match tgt with | some t => tgtEp h t | none => r.src
    let r := { r with dst := dst, epoch := d.fld (Pg.noc h) F.NOC_STAT_EPOCH }
    if r.ph ≠ .source then d
    else if ¬ r.host ∧ tgt.isNone then
      (({ r with dst := r.src, status := Ns.decode } |> d.setReq id).err (Pg.noc h) 0 0x1301).nocReply id 0
    else if ¬ d.domOpen Dom.spine then
      let d := (d.setReq id { r with ph := .parked }).domOpening Dom.spine
      match r.dom with
      | some k => d.nocWake (epHalf dst) k
      | none => d
    else
      let st := match tgt with
        | some (.dram c _) => if r.host then Ch.online else d.chanState c
        | _ => Ch.online
      if st = Ch.training then d.setReq id { r with ph := .parked }
      else if st = Ch.retrain then (d.setReq id { r with dst := r.src }).nocRefuse id 0 Ns.busy
      else if ¬ d.bridged r.src dst then
        ((d.setReq id { r with dst := r.src }).err (Pg.noc h) 1 0x1302).nocRefuse id 0 Ns.dead
      else if (d.nocOf h).dead.contains r.src then (d.setReq id { r with ph := .lost }).bump (Pg.noc h) F.NOC_ABSORB_CNT
      else
        let late := match r.dom with | some k => decide (d.domState k = Ds.closing) | none => false
        let m := d.packet r.src dst (1 + r.outFlits) 0
        (m.1.setReq id { r with ph := .transit, late := late, came := d.ck }).sched (m.2 - d.ck) (.nocDelivery id 0)

/-! Targets. -/

/-- The bytes of a request that its byte enables name. -/
def NocReq.enabled (r : NocReq) : List Nat :=
  (List.range r.len).filter (fun i => match r.wr with | [] => true | l => (l.getD i none).isSome)

/-- The first enabled byte of a request that the register window accepts: the four aligned bytes of one register in one unit (R374). -/
def NocReq.regAt (r : NocReq) : Option Nat :=
  match r.enabled with
  | [i, j, k, l] =>
    if j = i + 1 ∧ k = i + 2 ∧ l = i + 3 ∧ (r.addr + i) % 4 = 0 ∧ r.addr % 32 + r.len ≤ 32 then some i else none
  | _ => none

/-- Does the request read? -/
def NocReq.reads (r : NocReq) : Bool := r.op = .read || r.op = .readRes

/-- A value in its place among zeros. -/
def NocReq.placed (r : NocReq) (i : Nat) (v : Word) : List Byte :=
  (List.range r.len).map (fun j => if i ≤ j ∧ j < i + 4 then byteOf v.toNat (j - i) else 0#8)

/-- The register window (R374). A read of TAP_POP may wait (R213). -/
def Dev.nocRegs (d : Dev) (id : Nat) (r : NocReq) : Dev :=
  if r.op = .writeCond then d.nocFail id 8 Ns.condFail
  else match r.regAt with
    | none => (d.err (Pg.noc (epHalf r.dst)) 5 0x1306).nocFail id 8 Ns.error
    | some i =>
      let a := r.addr + i - Na.reg
      if r.reads then
        match d.readReg a r.peek (.noc id) with
        | (d, some v) => (d.setReq id { r with data := r.placed i v }).nocAnswer id 8
        | (d, none) => d
      else
        (d.busWrite a (BitVec.ofNat 32 (leNat (((r.wr.drop i).take 4).map (fun b => b.getD 0#8))))).nocAnswer id 8

/-- The flash block: reads of the bank that a command does not hold, 72 CK for each unit (R316, R317). -/
def Dev.nocFlash (d : Dev) (id : Nat) (r : NocReq) (off ecc : Nat) : Dev :=
  let busy := match d.fab.flash with
    | some (_, a, _) => decide (a / 2 ^ 24 = off / 2 ^ 24) || decide (a / 2 ^ 24 = (off + r.len - 1) / 2 ^ 24)
    | none => false
  if r.op = .writeCond then d.nocFail id 72 Ns.condFail
  else if ¬ r.reads then d.nocFail id 72 Ns.error
  else if busy then d.nocFail id 72 Ns.busy
  else
    let d := if ecc = 2 then d.err Pg.dev 4 0x0F12 else d
    (d.setReq id { r with data := d.bytes r.addr r.len, bad := if ecc = 2 then [0] else [] }).nocAnswer id (72 * r.flits)

/-- The bytes a request writes of the `n` bytes from `a` on. -/
def NocReq.part (r : NocReq) (a n : Nat) : List (Option Byte) :=
  (List.range n).map (fun j => if r.addr ≤ a + j then r.wr.getD (a + j - r.addr) none else none)

/-- A bay's shared memory: each 8-byte word asks its bank (R140). -/
def Dev.nocBay (d : Dev) (id : Nat) (r : NocReq) (b off : Nat) : Dev :=
  let words := (List.range ((off + r.len + 7) / 8 - off / 8)).map (fun k => (off / 8 + k) * 8)
  words.foldl (fun (d : Dev) w =>
    d.bayAsk b { who := 20, id := id, word := w, wr := if r.reads then none else some (r.part (Na.bay b + w) 8), due := d.ck + 1 })
    (d.setReq id { r with left := words.length })

/-- A scratchpad: each unit asks its bank (R138). -/
def Dev.nocScratch (d : Dev) (id : Nat) (r : NocReq) (e off : Nat) : Dev :=
  let n := (off + r.len + 31) / 32 - off / 32
  let d := (d.setReq id { r with left := n }).sched 1024 (.scratchpadBusyTimeout id)
  (List.range n).foldl (fun (d : Dev) u =>
    let bank := (off / 32 + u) * 32 / 0x8000
    let d : Dev := { d with spQ := sset [] d.spQ (e * 4 + bank) (sget [] d.spQ (e * 4 + bank) ++ [(id * 64 + u % 64, d.ck)]) }
    d.schedOnce 0 (.scratchpadRequest (engOp e) (Fin.ofNat 4 bank) 0)) d

/-- A Gecko complex: its local SRAM, and ERROR beyond it (R386). -/
def Dev.nocGecko (d : Dev) (id : Nat) (r : NocReq) (off ecc : Nat) : Dev :=
  if r.op = .writeCond then d.nocFail id 5 Ns.condFail
  else if 0x80000 < off + r.len then d.nocFail id 5 Ns.error
  else if r.reads then
    ((d.ocm Oc.gecko ecc).setReq id { r with data := d.bytes r.addr r.len, bad := if ecc = 2 then [0] else [] }).nocAnswer id 5
  else ((d.setSome r.addr r.wr).written r.addr r.len).nocAnswer id 5

/-- The reader code of a master (Table 13-6). -/
def readerOf (cls : Nat) : Nat := match cls with | 1 => 4 | 2 => 2 | 3 => 3 | _ => 8

/-- A DRAM channel. -/
def Dev.nocDram (d : Dev) (id : Nat) (r : NocReq) (c off : Nat) : Dev :=
  if r.op = .writeCond then d.nocFail id 2 Ns.condFail
  else
    let d := (if r.reads then d else d.written r.addr r.len).setReq id { r with tx := d.nextTx }
    d.dramMulti none [(⟨c, off, r.len, if r.reads then none else some r.wr⟩ : Piece)] r.poison r.cls (readerOf r.cls) r.close false
      (some (.nocResponse id))

/-- The capture space, read only (R214, R218). -/
def Dev.nocCap (d : Dev) (id : Nat) (r : NocReq) (off : Nat) : Dev :=
  if r.op = .writeCond then d.nocFail id 4 Ns.condFail
  else if ¬ r.reads then (d.bar2Write off).nocFail id 4 Ns.error
  else d.bar2Read (.noc id r.cls) off r.len 3

/-- A NoC mortise port: a shut bay answers "target reconfiguring" (R356), else the user logic decides. -/
def Dev.nocPort (d : Dev) (id : Nat) (r : NocReq) (q : Nat) : Dev :=
  let b := q / 2
  if d.bayShut b then (d.bump (Pg.bay b) F.BAY_RCFG_NOC_CNT).nocFail id 0 Ns.reconfig
  else if ¬ d.bayLive b then d
  else
    let d := d.present (.noc q) (.data r.addr)
    match Config.portAnswer q id d.ck with
    | none => d
    | some (k, st, data) =>
      (d.setReq id { r with status := st % 8, data := (data ++ List.replicate r.len 0#8).take r.len }).sched (userRound (d.portRatio (.noc q)) k) (.nocResponse id)

/-- The PCIe endpoint: a request to host memory goes out, posted where it writes (R402, R411). -/
def Dev.nocHost (d : Dev) (id : Nat) (r : NocReq) : Dev :=
  if r.reads then (d.emit (.hostRead r.addr r.len)).sched 50000000 (.pcieCompletionTimeout id)
  else (d.emit (.hostWrite r.addr (r.wr.map (fun b => b.getD 0#8)))).nocAnswer id 0

/-- A request is in the hands of its end point. -/
def Dev.nocServe (d : Dev) (id : Nat) (r : NocReq) (ecc : Nat) : Dev :=
  let r := { r with ph := .target }
  let d := d.setReq id r
  if r.host then d.nocHost id r
  else
    let d := d.sched 2048 (.deadTargetTimeout id)
    match decodeReq r.addr r.len with
    | some (.regs _) => d.nocRegs id r
    | some (.flash off) => d.nocFlash id r off ecc
    | some (.bay b off) => d.nocBay id r b off
    | some (.scratch e off) => d.nocScratch id r e off
    | some (.port q _) => d.nocPort id r q
    | some (.gecko _ off) => d.nocGecko id r off ecc
    | some (.dram c off) => d.nocDram id r c off
    | some (.cap off) => d.nocCap id r off
    | none => d

/-! Delivery (R380 to R383). -/

/-- A request meets the domain of its target: isolated, held with a wake, or served; one injected while the domain was CLOSING cancels
the close. -/
def Dev.nocMeets (d : Dev) (id : Nat) (r : NocReq) (k ecc : Nat) : Dev :=
  let h := epHalf r.dst
  let pg := Pg.noc h
  let st := d.domState k
  if d.forced k then
    let d := if (d.nocOf h).isolated.contains k then d
      else (d.setNoc h { d.nocOf h with isolated := k :: (d.nocOf h).isolated }).pend pg 3
    (d.err pg 4 0x1305).nocRefuse id 0 Ns.isolated
  else if st = Ds.opened then d.nocServe id r ecc
  else if st = Ds.closing then
    if r.late then ((d.bump pg F.NOC_CANCEL_CNT).domCancel k).nocServe id r ecc else d.nocServe id r ecc
  else if 4 ≤ d.nocReqs.countP (fun (x : Nat × NocReq) => x.2.ph = .held && x.2.dst = r.dst) then
    (d.bump pg F.NOC_BUSY_CNT).nocRefuse id 0 Ns.busy
  else ((d.setReq id { r with ph := .held, came := d.ck }).bump pg F.NOC_HELD_CNT).nocWake h k

/-- NOC_DELIVERY: the request is at its destination's router; or a read of TAP_POP that waited has its value. -/
def Dev.nocDelivery (d : Dev) (id ecc : Nat) : Dev :=
  match sfind d.nocReqs id with
  | none => d
  | some r =>
    match r.ph with
    | .target => match decodeReq r.addr r.len with
      | some (.regs _) => if r.data = [] then d else d.nocAnswer id 8
      | _ => d
    | .transit =>
      if (d.nocOf (epHalf r.dst)).dead.contains r.dst then d.nocRefuse id 0 Ns.dead
      else match r.dom with
        | some k => d.nocMeets id r k ecc
        | none => d.nocServe id r ecc
    | _ => d

/-! Dead targets (R383). -/

/-- An answer of a request by its router leaves the end point owing one under another number. -/
def Dev.ghost (d : Dev) (id : Nat) : Dev :=
  let g := ghostOf id
  { d with
    nocReqs := match sfind d.nocReqs id with | some r => sput d.nocReqs g r | none => d.nocReqs
    dtx := d.dtx.map (fun (x : Nat × DTx) => if x.2.notify = some (.nocResponse id) then (x.1, { x.2 with notify := some (.nocResponse g) }) else x)
    capReads := d.capReads.map (fun (x : Nat × CapRead) => match x.2.src with
      | .noc n c => if n = id then (x.1, { x.2 with src := .noc g c }) else x
      | _ => x)
    bayQ := d.bayQ.map (fun (x : Nat × List BayReq) =>
      (x.1, x.2.map (fun (q : BayReq) => if q.who = 20 ∧ q.id = id then { q with id := g } else q)))
    spQ := d.spQ.map (fun (x : Nat × List (Nat × Nat)) =>
      (x.1, x.2.map (fun (q : Nat × Nat) => if q.1 / 64 = id then (g * 64 + q.1 % 64, q.2) else q)))
    cq := d.cq.map (fun (x : Nat × CqSt) =>
      (x.1, { x.2 with tapReads := x.2.tapReads.map (fun (q : Nat × TapWho) => if q.2 = .noc id then (q.1, .noc g) else q) }))
    agenda := d.agenda.map (fun (e : Nat × Instr) => if e.2 = .nocResponse id then (e.1, .nocResponse g) else e) }

/-- DEAD_TARGET_TIMEOUT: the end point is declared dead; what is outstanding there is answered DEAD. -/
def Dev.deadTargetTimeout (d : Dev) (id : Nat) : Dev :=
  match sfind d.nocReqs id with
  | none => d
  | some r =>
    let h := epHalf r.dst
    let pg := Pg.noc h
    if r.ph ≠ .target ∨ r.host ∨ (d.nocOf h).dead.contains r.dst then d
    else
      let d := ((d.setNoc h { d.nocOf h with dead := r.dst :: (d.nocOf h).dead }).err pg 1 0x1302).pend pg 0
      let d := if d.flag pg F.NOC_DEAD_FIRST_VALID then d
        else (d.setFld pg F.NOC_DEAD_FIRST_EP r.dst).setFld pg F.NOC_DEAD_FIRST_VALID 1
      let out := d.nocReqs.filter (fun (x : Nat × NocReq) => x.2.ph = .target && x.2.dst = r.dst && decide (x.1 < 2 ^ 40))
      out.foldl (fun (d : Dev) x => (d.ghost x.1).nocRefuse x.1 0 Ns.dead) d

/-! Responses. -/

/-- The units of a request with a poisoned byte. -/
def badUnits (a : Nat) (l : List (Byte × Bool)) : List Nat :=
  ((l.zipIdx).filterMap (fun (p : (Byte × Bool) × Nat) => if p.1.2 then some ((a % 32 + p.2) / 32) else none)).eraseDups

/-- The end point's work on a request is done. -/
def Dev.nocDone (d : Dev) (id : Nat) (r : NocReq) : Dev :=
  match decodeReq r.addr r.len with
  | some (.dram _ _) =>
    match sfind d.dtx r.tx with
    | none => d
    | some t =>
      if ¬ d.txDone t then d
      else
        let d : Dev := { d with dtx := serase d.dtx r.tx }
        let st := match t.resp with | .ok => Ns.ok | .targetBusy => Ns.busy | _ => Ns.error
        (d.setReq id { r with status := st, data := t.bytes.map Prod.fst, bad := badUnits r.addr t.bytes }).nocAnswer id 0
  | some (.cap _) =>
    match d.capReads.find? (fun (x : Nat × CapRead) => x.2.src = .noc id r.cls && x.2.done.isSome) with
    | none => d
    | some (n, c) =>
      match c.done with
      | none => d
      | some (bytes, classes) =>
        let d : Dev := { d with capReads := serase d.capReads n }
        let bad := ((classes.zipIdx).filter (fun (p : Nat × Nat) => decide (p.1 = clsPoisoned))).map (fun p => p.2)
        (d.setReq id { r with data := bytes, bad := bad }).nocAnswer id 1
  | some (.port _ _) => d.nocAnswer id 0
  | _ => d

/-- The completion of a PCIe read (R402, R216). -/
def Dev.pcieDone (d : Dev) (tag : Nat) (r : NocReq) : Dev :=
  if r.status ≠ Ns.ok then d.emit (.cpl .abort [])
  else match decodeReq r.addr r.len with
    | some (.cap off) => d.emit (.bar2 tag r.data (decide (r.bad ≠ []) && d.flag (Pg.idx (capHalf off)) F.IDX_CTRL_EP_EN))
    | _ => d.emit (.cpl .success [BitVec.ofNat 32 (leNat r.data)])

/-- An uncached instruction word comes to its core, if it still waits for it. -/
def Dev.fetched (d : Dev) (k : Nat) (r : NocReq) : Dev :=
  let t := 192 + k
  if ¬ d.mayIssue t ∨ (d.engOf t).pc * 4 % 2 ^ 64 ≠ r.addr then d
  else if r.status ≠ Ns.ok then d.gkFetchTrap k 5 r.addr
  else if r.bad ≠ [] then d.gkFetchTrap k 1 r.addr
  else d.offerWord t (BitVec.ofNat 32 (leNat r.data))

/-- The event by which a DMA channel takes a response. -/
def dmaEvent (k part id : Nat) : Instr :=
  if part = 0 then .dmaDescFetch (chOp k) id none
  else if part = 1 ∨ part = 2 ∨ part % 2 = 1 then .dmaWriteAck (chOp k) id
  else .dmaReadData (chOp k) id none

/-- The response is at its master (R375). -/
def Dev.nocTaken (d : Dev) (id : Nat) (r : NocReq) : Dev :=
  let kept := d.setReq id { r with ph := .done }
  let gone : Dev := { d with nocReqs := serase d.nocReqs id }
  match r.who with
  | .pcie none => gone
  | .pcie (some tag) => gone.pcieDone tag r
  | .load e _ _ _ => kept.sched 0 (.remoteResponse (tgtOp e) id)
  | .store e => kept.sched 0 (.remoteResponse (tgtOp e) id)
  | .cond e _ _ => kept.sched 0 (.remoteResponse (tgtOp e) id)
  | .drain k => kept.sched 0 (.remoteResponse (tgtOp (192 + k)) id)
  | .fetch k => gone.fetched k r
  | .fill k line ins => kept.sched 0 (.cacheLineFill (gkOp k) line ins)
  | .dma ch part => kept.sched 0 (dmaEvent ch part id)
  | .inspect => gone.inspectDone r
  | .mortise _ _ _ => gone

/-- NOC_RESPONSE: the end point has done its work, or the response packet arrives at its master. -/
def Dev.nocResponse (d : Dev) (id : Nat) : Dev :=
  match sfind d.nocReqs id with
  | none => d
  | some r =>
    match r.ph with
    | .target => d.nocDone id r
    | .answer => d.nocTaken id r
    | _ => d

/-! Host memory (R402). -/

/-- PCIE_COMPLETION_TIMEOUT: a read of host memory without completion is answered ERROR. -/
def Dev.pcieCompletionTimeout (d : Dev) (id : Nat) : Dev :=
  match sfind d.nocReqs id with
  | none => d
  | some r => if r.ph = .target ∧ r.host ∧ r.reads then d.nocRefuse id 0 Ns.error else d

/-! The commands. -/

/-- NOC_INJECT (R375). -/
def execNocInject (id : Nat) (wait : Nat) (s : State) : Host.Outcome State Fault Refusal :=
  s.run (.nocInject id wait) (fun d => d.nocInject id wait)

/-- NOC_DELIVERY (R374). -/
def execNocDelivery (id : Nat) (ecc : Fin 3) (s : State) : Host.Outcome State Fault Refusal :=
  s.run (.nocDelivery id ecc) (fun d => d.nocDelivery id ecc.val)

/-- NOC_RESPONSE (R374). -/
def execNocResponse (id : Nat) (s : State) : Host.Outcome State Fault Refusal :=
  s.run (.nocResponse id) (fun d => d.nocResponse id)

/-- DEAD_TARGET_TIMEOUT (R383). -/
def execDeadTargetTimeout (id : Nat) (s : State) : Host.Outcome State Fault Refusal :=
  s.run (.deadTargetTimeout id) (fun d => d.deadTargetTimeout id)

/-- PCIE_COMPLETION_TIMEOUT (R402). -/
def execPcieCompletionTimeout (id : Nat) (s : State) : Host.Outcome State Fault Refusal :=
  s.run (.pcieCompletionTimeout id) (fun d => d.pcieCompletionTimeout id)

end Sys2Proof.Machine
end

