-- ==== Sys2Proof/Machine/HostCmds.lean ====
section
/-! DEFINITION. Writes of several registers by a command: REG_WRITE and REG_READ of the host's ring (R404), mirrored writes of a pair
(R464). -/

namespace Sys2Proof.Machine

/-- REG_WRITE: the pairs in order, each a software write. -/
def Dev.regWriteCmd (d : Dev) : Dev :=
  d.ifCmd .regWrite (fun c =>
    ((List.range (c.at 8 1)).foldl (fun (d : Dev) i => d.busWrite (c.at (16 + 8 * i) 4) (BitVec.ofNat 32 (c.at (20 + 8 * i) 4))) d).cmdEnd 0 0 [])

/-- REG_READ: the offsets in order, each a read; the values are the event's payload. -/
def Dev.regReadCmd (d : Dev) : Dev :=
  d.ifCmd .regRead (fun c =>
    if c.at 8 1 ≤ c.phase then d.cmdEnd 0 0 ((c.vals.map (fun v => leBytes 4 v.toNat)).flatten)
    else match d.readReg (c.at (16 + 8 * c.phase) 4) false .host with
      | (d, some v) => ({ d with hcmd := some { c with phase := c.phase + 1, vals := c.vals ++ [v] } } : Dev).sched 0 .regRead
      | (d, none) => d)

/-- The first mirrored write that is due, and those that stay. -/
def Dev.takeWrite (d : Dev) : List PairWr → Option (PairWr × List PairWr)
  | [] => none
  | w :: r => if d.writeDue w then some (w, r) else (d.takeWrite r).map (fun p => (p.1, w :: p.2))

/-- MIRRORED_WRITE_APPLY (R464): the published LP has reached a write's apply LP. -/
def Dev.mirroredWriteApply (d : Dev) : Dev :=
  match d.takeWrite d.pair.writes with
  | none => d
  | some (w, rest) =>
    let d : Dev := { d with pair := { d.pair with writes := rest } }
    let d := (d.softWrite w.addr w.val).pairApplied w.addr
    if d.pair.writes.any (fun x => d.writeDue x) then d.schedOnce 0 .mirroredWriteApply else d

/-! The commands. -/

/-- REG_WRITE (R404). -/
def execRegWrite (s : State) : Host.Outcome State Fault Refusal :=
  s.run .regWrite (fun d => d.regWriteCmd)

/-- REG_READ (R404). -/
def execRegRead (s : State) : Host.Outcome State Fault Refusal :=
  s.run .regRead (fun d => d.regReadCmd)

/-- MIRRORED_WRITE_APPLY (R464). -/
def execMirroredWriteApply (s : State) : Host.Outcome State Fault Refusal :=
  s.run .mirroredWriteApply (fun d => d.mirroredWriteApply)

end Sys2Proof.Machine
end

