-- ==== Sys2Proof/Machine/IsaAlu.lean ====
section
/-! DEFINITION. The instructions that compute: ALU, immediates, shifts, bit fields, comparisons, predicates, carry-less products,
branches (R161, R165 to R169, Tables 8-2 to 8-4). -/

namespace Sys2Proof.Machine

/-- ADD (R166). -/
def execAdd (e : Fin 196) (dst a b : Fin 32) (s : State) : Host.Outcome State Fault Refusal :=
  s.run (.add e dst a b) (fun d => d.alu e (.add e dst a b) dst [nReg a, nReg b] 1 (fun g => g.reg a + g.reg b))

/-- SUB (R166). -/
def execSub (e : Fin 196) (dst a b : Fin 32) (s : State) : Host.Outcome State Fault Refusal :=
  s.run (.sub e dst a b) (fun d => d.alu e (.sub e dst a b) dst [nReg a, nReg b] 1 (fun g => g.reg a - g.reg b))

/-- ALU_AND (R166). -/
def execAluAnd (e : Fin 196) (dst a b : Fin 32) (s : State) : Host.Outcome State Fault Refusal :=
  s.run (.aluAnd e dst a b) (fun d => d.alu e (.aluAnd e dst a b) dst [nReg a, nReg b] 1 (fun g => g.reg a &&& g.reg b))

/-- ALU_OR (R166). -/
def execAluOr (e : Fin 196) (dst a b : Fin 32) (s : State) : Host.Outcome State Fault Refusal :=
  s.run (.aluOr e dst a b) (fun d => d.alu e (.aluOr e dst a b) dst [nReg a, nReg b] 1 (fun g => g.reg a ||| g.reg b))

/-- ALU_XOR (R166). -/
def execAluXor (e : Fin 196) (dst a b : Fin 32) (s : State) : Host.Outcome State Fault Refusal :=
  s.run (.aluXor e dst a b) (fun d => d.alu e (.aluXor e dst a b) dst [nReg a, nReg b] 1 (fun g => g.reg a ^^^ g.reg b))

/-- ALU_ANDN (R166). -/
def execAluAndn (e : Fin 196) (dst a b : Fin 32) (s : State) : Host.Outcome State Fault Refusal :=
  s.run (.aluAndn e dst a b) (fun d => d.alu e (.aluAndn e dst a b) dst [nReg a, nReg b] 1 (fun g => g.reg a &&& ~~~g.reg b))

/-- SLL (R166). -/
def execSll (e : Fin 196) (dst a b : Fin 32) (s : State) : Host.Outcome State Fault Refusal :=
  s.run (.sll e dst a b) (fun d => d.alu e (.sll e dst a b) dst [nReg a, nReg b] 1 (fun g => Shift.sll.apply (g.reg a) (g.reg b)))

/-- SRL (R166). -/
def execSrl (e : Fin 196) (dst a b : Fin 32) (s : State) : Host.Outcome State Fault Refusal :=
  s.run (.srl e dst a b) (fun d => d.alu e (.srl e dst a b) dst [nReg a, nReg b] 1 (fun g => Shift.srl.apply (g.reg a) (g.reg b)))

/-- SRA (R166). -/
def execSra (e : Fin 196) (dst a b : Fin 32) (s : State) : Host.Outcome State Fault Refusal :=
  s.run (.sra e dst a b) (fun d => d.alu e (.sra e dst a b) dst [nReg a, nReg b] 1 (fun g => Shift.sra.apply (g.reg a) (g.reg b)))

/-- ROL (R166). -/
def execRol (e : Fin 196) (dst a b : Fin 32) (s : State) : Host.Outcome State Fault Refusal :=
  s.run (.rol e dst a b) (fun d => d.alu e (.rol e dst a b) dst [nReg a, nReg b] 1 (fun g => Shift.rol.apply (g.reg a) (g.reg b)))

/-- ROR (R166). -/
def execRor (e : Fin 196) (dst a b : Fin 32) (s : State) : Host.Outcome State Fault Refusal :=
  s.run (.ror e dst a b) (fun d => d.alu e (.ror e dst a b) dst [nReg a, nReg b] 1 (fun g => Shift.ror.apply (g.reg a) (g.reg b)))

/-- MUL (R166). -/
def execMul (e : Fin 196) (dst a b : Fin 32) (s : State) : Host.Outcome State Fault Refusal :=
  s.run (.mul e dst a b) (fun d => d.alu e (.mul e dst a b) dst [nReg a, nReg b] 3 (fun g => g.reg a * g.reg b))

/-- MULHU (R166). -/
def execMulhu (e : Fin 196) (dst a b : Fin 32) (s : State) : Host.Outcome State Fault Refusal :=
  s.run (.mulhu e dst a b) (fun d => d.alu e (.mulhu e dst a b) dst [nReg a, nReg b] 3 (fun g => aluMulhu (g.reg a) (g.reg b)))

/-- SEL (R166). -/
def execSel (e : Fin 196) (dst a b : Fin 32) (p : Fin 8) (s : State) : Host.Outcome State Fault Refusal :=
  s.run (.sel e dst a b p) (fun d => d.alu e (.sel e dst a b p) dst [nReg a, nReg b, pReg p] 1 (fun g => if g.pred p then g.reg a else g.reg b))

/-- CLZ (R166). -/
def execClz (e : Fin 196) (dst a : Fin 32) (s : State) : Host.Outcome State Fault Refusal :=
  s.run (.clz e dst a) (fun d => d.alu e (.clz e dst a) dst [nReg a] 1 (fun g => aluClz (g.reg a)))

/-- POPC (R166). -/
def execPopc (e : Fin 196) (dst a : Fin 32) (s : State) : Host.Outcome State Fault Refusal :=
  s.run (.popc e dst a) (fun d => d.alu e (.popc e dst a) dst [nReg a] 1 (fun g => aluPopc (g.reg a)))

/-- BSWAP (R166). -/
def execBswap (e : Fin 196) (dst a : Fin 32) (s : State) : Host.Outcome State Fault Refusal :=
  s.run (.bswap e dst a) (fun d => d.alu e (.bswap e dst a) dst [nReg a] 1 (fun g => aluBswap (g.reg a)))

/-- ADDI (R161). -/
def execAddi (e : Fin 196) (dst a : Fin 32) (imm : BitVec 16) (s : State) : Host.Outcome State Fault Refusal :=
  s.run (.addi e dst a imm) (fun d => d.alu e (.addi e dst a imm) dst [nReg a] 1 (fun g => g.reg a + sext16 imm))

/-- ANDI (R161). -/
def execAndi (e : Fin 196) (dst a : Fin 32) (imm : BitVec 16) (s : State) : Host.Outcome State Fault Refusal :=
  s.run (.andi e dst a imm) (fun d => d.alu e (.andi e dst a imm) dst [nReg a] 1 (fun g => g.reg a &&& zext16 imm))

/-- ORI (R161). -/
def execOri (e : Fin 196) (dst a : Fin 32) (imm : BitVec 16) (s : State) : Host.Outcome State Fault Refusal :=
  s.run (.ori e dst a imm) (fun d => d.alu e (.ori e dst a imm) dst [nReg a] 1 (fun g => g.reg a ||| zext16 imm))

/-- XORI (R161). -/
def execXori (e : Fin 196) (dst a : Fin 32) (imm : BitVec 16) (s : State) : Host.Outcome State Fault Refusal :=
  s.run (.xori e dst a imm) (fun d => d.alu e (.xori e dst a imm) dst [nReg a] 1 (fun g => g.reg a ^^^ zext16 imm))

/-- SHI_SLL (R162). -/
def execShiSll (e : Fin 196) (dst a : Fin 32) (amt : Fin 64) (s : State) : Host.Outcome State Fault Refusal :=
  s.run (.shiSll e dst a amt) (fun d => d.alu e (.shiSll e dst a amt) dst [nReg a] 1 (fun g => g.reg a <<< amt.val))

/-- SHI_SRL (R162). -/
def execShiSrl (e : Fin 196) (dst a : Fin 32) (amt : Fin 64) (s : State) : Host.Outcome State Fault Refusal :=
  s.run (.shiSrl e dst a amt) (fun d => d.alu e (.shiSrl e dst a amt) dst [nReg a] 1 (fun g => g.reg a >>> amt.val))

/-- SHI_SRA (R162). -/
def execShiSra (e : Fin 196) (dst a : Fin 32) (amt : Fin 64) (s : State) : Host.Outcome State Fault Refusal :=
  s.run (.shiSra e dst a amt) (fun d => d.alu e (.shiSra e dst a amt) dst [nReg a] 1 (fun g => (g.reg a).sshiftRight amt.val))

/-- SHI_ROL (R162). -/
def execShiRol (e : Fin 196) (dst a : Fin 32) (amt : Fin 64) (s : State) : Host.Outcome State Fault Refusal :=
  s.run (.shiRol e dst a amt) (fun d => d.alu e (.shiRol e dst a amt) dst [nReg a] 1 (fun g => (g.reg a).rotateLeft amt.val))

/-- LSI (R161). -/
def execLsi (e : Fin 196) (dst a : Fin 32) (imm : BitVec 16) (s : State) : Host.Outcome State Fault Refusal :=
  s.run (.lsi e dst a imm) (fun d => d.alu e (.lsi e dst a imm) dst [nReg a] 1 (fun g => aluLsi (g.reg a) imm))

/-- EXT (R167). -/
def execExt (e : Fin 196) (dst a : Fin 32) (off len1 : Fin 64) (s : State) : Host.Outcome State Fault Refusal :=
  s.run (.ext e dst a off len1) (fun d => if 64 < off.val + len1.val + 1 then d.reservedForm e
    else d.alu e (.ext e dst a off len1) dst [nReg a] 1 (fun g => bfExt (g.reg a) off.val len1.val))

/-- EXTS (R167). -/
def execExts (e : Fin 196) (dst a : Fin 32) (off len1 : Fin 64) (s : State) : Host.Outcome State Fault Refusal :=
  s.run (.exts e dst a off len1) (fun d => if 64 < off.val + len1.val + 1 then d.reservedForm e
    else d.alu e (.exts e dst a off len1) dst [nReg a] 1 (fun g => bfExts (g.reg a) off.val len1.val))

/-- INS (R167). -/
def execIns (e : Fin 196) (dst a : Fin 32) (off len1 : Fin 64) (s : State) : Host.Outcome State Fault Refusal :=
  s.run (.ins e dst a off len1) (fun d => if 64 < off.val + len1.val + 1 then d.reservedForm e
    else d.alu e (.ins e dst a off len1) dst [nReg a, nReg dst] 1 (fun g => bfIns (g.reg dst) (g.reg a) off.val len1.val))

/-- CMP_EQM (R168). -/
def execCmpEqm (e : Fin 196) (pd : Fin 8) (mode : BitVec 2) (a b mask : Fin 32) (s : State) : Host.Outcome State Fault Refusal :=
  s.run (.cmpEqm e pd mode a b mask) (fun d => if mode = 3#2 then d.reservedForm e
    else d.predOp e (.cmpEqm e pd mode a b mask) pd ([nReg a, nReg b, nReg mask] ++ if mode = 0#2 then [] else [pReg pd])
      (fun g => (combine mode (g.pred pd) (equalUnder (g.reg mask) (g.reg a) (g.reg b))).getD false))

/-- CMP_NEM (R168). -/
def execCmpNem (e : Fin 196) (pd : Fin 8) (mode : BitVec 2) (a b mask : Fin 32) (s : State) : Host.Outcome State Fault Refusal :=
  s.run (.cmpNem e pd mode a b mask) (fun d => if mode = 3#2 then d.reservedForm e
    else d.predOp e (.cmpNem e pd mode a b mask) pd ([nReg a, nReg b, nReg mask] ++ if mode = 0#2 then [] else [pReg pd])
      (fun g => (combine mode (g.pred pd) (!equalUnder (g.reg mask) (g.reg a) (g.reg b))).getD false))

/-- CMP_EQ (R168). -/
def execCmpEq (e : Fin 196) (pd : Fin 8) (mode : BitVec 2) (a b : Fin 32) (s : State) : Host.Outcome State Fault Refusal :=
  s.run (.cmpEq e pd mode a b) (fun d => if mode = 3#2 then d.reservedForm e
    else d.predOp e (.cmpEq e pd mode a b) pd ([nReg a, nReg b] ++ if mode = 0#2 then [] else [pReg pd])
      (fun g => (combine mode (g.pred pd) (Cond.eq.holds (g.reg a) (g.reg b))).getD false))

/-- CMP_NE (R168). -/
def execCmpNe (e : Fin 196) (pd : Fin 8) (mode : BitVec 2) (a b : Fin 32) (s : State) : Host.Outcome State Fault Refusal :=
  s.run (.cmpNe e pd mode a b) (fun d => if mode = 3#2 then d.reservedForm e
    else d.predOp e (.cmpNe e pd mode a b) pd ([nReg a, nReg b] ++ if mode = 0#2 then [] else [pReg pd])
      (fun g => (combine mode (g.pred pd) (Cond.ne.holds (g.reg a) (g.reg b))).getD false))

/-- CMP_LTU (R168). -/
def execCmpLtu (e : Fin 196) (pd : Fin 8) (mode : BitVec 2) (a b : Fin 32) (s : State) : Host.Outcome State Fault Refusal :=
  s.run (.cmpLtu e pd mode a b) (fun d => if mode = 3#2 then d.reservedForm e
    else d.predOp e (.cmpLtu e pd mode a b) pd ([nReg a, nReg b] ++ if mode = 0#2 then [] else [pReg pd])
      (fun g => (combine mode (g.pred pd) (Cond.ltu.holds (g.reg a) (g.reg b))).getD false))

/-- CMP_GEU (R168). -/
def execCmpGeu (e : Fin 196) (pd : Fin 8) (mode : BitVec 2) (a b : Fin 32) (s : State) : Host.Outcome State Fault Refusal :=
  s.run (.cmpGeu e pd mode a b) (fun d => if mode = 3#2 then d.reservedForm e
    else d.predOp e (.cmpGeu e pd mode a b) pd ([nReg a, nReg b] ++ if mode = 0#2 then [] else [pReg pd])
      (fun g => (combine mode (g.pred pd) (Cond.geu.holds (g.reg a) (g.reg b))).getD false))

/-- CMP_LT (R168). -/
def execCmpLt (e : Fin 196) (pd : Fin 8) (mode : BitVec 2) (a b : Fin 32) (s : State) : Host.Outcome State Fault Refusal :=
  s.run (.cmpLt e pd mode a b) (fun d => if mode = 3#2 then d.reservedForm e
    else d.predOp e (.cmpLt e pd mode a b) pd ([nReg a, nReg b] ++ if mode = 0#2 then [] else [pReg pd])
      (fun g => (combine mode (g.pred pd) (Cond.lt.holds (g.reg a) (g.reg b))).getD false))

/-- CMP_GE (R168). -/
def execCmpGe (e : Fin 196) (pd : Fin 8) (mode : BitVec 2) (a b : Fin 32) (s : State) : Host.Outcome State Fault Refusal :=
  s.run (.cmpGe e pd mode a b) (fun d => if mode = 3#2 then d.reservedForm e
    else d.predOp e (.cmpGe e pd mode a b) pd ([nReg a, nReg b] ++ if mode = 0#2 then [] else [pReg pd])
      (fun g => (combine mode (g.pred pd) (Cond.ge.holds (g.reg a) (g.reg b))).getD false))

/-- CMPI_EQ (R168). -/
def execCmpiEq (e : Fin 196) (pd : Fin 8) (a : Fin 32) (imm : BitVec 16) (s : State) : Host.Outcome State Fault Refusal :=
  s.run (.cmpiEq e pd a imm) (fun d => d.predOp e (.cmpiEq e pd a imm) pd [nReg a] (fun g => Cond.eq.holds (g.reg a) (sext16 imm)))

/-- CMPI_NE (R168). -/
def execCmpiNe (e : Fin 196) (pd : Fin 8) (a : Fin 32) (imm : BitVec 16) (s : State) : Host.Outcome State Fault Refusal :=
  s.run (.cmpiNe e pd a imm) (fun d => d.predOp e (.cmpiNe e pd a imm) pd [nReg a] (fun g => Cond.ne.holds (g.reg a) (sext16 imm)))

/-- CMPI_LTU (R168). -/
def execCmpiLtu (e : Fin 196) (pd : Fin 8) (a : Fin 32) (imm : BitVec 16) (s : State) : Host.Outcome State Fault Refusal :=
  s.run (.cmpiLtu e pd a imm) (fun d => d.predOp e (.cmpiLtu e pd a imm) pd [nReg a] (fun g => Cond.ltu.holds (g.reg a) (sext16 imm)))

/-- CMPI_GEU (R168). -/
def execCmpiGeu (e : Fin 196) (pd : Fin 8) (a : Fin 32) (imm : BitVec 16) (s : State) : Host.Outcome State Fault Refusal :=
  s.run (.cmpiGeu e pd a imm) (fun d => d.predOp e (.cmpiGeu e pd a imm) pd [nReg a] (fun g => Cond.geu.holds (g.reg a) (sext16 imm)))

/-- PRED_AND (R168). -/
def execPredAnd (e : Fin 196) (pd pa pb : Fin 8) (s : State) : Host.Outcome State Fault Refusal :=
  s.run (.predAnd e pd pa pb) (fun d => d.predOp e (.predAnd e pd pa pb) pd [pReg pa, pReg pb] (fun g => g.pred pa && g.pred pb))

/-- PRED_OR (R168). -/
def execPredOr (e : Fin 196) (pd pa pb : Fin 8) (s : State) : Host.Outcome State Fault Refusal :=
  s.run (.predOr e pd pa pb) (fun d => d.predOp e (.predOr e pd pa pb) pd [pReg pa, pReg pb] (fun g => g.pred pa || g.pred pb))

/-- PRED_XOR (R168). -/
def execPredXor (e : Fin 196) (pd pa pb : Fin 8) (s : State) : Host.Outcome State Fault Refusal :=
  s.run (.predXor e pd pa pb) (fun d => d.predOp e (.predXor e pd pa pb) pd [pReg pa, pReg pb] (fun g => g.pred pa ^^ g.pred pb))

/-- PRED_ANDN (R168). -/
def execPredAndn (e : Fin 196) (pd pa pb : Fin 8) (s : State) : Host.Outcome State Fault Refusal :=
  s.run (.predAndn e pd pa pb) (fun d => d.predOp e (.predAndn e pd pa pb) pd [pReg pa, pReg pb] (fun g => g.pred pa && !g.pred pb))

/-- PRED_SET (R168). -/
def execPredSet (e : Fin 196) (pd : Fin 8) (s : State) : Host.Outcome State Fault Refusal :=
  s.run (.predSet e pd) (fun d => d.predOp e (.predSet e pd) pd [] (fun _ => true))

/-- PRED_CLR (R168). -/
def execPredClr (e : Fin 196) (pd : Fin 8) (s : State) : Host.Outcome State Fault Refusal :=
  s.run (.predClr e pd) (fun d => d.predOp e (.predClr e pd) pd [] (fun _ => false))

/-- CLMUL_LO (R169). -/
def execClmulLo (e : Fin 196) (dst a b : Fin 32) (s : State) : Host.Outcome State Fault Refusal :=
  s.run (.clmulLo e dst a b) (fun d => d.alu e (.clmulLo e dst a b) dst [nReg a, nReg b] 2 (fun g => clmulLo (g.reg a) (g.reg b)))

/-- CLMUL_HI (R169). -/
def execClmulHi (e : Fin 196) (dst a b : Fin 32) (s : State) : Host.Outcome State Fault Refusal :=
  s.run (.clmulHi e dst a b) (fun d => d.alu e (.clmulHi e dst a b) dst [nReg a, nReg b] 2 (fun g => clmulHi (g.reg a) (g.reg b)))

/-- The link of JAL and JR: index + 1, modulo 8,192 on a Newt engine (R165). -/
def linkOf (e : Fin 196) (pc : Nat) : Word64 := BitVec.ofNat 64 (if e.val < 192 then (pc + 1) % 8192 else (pc + 1) % 2 ^ 62)

/-- BR (R165). -/
def execBr (e : Fin 196) (sense : Bool) (p : Fin 8) (imm : BitVec 16) (s : State) : Host.Outcome State Fault Refusal :=
  s.run (.br e sense p imm) (fun d => d.issue e (.br e sense p imm) { reads := [pReg p], alone := true } (fun d =>
    let g := d.engOf e.val
    if g.pred p = sense then d.jump e.val (BitVec.ofNat 64 g.pc + sext16 imm).toNat else d.next e.val))

/-- JAL (R165). -/
def execJal (e : Fin 196) (dst : Fin 32) (imm : BitVec 16) (s : State) : Host.Outcome State Fault Refusal :=
  s.run (.jal e dst imm) (fun d => d.issue e (.jal e dst imm) { writes := [nReg dst], alone := true } (fun d =>
    let pc := (d.engOf e.val).pc
    (d.result e.val dst (linkOf e pc) 1 false).jump e.val (BitVec.ofNat 64 pc + sext16 imm).toNat))

/-- JR (R165). -/
def execJr (e : Fin 196) (dst a : Fin 32) (imm : BitVec 16) (s : State) : Host.Outcome State Fault Refusal :=
  s.run (.jr e dst a imm) (fun d => d.issue e (.jr e dst a imm) { reads := [nReg a], writes := [nReg dst], alone := true } (fun d =>
    let g := d.engOf e.val
    (d.result e.val dst (linkOf e g.pc) 1 false).jump e.val (g.reg a + sext16 imm).toNat))

end Sys2Proof.Machine
end

