-- ==== Sys2Proof/Machine/Pcie.lean ====
section
/-! DEFINITION. The PCIe endpoint: requests to its BARs, the MSI-X table and its pending bits, PERST_N (R328, R402, R476, R482). -/

namespace Sys2Proof.Machine

/-- Four bytes under byte enables. -/
def mergeBe (old new : Word) (be : BitVec 4) : Word :=
  ofWords 32 [BitVec.ofNat 32 (leNat ((List.range 4).map (fun i => if bit be.toNat i then byteOf new.toNat i else byteOf old.toNat i)))]

/-- A dword of the MSI-X table is written: of the last of an entry only the mask; an unmasked vector whose message waits is sent (R482). -/
def Dev.msixPut (d : Dev) (v w : Nat) (val : Word) (be : BitVec 4) : Dev :=
  let e := sget msixReset d.msix v
  let x := mergeBe (eword e w) val be
  let x := if w = 3 then x &&& 1#32 else x
  let e' : BitVec 128 := BitVec.ofNat 128 (bitsPut e.toNat (32 * w) 32 x.toNat)
  let d : Dev := { d with msix := sset msixReset d.msix v e' }
  if bit e'.toNat 96 ∨ ¬ d.msixPend.contains v then d
  else ({ d with msixPend := d.msixPend.filter (fun n => decide (n ≠ v)) } : Dev).sendVec v

/-- A write to BAR4: the table; the pending-bit array is read only. -/
def Dev.bar4Write (d : Dev) (off : Nat) (be : List (BitVec 4)) (data : List Word) : Dev :=
  (((data.zip be).zipIdx).foldl (fun (d : Dev) (p : (Word × BitVec 4) × Nat) =>
    let a := off / 4 * 4 + 4 * p.2
    if a < 0x400 then d.msixPut (a / 16) (a % 16 / 4) p.1.1 p.1.2 else d) d)

/-- A dword of BAR4. -/
def Dev.bar4Word (d : Dev) (a : Nat) : Word :=
  if a < 0x400 then eword (sget msixReset d.msix (a / 16)) (a % 16 / 4)
  else if a = 0x1000 ∨ a = 0x1004 then BitVec.ofNat 32 (flagWord ((List.range 32).map (fun i => d.msixPend.contains (i + 8 * (a - 0x1000)))))
  else 0#32

/-- A BAR0 request that is not one full dword: nothing is done, it counts (R476). -/
def Dev.bar0Malformed (d : Dev) : Dev := d.err Pg.hostif 1 0x1422

/-- The endpoint as a master of the network: class 0. -/
def Dev.pcieSend (d : Dev) (tag : Option Nat) (addr len : Nat) (wr : List Byte) : Dev :=
  d.nocSend { who := .pcie tag, src := Ep.pcie, op := if tag.isSome then .read else .write, addr := addr, len := len, wr := wr.map some, cls := 0 }

/-- The enabled bytes of a read: the first one and how many up to the last. -/
def beSpan (be : List (BitVec 4)) : Option (Nat × Nat) :=
  let on := (List.range (4 * be.length)).filter (fun i => bit (be.getD (i / 4) 0#4).toNat (i % 4))
  match on with
  | [] => none
  | i :: _ => some (i, on.getLastD i + 1 - i)

/-- Does the request carry one dword with all four byte enables? -/
def oneDword (be : List (BitVec 4)) : Bool := be = [0xF#4]

/-- What the registers show before the halves leave reset: RST_CAUSE alone (Table 16-3). -/
def Dev.earlyRead (d : Dev) (bar off : Nat) (be : List (BitVec 4)) : Dev :=
  if bar = 0 ∧ oneDword be ∧ (off = raddr (Pg.clkrst 0) 0x10C ∨ off = raddr (Pg.clkrst 1) 0x10C) then
    d.emit (.cpl .success [d.reg (off / 4096) 0x10C])
  else d.emit (.cpl .unsupported [])

/-- PCIE_REQUEST: by its BAR a register access, a read of the capture space, an access of the MSI-X table (R402, Table 20-4). None
reaches an endpoint that is absent or held in reset. -/
def Dev.pcieRequest (d : Dev) (t : Tlp) : Dev :=
  if d.ins.perstLow ∨ ¬ (d.rst = .aonUp ∨ d.rst = .running) then d
  else match t with
    | .write bar off be data =>
      if d.rst = .aonUp then d
      else if bar = 0 ∧ off < 2 ^ 26 then
        match oneDword be, data with
        | true, [v] => d.pcieSend none (Na.reg + off) 4 (leBytes 4 v.toNat)
        | _, _ => d.bar0Malformed
      else if bar = 2 ∧ off < 2 ^ 53 then d.bar2Write off
      else if bar = 4 then d.bar4Write off be data
      else d
    | .read tag bar off be =>
      if d.rst = .aonUp then d.earlyRead bar off be
      else if bar = 0 ∧ off < 2 ^ 26 then
        if oneDword be then d.pcieSend (some tag) (Na.reg + off) 4 [] else d.bar0Malformed.emit (.cpl .abort [])
      else if bar = 2 ∧ off < 2 ^ 53 then
        match beSpan be with
        | none => d.emit (.bar2 tag [] false)
        | some (i, n) => d.pcieSend (some tag) (Na.cap + off / 4 * 4 + i) n []
      else if bar = 4 ∧ off < 0x2000 then
        d.emit (.cpl .success ((List.range be.length).map (fun j => d.bar4Word (off / 4 * 4 + 4 * j))))
      else d.emit (.cpl .unsupported [])

/-- PERST_N: low, it resets the link and the configuration space; the MSI-X table is masked again as PCI Express resets it, all else keeps
running (R328, R402). -/
def Dev.perstN (d : Dev) (low : Bool) : Dev :=
  let d : Dev := { d with ins := { d.ins with perstLow := low } }
  if low then { d with msix := [], msixPend := [] } else d

/-! The commands. -/

/-- PCIE_REQUEST (R402). -/
def execPcieRequest (tlp : Tlp) (s : State) : Host.Outcome State Fault Refusal :=
  s.cmdAlways (fun d => d.pcieRequest tlp)

/-- PERST_N (R328). -/
def execPerstN (low : Bool) (s : State) : Host.Outcome State Fault Refusal :=
  s.cmdAlways (fun d => d.perstN low)

end Sys2Proof.Machine
end

