-- ==== Sys2Proof/Machine/RegRows.lean ====
section
/-! DEFINITION. The rows that are a software write or a read of one register: each goes the way of a write of its register, common
rules included (R6 to R10, R464, R475). -/

namespace Sys2Proof.Machine

/-- A write that sets bits of a control register and leaves its other fields as they read. -/
def Dev.busSet (d : Dev) (pg off bits : Nat) : Dev :=
  d.busWrite (raddr pg off) (d.reg pg off ||| BitVec.ofNat 32 bits)

/-! The commands. -/

/-- REGISTER_WRITE (R8). -/
def execRegisterWrite (addr : Nat) (val : Word) (s : State) : Host.Outcome State Fault Refusal :=
  s.checked (wfAddr addr) (fun d => d.busWrite addr val)

/-- UNOCCUPIED_OFFSET_READ (R10). -/
def execUnoccupiedOffsetRead (addr : Nat) (peek : Bool) (s : State) : Host.Outcome State Fault Refusal :=
  s.checked (wfAddr addr) (fun d => d.readOut addr peek)

/-- LATCHING_READ (R480). -/
def execLatchingRead (addr : Nat) (peek : Bool) (s : State) : Host.Outcome State Fault Refusal :=
  s.checked (wfAddr addr) (fun d => d.readOut addr peek)

/-- COUNTER_CLEAR (R9). -/
def execCounterClear (addr : Nat) (val : Word) (eventInCk : Bool) (s : State) : Host.Outcome State Fault Refusal :=
  s.checked (wfAddr addr) (fun d => d.counterClear addr val eventInCk)

/-- ERR_FIRST_CLEAR (R477). -/
def execErrFirstClear (page : Nat) (_val : Word) (errInCk : Option (Fin 8 × BitVec 16)) (s : State) : Host.Outcome State Fault Refusal :=
  s.checked (wfPage page) (fun d => d.onPage page (fun d => d.errFirstWrite page errInCk))

/-- INT_PEND_CLEAR (R481). -/
def execIntPendClear (page : Nat) (val : Word) (hwSet : Word) (s : State) : Host.Outcome State Fault Refusal :=
  s.checked (wfPage page) (fun d => d.onPage page (fun d => d.intPendWrite page val hwSet))

/-- INT_FORCE (R474). -/
def execIntForce (page : Nat) (val : Word) (s : State) : Host.Outcome State Fault Refusal :=
  s.checked (wfPage page) (fun d => d.busWrite (raddr page 0x018) val)

/-- INT_EN_WRITE (R481). -/
def execIntEnWrite (page : Nat) (val : Word) (s : State) : Host.Outcome State Fault Refusal :=
  s.checked (wfPage page) (fun d => d.busWrite (raddr page 0x014) val)

/-- DEV_CFG_LOCK (R484). -/
def execDevCfgLock (s : State) : Host.Outcome State Fault Refusal :=
  s.cmd (fun d => d.busWrite (raddr Pg.dev 0x10C) 1#32)

/-- LANE_CFG_WRITE (R64). -/
def execLaneCfgWrite (n : Fin 64) (val : Word) (s : State) : Host.Outcome State Fault Refusal :=
  s.cmd (fun d => d.busWrite (raddr (Pg.lane n) 0x100) val)

/-- HOLD_WRITE (R59). -/
def execHoldWrite (n : Fin 64) (val : Word) (s : State) : Host.Outcome State Fault Refusal :=
  s.cmd (fun d => d.busWrite (raddr (Pg.lane n) 0x104) val)

/-- ALIGN_RETRY (R52). -/
def execAlignRetry (n : Fin 64) (val : Word) (s : State) : Host.Outcome State Fault Refusal :=
  s.cmd (fun d => d.busWrite (raddr (Pg.lane n) 0x108) val)

/-- LPC_REF_WRITE (R68). -/
def execLpcRefWrite (val : Word) (s : State) : Host.Outcome State Fault Refusal :=
  s.cmd (fun d => d.busWrite (raddr (Pg.lpc 0) 0x100) val)

/-- LPC_SYN_INC_WRITE (R68). -/
def execLpcSynIncWrite (hi : Bool) (val : Word) (s : State) : Host.Outcome State Fault Refusal :=
  s.cmd (fun d => d.busWrite (raddr (Pg.lpc 0) (if hi then 0x108 else 0x104)) val)

/-- LPC_ANCHOR_WRITE (R68). -/
def execLpcAnchorWrite (hi : Bool) (val : Word) (s : State) : Host.Outcome State Fault Refusal :=
  s.cmd (fun d => d.busWrite (raddr (Pg.lpc 0) (if hi then 0x110 else 0x10C)) val)

/-- SIEVE_DEFAULT_WRITE (R114). -/
def execSieveDefaultWrite (q : Fin 16) (val : Word) (s : State) : Host.Outcome State Fault Refusal :=
  s.cmd (fun d => d.busWrite (raddr (Pg.sieve q) 0x148) val)

/-- STRIPE_WRITE (R187). -/
def execStripeWrite (h : Half) (off : Fin 4096) (val : Word) (s : State) : Host.Outcome State Fault Refusal :=
  s.cmd (fun d => d.busWrite (raddr (Pg.plu h.val) off) val)

/-- CQ_FLUSH (R211). -/
def execCqFlush (h : Half) (s : State) : Host.Outcome State Fault Refusal :=
  s.cmd (fun d => d.busSet (Pg.cq h.val) 0x008 1)

/-- SEEK_GO (R223). -/
def execSeekGo (h : Half) (val : Word) (s : State) : Host.Outcome State Fault Refusal :=
  s.cmd (fun d => d.busWrite (raddr (Pg.idx h.val) 0x110) (val ||| BitVec.ofNat 32 (2 ^ 31)))

/-- DESC_READ (R225). -/
def execDescRead (h : Half) (s : State) : Host.Outcome State Fault Refusal :=
  s.run (.descRead h) (fun d => d.descRead h.val)

/-- RETRAIN_WRITE (R250). -/
def execRetrainWrite (c : Fin 16) (s : State) : Host.Outcome State Fault Refusal :=
  s.cmd (fun d => d.busSet (Pg.drc c) 0x008 2)

/-- MEMI_REGION_WRITE (R262). -/
def execMemiRegionWrite (c : Fin 16) (k : Fin 33) (val : Word) (s : State) : Host.Outcome State Fault Refusal :=
  s.cmd (fun d => d.busWrite (raddr (Pg.memi c) (0x100 + 4 * k.val)) val)

/-- DEVFAIL_WRITE (R270). -/
def execDevfailWrite (c : Fin 16) (val : Word) (s : State) : Host.Outcome State Fault Refusal :=
  s.cmd (fun d => d.busWrite (raddr (Pg.memi c) 0x184) val)

/-- REGION_INIT (R273). -/
def execRegionInit (c : Fin 16) (r : Fin 16) (s : State) : Host.Outcome State Fault Refusal :=
  s.cmd (fun d => d.busSet (Pg.memi c) (0x104 + 8 * r.val) (2 ^ 29))

/-- LOG_CLR (R274). -/
def execLogClr (c : Fin 16) (s : State) : Host.Outcome State Fault Refusal :=
  s.cmd (fun d => d.busSet (Pg.memi c) 0x008 2)

/-- RETIREMENT_WRITE (R275). -/
def execRetirementWrite (c : Fin 16) (k : Fin 64) (val : Word) (s : State) : Host.Outcome State Fault Refusal :=
  s.cmd (fun d => d.busWrite (raddr (Pg.memi c) (0x200 + 4 * k.val)) val)

/-- CRYPT_RANGE_WRITE (R279). -/
def execCryptRangeWrite (h : Half) (k : Fin 8) (reg : Fin 6) (val : Word) (s : State) : Host.Outcome State Fault Refusal :=
  s.cmd (fun d => d.busWrite (raddr (Pg.crypt h.val) (0x100 + 0x20 * k.val + 4 * reg.val)) val)

/-- CRYPT_INIT (R284). -/
def execCryptInit (h : Half) (k : Fin 8) (s : State) : Host.Outcome State Fault Refusal :=
  s.cmd (fun d => d.busSet (Pg.crypt h.val) (0x110 + 0x20 * k.val) (2 ^ 11))

/-- LOAD_SLOT (R294). -/
def execLoadSlot (h : Half) (k : Fin 8) (slot : Fin 16) (s : State) : Host.Outcome State Fault Refusal :=
  s.cmd (fun d => d.busWrite (raddr (Pg.crypt h.val) 0x228) (BitVec.ofNat 32 (1 + 2 ^ 8 * k.val + 2 ^ 12 * slot.val)))

/-- UNWRAP (R294). -/
def execUnwrap (h : Half) (k : Fin 8) (slot : Fin 16) (s : State) : Host.Outcome State Fault Refusal :=
  s.cmd (fun d => d.busWrite (raddr (Pg.crypt h.val) 0x228) (BitVec.ofNat 32 (2 + 2 ^ 8 * k.val + 2 ^ 12 * slot.val)))

/-- RESEAL (R293). -/
def execReseal (h : Half) (val : Word) (s : State) : Host.Outcome State Fault Refusal :=
  s.cmd (fun d => d.busWrite (raddr (Pg.crypt h.val) 0x230) val)

end Sys2Proof.Machine
end

