-- ==== Sys2Proof/Machine/Release.lean ====
section
/-! DEFINITION. How the device leaves reset (R330, Table 16-3, R395, R397, R507). -/

namespace Sys2Proof.Machine

/-- RESET_RELEASE: t0, the straps are sampled. -/
def Dev.resetRelease (d : Dev) (pairSide halfSteward cfgAuto : Bool) (pullSel : BitVec 8) : Dev :=
  if d.rst ≠ .held ∨ d.sources ≠ [] then d
  else
    let d : Dev := { d with rst := .released,
                            ins := { d.ins with pairSide := pairSide, halfSteward := halfSteward, cfgAuto := cfgAuto, pullSel := pullSel } }
    let d := ((d.setFld Pg.steward F.STEWARD_STAT_ROLE_N (b01 halfSteward)).setFld Pg.steward F.STEWARD_STAT_ROLE_S
      (b01 (!halfSteward))).setFld Pg.steward F.STEWARD_STAT_STRAP (b01 halfSteward)
    ((d.setFld Pg.pair F.PAIR_STAT_SIDE (b01 pairSide)).setFld Pg.cfg F.CFG_STAT_AUTO (b01 cfgAuto)).sched 20000 .ckPllLock

/-- CK_PLL_LOCK: CK 0 of the release. -/
def Dev.ckPllLock (d : Dev) : Dev :=
  if d.rst ≠ .released then d
  else
    let d : Dev := { d with rst := .ckLocked, ck := 0, log := {}, agenda := [] }
    let d := [0, 1].foldl (fun (d : Dev) h => d.setFld (Pg.clkrst h) F.CLKRST_STAT_CK_LOCK 1) d
    ((d.sched 10000 .fuseRead).sched 40000 .alwaysOnUp).sched 50000 .halvesOutOfReset

/-- FUSE_READ: CK 10,000. -/
def Dev.fuseRead (d : Dev) : Dev := if d.rst ≠ .ckLocked then d else { d with rst := .fusesRead }

/-- ALWAYS_ON_UP: CK 40,000. -/
def Dev.alwaysOnUp (d : Dev) : Dev := if d.rst ≠ .fusesRead then d else { d with rst := .aonUp }

/-- HALVES_OUT_OF_RESET: CK 50,000, from which CK counts; the boot begins, and a load from the flash where the strap asks for one. -/
def Dev.halvesOutOfReset (d : Dev) : Dev :=
  if d.rst ≠ .aonUp then d
  else
    let d := ({ d with rst := .running, ck := 0, log := {}, agenda := [] } : Dev).bootStart
    if d.ins.cfgAuto then d.portGo 1 true else d

/-! The commands. -/

/-- RESET_RELEASE (R330). -/
def execResetRelease (pairSide halfSteward cfgAuto : Bool) (pullSel : BitVec 8) (s : State) : Host.Outcome State Fault Refusal :=
  s.runAlways (.resetRelease pairSide halfSteward cfgAuto pullSel) (fun d => d.resetRelease pairSide halfSteward cfgAuto pullSel)

/-- CK_PLL_LOCK (R330). -/
def execCkPllLock (s : State) : Host.Outcome State Fault Refusal :=
  s.runAlways .ckPllLock (fun d => d.ckPllLock)

/-- FUSE_READ (R330). -/
def execFuseRead (s : State) : Host.Outcome State Fault Refusal :=
  s.runAlways .fuseRead (fun d => d.fuseRead)

/-- ALWAYS_ON_UP (R330). -/
def execAlwaysOnUp (s : State) : Host.Outcome State Fault Refusal :=
  s.runAlways .alwaysOnUp (fun d => d.alwaysOnUp)

/-- HALVES_OUT_OF_RESET (R330). -/
def execHalvesOutOfReset (s : State) : Host.Outcome State Fault Refusal :=
  s.runAlways .halvesOutOfReset (fun d => d.halvesOutOfReset)

end Sys2Proof.Machine
end

