-- ==== Sys2Proof/Machine/Dispatch.lean ====
section
/-! DEFINITION. One arm per command: a direct call of its meaning. -/

namespace Sys2Proof.Machine

def exec (i : Instr) (s : State) : Host.Outcome State Fault Refusal :=
  match i with
  | .pcieCompletionTimeout id => Sys2Proof.Machine.execPcieCompletionTimeout id s
  | .modeRequest val safeInCk => Sys2Proof.Machine.execModeRequest val safeInCk s
  | .modeTransitionDone => Sys2Proof.Machine.execModeTransitionDone s
  | .offloadDrainDone => Sys2Proof.Machine.execOffloadDrainDone s
  | .safeEntryDone => Sys2Proof.Machine.execSafeEntryDone s
  | .readyEntry => Sys2Proof.Machine.execReadyEntry s
  | .alignTimeout n => Sys2Proof.Machine.execAlignTimeout n s
  | .passThroughSymbol n => Sys2Proof.Machine.execPassThroughSymbol n s
  | .lpcFirstAnchor h => Sys2Proof.Machine.execLpcFirstAnchor h s
  | .lpcRateWindow h => Sys2Proof.Machine.execLpcRateWindow h s
  | .lrefTimeout => Sys2Proof.Machine.execLrefTimeout s
  | .lpcAlignWord h => Sys2Proof.Machine.execLpcAlignWord h s
  | .followerFreewheel h => Sys2Proof.Machine.execFollowerFreewheel h s
  | .evsEntryDue h => Sys2Proof.Machine.execEvsEntryDue h s
  | .sieveMatchEvent n => Sys2Proof.Machine.execSieveMatchEvent n s
  | .sieveOutcome n => Sys2Proof.Machine.execSieveOutcome n s
  | .seqEvaluate h q => Sys2Proof.Machine.execSeqEvaluate h q s
  | .seqTimerExpiry h q => Sys2Proof.Machine.execSeqTimerExpiry h q s
  | .trigBridgeWord h => Sys2Proof.Machine.execTrigBridgeWord h s
  | .actionArrival => Sys2Proof.Machine.execActionArrival s
  | .queueAllocation h => Sys2Proof.Machine.execQueueAllocation h s
  | .queueUnit h => Sys2Proof.Machine.execQueueUnit h s
  | .gapMarkerClose h flow => Sys2Proof.Machine.execGapMarkerClose h flow s
  | .recordOffer e => Sys2Proof.Machine.execRecordOffer e s
  | .scratchpadRequest e bank ecc => Sys2Proof.Machine.execScratchpadRequest e bank ecc s
  | .scratchpadBusyTimeout id => Sys2Proof.Machine.execScratchpadBusyTimeout id s
  | .bayMemArbitrate b bank ports ecc => Sys2Proof.Machine.execBayMemArbitrate b bank ports ecc s
  | .memTestRegion mem region pass => Sys2Proof.Machine.execMemTestRegion mem region pass s
  | .flowHandover h flow bad => Sys2Proof.Machine.execFlowHandover h flow bad s
  | .engineTrap e cause retry addr => Sys2Proof.Machine.execEngineTrap e cause retry addr s
  | .taskLimitExpiry e => Sys2Proof.Machine.execTaskLimitExpiry e s
  | .remoteResponse e id => Sys2Proof.Machine.execRemoteResponse e id s
  | .add e dst a b => Sys2Proof.Machine.execAdd e dst a b s
  | .sub e dst a b => Sys2Proof.Machine.execSub e dst a b s
  | .aluAnd e dst a b => Sys2Proof.Machine.execAluAnd e dst a b s
  | .aluOr e dst a b => Sys2Proof.Machine.execAluOr e dst a b s
  | .aluXor e dst a b => Sys2Proof.Machine.execAluXor e dst a b s
  | .aluAndn e dst a b => Sys2Proof.Machine.execAluAndn e dst a b s
  | .sll e dst a b => Sys2Proof.Machine.execSll e dst a b s
  | .srl e dst a b => Sys2Proof.Machine.execSrl e dst a b s
  | .sra e dst a b => Sys2Proof.Machine.execSra e dst a b s
  | .rol e dst a b => Sys2Proof.Machine.execRol e dst a b s
  | .ror e dst a b => Sys2Proof.Machine.execRor e dst a b s
  | .mul e dst a b => Sys2Proof.Machine.execMul e dst a b s
  | .mulhu e dst a b => Sys2Proof.Machine.execMulhu e dst a b s
  | .sel e dst a b p => Sys2Proof.Machine.execSel e dst a b p s
  | .clz e dst a => Sys2Proof.Machine.execClz e dst a s
  | .popc e dst a => Sys2Proof.Machine.execPopc e dst a s
  | .bswap e dst a => Sys2Proof.Machine.execBswap e dst a s
  | .addi e dst a imm => Sys2Proof.Machine.execAddi e dst a imm s
  | .andi e dst a imm => Sys2Proof.Machine.execAndi e dst a imm s
  | .ori e dst a imm => Sys2Proof.Machine.execOri e dst a imm s
  | .xori e dst a imm => Sys2Proof.Machine.execXori e dst a imm s
  | .shiSll e dst a amt => Sys2Proof.Machine.execShiSll e dst a amt s
  | .shiSrl e dst a amt => Sys2Proof.Machine.execShiSrl e dst a amt s
  | .shiSra e dst a amt => Sys2Proof.Machine.execShiSra e dst a amt s
  | .shiRol e dst a amt => Sys2Proof.Machine.execShiRol e dst a amt s
  | .lsi e dst a imm => Sys2Proof.Machine.execLsi e dst a imm s
  | .ext e dst a off len1 => Sys2Proof.Machine.execExt e dst a off len1 s
  | .exts e dst a off len1 => Sys2Proof.Machine.execExts e dst a off len1 s
  | .ins e dst a off len1 => Sys2Proof.Machine.execIns e dst a off len1 s
  | .cmpEqm e pd mode a b mask => Sys2Proof.Machine.execCmpEqm e pd mode a b mask s
  | .cmpNem e pd mode a b mask => Sys2Proof.Machine.execCmpNem e pd mode a b mask s
  | .cmpEq e pd mode a b => Sys2Proof.Machine.execCmpEq e pd mode a b s
  | .cmpNe e pd mode a b => Sys2Proof.Machine.execCmpNe e pd mode a b s
  | .cmpLtu e pd mode a b => Sys2Proof.Machine.execCmpLtu e pd mode a b s
  | .cmpGeu e pd mode a b => Sys2Proof.Machine.execCmpGeu e pd mode a b s
  | .cmpLt e pd mode a b => Sys2Proof.Machine.execCmpLt e pd mode a b s
  | .cmpGe e pd mode a b => Sys2Proof.Machine.execCmpGe e pd mode a b s
  | .cmpiEq e pd a imm => Sys2Proof.Machine.execCmpiEq e pd a imm s
  | .cmpiNe e pd a imm => Sys2Proof.Machine.execCmpiNe e pd a imm s
  | .cmpiLtu e pd a imm => Sys2Proof.Machine.execCmpiLtu e pd a imm s
  | .cmpiGeu e pd a imm => Sys2Proof.Machine.execCmpiGeu e pd a imm s
  | .predAnd e pd pa pb => Sys2Proof.Machine.execPredAnd e pd pa pb s
  | .predOr e pd pa pb => Sys2Proof.Machine.execPredOr e pd pa pb s
  | .predXor e pd pa pb => Sys2Proof.Machine.execPredXor e pd pa pb s
  | .predAndn e pd pa pb => Sys2Proof.Machine.execPredAndn e pd pa pb s
  | .predSet e pd => Sys2Proof.Machine.execPredSet e pd s
  | .predClr e pd => Sys2Proof.Machine.execPredClr e pd s
  | .clmulLo e dst a b => Sys2Proof.Machine.execClmulLo e dst a b s
  | .clmulHi e dst a b => Sys2Proof.Machine.execClmulHi e dst a b s
  | .br e sense p imm => Sys2Proof.Machine.execBr e sense p imm s
  | .jal e dst imm => Sys2Proof.Machine.execJal e dst imm s
  | .jr e dst a imm => Sys2Proof.Machine.execJr e dst a imm s
  | .ld8u e dst a imm ecc => Sys2Proof.Machine.execLd8u e dst a imm ecc s
  | .ld16u e dst a imm ecc => Sys2Proof.Machine.execLd16u e dst a imm ecc s
  | .ld32u e dst a imm ecc => Sys2Proof.Machine.execLd32u e dst a imm ecc s
  | .ld64 e dst a imm ecc => Sys2Proof.Machine.execLd64 e dst a imm ecc s
  | .ld8s e dst a imm ecc => Sys2Proof.Machine.execLd8s e dst a imm ecc s
  | .ld16s e dst a imm ecc => Sys2Proof.Machine.execLd16s e dst a imm ecc s
  | .ld32s e dst a imm ecc => Sys2Proof.Machine.execLd32s e dst a imm ecc s
  | .st8 e dst a imm => Sys2Proof.Machine.execSt8 e dst a imm s
  | .st16 e dst a imm => Sys2Proof.Machine.execSt16 e dst a imm s
  | .st32 e dst a imm => Sys2Proof.Machine.execSt32 e dst a imm s
  | .st64 e dst a imm => Sys2Proof.Machine.execSt64 e dst a imm s
  | .lr e dst a imm ecc => Sys2Proof.Machine.execLr e dst a imm ecc s
  | .sc e dst a b => Sys2Proof.Machine.execSc e dst a b s
  | .fence e => Sys2Proof.Machine.execFence e s
  | .fenceW e => Sys2Proof.Machine.execFenceW e s
  | .pop e => Sys2Proof.Machine.execPop e s
  | .peek e dst => Sys2Proof.Machine.execPeek e dst s
  | .pushCur e a b trunc => Sys2Proof.Machine.execPushCur e a b trunc s
  | .pushSp e dst a b trunc ecc => Sys2Proof.Machine.execPushSp e dst a b trunc ecc s
  | .emit e line => Sys2Proof.Machine.execEmit e line s
  | .trap e => Sys2Proof.Machine.execTrap e s
  | .csrr e dst num => Sys2Proof.Machine.execCsrr e dst num s
  | .csrw e dst a num => Sys2Proof.Machine.execCsrw e dst a num s
  | .csrs e dst a num => Sys2Proof.Machine.execCsrs e dst a num s
  | .csrc e dst a num => Sys2Proof.Machine.execCsrc e dst a num s
  | .eret e => Sys2Proof.Machine.execEret e s
  | .wfi e => Sys2Proof.Machine.execWfi e s
  | .ecall e => Sys2Proof.Machine.execEcall e s
  | .geckoException k cause retry addr => Sys2Proof.Machine.execGeckoException k cause retry addr s
  | .interruptTaken k => Sys2Proof.Machine.execInterruptTaken k s
  | .placementWindow h => Sys2Proof.Machine.execPlacementWindow h s
  | .newExtent h flow => Sys2Proof.Machine.execNewExtent h flow s
  | .engineAssign h flow => Sys2Proof.Machine.execEngineAssign h flow s
  | .engineStoppedMove e => Sys2Proof.Machine.execEngineStoppedMove e s
  | .spillStart h => Sys2Proof.Machine.execSpillStart h s
  | .spillEnd h => Sys2Proof.Machine.execSpillEnd h s
  | .captureWrite h ecc => Sys2Proof.Machine.execCaptureWrite h ecc s
  | .captureWriteAck h rid err => Sys2Proof.Machine.execCaptureWriteAck h rid err s
  | .flushDone h => Sys2Proof.Machine.execFlushDone h s
  | .tapPopTimeout h => Sys2Proof.Machine.execTapPopTimeout h s
  | .bar2Read src off len => Sys2Proof.Machine.execBar2Read src off len s
  | .bar2ReadData id => Sys2Proof.Machine.execBar2ReadData id s
  | .seekDone h => Sys2Proof.Machine.execSeekDone h s
  | .descRead h => Sys2Proof.Machine.execDescRead h s
  | .stimActionArrival h => Sys2Proof.Machine.execStimActionArrival h s
  | .replace n => Sys2Proof.Machine.execReplace n s
  | .insert n => Sys2Proof.Machine.execInsert n s
  | .delete n => Sys2Proof.Machine.execDelete n s
  | .flip n => Sys2Proof.Machine.execFlip n s
  | .hold n => Sys2Proof.Machine.execHold n s
  | .playArmed h stream => Sys2Proof.Machine.execPlayArmed h stream s
  | .playAction h => Sys2Proof.Machine.execPlayAction h s
  | .playbackReadData h stream => Sys2Proof.Machine.execPlaybackReadData h stream s
  | .playbackRecordDue h stream => Sys2Proof.Machine.execPlaybackRecordDue h stream s
  | .dramTrainingDone c delays reads writes => Sys2Proof.Machine.execDramTrainingDone c delays reads writes s
  | .retrainStart c => Sys2Proof.Machine.execRetrainStart c s
  | .dramRequest c sub => Sys2Proof.Machine.execDramRequest c sub s
  | .dramDecision c sub ok => Sys2Proof.Machine.execDramDecision c sub ok s
  | .dramServiceDone c sub err badAt => Sys2Proof.Machine.execDramServiceDone c sub err badAt s
  | .refresh c sub rank rd wr => Sys2Proof.Machine.execRefresh c sub rank rd wr s
  | .mr4Read c codes hot excess => Sys2Proof.Machine.execMr4Read c codes hot excess s
  | .selfRefreshEntry c => Sys2Proof.Machine.execSelfRefreshEntry c s
  | .selfRefreshDone c => Sys2Proof.Machine.execSelfRefreshDone c s
  | .selfRefreshExit c => Sys2Proof.Machine.execSelfRefreshExit c s
  | .selfRefreshExitDone c => Sys2Proof.Machine.execSelfRefreshExitDone c s
  | .scrubRead c err => Sys2Proof.Machine.execScrubRead c err s
  | .regionInitDone c => Sys2Proof.Machine.execRegionInitDone c s
  | .ocmWriteBack m => Sys2Proof.Machine.execOcmWriteBack m s
  | .cryptInitDone h k => Sys2Proof.Machine.execCryptInitDone h k s
  | .resealDone h => Sys2Proof.Machine.execResealDone h s
  | .roCountDone k => Sys2Proof.Machine.execRoCountDone k s
  | .flashCmdDone ok => Sys2Proof.Machine.execFlashCmdDone ok s
  | .serialByteSent p nack arb => Sys2Proof.Machine.execSerialByteSent p nack arb s
  | .softwareResetExpiry => Sys2Proof.Machine.execSoftwareResetExpiry s
  | .resetRelease pairSide halfSteward cfgAuto pullSel => Sys2Proof.Machine.execResetRelease pairSide halfSteward cfgAuto pullSel s
  | .ckPllLock => Sys2Proof.Machine.execCkPllLock s
  | .fuseRead => Sys2Proof.Machine.execFuseRead s
  | .alwaysOnUp => Sys2Proof.Machine.execAlwaysOnUp s
  | .halvesOutOfReset => Sys2Proof.Machine.execHalvesOutOfReset s
  | .startupRelease nonLinear failed => Sys2Proof.Machine.execStartupRelease nonLinear failed s
  | .streamHeader bytes => Sys2Proof.Machine.execStreamHeader bytes s
  | .blockVerify bytes => Sys2Proof.Machine.execBlockVerify bytes s
  | .pad => Sys2Proof.Machine.execPad s
  | .frame => Sys2Proof.Machine.execFrame s
  | .regCmd => Sys2Proof.Machine.execRegCmd s
  | .endCmd => Sys2Proof.Machine.execEndCmd s
  | .cfgTimeoutExpiry => Sys2Proof.Machine.execCfgTimeoutExpiry s
  | .wipeDone => Sys2Proof.Machine.execWipeDone s
  | .fuseCmdDone ok => Sys2Proof.Machine.execFuseCmdDone ok s
  | .bayClosed b => Sys2Proof.Machine.execBayClosed b s
  | .bayRelease b => Sys2Proof.Machine.execBayRelease b s
  | .bayWipeDone b => Sys2Proof.Machine.execBayWipeDone b s
  | .snap b => Sys2Proof.Machine.execSnap b s
  | .configScrubFrame flip sig => Sys2Proof.Machine.execConfigScrubFrame flip sig s
  | .fillDone => Sys2Proof.Machine.execFillDone s
  | .nocInject id wait => Sys2Proof.Machine.execNocInject id wait s
  | .nocDelivery id ecc => Sys2Proof.Machine.execNocDelivery id ecc s
  | .nocResponse id => Sys2Proof.Machine.execNocResponse id s
  | .deadTargetTimeout id => Sys2Proof.Machine.execDeadTargetTimeout id s
  | .swapCheckDone h => Sys2Proof.Machine.execSwapCheckDone h s
  | .oldEpochRetired h => Sys2Proof.Machine.execOldEpochRetired h s
  | .geckoCoreReset k => Sys2Proof.Machine.execGeckoCoreReset k s
  | .watchdogExpiry k => Sys2Proof.Machine.execWatchdogExpiry k s
  | .timerCompare k => Sys2Proof.Machine.execTimerCompare k s
  | .cacheOpDone k => Sys2Proof.Machine.execCacheOpDone k s
  | .writeBufferDrain k => Sys2Proof.Machine.execWriteBufferDrain k s
  | .cacheLineFill k line ins => Sys2Proof.Machine.execCacheLineFill k line ins s
  | .bootDone => Sys2Proof.Machine.execBootDone s
  | .stewardWord => Sys2Proof.Machine.execStewardWord s
  | .bridgeLost => Sys2Proof.Machine.execBridgeLost s
  | .isolationRejoin => Sys2Proof.Machine.execIsolationRejoin s
  | .cmdFetch entry => Sys2Proof.Machine.execCmdFetch entry s
  | .regWrite => Sys2Proof.Machine.execRegWrite s
  | .regRead => Sys2Proof.Machine.execRegRead s
  | .sched => Sys2Proof.Machine.execSched s
  | .flush => Sys2Proof.Machine.execFlush s
  | .seek => Sys2Proof.Machine.execSeek s
  | .nopCmd => Sys2Proof.Machine.execNopCmd s
  | .firmwareCommand => Sys2Proof.Machine.execFirmwareCommand s
  | .firmwareTimeout => Sys2Proof.Machine.execFirmwareTimeout s
  | .eventWrite => Sys2Proof.Machine.execEventWrite s
  | .dmaDescFetch k id host => Sys2Proof.Machine.execDmaDescFetch k id host s
  | .dmaReadIssue h => Sys2Proof.Machine.execDmaReadIssue h s
  | .dmaReadData k id host => Sys2Proof.Machine.execDmaReadData k id host s
  | .dmaBurstWrite k => Sys2Proof.Machine.execDmaBurstWrite k s
  | .dmaWriteAck k id => Sys2Proof.Machine.execDmaWriteAck k id s
  | .dmaRetry k id => Sys2Proof.Machine.execDmaRetry k id s
  | .dmaDescEnd k => Sys2Proof.Machine.execDmaDescEnd k s
  | .dmaPaused k => Sys2Proof.Machine.execDmaPaused k s
  | .dbgRegRead => Sys2Proof.Machine.execDbgRegRead s
  | .dbgRegWrite => Sys2Proof.Machine.execDbgRegWrite s
  | .domainClosed k => Sys2Proof.Machine.execDomainClosed k s
  | .domainOpened k => Sys2Proof.Machine.execDomainOpened k s
  | .thermalDrainTimeout => Sys2Proof.Machine.execThermalDrainTimeout s
  | .supplyCauseClear => Sys2Proof.Machine.execSupplyCauseClear s
  | .rampStep r vout => Sys2Proof.Machine.execRampStep r vout s
  | .scarfTrainingTimeout => Sys2Proof.Machine.execScarfTrainingTimeout s
  | .heartbeatSend => Sys2Proof.Machine.execHeartbeatSend s
  | .mirroredWriteApply => Sys2Proof.Machine.execMirroredWriteApply s
  | .pairAlignTimeout => Sys2Proof.Machine.execPairAlignTimeout s
  | .digestSend => Sys2Proof.Machine.execDigestSend s
  | .resyncLeadBoundary => Sys2Proof.Machine.execResyncLeadBoundary s
  | .resyncShadowBoundary => Sys2Proof.Machine.execResyncShadowBoundary s
  | .peerOkFell fell => Sys2Proof.Machine.execPeerOkFell fell s
  | .heartbeatYield => Sys2Proof.Machine.execHeartbeatYield s
  | .heartbeatTimeout => Sys2Proof.Machine.execHeartbeatTimeout s
  | .userEventLine h line => Sys2Proof.Machine.execUserEventLine h line s
  | .porRelease => Sys2Proof.Machine.execPorRelease s
  | .alignRemeasure => Sys2Proof.Machine.execAlignRemeasure s
  | .registerWrite addr val => Sys2Proof.Machine.execRegisterWrite addr val s
  | .unoccupiedOffsetRead addr peek => Sys2Proof.Machine.execUnoccupiedOffsetRead addr peek s
  | .latchingRead addr peek => Sys2Proof.Machine.execLatchingRead addr peek s
  | .counterClear addr val eventInCk => Sys2Proof.Machine.execCounterClear addr val eventInCk s
  | .errFirstClear page val errInCk => Sys2Proof.Machine.execErrFirstClear page val errInCk s
  | .intPendClear page val hwSet => Sys2Proof.Machine.execIntPendClear page val hwSet s
  | .intForce page val => Sys2Proof.Machine.execIntForce page val s
  | .intEnWrite page val => Sys2Proof.Machine.execIntEnWrite page val s
  | .pcieRequest tlp => Sys2Proof.Machine.execPcieRequest tlp s
  | .perstN low => Sys2Proof.Machine.execPerstN low s
  | .mode => Sys2Proof.Machine.execMode s
  | .laneCfgWrite n val => Sys2Proof.Machine.execLaneCfgWrite n val s
  | .cdrLock n => Sys2Proof.Machine.execCdrLock n s
  | .codeLock n => Sys2Proof.Machine.execCodeLock n s
  | .laneAligned n depth off => Sys2Proof.Machine.execLaneAligned n depth off s
  | .alignRetry n val => Sys2Proof.Machine.execAlignRetry n val s
  | .holdWrite n val => Sys2Proof.Machine.execHoldWrite n val s
  | .laneSymbol n theta buf sym => Sys2Proof.Machine.execLaneSymbol n theta buf sym s
  | .wanderSlip n words => Sys2Proof.Machine.execWanderSlip n words s
  | .lossOfSignal n sig => Sys2Proof.Machine.execLossOfSignal n sig s
  | .lpcRefWrite val => Sys2Proof.Machine.execLpcRefWrite val s
  | .lpcSynIncWrite hi val => Sys2Proof.Machine.execLpcSynIncWrite hi val s
  | .lpcAnchorWrite hi val => Sys2Proof.Machine.execLpcAnchorWrite hi val s
  | .lrefEdge theta mark => Sys2Proof.Machine.execLrefEdge theta mark s
  | .evsWrite h => Sys2Proof.Machine.execEvsWrite h s
  | .evsRead h => Sys2Proof.Machine.execEvsRead h s
  | .evsCancel h => Sys2Proof.Machine.execEvsCancel h s
  | .sieveWrite q => Sys2Proof.Machine.execSieveWrite q s
  | .sieveRead q => Sys2Proof.Machine.execSieveRead q s
  | .sieveInvalidate q => Sys2Proof.Machine.execSieveInvalidate q s
  | .sieveDefaultWrite q val => Sys2Proof.Machine.execSieveDefaultWrite q val s
  | .seqArm h q arm => Sys2Proof.Machine.execSeqArm h q arm s
  | .seqReset h q => Sys2Proof.Machine.execSeqReset h q s
  | .trigWrite h => Sys2Proof.Machine.execTrigWrite h s
  | .trigRead h => Sys2Proof.Machine.execTrigRead h s
  | .flowWrite h => Sys2Proof.Machine.execFlowWrite h s
  | .flowRead h => Sys2Proof.Machine.execFlowRead h s
  | .flowClear h => Sys2Proof.Machine.execFlowClear h s
  | .newtRunWrite e val => Sys2Proof.Machine.execNewtRunWrite e val s
  | .imemDataAccess e wr peek => Sys2Proof.Machine.execImemDataAccess e wr peek s
  | .pluRelWrite h val => Sys2Proof.Machine.execPluRelWrite h val s
  | .stripeWrite h off val => Sys2Proof.Machine.execStripeWrite h off val s
  | .cqFlush h => Sys2Proof.Machine.execCqFlush h s
  | .tapPop h peek => Sys2Proof.Machine.execTapPop h peek s
  | .bar2Write off => Sys2Proof.Machine.execBar2Write off s
  | .seekGo h val => Sys2Proof.Machine.execSeekGo h val s
  | .tmplDataAccess h wr peek => Sys2Proof.Machine.execTmplDataAccess h wr peek s
  | .playWrite h => Sys2Proof.Machine.execPlayWrite h s
  | .playRead h => Sys2Proof.Machine.execPlayRead h s
  | .playArm h => Sys2Proof.Machine.execPlayArm h s
  | .playStart h => Sys2Proof.Machine.execPlayStart h s
  | .playStop h => Sys2Proof.Machine.execPlayStop h s
  | .retrainWrite c => Sys2Proof.Machine.execRetrainWrite c s
  | .memiRegionWrite c k val => Sys2Proof.Machine.execMemiRegionWrite c k val s
  | .devfailWrite c val => Sys2Proof.Machine.execDevfailWrite c val s
  | .regionInit c r => Sys2Proof.Machine.execRegionInit c r s
  | .logClr c => Sys2Proof.Machine.execLogClr c s
  | .retirementWrite c k val => Sys2Proof.Machine.execRetirementWrite c k val s
  | .cryptRangeWrite h k reg val => Sys2Proof.Machine.execCryptRangeWrite h k reg val s
  | .cryptInit h k => Sys2Proof.Machine.execCryptInit h k s
  | .loadSlot h k slot => Sys2Proof.Machine.execLoadSlot h k slot s
  | .unwrap h k slot => Sys2Proof.Machine.execUnwrap h k slot s
  | .reseal h val => Sys2Proof.Machine.execReseal h val s
  | .sillContention b sill winner => Sys2Proof.Machine.execSillContention b sill winner s
  | .bm36DoubleWrite b m lo wd data => Sys2Proof.Machine.execBm36DoubleWrite b m lo wd data s
  | .bm36EccRead b unc => Sys2Proof.Machine.execBm36EccRead b unc s
  | .queuePortRecord b lane typ lp flow tag payload => Sys2Proof.Machine.execQueuePortRecord b lane typ lp flow tag payload s
  | .stimPortAction h arg0 arg1 => Sys2Proof.Machine.execStimPortAction h arg0 arg1 s
  | .roStart k val => Sys2Proof.Machine.execRoStart k val s
  | .flashProgram => Sys2Proof.Machine.execFlashProgram s
  | .flashErase => Sys2Proof.Machine.execFlashErase s
  | .serialTxWrite p val => Sys2Proof.Machine.execSerialTxWrite p val s
  | .i2cWrite start data => Sys2Proof.Machine.execI2cWrite start data s
  | .i2cReadAck start data => Sys2Proof.Machine.execI2cReadAck start data s
  | .i2cReadNack start data => Sys2Proof.Machine.execI2cReadNack start data s
  | .i2cStop start data => Sys2Proof.Machine.execI2cStop start data s
  | .serialRxRemove p => Sys2Proof.Machine.execSerialRxRemove p s
  | .serialByteReceived p val bad => Sys2Proof.Machine.execSerialByteReceived p val bad s
  | .idcode => Sys2Proof.Machine.execIdcode s
  | .samplePreload bits => Sys2Proof.Machine.execSamplePreload bits s
  | .extest => Sys2Proof.Machine.execExtest s
  | .clamp => Sys2Proof.Machine.execClamp s
  | .highz => Sys2Proof.Machine.execHighz s
  | .bypass => Sys2Proof.Machine.execBypass s
  | .trstN => Sys2Proof.Machine.execTrstN s
  | .powerOnReset aonKept => Sys2Proof.Machine.execPowerOnReset aonKept s
  | .resetPin low => Sys2Proof.Machine.execResetPin low s
  | .refclkLoss lost => Sys2Proof.Machine.execRefclkLoss lost s
  | .softwareReset h val => Sys2Proof.Machine.execSoftwareReset h val s
  | .qrefLoss q => Sys2Proof.Machine.execQrefLoss q s
  | .qrefReturn q => Sys2Proof.Machine.execQrefReturn q s
  | .fpllWrite h j val => Sys2Proof.Machine.execFpllWrite h j val s
  | .fpllLockLoss h j => Sys2Proof.Machine.execFpllLockLoss h j s
  | .fpllLock h j => Sys2Proof.Machine.execFpllLock h j s
  | .loadStart port bytes => Sys2Proof.Machine.execLoadStart port bytes s
  | .cfgBusWord w => Sys2Proof.Machine.execCfgBusWord w s
  | .cfgErrSeen => Sys2Proof.Machine.execCfgErrSeen s
  | .ospiGo => Sys2Proof.Machine.execOspiGo s
  | .hostGo => Sys2Proof.Machine.execHostGo s
  | .abort => Sys2Proof.Machine.execAbort s
  | .programKey => Sys2Proof.Machine.execProgramKey s
  | .revoke => Sys2Proof.Machine.execRevoke s
  | .setDbgPlain => Sys2Proof.Machine.execSetDbgPlain s
  | .lockFuses => Sys2Proof.Machine.execLockFuses s
  | .devCfgLock => Sys2Proof.Machine.execDevCfgLock s
  | .bayArm b val => Sys2Proof.Machine.execBayArm b val s
  | .bayDisarm b val => Sys2Proof.Machine.execBayDisarm b val s
  | .fill val => Sys2Proof.Machine.execFill val s
  | .swap h => Sys2Proof.Machine.execSwap h s
  | .tblDataWrite h val => Sys2Proof.Machine.execTblDataWrite h val s
  | .revive h val => Sys2Proof.Machine.execRevive h val s
  | .kick k => Sys2Proof.Machine.execKick k s
  | .mboxWrite k val => Sys2Proof.Machine.execMboxWrite k val s
  | .irqAck k val => Sys2Proof.Machine.execIrqAck k val s
  | .clean k ic => Sys2Proof.Machine.execClean k ic s
  | .inval k ic => Sys2Proof.Machine.execInval k ic s
  | .cleanInval k ic => Sys2Proof.Machine.execCleanInval k ic s
  | .bootGo => Sys2Proof.Machine.execBootGo s
  | .yield => Sys2Proof.Machine.execYield s
  | .cmdTailWrite val => Sys2Proof.Machine.execCmdTailWrite val s
  | .fwDone val => Sys2Proof.Machine.execFwDone val s
  | .fwEvtGo => Sys2Proof.Machine.execFwEvtGo s
  | .ringReset => Sys2Proof.Machine.execRingReset s
  | .dmaGo k val => Sys2Proof.Machine.execDmaGo k val s
  | .dmaPause k val => Sys2Proof.Machine.execDmaPause k val s
  | .dmaAbort k val => Sys2Proof.Machine.execDmaAbort k val s
  | .halt => Sys2Proof.Machine.execHalt s
  | .resume => Sys2Proof.Machine.execResume s
  | .step => Sys2Proof.Machine.execStep s
  | .dbgRangeWrite k reg val => Sys2Proof.Machine.execDbgRangeWrite k reg val s
  | .imRead => Sys2Proof.Machine.execImRead s
  | .imWrite => Sys2Proof.Machine.execImWrite s
  | .domainClose val => Sys2Proof.Machine.execDomainClose val s
  | .domainOpen val => Sys2Proof.Machine.execDomainOpen val s
  | .thermalSample b temp ok => Sys2Proof.Machine.execThermalSample b temp ok s
  | .supplyWindowFault g => Sys2Proof.Machine.execSupplyWindowFault g s
  | .pmbusPoll reads => Sys2Proof.Machine.execPmbusPoll reads s
  | .railTargetWrite r val => Sys2Proof.Machine.execRailTargetWrite r val s
  | .scarfLinkUp latency phase => Sys2Proof.Machine.execScarfLinkUp latency phase s
  | .scarfLaneLoss => Sys2Proof.Machine.execScarfLaneLoss s
  | .pairEnWrite val => Sys2Proof.Machine.execPairEnWrite val s
  | .hello seq ack good payload => Sys2Proof.Machine.execHello seq ack good payload s
  | .heartbeat seq ack good payload peer => Sys2Proof.Machine.execHeartbeat seq ack good payload peer s
  | .journal seq ack good payload => Sys2Proof.Machine.execJournal seq ack good payload s
  | .writeMessage seq ack good payload => Sys2Proof.Machine.execWriteMessage seq ack good payload s
  | .seqState seq ack good payload => Sys2Proof.Machine.execSeqState seq ack good payload s
  | .alignRec seq ack good payload => Sys2Proof.Machine.execAlignRec seq ack good payload s
  | .digest seq ack good payload => Sys2Proof.Machine.execDigest seq ack good payload s
  | .resyncReq seq ack good payload => Sys2Proof.Machine.execResyncReq seq ack good payload s
  | .resyncData seq ack good payload => Sys2Proof.Machine.execResyncData seq ack good payload s
  | .resyncAll => Sys2Proof.Machine.execResyncAll s
  | .nak seq ack good payload => Sys2Proof.Machine.execNak seq ack good payload s
  | .claim => Sys2Proof.Machine.execClaim s
  | .monitorGroupChange g ok => Sys2Proof.Machine.execMonitorGroupChange g ok s
  | .suppliesUp => Sys2Proof.Machine.execSuppliesUp s

end Sys2Proof.Machine
end

