-- ==== Sys2Proof/Machine/Tick.lean ====
section
/-! DEFINITION. A CK of the block itself: what stands in it before its events, then the passage to the next CK and what happens at its
start. The block passes a CK where no command waits and no event is due. -/

namespace Sys2Proof.Machine

/-- The event due in this CK. -/
def Dev.dueEvent (d : Dev) : Option Instr :=
  match d.agenda with
  | (t, i) :: _ => if t ≤ d.ck then some i else none
  | [] => none

/-- The slots of a lane whose TX no received stream fills (R60, R233): they begin from slot 0, at the rate of their clock; where that
changes they go on from the slot at hand. -/
def Dev.laneWork (d : Dev) (n : Fin 64) : Dev :=
  let x := d.stimOf n
  if d.generating n ∨ d.txState n = .lossIdle then
    let d := if x.genCk = 0 then
        d.setStim n { x with genCk := d.ck + 1, genTau := d.tauFrac n, genSlot := 0, slot := 0, lastLp := none, idleD := false,
                             lfsr := lfsrSeed n }
      else if x.genTau ≠ d.tauFrac n then d.setStim n { x with genCk := d.ck + 1, genTau := d.tauFrac n, genSlot := x.slot }
      else d
    (Dev.laneSlots n 3 d).1
  else if x.genCk = 0 ∧ x.slot = 0 then d
  else d.setStim n { x with genCk := 0, slot := 0 }

/-- What stands in this CK: slots of generated TX, decisions the placement units start, the halves' words, the pair. -/
def Dev.ckWork (d : Dev) : Dev :=
  let d := (List.finRange 64).foldl Dev.laneWork d
  let d := (d.pluStart 0).pluStart 1
  let d := if d.stewardDue then d.schedOnce 0 .stewardWord else d
  d.pairWork

/-- Counters of the CK at hand, at its end: FW_CK of a half in FREEWHEEL (R71), ISOLATED_CK while a half is isolated (R400). -/
def Dev.ckCount (d : Dev) : Dev :=
  let d := [0, 1].foldl (fun (d : Dev) h => if d.lpcState h = Lpc.freewheel then d.bump (Pg.lpc h) F.LPC_FW_CK else d) d
  if d.fld Pg.steward F.STEWARD_STAT_ROLE_N = 2 ∨ d.fld Pg.steward F.STEWARD_STAT_ROLE_S = 2 then d.bump Pg.steward F.STEWARD_ISOLATED_CK else d

/-- Targets whose stop has been detected and not taken (R423). -/
def Dev.stopsPending (d : Dev) : List Nat :=
  (d.dbgs.filter (fun (e : Nat × DbgSt) => e.2.stop.isSome)).map Prod.fst

/-- A source that LIVE lets through takes a core out of MONITOR (R425). -/
def Dev.liveWake (d : Dev) (k : Nat) : Dev :=
  if d.inMonitor (192 + k) ∧ d.gkIE k ∧ ¬ d.gkEXL k ∧ d.gkWaiting k &&& d.tfld (192 + k) F.DBG_LIVE ≠ 0 then
    d.schedOnce 0 (.interruptTaken (gkOp k))
  else d

/-- The first attempts of a release begin in their CK (R51). -/
def Dev.lanesInTime (d : Dev) : Dev :=
  match d.lanesDue with
  | some c => if c ≤ d.ck then d.beginLanes else d
  | none => d

/-- State changes of sequencers that are complete in this CK (R108). -/
def Dev.seqsShown (d : Dev) : Dev :=
  d.seqs.foldl (fun (d : Dev) e => if e.2.shows = [] then d else d.seqShows (e.1 / 8) (e.1 % 8)) d

/-- What happens at the start of a CK out of reset. -/
def Dev.ckStart (d : Dev) : Dev :=
  let d : Dev := { d with lineLog := d.lineLog.filter (fun (e : Nat × Nat × Bool) => decide (d.ck ≤ e.1 + 8)) }
  let d := d.tracksDue.txsEnded.portsCut.seqsShown.dueJumps.lanesInTime
  let d := d.stopsPending.foldl (fun (d : Dev) t => d.monitorEnter t) d
  let d := [0, 1, 2, 3].foldl (fun (d : Dev) k => (d.wfiWake k).liveWake k) d
  [0, 1].foldl (fun (d : Dev) h => d.evsKeep h 0) d

/-- The next CK, after the clock edges of this one. -/
def Dev.advance (d : Dev) : Dev :=
  let d := d.fabricCk
  let d := if d.rst = .running then d.ckCount else d
  let d := ({ d with ck := d.ck + 1, log := {} } : Dev).presented
  if d.rst = .running then d.ckStart else d

/-- No command waits and no event is due: what stands in this CK may make one due; else the next CK comes. -/
def Dev.tick (d : Dev) : Dev :=
  let d := d.fresh.awake Dev.ckWork
  if d.dueEvent.isSome then d.settle else d.advance.settle

end Sys2Proof.Machine
end

