-- ==== Sys2Proof/Machine/Step.lean ====
section
/-! DEFINITION. One step: the command at the front of the queue; with no command waiting, the event that is due, or the passage of a CK. -/

namespace Sys2Proof.Machine

/-- The state with the command a word spells in front of its queue. -/
def State.withFetchWord (s : State) (nbits w : Nat) : State :=
  match decodeTableWord nbits w with
  | some i => { s with pending := i :: s.pending }
  | none => s

/-- One step. -/
def step (s : State) : Host.Outcome State Fault Refusal :=
  match s.pending with
  | c :: rest => exec c { s with pending := rest }
  | [] =>
    match s.dev.dueEvent with
    | some i => exec i s
    | none => .next { s with dev := s.dev.tick }

end Sys2Proof.Machine
end

