-- ==== Sys2Proof/Safety.lean ====
section
/-! DEFINITION. What statements about a step are said in: how a command ends, what of the block a command leaves alone, which steps are
safe. -/

namespace Sys2Proof.Machine

/-- The outcome of a command that leaves the block as `d`: a next state, the balls following the block (R42), the waiting commands as
they were. -/
def State.becomes (s : State) (d : Dev) : Host.Outcome State Fault Refusal := .next { s with dev := d.settle }

/-- The block but for its registers and what a register access leaves behind: the command's log and outputs, pending MSI-X bits, page
lines, balls. -/
def Dev.rest (d : Dev) : Dev := { d with regs := [], log := {}, out := [], msixPend := [], lineLog := [], pins := {} }

/-- Software writes of registers that a pair would mirror act at once: the device neither shadows nor mirrors (R464, R465). -/
def Dev.unpaired (d : Dev) : Prop := ¬ d.isShadow ∧ ¬ d.mirroring

/-- A step is safe where it goes on: a next state, no fault and no refusal. -/
def safeStep (s : State) : Prop := ∃ t, step s = .next t

/-- A run of `k` steps is safe. -/
def safeRun : Nat → State → Prop
  | 0, _ => True
  | k + 1, s => ∃ t, step s = .next t ∧ safeRun k t

/-! Engines. -/

/-- Nothing keeps an instruction of a target from issuing in the CK at hand: the target runs, its turn has come, no result, slot or
fence is awaited, no error, interrupt, step or debug range stands in its way (R145, R163, R164, R181, R422, R428). -/
structure Dev.canIssue (d : Dev) (t : Nat) (x : Isu) : Prop where
  runs : d.mayIssue t = true
  turn : (d.engOf t).nextCk ≤ d.ck
  fits : ∀ p, (d.engOf t).first = some p → p.ck ≠ d.ck ∨ pairs p x.trim = true
  ready : d.waitOf t x.trim = .go
  noErr : (d.engOf t).storeErr = none
  noIrq : 192 ≤ t → d.gkTakeable (t - 192) = none
  noStep : (d.dbgOf t).step < 2
  noRange : (d.dbgOf t).regs = []

/-- What an instruction that only writes its target's registers leaves as it was: the other targets' state, every memory, every record. -/
structure Dev.engKeeps (d d' : Dev) (t : Nat) : Prop where
  engs : ∀ u, u ≠ t → d'.engOf u = d.engOf u
  mem : d'.mem = d.mem
  ctx : d'.ctx = d.ctx
  imem : d'.imem = d.imem
  recs : d'.recs = d.recs

/-- A Newt engine, and a Gecko core, as a target. -/
def newtTarget (e : Fin 192) : Fin 196 := ⟨e.val, by omega⟩
def coreTarget (k : Fin 4) : Fin 196 := ⟨192 + k.val, by omega⟩

/-- The program counter after an instruction index (R160). -/
def pcOf (t idx : Nat) : Nat := if t < 192 then idx % 8192 else idx % 2 ^ 62

/-- An instruction of target `e` that writes one register: it answers a next state in which `dst` holds `v` of the registers before, ready
`k` CK later (n0 reads 0 and is not written); the other registers, the predicates, the other targets, memories and records stay, and
the next instruction follows. -/
def aluStep (i : Instr) (e : Fin 196) (dst : Fin 32) (reads : List Nat) (k : Nat) (v : EngSt → Word64) : Prop :=
  ∀ s : State, s.dev.rst = .running → s.dev.canIssue e { reads := reads, writes := [nReg dst] } →
    ∃ t, exec i s = .next t
      ∧ (t.dev.engOf e).reg dst = (if dst = 0 then 0#64 else v (s.dev.engOf e))
      ∧ (dst ≠ 0 → sfind (t.dev.engOf e).ready dst = some (s.dev.ck + k, false))
      ∧ (∀ r, r ≠ dst → (t.dev.engOf e).reg r = (s.dev.engOf e).reg r)
      ∧ (t.dev.engOf e).p = (s.dev.engOf e).p
      ∧ (t.dev.engOf e).pc = pcOf e ((s.dev.engOf e).pc + 1)
      ∧ s.dev.engKeeps t.dev e

/-- An instruction of target `e` that writes one predicate. -/
def predStep (i : Instr) (e : Fin 196) (pd : Fin 8) (reads : List Nat) (v : EngSt → Bool) : Prop :=
  ∀ s : State, s.dev.rst = .running → s.dev.canIssue e { reads := reads, writes := [pReg pd] } →
    ∃ t, exec i s = .next t
      ∧ (t.dev.engOf e).pred pd = v (s.dev.engOf e)
      ∧ (∀ q, q ≠ pd → (t.dev.engOf e).pred q = (s.dev.engOf e).pred q)
      ∧ (t.dev.engOf e).n = (s.dev.engOf e).n
      ∧ (t.dev.engOf e).pc = pcOf e ((s.dev.engOf e).pc + 1)
      ∧ s.dev.engKeeps t.dev e

/-- Register `dst` of target `e` has taken `v`, ready `k` CK later, from memory or not; the target's other registers and its predicates
stay, the next instruction follows, and what `engKeeps` names stays. -/
structure Dev.engWrote (d d' : Dev) (e : Fin 196) (dst : Fin 32) (v : Word64) (k : Nat) : Prop where
  val : (d'.engOf e).reg dst = (if dst = 0 then 0#64 else v)
  when_ : dst ≠ 0 → sfind (d'.engOf e).ready dst = some (d.ck + k, true)
  regs : ∀ r, r ≠ dst → (d'.engOf e).reg r = (d.engOf e).reg r
  preds : (d'.engOf e).p = (d.engOf e).p
  pc : (d'.engOf e).pc = pcOf e ((d.engOf e).pc + 1)
  keeps : d.engKeeps d' e

/-- `size` bytes from `x` hold a value, lowest byte first, and every other byte of memory is as it was. -/
structure Dev.memWrote (d d' : Dev) (x size : Nat) (v : Word64) : Prop where
  bytes : ∀ j, j < size → d'.byte (x + j) = BitVec.ofNat 8 (v.toNat / 2 ^ (8 * j))
  others : ∀ b, b < x ∨ x + size ≤ b → d'.byte b = d.byte b

/-- The registers, predicates and program counter of a target stay but for the step to the next instruction. -/
structure Dev.engSteps (d d' : Dev) (e : Fin 196) : Prop where
  n : (d'.engOf e).n = (d.engOf e).n
  p : (d'.engOf e).p = (d.engOf e).p
  pc : (d'.engOf e).pc = pcOf e ((d.engOf e).pc + 1)

/-- An aligned load of `size` bytes completes by the area its address lies in (Tables 7-1, 8-2): scratchpad, context, record window and
a core's SRAM give the value; a bay memory gets a request in its bank, any other NoC address one on the network. -/
def loadStep (i : Instr) (e : Fin 196) (dst a : Fin 32) (imm : BitVec 16) (size : Nat) (sx : Bool) : Prop :=
  ∀ s : State, s.dev.rst = .running → s.dev.canIssue e { mSlot := true, reads := [nReg a], writes := [nReg dst] } →
    (s.dev.engOf e).ea a imm % size = 0 →
    let d := s.dev
    let ea := (d.engOf e).ea a imm
    (e.val < 192 → ea < 0x2_0000 → ∃ t, exec i s = .next t ∧ d.engWrote t.dev e dst (loadVal size sx (d.bytes (Na.sp e + ea) size)) 2)
    ∧ (e.val < 192 → 0x2_0000 ≤ ea → ea < 0x2_0100 → d.hasTask e → ∃ t, exec i s = .next t
        ∧ d.engWrote t.dev e dst (loadVal size sx ((List.range size).map (fun j => sget 0#8 d.ctx (d.taskSlot e + (ea - 0x2_0000) + j)))) 2)
    ∧ (e.val < 192 → 0x3_0000 ≤ ea → ea < 0x4_0000 → d.hasTask e → ∃ t, exec i s = .next t
        ∧ d.engWrote t.dev e dst (loadVal size sx ((List.range size).map (fun j => byteAt (d.engOf e).window (ea - 0x3_0000 + j)))) 4)
    ∧ (e.val < 192 → 0x10_0000 ≤ ea → ea < 0x50_0000 → ∃ t, exec i s = .next t
        ∧ (∃ q ∈ sget [] t.dev.bayQ (bayKey (e / 16) (ea - 0x10_0000)), q.who = e % 16 ∧ q.word = (ea - 0x10_0000) / 8 * 8
            ∧ q.load = some (dst.val, (ea - 0x10_0000) % 8, size, sx) ∧ q.due = d.ck + 1)
        ∧ (dst ≠ 0 → sfind (t.dev.engOf e).ready dst = some (0, true)) ∧ d.engSteps t.dev e ∧ d.engKeeps t.dev e)
    ∧ (e.val < 192 → 2 ^ 32 ≤ ea → ∃ t, exec i s = .next t
        ∧ (∃ q, sfind t.dev.nocReqs d.nextNoc = some q ∧ q.op = .read ∧ q.addr = ea ∧ q.len = size ∧ q.who = .load e dst size sx)
        ∧ (dst ≠ 0 → sfind (t.dev.engOf e).ready dst = some (0, true)) ∧ d.engSteps t.dev e ∧ d.engKeeps t.dev e)
    ∧ (∀ x, 192 ≤ e.val → gkTgt (e - 192) ea = .sram x → d.prPasses (e - 192) ea size 1 → ∃ t, exec i s = .next t
        ∧ d.engWrote t.dev e dst (loadVal size sx (d.bytes x size)) 4)

/-- An aligned store of `size` bytes completes by the area its address lies in. -/
def storeStep (i : Instr) (e : Fin 196) (src a : Fin 32) (imm : BitVec 16) (size : Nat) : Prop :=
  ∀ s : State, s.dev.rst = .running → s.dev.canIssue e { mSlot := true, reads := [nReg src, nReg a] } →
    (s.dev.engOf e).ea a imm % size = 0 →
    let d := s.dev
    let ea := (d.engOf e).ea a imm
    let v := (d.engOf e).reg src
    (e.val < 192 → ea < 0x2_0000 → ∃ t, exec i s = .next t
        ∧ d.memWrote t.dev (Na.sp e + ea) size v ∧ d.engSteps t.dev e ∧ t.dev.ctx = d.ctx ∧ t.dev.imem = d.imem ∧ t.dev.recs = d.recs)
    ∧ (e.val < 192 → 0x2_0000 ≤ ea → ea < 0x2_0100 → d.hasTask e → ∃ t, exec i s = .next t
        ∧ (∀ b, sget 0#8 t.dev.ctx b = (let x := d.taskSlot e + (ea - 0x2_0000)
            if x ≤ b ∧ b < x + size then BitVec.ofNat 8 (v.toNat / 2 ^ (8 * (b - x))) else sget 0#8 d.ctx b))
        ∧ d.engSteps t.dev e ∧ t.dev.mem = d.mem ∧ t.dev.imem = d.imem ∧ t.dev.recs = d.recs)
    ∧ (e.val < 192 → 0x10_0000 ≤ ea → ea < 0x50_0000 → ∃ t, exec i s = .next t
        ∧ (∃ q ∈ sget [] t.dev.bayQ (bayKey (e / 16) (ea - 0x10_0000)), q.who = e % 16 ∧ q.word = (ea - 0x10_0000) / 8 * 8
            ∧ q.wr = some (inWord ((ea - 0x10_0000) % 8) (leBytes size v.toNat)) ∧ q.due = d.ck + 1)
        ∧ (t.dev.engOf e).bayStores = (d.engOf e).bayStores + 1 ∧ d.engSteps t.dev e ∧ d.engKeeps t.dev e)
    ∧ (e.val < 192 → 2 ^ 32 ≤ ea → ∃ t, exec i s = .next t
        ∧ (∃ q, sfind t.dev.nocReqs d.nextNoc = some q ∧ q.op = .write ∧ q.addr = ea ∧ q.len = size ∧ q.wr = (leBytes size v.toNat).map some)
        ∧ (t.dev.engOf e).stores = (d.engOf e).stores ++ [d.nextNoc] ∧ d.engSteps t.dev e ∧ d.engKeeps t.dev e)
    ∧ (∀ x, 192 ≤ e.val → gkTgt (e - 192) ea = .sram x → d.prPasses (e - 192) ea size 2 → ∃ t, exec i s = .next t
        ∧ d.memWrote t.dev x size v ∧ d.engSteps t.dev e ∧ t.dev.ctx = d.ctx ∧ t.dev.imem = d.imem ∧ t.dev.recs = d.recs)

/-- A Newt engine has taken an exception (R155): what it saves, where it goes, what it keeps. -/
structure Dev.newtTrapped (d d' : Dev) (e : Fin 192) (cause : Nat) (retry : Bool) (addr : Nat) : Prop where
  epc : d'.fld (Pg.newt e) F.NEWT_EPC_PC = (d.engOf e).pc
  code : d'.fld (Pg.newt e) F.NEWT_CAUSE_CODE = cause
  retry : d'.fld (Pg.newt e) F.NEWT_CAUSE_RETRY = b01 retry
  nested : d'.fld (Pg.newt e) F.NEWT_CAUSE_NESTED = 0
  badaddr : d'.reg64 (Pg.newt e) 0x114 = addr
  pc : (d'.engOf e).pc = d.fld (Pg.newt e) F.NEWT_TRAP_VEC_PC
  first : (d'.engOf e).nextCk = d.ck + 4
  inTrap : (d'.engOf e).inTrap = true
  resv : (d'.engOf e).resv = none
  state : d'.engState e = Es.trap
  n : (d'.engOf e).n = (d.engOf e).n
  p : (d'.engOf e).p = (d.engOf e).p
  keeps : d.engKeeps d' e

/-- A Gecko core has taken an exception or interrupt (R181): EPC, CAUSE, BADADDR, STATUS, and the handler's address. -/
structure Dev.gkTrapped (d d' : Dev) (k : Fin 4) (cause : Nat) (retry : Bool) (addr irq : Nat) : Prop where
  epc : d'.csr k Csr.epc.num = BitVec.ofNat 64 ((d.engOf (192 + k)).pc % 2 ^ 62)
  cause : d'.csr k Csr.cause.num = causeWord cause retry irq
  badaddr : d'.csr k Csr.badaddr.num = BitVec.ofNat 64 addr
  status : d'.csr k Csr.status.num = statusEntry (d.csr k Csr.status.num)
  pc : (d'.engOf (192 + k)).pc = (d.csr k Csr.tvec.num).toNat % 2 ^ 62
  first : (d'.engOf (192 + k)).nextCk = d.ck + 4
  n : (d'.engOf (192 + k)).n = (d.engOf (192 + k)).n
  p : (d'.engOf (192 + k)).p = (d.engOf (192 + k)).p
  keeps : d.engKeeps d' (192 + k)

/-- A Newt engine that is neither in its handler nor under debug can take an exception to its handler. -/
structure Dev.newtReady (d : Dev) (e : Fin 192) : Prop where
  runs : d.mayIssue e = true
  task : (d.engOf e).inTrap = false
  keep : (d.engOf e).stopping = false
  pc : (d.engOf e).pc < 8192
  noDebug : (d.dbgOf e).regs = []

/-- A Gecko core outside its handler and not under debug. -/
structure Dev.coreReady (d : Dev) (k : Fin 4) : Prop where
  runs : d.mayIssue (192 + k) = true
  exl : d.gkEXL k = false
  noDebug : (d.dbgOf (192 + k)).regs = []

/-- A task has begun on a record (R146, R147): header words in n1 to n4, the flow's ENTRY next, the record taken. -/
structure Dev.taskBegun (d d' : Dev) (e : Fin 192) (rid : Nat) : Prop where
  task : (d'.engOf e).task = some rid
  pushed : (d'.engOf e).pushed = false
  words : ∀ i : Fin 4, (d'.engOf e).reg ⟨i.val + 1, by omega⟩ = BitVec.ofNat 64
    (leNat (((headerBytes (d.recOf rid) (d.recOf rid).body.1 (d.recOf rid).body.2).drop (8 * i)).take 8))
  regs : ∀ r : Fin 32, (r.val = 0 ∨ 5 ≤ r.val) → (d'.engOf e).reg r = (d.engOf e).reg r
  pc : (d'.engOf e).pc = d.flowFld (engHalf e) (d.recOf rid).flow FL_ENTRY
  first : (d'.engOf e).nextCk = d.ck + 3
  taken : (d'.recOf rid).st = .taken
  count : d'.fld (Pg.newt e) F.NEWT_TAKEN_CNT = min (d.fld (Pg.newt e) F.NEWT_TAKEN_CNT + 1) 0xFFFFFFFF
  stat : d'.fld (Pg.newt e) F.NEWT_STAT_TASK = 1
  state : d'.engState e = Es.run

/-- A command of the host's ring has ended (R403, R404, R406): SEQ_DONE, BUSY 0, and where it asked for it or failed its event, which
takes the next DSEQ unless 256 wait. -/
structure Dev.cmdEnded (d d' : Dev) (c : HostCmd) (status code : Nat) (payload : List Byte) : Prop where
  idle : d'.hcmd = none
  done : d'.fld Pg.hostif F.HOSTIF_CMD_SEQ_DONE = c.hseq % 2 ^ 32
  busy : d'.flag Pg.hostif F.HOSTIF_STAT_CMD_BUSY = false
  event : (bit c.flags 0 = true ∨ status ≠ 0) → d.hostEvs.length < 256 →
    ∃ lp, d'.hostEvs = d.hostEvs ++ [hostEvent (d.fld Pg.hostif F.HOSTIF_EVT_SEQ_NEXT) c.hseq 1 status code lp payload]
  quiet : bit c.flags 0 = false → status = 0 → d'.hostEvs = d.hostEvs

/-- A message of the Scarf link is the one expected, undamaged, on a link that is UP with nothing of SYNC waiting to be sent (R454, R455). -/
structure Dev.accepts (d : Dev) (typ : Nat) (seq : Word) (good : Bool) (payload : List Byte) : Prop where
  up : d.linkUp = true
  whole : good = true
  units : unitsOk typ payload.length = true
  next : seq.toNat = nextSeq (d.fld Pg.pair F.PAIR_RX_SEQ)
  quiet : d.pair.sendq = []

end Sys2Proof.Machine

namespace Sys2Proof

open Sys2Proof.Machine

/-- The commands that act while a reset is in force: those that reset, supply and release the device, boundary scan, the endpoint in the
always-on domain, the monitors (R319, R327 to R330, R444, R504 to R506). -/
def Instr.actsInReset : Instr → Bool
  | .powerOnReset _ | .resetPin _ | .refclkLoss _ | .softwareResetExpiry | .suppliesUp | .porRelease | .resetRelease _ _ _ _ => true
  | .ckPllLock | .fuseRead | .alwaysOnUp | .halvesOutOfReset | .pcieRequest _ | .perstN _ => true
  | .idcode | .samplePreload _ | .extest | .clamp | .highz | .bypass | .trstN | .monitorGroupChange _ _ => true
  | _ => false

end Sys2Proof
end

