-- ==== Sys2Proof/Certificates/Slice0/Obligations.lean ====
section
/-! DEFINITION. The statements for the provers. -/

open Sys2Proof Sys2Proof.Machine

/-- A step with a command in front of the queue is the command's effect on the block with the queue's rest. -/
def Obligations.StepRunsFrontCommand : Prop :=
  ∀ (c : Instr) (d : Dev) (rest : List Instr), step ⟨d, c :: rest⟩ = exec c ⟨d, rest⟩

/-- With no command waiting, the block's own event that is due runs; with none due a CK's work is done and the next CK comes (the model's
choice, log entry 2). -/
def Obligations.EmptyQueueRunsTheClock : Prop :=
  ∀ d : Dev,
    (∀ i, d.dueEvent = some i → step ⟨d, []⟩ = exec i ⟨d, []⟩)
    ∧ (d.dueEvent = none → step ⟨d, []⟩ = .next ⟨d.tick, []⟩)

/-- No command and no event of the block puts a command into the queue or takes one that is not at its front. -/
def Obligations.QueueIsFirstInFirstOut : Prop :=
  ∀ s t : State, step s = .next t → t.pending = s.pending.tail

/-- The balls the block drives are a function of the block: after every step they stand as Table 2-4 and the rules of their chapters give
them, whatever the command was. -/
def Obligations.BallsFollowTheBlock : Prop :=
  ∀ s t : State, s.dev.pins = s.dev.pinsOf → step s = .next t → t.dev.pins = t.dev.pinsOf

/-- It holds of the machine out of reset. -/
def Obligations.BallsFollowAtReset : Prop :=
  State.reset.dev.pins = State.reset.dev.pinsOf
    ∧ State.reset.dev.pins.cfgDoneLow = true ∧ State.reset.dev.pins.cfgErrLow = false
    ∧ State.reset.dev.pins.pairOk = false ∧ State.reset.dev.pins.pairActive = false ∧ State.reset.dev.pins.userIo = .pull

/-- Every command completes: a well-formed command answers a next state in every state, and an ill-formed one stops under its name. -/
def Obligations.EveryCommandAnswers : Prop :=
  ∀ (c : Instr) (s : State),
    (c.wellFormed = true → ∃ t, exec c s = .next t)
    ∧ (c.wellFormed = false → exec c s = .fault .illFormed)

/-- While a reset is in force nothing acts but what resets, releases and scans: any other command leaves the block as it was but for
its outputs and its own agenda entry. -/
def Obligations.ResetHoldsTheBlock : Prop :=
  ∀ (c : Instr) (s t : State), s.dev.rst ≠ .running → c.actsInReset = false → exec c s = .next t →
    t.dev = { s.dev with out := [], agenda := t.dev.agenda, pins := t.dev.pins, regs := t.dev.regs }
    ∧ (∀ pg off, off < 4096 → raddr Pg.pair F.PAIR_STAT_STATE.off ≠ raddr pg off → t.dev.reg pg off = s.dev.reg pg off)

/-- R9, R28, R477: errors count, ERR_FIRST takes the first; its clear. -/
def Obligations.ErrorCountsAndFirstCode : Prop :=
  (∀ (d : Dev) (pg idx code : Nat), idx < 8 → code < 2 ^ 16 →
    (d.err pg idx code).fld pg (F.ERRCNT idx) = min (d.fld pg (F.ERRCNT idx) + 1) 0xFFFFFFFF
    ∧ (∀ j, j < 8 → j ≠ idx → (d.err pg idx code).fld pg (F.ERRCNT j) = d.fld pg (F.ERRCNT j))
    ∧ (d.fld pg F.ERR_FIRST_CODE = 0 →
        (d.err pg idx code).fld pg F.ERR_FIRST_CODE = code ∧ (d.err pg idx code).fld pg F.ERR_FIRST_IDX = idx)
    ∧ (d.fld pg F.ERR_FIRST_CODE ≠ 0 → pg ∉ d.log.firsts →
        (d.err pg idx code).reg pg 0x01C = d.reg pg 0x01C)
    ∧ (d.fld pg F.ERR_FIRST_CODE ≠ 0 → pg ∈ d.log.firsts → idx < d.fld pg F.ERR_FIRST_IDX →
        (d.err pg idx code).fld pg F.ERR_FIRST_CODE = code ∧ (d.err pg idx code).fld pg F.ERR_FIRST_IDX = idx)
    ∧ (d.err pg idx code).rest = d.rest)
  ∧ (∀ (pg : Nat) (val : Word) (s : State), s.dev.rst = .running → pg < 16384 → (blkOfPage pg).isSome →
    (s.dev.errsNow pg = [] → ∃ t, exec (.errFirstClear pg val none) s = .next t ∧ t.dev.reg pg 0x01C = 0#32 ∧ t.dev.rest = s.dev.rest)
    ∧ (∀ j code : Nat, j < 8 → code < 2 ^ 16 → s.dev.errsNow pg = [(j, code)] → ∃ t, exec (.errFirstClear pg val none) s = .next t
        ∧ t.dev.fld pg F.ERR_FIRST_CODE = code ∧ t.dev.fld pg F.ERR_FIRST_IDX = j ∧ t.dev.rest = s.dev.rest)
    ∧ (∀ (j : Fin 8) (code : BitVec 16), s.dev.errsNow pg = [] → ∃ t, exec (.errFirstClear pg val (some (j, code))) s = .next t
        ∧ t.dev.fld pg F.ERR_FIRST_CODE = code.toNat ∧ t.dev.fld pg F.ERR_FIRST_IDX = j.val
        ∧ t.dev.fld pg (F.ERRCNT j) = min (s.dev.fld pg (F.ERRCNT j) + 1) 0xFFFFFFFF))

/-- R474, R478, R481: INT_PEND, SEQ, INT_FORCE and INT_EN. -/
def Obligations.InterruptBits : Prop :=
  (∀ (d : Dev) (pg bits : Nat),
    let b := BitVec.ofNat 32 (bits &&& pendMaskOf pg)
    (d.pendBits pg bits).reg pg 0x010 = d.reg pg 0x010 ||| b
    ∧ (b &&& ~~~d.reg pg 0x010 ≠ 0#32 → pg ∉ d.log.seqPages → (d.pendBits pg bits).fld pg F.SEQ = (d.fld pg F.SEQ + 1) % 2 ^ 32)
    ∧ (b &&& ~~~d.reg pg 0x010 = 0#32 → (d.pendBits pg bits).fld pg F.SEQ = d.fld pg F.SEQ)
    ∧ (d.pendBits pg bits).rest = d.rest)
  ∧ (∀ (pg : Nat) (s : State), s.dev.rst = .running → pg < 16384 → (blkOfPage pg).isSome → s.dev.unpaired →
    (∀ val hw : Word, ∃ t, exec (.intPendClear pg val hw) s = .next t
      ∧ t.dev.reg pg 0x010 = (s.dev.reg pg 0x010 &&& ~~~val) ||| ((hw &&& BitVec.ofNat 32 (pendMaskOf pg)) ||| s.dev.setNow pg)
      ∧ t.dev.rest = s.dev.rest)
    ∧ (∀ val : Word, ∃ t, exec (.intForce pg val) s = .next t
      ∧ t.dev.reg pg 0x010 = s.dev.reg pg 0x010 ||| (val &&& BitVec.ofNat 32 (pendMaskOf pg)) ∧ t.dev.rest = s.dev.rest)
    ∧ (∀ val : Word, ∃ t, exec (.intEnWrite pg val) s = .next t
      ∧ t.dev.reg pg 0x014 = val ∧ t.dev.reg pg 0x010 = s.dev.reg pg 0x010 ∧ t.dev.rest = s.dev.rest))

/-- R9: an error counts in 32 bits and the count stops at 0xFFFFFFFF; a write of any value clears an error counter (and every other
counter a write clears) to 0; with an error in the same CK it reads 1 afterwards. -/
def Obligations.CountersSaturateAndClear : Prop :=
  (∀ (d : Dev) (pg idx code : Nat), idx < 8 →
    (d.err pg idx code).fld pg (F.ERRCNT idx) = min (d.fld pg (F.ERRCNT idx) + 1) 0xFFFFFFFF)
  ∧ (∀ (pg : Nat) (idx : Nat) (val : Word) (inCk : Bool) (s : State),
    s.dev.rst = .running → pg < 16384 → (blkOfPage pg).isSome → idx < 8 →
    s.dev.countNow (raddr pg (F.ERRCNT idx).off) 0 ≤ 1 →
    ∃ t, exec (.counterClear (raddr pg (F.ERRCNT idx).off) val inCk) s = .next t
      ∧ t.dev.fld pg (F.ERRCNT idx) = (if inCk ∨ s.dev.countNow (raddr pg (F.ERRCNT idx).off) 0 = 1 then 1 else 0))
  ∧ (∀ (addr : Nat) (val : Word) (inCk : Bool) (b : Blk) (i : Nat) (r : RegDesc) (s : State),
    s.dev.rst = .running → wfAddr addr = true → blkOfPage (addr / 4096) = some (b, i) → regDesc b (addr % 4096) = some r →
    r.clr = 0xFFFFFFFF → r.ro = 0xFFFFFFFF → raddr Pg.pair F.PAIR_STAT_STATE.off ≠ addr →
    ∃ t, exec (.counterClear addr val inCk) s = .next t
      ∧ t.dev.reg (addr / 4096) (addr % 4096) = (if inCk then 1#32 else BitVec.ofNat 32 (s.dev.countNow addr 0))
      ∧ (∀ pg off, off < 4096 → raddr pg off ≠ addr → raddr Pg.pair F.PAIR_STAT_STATE.off ≠ raddr pg off → t.dev.reg pg off = s.dev.reg pg off)
      ∧ t.dev.rest = s.dev.rest)



/-- R10, R7, R8, R475: a read of an offset no register occupies returns 0 and counts in ERRCNT7 of the page, or in DEV on a page no block
has; a read that carries PEEK changes no register. -/
def Obligations.ReadsOfRegisters : Prop :=
  ∀ (addr : Nat) (s : State), s.dev.rst = .running → wfAddr addr = true →
    (∀ b i, blkOfPage (addr / 4096) = some (b, i) → regDesc b (addr % 4096) = none →
      ∃ t, exec (.unoccupiedOffsetRead addr false) s = .next t ∧ Out.rdata addr 0#32 ∈ t.dev.out
        ∧ t.dev.fld (addr / 4096) (F.ERRCNT 7) = min (s.dev.fld (addr / 4096) (F.ERRCNT 7) + 1) 0xFFFFFFFF ∧ t.dev.rest = s.dev.rest)
    ∧ (blkOfPage (addr / 4096) = none →
      ∃ t, exec (.unoccupiedOffsetRead addr false) s = .next t ∧ Out.rdata addr 0#32 ∈ t.dev.out
        ∧ t.dev.fld Pg.dev (F.ERRCNT 7) = min (s.dev.fld Pg.dev (F.ERRCNT 7) + 1) 0xFFFFFFFF ∧ t.dev.rest = s.dev.rest)
    ∧ (∀ b i r, blkOfPage (addr / 4096) = some (b, i) → regDesc b (addr % 4096) = some r → b ≠ .cq →
      ∃ t, exec (.latchingRead addr true) s = .next t ∧ Out.rdata addr (s.dev.fresh.liveReg b i r (addr % 4096)) ∈ t.dev.out
        ∧ t.dev.latch = s.dev.latch
        ∧ ∀ pg off, off < 4096 → raddr Pg.pair F.PAIR_STAT_STATE.off ≠ raddr pg off → t.dev.reg pg off = s.dev.reg pg off)
    ∧ (∀ b i r, blkOfPage (addr / 4096) = some (b, i) → regDesc b (addr % 4096) = some r → b ≠ .cq → b ≠ .newt → b ≠ .stim →
      latchPartners b (addr % 4096) ≠ [] →
      ∃ t, exec (.latchingRead addr false) s = .next t ∧ Out.rdata addr (s.dev.fresh.liveReg b i r (addr % 4096)) ∈ t.dev.out
        ∧ t.dev.latchOf (addr / 4096) = (latchPartners b (addr % 4096)).map (fun o => (o, s.dev.fresh.liveAt b i o)))

/-- R6, R8: REGISTER_WRITE of a register of a NEWT page that only the common rules govern, in a device that is not paired (TASK_LIMIT with
no task that it would end). The fields that accept writes take the value, the others stay. -/
def Obligations.PlainRegisterWrite : Prop :=
  ∀ (e : Fin 192) (off : Nat) (val : Word) (r : RegDesc) (s : State),
    s.dev.rst = .running → off < 4096 → off % 4 = 0 → 0x100 ≤ off → off ≠ 0x124 → regDesc .newt off = some r → r.clr = 0 →
    s.dev.unpaired → s.dev.cfgLock = false → (off = 0x108 → (s.dev.engOf e).task = none) →
    ∃ t, exec (.registerWrite (raddr (Pg.newt e.val) off) val) s = .next t
      ∧ (acceptsWrites r e.val = true → val.toNat &&& (0xFFFFFFFF - (r.rw ||| r.rwl ||| r.wo ||| r.ro)) = 0 →
          t.dev.reg (Pg.newt e.val) off = BitVec.ofNat 32 (((s.dev.reg (Pg.newt e.val) off).toNat &&& (0xFFFFFFFF - (r.rw ||| r.rwl)))
            ||| (val.toNat &&& (r.rw ||| r.rwl)))
          ∧ t.dev.fld (Pg.newt e.val) (F.ERRCNT 7) = s.dev.fld (Pg.newt e.val) (F.ERRCNT 7))
      ∧ (acceptsWrites r e.val = false →
          t.dev.fld (Pg.newt e.val) (F.ERRCNT 7) = min (s.dev.fld (Pg.newt e.val) (F.ERRCNT 7) + 1) 0xFFFFFFFF)
      ∧ t.dev.rest = s.dev.rest

/-- R166, Table 8-3: the instructions that compute a register from registers. Shift and rotate amounts are b AND 63. -/
def Obligations.AluWritesItsRegister : Prop :=
  (∀ (e : Fin 196) (dst a b : Fin 32) (p : Fin 8),
    aluStep (.add e dst a b) e dst [nReg a, nReg b] 1 (fun g => g.reg a + g.reg b)
    ∧ aluStep (.sub e dst a b) e dst [nReg a, nReg b] 1 (fun g => g.reg a - g.reg b)
    ∧ aluStep (.aluAnd e dst a b) e dst [nReg a, nReg b] 1 (fun g => g.reg a &&& g.reg b)
    ∧ aluStep (.aluOr e dst a b) e dst [nReg a, nReg b] 1 (fun g => g.reg a ||| g.reg b)
    ∧ aluStep (.aluXor e dst a b) e dst [nReg a, nReg b] 1 (fun g => g.reg a ^^^ g.reg b)
    ∧ aluStep (.aluAndn e dst a b) e dst [nReg a, nReg b] 1 (fun g => g.reg a &&& ~~~g.reg b)
    ∧ aluStep (.sll e dst a b) e dst [nReg a, nReg b] 1 (fun g => g.reg a <<< ((g.reg b).toNat % 64))
    ∧ aluStep (.srl e dst a b) e dst [nReg a, nReg b] 1 (fun g => g.reg a >>> ((g.reg b).toNat % 64))
    ∧ aluStep (.sra e dst a b) e dst [nReg a, nReg b] 1 (fun g => (g.reg a).sshiftRight ((g.reg b).toNat % 64))
    ∧ aluStep (.rol e dst a b) e dst [nReg a, nReg b] 1 (fun g => (g.reg a).rotateLeft ((g.reg b).toNat % 64))
    ∧ aluStep (.ror e dst a b) e dst [nReg a, nReg b] 1 (fun g => (g.reg a).rotateRight ((g.reg b).toNat % 64))
    ∧ aluStep (.mul e dst a b) e dst [nReg a, nReg b] 3 (fun g => g.reg a * g.reg b)
    ∧ aluStep (.mulhu e dst a b) e dst [nReg a, nReg b] 3 (fun g => BitVec.ofNat 64 ((g.reg a).toNat * (g.reg b).toNat / 2 ^ 64))
    ∧ aluStep (.sel e dst a b p) e dst [nReg a, nReg b, pReg p] 1 (fun g => if g.pred p then g.reg a else g.reg b)
    ∧ aluStep (.clz e dst a) e dst [nReg a] 1 (fun g => aluClz (g.reg a))
    ∧ aluStep (.popc e dst a) e dst [nReg a] 1 (fun g => aluPopc (g.reg a))
    ∧ aluStep (.bswap e dst a) e dst [nReg a] 1 (fun g => aluBswap (g.reg a)))
  ∧ (∀ x : Word64, (aluClz x).toNat ≤ 64 ∧ (∀ j, j < 64 → 64 - (aluClz x).toNat ≤ j → x.getLsbD j = false)
      ∧ (x ≠ 0#64 → x.getLsbD (63 - (aluClz x).toNat) = true))
  ∧ (∀ x : Word64, (aluPopc x).toNat = ((List.range 64).filter (fun j => x.getLsbD j)).length)
  ∧ (∀ (x : Word64) (j b : Nat), j < 8 → b < 8 → (aluBswap x).getLsbD (8 * j + b) = x.getLsbD (8 * (7 - j) + b))

/-- R161, R166, Table 8-2: immediates and shifts by an immediate. -/
def Obligations.ImmediatesWriteTheirRegister : Prop :=
  ∀ (e : Fin 196) (dst a : Fin 32) (imm : BitVec 16) (amt : Fin 64),
    aluStep (.addi e dst a imm) e dst [nReg a] 1 (fun g => g.reg a + imm.signExtend 64)
    ∧ aluStep (.andi e dst a imm) e dst [nReg a] 1 (fun g => g.reg a &&& imm.zeroExtend 64)
    ∧ aluStep (.ori e dst a imm) e dst [nReg a] 1 (fun g => g.reg a ||| imm.zeroExtend 64)
    ∧ aluStep (.xori e dst a imm) e dst [nReg a] 1 (fun g => g.reg a ^^^ imm.zeroExtend 64)
    ∧ aluStep (.lsi e dst a imm) e dst [nReg a] 1 (fun g => (g.reg a <<< 16) ||| imm.zeroExtend 64)
    ∧ aluStep (.shiSll e dst a amt) e dst [nReg a] 1 (fun g => g.reg a <<< amt.val)
    ∧ aluStep (.shiSrl e dst a amt) e dst [nReg a] 1 (fun g => g.reg a >>> amt.val)
    ∧ aluStep (.shiSra e dst a amt) e dst [nReg a] 1 (fun g => (g.reg a).sshiftRight amt.val)
    ∧ aluStep (.shiRol e dst a amt) e dst [nReg a] 1 (fun g => (g.reg a).rotateLeft amt.val)

/-- R168: comparisons and predicate operations; the mode of CMP combines the result with the predicate's old value. -/
def Obligations.ComparisonsWritePredicates : Prop :=
  ∀ (e : Fin 196) (pd pa pb : Fin 8) (a b m : Fin 32) (imm : BitVec 16),
    (∀ mode : BitVec 2, mode ≠ 3#2 →
      let rd := if mode = 0#2 then [] else [pReg pd]
      let mix (g : EngSt) (c : Bool) : Bool := if mode = 0#2 then c else if mode = 1#2 then g.pred pd && c else g.pred pd || c
      predStep (.cmpEqm e pd mode a b m) e pd ([nReg a, nReg b, nReg m] ++ rd) (fun g => mix g (decide ((g.reg a ^^^ g.reg b) &&& g.reg m = 0#64)))
      ∧ predStep (.cmpNem e pd mode a b m) e pd ([nReg a, nReg b, nReg m] ++ rd) (fun g => mix g (decide ((g.reg a ^^^ g.reg b) &&& g.reg m ≠ 0#64)))
      ∧ predStep (.cmpEq e pd mode a b) e pd ([nReg a, nReg b] ++ rd) (fun g => mix g (decide (g.reg a = g.reg b)))
      ∧ predStep (.cmpNe e pd mode a b) e pd ([nReg a, nReg b] ++ rd) (fun g => mix g (decide (g.reg a ≠ g.reg b)))
      ∧ predStep (.cmpLtu e pd mode a b) e pd ([nReg a, nReg b] ++ rd) (fun g => mix g (decide ((g.reg a).toNat < (g.reg b).toNat)))
      ∧ predStep (.cmpGeu e pd mode a b) e pd ([nReg a, nReg b] ++ rd) (fun g => mix g (decide ((g.reg b).toNat ≤ (g.reg a).toNat)))
      ∧ predStep (.cmpLt e pd mode a b) e pd ([nReg a, nReg b] ++ rd) (fun g => mix g (decide ((g.reg a).toInt < (g.reg b).toInt)))
      ∧ predStep (.cmpGe e pd mode a b) e pd ([nReg a, nReg b] ++ rd) (fun g => mix g (decide ((g.reg b).toInt ≤ (g.reg a).toInt))))
    ∧ predStep (.cmpiEq e pd a imm) e pd [nReg a] (fun g => decide (g.reg a = imm.signExtend 64))
    ∧ predStep (.cmpiNe e pd a imm) e pd [nReg a] (fun g => decide (g.reg a ≠ imm.signExtend 64))
    ∧ predStep (.cmpiLtu e pd a imm) e pd [nReg a] (fun g => decide ((g.reg a).toNat < (imm.signExtend 64).toNat))
    ∧ predStep (.cmpiGeu e pd a imm) e pd [nReg a] (fun g => decide ((imm.signExtend 64).toNat ≤ (g.reg a).toNat))
    ∧ predStep (.predAnd e pd pa pb) e pd [pReg pa, pReg pb] (fun g => g.pred pa && g.pred pb)
    ∧ predStep (.predOr e pd pa pb) e pd [pReg pa, pReg pb] (fun g => g.pred pa || g.pred pb)
    ∧ predStep (.predXor e pd pa pb) e pd [pReg pa, pReg pb] (fun g => g.pred pa ^^ g.pred pb)
    ∧ predStep (.predAndn e pd pa pb) e pd [pReg pa, pReg pb] (fun g => g.pred pa && !g.pred pb)
    ∧ predStep (.predSet e pd) e pd [] (fun _ => true)
    ∧ predStep (.predClr e pd) e pd [] (fun _ => false)

/-- R167, R169: EXT, EXTS and INS of every field that ends at bit 63 or below (a LEN of 1 to 64), and both halves of CLMUL: the
instruction writes the result, and the result bit by bit. -/
def Obligations.BitFieldsAndCarrylessProducts : Prop :=
  (∀ (e : Fin 196) (dst a b : Fin 32) (off len1 : Fin 64),
    (off.val + len1.val < 64 →
        aluStep (.ext e dst a off len1) e dst [nReg a] 1 (fun g => bfExt (g.reg a) off.val len1.val)
        ∧ aluStep (.exts e dst a off len1) e dst [nReg a] 1 (fun g => bfExts (g.reg a) off.val len1.val)
        ∧ aluStep (.ins e dst a off len1) e dst [nReg a, nReg dst] 1 (fun g => bfIns (g.reg dst) (g.reg a) off.val len1.val))
    ∧ aluStep (.clmulLo e dst a b) e dst [nReg a, nReg b] 2 (fun g => clmulLo (g.reg a) (g.reg b))
    ∧ aluStep (.clmulHi e dst a b) e dst [nReg a, nReg b] 2 (fun g => clmulHi (g.reg a) (g.reg b)))
  ∧ (∀ (x : Word64) (off len1 j : Nat), off + len1 < 64 →
      (bfExt x off len1).getLsbD j = (decide (j ≤ len1) && x.getLsbD (off + j)))
  ∧ (∀ (x : Word64) (off len1 j : Nat), off + len1 < 64 → j < 64 →
      (bfExts x off len1).getLsbD j = x.getLsbD (off + min j len1))
  ∧ (∀ (d x : Word64) (off len1 j : Nat), off + len1 < 64 → j < 64 →
      (bfIns d x off len1).getLsbD j = (if off ≤ j ∧ j ≤ off + len1 then x.getLsbD (j - off) else d.getLsbD j))
  ∧ (∀ (x y : Word64) (j : Nat), j < 127 →
      (if j < 64 then (clmulLo x y).getLsbD j else (clmulHi x y).getLsbD (j - 64))
        = (List.range 64).foldl (fun (acc : Bool) k => acc ^^ (y.getLsbD k && decide (k ≤ j) && x.getLsbD (j - k))) false)
  ∧ (∀ x y : Word64, (clmulHi x y).getLsbD 63 = false)

/-- R165: BR, JAL and JR. A taken branch's target issues 2 CK later; JAL and JR write the index after their own. -/
def Obligations.BranchesMoveThePc : Prop :=
  ∀ (e : Fin 196) (s : State), s.dev.rst = .running →
    (∀ (sense : Bool) (p : Fin 8) (imm : BitVec 16), s.dev.canIssue e { reads := [pReg p], alone := true } →
      ∃ t, exec (.br e sense p imm) s = .next t
        ∧ (t.dev.engOf e).pc = (if (s.dev.engOf e).pred p = sense then pcOf e (BitVec.ofNat 64 (s.dev.engOf e).pc + imm.signExtend 64).toNat else pcOf e ((s.dev.engOf e).pc + 1))
        ∧ ((s.dev.engOf e).pred p = sense → (t.dev.engOf e).nextCk = s.dev.ck + 2)
        ∧ (t.dev.engOf e).n = (s.dev.engOf e).n ∧ (t.dev.engOf e).p = (s.dev.engOf e).p ∧ s.dev.engKeeps t.dev e)
    ∧ (∀ (dst : Fin 32) (imm : BitVec 16), s.dev.canIssue e { writes := [nReg dst], alone := true } →
      ∃ t, exec (.jal e dst imm) s = .next t
        ∧ (t.dev.engOf e).pc = pcOf e (BitVec.ofNat 64 (s.dev.engOf e).pc + imm.signExtend 64).toNat ∧ (t.dev.engOf e).nextCk = s.dev.ck + 2
        ∧ (t.dev.engOf e).reg dst = (if dst = 0 then 0#64 else BitVec.ofNat 64 (pcOf e ((s.dev.engOf e).pc + 1)))
        ∧ (∀ r, r ≠ dst → (t.dev.engOf e).reg r = (s.dev.engOf e).reg r) ∧ (t.dev.engOf e).p = (s.dev.engOf e).p ∧ s.dev.engKeeps t.dev e)
    ∧ (∀ (dst a : Fin 32) (imm : BitVec 16), s.dev.canIssue e { reads := [nReg a], writes := [nReg dst], alone := true } →
      ∃ t, exec (.jr e dst a imm) s = .next t
        ∧ (t.dev.engOf e).pc = pcOf e ((s.dev.engOf e).reg a + imm.signExtend 64).toNat
        ∧ (t.dev.engOf e).nextCk = s.dev.ck + 2
        ∧ (t.dev.engOf e).reg dst = (if dst = 0 then 0#64 else BitVec.ofNat 64 (pcOf e ((s.dev.engOf e).pc + 1)))
        ∧ (∀ r, r ≠ dst → (t.dev.engOf e).reg r = (s.dev.engOf e).reg r) ∧ (t.dev.engOf e).p = (s.dev.engOf e).p ∧ s.dev.engKeeps t.dev e)

/-- R137 to R140, R170, Tables 7-1 and 8-2: the loads. -/
def Obligations.LoadsReadTheirBytes : Prop :=
  ∀ (e : Fin 196) (dst a : Fin 32) (imm : BitVec 16) (ecc : Fin 3),
    loadStep (.ld8u e dst a imm ecc) e dst a imm 1 false ∧ loadStep (.ld16u e dst a imm ecc) e dst a imm 2 false
    ∧ loadStep (.ld32u e dst a imm ecc) e dst a imm 4 false ∧ loadStep (.ld64 e dst a imm ecc) e dst a imm 8 false
    ∧ loadStep (.ld8s e dst a imm ecc) e dst a imm 1 true ∧ loadStep (.ld16s e dst a imm ecc) e dst a imm 2 true
    ∧ loadStep (.ld32s e dst a imm ecc) e dst a imm 4 true

/-- R170, R171: the stores. -/
def Obligations.StoresWriteTheirBytes : Prop :=
  ∀ (e : Fin 196) (src a : Fin 32) (imm : BitVec 16),
    storeStep (.st8 e src a imm) e src a imm 1 ∧ storeStep (.st16 e src a imm) e src a imm 2
    ∧ storeStep (.st32 e src a imm) e src a imm 4 ∧ storeStep (.st64 e src a imm) e src a imm 8

/-- R172, R173, R374, R388: LR, SC, FENCE and FENCE.W. -/
def Obligations.ReservedPairsAndFences : Prop :=
  (∀ (e : Fin 192) (dst a b : Fin 32) (s : State), s.dev.rst = .running →
    let t0 : Fin 196 := ⟨e, by omega⟩
    let d := s.dev
    (∀ (imm : BitVec 16) (ecc : Fin 3), d.canIssue e { mSlot := true, reads := [nReg a], writes := [nReg dst] } →
      (d.engOf e).ea a imm % 8 = 0 → (d.engOf e).ea a imm < 0x2_0000 →
      ∃ t, exec (.lr t0 dst a imm ecc) s = .next t
        ∧ d.engWrote t.dev t0 dst (loadVal 8 false (d.bytes (Na.sp e + (d.engOf e).ea a imm) 8)) 2
        ∧ (t.dev.engOf e).resv = some (Na.sp e + (d.engOf e).ea a imm)
        ∧ t.dev.reserved e (Na.sp e + (d.engOf e).ea a imm) (Ep.newt e) = true)
    ∧ (d.canIssue e { mSlot := true, reads := [nReg a, nReg b], writes := [nReg dst] } →
      ((d.engOf e).reg a).toNat % 8 = 0 → ((d.engOf e).reg a).toNat < 0x2_0000 →
      let x := Na.sp e + ((d.engOf e).reg a).toNat
      (((d.engOf e).resv = some x ∧ d.reserved e x (Ep.newt e) = true) →
        ∃ t, exec (.sc t0 dst a b) s = .next t ∧ d.memWrote t.dev x 8 ((d.engOf e).reg b)
          ∧ (t.dev.engOf e).reg dst = 0#64 ∧ (t.dev.engOf e).resv = none ∧ (t.dev.engOf e).p = (d.engOf e).p
          ∧ (∀ r, r ≠ dst → (t.dev.engOf e).reg r = (d.engOf e).reg r))
      ∧ (¬ ((d.engOf e).resv = some x ∧ d.reserved e x (Ep.newt e) = true) →
        ∃ t, exec (.sc t0 dst a b) s = .next t ∧ d.engWrote t.dev t0 dst 1#64 2 ∧ (t.dev.engOf e).resv = none)))
  ∧ (∀ (e : Fin 196) (s : State), s.dev.rst = .running → s.dev.canIssue e { mSlot := true } →
    (∃ t, exec (.fence e) s = .next t ∧ s.dev.engSteps t.dev e ∧ s.dev.engKeeps t.dev e
      ∧ (s.dev.fenceMet e false = none → (t.dev.engOf e).fence = some false)
      ∧ (∀ c, s.dev.fenceMet e false = some c → (t.dev.engOf e).fence = none ∧ c ≤ (t.dev.engOf e).mFree ∧ s.dev.ck < (t.dev.engOf e).mFree))
    ∧ (∃ t, exec (.fenceW e) s = .next t ∧ s.dev.engSteps t.dev e ∧ s.dev.engKeeps t.dev e
      ∧ (e.val < 192 → s.dev.fenceMet e true = none → (t.dev.engOf e).fence = some true)
      ∧ (∀ c, e.val < 192 → s.dev.fenceMet e true = some c → (t.dev.engOf e).fence = none ∧ c ≤ (t.dev.engOf e).mFree ∧ s.dev.ck < (t.dev.engOf e).mFree)
      ∧ (192 ≤ e.val → (t.dev.engOf e).fence = (if (s.dev.gkOf (e - 192)).missed then some true else none)
          ∧ s.dev.ck + 4 * ((s.dev.gkOf (e - 192)).wbuf.length + (s.dev.gkOf (e - 192)).spill.length) < (t.dev.engOf e).mFree)))


/-- R138, R140, R157, R171, R371: requests that reach an engine's memories from outside, and the answers to its own. -/
def Obligations.EngineRequestsAreServed : Prop :=
  ∀ (s : State), s.dev.rst = .running →
    (∀ (e : Fin 192) (bank : Fin 4) (ecc : Fin 3), sget [] s.dev.spQ (e * 4 + bank) = [] →
      exec (.scratchpadRequest e bank ecc) s = s.becomes (s.dev.begin (.scratchpadRequest e bank ecc)))
    ∧ (∀ (e : Fin 192) (bank : Fin 4) (ecc : Fin 3) (x c : Nat), sget [] s.dev.spQ (e * 4 + bank) = [(x, c)] →
      s.dev.bankBusy e bank = false →
      (∀ a ∈ (s.dev.begin (.scratchpadRequest e bank ecc)).agenda, s.dev.ck < a.1 ∨ insTarget a.2 ≠ some e.val) →
      exec (.scratchpadRequest e bank ecc) s =
        s.becomes (Dev.spServe { s.dev.begin (.scratchpadRequest e bank ecc) with spQ := sset [] s.dev.spQ (e * 4 + bank) [] } e (x / 64) (x % 64) ecc)
      ∧ ∀ q : NocReq, sfind s.dev.nocReqs (x / 64) = some q → x / 64 < 2 ^ 40 →
        let mine (a : Nat) : Prop := q.addr / 32 * 32 + 32 * (x % 64) ≤ a ∧ a < q.addr / 32 * 32 + 32 * (x % 64) + 32
        (q.op = .read → ∃ t r, exec (.scratchpadRequest e bank ecc) s = .next t ∧ sget [] t.dev.spQ (e * 4 + bank) = []
          ∧ sfind t.dev.nocReqs (x / 64) = some r ∧ r.left = q.left - 1 ∧ t.dev.mem = s.dev.mem
          ∧ ∀ i, i < q.len → (mine (q.addr + i) → byteAt r.data i = s.dev.byte (q.addr + i))
            ∧ (¬ mine (q.addr + i) → byteAt r.data i = byteAt q.data i))
        ∧ (q.op = .write → q.addr < 2 ^ 64 → ∃ t r, exec (.scratchpadRequest e bank ecc) s = .next t ∧ sget [] t.dev.spQ (e * 4 + bank) = []
          ∧ sfind t.dev.nocReqs (x / 64) = some r ∧ r.left = q.left - 1
          ∧ ∀ a, (∀ i v, i < q.wr.length → q.wr.getD i none = some v → mine (q.addr + i) → a = q.addr + i → t.dev.byte a = v)
            ∧ ((∀ i, i < q.wr.length → mine (q.addr + i) → a ≠ q.addr + i) → t.dev.byte a = s.dev.byte a)))
    ∧ (∀ (id : Nat) (q : NocReq), sfind s.dev.nocReqs id = some q →
      ((∀ x ∈ s.dev.spQ, ∀ y ∈ x.2, y.1 / 64 ≠ id) →
        exec (.scratchpadBusyTimeout id) s = s.becomes (s.dev.begin (.scratchpadBusyTimeout id)))
      ∧ ((∃ x ∈ s.dev.spQ, ∃ y ∈ x.2, y.1 / 64 = id) → ∃ t, exec (.scratchpadBusyTimeout id) s = .next t
        ∧ (∀ x ∈ t.dev.spQ, ∀ y ∈ x.2, y.1 / 64 ≠ id)
        ∧ t.dev.mem = s.dev.mem
        ∧ ∀ e : Fin 192, (q.addr - Na.sp 0) / 0x2_0000 = e →
            t.dev.fld (Pg.newt e) (F.ERRCNT 6) = min (s.dev.fld (Pg.newt e) (F.ERRCNT 6) + 1) 0xFFFFFFFF))
    ∧ (∀ (b : Fin 12) (bank : Fin 16) (ecc : Fin 3) (r : BayReq) (o : Nat × Nat × Nat × Bool),
      sget [] s.dev.bayQ (b * 16 + bank) = [r] → s.dev.bayTurn b r = true → r.due ≤ s.dev.ck → r.lost < 8 → r.who < 16 → r.load = some o → r.lr = false →
      ∃ t, exec (.bayMemArbitrate b bank [] ecc) s = .next t
        ∧ sget [] t.dev.bayQ (b * 16 + bank) = []
        ∧ (t.dev.engOf (16 * b + r.who)).reg (Fin.ofNat 32 o.1) = (if Fin.ofNat 32 o.1 = 0 then 0#64
            else loadVal o.2.2.1 o.2.2.2 (((s.dev.bytes (Na.bay b + r.word) 8).drop o.2.1).take o.2.2.1))
        ∧ t.dev.mem = s.dev.mem)
    ∧ (∀ (e : Fin 196) (id : Nat) (q : NocReq) (reg size : Nat) (sx : Bool), sfind s.dev.nocReqs id = some q → q.ph = .done →
      q.who = .load e reg size sx → q.status = Ns.ok → reg < 32 →
      ∃ t, exec (.remoteResponse e id) s = .next t
        ∧ sfind t.dev.nocReqs id = none
        ∧ (t.dev.engOf e).reg (Fin.ofNat 32 reg) = (if reg = 0 then 0#64 else loadVal size sx q.data)
        ∧ t.dev.mem = s.dev.mem ∧ t.dev.recs = s.dev.recs)

/-- R145, R146, R207: an engine takes its next record at POP, from start code, or at an offer that ends the wait of a POP. -/
def Obligations.TasksBeginAtPopAndOffer : Prop :=
  (∀ (e : Fin 192) (s : State), s.dev.rst = .running →
    (s.dev.engState e = Es.run → s.dev.canIssue e { mSlot := true, alone := true, afterStores := true, writes := [1, 2, 3, 4] } → (s.dev.engOf e).task = none → (s.dev.engOf e).stopping = false →
      (∀ (rid : Nat) (r : Rec), s.dev.nextOffer e = some (rid, r) →
        ∃ t, exec (.pop (newtTarget e)) s = .next t ∧ s.dev.taskBegun t.dev e rid)
      ∧ (s.dev.nextOffer e = none →
        ∃ t, exec (.pop (newtTarget e)) s = .next t ∧ t.dev.engState e = Es.wait ∧ (t.dev.engOf e).popWait = true
          ∧ (t.dev.engOf e).n = (s.dev.engOf e).n ∧ s.dev.engKeeps t.dev e))
    ∧ (s.dev.engState e = Es.stopping → s.dev.canIssue e { mSlot := true, alone := true, afterStores := true, writes := [1, 2, 3, 4] } → (s.dev.engOf e).task = none →
        (s.dev.engOf e).stopping = true →
        ∃ t, exec (.pop (newtTarget e)) s = .next t ∧ t.dev.engState e = Es.off ∧ (t.dev.engOf e).stopping = false))
  ∧ (∀ (e : Fin 192) (s : State), s.dev.rst = .running → s.dev.engState e = Es.wait → (s.dev.engOf e).popWait = true →
    (∀ (rid : Nat) (r : Rec), s.dev.nextOffer e = some (rid, r) → ∃ t, exec (.recordOffer e) s = .next t ∧ s.dev.taskBegun t.dev e rid)
    ∧ (s.dev.nextOffer e = none → exec (.recordOffer e) s = s.becomes (s.dev.begin (.recordOffer e))))


/-- R102, R146, R148, R151, R174: PEEK, PUSH, EMIT, the event line of an EMIT. -/
def Obligations.StreamInstructions : Prop :=
  ∀ (e : Fin 192) (dst a b : Fin 32) (trunc : Bool) (ecc : Fin 3) (line : Fin 8) (s : State), s.dev.rst = .running →
    let d := s.dev
    let t0 := newtTarget e
    (dst ≠ 0 → d.canIssue e { mSlot := true, writes := [nReg dst, pReg 0] } →
      ∃ t, exec (.peek t0 dst) s = .next t ∧ d.engKeeps t.dev e
        ∧ (∀ rid r, d.nextOffer e = some (rid, r) → (t.dev.engOf e).pred 0 = true
            ∧ (t.dev.engOf e).reg dst = BitVec.ofNat 64 (leNat (((headerBytes r r.body.1 r.body.2).drop 8).take 8)))
        ∧ (d.nextOffer e = none → (t.dev.engOf e).pred 0 = false ∧ (t.dev.engOf e).reg dst = 0#64)
        ∧ (∀ q, q ≠ 0 → (t.dev.engOf e).pred q = (d.engOf e).pred q) ∧ (∀ r, r ≠ dst → (t.dev.engOf e).reg r = (d.engOf e).reg r))
    ∧ (∀ rid len, d.canIssue e { mSlot := true, reads := [nReg a, nReg b] } → (d.engOf e).task = some rid → (d.engOf e).pushed = false →
      len = ((d.engOf e).reg a).toNat % 2 ^ 16 → len + 32 ≤ (d.engOf e).window.length →
      ∃ t, exec (.pushCur t0 a b trunc) s = .next t ∧ (t.dev.engOf e).pushed = true
        ∧ (t.dev.recOf rid).st = .emitted ∧ (t.dev.recOf rid).body.1 = ((d.engOf e).window.drop 32).take len
        ∧ (t.dev.recOf rid).tag = ((d.engOf e).reg b).toNat % 2 ^ 24
        ∧ bit (t.dev.recOf rid).body.2 1 = (bit (d.recOf rid).body.2 1 || trunc || decide (len + 32 < (d.engOf e).window.length))
        ∧ (d.ck + 4, .captureWrite (halfOf (d.recOf rid).half) 0) ∈ t.dev.agenda
        ∧ t.dev.fld (Pg.newt e) F.NEWT_EMIT_CNT = min (d.fld (Pg.newt e) F.NEWT_EMIT_CNT + 1) 0xFFFFFFFF
        ∧ (t.dev.engOf e).n = (d.engOf e).n ∧ t.dev.mem = d.mem)
    ∧ (∀ rid len x, d.canIssue e { mSlot := true, reads := [nReg dst, nReg a, nReg b] } → (d.engOf e).task = some rid → (d.engOf e).pushed = false →
      len = ((d.engOf e).reg a).toNat % 2 ^ 16 → x = ((d.engOf e).reg dst).toNat → len ≤ 65504 → x % 32 = 0 → x + len ≤ 0x2_0000 →
      ∃ t, exec (.pushSp t0 dst a b trunc ecc) s = .next t ∧ (t.dev.engOf e).pushed = true
        ∧ (t.dev.recOf rid).st = .emitted ∧ (t.dev.recOf rid).body.1 = d.bytes (Na.sp e + x) len
        ∧ (t.dev.recOf rid).tag = ((d.engOf e).reg b).toNat % 2 ^ 24
        ∧ (d.ck + 4, .captureWrite (halfOf (d.recOf rid).half) 0) ∈ t.dev.agenda
        ∧ d.ck + max 1 ((len + 31) / 32) ≤ (t.dev.engOf e).mFree
        ∧ (t.dev.engOf e).n = (d.engOf e).n ∧ t.dev.mem = d.mem)
    ∧ (d.canIssue e { mSlot := true } →
      ∃ t, exec (.emit t0 line) s = .next t ∧ (d.ck + 1, .userEventLine (halfOf (engHalf e)) line) ∈ t.dev.agenda
        ∧ d.engSteps t.dev t0 ∧ d.engKeeps t.dev e)
    ∧ (∀ (h : Half) (c : Nat), (c, .userEventLine h line) ∈ d.agenda → c ≤ d.ck →
      (sget [] d.trigEvs h.val).any (fun x => decide (x.ck = d.ck) && decide (x.src = 0x69 + line.val)) = false →
      ∃ t, exec (.userEventLine h line) s = .next t ∧ ⟨d.ck, 0x69 + line.val, d.pubLp h.val, none⟩ ∈ sget [] t.dev.trigEvs h.val
        ∧ t.dev.recs = d.recs ∧ t.dev.mem = d.mem)

/-- R155, R156, R162, R174, R175, Table 7-5: exceptions of a Newt engine, an exception in the handler, the task budget. -/
def Obligations.NewtExceptions : Prop :=
  (∀ (e : Fin 192) (s : State), s.dev.rst = .running → s.dev.newtReady e →
    (s.dev.canIssue e { noSlot := true, alone := true } → ∃ t, exec (.trap (newtTarget e)) s = .next t ∧ s.dev.newtTrapped t.dev e 8 false 0)
    ∧ (∀ (cause : Fin 16) (retry : Bool) (addr : Word64), 1 ≤ cause.val → cause.val ≤ 8 →
        ∃ t, exec (.engineTrap e cause retry addr) s = .next t ∧ s.dev.newtTrapped t.dev e cause retry addr.toNat)
    ∧ (∀ (dst a : Fin 32) (num : BitVec 11) (pd : Fin 8) (off len1 : Fin 64) (i : Instr),
        i ∈ [.csrr (newtTarget e) dst num, .csrw (newtTarget e) dst a num, .csrs (newtTarget e) dst a num, .csrc (newtTarget e) dst a num,
             .eret (newtTarget e), .wfi (newtTarget e), .ecall (newtTarget e), .cmpEq (newtTarget e) pd 3#2 dst a,
             .cmpLtu (newtTarget e) pd 3#2 dst a] ∨ (64 ≤ off.val + len1.val ∧ (i = .ext (newtTarget e) dst a off len1
               ∨ i = .exts (newtTarget e) dst a off len1 ∨ i = .ins (newtTarget e) dst a off len1)) →
        ∃ t, exec i s = .next t ∧ s.dev.newtTrapped t.dev e 2 false 0)
    ∧ (∀ (dst a : Fin 32) (imm : BitVec 16) (ecc : Fin 3), s.dev.canIssue e { mSlot := true, reads := [nReg a], writes := [nReg dst] } →
        let ea := (s.dev.engOf e).ea a imm
        (ea % 8 ≠ 0 → ∃ t, exec (.ld64 (newtTarget e) dst a imm ecc) s = .next t ∧ s.dev.newtTrapped t.dev e 3 false ea)
        ∧ (ea % 8 = 0 → newtTgt ea = .hole → ∃ t, exec (.ld64 (newtTarget e) dst a imm ecc) s = .next t ∧ s.dev.newtTrapped t.dev e 4 false ea)))
  ∧ (∀ (e : Fin 192) (cause : Fin 16) (retry : Bool) (addr : Word64) (s : State), s.dev.rst = .running → s.dev.mayIssue e = true →
    (s.dev.engOf e).inTrap = true → (s.dev.engOf e).task = none → 1 ≤ cause.val → cause.val ≤ 8 →
    ∃ t, exec (.engineTrap e cause retry addr) s = .next t ∧ t.dev.engState e = Es.halted
      ∧ t.dev.fld (Pg.newt e) F.NEWT_CAUSE_NESTED = 1
      ∧ t.dev.fld (Pg.newt e) F.NEWT_EPC_PC = s.dev.fld (Pg.newt e) F.NEWT_EPC_PC
      ∧ t.dev.fld (Pg.newt e) F.NEWT_CAUSE_CODE = s.dev.fld (Pg.newt e) F.NEWT_CAUSE_CODE
      ∧ t.dev.fld (Pg.newt e) (F.ERRCNT 2) = min (s.dev.fld (Pg.newt e) (F.ERRCNT 2) + 1) 0xFFFFFFFF
      ∧ s.dev.engKeeps t.dev e)
  ∧ (∀ (e : Fin 192) (s : State), s.dev.rst = .running → s.dev.newtReady e →
    let g := s.dev.engOf e
    let limit := s.dev.fld (Pg.newt e) F.NEWT_TASK_LIMIT
    g.task.isSome → g.taskCk ≠ 0 → limit ≠ 0 → g.offFrom = 0 →
    (limit ≤ s.dev.ck + 1 - g.taskCk - g.offCk → ∃ t, exec (.taskLimitExpiry e) s = .next t ∧ s.dev.newtTrapped t.dev e 6 false 0)
    ∧ (s.dev.ck + 1 - g.taskCk - g.offCk < limit → ∃ t, exec (.taskLimitExpiry e) s = .next t
        ∧ t.dev.awaits (.taskLimitExpiry e) = true ∧ t.dev.engs = s.dev.engs))



/-- R145: NEWTn_CTRL.RUN. -/
def Obligations.RunStartsAndStopsEngines : Prop :=
  ∀ (e : Fin 192) (s : State), s.dev.rst = .running → s.dev.unpaired →
    (∀ val : Word, val.toNat % 2 = 1 → s.dev.fld (Pg.newt e) F.NEWT_CTRL_RUN = 0 → (s.dev.engState e = Es.off ∨ s.dev.engState e = Es.halted) →
      s.dev.started = true → s.dev.domOpen (Dom.bay (e / 16)) = true →
      ∃ t, exec (.newtRunWrite e val) s = .next t ∧ t.dev.engState e = Es.run ∧ (∀ r, (t.dev.engOf e).reg r = 0#64)
        ∧ (t.dev.engOf e).pc = s.dev.fld (Pg.newt e) F.NEWT_START_PC ∧ (t.dev.engOf e).task = none
        ∧ t.dev.fld (Pg.newt e) F.NEWT_CTRL_RUN = 1)
    ∧ (∀ val : Word, val.toNat % 2 = 0 → s.dev.fld (Pg.newt e) F.NEWT_CTRL_RUN = 1 →
      ∃ t, exec (.newtRunWrite e val) s = .next t ∧ t.dev.fld (Pg.newt e) F.NEWT_CTRL_RUN = 0
        ∧ (s.dev.engState e = Es.halted ∨ s.dev.engState e = Es.wait → t.dev.engState e = Es.off)
        ∧ (s.dev.engState e = Es.run ∨ s.dev.engState e = Es.trap → t.dev.engState e = Es.stopping ∧ (t.dev.engOf e).stopping = true))

/-- R144, R158, R308: the instruction memory through its register window, and the background test. -/
def Obligations.InstructionMemoryAndTests : Prop :=
  ∀ (e : Fin 192) (s : State), s.dev.rst = .running →
    let pg := Pg.newt e
    let i := s.dev.fld pg F.NEWT_IMEM_IDX_IDX
    (∀ peek : Bool, ∃ t, exec (.imemDataAccess e none peek) s = .next t
        ∧ .rdata (raddr pg 0x124) (s.dev.imemWord e i) ∈ t.dev.out ∧ t.dev.imem = s.dev.imem
        ∧ t.dev.fld pg F.NEWT_IMEM_IDX_IDX = (if peek then i else (i + 1) % 8192))
    ∧ (∀ v : Word, s.dev.unpaired → (s.dev.engState e = Es.off ∨ s.dev.engState e = Es.halted) →
        ∃ t, exec (.imemDataAccess e (some v) false) s = .next t ∧ t.dev.imemWord e i = v
          ∧ (∀ f j, (f, j % 8192) ≠ (e.val, i) → t.dev.imemWord f j = s.dev.imemWord f j)
          ∧ t.dev.fld pg F.NEWT_IMEM_IDX_IDX = (i + 1) % 8192)
    ∧ (∀ v : Word, s.dev.unpaired → s.dev.engState e ≠ Es.off → s.dev.engState e ≠ Es.halted →
        ∃ t, exec (.imemDataAccess e (some v) false) s = .next t ∧ t.dev.imem = s.dev.imem
          ∧ t.dev.fld pg (F.ERRCNT 3) = min (s.dev.fld pg (F.ERRCNT 3) + 1) 0xFFFFFFFF)
    ∧ (let x := s.dev.testOf e
      ∀ r : Fin 2048, x.ended = false → s.dev.flag pg F.NEWT_CTRL_TEST_EN = true →
        (r.val ≠ x.region → exec (.memTestRegion (.imem e) r true) s = s.becomes (s.dev.begin (.memTestRegion (.imem e) r true)))
        ∧ (r.val = x.region → x.region + 1 < 32 → ∃ t, exec (.memTestRegion (.imem e) r true) s = .next t
          ∧ (t.dev.testOf e).region = x.region + 1 ∧ (t.dev.testOf e).laps = x.laps ∧ t.dev.reg pg 0x150 = s.dev.reg pg 0x150
          ∧ t.dev.imem = s.dev.imem)
        ∧ (r.val = x.region → x.region = 31 → ∃ t, exec (.memTestRegion (.imem e) r true) s = .next t ∧ (t.dev.testOf e).region = 0
          ∧ (t.dev.testOf e).laps = x.laps + 1 ∧ t.dev.reg pg 0x150 = BitVec.ofNat 32 ((s.dev.ck - x.since) / 1000) ∧ t.dev.imem = s.dev.imem)
        ∧ (r.val = x.region → ∃ t, exec (.memTestRegion (.imem e) r false) s = .next t ∧ t.dev.fld pg F.NEWT_TEST_STAT_IMEM_REP = 1
          ∧ (t.dev.testOf e).ended = true ∧ t.dev.fld pg (F.ERRCNT 4) = min (s.dev.fld pg (F.ERRCNT 4) + 1) 0xFFFFFFFF))

/-- R176, R177, R181, Table 8-7: CSRR, CSRW, CSRS and CSRC of a core, allowed and not. -/
def Obligations.ControlRegisterInstructions : Prop :=
  (∀ (k : Fin 4) (dst a : Fin 32) (num : BitVec 11) (s : State), s.dev.rst = .running →
    let d := s.dev
    let g := d.engOf (192 + k)
    let old := d.csrRead k num.toNat
    let e := coreTarget k
    let done (t : State) : Prop := (t.dev.engOf e).reg dst = (if dst = 0 then 0#64 else old)
      ∧ (∀ r, r ≠ dst → (t.dev.engOf e).reg r = g.reg r) ∧ (t.dev.engOf e).p = g.p ∧ (t.dev.engOf e).pc = pcOf e (g.pc + 1) ∧ d.engKeeps t.dev e
    let wrote (t : State) (v : Word64) : Prop := done t
      ∧ (∀ m, csrMask num.toNat = some m → t.dev.csr k num.toNat = (d.csr k num.toNat &&& ~~~BitVec.ofNat 64 m) ||| (v &&& BitVec.ofNat 64 m))
      ∧ (∀ n, n ≠ num.toNat → t.dev.csr k n = d.csr k n)
    (d.canIssue e { writes := [nReg dst] } → d.csrCause k num.toNat false = none →
      ∃ t, exec (.csrr e dst num) s = .next t ∧ done t ∧ (∀ n, t.dev.csr k n = d.csr k n))
    ∧ (d.canIssue e { reads := [nReg a], writes := [nReg dst] } → d.csrCause k num.toNat true = none →
      (∃ t, exec (.csrw e dst a num) s = .next t ∧ wrote t (g.reg a))
      ∧ (∃ t, exec (.csrs e dst a num) s = .next t ∧ wrote t (old ||| g.reg a))
      ∧ (∃ t, exec (.csrc e dst a num) s = .next t ∧ wrote t (old &&& ~~~g.reg a))))
  ∧ (∀ (k : Fin 4) (dst a : Fin 32) (num : BitVec 11) (c : Nat) (s : State), s.dev.rst = .running → s.dev.coreReady k →
    (s.dev.canIssue (coreTarget k) { writes := [nReg dst] } → s.dev.csrCause k num.toNat false = some c →
      ∃ t, exec (.csrr (coreTarget k) dst num) s = .next t ∧ s.dev.gkTrapped t.dev k c false 0 0)
    ∧ (s.dev.canIssue (coreTarget k) { reads := [nReg a], writes := [nReg dst] } → s.dev.csrCause k num.toNat true = some c →
      ∃ t, exec (.csrw (coreTarget k) dst a num) s = .next t ∧ s.dev.gkTrapped t.dev k c false 0 0)
    ∧ (csrMask num.toNat = none → s.dev.csrCause k num.toNat false = some 2)
    ∧ (csrMask num.toNat = some 0 → s.dev.csrCause k num.toNat true = some 2)
    ∧ (∀ m, csrMask num.toNat = some m → m ≠ 0 → s.dev.gkPriv k = false → s.dev.csrCause k num.toNat true = some 9)
    ∧ (∀ m, csrMask num.toNat = some m → s.dev.gkPriv k = true → s.dev.csrCause k num.toNat false = none))


/-- R180, R181: ECALL, exceptions and interrupts of a core, ERET, WFI. -/
def Obligations.CoreExceptionsAndReturn : Prop :=
  ∀ (k : Fin 4) (s : State), s.dev.rst = .running →
    let d := s.dev
    let e := coreTarget k
    (d.coreReady k → d.canIssue e { noSlot := true, alone := true } →
      (∃ t, exec (.ecall e) s = .next t ∧ d.gkTrapped t.dev k 0xB false 0 0)
      ∧ (∃ t, exec (.trap e) s = .next t ∧ d.gkTrapped t.dev k 8 false 0 0))
    ∧ (d.coreReady k → ∀ (cause : Fin 16) (retry : Bool) (addr : Word64), cause.val ∈ [1, 2, 3, 4, 5, 8, 9, 0xA, 0xB] →
      (d.gkTakeable k = none → ∃ t, exec (.geckoException k cause retry addr) s = .next t ∧ d.gkTrapped t.dev k cause retry addr.toNat 0)
      ∧ (∀ irq, d.gkTakeable k = some irq →
        ∃ t, exec (.geckoException k cause retry addr) s = .next t ∧ d.gkTrapped t.dev k 0xC false 0 irq))
    ∧ (∀ irq, d.coreReady k → d.inMonitor (192 + k) = false → d.gkTakeable k = some irq →
      ∃ t, exec (.interruptTaken k) s = .next t ∧ d.gkTrapped t.dev k 0xC false 0 irq)
    ∧ (d.canIssue e { alone := true } → d.gkPriv k = true → (d.gkOf k).live = false →
      ∃ t, exec (.eret e) s = .next t ∧ t.dev.csr k Csr.status.num = statusReturn (d.csr k Csr.status.num)
        ∧ (t.dev.engOf e).pc = (d.csr k Csr.epc.num).toNat % 2 ^ 62 ∧ (t.dev.engOf e).nextCk = d.ck + 2
        ∧ (∀ n, n ≠ Csr.status.num → t.dev.csr k n = d.csr k n) ∧ (t.dev.engOf e).n = (d.engOf e).n ∧ d.engKeeps t.dev e)
    ∧ (d.canIssue e { alone := true } → d.coreReady k → d.gkPriv k = false →
      ∃ t, exec (.eret e) s = .next t ∧ d.gkTrapped t.dev k 9 false 0 0)
    ∧ (d.canIssue e { mSlot := true, alone := true } → d.gkPriv k = true →
      (d.gkWaiting k ≠ 0 → ∃ t, exec (.wfi e) s = .next t ∧ d.engSteps t.dev e ∧ t.dev.fld (Pg.gecko k) F.GECKO_STAT_STATE = Gs.run)
      ∧ (d.gkWaiting k = 0 → ∃ t, exec (.wfi e) s = .next t ∧ (t.dev.engOf e).pc = (d.engOf e).pc ∧ (t.dev.engOf e).popWait = true
          ∧ t.dev.fld (Pg.gecko k) F.GECKO_STAT_STATE = Gs.wfi))

/-- R392, R393, R394: mailboxes, interrupt acknowledgement, timer, watchdog and reset of the cores. -/
def Obligations.CoreControlCommands : Prop :=
  ∀ (k : Fin 4) (s : State), s.dev.rst = .running →
    let d := s.dev
    let pg := Pg.gecko k
    (∀ val : Word, ∃ t, exec (.mboxWrite k val) s = .next t
        ∧ t.dev.reg (Pg.gecko (otherCore k)) 0x10C = val ∧ 4 ∈ (t.dev.gkOf (otherCore k)).srcs ∧ t.dev.mem = d.mem)
    ∧ (∀ (val : Word) (n : Nat), ∃ t, exec (.irqAck k val) s = .next t
        ∧ (n ∈ (t.dev.gkOf k).srcs ↔ n ∈ (d.gkOf k).srcs ∧ ¬ (n ∈ [0, 4, 5] ∧ bit val.toNat n = true)))
    ∧ (∃ t, exec (.kick k) s = .next t ∧ 2 ∉ (t.dev.gkOf k).srcs ∧ (t.dev.gkOf k).wdogOnce = false
        ∧ (t.dev.gkOf k).wdogCk = (if d.fld pg F.GECKO_WDOG_PERIOD = 0 then none else some (d.ck + 1000 * d.fld pg F.GECKO_WDOG_PERIOD)))
    ∧ (∀ c, (d.gkOf k).wdogCk = some c → c ≤ d.ck → d.fld pg F.GECKO_STAT_STATE ≠ Gs.reset → d.fld pg F.GECKO_STAT_STATE ≠ Gs.stopped →
        ((d.gkOf k).wdogOnce = false → ∃ t, exec (.watchdogExpiry k) s = .next t ∧ 2 ∈ (t.dev.gkOf k).srcs ∧ (t.dev.gkOf k).wdogOnce = true)
        ∧ ((d.gkOf k).wdogOnce = true → ∃ t, exec (.watchdogExpiry k) s = .next t
            ∧ t.dev.fld pg F.GECKO_STAT_STATE = Gs.stopped
            ∧ t.dev.fld pg (F.ERRCNT 2) = min (d.fld pg (F.ERRCNT 2) + 1) 0xFFFFFFFF
            ∧ t.dev.reg (Pg.gecko (otherCore k)) 0x10C = 0xFFFFFFFF#32 ∧ 4 ∈ (t.dev.gkOf (otherCore k)).srcs))
    ∧ (d.fld pg F.GECKO_STAT_STATE = Gs.wfi → (d.engOf (192 + k)).popWait = true → (d.dbgOf (192 + k)).stop = none → d.gkWaiting k ≠ 0 →
        ∃ t, exec (.timerCompare k) s = .next t ∧ t.dev.fld pg F.GECKO_STAT_STATE = Gs.run ∧ d.engSteps t.dev (coreTarget k))
    ∧ ((d.gkOf k).resetCk = none → d.inMonitor (192 + k) = false →
        ∃ t, exec (.geckoCoreReset k) s = .next t ∧ t.dev.fld pg F.GECKO_STAT_STATE = Gs.reset ∧ t.dev.engOf (192 + k) = {}
          ∧ (∀ n, t.dev.csr k n = csrReset n) ∧ (t.dev.gkOf k).dcache = [] ∧ (t.dev.gkOf k).icache = [] ∧ (t.dev.gkOf k).wbuf = []
          ∧ (∀ idx, (d.gkOf k).entry = some idx → t.dev.awaits (.geckoCoreReset k) = true ∧ (t.dev.gkOf k).resetCk = some (d.ck + 16)))
    ∧ (∀ c idx, (d.gkOf k).resetCk = some c → (d.gkOf k).entry = some idx → c ≤ d.ck →
        ∃ t, exec (.geckoCoreReset k) s = .next t ∧ t.dev.fld pg F.GECKO_STAT_STATE = Gs.run
          ∧ (t.dev.engOf (192 + k)).pc = idx ∧ (∀ r, (t.dev.engOf (192 + k)).reg r = 0#64) ∧ (∀ n, t.dev.csr k n = csrReset n))

/-- R387 to R390: cache lines, the write buffer, cache operations. -/
def Obligations.CachesAndWriteBuffer : Prop :=
  ∀ (k : Fin 4) (s : State), s.dev.rst = .running →
    let d := s.dev
    let pg := Pg.gecko k
    let a := d.reg64 pg 0x164
    let n := d.fld pg F.GECKO_DC_LEN
    (∀ (line id : Nat) (q : NocReq), (d.begin (.cacheLineFill k line false)).nocReqs.find?
        (fun (p : Nat × NocReq) => p.2.who = .fill k line false && p.2.ph = .done) = some (id, q) →
      q.status = Ns.ok → q.bad = [] → (∀ l ∈ (d.gkOf k).loads, lineOf l.addr ≠ line) →
      (cachePut (d.gkOf k).dcache ⟨line, q.data, false⟩).2 = none →
      ∃ t, exec (.cacheLineFill k line false) s = .next t ∧ cacheFind (t.dev.gkOf k).dcache line = some ⟨line, q.data, false⟩
        ∧ (t.dev.gkOf k).icache = (d.gkOf k).icache ∧ t.dev.mem = d.mem)
    ∧ (∀ (w : WEnt) (rest : List WEnt), (d.gkOf k).wbuf = w :: rest → (d.gkOf k).spill = [] →
      ∃ t q, exec (.writeBufferDrain k) s = .next t ∧ (t.dev.gkOf k).wbuf = rest ∧ sfind t.dev.nocReqs d.nextNoc = some q
        ∧ q.op = .write ∧ w.unit ≤ q.addr ∧ q.addr < w.unit + 32 ∧ t.dev.fld pg F.GECKO_STAT_WBUF = rest.length % 2 ^ F.GECKO_STAT_WBUF.wd)
    ∧ (∀ ic : Bool, a % 64 = 0 → n % 64 = 0 → n ≠ 0 → (d.gkOf k).opCk = none →
      let took (t : State) : Prop := t.dev.fld pg F.GECKO_DC_OP_STATUS = 1 ∧ (t.dev.gkOf k).opCk = some (d.ck + 8 + n / 64)
        ∧ t.dev.awaits (.cacheOpDone k) = true
      (∃ t, exec (.clean k ic) s = .next t ∧ took t ∧ ∀ x ∈ (t.dev.gkOf k).dcache, a ≤ x.line → x.line < a + n → x.dirty = false)
      ∧ (∃ t, exec (.inval k ic) s = .next t ∧ took t ∧ (∀ x ∈ (t.dev.gkOf k).dcache, x.line < a ∨ a + n ≤ x.line)
          ∧ (ic = true → ∀ x ∈ (t.dev.gkOf k).icache, x.line < a ∨ a + n ≤ x.line))
      ∧ (∃ t, exec (.cleanInval k ic) s = .next t ∧ took t ∧ (∀ x ∈ (t.dev.gkOf k).dcache, x.line < a ∨ a + n ≤ x.line)
          ∧ (ic = true → ∀ x ∈ (t.dev.gkOf k).icache, x.line < a ∨ a + n ≤ x.line)))
    ∧ (∀ ic : Bool, (a % 64 ≠ 0 ∨ n % 64 ≠ 0 ∨ n = 0 ∨ (d.gkOf k).opCk ≠ none) →
      ∃ t, exec (.clean k ic) s = .next t ∧ t.dev.fld pg F.GECKO_DC_OP_STATUS = 2 ∧ t.dev.gks = d.gks
        ∧ t.dev.fld pg (F.ERRCNT 4) = min (d.fld pg (F.ERRCNT 4) + 1) 0xFFFFFFFF)
    ∧ (∀ c, (d.gkOf k).opCk = some c → (d.gkOf k).spill = [] →
      ∃ t, exec (.cacheOpDone k) s = .next t ∧ (t.dev.gkOf k).opCk = none ∧ t.dev.fld pg F.GECKO_DC_OP_STATUS = 0
        ∧ bit (t.dev.reg pg 0x010).toNat 1 = true)

/-- R34, R35, R36, R398, Tables 2-3 and 2-5: a mode request that reaches a North steward, and one that goes on to a South steward. -/
def Obligations.ModeRequests : Prop :=
  ∀ (val : Word) (safeInCk : Bool) (s : State), s.dev.rst = .running → s.dev.unpaired →
    s.dev.dueNow (.modeRequest val safeInCk) = false → val.toNat / 2 ^ 4 = 2 ^ 27 →
    let d := s.dev
    let m := d.ownMode
    let t := val.toNat % 16
    let idle : Prop := d.safeEntry = false ∧ safeInCk = false ∧ d.flag Pg.dev F.DEV_MODE_TRANS = false
    let refused (u : State) (idx code : Nat) : Prop := u.dev.modeTarget = d.modeTarget ∧ u.dev.reg Pg.dev 0x100 = d.reg Pg.dev 0x100
      ∧ u.dev.fld Pg.dev (F.ERRCNT idx) = min (d.fld Pg.dev (F.ERRCNT idx) + 1) 0xFFFFFFFF
      ∧ (d.fld Pg.dev F.ERR_FIRST_CODE = 0 → u.dev.fld Pg.dev F.ERR_FIRST_CODE = code)
    (d.stewardHalf = 0 →
      (idle → t ≠ m → legalRequest m t (d.fld Pg.dev F.DEV_MODE_PREV) = true → m ≠ Mode.sleep.code → m ≠ Mode.safe.code →
        ∃ u, exec (.modeRequest val safeInCk) s = .next u ∧ u.dev.modeTarget = some t ∧ u.dev.fld Pg.dev F.DEV_MODE_TRANS = 1
          ∧ u.dev.mode = d.mode ∧ (d.ck + 8, .modeTransitionDone) ∈ u.dev.agenda)
      ∧ (idle → t = m →
        ∃ u, exec (.modeRequest val safeInCk) s = .next u ∧ u.dev.modeTarget = d.modeTarget ∧ u.dev.reg Pg.dev 0x100 = d.reg Pg.dev 0x100)
      ∧ (idle → t = Mode.ready.code → (m = Mode.sleep.code ∨ m = Mode.safe.code ∧ d.liveCauses = 0) →
        ∃ u, exec (.modeRequest val safeInCk) s = .next u ∧ u.dev.modeTarget = some t ∧ u.dev.fld Pg.dev F.DEV_MODE_TRANS = 1
          ∧ u.dev.waking = true ∧ u.dev.mode = d.mode)
      ∧ (idle → t = Mode.ready.code → m = Mode.safe.code → d.liveCauses ≠ 0 →
        ∃ u, exec (.modeRequest val safeInCk) s = .next u ∧ refused u 1 0x0204)
      ∧ (idle → t ≠ m → legalRequest m t (d.fld Pg.dev F.DEV_MODE_PREV) = false →
        ∃ u, exec (.modeRequest val safeInCk) s = .next u ∧ refused u 0 0x0201)
      ∧ (¬ idle → t = m →
        ∃ u, exec (.modeRequest val safeInCk) s = .next u ∧ refused u 1 (if d.safeEntry ∨ safeInCk then 0x0203 else 0x0202)))
    ∧ (d.stewardHalf = 1 → d.south = none →
      ∃ u, exec (.modeRequest val safeInCk) s = .next u ∧ (d.ck + 4, .modeRequest (val &&& 0x8000000F#32) false) ∈ u.dev.agenda
        ∧ u.dev.modeTarget = d.modeTarget ∧ u.dev.reg Pg.dev 0x100 = d.reg Pg.dev 0x100)

/-- R31, R32, R33, R35 to R40, R439, R514: transitions take effect. `putMode` is the change of the held mode itself. -/
def Obligations.ModeTransitions : Prop :=
  (∀ (d : Dev) (new : Nat), d.south = none → new < 16 →
      (d.putMode [0, 1] new).mode = new ∧ (d.putMode [0, 1] new).fld Pg.dev F.DEV_MODE_PREV = d.mode
      ∧ (d.putMode [0, 1] new).fld Pg.dev F.DEV_MODE_TRANS = 0 ∧ (d.putMode [0, 1] new).fld Pg.dev F.DEV_MODE_OTHER = new)
  ∧ ∀ s : State, s.dev.rst = .running → s.dev.south = none →
    let d := s.dev
    let holds (u : State) (m : Nat) : Prop := u.dev.mode = m ∧ u.dev.fld Pg.dev F.DEV_MODE_TRANS = 0 ∧ u.dev.fld Pg.dev F.DEV_MODE_PREV = d.mode
    (∀ t, d.modeTarget = some t → d.waking = false →
      (t < 16 → t ≠ Mode.offload.code → t ≠ Mode.blank.code →
        ∃ u, exec .modeTransitionDone s = .next u ∧ holds u t ∧ u.dev.modeTarget = none)
      ∧ (t ≠ Mode.offload.code →
        exec .modeTransitionDone s = s.becomes (Dev.switchTo { d.begin .modeTransitionDone with modeTarget := none } [0, 1] t))
      ∧ (t = Mode.offload.code → d.safeEntry = false →
        ∃ u, exec .modeTransitionDone s = .next u ∧ u.dev.mode = d.mode ∧ u.dev.offEntry = [0, 1] ∧ u.dev.modeOf 0 = Mode.offload.code
          ∧ u.dev.fld Pg.dev F.DEV_MODE_TRANS = d.fld Pg.dev F.DEV_MODE_TRANS ∧ u.dev.awaits .offloadDrainDone = true))
    ∧ (d.offEntry = [0, 1] → (d.cqOf 0).drain = false → (d.cqOf 1).drain = false →
      (d.captureIdle 0 = true → d.captureIdle 1 = true → ∃ u, exec .offloadDrainDone s = .next u ∧ holds u Mode.offload.code ∧ u.dev.offEntry = [])
      ∧ ((d.captureIdle 0 = false ∨ d.captureIdle 1 = false) →
        ∃ u, exec .offloadDrainDone s = .next u ∧ u.dev.awaits .offloadDrainDone = true ∧ u.dev.reg Pg.dev 0x100 = d.reg Pg.dev 0x100 ∧ u.dev.offEntry = [0, 1]))
    ∧ (d.safeEntry = true → d.mode ≠ Mode.sleep.code → d.mode ≠ Mode.safe.code → d.dramSupplyOk = true → (d.cqOf 0).drain = false →
      (d.cqOf 1).drain = false →
      (d.captureIdle 0 = true → d.captureIdle 1 = true →
        ∃ u, exec .safeEntryDone s = .next u ∧ holds u Mode.safe.code ∧ u.dev.safeEntry = false)
      ∧ ((d.captureIdle 0 = false ∨ d.captureIdle 1 = false) →
        ∃ u, exec .safeEntryDone s = .next u ∧ u.dev.awaits .safeEntryDone = true ∧ u.dev.mode = d.mode ∧ u.dev.safeEntry = true))
    ∧ (d.safeEntry = true → (d.mode = Mode.sleep.code ∨ d.mode = Mode.safe.code) →
        ∃ u, exec .safeEntryDone s = .next u ∧ holds u Mode.safe.code ∧ u.dev.safeEntry = false)
    ∧ (d.safeDue = 0 → d.mode = Mode.loading.code → d.started = true → d.lanesBegun = true → d.allEnded = true → d.liveCauses = 0 →
        ∃ u, exec .readyEntry s = .next u ∧ holds u Mode.ready.code ∧ u.dev.readyCk = some d.ck
          ∧ ∀ h, h < 2 → u.dev.lpcState h = (if d.refSrc = 2 then Lpc.locked else Lpc.unanchored))
    ∧ (d.safeDue = 0 → d.waking = true → d.mode ≠ Mode.loading.code → (∀ k, k < 64 → d.byDev k = true → d.domOpen k = true) → d.lanesBegun = true →
        d.allEnded = true → d.liveCauses = 0 →
        ∃ u, exec .readyEntry s = .next u ∧ holds u Mode.ready.code ∧ u.dev.waking = false ∧ u.dev.modeTarget = none)
    ∧ (d.safeDue = 0 → d.mode = Mode.loading.code → d.started = true → d.lanesBegun = true → d.allEnded = true → d.liveCauses ≠ 0 →
        ∃ u, exec .readyEntry s = .next u ∧ holds u Mode.ready.code ∧ u.dev.safeDue = d.liveCauses ∧ (d.ck + 1, .readyEntry) ∈ u.dev.agenda)
    ∧ (d.safeDue ≠ 0 → d.safeDue < 8 → isConfigured d.mode = true → d.mode ≠ Mode.safe.code → d.safeEntry = false → d.readyCk ≠ some d.ck →
        ∃ u, exec .readyEntry s = .next u ∧ u.dev.safeEntry = true ∧ u.dev.fld Pg.dev F.DEV_MODE_SAFE_CAUSE = d.safeDue
          ∧ u.dev.fld Pg.dev F.DEV_MODE_TRANS = 1 ∧ u.dev.mode = d.mode ∧ u.dev.awaits .safeEntryDone = true)
    ∧ (d.safeDue = 0 → d.allEnded = false →
        exec .readyEntry s = s.becomes (d.begin .readyEntry))
    ∧ (d.safeEntry = true → bit (d.fld Pg.dev F.DEV_MODE_SAFE_CAUSE) 0 = true →
        ∃ u, exec .thermalDrainTimeout s = .next u ∧ holds u Mode.safe.code ∧ u.dev.safeEntry = false)
    ∧ (d.safeEntry = false → exec .thermalDrainTimeout s = s.becomes (d.begin .thermalDrainTimeout))

/-- R51 to R54, R56: the events of a lane's receiver. -/
def Obligations.LaneReceiverEvents : Prop :=
  ∀ (n : Fin 64) (s : State), s.dev.rst = .running →
    let d := s.dev
    let pg := Pg.lane n
    (∀ _h : d.laneState n ∈ [Ln.acquire, Ln.lost, Ln.failed],
      (∃ t, exec (.cdrLock n) s = .next t ∧ t.dev.fld pg F.LANE_STAT_SIG = 1 ∧ t.dev.fld pg F.LANE_STAT_CDR = 1
        ∧ t.dev.laneState n = d.laneState n ∧ t.dev.rest = d.rest)
      ∧ (d.fld pg F.LANE_STAT_CDR = 1 → ∃ t, exec (.codeLock n) s = .next t ∧ t.dev.laneState n = Ln.codeLock ∧ t.dev.rest = d.rest))
    ∧ (d.laneState n = Ln.codeLock → ∀ (depth : Fin 128) (off : BitVec 32),
      ∃ t, exec (.laneAligned n depth off) s = .next t ∧ t.dev.laneState n = Ln.aligned
        ∧ t.dev.fld pg F.LANE_STAT_EB_DEPTH = depth.val
        ∧ t.dev.fld (Pg.lpc (laneHalf n)) (F.LPC_OFF_OFF (n.val % 32)) = (off.toNat * 256 + d.laneTau n / 2) / d.laneTau n % 2 ^ 16
        ∧ t.dev.fld pg F.LANE_ALIGN_US = min ((d.ck - (d.laneOf n).startCk) / 1000) (2 ^ 32 - 1)
        ∧ (t.dev.laneOf n).ended = true ∧ (t.dev.laneOf n).openRec = none
        ∧ bit (t.dev.reg pg 0x010).toNat 0 = true
        ∧ ((d.laneOf n).relock = true → bit (t.dev.reg pg 0x010).toNat 4 = true) ∧ t.dev.mem = d.mem)
    ∧ (d.laneState n ∈ [Ln.acquire, Ln.codeLock, Ln.lost] →
      ∃ t, exec (.alignTimeout n) s = .next t ∧ t.dev.laneState n = Ln.failed ∧ (t.dev.laneOf n).ended = true
        ∧ bit (t.dev.reg pg 0x010).toNat 1 = true ∧ t.dev.mem = d.mem)
    ∧ (d.laneState n = Ln.aligned → ∀ words : Nat, d.fld pg F.LANE_CFG_DET = 1 → max 1 (d.fld pg F.LANE_ALIGN_MARGIN) < words →
      exec (.wanderSlip n words) s = s.becomes (((d.fresh.bump pg F.LANE_SLIP_CNT).pend pg 3).laneLoss n)
      ∧ ∃ t, exec (.wanderSlip n words) s = .next t ∧ t.dev.laneState n = Ln.lost ∧ (t.dev.laneOf n).startCk = d.ck
        ∧ t.dev.fld pg F.LANE_SLIP_CNT = min (d.fld pg F.LANE_SLIP_CNT + 1) 0xFFFFFFFF
        ∧ t.dev.fld pg F.LANE_LOCK_LOSS_CNT = min (d.fld pg F.LANE_LOCK_LOSS_CNT + 1) 0xFFFFFFFF
        ∧ bit (t.dev.reg pg 0x010).toNat 2 = true ∧ bit (t.dev.reg pg 0x010).toNat 3 = true)
    ∧ (∀ words : Nat, words ≤ max 1 (d.fld pg F.LANE_ALIGN_MARGIN) → exec (.wanderSlip n words) s = s.becomes d.fresh)
    ∧ (d.laneState n = Ln.codeLock → ∀ sig : Bool, ∃ t, exec (.lossOfSignal n sig) s = .next t
        ∧ t.dev.laneState n = (if (d.laneOf n).relock then Ln.lost else Ln.acquire) ∧ t.dev.fld pg F.LANE_STAT_CDR = 0
        ∧ (sig = true → t.dev.fld pg F.LANE_STAT_SIG = 0) ∧ t.dev.rest = d.rest)
    ∧ (d.laneState n = Ln.aligned → ∀ sig : Bool, exec (.lossOfSignal n sig) s =
        s.becomes (let e := (d.fresh.laneLoss n).setFld pg F.LANE_STAT_CDR 0; if sig then e.setFld pg F.LANE_STAT_SIG 0 else e))

/-- R51, R52, R59, R62: writes to a lane's registers. -/
def Obligations.LaneRegisterWrites : Prop :=
  ∀ (n : Fin 64) (val : Word) (s : State), s.dev.rst = .running → s.dev.unpaired → s.dev.cfgLock = false →
    let d := s.dev
    let pg := Pg.lane n
    (val.toNat ≤ 64 → d.passActive n = false →
      ∃ t, exec (.holdWrite n val) s = .next t ∧ t.dev.fld pg F.LANE_HOLD_HOLD = val.toNat ∧ t.dev.rest = d.rest)
    ∧ (64 < val.toNat → val.toNat < 128 → d.passActive n = false →
      ∃ t, exec (.holdWrite n val) s = .next t ∧ t.dev.reg pg 0x104 = d.reg pg 0x104
        ∧ t.dev.fld pg (F.ERRCNT 2) = min (d.fld pg (F.ERRCNT 2) + 1) 0xFFFFFFFF)
    ∧ (d.passActive n = true → val.toNat < 128 →
      ∃ t, exec (.holdWrite n val) s = .next t ∧ t.dev.reg pg 0x104 = d.reg pg 0x104
        ∧ t.dev.fld pg (F.ERRCNT 3) = min (d.fld pg (F.ERRCNT 3) + 1) 0xFFFFFFFF
        ∧ (64 < val.toNat → t.dev.fld pg (F.ERRCNT 2) = min (d.fld pg (F.ERRCNT 2) + 1) 0xFFFFFFFF))
    ∧ (bit val.toNat 16 = true → bit (d.reg pg 0x100).toNat 16 = false → val.toNat < 2 ^ 17 →
      rateCodeOk (bitsOf val.toNat 0 4) (bitsOf val.toNat 4 2) = false → d.domOpen (Dom.quad (n / 4)) = true →
      ∃ t, exec (.laneCfgWrite n val) s = .next t ∧ t.dev.reg pg 0x100 = val ∧ t.dev.laneState n = d.laneState n
        ∧ t.dev.fld pg (F.ERRCNT 0) = min (d.fld pg (F.ERRCNT 0) + 1) 0xFFFFFFFF)
    ∧ (bit val.toNat 16 = true → bit (d.reg pg 0x100).toNat 16 = true → val.toNat < 2 ^ 17 → (val.toNat ^^^ (d.reg pg 0x100).toNat) &&& 0x0BE7F ≠ 0 →
      ∃ t, exec (.laneCfgWrite n val) s = .next t
        ∧ (t.dev.reg pg 0x100).toNat &&& 0x0BE7F = (d.reg pg 0x100).toNat &&& 0x0BE7F
        ∧ t.dev.fld pg (F.ERRCNT 1) = min (d.fld pg (F.ERRCNT 1) + 1) 0xFFFFFFFF)
    ∧ (val.toNat < 2 ^ 17 → bit val.toNat 16 = bit (d.reg pg 0x100).toNat 16 → (val.toNat ^^^ (d.reg pg 0x100).toNat) &&& 0x0BE7F = 0 →
      ∃ t, exec (.laneCfgWrite n val) s = .next t ∧ t.dev.reg pg 0x100 = val ∧ t.dev.rest = d.rest)
    ∧ (bit val.toNat 31 = true → val.toNat / 2 ^ 20 % 2 ^ 11 = 0 → d.laneState n ∈ [Ln.acquire, Ln.codeLock, Ln.lost, Ln.failed] →
      ∃ t, exec (.alignRetry n val) s = .next t ∧ (t.dev.laneOf n).startCk = d.ck ∧ (t.dev.laneOf n).ended = false
        ∧ t.dev.laneState n = (if (d.laneOf n).relock then Ln.lost else Ln.acquire)
        ∧ t.dev.fld pg F.LANE_ALIGN_TIMEOUT = val.toNat % 2 ^ 16
        ∧ (val.toNat % 2 ^ 16 ≠ 0 → (d.ck + 1000 * (val.toNat % 2 ^ 16), .alignTimeout n) ∈ t.dev.agenda))

/-- R47, R48, R50, R58, R75, R311: a symbol at the sieve point, from the line or from user logic, and one at injection select. -/
def Obligations.SymbolsReachTheStream : Prop :=
  ∀ (n : Fin 64) (s : State), s.dev.rst = .running →
    let d := s.dev
    let pg := Pg.lane n
    let x := d.laneOf n
    (∀ (theta : BitVec 8) (buf : RxBuf) (sym : LineSym),
      ((d.laneState n ≠ Ln.aligned ∧ d.laneState n ≠ Ln.codeLock) ∨ symFits (d.laneCode n) (d.flag pg F.LANE_CFG_USER_PCS) sym = false) →
      exec (.laneSymbol n theta buf sym) s = s.becomes d.fresh)
    ∧ (∀ (theta : BitVec 8) (buf : RxBuf) (w : BitVec 128), d.laneState n = Ln.aligned → d.laneCode n = 3 →
      d.flag pg F.LANE_CFG_USER_PCS = false → d.flag pg F.LANE_CFG_RX_INV = false → d.flag pg F.LANE_CFG_DET = true →
      (∀ row, rateRow (d.laneRate n) = some row → row.pam4 = false) → d.refSrc ≠ 0 → x.fresh = false → x.openRec = none → x.tauN ≠ 4096 →
      2 ≤ d.fld pg F.LANE_FRAME_RAW_LEN →
      let lp := d.stampAt n (d.pinTime n (d.ck - rxLat (d.laneRate n)) theta.toNat)
      ∃ t, exec (.laneSymbol n theta buf (.raw w)) s = .next t
        ∧ t.dev.reg64 pg 0x12C = (d.reg64 pg 0x12C + 1) % 2 ^ 64 ∧ (t.dev.laneOf n).lastLp = lp ∧ (t.dev.laneOf n).openRec = some d.nextRid
        ∧ (t.dev.recOf d.nextRid).lp = lp ∧ (t.dev.recOf d.nextRid).payload = leBytes 8 w.toNat ∧ (t.dev.recOf d.nextRid).lane = n.val)
    ∧ (∀ (theta : BitVec 8) (buf : RxBuf) (bs : List Byte) (k : Nat), d.laneState n = Ln.aligned →
      d.flag pg F.LANE_CFG_USER_PCS = true → d.flag pg F.LANE_CFG_DET = true → d.userUp (.lane n) = true → x.fresh = false →
      x.openRec = none → bs.length ≤ 65504 →
      let lp := d.stampAt n (d.pinTime n (d.ck - rxLat (d.laneRate n) - userRound (d.portRatio (.lane n)) k) theta.toNat)
      (∃ t, exec (.laneSymbol n theta buf (.user bs false false k)) s = .next t
        ∧ (t.dev.laneOf n).lastLp = lp ∧ t.dev.recs = d.recs)
      ∧ (∃ t, exec (.laneSymbol n theta buf (.user bs true false k)) s = .next t
        ∧ (t.dev.laneOf n).lastLp = lp ∧ (t.dev.laneOf n).openRec = some d.nextRid
        ∧ (t.dev.recOf d.nextRid).lp = lp ∧ (t.dev.recOf d.nextRid).payload = bs ∧ (t.dev.recOf d.nextRid).lane = n.val))
    ∧ (∀ (e : TxEnt) (rest : List TxEnt), x.txq = e :: rest → e.sel ≤ d.ck → d.actionsCome = false → (d.stimOf n).run = none →
      (d.stimOf n).pend = [] → (d.stimOf n).k28 = none → (d.stimOf n).rd = none → d.plays = [] → d.flag pg F.LANE_CFG_TX_INV = false →
      (∀ row, rateRow (d.laneRate n) = some row → row.pam4 = false) →
      ∃ t, exec (.passThroughSymbol n) s = .next t ∧ (t.dev.laneOf n).txq = rest
        ∧ Out.tx n (e.sel + 6 + txLat (d.laneRate n)) (some e.sym) ∈ t.dev.out
        ∧ (t.dev.stimOf n).hist = (e.num, e.lp, e.samp, e.pin) :: (d.stimOf n).hist ∧ t.dev.recs = d.recs)
    ∧ (∀ e rest, x.txq = e :: rest → d.ck < e.sel → exec (.passThroughSymbol n) s = s.becomes (d.begin (.passThroughSymbol n)))

/-- R66 to R73, R77, R78: the line position counters and their settings. -/
def Obligations.LinePosition : Prop :=
  (∀ (s : State), s.dev.rst = .running →
    let d := s.dev
    (∀ (h : Half) (j : LpcJump) (rest : List LpcJump), (d.lpcOf h.val).jumps = j :: rest → j.cause = 1 → j.due ≤ d.ck → j.lost = false →
      ∃ t, exec (.lpcFirstAnchor h) s = .next t ∧ t.dev.lpcState h.val = Lpc.locked ∧ (t.dev.lpcOf h.val).track = j.track
        ∧ (t.dev.lpcOf h.val).jumps = rest ∧ bit (t.dev.reg (Pg.lpc h.val) 0x010).toNat 3 = true)
    ∧ (∀ h : Half, d.lpcState h.val = Lpc.locked →
      let r := ((d.posAt h.val (ckTime d.ck) - (d.lpcOf h.val).winL) / 4096).toNat % 2 ^ 40
      ∃ t, exec (.lpcRateWindow h) s = .next t ∧ t.dev.lpcRate h.val = r ∧ (t.dev.lpcOf h.val).winCk = d.ck
        ∧ (d.ck + 4096, .lpcRateWindow h) ∈ t.dev.agenda)
    ∧ (∀ (theta : BitVec 8) (mark : Bool), d.refSrc = 1 → d.lpcState 0 = Lpc.locked → d.lpcState 1 = Lpc.locked →
      (∀ h, h < 2 → (d.lpcOf h).jumps = [] ∧ (d.lpcOf h).await = 0 ∧ (d.lpcOf h).coast = false ∧ (d.lpcOf h).alone = false) →
      let k := d.fld (Pg.lpc 0) F.LPC_REF_MARK_K
      let div : Int := d.fld (Pg.lpc 0) F.LPC_REF_LREF_DIV
      let t0 : Int := ckTime d.ck - (theta.toNat : Int) * 2 ^ 12
      let next : Int := (d.lpcOf 0).track.l0 + div * 2 ^ 32
      ∃ t, exec (.lrefEdge theta mark) s = .next t
        ∧ (∀ h, h < 2 → (t.dev.lpcOf h).track.l0 = (d.lpcOf h).track.l0 + div * 2 ^ 32 ∧ (t.dev.lpcOf h).track.t0 = t0)
        ∧ (d.ck + 64, .lrefTimeout) ∈ t.dev.agenda
        ∧ (mark = decide (next % 2 ^ (32 + k) = 0) → ∀ h, h < 2 → (t.dev.lpcOf h).jumps = [])
        ∧ (mark = true → next % 2 ^ (32 + k) ≠ 0 →
          t.dev.fld (Pg.lpc 0) F.LPC_MARK_SLIP_CNT = min (d.fld (Pg.lpc 0) F.LPC_MARK_SLIP_CNT + 1) 0xFFFFFFFF
          ∧ ∀ h, h < 2 → (t.dev.lpcOf h).jumps = [⟨d.ck + 4, 4, ⟨t0, roundPos next k, []⟩, 0, false⟩])
        ∧ (mark = false → next % 2 ^ (32 + k) = 0 →
          t.dev.fld (Pg.lpc 0) F.LPC_MARK_MISS_CNT = min (d.fld (Pg.lpc 0) F.LPC_MARK_MISS_CNT + 1) 0xFFFFFFFF
          ∧ ∀ h, h < 2 → (t.dev.lpcOf h).jumps = []))
    ∧ (d.refSrc = 1 → (∀ h, h < 2 → d.lpcState h = Lpc.locked ∧ (d.lpcOf h).jumps = [] ∧ (d.lpcOf h).await = 0 ∧ (d.lpcOf h).alone = false) →
      ∃ t, exec .lrefTimeout s = .next t ∧ ∀ h, h < 2 → t.dev.lpcState h = Lpc.freewheel ∧ (t.dev.lpcOf h).await = 3
        ∧ t.dev.fld (Pg.lpc h) F.LPC_LOSS_CNT = min (d.fld (Pg.lpc h) F.LPC_LOSS_CNT + 1) 0xFFFFFFFF)
    ∧ (∀ h : Half, h.val ≠ d.anchorHalf → d.lpcState h.val ≠ Lpc.idle →
      ∃ t, exec (.lpcAlignWord h) s = .next t ∧ (t.dev.lpcOf h.val).wordCk = d.ck
        ∧ ((d.lpcOf h.val).alone = true → (d.lpcOf h.val).jumps = [] → d.lpcState d.anchorHalf ≠ Lpc.idle →
          (t.dev.lpcOf h.val).jumps = [⟨d.ck + 4, 6, (d.lpcOf d.anchorHalf).track, 0, false⟩])
        ∧ ((d.lpcOf h.val).alone = false → (t.dev.lpcOf h.val).jumps = (d.lpcOf h.val).jumps))
    ∧ (∀ h : Half, h.val ≠ d.anchorHalf → d.lpcState h.val = Lpc.locked → (d.lpcOf h.val).wordCk + 4 ≤ d.ck →
      ∃ t, exec (.followerFreewheel h) s = .next t ∧ t.dev.lpcState h.val = Lpc.freewheel ∧ (t.dev.lpcOf h.val).alone = true
        ∧ (t.dev.lpcOf h.val).jumps = []
        ∧ t.dev.fld (Pg.lpc h.val) F.LPC_LOSS_CNT = min (d.fld (Pg.lpc h.val) F.LPC_LOSS_CNT + 1) 0xFFFFFFFF))
  ∧ (∀ (s : State) (val : Word), s.dev.rst = .running → s.dev.unpaired → s.dev.cfgLock = false → s.dev.flag Pg.pair F.PAIR_CTRL_EN = false →
    let d := s.dev
    let src := bitsOf val.toNat 0 2
    let k := bitsOf val.toNat 8 6
    let div := bitsOf val.toNat 14 9
    (d.mode = Mode.ready.code → val.toNat < 2 ^ 23 → src ≠ 3 → 8 ≤ k → k ≤ 40 → 1 ≤ div → div ≤ 256 →
      (∀ h, h < 2 → (d.lpcOf h).alone = false) →
      ∃ t, exec (.lpcRefWrite val) s = .next t ∧ t.dev.reg (Pg.lpc 0) 0x100 = val
        ∧ (d.reg (Pg.lpc 0) 0x100 ≠ val → t.dev.reg (Pg.lpc 1) 0x100 = val)
        ∧ (d.reg (Pg.lpc 0) 0x100 ≠ val → src = 2 → ∀ h, h < 2 → ∃ j, (t.dev.lpcOf h).jumps = [j] ∧ j.cause = 8 ∧ j.due = d.ck + 4)
        ∧ (d.reg (Pg.lpc 0) 0x100 ≠ val → src ≠ 2 → ∀ h, h < 2 → (t.dev.lpcOf h).await = 8 ∧ (t.dev.lpcOf h).coast = true))
    ∧ (d.mode ≠ Mode.ready.code →
      (∃ t, exec (.lpcRefWrite val) s = .next t ∧ t.dev.reg (Pg.lpc 0) 0x100 = d.reg (Pg.lpc 0) 0x100
        ∧ t.dev.fld (Pg.lpc 0) (F.ERRCNT 0) = min (d.fld (Pg.lpc 0) (F.ERRCNT 0) + 1) 0xFFFFFFFF ∧ t.dev.lpc = d.lpc)
      ∧ (∀ hi, ∃ t, exec (.lpcSynIncWrite hi val) s = .next t ∧ t.dev.synInc = d.synInc
        ∧ t.dev.fld (Pg.lpc 0) (F.ERRCNT 0) = min (d.fld (Pg.lpc 0) (F.ERRCNT 0) + 1) 0xFFFFFFFF ∧ t.dev.lpc = d.lpc)
      ∧ (∀ hi, ∃ t, exec (.lpcAnchorWrite hi val) s = .next t ∧ t.dev.anchorPos = d.anchorPos
        ∧ t.dev.fld (Pg.lpc 0) (F.ERRCNT 0) = min (d.fld (Pg.lpc 0) (F.ERRCNT 0) + 1) 0xFFFFFFFF ∧ t.dev.lpc = d.lpc))
    ∧ (d.mode = Mode.ready.code →
      (d.fld (Pg.lpc 0) F.LPC_SYN_INC_HI_INT = 0 → val ≠ 0#32 → ∃ t, exec (.lpcSynIncWrite false val) s = .next t ∧ t.dev.synInc = val.toNat
        ∧ ∀ h, h < 2 → t.dev.fld (Pg.lpc h) F.LPC_SYN_INC_LO = val.toNat)
      ∧ (d.fld (Pg.lpc 0) F.LPC_SYN_INC_LO = 0 → val = 1#32 → ∃ t, exec (.lpcSynIncWrite true val) s = .next t ∧ t.dev.synInc = 2 ^ 32)
      ∧ (∀ hi, ∃ t, exec (.lpcAnchorWrite hi val) s = .next t ∧ ∀ h, h < 2 → t.dev.reg (Pg.lpc h) (if hi then 0x110 else 0x10C) = val)))

/-- R87, R112, R114, R134, Tables 4-9, 5-6, 5-7, 6-8: the table windows: WRITE, READ and what else their CMD registers do. -/
def Obligations.TableWindows : Prop :=
  ∀ (s : State), s.dev.rst = .running → s.dev.unpaired →
    let d := s.dev
    (∀ h : Half, let pg := Pg.evs h.val
      let i := d.fld pg F.EVS_IDX_IDX
      (∃ t, exec (.evsRead h) s = .next t ∧ t.dev.window 256 pg 0x104 8 = d.evsEntry h.val i ∧ t.dev.fld pg F.EVS_CMD_STATUS = 0 ∧ t.dev.evs = d.evs)
      ∧ (d.evsDueList h.val = [] → d.evsFired = [] →
        (evsErrors (d.window 256 pg 0x104 8) = [] → reached (evsTarget (evsClean (d.window 256 pg 0x104 8))) (d.pubLp h.val) = false →
          ∃ t, exec (.evsWrite h) s = .next t ∧ t.dev.evsEntry h.val i = evsClean (d.window 256 pg 0x104 8) ∧ t.dev.fld pg F.EVS_CMD_STATUS = 0
            ∧ ∀ (g : Half) k, k < 1024 → i < 1024 → (g, k) ≠ (h, i) → t.dev.evsEntry g.val k = d.evsEntry g.val k)
        ∧ (evsErrors (d.window 256 pg 0x104 8) ≠ [] →
          ∃ t, exec (.evsWrite h) s = .next t ∧ t.dev.evs = d.evs ∧ t.dev.fld pg F.EVS_CMD_STATUS = 2)
        ∧ (∃ t, exec (.evsCancel h) s = .next t ∧ eget (t.dev.evsEntry h.val i) EV_VALID = 0
            ∧ t.dev.fld pg F.EVS_CMD_STATUS = (if eget (d.evsEntry h.val i) EV_VALID = 0 then 1 else 0))))
    ∧ (∀ q : Fin 16, let pg := Pg.sieve q.val
      let i := d.fld pg F.SIEVE_IDX_IDX
      (∃ t, exec (.sieveRead q) s = .next t ∧ t.dev.window 512 pg 0x104 16 = d.rule q.val i ∧ t.dev.fld pg F.SIEVE_CMD_STATUS = 0 ∧ t.dev.rules = d.rules)
      ∧ (ruleErrors q.val (d.window 512 pg 0x104 16) = [] →
        ∃ t, exec (.sieveWrite q) s = .next t ∧ t.dev.rule q.val i = ruleClean (d.window 512 pg 0x104 16) ∧ t.dev.fld pg F.SIEVE_CMD_STATUS = 0)
      ∧ (ruleErrors q.val (d.window 512 pg 0x104 16) ≠ [] →
        ∃ t, exec (.sieveWrite q) s = .next t ∧ t.dev.rules = d.rules ∧ t.dev.fld pg F.SIEVE_CMD_STATUS = 2)
      ∧ (∃ t, exec (.sieveInvalidate q) s = .next t ∧ eget (t.dev.rule q.val i) RL_VALID = 0 ∧ t.dev.fld pg F.SIEVE_CMD_STATUS = 0))
    ∧ (∀ h : Half, let pg := Pg.trig h.val
      let q := d.fld pg F.TRIG_IDX_SEQ
      let n := d.fld pg F.TRIG_IDX_ENTRY
      let x := d.window 256 pg 0x104 8
      (d.fld pg F.TRIG_IDX_TABLE = 0 → ∃ t, exec (.trigRead h) s = .next t ∧ t.dev.window 256 pg 0x104 8 = d.seqState h.val q n
        ∧ t.dev.fld pg F.TRIG_CMD_STATUS = 0)
      ∧ (d.fld pg F.TRIG_IDX_TABLE = 0 → d.seqArmed h.val q = false → d.trigErrors h.val q n 0 x = [] →
        ∃ t, exec (.trigWrite h) s = .next t ∧ t.dev.seqState h.val q n = stateClean x ∧ t.dev.fld pg F.TRIG_CMD_STATUS = 0)
      ∧ (d.seqArmed h.val q = true → ∃ t, exec (.trigWrite h) s = .next t ∧ t.dev.seqStates = d.seqStates ∧ t.dev.seqSlots = d.seqSlots
        ∧ t.dev.seqSel = d.seqSel ∧ t.dev.fld pg F.TRIG_CMD_STATUS = 2
        ∧ t.dev.fld pg (F.ERRCNT 0) = min (d.fld pg (F.ERRCNT 0) + 1) 0xFFFFFFFF))
    ∧ (∀ h : Half, let pg := Pg.flow h.val
      let f := d.fld pg F.FLOW_IDX_IDX
      let x := d.window 512 pg 0x104 16
      (∃ t, exec (.flowRead h) s = .next t ∧ t.dev.window 512 pg 0x104 16 = d.flow h.val f ∧ t.dev.flows = d.flows)
      ∧ (d.log.counted = [] → ∃ t, exec (.flowClear h) s = .next t ∧ t.dev.flowFld h.val f FL_COUNTERS = 0 ∧ t.dev.flowFld h.val f FL_CONFIG = d.flowFld h.val f FL_CONFIG
          ∧ t.dev.flowFld h.val f FL_NEXT_SEQ = d.flowFld h.val f FL_NEXT_SEQ)
      ∧ (eget x FL_EN = 1 → d.flowEn (1 - h.val) f = false → d.flowEn h.val f = false → f ≠ 0 → eget x FL_RETAIN ≠ 3 → eget x FL_WEIGHT ≠ 0 →
          eget x FL_PIN_ENGINE ≤ 95 → bitsOf x.toNat 77 3 = 0 → bitsOf x.toNat 23 1 = 0 → bitsOf x.toNat 80 48 = 0 → d.log.flowWas = [] →
          (∀ y ∈ d.recs, y.2.half = h.val → y.2.flow ≠ f) →
        ∃ t, exec (.flowWrite h) s = .next t ∧ t.dev.flowFld h.val f FL_CONFIG = eget x FL_CONFIG ∧ t.dev.flowFld h.val f FL_NEXT_SEQ = 0
          ∧ t.dev.flowFld h.val f FL_COUNTERS = 0 ∧ t.dev.fld pg F.FLOW_CMD_STATUS = 0)
      ∧ (eget x FL_RETAIN = 3 → ∃ t, exec (.flowWrite h) s = .next t ∧ t.dev.flows = d.flows ∧ t.dev.fld pg F.FLOW_CMD_STATUS = 2))

/-- R82 to R84, R94, R95, R103, R107, R108, R110, R113, R116: the scheduler, the sieve's outcomes and the trigger class as they act. -/
def Obligations.TriggerEvents : Prop :=
  ∀ (s : State), s.dev.rst = .running →
    let d := s.dev
    (∀ (h : Half) (i : Nat) (e : BitVec 256), d.lpcState h.val ≠ Lpc.idle → sget 0 d.evsRan h.val ≠ d.ck + 1 → d.evsDueList h.val = [(i, e)] →
      eget e EV_CLASS = Cl.mark →
      ∃ t, exec (.evsEntryDue h) s = .next t ∧ t.dev.evsEntry h.val i = evsAfter e
        ∧ t.dev.fld (Pg.evs h.val) F.EVS_FIRE_CNT = min (d.fld (Pg.evs h.val) F.EVS_FIRE_CNT + 1) 0xFFFFFFFF
        ∧ ∃ f ∈ t.dev.flying, f.due = d.ck + 2 ∧ f.issued = false ∧ f.act.src = .evs i ∧ f.act.cls = Cl.mark ∧ f.act.lp = evsTarget e)
    ∧ (∀ (n : Fin 64) (e num : Nat) (lp : LP) (rest : List (List Nat × LP × Nat)), (d.laneOf n).evq = ([e], lp, num) :: rest →
      ∃ t, exec (.sieveMatchEvent n) s = .next t ∧ (t.dev.laneOf n).evq = rest
        ∧ ⟨d.ck, 0x01 + 8 * (n.val / 4 % 8) + e, lp, some (n.val, num)⟩ ∈ sget [] t.dev.trigEvs (n.val / 4 / 8))
    ∧ (∀ (n : Fin 64) (rid : Nat) (rest : List Nat) (o : Outcome), (d.laneOf n).outq = rid :: rest → (d.recOf rid).outc = some o → o.act = .keep →
      o.shed = 0 → (d.recOf rid).typ = 1 → (d.laneOf n).relockFlows = none → (∀ x ∈ d.recs, x.2.first ≠ some rid) →
      ∃ t, exec (.sieveOutcome n) s = .next t ∧ (t.dev.laneOf n).outq = rest ∧ (t.dev.recOf rid).flow = o.flow ∧ (t.dev.recOf rid).tag = o.tag
        ∧ ∃ x ∈ sget [] t.dev.allocs (laneHalf n), x.rid = rid)
    ∧ (∀ (h : Half) (b : BridgeOut) (rest : List BridgeOut) (a : Action), sget [] d.bridgeOut h.val = b :: rest → b.lines = [] → b.acts = [a] →
      d.bridgeOk = true → ∃ t, exec (.trigBridgeWord h) s = .next t ∧ sget [] t.dev.bridgeOut h.val = rest ∧ (⟨d.ck + 2, true, a⟩ : Flying) ∈ t.dev.flying
        ∧ (d.ck + 2, .actionArrival) ∈ t.dev.agenda)
    ∧ (∀ (f : Flying) (rest : List Flying), takeFlying d.ck d.flying = some (f, rest) → f.issued = true → f.act.cls = 1 →
      ∃ t, exec .actionArrival s = .next t ∧ t.dev.flying = rest ∧ t.dev.stimIn = d.stimIn ++ [f.act]
        ∧ t.dev.awaits (.stimActionArrival (halfOf f.act.dest)) = true)
    ∧ (∀ (h : Half) (q : Fin 8), let pg := Pg.trig h.val
      (d.unpaired → d.seqArmed h.val q = false → ∃ t, exec (.seqArm h q true) s = .next t ∧ t.dev.seqArmed h.val q = true
          ∧ t.dev.fld pg (F.TRIG_SEQ_STAT_STATE q) = 0 ∧ t.dev.fld pg (F.TRIG_SEQ_CNT q) = 0 ∧ t.dev.awaits (.seqEvaluate h q) = true)
      ∧ (d.unpaired → d.seqDue h.val q = false → ∃ t, exec (.seqArm h q false) s = .next t ∧ t.dev.seqArmed h.val q = false
          ∧ t.dev.fld pg (F.TRIG_SEQ_STAT_STATE q) = d.fld pg (F.TRIG_SEQ_STAT_STATE q) ∧ t.dev.seqs = d.seqs)
      ∧ (d.unpaired → d.seqDue h.val q = false → ∃ t, exec (.seqReset h q) s = .next t ∧ t.dev.fld pg (F.TRIG_SEQ_STAT_STATE q) = 0
          ∧ t.dev.fld pg (F.TRIG_SEQ_CNT q) = 0 ∧ (t.dev.seqOf h.val q).st = 0 ∧ t.dev.seqArmed h.val q = d.seqArmed h.val q)
      ∧ (d.unpaired → d.seqDue h.val q = true →
          (∃ t, exec (.seqReset h q) s = .next t ∧ (t.dev.seqOf h.val q).after = (d.seqOf h.val q).after ++ [.reset] ∧ t.dev.seqArmed h.val q = true)
          ∧ ∃ t, exec (.seqArm h q false) s = .next t ∧ (t.dev.seqOf h.val q).after = (d.seqOf h.val q).after ++ [.disarm]
            ∧ t.dev.seqArmed h.val q = true)
      ∧ (d.seqArmed h.val q = false → (d.seqOf h.val q).after = [] →
          ∃ t, exec (.seqEvaluate h q) s = .next t ∧ t.dev.seqOf h.val q = d.seqOf h.val q ∧ t.dev.flying = d.flying
            ∧ ∀ off, off < 4096 → t.dev.reg pg off = d.reg pg off)
      ∧ (let x := d.seqOf h.val q
         let st := d.seqState h.val q x.st
         d.seqArmed h.val q = true → x.evalCk ≠ d.ck + 1 → x.enterCk < d.ck → x.timer = false → x.after = [] →
          (d.begin (.seqEvaluate h q)).seqWaits = false →
          (d.seqBranch h.val q 0 st = none → d.seqBranch h.val q 1 st = none →
            ∃ t, exec (.seqEvaluate h q) s = .next t ∧ (t.dev.seqOf h.val q).evalCk = d.ck + 1 ∧ (t.dev.seqOf h.val q).st = x.st
              ∧ t.dev.fld pg (F.TRIG_SEQ_STAT_STATE q) = d.fld pg (F.TRIG_SEQ_STAT_STATE q)
              ∧ t.dev.fld pg (F.TRIG_SEQ_CNT q) = d.fld pg (F.TRIG_SEQ_CNT q) ∧ t.dev.awaits (.seqEvaluate h q) = true)
          ∧ (∀ base, d.seqBranch h.val q 0 st = some base → eget st (SS_CNT 0) = 0 →
            ∃ t, exec (.seqEvaluate h q) s = .next t ∧ (t.dev.seqOf h.val q).st = eget st (SS_NEXT 0) ∧ (t.dev.seqOf h.val q).enterCk = d.ck
              ∧ (∃ y ∈ (t.dev.seqOf h.val q).shows, y.due = d.ck + 2 ∧ y.st = eget st (SS_NEXT 0))
              ∧ t.dev.fld pg (F.TRIG_SEQ_STAT_STATE q) = d.fld pg (F.TRIG_SEQ_STAT_STATE q)
              ∧ (eget st (SS_ACT 0) ≠ 0 → ∃ f ∈ t.dev.flying, f.due = d.ck + 2 ∧ f.issued = false ∧ f.act.lp = base.lp
                  ∧ f.act.src = .seq q.val (eget st (SS_ACT 0)))))
      ∧ (d.seqArmed h.val q = true → (d.seqOf h.val q).timer = true → (d.seqOf h.val q).enterCk < d.ck → d.lpcState h.val ≠ Lpc.idle →
          reached (d.seqOf h.val q).deadline (d.pubLp h.val) = true → (d.seqOf h.val q).shows = [] →
          ∃ t, exec (.seqTimerExpiry h q) s = .next t ∧ (t.dev.seqOf h.val q).expired = true ∧ (t.dev.seqOf h.val q).timer = false
            ∧ t.dev.fld pg (F.TRIG_SEQ_STAT_TIMER_RUN q) = 0))

/-- R117, R119 to R122, R205, R206, R208, R211 to R213: the capture queue, its writer and its tap ring. -/
def Obligations.CaptureQueue : Prop :=
  ∀ (h : Half) (s : State), s.dev.rst = .running →
    let d := s.dev
    let pg := Pg.cq h.val
    (∀ (x : AllocItem) (rest : List AllocItem), sget [] d.allocs h.val = x :: rest → x.unit = none → isCapturing (d.modeOf h.val) = true →
      d.flowEn h.val (d.recOf x.rid).flow = true → (d.recOf x.rid).shed = false → (d.recOf x.rid).complete = false →
      d.curEngine h.val (d.recOf x.rid).flow < 192 → d.flowFld h.val (d.recOf x.rid).flow FL_BYPASS = 0 →
      (d.cqOf h.val).fill + (d.recOf x.rid).needUnits ≤ cqCap → d.log.flowWas = [] →
      ∃ t, exec (.queueAllocation h) s = .next t ∧ sget [] t.dev.allocs h.val = rest
        ∧ t.dev.flowFld h.val (d.recOf x.rid).flow FL_NEXT_SEQ = (d.flowFld h.val (d.recOf x.rid).flow FL_NEXT_SEQ + 1) % 2 ^ 32
        ∧ (t.dev.recOf x.rid).seq = d.flowFld h.val (d.recOf x.rid).flow FL_NEXT_SEQ ∧ (t.dev.recOf x.rid).st = .queued
        ∧ (t.dev.recOf x.rid).units = (d.recOf x.rid).needUnits
        ∧ (t.dev.cqOf h.val).wp = ((d.cqOf h.val).wp + (d.recOf x.rid).needUnits) % 2 ^ 22)
    ∧ (∀ (x : AllocItem) (rest : List AllocItem) (r : Rec) (n : Nat), sget [] d.allocs h.val = x :: rest → x.unit = some (n, false) →
      sfind d.recs x.rid = some r → (∀ o, r.outc = some o → o.act = .keep) → r.shed = false → r.gone = false → r.complete = false → r.units ≠ 0 →
      r.units < unitsOf (min n r.payload.length) false → (d.cqOf h.val).fill + (unitsOf (min n r.payload.length) false - r.units) ≤ cqCap →
      ∃ t, exec (.queueUnit h) s = .next t ∧ sget [] t.dev.allocs h.val = rest ∧ (t.dev.recOf x.rid).reached = n
        ∧ (t.dev.recOf x.rid).units = unitsOf (min n r.payload.length) false
        ∧ (t.dev.cqOf h.val).wp = ((d.cqOf h.val).wp + (unitsOf (min n r.payload.length) false - r.units)) % 2 ^ 22)
    ∧ (∀ (f : Fin 4096) (upto : Nat) (x : Ext), sfind d.closing (flowKey h.val f) = some upto →
      (sget ({} : LossRun) d.runs (flowKey h.val f)).count ≠ 0 → d.flowFld h.val f FL_FROZEN = 0 → d.openExt h.val f = some x →
      x.half = d.placeHalf h.val f → x.written + 64 ≤ extBytes →
      ∃ t, exec (.gapMarkerClose h f) s = .next t ∧ t.dev.flowFld h.val f FL_GAP_OPEN = 0
        ∧ (sget ({} : LossRun) t.dev.runs (flowKey h.val f)).count = 0 ∧ sfind t.dev.closing (flowKey h.val f) = none)
    ∧ (∀ (ecc : Fin 3) (rid : Nat) (r : Rec) (rest : List (Nat × Rec)) (x : Ext), d.writable h.val = (rid, r) :: rest →
      (∀ y ∈ d.recs, y.2.emit = none ∧ y.2.copyCk ≤ d.ck) → d.marksOf h.val = [] → (sget ({} : LossRun) d.runs (flowKey r.half r.flow)).count = 0 →
      d.openExt h.val r.flow = some x → x.half = d.placeHalf h.val r.flow → x.written + d.streamNeed h.val r.flow ≤ extBytes →
      ∃ t, exec (.captureWrite h ecc) s = .next t ∧ (t.dev.recOf rid).st = .writing
        ∧ t.dev.flowFld h.val r.flow FL_LAST_LP = lpInt r.lp % 2 ^ 64)
    ∧ (∀ (ecc : Fin 3), d.writable h.val = [] → (∀ y ∈ d.recs, y.2.emit = none ∧ y.2.copyCk ≤ d.ck) → d.marksOf h.val = [] →
      exec (.captureWrite h ecc) s = s.becomes (d.begin (.captureWrite h ecc)))
    ∧ (∀ (rid : Nat) (r : Rec), sfind d.recs rid = some r → r.st = .writing → r.half = h.val → (sget ({} : DTx) d.dtx r.tx).resp = .ok →
      d.txDone (sget ({} : DTx) d.dtx r.tx) = true →
      ∃ t, exec (.captureWriteAck h rid false) s = .next t ∧ sfind t.dev.recs rid = none)
    ∧ (∀ (rid : Nat) (err : Bool), sfind d.recs rid = none →
      exec (.captureWriteAck h rid err) s = s.becomes (d.begin (.captureWriteAck h rid err)))
    ∧ (d.flag pg F.CQ_STAT_FLUSH_PEND = true → (∀ x ∈ d.recs, x.2.half = h.val → x.2.units = 0 ∨ (d.cqOf h.val).mark ≤ x.2.allocNo) →
      ∃ t, exec (.flushDone h) s = .next t ∧ t.dev.fld pg F.CQ_STAT_FLUSH_PEND = 0 ∧ bit (t.dev.reg pg 0x010).toNat 3 = true ∧ t.dev.cq = d.cq)
    ∧ (∃ t, exec (.tapPop h true) s = .next t ∧ Out.rdata (raddr pg 0x144) (BitVec.ofNat 32 (d.cqOf h.val).tap.length) ∈ t.dev.out
        ∧ t.dev.rest = d.rest)
    ∧ (∀ e rest, (d.cqOf h.val).tap = e :: rest →
      ∃ t, exec (.tapPop h false) s = .next t ∧ Out.rdata (raddr pg 0x144) (BitVec.ofNat 32 (2 ^ 31 + rest.length)) ∈ t.dev.out
        ∧ (t.dev.cqOf h.val).tap = rest ∧ t.dev.window 512 pg 0x180 16 = e)
    ∧ ((d.cqOf h.val).tap = [] → d.fld pg F.CQ_TAP_WAIT_CK ≠ 0 →
      ∃ t, exec (.tapPop h false) s = .next t ∧ t.dev.out = []
        ∧ (t.dev.cqOf h.val).tapReads = (d.cqOf h.val).tapReads ++ [(d.ck + d.fld pg F.CQ_TAP_WAIT_CK, TapWho.cmd)])
    ∧ (∀ r rest, (d.cqOf h.val).tap = [] → (d.cqOf h.val).tapReads = r :: rest → r.2 = .cmd → r.1 ≤ d.ck →
      ∃ t, exec (.tapPopTimeout h) s = .next t ∧ Out.rdata (raddr pg 0x144) 0#32 ∈ t.dev.out ∧ (t.dev.cqOf h.val).tapReads = rest
        ∧ t.dev.window 512 pg 0x180 16 = 0#512)
    ∧ (d.unpaired →
      ∃ t, exec (.cqFlush h) s = .next t ∧ (t.dev.cqOf h.val).mark = (d.cqOf h.val).nextNo ∧ (t.dev.cqOf h.val).wp = (d.cqOf h.val).wp
        ∧ (t.dev.cqOf h.val).rp = (d.cqOf h.val).rp ∧ t.dev.recs = d.recs ∧ t.dev.fld pg F.CQ_STAT_FLUSH_PEND = 1)

/-- R139, R152, R187, R188, R190, R194, R195, R197 to R199, Table 7-3: placement of flows, engines, extents and stripes. -/
def Obligations.PlacementDecisions : Prop :=
  ∀ (h : Half) (s : State), s.dev.rst = .running →
    let d := s.dev
    let pg := Pg.plu h.val
    (∀ (f : Fin 4096) (bad : BitVec 32) (x : Handover), sfind d.handovers (flowKey h.val f) = some x →
      (x.phase = 0 → ∃ t, exec (.flowHandover h f bad) s = .next t ∧ sfind t.dev.handovers (flowKey h.val f) = some { x with phase := 1 }
        ∧ (d.ck + (match x.since with | some c => 13 - (d.ck - c) | none => 13), .flowHandover h f 0#32) ∈ t.dev.agenda)
      ∧ (∀ k, x.phase = 1 → sfind (d.engOf x.src).slots f = some k → k < 64 → x.src ≠ x.dst →
        ∃ t j, exec (.flowHandover h f bad) s = .next t ∧ sfind t.dev.handovers (flowKey h.val f) = some { x with phase := 2 }
          ∧ (t.dev.engOf x.src).slots = serase (d.engOf x.src).slots f ∧ sfind (t.dev.engOf x.dst).slots f = some j
          ∧ ∀ i, i < 256 → sget 0#8 t.dev.ctx (ctxAddr x.dst j + i) = sget 0#8 d.ctx (ctxAddr x.src k + i))
      ∧ (x.phase = 2 → ∃ t, exec (.flowHandover h f bad) s = .next t ∧ t.dev.flowFld h.val f FL_CUR_ENGINE = x.dst % 256
        ∧ sfind t.dev.handovers (flowKey h.val f) = some { x with phase := 3 } ∧ (d.ck + 3, .flowHandover h f 0#32) ∈ t.dev.agenda)
      ∧ (3 ≤ x.phase → ∃ t, exec (.flowHandover h f bad) s = .next t ∧ sfind t.dev.handovers (flowKey h.val f) = none))
    ∧ ((d.pluOf h.val).winCk + 1024 ≤ d.ck → keepsRates (d.modeOf h.val) = true →
      ∃ t, exec (.placementWindow h) s = .next t ∧ (t.dev.pluOf h.val).winCk = d.ck ∧ (t.dev.pluOf h.val).rate = (d.pluOf h.val).rate
        ∧ (t.dev.pluOf h.val).load = (d.pluOf h.val).load ∧ (t.dev.pluOf h.val).bytes = [])
    ∧ ((d.pluOf h.val).winCk + 1024 ≤ d.ck → keepsRates (d.modeOf h.val) = false →
      ∃ t, exec (.placementWindow h) s = .next t ∧ (t.dev.pluOf h.val).winCk = d.ck
        ∧ (∀ f, t.dev.rateOf h.val f = ewma (d.rateOf h.val f) (sget 0 (d.pluOf h.val).bytes f) (d.fld pg F.PLU_EWMA_SHIFT))
        ∧ (t.dev.pluOf h.val).bytes = [] ∧ (d.ck + 1024, .placementWindow h) ∈ t.dev.agenda)
    ∧ (∀ (f : Fin 4096) (st slot : Nat) (excess : Bool), d.openExt h.val f = none → d.flowFld h.val f FL_CHAN_SET = 0 →
      d.extChoice h.val f (d.placeHalf h.val f) none = .opened st slot excess →
      (∀ y ∈ d.heldOf h.val f, y.ord % 2 ^ d.dirD h.val ≠ d.openedOf h.val f % 2 ^ 19 % 2 ^ d.dirD h.val) →
      ∃ t, exec (.newExtent h f) s = .next t
        ∧ t.dev.exts = d.exts ++ [{ home := h.val, flow := f.val, ord := d.openedOf h.val f % 2 ^ 19, half := d.placeHalf h.val f, stripe := st,
                                    slot := slot, openNo := d.nextOpen }]
        ∧ t.dev.openedOf h.val f = d.openedOf h.val f + 1 ∧ t.dev.flowFld h.val f FL_FROZEN = 0)
    ∧ (∀ (f : Fin 4096), d.openExt h.val f = none → d.flowFld h.val f FL_CHAN_SET = 0 →
      d.extChoice h.val f (d.placeHalf h.val f) none = .freeze → d.headRec h.val f = none →
      ∃ t, exec (.newExtent h f) s = .next t ∧ t.dev.exts = d.exts ∧ t.dev.flowFld h.val f FL_FROZEN = 1)
    ∧ (∀ (f : Fin 4096), 192 ≤ d.curEngine h.val f → d.flowEn h.val f = true → d.pinned h.val f = true → d.takesFlow (d.pinOf h.val f) = true →
      ∃ t, exec (.engineAssign h f) s = .next t ∧ t.dev.curEngine h.val f = d.pinOf h.val f
        ∧ sfind (t.dev.engOf (d.pinOf h.val f)).slots f = some (d.freeCtxSlot (d.pinOf h.val f)))
    ∧ (∀ (f : Fin 4096) (e : Nat), 192 ≤ d.curEngine h.val f → d.flowEn h.val f = true → d.pinned h.val f = false →
      d.chooseEngine h.val none = some e →
      ∃ t, exec (.engineAssign h f) s = .next t ∧ t.dev.curEngine h.val f = e ∧ sfind (t.dev.engOf e).slots f = some (d.freeCtxSlot e))
    ∧ (∀ (e : Fin 192) (f k : Nat), d.engRuns e = false → (d.engOf e).slots = [(f, k)] → d.flowFld (engHalf e) f FL_NO_MOVE = 0 →
      d.pinned (engHalf e) f = false → d.inHandover (engHalf e) f = false → d.curEngine (engHalf e) f = e.val →
      (∀ g ∈ d.listedFlows (engHalf e), d.stoppedFor (engHalf e) g = none) →
      ((d.pluOf (engHalf e)).stops = [] →
        ∃ t, exec (.engineStoppedMove e) s = .next t
          ∧ (∃ x ∈ (t.dev.pluOf (engHalf e)).stops, x.flow = f ∧ x.eng = e.val ∧ x.due = none
              ∧ x.halt = (if d.engState e = Es.halted then some d.ck else none))
          ∧ (∃ w ∈ (t.dev.pluOf (engHalf e)).waiting, w.flow = f ∧ w.run = .engineStoppedMove e) ∧ t.dev.handovers = d.handovers)
      ∧ (∀ (x : PluStop) (c dst : Nat), (d.pluOf (engHalf e)).stops = [x] → x.flow = f → x.eng = e.val → x.due = some c → c ≤ d.ck →
        d.chooseEngine (engHalf e) (some e.val) = some dst → dst ≠ e.val →
        ∃ t, exec (.engineStoppedMove e) s = .next t ∧ (t.dev.pluOf (engHalf e)).stops = []
          ∧ sfind t.dev.handovers (flowKey (engHalf e) f) = some { src := e.val, dst := dst, since := x.halt }))
    ∧ (d.cqSpill h.val = true → d.cqSpill (1 - h.val) = false → d.spillable h.val ≠ [] →
      ∃ t, exec (.spillStart h) s = .next t ∧ t.dev.fld pg F.PLU_STAT_SPILL_OUT = 1
        ∧ t.dev.fld (Pg.plu (1 - h.val)) F.PLU_STAT_SPILL_IN = 1 ∧ (t.dev.pluOf h.val).spilled ≠ [])
    ∧ (d.cqSpill h.val = true → d.cqSpill (1 - h.val) = true →
      ∃ t, exec (.spillStart h) s = .next t ∧ t.dev.fld pg (F.ERRCNT 4) = min (d.fld pg (F.ERRCNT 4) + 1) 0xFFFFFFFF ∧ t.dev.plus = d.plus)
    ∧ (d.cqSpill h.val = false → (d.pluOf h.val).spilled ≠ [] →
      ∃ t, exec (.spillEnd h) s = .next t ∧ t.dev.fld pg F.PLU_STAT_SPILL_OUT = 0
        ∧ t.dev.fld (Pg.plu (1 - h.val)) F.PLU_STAT_SPILL_IN = 0 ∧ (t.dev.pluOf h.val).spilled = [])
    ∧ (∀ val : Word, let l := (d.exts.filter (fun x => x.half = h.val && x.flow = bitsOf val.toNat 0 12 && !x.isOpen)).take (bitsOf val.toNat 12 20)
      (l = [] → ∃ t, exec (.pluRelWrite h val) s = .next t ∧ t.dev.exts = d.exts
        ∧ t.dev.fld pg (F.ERRCNT 1) = min (d.fld pg (F.ERRCNT 1) + 1) 0xFFFFFFFF)
      ∧ (l ≠ [] → ∃ t, exec (.pluRelWrite h val) s = .next t
        ∧ t.dev.exts = d.exts.filter (fun y => l.all (fun x => decide (y.openNo ≠ x.openNo)))))
    ∧ (∀ (j : Fin 8) (off : Fin 4096) (val : Word), d.unpaired → off.val = 0x120 + 4 * j.val →
      (d.extsOn h.val j = [] → bit val.toNat 12 = false → val.toNat < 2 ^ 13 →
        ∃ t, exec (.stripeWrite h off val) s = .next t ∧ t.dev.reg pg off = val ∧ t.dev.exts = d.exts)
      ∧ (d.extsOn h.val j ≠ [] → val.toNat < 2 ^ 13 →
        ∃ t, exec (.stripeWrite h off val) s = .next t ∧ t.dev.reg pg off = d.reg pg off
          ∧ t.dev.fld pg (F.ERRCNT 0) = min (d.fld pg (F.ERRCNT 0) + 1) 0xFFFFFFFF))

/-- R215 to R218, R222, R223, R225: reads of the capture space, seeks, descriptor reads. -/
def Obligations.CaptureSpaceAndSeeks : Prop :=
  ∀ (s : State), s.dev.rst = .running →
    let d := s.dev
    (∀ (src : CapSrc) (off len : Nat), ∃ t, exec (.bar2Read src off len) s = .next t ∧ t.dev.nextRead = d.nextRead + 1
      ∧ (∃ r, sfind t.dev.capReads d.nextRead = some r ∧ r.src = src ∧ r.off = off ∧ r.len = len ∧ r.due = d.ck + 3 ∧ r.begun = false
          ∧ r.done = none)
      ∧ t.dev.awaits (.bar2ReadData d.nextRead) = true)
    ∧ (∀ (id : Nat) (r : CapRead), sfind d.capReads id = some r → r.begun = false →
      (r.due ≤ d.ck → ∃ t q, exec (.bar2ReadData id) s = .next t ∧ sfind t.dev.capReads id = some q ∧ q.begun = true ∧ q.src = r.src
        ∧ q.off = r.off ∧ q.len = r.len ∧ q.tx = d.nextTx)
      ∧ (d.ck < r.due → exec (.bar2ReadData id) s = s.becomes (d.begin (.bar2ReadData id))))
    ∧ (∀ (id : Nat) (r : CapRead) (x : DTx) (tag : Nat) (c : Nat), sfind d.capReads id = some r → r.src = .pcie tag → r.begun = true →
      r.done = none → r.classes = some [c] → sfind d.dtx r.tx = some x → d.txDone x = true → r.off % 32 = 0 → r.len = 32 →
      d.unitClass r.src r.badOrds r.off = clsUnwritten →
      ∃ t, exec (.bar2ReadData id) s = .next t ∧ Out.bar2 tag (fillOf clsUnwritten) false ∈ t.dev.out ∧ sfind t.dev.capReads id = none
        ∧ t.dev.fld (Pg.idx (capHalf r.off)) F.IDX_UNWR_RD_CNT = min (d.fld (Pg.idx (capHalf r.off)) F.IDX_UNWR_RD_CNT + 1) 0xFFFFFFFF)
    ∧ (∀ off : Nat, ∃ t, exec (.bar2Write off) s = .next t ∧ t.dev.rest = d.rest
      ∧ t.dev.fld (Pg.idx (capHalf off)) (F.ERRCNT 0) = min (d.fld (Pg.idx (capHalf off)) (F.ERRCNT 0) + 1) 0xFFFFFFFF)
    ∧ (∀ (h : Half) (val : Word), d.unpaired → let pg := Pg.idx h.val
      (d.fld pg F.IDX_STAT_SEEK_BUSY = 0 → ∃ t q, exec (.seekGo h val) s = .next t ∧ t.dev.fld pg F.IDX_STAT_SEEK_BUSY = 1
        ∧ sfind t.dev.seeks h = some q ∧ q.flow = bitsOf val.toNat 0 12 ∧ q.home = bitsOf val.toNat 12 1 ∧ q.startCk = d.ck
        ∧ q.target = d.reg64 pg 0x108)
      ∧ (d.fld pg F.IDX_STAT_SEEK_BUSY = 1 → ∃ t, exec (.seekGo h val) s = .next t ∧ t.dev.seeks = d.seeks
        ∧ t.dev.fld pg (F.ERRCNT 2) = min (d.fld pg (F.ERRCNT 2) + 1) 0xFFFFFFFF))
    ∧ (∀ (h : Half) (q : SeekSt), sfind d.seeks h.val = some q → q.n = 0 → let pg := Pg.idx h.val
      ∃ t, exec (.seekDone h) s = .next t ∧ sfind t.dev.seeks h.val = none ∧ t.dev.fld pg F.IDX_STAT_SEEK_BUSY = 0
        ∧ t.dev.fld pg F.IDX_SEEK_STAT_RESULT = 4 ∧ t.dev.fld pg F.IDX_SEEK_RES_LO = d.frontier q.home q.flow % 2 ^ 32
        ∧ t.dev.fld pg F.IDX_SEEK_STAT_CK = min (d.ck - q.startCk) 0xFFFF ∧ bit (t.dev.reg pg 0x010).toNat 0 = true)
    ∧ (∀ (h : Half) (q : SeekSt) (x : DTx), sfind d.seeks h.val = some q → q.n ≠ 0 → q.k = d.dirD q.home + 1 → sfind d.dtx q.tx = some x → d.txDone x = true →
      x.poisoned = false → x.resp = .ok → (d.liveExt q.home q.flow q.lo).isSome = true →
      let p := d.ordLp q.home q.flow q.lo (leNat (x.bytes.map Prod.fst))
      let pg := Pg.idx h.val
      ¬ (q.lo = d.oldest q.home q.flow ∧ q.target < p.1) → ¬ (q.lo = d.newest q.home q.flow ∧ p.1 + p.2 < q.target) →
      ∃ t, exec (.seekDone h) s = .next t ∧ sfind t.dev.seeks h.val = none ∧ t.dev.fld pg F.IDX_SEEK_STAT_RESULT = 0
        ∧ t.dev.fld pg F.IDX_SEEK_RES_LO = q.lo * extBytes % 2 ^ 32 ∧ t.dev.fld pg F.IDX_STAT_SEEK_BUSY = 0)
    ∧ (∀ (h : Half), sfind d.descReads h.val = none → let pg := Pg.idx h.val
      (d.fld pg F.IDX_STAT_SEEK_BUSY = 0 → ∃ t, exec (.descRead h) s = .next t ∧ sfind t.dev.descReads h.val
        = some ⟨d.nextTx, d.fld pg F.IDX_DESC_SEL_H, d.fld pg F.IDX_DESC_SEL_FLOW, d.fld pg F.IDX_DESC_SEL_ORD⟩)
      ∧ (d.fld pg F.IDX_STAT_SEEK_BUSY = 1 → ∃ t, exec (.descRead h) s = .next t ∧ t.dev.fld pg F.IDX_DESC_CMD_STATUS = 2
        ∧ t.dev.descReads = d.descReads ∧ t.dev.fld pg (F.ERRCNT 2) = min (d.fld pg (F.ERRCNT 2) + 1) 0xFFFFFFFF))
    ∧ (∀ (h : Half) (q : DescRead) (x : DTx), sfind d.descReads h.val = some q → sfind d.dtx q.tx = some x → d.txDone x = true → x.poisoned = false →
      let pg := Pg.idx h.val
      d.openExt q.home q.flow = none →
      ∃ t, exec (.descRead h) s = .next t ∧ t.dev.window 128 pg 0x128 4 = BitVec.ofNat 128 (leNat (x.bytes.map Prod.fst))
        ∧ t.dev.fld pg F.IDX_DESC_CMD_STATUS = 0 ∧ bit (t.dev.reg pg 0x010).toNat 1 = true ∧ sfind t.dev.descReads h.val = none)

/-- R226, R227, R229, R230, R232, R235 to R237, R244, R311, R314: actions reach a stimulus unit, over its port's slots or from an issuer, are
applied or dropped; the template words. -/
def Obligations.StimulusActions : Prop :=
  ∀ (s : State), s.dev.rst = .running →
    let d := s.dev
    (∀ (h : Half) (a0 a1 : Word), d.userUp (.stim h.val) = false → exec (.stimPortAction h a0 a1) s = s.becomes d.fresh)
    ∧ (∀ (h : Half) (a0 a1 : Word), d.userUp (.stim h.val) = true →
      argOk Cl.stim a0.toNat a1.toNat = false ∨ laneHalf (a1.toNat % 64) ≠ h.val →
      ∃ t, exec (.stimPortAction h a0 a1) s = .next t ∧ t.dev.stimIn = d.stimIn
        ∧ (∃ x ∈ t.dev.fab.slots, x.port = .stim h.val ∧ x.val = .taken false)
        ∧ t.dev.fld (Pg.stim h.val) (F.ERRCNT 1) = min (d.fld (Pg.stim h.val) (F.ERRCNT 1) + 1) 0xFFFFFFFF)
    ∧ (∀ (h : Half) (a0 a1 : Word), d.userUp (.stim h.val) = true → argOk Cl.stim a0.toNat a1.toNat = true → laneHalf (a1.toNat % 64) = h.val →
      ∃ t a, exec (.stimPortAction h a0 a1) s = .next t ∧ t.dev.stimIn = d.stimIn ++ [a] ∧ a.src = .port ∧ a.cls = Cl.stim
        ∧ a.arg0 = a0.toNat ∧ a.arg1 = a1.toNat ∧ a.lp = d.pubLp h.val ∧ a.dest = h.val
        ∧ (∃ x ∈ t.dev.fab.slots, x.port = .stim h.val ∧ x.val = .taken true) ∧ t.dev.awaits (.stimActionArrival h) = true)
    ∧ (∀ (h : Half) (a : Action) (rest : List Action), d.stimNext h.val Cl.stim = some (a, rest) →
      let n := a.arg1 % 64
      isStimulus (d.modeOf (laneHalf n)) = true →
      (d.txOk n = true → (d.stimOf n).pend.length < 4 →
        ∃ t x, exec (.stimActionArrival h) s = .next t ∧ t.dev.stimIn = rest ∧ (t.dev.stimOf n).pend = (d.stimOf n).pend ++ [x]
          ∧ x.op = stimOp a.arg0 ∧ x.tmpl = stimTemplate a.arg0 ∧ x.count = stimCount a.arg0 ∧ x.delay = stimDelay a.arg0 ∧ x.base = a.lp)
      ∧ (d.txOk n = true → 4 ≤ (d.stimOf n).pend.length →
        ∃ t, exec (.stimActionArrival h) s = .next t ∧ t.dev.stimIn = rest ∧ t.dev.stims = d.stims
          ∧ t.dev.fld (Pg.stim (laneHalf n)) F.STIM_COLLIDE_CNT = min (d.fld (Pg.stim (laneHalf n)) F.STIM_COLLIDE_CNT + 1) 0xFFFFFFFF
          ∧ bit (t.dev.reg (Pg.stim (laneHalf n)) 0x010).toNat 2 = true))
    ∧ (∀ (n : Fin 64) (c : Instr) (op : Nat), (c, op) ∈ [(Instr.replace n, 0), (Instr.insert n, 1), (Instr.delete n, 2), (Instr.flip n, 3), (Instr.hold n, 4)] →
      let uses : Bool := op = 0 || op = 1 || op = 3
      (∀ a later, d.dueActs n = ([a], later) → a.op = op → (d.stimOf n).run = none → d.txOk n = true →
        (uses = true → d.tmplBad n op a.tmpl = false) →
        (op = 1 → d.generating n = false → (d.tmplEntries (laneHalf n) a.tmpl).length ≤ (roomNums (d.roomWindow n)).length) →
        ∃ t r, exec c s = .next t ∧ (t.dev.stimOf n).pend = later ∧ (t.dev.stimOf n).run = some r ∧ r.op = op ∧ r.tmpl = a.tmpl
          ∧ r.left = (if uses then (d.tmplEntries (laneHalf n) a.tmpl).length else a.count)
          ∧ (op = 1 → d.generating n = false → (t.dev.stimOf n).fifo = (d.tmplEntries (laneHalf n) a.tmpl).map TxItem.entry)
          ∧ t.dev.fld (Pg.stim (laneHalf n)) F.STIM_APPLY_CNT = min (d.fld (Pg.stim (laneHalf n)) F.STIM_APPLY_CNT + 1) 0xFFFFFFFF)
      ∧ (∀ a later, d.dueActs n = ([a], later) → a.op = op → (d.stimOf n).run.isSome = true →
        ∃ t, exec c s = .next t ∧ t.dev.stimOf n = { d.stimOf n with pend := later }
          ∧ t.dev.fld (Pg.stim (laneHalf n)) F.STIM_COLLIDE_CNT = min (d.fld (Pg.stim (laneHalf n)) F.STIM_COLLIDE_CNT + 1) 0xFFFFFFFF)
      ∧ (∀ later, d.dueActs n = ([], later) → exec c s = s.becomes (d.begin c)))
    ∧ (∀ h : Half, let pg := Pg.stim h.val
      let tm := d.fld pg F.STIM_TMPL_ADDR_TMPL
      let w := d.fld pg F.STIM_TMPL_ADDR_WORD
      (∀ peek, ∃ t, exec (.tmplDataAccess h none peek) s = .next t ∧ Out.rdata (raddr pg 0x104) (d.tmplWord h.val tm w) ∈ t.dev.out
        ∧ t.dev.fld pg F.STIM_TMPL_ADDR_WORD = (if peek then w else (w + 1) % 512) ∧ t.dev.rest = d.rest)
      ∧ (∀ v peek, d.unpaired → d.tmplNamed h.val tm = false →
        ∃ t, exec (.tmplDataAccess h (some v) peek) s = .next t ∧ t.dev.tmplWord h.val tm w = v
          ∧ t.dev.fld pg F.STIM_TMPL_ADDR_WORD = (w + 1) % 512)
      ∧ (∀ v peek, d.unpaired → d.tmplNamed h.val tm = true →
        ∃ t, exec (.tmplDataAccess h (some v) peek) s = .next t ∧ t.dev.tmpls = d.tmpls ∧ t.dev.fld pg F.STIM_TMPL_ADDR_WORD = (w + 1) % 512
          ∧ t.dev.fld pg (F.ERRCNT 0) = min (d.fld pg (F.ERRCNT 0) + 1) 0xFFFFFFFF))

/-- R239, R240, R242, R243: playback streams. -/
def Obligations.PlaybackStreams : Prop :=
  ∀ (h : Half) (s : State), s.dev.rst = .running → s.dev.unpaired →
    let d := s.dev
    let pg := Pg.stim h.val
    let q := d.playSel h.val
    let e := d.window 256 pg 0x124 8
    (d.playFree h.val q = true → playEntryOk e = true →
      ∃ t, exec (.playWrite h) s = .next t ∧ t.dev.playOf h.val q = { entry := e } ∧ t.dev.fld pg F.STIM_PLAY_CMD_STATUS = 0)
    ∧ (d.playFree h.val q = false ∨ playEntryOk e = false →
      ∃ t, exec (.playWrite h) s = .next t ∧ t.dev.plays = d.plays ∧ t.dev.fld pg F.STIM_PLAY_CMD_STATUS = 2
        ∧ t.dev.fld pg (F.ERRCNT 2) = min (d.fld pg (F.ERRCNT 2) + 1) 0xFFFFFFFF)
    ∧ (∃ t, exec (.playRead h) s = .next t ∧ t.dev.window 256 pg 0x124 8 = (d.playOf h.val q).entry ∧ t.dev.plays = d.plays
        ∧ t.dev.fld pg F.STIM_PLAY_CMD_STATUS = 0)
    ∧ (d.playFree h.val q = true →
      ∃ t, exec (.playArm h) s = .next t ∧ (t.dev.playOf h.val q).arming = true ∧ (t.dev.playOf h.val q).entry = (d.playOf h.val q).entry
        ∧ (t.dev.playOf h.val q).pos = eget (d.playOf h.val q).entry PL_START ∧ t.dev.fld pg (F.STIM_PLAY_STAT_PASSES q) = 0
        ∧ t.dev.fld pg F.STIM_PLAY_CMD_STATUS = 0)
    ∧ (∀ n : Fin 64, (d.playOf h.val n).arming = true →
      ∃ t, exec (.playArmed h n) s = .next t ∧ t.dev.playState h.val n = Ps.armed ∧ (t.dev.playOf h.val n).arming = false)
    ∧ (let n := d.fld pg F.STIM_PLAY_IDX_LANE
      (d.playState h.val q = Ps.armed → laneHalf n = h.val → isStimulus (d.modeOf h.val) = true → d.txOk n = true →
        ∃ t, exec (.playStart h) s = .next t ∧ t.dev.playState h.val q = Ps.running ∧ (t.dev.playOf h.val q).lane = n
          ∧ (t.dev.playOf h.val q).base = d.pubLp h.val ∧ t.dev.fld pg F.STIM_PLAY_CMD_STATUS = 0)
      ∧ (d.playState h.val q ≠ Ps.armed ∨ laneHalf n ≠ h.val →
        ∃ t, exec (.playStart h) s = .next t ∧ t.dev.plays = d.plays ∧ t.dev.fld pg F.STIM_PLAY_CMD_STATUS = 2))
    ∧ (d.playState h.val q = Ps.running →
      (d.playSending h.val q = false → ∃ t, exec (.playStop h) s = .next t ∧ t.dev.playState h.val q = Ps.ended
        ∧ bit (t.dev.reg pg 0x010).toNat 0 = true)
      ∧ (d.playSending h.val q = true → ∃ t, exec (.playStop h) s = .next t ∧ t.dev.playState h.val q = Ps.running
        ∧ t.dev.playOf h.val q = { d.playOf h.val q with stop := true }))
    ∧ (∀ (a : Action) (rest : List Action), d.stimNext h.val Cl.play = some (a, rest) → isStimulus (d.modeOf h.val) = true →
      laneHalf (a.arg1 % 64) = h.val →
      (d.playState h.val (a.arg0 % 64) = Ps.armed → d.txOk (a.arg1 % 64) = true →
        ∃ t, exec (.playAction h) s = .next t ∧ t.dev.stimIn = rest ∧ t.dev.playState h.val (a.arg0 % 64) = Ps.running
          ∧ (t.dev.playOf h.val (a.arg0 % 64)).base = a.lp)
      ∧ (d.playState h.val (a.arg0 % 64) ≠ Ps.armed →
        ∃ t, exec (.playAction h) s = .next t ∧ t.dev.stimIn = rest ∧ t.dev.plays = d.plays
          ∧ t.dev.fld pg F.STIM_COLLIDE_CNT = min (d.fld pg F.STIM_COLLIDE_CNT + 1) 0xFFFFFFFF))
    ∧ (∀ (n : Fin 64) (id off k : Nat) (r : CapRead) (bytes : List Byte) (cls : List Nat), (d.playOf h.val n).read = some (id, off, k) →
      eget (d.playOf h.val n).entry PL_SRC = 0 → sfind d.capReads id = some r → r.done = some (bytes, cls) →
      let x := d.playOf h.val n
      ∃ t, exec (.playbackReadData h n) s = .next t
        ∧ (t.dev.playOf h.val n).buf = x.buf ++ (if x.rdPass < x.passes then []
            else if x.rdPass = x.passes then (playUnits off bytes cls).filter (fun u => decide (x.pos ≤ u.off))
            else playUnits off bytes cls))
    ∧ (∀ n : Fin 64, d.playState h.val n = Ps.running → (d.playOf h.val n).stop = true → d.playSending h.val n = false →
      ∃ t, exec (.playbackRecordDue h n) s = .next t ∧ t.dev.playState h.val n = Ps.ended ∧ bit (t.dev.reg pg 0x010).toNat 0 = true)
    ∧ (∀ (n : Fin 64) (o : LP), (d.playOf h.val n).origin = some o → d.playState h.val n = Ps.running → (d.playOf h.val n).stop = false →
      let x := d.playOf h.val n
      (x.next o = .wait → exec (.playbackRecordDue h n) s = s.becomes (d.begin (.playbackRecordDue h n)))
      ∧ (∀ dst, x.next o = .skip dst → ∃ t, exec (.playbackRecordDue h n) s = .next t ∧ (t.dev.playOf h.val n).pos = dst
          ∧ t.dev.fld pg (F.ERRCNT 3) = min (d.fld pg (F.ERRCNT 3) + 1) 0xFFFFFFFF)
      ∧ (∀ due size lp, x.next o = .time due size lp → ∃ t, exec (.playbackRecordDue h n) s = .next t
          ∧ (t.dev.playOf h.val n).pos = x.pos + size ∧ (t.dev.playOf h.val n).acc = x.acc + lp)
      ∧ (∀ due size lp tag payload, x.next o = .send due size lp tag payload → reached due (d.selLp x.lane) = true →
          (d.stimOf x.lane).play = none → (d.stimOf x.lane).run = none → d.generating x.lane = true →
          ∃ t, exec (.playbackRecordDue h n) s = .next t
            ∧ (t.dev.stimOf x.lane).play = some { op := 5, syms := d.frameRecord x.lane payload, left := (d.frameRecord x.lane payload).length,
                                                  stream := some n.val }
            ∧ (t.dev.playOf h.val n).pos = x.pos + size ∧ (t.dev.playOf h.val n).acc = x.acc + lp))

/-- R247 to R252, R255, R257 to R259, R267: training, requests, decisions, service, refresh and self-refresh of a DRAM channel. -/
def Obligations.DramChannels : Prop :=
  ∀ (c : Fin 16) (s : State), s.dev.rst = .running →
    let d := s.dev
    let pg := Pg.drc c.val
    let st := d.chanState c
    (∀ (delays : List (BitVec 16)) (reads writes : List Byte), st = Ch.training ∨ st = Ch.retrain → d.ck < (d.drcOf c).trainCk + trainCks →
      ∃ t, exec (.dramTrainingDone c delays reads writes) s = .next t ∧ t.dev.chanState c = st ∧ t.dev.drcs = d.drcs
        ∧ ((d.drcOf c).trainCk + trainCks, Instr.dramTrainingDone c delays reads writes) ∈ t.dev.agenda)
    ∧ (∀ (delays : List (BitVec 16)) (reads writes : List Byte), st = Ch.training ∨ st = Ch.retrain → (d.drcOf c).trainCk + trainCks ≤ d.ck →
      let free (g : Nat) : Nat := (Config.trainWord c g (d.drcOf c).trainCk).toNat
      let rd (g : Nat) : Nat := (reads[g]?).elim (bitsOf (free g) 8 8) (fun b => b.toNat)
      let wr (g : Nat) : Nat := (writes[g]?).elim (bitsOf (free g) 24 8) (fun b => b.toNat)
      let used := (List.range 20).filter (fun g => d.x4 c || decide (g % 10 < 5))
      let eye := d.fld pg F.DRC_TRACK_MIN_EYE
      ((∀ g ∈ used, eye ≤ rd g ∧ eye ≤ wr g) →
        ∃ t, exec (.dramTrainingDone c delays reads writes) s = .next t ∧ t.dev.chanState c = Ch.online ∧ bit (t.dev.reg pg 0x010).toNat 0 = true
          ∧ t.dev.fld pg F.DRC_STAT_DRIFT = 0)
      ∧ ((∃ g ∈ used, rd g < eye ∨ wr g < eye) →
        ∃ t, exec (.dramTrainingDone c delays reads writes) s = .next t ∧ t.dev.chanState c = Ch.failed ∧ bit (t.dev.reg pg 0x010).toNat 1 = true
          ∧ t.dev.fld pg (F.ERRCNT 0) = min (d.fld pg (F.ERRCNT 0) + 1) 0xFFFFFFFF))
    ∧ (d.unpaired →
      (st = Ch.online → (d.drcOf c).drain ≠ .selfRefresh → ∃ t, exec (.retrainWrite c) s = .next t ∧ t.dev.drcOf c = { d.drcOf c with drain := .retrain, retrainCk := some d.ck })
      ∧ (st ≠ Ch.online → ∃ t, exec (.retrainWrite c) s = .next t ∧ t.dev.drcs = d.drcs
          ∧ t.dev.fld pg (F.ERRCNT 1) = min (d.fld pg (F.ERRCNT 1) + 1) 0xFFFFFFFF))
    ∧ ((d.drcOf c).drain = .retrain → d.chanIdle c = true →
      ∃ t, exec (.retrainStart c) s = .next t ∧ t.dev.chanState c = Ch.retrain ∧ (t.dev.drcOf c).retraining = true ∧ (t.dev.drcOf c).drain = .none
        ∧ (t.dev.drcOf c).trainCk = d.ck)
    ∧ (∀ (b : Fin 2) (r : DReq) (rest : List DReq), (d.subOf c b).waiting = r :: rest → r.due ≤ d.ck → d.domState (Dom.dram c) ≠ Ds.closing →
      (st = Ch.online → (d.drcOf c).drain = .none → r.off + 64 ≤ d.chanCap c → d.cryptRange c r.off = none → (d.subOf c b).queue.length < 64 →
        ∃ t, exec (.dramRequest c b) s = .next t ∧ t.dev.subOf c b = { d.subOf c b with waiting := rest, queue := (d.subOf c b).queue ++ [r] }
          ∧ t.dev.awaits (.dramDecision c b 0) = true)
      ∧ (st = Ch.off ∨ st = Ch.failed → ∃ t, exec (.dramRequest c b) s = .next t ∧ t.dev.subOf c b = { d.subOf c b with waiting := rest }
          ∧ t.dev.fld pg (F.ERRCNT 6) = min (d.fld pg (F.ERRCNT 6) + 1) 0xFFFFFFFF))
    ∧ (∀ (b : Fin 2) (ok : BitVec 64) (r : DReq), st = Ch.online → (d.subOf c b).queue = [r] → d.selectable c b ok (0, r) = true →
      let x := d.subOf c b
      let cnt := if (d.rowCase c b r.off).1 = 0 then F.DRC_HIT_CNT else if (d.rowCase c b r.off).1 = 1 then F.DRC_CLOSED_CNT else F.DRC_CONFLICT_CNT
      ∃ t, exec (.dramDecision c b ok) s = .next t ∧ (t.dev.subOf c b).queue = [] ∧ (t.dev.subOf c b).serving = x.serving ++ [(d.ck + d.requestTime c b r, r)]
        ∧ (t.dev.subOf c b).rows = (if r.close then serase x.rows (d.bankKey c r.off) else sput x.rows (d.bankKey c r.off) (d.offRow c r.off))
        ∧ t.dev.fld pg cnt = min (d.fld pg cnt + 1) 0xFFFFFFFF)
    ∧ (∀ (b : Fin 2) (u : Nat) (r : DReq) (tr : DTx), (d.subOf c b).serving = [(u, r)] → r.span = 64 → r.base = r.off →
      d.cryptRange c r.off = none → (d.drcOf c).drain = .none → sfind d.dtx r.tx = some tr → 2 ≤ tr.left → d.afterA c b = false →
      (r.wr = none → d.decodeAt c r.off (d.burst c r.off) = .clean →
        ∃ t x, exec (.dramServiceDone c b 0#640 none) s = .next t ∧ (t.dev.subOf c b).serving = [] ∧ sfind t.dev.dtx r.tx = some x ∧ x.left = tr.left - 1
          ∧ x.parts = tr.parts ++ [(r.part, leBytes 64 (d.burst c r.off).data.toNat, false)] ∧ t.dev.mem = d.mem)
      ∧ (∀ l, r.wr = some l → l.all (fun o => o.isSome) = true → l.length = 64 → r.poison = false →
        ∃ t x, exec (.dramServiceDone c b 0#640 none) s = .next t ∧ (t.dev.subOf c b).serving = [] ∧ sfind t.dev.dtx r.tx = some x ∧ x.left = tr.left - 1
          ∧ t.dev.burst c r.off = encodeBurst (d.isStrong c r.off) (d.x4 c) (mergeBytes (d.burst c r.off).data l)
          ∧ ∀ a, a < Na.dram c + r.off ∨ Na.dram c + r.off + 64 ≤ a → t.dev.byte a = d.byte a))
    ∧ (∀ (b rank : Fin 2) (rd wr : Fin 3), st = Ch.online ∨ st = Ch.retrain → rank.val < d.ranks c →
      ∃ t, exec (.refresh c b rank rd wr) s = .next t
        ∧ (rank.val, d.ck + d.fld pg F.DRC_TIMING2_TRFC + (if d.flag pg F.DRC_TRACK_EN then 48 else 0)) ∈ (t.dev.subOf c b).blocked
        ∧ (t.dev.subOf c b).rows = (d.subOf c b).rows.filter (fun e => decide (e.1 / 32 ≠ rank.val)) ∧ (t.dev.subOf c b).queue = (d.subOf c b).queue
        ∧ t.dev.awaits (.refresh c b 0 0 0) = (decide (rank.val = 0) || (d.begin (.refresh c b rank rd wr)).awaits (.refresh c b 0 0 0)))
    ∧ (∀ (codes : BitVec 16) (hot excess : BitVec 4), st = Ch.online ∨ st = Ch.retrain →
      ∃ t, exec (.mr4Read c codes hot excess) s = .next t ∧ t.dev.reg pg 0x130 = BitVec.ofNat 32 codes.toNat
        ∧ t.dev.fld pg F.DRC_STAT_HOT_A = b01 (hot.getLsbD 0 || excess.getLsbD 0 || (decide (d.ranks c = 2) && (hot.getLsbD 1 || excess.getLsbD 1)))
        ∧ t.dev.fld pg F.DRC_STAT_HOT_B = b01 (hot.getLsbD 2 || excess.getLsbD 2 || (decide (d.ranks c = 2) && (hot.getLsbD 3 || excess.getLsbD 3))))
    ∧ (st = Ch.online → (d.drcOf c).drain = .none →
      ∃ t, exec (.selfRefreshEntry c) s = .next t ∧ (t.dev.drcOf c).drain = .selfRefresh ∧ t.dev.chanState c = Ch.online)
    ∧ (st = Ch.online → (d.drcOf c).drain = .retrain → (d.drcOf c).retrainCk = some d.ck →
      ∃ t, exec (.selfRefreshEntry c) s = .next t ∧ (t.dev.drcOf c).drain = .selfRefresh ∧ t.dev.chanState c = Ch.online
        ∧ t.dev.fld pg (F.ERRCNT 1) = min (d.fld pg (F.ERRCNT 1) + 1) 0xFFFFFFFF)
    ∧ (st = Ch.online → (d.drcOf c).drain = .selfRefresh → d.chanIdle c = true →
      ∃ t, exec (.selfRefreshDone c) s = .next t ∧ t.dev.chanState c = Ch.selfRefresh ∧ (t.dev.drcOf c).drain = .none
        ∧ t.dev.fld pg F.DRC_SR_CNT = min (d.fld pg F.DRC_SR_CNT + 1) 0xFFFFFFFF ∧ ∀ b, b < 2 → (t.dev.subOf c b).rows = [])
    ∧ (st = Ch.selfRefresh → (d.drcOf c).exiting = false → d.forced (Dom.dram c) = false →
      ∃ t, exec (.selfRefreshExit c) s = .next t ∧ (t.dev.drcOf c).exiting = true ∧ t.dev.chanState c = Ch.selfRefresh
        ∧ t.dev.awaits (.selfRefreshExitDone c) = true)
    ∧ (st = Ch.selfRefresh → (d.drcOf c).exiting = true →
      ∃ t, exec (.selfRefreshExitDone c) s = .next t ∧ t.dev.chanState c = Ch.online ∧ (t.dev.drcOf c).exiting = false)

/-- R114, R262, R270 to R276, R279, R284, R293, R294, R484: integrity units, crypt units, the default of a sieve, the lock. -/
def Obligations.IntegrityAndCryptUnits : Prop :=
  ∀ (s : State), s.dev.rst = .running → s.dev.unpaired → s.dev.cfgLock = false →
    let d := s.dev
    (∀ c : Fin 16, let pg := Pg.memi c.val
      let spans := d.scrubSpans c
      let pos := d.fld pg F.MEMI_SCRUB_POS * 64
      (∀ err, nextScrub spans pos = none → ∃ t, exec (.scrubRead c err) s = .next t ∧ t.dev.fld pg F.MEMI_STAT_SCRUB_RUN = 0 ∧ t.dev.mem = d.mem)
      ∧ (∀ off n, nextScrub spans pos = some off → nextScrub spans (off + 64) = some n → d.chanState c = Ch.online →
          d.flag pg F.MEMI_CTRL_SCRUB_EN = true → (d.subOf c (offSub off)).queue = [] → (d.subOf c (offSub off)).lastScrub = 0 →
          (d.subOf c (offSub off)).scrub = none → d.rankBlocked c (offSub off) off = false → d.retired c off = false → d.decodeAt c off (d.burst c off) = .clean →
        ∃ t, exec (.scrubRead c 0#640) s = .next t ∧ t.dev.fld pg F.MEMI_STAT_SCRUB_RUN = 1 ∧ t.dev.fld pg F.MEMI_SCRUB_POS = n / 64 % 2 ^ 32
          ∧ t.dev.mem = d.mem)
      ∧ (∀ r : Fin 16, (d.memiOf c).filling = some r.val → d.chanState c = Ch.online →
        let lo := d.fld pg (F.MEMI_REGION_BASE_BASE r) * 4096
        let hi := lo + d.fld pg (F.MEMI_REGION_CTRL_SIZE r) * 4096
        ∃ t, exec (.regionInitDone c) s = .next t ∧ (t.dev.memiOf c).filling = none ∧ t.dev.fld pg (F.MEMI_REGION_CTRL_INITED r) = 1
          ∧ ∀ a, t.dev.byte a = (if Na.dram c + lo ≤ a ∧ a < Na.dram c + hi then memDflt a else d.byte a))
      ∧ (∀ r : Fin 16, (d.memiOf c).filling = none → ∃ t, exec (.regionInit c r) s = .next t ∧ (t.dev.memiOf c).filling = some r.val)
      ∧ (∀ (k : Fin 33) (val : Word), k.val % 2 = 0 → k.val < 32 → val.toNat < 2 ^ 26 →
        let off := 0x100 + 4 * k.val
        (d.regionRefused c val.toNat (d.fld pg (F.MEMI_REGION_CTRL_SIZE (k.val / 2))) = false →
          ∃ t, exec (.memiRegionWrite c k val) s = .next t ∧ t.dev.reg pg off = val)
        ∧ (d.regionRefused c val.toNat (d.fld pg (F.MEMI_REGION_CTRL_SIZE (k.val / 2))) = true → (d.reg pg off &&& 0x3FFFFFF#32) ≠ val →
          ∃ t, exec (.memiRegionWrite c k val) s = .next t ∧ t.dev.reg pg off = d.reg pg off &&& 0x3FFFFFF#32
            ∧ t.dev.fld pg (F.ERRCNT 3) = min (d.fld pg (F.ERRCNT 3) + 1) 0xFFFFFFFF))
      ∧ (∀ val : Word, ∃ t, exec (.devfailWrite c val) s = .next t ∧ t.dev.reg pg 0x184 = val &&& 0xFFFF#32)
      ∧ (∃ t, exec (.logClr c) s = .next t ∧ t.dev.memiOf c = { d.memiOf c with log := [] } ∧ t.dev.fld pg F.MEMI_STAT_LOG_USED = 0
          ∧ t.dev.fld pg F.MEMI_STAT_HARD = 0)
      ∧ (∀ (k : Fin 64) (val : Word), val.toNat < 2 ^ 27 →
        let row := bitsOf val.toNat 9 18
        let bad := bit val.toNat 0 && (if bit val.toNat 1 then decide (row ≠ 0) else decide (2 ^ d.rowBits c ≤ row))
        (bad = false → ∃ t, exec (.retirementWrite c k val) s = .next t ∧ t.dev.reg pg (0x200 + 4 * k.val) = val)
        ∧ (bad = true → ∃ t, exec (.retirementWrite c k val) s = .next t ∧ t.dev.reg pg (0x200 + 4 * k.val) = d.reg pg (0x200 + 4 * k.val)
          ∧ t.dev.fld pg (F.ERRCNT 4) = min (d.fld pg (F.ERRCNT 4) + 1) 0xFFFFFFFF)))
    ∧ (∀ m : Fin 8, ∃ t, exec (.ocmWriteBack m) s = .next t ∧ t.dev.rest = (d.begin (.ocmWriteBack m)).rest ∧ t.dev.mem = d.mem
      ∧ t.dev.imem = d.imem ∧ ∀ g off, g ≠ Pg.pair → t.dev.reg g off = d.reg g off)
    ∧ (∀ h : Half, let pg := Pg.crypt h.val
      (∀ k : Fin 8, bit (d.fld pg F.CRYPT_STAT_INIT_BUSY) k.val = true → d.chansOnline h (d.fld pg (F.CRYPT_RANGE_CFG_CHANS k)) = true →
        ∃ t, exec (.cryptInitDone h k) s = .next t ∧ t.dev.fld pg (F.CRYPT_RANGE_CFG_INITED k) = 1
          ∧ t.dev.fld pg F.CRYPT_STAT_INIT_BUSY = d.fld pg F.CRYPT_STAT_INIT_BUSY - 2 ^ k.val ∧ bit (t.dev.reg pg 0x010).toNat 0 = true)
      ∧ (∀ x rest, (d.cryptOf h.val).resealing = x :: rest → d.chanState x.2.1 = Ch.online →
        ∃ t, exec (.resealDone h) s = .next t ∧ (t.dev.cryptOf h.val).resealing = rest ∧ bit (t.dev.reg pg 0x010).toNat 0 = true)
      ∧ (∀ (k : Fin 8) (j : Fin 6) (val : Word), j.val < 4 → val.toNat < 2 ^ 26 →
        let off := 0x100 + 0x20 * k.val + 4 * j.val
        (d.rgEn h.val k = false → ∃ t, exec (.cryptRangeWrite h k j val) s = .next t ∧ t.dev.reg pg off = (d.reg pg off &&& 0xFC000000#32) ||| val)
        ∧ (d.rgEn h.val k = true → (d.reg pg off &&& 0x3FFFFFF#32) ≠ val → ∃ t, exec (.cryptRangeWrite h k j val) s = .next t
          ∧ t.dev.reg pg off = d.reg pg off ∧ t.dev.fld pg (F.ERRCNT 5) = min (d.fld pg (F.ERRCNT 5) + 1) 0xFFFFFFFF))
      ∧ (∀ k : Fin 8, d.rgEn h.val k = true →
        ∃ t, exec (.cryptInit h k) s = .next t ∧ t.dev.fld pg F.CRYPT_STAT_INIT_BUSY = d.fld pg F.CRYPT_STAT_INIT_BUSY ||| 2 ^ k.val)
      ∧ (∀ (k : Fin 8) (slot : Fin 16), d.rgEn h.val k = false → d.slotLive slot = true →
        ∃ t, exec (.loadSlot h k slot) s = .next t ∧ sfind (t.dev.cryptOf h.val).keys k = some (d.slotKey slot)
          ∧ t.dev.fld pg (F.CRYPT_RANGE_KEY_VALID k) = 1 ∧ t.dev.fld pg (F.CRYPT_RANGE_KEY_WRAPPED k) = 0 ∧ t.dev.fld pg F.CRYPT_KEY_CMD_STATUS = 0)
      ∧ (∀ (k : Fin 8) (slot : Fin 16), d.rgEn h.val k = false → d.slotLive slot = true →
        let out := unwrapKey (d.slotKey slot) ((List.range 10).map (fun j => leBytes 4 (d.reg pg (0x200 + 4 * j)).toNat)).flatten
        ∃ t, exec (.unwrap h k slot) s = .next t ∧ (∀ j, j < 10 → t.dev.reg pg (0x200 + 4 * j) = 0#32)
          ∧ (∀ key, out = some key → sfind (t.dev.cryptOf h.val).keys k = some key ∧ t.dev.fld pg (F.CRYPT_RANGE_KEY_WRAPPED k) = 1
              ∧ t.dev.fld pg F.CRYPT_KEY_CMD_STATUS = 0)
          ∧ (out = none → t.dev.crypts = d.crypts ∧ t.dev.fld pg F.CRYPT_KEY_CMD_STATUS = 2
            ∧ t.dev.fld pg (F.ERRCNT 4) = min (d.fld pg (F.ERRCNT 4) + 1) 0xFFFFFFFF))
      ∧ (∀ (k : Fin 8) (slot : Fin 16), d.rgEn h.val k = true ∨ d.slotLive slot = false →
        ∀ i, i = .loadSlot h k slot ∨ i = .unwrap h k slot →
          ∃ t, exec i s = .next t ∧ t.dev.crypts = d.crypts ∧ t.dev.fld pg F.CRYPT_KEY_CMD_STATUS = 2
            ∧ t.dev.fld pg (F.ERRCNT 4) = min (d.fld pg (F.ERRCNT 4) + 1) 0xFFFFFFFF)
      ∧ (∀ val : Word, let k := bitsOf val.toNat 29 3
        let off := bitsOf val.toNat 0 26 * 2048
        let lvl := d.fld pg F.CRYPT_RESEAL_LEVEL_LEVEL
        (d.rgEn h.val k = false → ∃ t, exec (.reseal h val) s = .next t ∧ t.dev.crypts = d.crypts
          ∧ t.dev.fld pg (F.ERRCNT 5) = min (d.fld pg (F.ERRCNT 5) + 1) 0xFFFFFFFF)
        ∧ (d.rgEn h.val k = true → d.rgBase h.val k ≤ off → (off - d.rgBase h.val k) % (2048 * 8 ^ lvl) = 0 →
          ∃ t, exec (.reseal h val) s = .next t ∧ (t.dev.cryptOf h.val).resealing = (d.cryptOf h.val).resealing
            ++ [(k, 8 * h.val + bitsOf val.toNat 26 3, lvl + 1, (off - d.rgBase h.val k) / (2048 * 8 ^ lvl))])))
    ∧ (∀ (q : Fin 16) (val : Word), let pg := Pg.sieve q.val
      let act := bitsOf val.toNat 0 2
      ((act = 0 ∨ act = 1 ∨ (act = 2 ∧ bitsOf val.toNat 16 16 ≠ 0)) →
        ∃ t, exec (.sieveDefaultWrite q val) s = .next t ∧ t.dev.reg pg 0x148 = val &&& 0xFFFF0003#32)
      ∧ ((act = 3 ∨ (act = 2 ∧ bitsOf val.toNat 16 16 = 0)) → ∃ t, exec (.sieveDefaultWrite q val) s = .next t ∧ t.dev.reg pg 0x148 = d.reg pg 0x148
        ∧ t.dev.fld pg F.SIEVE_CMD_STATUS = 2 ∧ t.dev.fld pg (F.ERRCNT 2) = min (d.fld pg (F.ERRCNT 2) + 1) 0xFFFFFFFF))
    ∧ (∃ t, exec .devCfgLock s = .next t ∧ t.dev.cfgLock = true ∧ t.dev.rest = d.rest)

/-- R296, R299 to R302, R304, R306, R307, R309, R311, R313, R315: what user logic's blocks report, records of user logic, ring oscillators,
cells and their flip-flops, where wires run, a wire and a Sill that nothing drives, arithmetic slices, slots of mortise ports. -/
def Obligations.FabricBlocks : Prop :=
  ∀ (s : State), s.dev.rst = .running →
    let d := s.dev
    (∀ (b : Fin 12) (sill : Fin 7904) (win : Fin 960), d.bayLive b = true → let pg := Pg.bay b.val
      let once := (d.bayOf b.val).sillCk ≠ some d.ck
      let takes := d.fld pg F.BAY_SILL_FIRST_VALID = 0
        ∨ ((d.bayOf b.val).sillCk = some d.ck ∧ (d.bayOf b.val).sillOwn = true ∧ sill.val < d.fld pg F.BAY_SILL_FIRST_SILL)
      ∃ t, exec (.sillContention b sill win) s = .next t
        ∧ (once → t.dev.fld pg (F.ERRCNT 1) = min (d.fld pg (F.ERRCNT 1) + 1) 0xFFFFFFFF ∧ bit (t.dev.reg pg 0x010).toNat 3 = true)
        ∧ (¬ once → t.dev.fld pg (F.ERRCNT 1) = d.fld pg (F.ERRCNT 1))
        ∧ (takes → t.dev.fld pg F.BAY_SILL_FIRST_VALID = 1 ∧ t.dev.fld pg F.BAY_SILL_FIRST_SILL = sill.val
          ∧ t.dev.fld pg F.BAY_SILL_FIRST_WINNER = win.val)
        ∧ (¬ takes → t.dev.reg pg 0x140 = d.reg pg 0x140)
        ∧ (t.dev.bayOf b.val).sillCk = some d.ck ∧ ({ t.dev with bays := d.bays } : Dev).rest = d.rest)
    ∧ (∀ (b : Fin 12) (m : Fin 1440) (lo : Fin 36864) (wd : Fin 73) (x : BitVec 72), d.bayLive b = true → lo.val + wd.val ≤ 36864 → let pg := Pg.bay b.val
      ∃ t, exec (.bm36DoubleWrite b m lo wd x) s = .next t ∧ t.dev.fld pg (F.ERRCNT 4) = min (d.fld pg (F.ERRCNT 4) + 1) 0xFFFFFFFF
        ∧ bit (t.dev.reg pg 0x010).toNat 6 = true
        ∧ ∀ i, i < 36864 → bit (sget 0#2048 t.dev.fab.bm36 (18 * (1440 * b.val + m.val) + i / 2048)).toNat (i % 2048)
            = (if lo.val ≤ i ∧ i < lo.val + wd.val then x.getLsbD (i - lo.val)
               else bit (sget 0#2048 d.fab.bm36 (18 * (1440 * b.val + m.val) + i / 2048)).toNat (i % 2048)))
    ∧ (∀ (b : Fin 12), d.bayLive b = true → let pg := Pg.bay b.val
      (∃ t, exec (.bm36EccRead b true) s = .next t ∧ t.dev.fld pg (F.ERRCNT 2) = min (d.fld pg (F.ERRCNT 2) + 1) 0xFFFFFFFF
        ∧ bit (t.dev.reg pg 0x010).toNat 4 = true ∧ t.dev.rest = d.rest)
      ∧ (∃ t, exec (.bm36EccRead b false) s = .next t ∧ t.dev.fld pg F.BAY_BM_CORR_CNT = min (d.fld pg F.BAY_BM_CORR_CNT + 1) 0xFFFFFFFF
        ∧ t.dev.rest = d.rest))
    ∧ (∀ (b : Fin 12) (lane : Fin 64) (typ : Fin 16) (lp : LP) (flow : Fin 4096) (tag : BitVec 24) (payload : List Byte), d.portUp b.val (.queue (b.val / 6)) = true →
      (laneHalf lane = b.val / 6 → typ.val = 0 →
        ∃ t, exec (.queuePortRecord b lane typ lp flow tag payload) s = .next t ∧ t.dev.nextRid = d.nextRid + 1
          ∧ (t.dev.recOf d.nextRid).payload = payload.take 65504 ∧ (t.dev.recOf d.nextRid).lp = lp ∧ (t.dev.recOf d.nextRid).flow = flow.val
          ∧ (t.dev.recOf d.nextRid).tag = tag.toNat ∧ (t.dev.recOf d.nextRid).lane = lane.val
          ∧ ∃ x ∈ sget [] t.dev.allocs (b.val / 6), x.rid = d.nextRid)
      ∧ (laneHalf lane ≠ b.val / 6 ∨ typ.val ≠ 0 →
        ∃ t, exec (.queuePortRecord b lane typ lp flow tag payload) s = .next t ∧ t.dev.rest = d.rest
          ∧ t.dev.fld (Pg.bay b.val) (F.ERRCNT 5) = min (d.fld (Pg.bay b.val) (F.ERRCNT 5) + 1) 0xFFFFFFFF))
    ∧ (∀ (b : Fin 12) (sill : Fin 7904) (win : Fin 960), d.bayLive b = false → exec (.sillContention b sill win) s = s.becomes d.fresh)
    ∧ (∀ (b : Fin 12) (lane : Fin 64) (typ : Fin 16) (lp : LP) (flow : Fin 4096) (tag : BitVec 24) (payload : List Byte),
      d.portUp b.val (.queue (b.val / 6)) = false → exec (.queuePortRecord b lane typ lp flow tag payload) s = s.becomes d.fresh)
    ∧ (∀ a way n c, clusterBack a way n = some c → bayAt c / 6 = bayAt a / 6
      ∧ ((way = .east ∨ way = .west) → bayAt c = bayAt a ∧ rowAt c = rowAt a) ∧ ((way = .north ∨ way = .south) → colAt c = colAt a))
    ∧ (∀ a kind way k, d.connects a (.wire kind way k) = none → d.sig (.wire a kind way k) = false)
    ∧ (∀ b n, (∀ i, i < sillDrivers n → sillDriver (d.frame (sillAt b n i)) (sillTap n) = 0) →
      d.sig (.sill b n) = sget false d.fab.sills (7904 * b + n))
    ∧ (∀ (x : SliceSt) (cfg : BitVec 16) (i j k : BitVec 129),
      (((x.next cfg i).next cfg j).next cfg k).prod = sliceProd cfg (i.setWidth 128)
      ∧ (bit i.toNat 128 = true → (x.next cfg i).acc = 0#72)
      ∧ (bit i.toNat 128 = false → bit cfg.toNat 2 = true →
        let sum := if bit cfg.toNat 3 then x.acc.toInt - sliceTerm cfg x.prod else x.acc.toInt + sliceTerm cfg x.prod
        (x.next cfg i).acc = BitVec.ofInt 72 sum ∧ ((x.next cfg i).wrapped = true ↔ (sum < -2 ^ 71 ∨ 2 ^ 71 ≤ sum))))
    ∧ (∀ x0 r c m, 0 < r → x0 ≤ c →
      let e := (presentAt x0 r c).1
      let k := (presentAt x0 r c).2
      c + 1 ≤ e ∧ (e - x0) % r = 0 ∧ k < r ∧ e + k = c + r ∧ launchedAt x0 r (c + userRound r m) = (e + m * r, k))
    ∧ (∀ x0 r c, 0 < r → x0 < c →
      let e := (launchedAt x0 r c).1
      let k := (launchedAt x0 r c).2
      (e - x0) % r = 0 ∧ k < r ∧ e + 1 + k = c)
    ∧ (∀ (i : Fin 16) (val : Word), bit val.toNat 31 = true →
      ∃ t, exec (.roStart i val) s = .next t ∧ t.dev.fld Pg.dev (F.DEV_RO_DONE i) = 0 ∧ (d.ck + 65536, .roCountDone i) ∈ t.dev.agenda)
    ∧ (∀ (i : Fin 16), let f := d.fld Pg.dev (F.DEV_RO_FSEL i)
      ∃ t, exec (.roCountDone i) s = .next t ∧ t.dev.fld Pg.dev (F.DEV_RO_DONE i) = 1 ∧ bit (t.dev.reg Pg.dev 0x010).toNat 17 = true
        ∧ (d.fld Pg.dev (F.DEV_RO_EN i) = 0 → t.dev.fld Pg.dev (F.DEV_RO_COUNT i) = 0)
        ∧ (d.fld Pg.dev (F.DEV_RO_EN i) = 1 → roLow f ≤ t.dev.fld Pg.dev (F.DEV_RO_COUNT i) ∧ t.dev.fld Pg.dev (F.DEV_RO_COUNT i) ≤ roHigh f))
    ∧ (srising d.fab.clusters = true →
      ∀ a, sget 0#32 d.userEdges.fab.ffs a = if d.clusterEdge a then d.clusterNext a else sget 0#32 d.fab.ffs a)
    ∧ (∀ (f c x cl old : Nat) (cin : Bool), old < 4 →
      (cellBit f c 7 = true → bit cl 1 = true → cellNext f c x cl old cin = bitsOf f (1024 + 8 * c + 1) 2)
      ∧ ((cellBit f c 7 = false ∨ bit cl 1 = false) → cellBit f c 6 = true → bit cl 0 = false → cellNext f c x cl old cin = old)
      ∧ ((cellBit f c 7 = false ∨ bit cl 1 = false) → (cellBit f c 6 = false ∨ bit cl 0 = true) → cellBit f c 0 = true → cellBit f c 5 = true →
        cellBit f c 3 = false → cellBit f c 4 = false →
        cellNext f c x cl old cin % 2 = b01 (bit f (64 * c + 32 + x % 32) ^^ cin) ∧ cellNext f c x cl old cin / 2 = b01 (bit f (64 * c + x % 32))
        ∧ cellCarry f c x cin = (if bit f (64 * c + 32 + x % 32) then cin else bit f (64 * c + x % 32))))

/-- R316 to R319, R321: the flash block, the serial ports, boundary scan. -/
def Obligations.FlashSerialAndScan : Prop :=
  ∀ (s : State),
    let d := s.dev
    (d.rst = .running →
      let a := d.fld Pg.dev F.DEV_FLASH_ADDR_ADDR
      (a % 256 = 0 → d.flashWp a = false → d.fab.flash = none → d.fab.pages.contains (a / 256) = false →
        ∃ t buf, exec .flashProgram s = .next t ∧ t.dev.fab.flash = some (false, a, buf) ∧ buf.length = 256 ∧ t.dev.mem = d.mem
          ∧ t.dev.fld Pg.dev F.DEV_FLASH_CMD_STATUS = 1 ∧ (d.ck + 600000, .flashCmdDone true) ∈ t.dev.agenda)
      ∧ (a % 256 ≠ 0 ∨ d.flashWp a = true ∨ d.fab.flash.isSome ∨ d.fab.pages.contains (a / 256) = true →
        ∃ t, exec .flashProgram s = .next t ∧ t.dev.fab = d.fab ∧ t.dev.fld Pg.dev F.DEV_FLASH_CMD_STATUS = 2
          ∧ t.dev.fld Pg.dev (F.ERRCNT 3) = min (d.fld Pg.dev (F.ERRCNT 3) + 1) 0xFFFFFFFF)
      ∧ (a % 65536 = 0 → d.flashWp a = false → d.fab.flash = none →
        ∃ t, exec .flashErase s = .next t ∧ t.dev.fab.flash = some (true, a, []) ∧ t.dev.fld Pg.dev F.DEV_FLASH_CMD_STATUS = 1
          ∧ (d.ck + 150000000, .flashCmdDone true) ∈ t.dev.agenda)
      ∧ (∀ (x : Nat) (buf : List Byte), d.fab.flash = some (false, x, buf) → buf.length = 256 →
        (∃ t, exec (.flashCmdDone true) s = .next t ∧ t.dev.fab.flash = none ∧ t.dev.fld Pg.dev F.DEV_FLASH_CMD_STATUS = 0
          ∧ bit (t.dev.reg Pg.dev 0x010).toNat 16 = true
          ∧ (∀ j, j < 256 → t.dev.byte (Na.flash + x + j) = d.byte (Na.flash + x + j) &&& byteAt buf j)
          ∧ ∀ y, y < Na.flash + x ∨ Na.flash + x + 256 ≤ y → t.dev.byte y = d.byte y)
        ∧ (∃ t, exec (.flashCmdDone false) s = .next t ∧ t.dev.fab.flash = none ∧ t.dev.fld Pg.dev F.DEV_FLASH_CMD_STATUS = 3 ∧ t.dev.mem = d.mem
          ∧ t.dev.fld Pg.dev (F.ERRCNT 3) = min (d.fld Pg.dev (F.ERRCNT 3) + 1) 0xFFFFFFFF))
      ∧ (∀ (x : Nat) (buf : List Byte), d.fab.flash = some (true, x, buf) → x + 65536 ≤ 0x200_0000 →
        ∃ t, exec (.flashCmdDone true) s = .next t ∧ t.dev.fld Pg.dev F.DEV_FLASH_CMD_STATUS = 0
          ∧ ∀ y, t.dev.byte y = (if Na.flash + x ≤ y ∧ y < Na.flash + x + 65536 then 0xFF#8 else d.byte y)))
    ∧ (d.rst = .running → ∀ (c : Instr) (p : Fin 7) (e : Nat),
        ((∃ (q : Fin 6) (val : Word), c = .serialTxWrite q val ∧ p.val = q.val ∧ e = val.toNat % 256)
          ∨ (p.val = 6 ∧ ∃ (st : Bool) (x : Byte), (c, e) ∈ [(Instr.i2cWrite st x, i2cEntry 0 st x), (.i2cReadAck st x, i2cEntry 1 st x),
              (.i2cReadNack st x, i2cEntry 2 st x), (.i2cStop st x, i2cEntry 3 st x)])) →
        (d.flag Pg.dev (F.DEV_SP_CTRL_OWNER p) = false → (d.serOf p).tx.length < 64 → d.flag Pg.dev (F.DEV_SP_CTRL_EN p) = false →
          ∃ t, exec c s = .next t ∧ t.dev.serOf p = { d.serOf p with tx := (d.serOf p).tx ++ [e] } ∧ t.dev.fld Pg.dev (F.DEV_SP_STAT_NACK p) = 0
            ∧ t.dev.fld Pg.dev (F.DEV_SP_STAT_ARB p) = 0)
        ∧ (d.flag Pg.dev (F.DEV_SP_CTRL_OWNER p) = false → (d.serOf p).tx = [] → (d.serOf p).busy = none → d.flag Pg.dev (F.DEV_SP_CTRL_EN p) = true →
          ∃ t, exec c s = .next t ∧ t.dev.serOf p = { d.serOf p with busy := some e } ∧ (d.ck + d.serCk p e, .serialByteSent p false false) ∈ t.dev.agenda)
        ∧ (d.flag Pg.dev (F.DEV_SP_CTRL_OWNER p) = true → ∃ t, exec c s = .next t ∧ t.dev.rest = d.rest
            ∧ t.dev.fld Pg.dev (F.ERRCNT 5) = min (d.fld Pg.dev (F.ERRCNT 5) + 1) 0xFFFFFFFF))
    ∧ (d.rst = .running → ∀ p : Fin 7,
        (∀ e nack arb, (d.serOf p).busy = some e → (d.serOf p).tx = [] → (p.val ≠ 6 ∨ bitsOf e 8 2 = 0) →
          ∃ t, exec (.serialByteSent p nack arb) s = .next t ∧ t.dev.serOf p = { d.serOf p with busy := none } ∧ Out.serial p.val (byteOf e 0) ∈ t.dev.out
            ∧ (p.val = 6 → nack = true → t.dev.fld Pg.dev (F.DEV_SP_STAT_NACK p) = 1))
        ∧ (d.flag Pg.dev (F.DEV_SP_CTRL_OWNER p) = false →
          ∃ t, exec (.serialRxRemove p) s = .next t ∧ t.dev.serOf p = { d.serOf p with rx := (d.serOf p).rx.drop 1 })
        ∧ (∀ v bad, d.flag Pg.dev (F.DEV_SP_CTRL_OWNER p) = false → d.flag Pg.dev (F.DEV_SP_CTRL_EN p) = true → (bad = false ∨ 4 ≤ p.val) →
          (d.serOf p).rx.length < 64 →
          ∃ t, exec (.serialByteReceived p v bad) s = .next t ∧ t.dev.serOf p = { d.serOf p with rx := (d.serOf p).rx ++ [v] }
            ∧ ((d.serOf p).rx = [] → bit (t.dev.reg Pg.dev 0x010).toNat (18 + p.val) = true))
        ∧ (∀ v, d.flag Pg.dev (F.DEV_SP_CTRL_OWNER p) = false → d.flag Pg.dev (F.DEV_SP_CTRL_EN p) = true → 64 ≤ (d.serOf p).rx.length →
          ∃ t, exec (.serialByteReceived p v false) s = .next t ∧ t.dev.rest = d.rest
            ∧ t.dev.fld Pg.dev (F.ERRCNT 5) = min (d.fld Pg.dev (F.ERRCNT 5) + 1) 0xFFFFFFFF))
    ∧ (∃ t, exec .idcode s = .next t ∧ t.dev.fab = { d.fab with tap := 1 } ∧ Out.port 0x100 0x1C19224B ∈ t.dev.out ∧ t.dev.rst = d.rst)
    ∧ (∀ bits, ∃ t, exec (.samplePreload bits) s = .next t ∧ t.dev.fab = { d.fab with tap := 2, bsr := bits } ∧ t.dev.rst = d.rst)
    ∧ (∀ (c : Instr) (k : Nat), (c, k) ∈ [(Instr.extest, 3), (.clamp, 4), (.highz, 5), (.bypass, 0xFF), (.trstN, 1)] →
        ∃ t, exec c s = .next t ∧ t.dev.fab = { d.fab with tap := k } ∧ t.dev.mem = d.mem
          ∧ (d.rst = .running → t.dev.pins.scan = (if (k = 3 ∨ k = 4 ∨ k = 5) ∧ (d.mode = Mode.blank.code ∨ d.mode = Mode.faulted.code) then k else 0)))

/-- R324, R326, R327, R329, R330, R395, R397, R504 to R507, Tables 16-2, 16-3: resets and their release, clocks. -/
def Obligations.ResetsReleaseAndClocks : Prop :=
  ∀ (s : State),
    let d := s.dev
    (∀ (c : Instr) (src : Nat), (c, src) ∈ [(Instr.resetPin true, 1), (.refclkLoss true, 3)] → d.sources = [] →
      ∃ t, exec c s = .next t ∧ t.dev.rst = .held ∧ t.dev.sources = [src] ∧ t.dev.ck = 0 ∧ t.dev.agenda = [] ∧ t.dev.recs = [] ∧ t.dev.exts = []
        ∧ (∀ h, h < 2 → t.dev.reg (Pg.clkrst h) 0x10C = BitVec.ofNat 32 (2 ^ src)) ∧ t.dev.fuses = d.fuses
        ∧ ∀ a, t.dev.byte a = (if Na.flash ≤ a ∧ a < Na.flashEnd then d.byte a else 0#8))
    ∧ (∀ (c : Instr) (src : Nat), (c, src) ∈ [(Instr.resetPin true, 1), (.refclkLoss true, 3)] → d.sources ≠ [] →
      ∃ t, exec c s = .next t ∧ src ∈ t.dev.sources ∧ t.dev.rst = d.rst ∧ t.dev.mem = d.mem)
    ∧ (∀ (c : Instr) (src : Nat), (c, src) ∈ [(Instr.resetPin false, 1), (.refclkLoss false, 3), (.softwareResetExpiry, 4)] → d.sources = [src] →
      ∃ t, exec c s = .next t ∧ t.dev.sources = [] ∧ t.dev.awaits (.resetRelease d.ins.pairSide d.ins.halfSteward d.ins.cfgAuto d.ins.pullSel) = true)
    ∧ (∀ aon, d.sources = [] → d.fld (Pg.clkrst 0) F.CLKRST_RST_CAUSE_THERM = 0 →
      ∃ t, exec (.powerOnReset aon) s = .next t ∧ t.dev.rst = .unpowered ∧ t.dev.sources = [0] ∧ t.dev.fld Pg.pmc F.PMC_STAT_MON_OK = 0
        ∧ ∀ h, h < 2 → t.dev.reg (Pg.clkrst h) 0x10C = 1#32)
    ∧ (∀ (h : Half) (val : Word), d.rst = .running → d.sources = [] →
      (bitsOf val.toNat 0 16 = 0x5EED → ∃ t, exec (.softwareReset h val) s = .next t ∧ t.dev.rst = .held ∧ t.dev.sources = [4]
        ∧ (1000, .softwareResetExpiry) ∈ t.dev.agenda ∧ ∀ g, g < 2 → t.dev.reg (Pg.clkrst g) 0x10C = 16#32)
      ∧ (bitsOf val.toNat 0 16 ≠ 0x5EED → ∃ t, exec (.softwareReset h val) s = .next t ∧ t.dev.rest = d.rest
        ∧ t.dev.fld (Pg.clkrst h.val) (F.ERRCNT 2) = min (d.fld (Pg.clkrst h.val) (F.ERRCNT 2) + 1) 0xFFFFFFFF))
    ∧ (d.rst = .unpowered → ∃ t, exec .suppliesUp s = .next t ∧ t.dev.rst = .held ∧ (d.ck + 100000, .porRelease) ∈ t.dev.agenda)
    ∧ (d.rst = .held → d.sources = [0] → ∃ t, exec .porRelease s = .next t ∧ t.dev.sources = [] ∧ t.dev.thermTrip = false
        ∧ t.dev.awaits (.resetRelease d.ins.pairSide d.ins.halfSteward d.ins.cfgAuto d.ins.pullSel) = true)
    ∧ (∀ pairSide half auto pull, d.rst = .held → d.sources = [] →
      ∃ t, exec (.resetRelease pairSide half auto pull) s = .next t ∧ t.dev.rst = .released ∧ t.dev.fld Pg.steward F.STEWARD_STAT_ROLE_N = b01 half
        ∧ t.dev.fld Pg.steward F.STEWARD_STAT_ROLE_S = b01 (!half) ∧ t.dev.fld Pg.pair F.PAIR_STAT_SIDE = b01 pairSide
        ∧ t.dev.fld Pg.cfg F.CFG_STAT_AUTO = b01 auto ∧ t.dev.ins.pullSel = pull ∧ (d.ck + 20000, .ckPllLock) ∈ t.dev.agenda)
    ∧ (d.rst = .released → ∃ t, exec .ckPllLock s = .next t ∧ t.dev.rst = .ckLocked ∧ t.dev.ck = 0
        ∧ t.dev.agenda = [(10000, .fuseRead), (40000, .alwaysOnUp), (50000, .halvesOutOfReset)]
        ∧ ∀ h, h < 2 → t.dev.fld (Pg.clkrst h) F.CLKRST_STAT_CK_LOCK = 1)
    ∧ (d.rst = .ckLocked → ∃ t, exec .fuseRead s = .next t ∧ t.dev.rst = .fusesRead)
    ∧ (d.rst = .fusesRead → ∃ t, exec .alwaysOnUp s = .next t ∧ t.dev.rst = .aonUp)
    ∧ (d.rst = .aonUp → d.ins.cfgAuto = false → ∃ t, exec .halvesOutOfReset s = .next t ∧ t.dev.rst = .running ∧ t.dev.ck = 0
        ∧ t.dev.boot = some (0, false))
    ∧ (∀ q : Fin 16, d.rst = .running → let pg := Pg.clkrst (q.val / 8)
      let f : Fld := ⟨0x00C, 1 + q.val % 8, 1⟩
      (d.fld pg f = 1 → ∃ t, exec (.qrefLoss q) s = .next t ∧ t.dev.fld pg f = 0
        ∧ t.dev.fld pg (F.ERRCNT 0) = min (d.fld pg (F.ERRCNT 0) + 1) 0xFFFFFFFF)
      ∧ (∃ t, exec (.qrefReturn q) s = .next t ∧ t.dev.fld pg f = 1 ∧ t.dev.rest = d.rest))
    ∧ (∀ (h : Half) (j : Fin 2), d.rst = .running → let pg := Pg.clkrst h.val
      let f : Fld := ⟨0x00C, 9 + j.val, 1⟩
      (∀ val : Word, val.toNat < 2 ^ 17 → bit val.toNat 0 = true → fpllOk h val.toNat = false →
        ∃ t, exec (.fpllWrite h j val) s = .next t ∧ t.dev.reg pg (0x104 + 4 * j.val) = d.reg pg (0x104 + 4 * j.val)
          ∧ t.dev.fld pg (F.ERRCNT 3) = min (d.fld pg (F.ERRCNT 3) + 1) 0xFFFFFFFF)
      ∧ (∀ val : Word, val.toNat < 2 ^ 17 → (bit val.toNat 0 = false ∨ fpllOk h val.toNat = true) → d.reg pg (0x104 + 4 * j.val) ≠ val →
        ∃ t, exec (.fpllWrite h j val) s = .next t ∧ t.dev.reg pg (0x104 + 4 * j.val) = val ∧ t.dev.fld pg f = 0 ∧ t.dev.rest = d.rest)
      ∧ (d.fld pg f = 1 → ∃ t, exec (.fpllLockLoss h j) s = .next t ∧ t.dev.fld pg f = 0 ∧ bit (t.dev.reg pg 0x010).toNat 1 = true
          ∧ t.dev.fld pg (F.ERRCNT 1) = min (d.fld pg (F.ERRCNT 1) + 1) 0xFFFFFFFF)
      ∧ (d.fld pg f = 0 → d.fld pg (F.CLKRST_FPLL_EN j) = 1 →
          ∃ t, exec (.fpllLock h j) s = .next t ∧ t.dev.fld pg f = 1 ∧ bit (t.dev.reg pg 0x010).toNat 2 = true))

/-- R334, R336 to R338, R340 to R349, R331: a configuration stream from its first byte to the startup release, and its failures. -/
def Obligations.ConfigurationStreams : Prop :=
  ∀ (s : State), s.dev.rst = .running →
    let d := s.dev
    (∀ (bytes : List Byte), d.mayLoad = true → d.cfg.port = 1 → bytes.length < 64 →
      ∃ t, exec (.loadStart 1 bytes) s = .next t ∧ t.dev.mode = Mode.loading.code ∧ t.dev.cfg.port = 1 ∧ t.dev.cfg.bytes = bytes ∧ t.dev.cfg.hdr = []
        ∧ t.dev.reg Pg.cfg 0x114 = 0#32 ∧ t.dev.reg Pg.cfg 0x118 = 0#32)
    ∧ (∀ w : Word, d.flag Pg.cfg F.CFG_STAT_WIPING = false → d.cfgPaced = false →
      (d.mayLoad = true → d.mode ≠ Mode.loading.code → ∃ t, exec (.cfgBusWord w) s = .next t ∧ t.dev.mode = Mode.loading.code ∧ t.dev.cfg.port = 2
        ∧ t.dev.cfg.bytes = leBytes 4 w.toNat)
      ∧ (d.mode = Mode.loading.code → d.cfg.port ≠ 2 → ∃ t, exec (.cfgBusWord w) s = .next t ∧ t.dev.cfg = d.cfg ∧ t.dev.mode = Mode.loading.code
        ∧ t.dev.fld Pg.cfg (F.ERRCNT 6) = min (d.fld Pg.cfg (F.ERRCNT 6) + 1) 0xFFFFFFFF))
    ∧ (∀ bytes : List Byte, d.mode = Mode.loading.code → d.cfg.hdr = [] → d.cfg.bytes = [] → d.cfg.port = 1 → bytes.length = 64 →
      (d.headerCodes bytes = [] → ∃ t, exec (.streamHeader bytes) s = .next t ∧ t.dev.cfg.hdr = bytes ∧ t.dev.cfg.block = 0
        ∧ t.dev.cfg.key = d.slotKey ((byteAt bytes 10).toNat % 16) ∧ t.dev.reg Pg.cfg 0x118 = 0#32 ∧ t.dev.mode = Mode.loading.code)
      ∧ (∀ c cs, d.headerCodes bytes = c :: cs → ∃ t, exec (.streamHeader bytes) s = .next t ∧ t.dev.mode = Mode.faulted.code ∧ t.dev.cfg.hdr = []
        ∧ t.dev.fld Pg.cfg (F.ERRCNT 0) = min (d.fld Pg.cfg (F.ERRCNT 0) + 1) 0xFFFFFFFF))
    ∧ (∀ (i : Nat) (wire : List Byte) (rest : List (Nat × List Byte)) (bytes : List Byte), d.mode = Mode.loading.code → d.cfg.hdr ≠ [] → d.cfg.port = 2 →
      d.cfg.taken = (i, wire) :: rest →
      let pt := gcmOpen d.cfg.key ((d.cfg.hdr.drop 20).take 12) d.cfg.hdr i wire
      ∃ t, exec (.blockVerify bytes) s = .next t
        ∧ (∀ p, pt = some p → i % 64 ≠ 63 → t.dev.cfg.taken = rest ∧ t.dev.reg Pg.cfg 0x118 = d.reg Pg.cfg 0x118 + 1#32
          ∧ ∃ b ∈ t.dev.cfg.blocks, b.idx = i ∧ b.bytes = p ∧ b.start.isSome = true)
        ∧ (pt = none → t.dev.mode = Mode.faulted.code ∧ t.dev.fld Pg.cfg F.CFG_STAT_WIPING = 1
          ∧ t.dev.fld Pg.cfg (F.ERRCNT 1) = min (d.fld Pg.cfg (F.ERRCNT 1) + 1) 0xFFFFFFFF))
    ∧ (∀ (ck n : Nat) (l : List Byte), d.mode = Mode.loading.code → d.cfg.hdr ≠ [] → d.cfg.done = false → nextUnit d.unitLen d.cfg.blocks = some (ck, n, l) →
      (d.cfg.cmd = none → cmdWord l = (0, 0, 0, 0) →
        ∃ t, exec .pad s = .next t ∧ t.dev.cfg.cmd = none ∧ t.dev.cfg.blocks = d.takeUnit.1.cfg.blocks ∧ t.dev.reg Pg.cfg 0x114 = d.reg Pg.cfg 0x114)
      ∧ (∀ cls k a, d.cfg.cmd = none → cmdWord l = (1, cls, k, a) → k ≠ 0 → frameRange cls k a = true →
        ∃ t, exec .frame s = .next t ∧ t.dev.cfg.cmd = some (1, cls, k, a) ∧ t.dev.cfg.blocks = d.takeUnit.1.cfg.blocks)
      ∧ (∀ k a, d.cfg.cmd = some (1, 0, k, a) → d.clusterBad a (BitVec.ofNat 2048 (leNat l)) = false →
        ∃ t, exec .frame s = .next t ∧ sget 0#2048 t.dev.fab.clusters a = BitVec.ofNat 2048 (leNat l)
          ∧ sget 0#32 t.dev.fab.sigs a = signature (BitVec.ofNat 2048 (leNat l)) ∧ t.dev.reg Pg.cfg 0x114 = d.reg Pg.cfg 0x114 + 1#32
          ∧ t.dev.cfg.cmd = (if k ≤ 1 then none else some (1, 0, k - 1, a + 1)))
      ∧ (∀ k a, d.cfg.cmd = some (1, 0, k, a) → d.clusterBad a (BitVec.ofNat 2048 (leNat l)) = true →
        ∃ t, exec .frame s = .next t ∧ t.dev.mode = Mode.faulted.code ∧ t.dev.fld Pg.cfg F.CFG_STAT_WIPING = 1
          ∧ t.dev.fld Pg.cfg (F.ERRCNT 4) = min (d.fld Pg.cfg (F.ERRCNT 4) + 1) 0xFFFFFFFF)
      ∧ (∀ k, d.cfg.cmd = none → cmdWord l = (2, 0, k, 0) → k ≠ 0 →
        ∃ t, exec .regCmd s = .next t ∧ t.dev.cfg.cmd = some (2, 0, k, 0) ∧ t.dev.cfg.blocks = d.takeUnit.1.cfg.blocks)
      ∧ (∀ k a, d.cfg.cmd = some (2, 0, k, a) → d.pairAllowed (leNat (l.take 4)) = true →
        let g := (d.begin .regCmd).takeUnit.1
        let g := { g with cfg := { g.cfg with
          cmd := if k ≤ 1 then none else some (2, 0, k - 1, a)
          wrote := if g.cfg.wrote.contains (leNat (l.take 4)) then g.cfg.wrote else leNat (l.take 4) :: g.cfg.wrote } }
        exec .regCmd s = s.becomes (((g.softWrite (leNat (l.take 4)) (BitVec.ofNat 32 (leNat ((l.drop 4).take 4)))).cfgNext).cfgResume)))
    ∧ (∀ n cls a, d.mode = Mode.loading.code → d.cfg.done = false → d.cfg.cmd = some (3, cls, n, a) → (∀ b ∈ d.cfg.blocks, b.last ≤ d.ck) →
      ∃ t, exec .endCmd s = .next t ∧ t.dev.cfg.done = true ∧ (d.started = false → d.trainingOver = true → t.dev.awaits (.startupRelease 0 0) = true))
    ∧ (∀ nl fl : BitVec 8, d.mode = Mode.loading.code → d.cfg.done = true → d.started = false →
      ∃ t, exec (.startupRelease nl fl) s = .next t ∧ t.dev.started = true ∧ t.dev.startCk = some d.ck ∧ bit (t.dev.reg Pg.cfg 0x010).toNat 0 = true
        ∧ (bit (byteAt d.cfg.hdr 11).toNat 0 = true → t.dev.cfgLock = true))
    ∧ (d.mode = Mode.loading.code →
      (d.bytesRemain = true → d.cfgPaced = false → ∃ t, exec .cfgTimeoutExpiry s = .next t ∧ t.dev.mode = Mode.faulted.code
        ∧ t.dev.fld Pg.cfg (F.ERRCNT 3) = min (d.fld Pg.cfg (F.ERRCNT 3) + 1) 0xFFFFFFFF)
      ∧ (∀ c : Instr, c = .cfgErrSeen ∨ c = .abort → ∃ t, exec c s = .next t ∧ t.dev.mode = Mode.faulted.code ∧ t.dev.fld Pg.cfg F.CFG_STAT_WIPING = 1
        ∧ t.dev.fld Pg.cfg (F.ERRCNT 5) = min (d.fld Pg.cfg (F.ERRCNT 5) + 1) 0xFFFFFFFF))
    ∧ (d.mode ≠ Mode.loading.code → 0 < d.cfg.discard → ∃ t, exec .abort s = .next t ∧ t.dev.cfg = { d.cfg with discard := 0 } ∧ t.dev.mode = d.mode)
    ∧ (d.mayLoad = true → d.cfg.port = 0 →
      (∃ t, exec .ospiGo s = .next t ∧ t.dev.cfg = { d.cfg with port := 1 } ∧ t.dev.mode = d.mode)
      ∧ (d.fld Pg.cfg F.CFG_HOST_LEN ≠ 0 → ∃ t, exec .hostGo s = .next t ∧ t.dev.cfg = { d.cfg with port := 3 }
        ∧ Out.hostRead (d.reg64 Pg.cfg 0x108) (min 64 (d.fld Pg.cfg F.CFG_HOST_LEN)) ∈ t.dev.out))
    ∧ (d.mayLoad = false ∨ d.cfg.port ≠ 0 → ∀ c : Instr, c = .ospiGo ∨ c = .hostGo → ∃ t, exec c s = .next t ∧ t.dev.cfg = d.cfg
        ∧ t.dev.fld Pg.cfg (F.ERRCNT 6) = min (d.fld Pg.cfg (F.ERRCNT 6) + 1) 0xFFFFFFFF)
    ∧ (d.flag Pg.cfg F.CFG_STAT_WIPING = true → (d.begin .wipeDone).awaits .wipeDone = false → ∃ t, exec .wipeDone s = .next t
        ∧ t.dev.fld Pg.cfg F.CFG_STAT_WIPING = 0 ∧ bit (t.dev.reg Pg.cfg 0x010).toNat 2 = true ∧ t.dev.mem = d.mem)

/-- R351, R352, R355, R356, R358, R359, R361 to R364: the fuse commands; one bay at a time from its arming to its release; snapshots. -/
def Obligations.FusesAndBays : Prop :=
  ∀ (s : State), s.dev.rst = .running →
    let d := s.dev
    (∀ (c : Instr) (op : Nat), (c, op) ∈ [(Instr.programKey, 1), (.revoke, 2), (.setDbgPlain, 3), (.lockFuses, 4)] →
      (d.mode = Mode.blank.code → d.fuses.lock = false → d.cfg.fuse = none → (op = 1 → d.fuseSlot ∉ d.fuses.prog) →
        ∃ t, exec c s = .next t ∧ t.dev.fld Pg.cfg F.CFG_FUSE_CMD_STATUS = 1
          ∧ t.dev.cfg.fuse = some (op, d.fuseSlot, bitsOf (d.reg Pg.cfg 0x140).toNat 4 2, d.window 256 Pg.cfg 0x144 8)
          ∧ (∀ j, j < 8 → t.dev.reg Pg.cfg (0x144 + 4 * j) = 0#32)
          ∧ (d.ck + 20000000, .fuseCmdDone true) ∈ t.dev.agenda ∧ t.dev.fuses = d.fuses)
      ∧ (d.mode ≠ Mode.blank.code ∨ d.fuses.lock = true ∨ d.cfg.fuse.isSome = true →
        ∃ t, exec c s = .next t ∧ t.dev.fld Pg.cfg F.CFG_FUSE_CMD_STATUS = 2 ∧ t.dev.fuses = d.fuses ∧ t.dev.cfg = d.cfg
          ∧ t.dev.fld Pg.cfg (F.ERRCNT 6) = min (d.fld Pg.cfg (F.ERRCNT 6) + 1) 0xFFFFFFFF))
    ∧ (∀ op slot use key, d.cfg.fuse = some (op, slot, use, key) →
      (∃ t, exec (.fuseCmdDone true) s = .next t ∧ t.dev.cfg.fuse = none ∧ t.dev.fuses = d.fuses.apply op slot use key
        ∧ t.dev.fld Pg.cfg F.CFG_FUSE_CMD_STATUS = 0 ∧ bit (t.dev.reg Pg.cfg 0x010).toNat 3 = true)
      ∧ (∃ t, exec (.fuseCmdDone false) s = .next t ∧ t.dev.cfg.fuse = none ∧ t.dev.fuses = d.fuses
        ∧ t.dev.fld Pg.cfg F.CFG_FUSE_CMD_STATUS = 3 ∧ bit (t.dev.reg Pg.cfg 0x010).toNat 3 = true))
    ∧ (∀ (b : Fin 12) (val : Word), val.toNat < 8 →
      let pg := Pg.bay b
      (d.mode = Mode.ready.code ∨ isOperating d.mode = true ∨ d.mode = Mode.offload.code → d.armedBay = none → d.domOpen (Dom.bay b) = true →
        d.flag Pg.cfg F.CFG_STAT_WIPING = false →
        ∃ t, exec (.bayArm b val) s = .next t ∧ t.dev.armed b = true ∧ t.dev.rcfg b = Rc.closing
          ∧ bitsOf (t.dev.reg pg 0x180).toNat 1 2 = bitsOf val.toNat 1 2 ∧ (d.ck + 2, .bayClosed b) ∈ t.dev.agenda)
      ∧ (d.armed b = false → d.armedBay.isSome = true ∨ d.domOpen (Dom.bay b) = false ∨ d.flag Pg.cfg F.CFG_STAT_WIPING = true →
        ∃ t, exec (.bayArm b val) s = .next t ∧ t.dev.armed b = false ∧ t.dev.rcfg b = d.rcfg b
          ∧ t.dev.fld pg (F.ERRCNT 6) = min (d.fld pg (F.ERRCNT 6) + 1) 0xFFFFFFFF)
      ∧ (d.armed b = true → bitsOf (d.reg pg 0x180).toNat 1 2 = bitsOf val.toNat 1 2 →
        (d.rcfg b = Rc.closed ∨ d.rcfg b = Rc.failed → ∃ t, exec (.bayDisarm b val) s = .next t ∧ t.dev.awaits (.bayRelease b) = true)
        ∧ (d.rcfg b ≠ Rc.closed → d.rcfg b ≠ Rc.failed → ∃ t, exec (.bayDisarm b val) s = .next t ∧ t.dev.armed b = true
          ∧ t.dev.rcfg b = d.rcfg b ∧ t.dev.fld pg (F.ERRCNT 6) = min (d.fld pg (F.ERRCNT 6) + 1) 0xFFFFFFFF)))
    ∧ (∀ b : Fin 12,
      let pg := Pg.bay b
      (d.rcfg b = Rc.closing → (d.bayOf b).armCk + 2 ≤ d.ck → d.engsStopped b = true ∨ d.engRetain b = true → d.scrubOn b = false →
        ∃ t, exec (.bayClosed b) s = .next t ∧ t.dev.rcfg b = Rc.closed)
      ∧ (d.rcfg b = Rc.closing → d.engsStopped b = false → d.engRetain b = false →
        ∃ t, exec (.bayClosed b) s = .next t ∧ t.dev.rcfg b = Rc.closing ∧ t.dev.awaits (.bayClosed b) = true)
      ∧ (d.armed b = true → ∃ t, exec (.bayRelease b) s = .next t ∧ t.dev.rcfg b = Rc.opened ∧ t.dev.armed b = false
          ∧ t.dev.fld pg F.BAY_RCFG_CK = min (d.ck - (d.bayOf b).armCk) 0xFFFFFFFF ∧ bit (t.dev.reg pg 0x010).toNat 8 = true
          ∧ (srising d.fab.clusters = true → ∀ a, a / 53760 = b.val → sget 0#32 t.dev.fab.ffs a = clusterInit (d.frame a)))
      ∧ (d.rcfg b = Rc.wiping → ∃ t, exec (.bayWipeDone b) s = .next t ∧ t.dev.rcfg b = Rc.failed ∧ bit (t.dev.reg pg 0x010).toNat 9 = true)
      ∧ (d.rcfg b = Rc.opened → d.domOpen (Dom.bay b) = true → d.flag pg F.BAY_SNAP_CTRL_HOLD = false →
        ∃ t, exec (.snap b) s = .next t ∧ t.dev.reg64 pg 0x198 = d.ck % 2 ^ 64 ∧ t.dev.fld pg F.BAY_SNAP_STAT_VALID = 1
          ∧ bit (t.dev.reg pg 0x010).toNat 7 = true ∧ t.dev.mem = d.mem)
      ∧ (d.rcfg b ≠ Rc.opened ∨ d.domOpen (Dom.bay b) = false ∨ d.flag pg F.BAY_SNAP_CTRL_HOLD = true →
        ∃ t, exec (.snap b) s = .next t ∧ t.dev.fab = d.fab ∧ t.dev.fld pg (F.ERRCNT 6) = min (d.fld pg (F.ERRCNT 6) + 1) 0xFFFFFFFF))

/-- R366 to R368: the configuration scrubber and its shadow. -/
def Obligations.ConfigurationScrubber : Prop :=
  ∀ (s : State), s.dev.rst = .running →
    let d := s.dev
    let a := d.fld Pg.scrub F.SCRUB_POS_FRAME
    (∀ (flip : BitVec 2048) (sig : Fin 3), d.flag Pg.scrub F.SCRUB_STAT_FILLING = false → d.scrub.repair = none → d.started = true →
      d.flag Pg.scrub F.SCRUB_CTRL_EN = true → d.cfg.cmd = none → d.scrubs (a / 53760) = true → a < 645120 →
      (∀ w, sfind d.fab.sigs a = some w → sig ≠ 2 → signature (d.clusterFrame a ^^^ flip) = w →
        ∃ t, exec (.configScrubFrame flip sig) s = .next t ∧ t.dev.fld Pg.scrub F.SCRUB_POS_FRAME = (if a + 1 < 645120 then a + 1 else 0)
          ∧ t.dev.clusterFrame a = d.clusterFrame a ^^^ flip ∧ t.dev.awaits (.configScrubFrame 0#2048 0) = true
          ∧ t.dev.fld Pg.scrub F.SCRUB_MISMATCH_CNT = d.fld Pg.scrub F.SCRUB_MISMATCH_CNT)
      ∧ (∀ w, sfind d.fab.sigs a = some w → sig ≠ 2 → signature (d.clusterFrame a ^^^ flip) ≠ w → d.flag Pg.scrub F.SCRUB_CTRL_REPAIR = false →
        ∃ t, exec (.configScrubFrame flip sig) s = .next t
          ∧ t.dev.fld Pg.scrub F.SCRUB_MISMATCH_CNT = min (d.fld Pg.scrub F.SCRUB_MISMATCH_CNT + 1) 0xFFFFFFFF
          ∧ t.dev.reg Pg.scrub 0x11C = BitVec.ofNat 32 (a + 2 * 2 ^ 20)
          ∧ t.dev.fld Pg.scrub (F.ERRCNT 0) = min (d.fld Pg.scrub (F.ERRCNT 0) + 1) 0xFFFFFFFF)
      ∧ (∀ w, sfind d.fab.sigs a = some w → sig = 2 →
        ∃ t, exec (.configScrubFrame flip sig) s = .next t ∧ t.dev.reg Pg.scrub 0x11C = BitVec.ofNat 32 (a + 4 * 2 ^ 20)
          ∧ t.dev.fld Pg.scrub (F.ERRCNT 3) = min (d.fld Pg.scrub (F.ERRCNT 3) + 1) 0xFFFFFFFF))
    ∧ (∀ val : Word,
      (d.shadowEn = true → d.chanOnline d.shadowChan = true → d.flag Pg.scrub F.SCRUB_STAT_FILLING = false →
        d.shadowOff 0 + 165150720 ≤ d.chanCap d.shadowChan →
        ∃ t, exec (.fill val) s = .next t ∧ t.dev.fld Pg.scrub F.SCRUB_STAT_FILLING = 1
          ∧ t.dev.scrub.fillMask = d.fld Pg.scrub F.SCRUB_FILL_MASK_MASK ∧ t.dev.scrub.fillPos = 0
          ∧ (d.ck + 16, .configScrubFrame 0#2048 0) ∈ t.dev.agenda)
      ∧ (d.shadowEn = false ∨ d.chanOnline d.shadowChan = false ∨ d.flag Pg.scrub F.SCRUB_STAT_FILLING = true →
        ∃ t, exec (.fill val) s = .next t ∧ t.dev.fld Pg.scrub F.SCRUB_STAT_FILLING = d.fld Pg.scrub F.SCRUB_STAT_FILLING
          ∧ t.dev.fld Pg.scrub (F.ERRCNT 2) = min (d.fld Pg.scrub (F.ERRCNT 2) + 1) 0xFFFFFFFF ∧ t.dev.scrub = d.scrub))
    ∧ (d.flag Pg.scrub F.SCRUB_STAT_FILLING = true →
      ∃ t, exec .fillDone s = .next t ∧ t.dev.fld Pg.scrub F.SCRUB_STAT_FILLING = 0 ∧ bit (t.dev.reg Pg.scrub 0x010).toNat 2 = true
        ∧ ∀ b, b < 12 → t.dev.fld Pg.scrub ⟨0x00C, 2 + b, 1⟩
            = (if bit d.scrub.fillMask b = true ∧ b ∉ d.scrub.fillBad then 1 else d.fld Pg.scrub ⟨0x00C, 2 + b, 1⟩))

/-- R379, R383: the routing tables of FITTED, their swap, and the return of a dead end point. -/
def Obligations.RoutingTables : Prop :=
  ∀ (h : Half) (s : State), s.dev.rst = .running →
    let d := s.dev
    let pg := Pg.noc h.val
    (d.fitted h = true → d.flag pg F.NOC_STAT_OLD_LIVE = false → d.flag pg F.NOC_STAT_SWAP_BUSY = false →
      ∃ t, exec (.swap h) s = .next t ∧ t.dev.flag pg F.NOC_STAT_SWAP_BUSY = true ∧ t.dev.nocs = d.nocs)
    ∧ (d.fitted h = false ∨ d.flag pg F.NOC_STAT_OLD_LIVE = true ∨ d.flag pg F.NOC_STAT_SWAP_BUSY = true →
      (∃ t, exec (.swap h) s = .next t ∧ t.dev.nocs = d.nocs ∧ bit (t.dev.reg pg 0x010).toNat 2 = true
        ∧ t.dev.fld pg (F.ERRCNT 2) = min (d.fld pg (F.ERRCNT 2) + 1) 0xFFFFFFFF)
      ∧ (∀ val : Word, ∃ t, exec (.tblDataWrite h val) s = .next t ∧ t.dev.nocs = d.nocs
        ∧ t.dev.fld pg (F.ERRCNT 3) = min (d.fld pg (F.ERRCNT 3) + 1) 0xFFFFFFFF))
    ∧ (d.flag pg F.NOC_STAT_SWAP_BUSY = true →
      (d.tableOk h = true → ∃ t, exec (.swapCheckDone h) s = .next t ∧ (t.dev.nocOf h).active = (d.nocOf h).shadow
        ∧ (t.dev.nocOf h).shadow = (d.nocOf h).active ∧ t.dev.flag pg F.NOC_STAT_SWAP_BUSY = false
        ∧ t.dev.fld pg F.NOC_STAT_EPOCH = 1 - d.fld pg F.NOC_STAT_EPOCH ∧ t.dev.flag pg F.NOC_STAT_OLD_LIVE = true
        ∧ t.dev.awaits (.oldEpochRetired h) = true)
      ∧ (d.tableOk h = false → ∃ t, exec (.swapCheckDone h) s = .next t ∧ t.dev.nocs = d.nocs
        ∧ t.dev.flag pg F.NOC_STAT_SWAP_BUSY = false ∧ t.dev.fld pg (F.ERRCNT 2) = min (d.fld pg (F.ERRCNT 2) + 1) 0xFFFFFFFF))
    ∧ (d.flag pg F.NOC_STAT_OLD_LIVE = true →
      (d.epochOut h (1 - d.fld pg F.NOC_STAT_EPOCH) = true → ∃ t, exec (.oldEpochRetired h) s = .next t
        ∧ t.dev.flag pg F.NOC_STAT_OLD_LIVE = true ∧ t.dev.awaits (.oldEpochRetired h) = true)
      ∧ (d.epochOut h (1 - d.fld pg F.NOC_STAT_EPOCH) = false → ∃ t, exec (.oldEpochRetired h) s = .next t
        ∧ t.dev.flag pg F.NOC_STAT_OLD_LIVE = false ∧ bit (t.dev.reg pg 0x010).toNat 1 = true))
    ∧ (∀ val : Word, d.fitted h = true → d.flag pg F.NOC_STAT_OLD_LIVE = false → d.flag pg F.NOC_STAT_SWAP_BUSY = false → val.toNat < 2 ^ 16 →
      let i := 64 * d.fld pg F.NOC_TBL_IDX_ROUTER + d.fld pg F.NOC_TBL_IDX_DEST
      (val.toNat % 8 < 6 → ∃ t, exec (.tblDataWrite h val) s = .next t ∧ sget 0#16 (t.dev.nocOf h).shadow i = BitVec.ofNat 16 val.toNat
        ∧ (∀ j, j ≠ i → sget 0#16 (t.dev.nocOf h).shadow j = sget 0#16 (d.nocOf h).shadow j) ∧ (t.dev.nocOf h).active = (d.nocOf h).active)
      ∧ (6 ≤ val.toNat % 8 → ∃ t, exec (.tblDataWrite h val) s = .next t ∧ t.dev.nocs = d.nocs
        ∧ t.dev.fld pg (F.ERRCNT 7) = min (d.fld pg (F.ERRCNT 7) + 1) 0xFFFFFFFF))
    ∧ (∀ val : Word, val.toNat < 4096 →
      ∃ t, exec (.revive h val) s = .next t ∧ (∀ x, x ∈ (t.dev.nocOf h).dead ↔ x ∈ (d.nocOf h).dead ∧ x ≠ val.toNat)
        ∧ (val.toNat ∉ (d.nocOf h).dead → t.dev.fld pg (F.ERRCNT 7) = min (d.fld pg (F.ERRCNT 7) + 1) 0xFFFFFFFF))

/-- R372 to R383, R402, R476, R482, R491: requests of the on-chip network from injection to response; the PCIe endpoint. -/
def Obligations.NetworkRequests : Prop :=
  ∀ (s : State), s.dev.rst = .running →
    let d := s.dev
    (∀ (id wait : Nat) (r : NocReq), sfind d.nocReqs id = some r → r.ph = .source → r.host = false →
      let h := epHalf r.src
      (decodeReq r.addr r.len = none → let at_ := (d.packet r.src r.src 1 0).2
        ∃ t, exec (.nocInject id wait) s = .next t
        ∧ sfind t.dev.nocReqs id = some { r with dst := r.src, epoch := d.fld (Pg.noc h) F.NOC_STAT_EPOCH, status := Ns.decode, ph := .answer }
        ∧ (at_ + useCk r.who, .nocResponse id) ∈ t.dev.agenda
        ∧ t.dev.fld (Pg.noc h) F.NOC_INJ_WAIT_CNT
          = min (d.fld (Pg.noc h) F.NOC_INJ_WAIT_CNT + wait + (at_ - d.transit r.src r.src - d.ck)) 0xFFFFFFFF
        ∧ t.dev.fld (Pg.noc h) (F.ERRCNT 0) = min (d.fld (Pg.noc h) (F.ERRCNT 0) + 1) 0xFFFFFFFF)
      ∧ (∀ tgt, decodeReq r.addr r.len = some tgt → d.domOpen Dom.spine = true →
        (∀ c off, tgt = .dram c off → d.chanState c ≠ Ch.training ∧ d.chanState c ≠ Ch.retrain) →
        (d.bridged r.src (tgtEp h tgt) = true → r.src ∈ (d.nocOf h).dead → ∃ t, exec (.nocInject id wait) s = .next t
          ∧ sfind t.dev.nocReqs id = some { r with dst := tgtEp h tgt, epoch := d.fld (Pg.noc h) F.NOC_STAT_EPOCH, ph := .lost }
          ∧ t.dev.fld (Pg.noc h) F.NOC_ABSORB_CNT = min (d.fld (Pg.noc h) F.NOC_ABSORB_CNT + 1) 0xFFFFFFFF)
        ∧ (d.bridged r.src (tgtEp h tgt) = true → r.src ∉ (d.nocOf h).dead → ∃ t q, exec (.nocInject id wait) s = .next t ∧ sfind t.dev.nocReqs id = some q
          ∧ q.ph = .transit ∧ q.dst = tgtEp h tgt ∧ q.addr = r.addr ∧ q.len = r.len ∧ q.wr = r.wr ∧ q.who = r.who
          ∧ ((d.packet r.src (tgtEp h tgt) (1 + r.outFlits) 0).2, .nocDelivery id 0) ∈ t.dev.agenda)
        ∧ (d.bridged r.src (tgtEp h tgt) = false → ∃ t q, exec (.nocInject id wait) s = .next t ∧ sfind t.dev.nocReqs id = some q
          ∧ q.ph = .answer ∧ q.status = Ns.dead
          ∧ t.dev.fld (Pg.noc h) (F.ERRCNT 1) = min (d.fld (Pg.noc h) (F.ERRCNT 1) + 1) 0xFFFFFFFF)))
    ∧ (∀ (id : Nat) (ecc : Fin 3) (r : NocReq), sfind d.nocReqs id = some r → r.ph = .transit → id < 2 ^ 40 →
      let h := epHalf r.dst
      (r.dst ∈ (d.nocOf h).dead → ∃ t, exec (.nocDelivery id ecc) s = .next t
        ∧ sfind t.dev.nocReqs id = some { r with status := Ns.dead, ph := .answer })
      ∧ (∀ k, r.dst ∉ (d.nocOf h).dead → r.dom = some k →
        (d.forced k = true → ∃ t, exec (.nocDelivery id ecc) s = .next t
          ∧ sfind t.dev.nocReqs id = some { r with status := Ns.isolated, ph := .answer }
          ∧ t.dev.fld (Pg.noc h) (F.ERRCNT 4) = min (d.fld (Pg.noc h) (F.ERRCNT 4) + 1) 0xFFFFFFFF)
        ∧ (d.forced k = false → d.domState k = Ds.closed →
          let held := d.nocReqs.countP (fun (x : Nat × NocReq) => x.2.ph = .held && x.2.dst = r.dst)
          (held < 4 → ∃ t, exec (.nocDelivery id ecc) s = .next t ∧ sfind t.dev.nocReqs id = some { r with ph := .held, came := d.ck }
            ∧ t.dev.fld (Pg.noc h) F.NOC_HELD_CNT = min (d.fld (Pg.noc h) F.NOC_HELD_CNT + 1) 0xFFFFFFFF
            ∧ t.dev.fld (Pg.noc h) F.NOC_WAKE_CNT = min (d.fld (Pg.noc h) F.NOC_WAKE_CNT + 1) 0xFFFFFFFF)
          ∧ (4 ≤ held → ∃ t, exec (.nocDelivery id ecc) s = .next t ∧ sfind t.dev.nocReqs id = some { r with status := Ns.busy, ph := .answer }
            ∧ t.dev.fld (Pg.noc h) F.NOC_BUSY_CNT = min (d.fld (Pg.noc h) F.NOC_BUSY_CNT + 1) 0xFFFFFFFF)))
      ∧ (∀ g off, r.dst ∉ (d.nocOf h).dead → r.host = false → decodeReq r.addr r.len = some (.gecko g off) → off + r.len ≤ 0x80000 →
        d.domState (Dom.gecko g) = Ds.opened → d.forced (Dom.gecko g) = false →
        (r.op = .read → r.status = Ns.ok → ecc = 0 → ∃ t q, exec (.nocDelivery id ecc) s = .next t ∧ sfind t.dev.nocReqs id = some q ∧ q.ph = .answer
          ∧ q.data = d.bytes r.addr r.len ∧ t.dev.mem = d.mem
          ∧ let n := (r.addr % 32 + r.len + 31) / 32
            ((d.packet r.dst r.src (1 + n) 5).2 + n + useCk r.who, .nocResponse id) ∈ t.dev.agenda)
        ∧ (r.op = .write → ∃ t q, exec (.nocDelivery id ecc) s = .next t ∧ sfind t.dev.nocReqs id = some q ∧ q.ph = .answer
          ∧ t.dev.mem = (d.setSome r.addr r.wr).mem
          ∧ ((d.packet r.dst r.src 1 5).2 + useCk r.who, .nocResponse id) ∈ t.dev.agenda)))
    ∧ (∀ a b n k, d.linkRuns = [] → (d.packet a b n k).2 = d.ck + k + d.transit a b)
    ∧ (∀ a b n k, d.fitted 0 = false → d.fitted 1 = false → epHalf a < 2 → epHalf b < 2 → 0 < n →
      (∀ r ∈ d.linkRuns, r.link < 1024 → r.slot < 8) →
      d.linkRuns.Pairwise (fun x y => x.link < 1024 → x.link = y.link → x.slot = y.slot →
        x.start + x.flits ≤ y.start ∨ y.start + y.flits ≤ x.start) →
      (∀ g ck, d.linkRuns.countP (fun r => r.met (bridgeLink g) ck 1) ≤ bridgeShare ck) →
      let l := (d.packet a b n k).1.linkRuns
      (∀ r ∈ l, r.link < 1024 → r.slot < 8)
      ∧ l.Pairwise (fun x y => x.link < 1024 → x.link = y.link → x.slot = y.slot → x.start + x.flits ≤ y.start ∨ y.start + y.flits ≤ x.start)
      ∧ (∀ g ck, l.countP (fun r => r.met (bridgeLink g) ck 1) ≤ bridgeShare ck))
    ∧ (∀ (id : Nat) (r : NocReq), sfind d.nocReqs id = some r →
      (r.ph = .answer →
        (r.who = .pcie none → ∃ t, exec (.nocResponse id) s = .next t ∧ sfind t.dev.nocReqs id = none ∧ t.dev.out = [])
        ∧ (∀ tag off, r.who = .pcie (some tag) → r.status = Ns.ok → decodeReq r.addr r.len = some (.regs off) →
          ∃ t, exec (.nocResponse id) s = .next t ∧ sfind t.dev.nocReqs id = none ∧ t.dev.out = [.cpl .success [BitVec.ofNat 32 (leNat r.data)]])
        ∧ (∀ tag, r.who = .pcie (some tag) → r.status ≠ Ns.ok →
          ∃ t, exec (.nocResponse id) s = .next t ∧ sfind t.dev.nocReqs id = none ∧ t.dev.out = [.cpl .abort []])
        ∧ (∀ e reg size sx, r.who = .load e reg size sx → ∃ t, exec (.nocResponse id) s = .next t
          ∧ sfind t.dev.nocReqs id = some { r with ph := .done } ∧ (d.ck, .remoteResponse (tgtOp e) id) ∈ t.dev.agenda))
      ∧ (r.ph = .target → r.host = false → r.dst ∉ (d.nocOf (epHalf r.dst)).dead → id < 2 ^ 40 →
        ∃ t q, exec (.deadTargetTimeout id) s = .next t ∧ sfind t.dev.nocReqs id = some q ∧ q.status = Ns.dead ∧ q.ph = .answer
          ∧ r.dst ∈ (t.dev.nocOf (epHalf r.dst)).dead ∧ bit (t.dev.reg (Pg.noc (epHalf r.dst)) 0x010).toNat 0 = true
          ∧ t.dev.fld (Pg.noc (epHalf r.dst)) (F.ERRCNT 1) = min (d.fld (Pg.noc (epHalf r.dst)) (F.ERRCNT 1) + 1) 0xFFFFFFFF)
      ∧ (r.ph = .target → r.host = true → r.reads = true → ∃ t, exec (.pcieCompletionTimeout id) s = .next t
        ∧ sfind t.dev.nocReqs id = some { r with status := Ns.error, ph := .answer })
      ∧ (r.ph ≠ .target ∨ r.host = false ∨ r.reads = false →
        exec (.pcieCompletionTimeout id) s = s.becomes (s.dev.begin (.pcieCompletionTimeout id))))
    ∧ (d.ins.perstLow = true → ∀ tlp, exec (.pcieRequest tlp) s = s.becomes d.fresh)
    ∧ (d.ins.perstLow = false →
      (∀ off tag, off < 2 ^ 26 →
        (∀ v : Word, ∃ t, exec (.pcieRequest (.write 0 off [0xF#4] [v])) s = .next t
          ∧ sfind t.dev.nocReqs d.nextNoc = some { who := .pcie none, src := Ep.pcie, op := .write, addr := Na.reg + off, len := 4, wr := (leBytes 4 v.toNat).map some, cls := 0 }
          ∧ (d.ck + 16, .nocInject d.nextNoc 0) ∈ t.dev.agenda)
        ∧ (∃ t, exec (.pcieRequest (.read tag 0 off [0xF#4])) s = .next t
          ∧ sfind t.dev.nocReqs d.nextNoc = some { who := .pcie (some tag), src := Ep.pcie, op := .read, addr := Na.reg + off, len := 4, wr := [], cls := 0 }
          ∧ (d.ck + 16, .nocInject d.nextNoc 0) ∈ t.dev.agenda)
        ∧ (∀ be, be ≠ [0xF#4] → ∃ t, exec (.pcieRequest (.read tag 0 off be)) s = .next t ∧ t.dev.nocReqs = d.nocReqs
          ∧ Out.cpl .abort [] ∈ t.dev.out ∧ t.dev.fld Pg.hostif (F.ERRCNT 1) = min (d.fld Pg.hostif (F.ERRCNT 1) + 1) 0xFFFFFFFF))
      ∧ (∀ off (v : Word), off < 0x400 → off % 4 = 0 → off % 16 ≠ 12 → ∃ t, exec (.pcieRequest (.write 4 off [0xF#4] [v])) s = .next t
          ∧ eword (sget msixReset t.dev.msix (off / 16)) (off % 16 / 4) = v
          ∧ ∀ k, k ≠ off / 16 → sget msixReset t.dev.msix k = sget msixReset d.msix k))
    ∧ (∀ low : Bool, ∃ t, exec (.perstN low) s = .next t ∧ t.dev.ins.perstLow = low ∧ t.dev.mem = d.mem ∧ t.dev.engs = d.engs
        ∧ t.dev.msix = (if low then [] else d.msix) ∧ t.dev.msixPend = (if low then [] else d.msixPend))

/-- R395 to R401, R445: boot of the Gecko complexes, the steward token, loss and return of the bridge. -/
def Obligations.StewardAndBoot : Prop :=
  ∀ (s : State), s.dev.rst = .running →
    let d := s.dev
    let pg := Pg.steward
    let w := d.stewardHalf
    ((∀ k, k < 4 → d.tgtState (192 + k) = Gs.reset ∨ d.tgtState (192 + k) = Gs.stopped) →
      ∃ t, exec .bootGo s = .next t ∧ t.dev.boot = some (d.ck, false) ∧ t.dev.fld pg F.STEWARD_BOOT_STAT_STATE = 0 ∧ t.dev.awaits .bootDone = true)
    ∧ (∀ k, k < 4 → d.tgtState (192 + k) ≠ Gs.reset → d.tgtState (192 + k) ≠ Gs.stopped →
      ∃ t, exec .bootGo s = .next t ∧ t.dev.boot = d.boot ∧ t.dev.fld pg (F.ERRCNT 2) = min (d.fld pg (F.ERRCNT 2) + 1) 0xFFFFFFFF)
    ∧ (∀ (start : Nat) (fb : Bool), d.boot = some (start, fb) →
      (∀ len off entry, d.bootImage fb = some (len, off, entry) → d.imageOk fb len off = true →
        ∃ t, exec .bootDone s = .next t ∧ t.dev.boot = none ∧ t.dev.fld pg F.STEWARD_BOOT_STAT_STATE = (if fb then 2 else 1)
          ∧ t.dev.reg pg 0x128 = BitVec.ofNat 32 (d.ck - start) ∧ bit (t.dev.reg pg 0x010).toNat 2 = true
          ∧ (∀ h, h < 2 → t.dev.bytes (Na.gecko + h * 2 ^ 32) len = d.bytes (Na.flash + off) len)
          ∧ ∀ k, k < 4 → (t.dev.gkOf k).entry = some entry)
      ∧ (d.bootImage fb = none ∨ (∃ len off entry, d.bootImage fb = some (len, off, entry) ∧ d.imageOk fb len off = false) →
        (fb = false → ∃ t, exec .bootDone s = .next t ∧ t.dev.boot = some (start, true) ∧ t.dev.awaits .bootDone = true ∧ t.dev.mem = d.mem
          ∧ t.dev.fld pg (F.ERRCNT 0) = min (d.fld pg (F.ERRCNT 0) + 1) 0xFFFFFFFF)
        ∧ (fb = true → ∃ t, exec .bootDone s = .next t ∧ t.dev.boot = none ∧ t.dev.fld pg F.STEWARD_BOOT_STAT_STATE = 3 ∧ t.dev.mem = d.mem
          ∧ bit (t.dev.reg pg 0x010).toNat 2 = true ∧ t.dev.fld pg (F.ERRCNT 1) = min (d.fld pg (F.ERRCNT 1) + 1) 0xFFFFFFFF)))
    ∧ (d.complexAlive (1 - w) = true → d.bridgeOk = true →
      ∃ t, exec .yield s = .next t ∧ t.dev.stewardHalf = 1 - w ∧ t.dev.fld pg F.STEWARD_EPOCH_EPOCH = (d.fld pg F.STEWARD_EPOCH_EPOCH + 1) % 2 ^ 16
        ∧ t.dev.fld pg F.STEWARD_HANDOVER_CNT = min (d.fld pg F.STEWARD_HANDOVER_CNT + 1) 0xFFFFFFFF ∧ bit (t.dev.reg pg 0x010).toNat 0 = true)
    ∧ (d.complexAlive (1 - w) = false ∨ d.bridgeOk = false →
      ∃ t, exec .yield s = .next t ∧ t.dev.stewardHalf = w ∧ t.dev.fld pg F.STEWARD_EPOCH_EPOCH = d.fld pg F.STEWARD_EPOCH_EPOCH
        ∧ t.dev.fld pg (F.ERRCNT 2) = min (d.fld pg (F.ERRCNT 2) + 1) 0xFFFFFFFF)
    ∧ (d.flag Pg.pmc F.PMC_STAT_STEWARD_LIVE = false →
      (d.complexAlive w = true → ∃ t, exec .stewardWord s = .next t ∧ t.dev.stewardHalf = w ∧ t.dev.flag Pg.pmc F.PMC_STAT_STEWARD_LIVE = false
        ∧ ∀ h, h < 2 → t.dev.flag pg (aliveFld h) = d.complexAlive h)
      ∧ (d.complexAlive w = false → d.complexAlive (1 - w) = true → d.bridgeOk = true →
        (d.tokenCk = none → ∃ t, exec .stewardWord s = .next t ∧ t.dev.stewardHalf = w ∧ t.dev.tokenCk = some (d.ck + 4)
          ∧ (d.ck + 4, .stewardWord) ∈ t.dev.agenda)
        ∧ (∀ c, d.tokenCk = some c → c ≤ d.ck → ∃ t, exec .stewardWord s = .next t ∧ t.dev.stewardHalf = 1 - w
          ∧ t.dev.fld pg F.STEWARD_EPOCH_EPOCH = (d.fld pg F.STEWARD_EPOCH_EPOCH + 1) % 2 ^ 16))
      ∧ (d.complexAlive w = false → d.complexAlive (1 - w) = false ∨ d.bridgeOk = false →
        ∃ t, exec .stewardWord s = .next t ∧ t.dev.flag Pg.pmc F.PMC_STAT_STEWARD_LIVE = true))
    ∧ (d.bridgeOk = true → ∃ t, exec .bridgeLost s = .next t ∧ t.dev.bridgeOk = false ∧ t.dev.stewardHalf = d.strapHalf ∧ t.dev.south.isSome = true
        ∧ bit (t.dev.reg pg 0x010).toNat 1 = true ∧ t.dev.fld pg (F.ERRCNT 3) = min (d.fld pg (F.ERRCNT 3) + 1) 0xFFFFFFFF)
    ∧ (d.bridgeOk = false → exec .bridgeLost s = s.becomes (s.dev.begin .bridgeLost))
    ∧ (d.bridgeOk = false → ∃ t, exec .isolationRejoin s = .next t ∧ t.dev.bridgeOk = true
        ∧ (d.heldMode 0 = d.heldMode 1 → d.entering = [] → t.dev.south = none ∧ t.dev.mode = d.mode))

/-- R402 to R407: the command ring of the host, its commands, firmware commands and events. -/
def Obligations.HostCommands : Prop :=
  ∀ (s : State), s.dev.rst = .running →
    let d := s.dev
    let pg := Pg.hostif
    (∀ val : Word, val.toNat < 2 ^ 16 →
      (val.toNat < 2 ^ d.fld pg F.HOSTIF_CMD_CFG_LOG2 → ∃ t, exec (.cmdTailWrite val) s = .next t ∧ t.dev.fld pg F.HOSTIF_CMD_TAIL_IDX = val.toNat
        ∧ (d.flag pg F.HOSTIF_CTRL_CMD_EN = true → d.flag pg F.HOSTIF_STAT_CMD_HALTED = false → d.hcmd = none → d.fetching = false →
            d.fld pg F.HOSTIF_CMD_HEAD_IDX ≠ val.toNat → t.dev.fetching = true ∧ Out.hostRead (d.fld pg F.HOSTIF_CMD_BASE_LO_ADDR * 4096
              + 2 ^ 32 * d.fld pg F.HOSTIF_CMD_BASE_HI + 64 * d.fld pg F.HOSTIF_CMD_HEAD_IDX) 64 ∈ t.dev.out))
      ∧ (2 ^ d.fld pg F.HOSTIF_CMD_CFG_LOG2 ≤ val.toNat → ∃ t, exec (.cmdTailWrite val) s = .next t
        ∧ t.dev.fld pg F.HOSTIF_CMD_TAIL_IDX = d.fld pg F.HOSTIF_CMD_TAIL_IDX
        ∧ t.dev.fld pg (F.ERRCNT 5) = min (d.fld pg (F.ERRCNT 5) + 1) 0xFFFFFFFF))
    ∧ (d.fetching = true → d.hcmd = none →
      (∃ t, exec (.cmdFetch none) s = .next t ∧ t.dev.fetching = false ∧ t.dev.flag pg F.HOSTIF_STAT_CMD_HALTED = true
        ∧ bit (t.dev.reg pg 0x010).toNat 0 = true ∧ t.dev.fld pg (F.ERRCNT 2) = min (d.fld pg (F.ERRCNT 2) + 1) 0xFFFFFFFF)
      ∧ (∀ l : List Byte, d.bar0Owed = true →
        ∃ t, exec (.cmdFetch (some l)) s = .next t ∧ t.dev.fetching = true ∧ t.dev.hcmd = none ∧ (d.ck + 1, .cmdFetch (some l)) ∈ t.dev.agenda)
      ∧ (∀ l : List Byte, l.length = 64 → d.bar0Owed = false →
        let c : HostCmd := { hseq := leNat (l.take 4), op := (byteAt l 4).toNat, flags := (byteAt l 5).toNat, bytes := l }
        let fresh := c.hseq ≠ 0 ∧ 0 < signed 32 (c.hseq + 2 ^ 32 - d.fld pg F.HOSTIF_CMD_SEQ_SEEN)
        ∃ t, exec (.cmdFetch (some l)) s = .next t
          ∧ t.dev.fld pg F.HOSTIF_CMD_HEAD_IDX = (d.fld pg F.HOSTIF_CMD_HEAD_IDX + 1) % 2 ^ d.fld pg F.HOSTIF_CMD_CFG_LOG2
          ∧ t.dev.fld pg F.HOSTIF_CMD_SEQ_SEEN = (if fresh then c.hseq else d.fld pg F.HOSTIF_CMD_SEQ_SEEN)
          ∧ (¬ fresh → t.dev.hcmd = none ∧ t.dev.fld pg F.HOSTIF_CMD_DUP_CNT = min (d.fld pg F.HOSTIF_CMD_DUP_CNT + 1) 0xFFFFFFFF)
          ∧ (fresh → c.reserved = false → t.dev.hcmd = some c ∧ t.dev.flag pg F.HOSTIF_STAT_CMD_BUSY = true ∧ (d.ck, c.event) ∈ t.dev.agenda)
          ∧ (fresh → c.reserved = true → t.dev.fld pg (F.ERRCNT 0) = min (d.fld pg (F.ERRCNT 0) + 1) 0xFFFFFFFF ∧ d.cmdEnded t.dev c 2 0 [])))
    ∧ (∀ c : HostCmd, d.hcmd = some c →
      (c.event = .nopCmd → ∃ t, exec .nopCmd s = .next t ∧ d.cmdEnded t.dev c 0 0 [])
      ∧ (c.event = .regWrite → ∃ t, exec .regWrite s = .next t ∧ t.pending = s.pending
          ∧ t.dev = (((List.range (c.at 8 1)).foldl (fun (g : Dev) i =>
            g.busWrite (c.at (16 + 8 * i) 4) (BitVec.ofNat 32 (c.at (20 + 8 * i) 4))) (d.begin .regWrite)).cmdEnd 0 0 []).settle)
      ∧ (c.event = .regRead → c.at 8 1 ≤ c.phase →
        ∃ t, exec .regRead s = .next t ∧ d.cmdEnded t.dev c 0 0 ((c.vals.map (fun v => leBytes 4 v.toNat)).flatten))
      ∧ (∀ g v, c.event = .regRead → c.phase < c.at 8 1 → (d.begin .regRead).readReg (c.at (16 + 8 * c.phase) 4) false .host = (g, some v) →
        ∃ t, exec .regRead s = .next t ∧ t.dev.hcmd = some { c with phase := c.phase + 1, vals := c.vals ++ [v] } ∧ t.dev.awaits .regRead = true)
      ∧ (c.event = .mode → d.unpaired → d.stewardHalf = 0 →
        (d.requestErrors (c.at 8 1) false = [] → exec .mode s = s.becomes (((d.begin .mode).modeArrives (c.at 8 1) false).cmdEnd 0 0 [])
          ∧ ∃ t, exec .mode s = .next t ∧ d.cmdEnded t.dev c 0 0 [] ∧ t.dev.mode = d.mode
            ∧ t.dev.modeTarget = (if c.at 8 1 = d.ownMode then d.modeTarget else some (c.at 8 1)))
        ∧ (∀ k x l, d.requestErrors (c.at 8 1) false = (k, x) :: l → ∃ t, exec .mode s = .next t ∧ t.dev.mode = d.mode ∧ d.cmdEnded t.dev c 1 x []))
      ∧ (c.event = .sched →
        let r := if c.at 9 1 = 1 then (d.begin .sched).evsInstall (c.at 8 1) (c.at 10 2) (BitVec.ofNat 256 (c.at 16 32))
          else (d.begin .sched).evsDrop (c.at 8 1) (c.at 10 2)
        r.2 ≠ 2 → ∃ t, exec .sched s = .next t ∧ t.pending = s.pending ∧ t.dev = (r.1.cmdEnd 0 0 []).settle
          ∧ t.dev.evs = r.1.evs ∧ t.dev.hcmd = none)
      ∧ (c.event = .flush → c.phase = 0 → ∃ t, exec .flush s = .next t ∧ t.dev.hcmd = some { c with phase := 1 } ∧ t.dev.awaits .flush = true)
      ∧ (c.event = .flush → c.phase ≠ 0 →
        ((∀ h ∈ setBits (c.at 8 1) 2, d.flag (Pg.cq h) F.CQ_STAT_FLUSH_PEND = false) → ∃ t, exec .flush s = .next t ∧ d.cmdEnded t.dev c 0 0 [])
        ∧ (∀ h ∈ setBits (c.at 8 1) 2, d.flag (Pg.cq h) F.CQ_STAT_FLUSH_PEND = true → ∃ t, exec .flush s = .next t
          ∧ t.dev.hcmd = some { c with phase := 1 } ∧ t.dev.awaits .flush = true))
      ∧ (c.event = .seek → c.phase = 0 → d.flag (Pg.idx (c.at 10 1)) F.IDX_STAT_SEEK_BUSY = true →
        ∃ t, exec .seek s = .next t ∧ d.cmdEnded t.dev c 1 0x0A13 []
          ∧ t.dev.fld (Pg.idx (c.at 10 1)) (F.ERRCNT 2) = min (d.fld (Pg.idx (c.at 10 1)) (F.ERRCNT 2) + 1) 0xFFFFFFFF)
      ∧ (c.event = .seek → c.phase ≠ 0 → d.flag (Pg.idx (c.at 10 1)) F.IDX_STAT_SEEK_BUSY = true →
        ∃ t, exec .seek s = .next t ∧ t.dev.hcmd = some { c with phase := 1 } ∧ t.dev.awaits .seek = true)
      ∧ (c.event = .seek → c.phase = 0 → d.flag (Pg.idx (c.at 10 1)) F.IDX_STAT_SEEK_BUSY = false →
        ∃ t, exec .seek s = .next t ∧ t.dev.hcmd = some { c with phase := 1 } ∧ t.dev.awaits .seek = true)
      ∧ (c.event = .seek → c.phase ≠ 0 → d.flag (Pg.idx (c.at 10 1)) F.IDX_STAT_SEEK_BUSY = false → let ix := Pg.idx (c.at 10 1)
        ∃ t, exec .seek s = .next t ∧ d.cmdEnded t.dev c 0 0 (leBytes 4 (d.fld ix F.IDX_SEEK_STAT_RESULT)
          ++ leBytes 8 (d.fld ix F.IDX_SEEK_RES_LO + 2 ^ 32 * d.fld ix F.IDX_SEEK_RES_HI_OFF) ++ leBytes 4 (d.fld ix F.IDX_SEEK_STAT_CK)))
      ∧ (c.event = .firmwareCommand → ∃ t, exec .firmwareCommand s = .next t ∧ t.dev.flag pg F.HOSTIF_STAT_FW_PEND = true
        ∧ t.dev.window 512 pg 0x180 16 = BitVec.ofNat 512 (leNat c.bytes)
        ∧ (d.fld pg F.HOSTIF_CMD_TIMEOUT_US ≠ 0 → (d.ck + 1000 * d.fld pg F.HOSTIF_CMD_TIMEOUT_US, .firmwareTimeout) ∈ t.dev.agenda))
      ∧ (d.flag pg F.HOSTIF_STAT_FW_PEND = true →
        (∀ val : Word, (val.toNat % 8 = 0 ∨ val.toNat % 8 = 4) → bitsOf val.toNat 3 13 = 0 → ∃ t p, exec (.fwDone val) s = .next t
          ∧ t.dev.flag pg F.HOSTIF_STAT_FW_PEND = false ∧ d.cmdEnded t.dev c (val.toNat % 8) (if val.toNat % 8 = 4 then val.toNat / 2 ^ 16 else 0) p)
        ∧ (∃ t, exec .firmwareTimeout s = .next t ∧ t.dev.flag pg F.HOSTIF_STAT_FW_PEND = false ∧ d.cmdEnded t.dev c 3 0 []
          ∧ t.dev.fld pg (F.ERRCNT 4) = min (d.fld pg (F.ERRCNT 4) + 1) 0xFFFFFFFF)))
    ∧ (d.fwWaits = false → exec .firmwareTimeout s = s.becomes (s.dev.begin .firmwareTimeout)
      ∧ ∀ val : Word, ∃ t, exec (.fwDone val) s = .next t ∧ t.dev.hcmd = d.hcmd
        ∧ t.dev.fld pg (F.ERRCNT 7) = min (d.fld pg (F.ERRCNT 7) + 1) 0xFFFFFFFF)
    ∧ (let typ := d.fld pg (F.HOSTIF_FW_EVT 2) % 256
      (0x80 ≤ typ → ∃ t, exec .fwEvtGo s = .next t
        ∧ t.dev.fld pg F.HOSTIF_EVT_SEQ_NEXT = (if (d.fld pg F.HOSTIF_EVT_SEQ_NEXT + 1) % 2 ^ 32 = 0 then 1 else (d.fld pg F.HOSTIF_EVT_SEQ_NEXT + 1) % 2 ^ 32)
        ∧ t.dev.hostEvs.length = (if d.hostEvs.length < 256 then d.hostEvs.length + 1 else d.hostEvs.length)
        ∧ (256 ≤ d.hostEvs.length → t.dev.fld pg F.HOSTIF_EVT_DROP_CNT = min (d.fld pg F.HOSTIF_EVT_DROP_CNT + 1) 0xFFFFFFFF
            ∧ bit (t.dev.reg pg 0x010).toNat 1 = true))
      ∧ (typ < 0x80 → ∃ t, exec .fwEvtGo s = .next t ∧ t.dev.hostEvs = d.hostEvs
        ∧ t.dev.fld pg (F.ERRCNT 7) = min (d.fld pg (F.ERRCNT 7) + 1) 0xFFFFFFFF))
    ∧ (∃ t, exec .ringReset s = .next t ∧ t.dev.fld pg F.HOSTIF_CMD_HEAD_IDX = 0 ∧ t.dev.fld pg F.HOSTIF_CMD_TAIL_IDX = 0
        ∧ t.dev.fld pg F.HOSTIF_EVT_TAIL_IDX = 0 ∧ t.dev.flag pg F.HOSTIF_STAT_CMD_HALTED = false ∧ t.dev.evtPhase = true)
    ∧ (∀ e rest, d.hostEvs = e :: rest →
      let tail := d.fld pg F.HOSTIF_EVT_TAIL_IDX
      let next := (tail + 1) % 2 ^ d.fld pg F.HOSTIF_EVT_CFG_LOG2
      (d.evtReady = true → ∃ t, exec .eventWrite s = .next t ∧ t.dev.hostEvs = rest ∧ t.dev.fld pg F.HOSTIF_EVT_TAIL_IDX = next
        ∧ t.dev.evtPhase = (if next = 0 then !d.evtPhase else d.evtPhase)
        ∧ Out.hostWrite (d.fld pg F.HOSTIF_EVT_BASE_LO_ADDR * 4096 + 2 ^ 32 * d.fld pg F.HOSTIF_EVT_BASE_HI + 64 * tail)
            (leBytes 64 (bitsPut e.toNat 80 1 (b01 d.evtPhase))) ∈ t.dev.out)
      ∧ (d.evtReady = false → exec .eventWrite s = s.becomes (s.dev.begin .eventWrite)))

/-- R411 to R421: a DMA channel from GO to the end of its descriptor. -/
def Obligations.DmaChannels : Prop :=
  ∀ (k : Fin 64) (s : State), s.dev.rst = .running →
    let d := s.dev
    let pg := Pg.dmach k.val
    let x := d.dmaOf k.val
    (∀ val : Word, bit val.toNat 2 = false →
      (d.dmaFree k.val = true → ∃ t, exec (.dmaGo k val) s = .next t ∧ t.dev.dmaState k.val = Dc.fetch
        ∧ (t.dev.dmaOf k.val).addr = d.reg64 pg 0x100 ∧ (t.dev.dmaOf k.val).host = d.flag pg F.DMACH_DESC_CFG_HOST
        ∧ (d.reg64 pg 0x100 % 64 = 0 → sfind t.dev.nocReqs d.nextNoc = some { who := .dma k.val 0, src := Ep.dma (k.val / 32) (k.val % 32), op := .read, addr := d.reg64 pg 0x100, host := d.flag pg F.DMACH_DESC_CFG_HOST, len := 64, cls := 1 })
        ∧ (d.reg64 pg 0x100 % 64 ≠ 0 → (t.dev.dmaOf k.val).fin = some 1))
      ∧ (d.dmaFree k.val = false → ∃ t, exec (.dmaGo k val) s = .next t
        ∧ t.dev.fld pg (F.ERRCNT 6) = min (d.fld pg (F.ERRCNT 6) + 1) 0xFFFFFFFF))
    ∧ (∀ val : Word,
      (bit val.toNat 1 = true → d.dmaState k.val = Dc.run → ∃ t, exec (.dmaPause k val) s = .next t ∧ t.dev.dmaState k.val = Dc.pausing
        ∧ t.dev.flag pg F.DMACH_CTRL_PAUSE = true)
      ∧ (bit val.toNat 1 = false → d.dmaState k.val = Dc.paused → d.flag pg F.DMACH_STAT_PWR = false →
        ∃ t, exec (.dmaPause k val) s = .next t ∧ t.dev.dmaState k.val = Dc.run ∧ t.dev.awaits (.dmaReadIssue (halfOf (k.val / 32))) = true)
      ∧ (d.dmaFree k.val = false → ∃ t, exec (.dmaAbort k val) s = .next t ∧ (t.dev.dmaOf k.val).abort = true)
      ∧ (d.dmaFree k.val = true → ∃ t, exec (.dmaAbort k val) s = .next t ∧ t.dev.dmas = d.dmas ∧ t.dev.dmaState k.val = d.dmaState k.val))
    ∧ (∀ (id : Nat) (r : NocReq) (p : Nat), sfind d.nocReqs id = some r → r.who = .dma k.val p → r.host = false →
      (∀ host, p = 0 → d.dmaState k.val = Dc.fetch → x.abort = false →
        let y : DmaSt := { x with desc := r.data, acked := 0, off := 0, no := 0, check := 0, retries := [] }
        (r.status = Ns.ok → r.bad = [] → y.refusals = [] → ∃ t, exec (.dmaDescFetch k id host) s = .next t ∧ (t.dev.dmaOf k.val).desc = r.data
          ∧ t.dev.reg64 pg 0x10C = y.src ∧ t.dev.reg64 pg 0x114 = y.dst ∧ t.dev.fld pg F.DMACH_REMAIN = y.len
          ∧ t.dev.dmaState k.val = (if t.dev.dmaHeld k.val then Dc.pausing else Dc.run))
        ∧ (∀ c cs, r.status = Ns.ok → r.bad = [] → y.refusals = c :: cs → ∃ t, exec (.dmaDescFetch k id host) s = .next t
          ∧ (t.dev.dmaOf k.val).fin = some (cs.foldl min c) ∧ t.dev.mem = d.mem)
        ∧ (retryable r.status = false → r.status ≠ Ns.ok ∨ r.bad ≠ [] → ∃ t, exec (.dmaDescFetch k id host) s = .next t
          ∧ t.dev.dmaState k.val = Dc.halted ∧ t.dev.fld pg F.DMACH_LAST_STATUS_STATUS = 9 ∧ bit (t.dev.reg pg 0x010).toNat 1 = true
          ∧ t.dev.fld pg (F.ERRCNT 5) = min (d.fld pg (F.ERRCNT 5) + 1) 0xFFFFFFFF))
      ∧ (∀ host, 8 ≤ p → x.abort = false → x.halt = none →
        (r.status = Ns.ok → r.bad = [] → ∃ t, exec (.dmaReadData k id host) s = .next t ∧ t.dev.awaits (.dmaBurstWrite k) = true
          ∧ (t.dev.dmaOf k.val).bursts = x.bursts.map (fun b => if b.no = (p - 8) / 2 then { b with data := some r.data } else b))
        ∧ (r.status ≠ Ns.ok → retryable r.status = false → ∃ t, exec (.dmaReadData k id host) s = .next t
          ∧ (t.dev.dmaOf k.val).halt = some ((p - 8) / 2, 5)))
      ∧ (∀ host, 8 ≤ p → retryable r.status = true → sget 0 x.retries p < 16 → ∃ t, exec (.dmaReadData k id host) s = .next t
        ∧ (d.ck + 256, .dmaRetry k id) ∈ t.dev.agenda ∧ t.dev.fld pg F.DMACH_RETRY_CNT = min (d.fld pg F.DMACH_RETRY_CNT + 1) 0xFFFFFFFF
        ∧ (t.dev.dmaOf k.val).bursts = x.bursts)
      ∧ (∀ b, 8 ≤ p → r.status = Ns.ok → x.abort = false → x.halt = none → x.bursts.find? (fun b => b.no = (p - 8) / 2) = some b → b.writes ≤ 1 →
        ∃ t, exec (.dmaWriteAck k id) s = .next t ∧ (t.dev.dmaOf k.val).acked = x.acked + b.len
          ∧ (t.dev.dmaOf k.val).bursts = x.bursts.filter (fun c => c.no ≠ (p - 8) / 2)
          ∧ t.dev.fld pg F.DMACH_REMAIN = x.len - (x.acked + b.len) ∧ t.dev.reg64 pg 0x114 = (x.dst + (x.acked + b.len)) % 2 ^ 64)
      ∧ (p = 1 → r.status = Ns.ok → ∃ t, exec (.dmaWriteAck k id) s = .next t ∧ t.dev.awaits (.dmaDescEnd k) = true)
      ∧ (id < d.nextNoc → ∃ t, exec (.dmaRetry k id) s = .next t ∧ sfind t.dev.nocReqs id = none
        ∧ sfind t.dev.nocReqs d.nextNoc = some { r with ph := .source, status := 0, data := [], bad := [], tx := 0 }))
    ∧ (∀ h : Half,
      let chans := (List.range 32).map (fun i => 32 * h.val + i)
      (32 ≤ (chans.map (fun j => (d.dmaOf j).flying)).sum → exec (.dmaReadIssue h) s = s.becomes (s.dev.begin (.dmaReadIssue h)))
      ∧ (∀ starved, (chans.map (fun j => (d.dmaOf j).flying)).sum < 32 → d.dmaChoose h.val (chans.filter d.dmaReady) = some (k.val, starved) →
        let a := x.src + x.off
        let n := min (2048 - a % 2048) (x.len - x.off)
        ∃ t q, exec (.dmaReadIssue h) s = .next t ∧ (t.dev.dmaOf k.val).off = x.off + n ∧ (t.dev.dmaOf k.val).passed = 0
          ∧ (t.dev.dmaOf k.val).bursts = x.bursts ++ [{ no := x.no, off := x.off, len := n }]
          ∧ sfind t.dev.nocReqs d.nextNoc = some q ∧ q.who = .dma k.val (8 + 2 * x.no) ∧ q.op = .read ∧ q.addr = a ∧ q.len = n ∧ q.host = x.srcHost))
    ∧ (∀ b rest data, x.bursts = b :: rest → b.data = some data → b.issued = false → x.abort = false → x.halt = none →
      let ps := writePieces 3 (x.dst + b.off) data
      ∃ t, exec (.dmaBurstWrite k) s = .next t ∧ (t.dev.dmaOf k.val).bursts = { b with issued := true, writes := ps.length } :: rest
        ∧ ∀ i (hi : i < ps.length), ∃ q, sfind t.dev.nocReqs (d.nextNoc + i) = some q ∧ q.op = .write ∧ q.addr = ps[i].1 ∧ q.wr = ps[i].2.map some)
    ∧ ((x.bursts = [] ∨ ∃ b rest, x.bursts = b :: rest ∧ (b.data = none ∨ b.issued = true)) →
      exec (.dmaBurstWrite k) s = s.becomes (s.dev.begin (.dmaBurstWrite k)))
    ∧ (x.fin = some 0 → ∃ t, exec (.dmaDescEnd k) s = .next t ∧ t.dev.fld pg F.DMACH_LAST_STATUS_STATUS = 0
      ∧ t.dev.fld pg F.DMACH_DESC_CNT = min (d.fld pg F.DMACH_DESC_CNT + 1) 0xFFFFFFFF
      ∧ (bit x.ctl 5 = true → bit (t.dev.reg pg 0x010).toNat 0 = true)
      ∧ (bit x.ctl 6 = false → t.dev.dmaState k.val = Dc.done)
      ∧ (bit x.ctl 6 = true → t.dev.dmaState k.val = Dc.fetch ∧ (t.dev.dmaOf k.val).addr = x.nextAddr))
    ∧ (∀ st, x.fin = some st → 0 < st → st < 256 → ∃ t, exec (.dmaDescEnd k) s = .next t ∧ t.dev.dmaState k.val = Dc.halted
      ∧ t.dev.fld pg F.DMACH_LAST_STATUS_STATUS = st ∧ bit (t.dev.reg pg 0x010).toNat 1 = true)
    ∧ (d.dmaState k.val = Dc.pausing → x.bursts = [] → x.halt = none → x.abort = false → x.fin = none →
      ∃ t, exec (.dmaPaused k) s = .next t ∧ t.dev.dmaState k.val = Dc.paused ∧ bit (t.dev.reg pg 0x010).toNat 2 = true)

/-- R422 to R430: run control, register accesses, ranges and the inspection master. -/
def Obligations.DebugCommands : Prop :=
  ∀ (s : State), s.dev.rst = .running →
    let d := s.dev
    let pg := Pg.dbg
    let t0 := d.dbgSel
    (t0 < 192 → d.flag pg F.DBG_CTRL_DISABLE = false → d.engState t0 = Es.run ∨ d.engState t0 = Es.wait ∨ d.engState t0 = Es.trap ∨ d.engState t0 = Es.stopping →
      (d.dbgOf t0).stop = none →
      ∃ t, exec .halt s = .next t ∧ t.dev.fld pg F.DBG_RUN_CMD_STATUS = 0 ∧ (t.dev.dbgOf t0).stop = some (5, 0, 0, d.ck + 4)
        ∧ t.dev.engState t0 = d.engState t0)
    ∧ (d.flag pg F.DBG_CTRL_DISABLE = true → ∀ c : Instr, c = .halt ∨ c = .resume ∨ c = .step →
      ∃ t, exec c s = .next t ∧ t.dev.fld pg F.DBG_RUN_CMD_STATUS = 2 ∧ t.dev.dbgs = d.dbgs ∧ t.dev.engs = d.engs
        ∧ t.dev.fld pg (F.ERRCNT 0) = min (d.fld pg (F.ERRCNT 0) + 1) 0xFFFFFFFF)
    ∧ (∀ (c : Instr) (n : Nat), (c = .resume ∧ n = 0) ∨ (c = .step ∧ n = 1) →
      (d.inMonitor t0 = false → ∃ t, exec c s = .next t ∧ t.dev.fld pg F.DBG_RUN_CMD_STATUS = 2 ∧ t.dev.engs = d.engs
        ∧ t.dev.fld pg (F.ERRCNT 0) = min (d.fld pg (F.ERRCNT 0) + 1) 0xFFFFFFFF)
      ∧ (t0 < 192 → d.flag pg F.DBG_CTRL_DISABLE = false → d.inMonitor t0 = true → (d.engOf t0).stopping = false → (d.dbgOf t0).caught = false →
        ∃ t, exec c s = .next t ∧ t.dev.fld pg F.DBG_RUN_CMD_STATUS = 0 ∧ t.dev.engState t0 = d.tfld t0 F.DBG_TGT_STAT_PREV
          ∧ (t.dev.engOf t0).pc = d.dpcOf t0 ∧ (t.dev.engOf t0).nextCk = d.ck + 4 ∧ (t.dev.dbgOf t0).step = n
          ∧ t.dev.tfld t0 F.DBG_TGT_STAT_STOPPED = 0 ∧ (t.dev.engOf t0).n = (d.engOf t0).n ∧ (t.dev.engOf t0).p = (d.engOf t0).p))
    ∧ (∀ c : Instr, c = .dbgRegRead ∨ c = .dbgRegWrite →
      (d.accessDue (decide (c = .dbgRegWrite)) = none → d.dbgRegOk t0 = false → ∃ t, exec c s = .next t ∧ t.dev.tfld t0 F.DBG_REG_CMD_STATUS = 2 ∧ t.dev.engs = d.engs
        ∧ t.dev.fld pg (F.ERRCNT 1) = min (d.fld pg (F.ERRCNT 1) + 1) 0xFFFFFFFF)
      ∧ (d.accessDue (decide (c = .dbgRegWrite)) = none → d.dbgRegOk t0 = true → ∃ t, exec c s = .next t ∧ t.dev.tfld t0 F.DBG_REG_CMD_STATUS = 1
        ∧ (d.ck + accessCk t0, c) ∈ t.dev.agenda ∧ t.dev.engs = d.engs))
    ∧ (∀ u, d.dbgRegOk u = true →
      (d.accessDue false = some u → ∃ t, exec .dbgRegRead s = .next t ∧ t.dev.tfld u F.DBG_REG_CMD_STATUS = 0 ∧ t.dev.engs = d.engs
        ∧ t.dev.tfld u F.DBG_REG_DATA_LO = (d.dbgRegValue u).toNat % 2 ^ 32 ∧ t.dev.tfld u F.DBG_REG_DATA_HI = (d.dbgRegValue u).toNat / 2 ^ 32)
      ∧ (∀ r : Fin 32, d.accessDue true = some u → d.tfld u F.DBG_REG_SEL_SPACE = 0 → d.tfld u F.DBG_REG_SEL_NUM = r.val → r ≠ 0 →
        ∃ t, exec .dbgRegWrite s = .next t ∧ t.dev.tfld u F.DBG_REG_CMD_STATUS = 0
          ∧ (t.dev.engOf u).reg r = BitVec.ofNat 64 (d.tfld u F.DBG_REG_DATA_LO + 2 ^ 32 * d.tfld u F.DBG_REG_DATA_HI)
          ∧ ∀ q, q ≠ r → (t.dev.engOf u).reg q = (d.engOf u).reg q))
    ∧ (∀ (k : Fin 12) (j : Fin 6) (val : Word),
      let mask := if j.val = 4 then 0x3FF else if j.val = 5 then 0xFFFF else 0xFFFFFFFF
      let g := d.setTreg t0 (rngOff k j) (BitVec.ofNat 32 (val.toNat &&& mask))
      (g.rangeRefused t0 k = true → ∃ t, exec (.dbgRangeWrite k j val) s = .next t ∧ t.dev.dbgs = d.dbgs
        ∧ t.dev.fld pg (F.ERRCNT 2) = min (d.fld pg (F.ERRCNT 2) + 1) 0xFFFFFFFF)
      ∧ (g.rangeRefused t0 k = false → ∃ t, exec (.dbgRangeWrite k j val) s = .next t
        ∧ t.dev.treg t0 (rngOff k j) = BitVec.ofNat 32 (val.toNat &&& mask) ∧ (∀ off, off ≠ rngOff k j → t.dev.treg t0 off = d.treg t0 off)
        ∧ (∀ u, u ≠ t0 → t.dev.dbgOf u = d.dbgOf u)))
    ∧ (∀ (c : Instr) (op : NocOp), (c = .imRead ∧ op = .read) ∨ (c = .imWrite ∧ op = .write) →
      let a := d.fld pg F.DBG_IM_ADDR_LO + 2 ^ 32 * d.fld pg F.DBG_IM_ADDR_HI
      (d.inspecting = true ∨ a % 32 ≠ 0 → ∃ t, exec c s = .next t ∧ t.dev.nocReqs = d.nocReqs ∧ t.dev.fld pg F.DBG_IM_CMD_STATUS = 2
        ∧ t.dev.fld pg (F.ERRCNT 3) = min (d.fld pg (F.ERRCNT 3) + 1) 0xFFFFFFFF)
      ∧ (d.inspecting = false → a % 32 = 0 → ∃ t q, exec c s = .next t ∧ t.dev.fld pg F.DBG_IM_CMD_STATUS = 1
        ∧ sfind t.dev.nocReqs d.nextNoc = some q ∧ q.who = .inspect ∧ q.op = op ∧ q.addr = a ∧ q.len = 32 ∧ q.cls = 4 ∧ q.peek = decide (op = .read)
        ∧ (d.ck + 1, .nocInject d.nextNoc 0) ∈ t.dev.agenda))

/-- R432 to R439: power domains; R440 to R449: temperature, supplies and rails. -/
def Obligations.PowerThermalAndSupplies : Prop :=
  ∀ (s : State), s.dev.rst = .running →
    let d := s.dev
    (∀ k : Fin 64, d.domState k.val = Ds.closing →
      (d.drained k.val = true → ∃ t, exec (.domainClosed k) s = .next t ∧ t.dev.domState k.val = Ds.closed ∧ bit (t.dev.reg Pg.pmc 0x010).toNat 0 = true
        ∧ ∀ b : Fin 12, k.val = Dom.bay b.val → ∀ e ∈ t.dev.mem, ¬ (Na.bay b.val ≤ e.1 ∧ e.1 < Na.bay b.val + 0x40_0000))
      ∧ (d.drained k.val = false → ∃ t, exec (.domainClosed k) s = .next t ∧ t.dev.domState k.val = Ds.closing ∧ t.dev.awaits (.domainClosed k) = true))
    ∧ (∀ k : Fin 64, d.domState k.val = Ds.opening → k.val ∉ d.pmc.later →
      ∃ t, exec (.domainOpened k) s = .next t ∧ t.dev.domState k.val = Ds.opened ∧ t.dev.forced k.val = false)
    ∧ (∀ val : Word, bitsOf val.toNat 6 2 = 0 → bitsOf val.toNat 10 22 = 0 →
      let k := bitsOf val.toNat 0 6
      (d.domState k = Ds.opened → d.closeRefused k = false → ∃ t, exec (.domainClose val) s = .next t ∧ t.dev.domState k = Ds.closing
        ∧ t.dev.fld Pg.pmc F.PMC_DOM_CMD_STATUS = 0 ∧ t.dev.fld Pg.pmc F.PMC_CLOSE_CNT = min (d.fld Pg.pmc F.PMC_CLOSE_CNT + 1) 0xFFFFFFFF
        ∧ (d.ck, .domainClosed (domOp k)) ∈ t.dev.agenda)
      ∧ (d.domState k = Ds.opening ∨ (d.domState k = Ds.opened ∧ d.closeRefused k = true) → ∃ t, exec (.domainClose val) s = .next t
        ∧ t.dev.domState k = d.domState k ∧ t.dev.fld Pg.pmc F.PMC_DOM_CMD_STATUS = 2
        ∧ t.dev.fld Pg.pmc (F.ERRCNT 0) = min (d.fld Pg.pmc (F.ERRCNT 0) + 1) 0xFFFFFFFF)
      ∧ (d.forced k = true → ∃ t, exec (.domainOpen val) s = .next t ∧ t.dev.domState k = d.domState k ∧ t.dev.fld Pg.pmc F.PMC_DOM_CMD_STATUS = 2
        ∧ t.dev.fld Pg.pmc (F.ERRCNT 0) = min (d.fld Pg.pmc (F.ERRCNT 0) + 1) 0xFFFFFFFF)
      ∧ (d.forced k = false → d.domState k = Ds.closed → ∃ t, exec (.domainOpen val) s = .next t ∧ t.dev.domState k = Ds.opening
        ∧ t.dev.awaits (.domainOpened (domOp k)) = true ∧ t.dev.fld Pg.pmc F.PMC_DOM_CMD_STATUS = 0)
      ∧ (d.forced k = false → d.domState k = Ds.closing → ∃ t, exec (.domainOpen val) s = .next t ∧ t.dev.domState k = Ds.opened
        ∧ t.dev.fld Pg.pmc F.PMC_CANCEL_CNT = min (d.fld Pg.pmc F.PMC_CANCEL_CNT + 1) 0xFFFFFFFF))
    ∧ (∀ (b : Fin 12) (temp : Int),
      let pg := Pg.therm
      (540 ≤ temp → temp ≤ 640 → d.sources = [] → ∃ t, exec (.thermalSample b temp true) s = .next t ∧ t.dev.thermTrip = true ∧ t.dev.rst ≠ .running)
      ∧ (-256 ≤ temp → temp < 540 → ∃ t, exec (.thermalSample b temp true) s = .next t ∧ t.dev.fld pg (F.THERM_BAY_VALID b.val) = 1
        ∧ t.dev.fld pg (F.THERM_BAY_TEMP b.val) = (temp % 65536).toNat
        ∧ t.dev.fld pg ⟨0x00C, b.val, 1⟩ = (if 440 ≤ temp then 1 else 0)
        ∧ (temp < 440 → t.dev.fld pg ⟨0x00C, 12 + b.val, 1⟩ = 0)
        ∧ (512 ≤ temp → t.dev.fld pg ⟨0x00C, 12 + b.val, 1⟩ = 1 ∧ t.dev.flag Pg.pmc F.PMC_STAT_THERM_LIVE = true)
        ∧ (512 ≤ temp → d.fld pg ⟨0x00C, 12 + b.val, 1⟩ = 0 →
            bit (t.dev.reg pg 0x010).toNat 2 = true ∧ t.dev.fld pg (F.ERRCNT 1) = min (d.fld pg (F.ERRCNT 1) + 1) 0xFFFFFFFF))
      ∧ (∃ t, exec (.thermalSample b temp false) s = .next t ∧ t.dev.fld pg (F.THERM_BAY_VALID b.val) = 0
        ∧ t.dev.fld pg ⟨0x00C, 12 + b.val, 1⟩ = 1 ∧ bit (t.dev.reg pg 0x010).toNat 4 = true
        ∧ t.dev.fld pg (F.ERRCNT 0) = min (d.fld pg (F.ERRCNT 0) + 1) 0xFFFFFFFF))
    ∧ (∀ g : Fin 8,
      (bit (d.fld Pg.pmc F.PMC_STAT_MON_OK) g.val = false → g.val ∉ d.pmc.groupFault →
        ∃ t, exec (.supplyWindowFault g) s = .next t ∧ t.dev.flag Pg.pmc F.PMC_STAT_SUPPLY_LIVE = true ∧ g.val ∈ t.dev.pmc.groupFault
          ∧ bit (t.dev.reg Pg.pmc 0x010).toNat 2 = true ∧ t.dev.fld Pg.pmc (F.ERRCNT 4) = min (d.fld Pg.pmc (F.ERRCNT 4) + 1) 0xFFFFFFFF)
      ∧ (bit (d.fld Pg.pmc F.PMC_STAT_MON_OK) g.val = true ∨ g.val ∈ d.pmc.groupFault → exec (.supplyWindowFault g) s = s.becomes d.fresh)
      ∧ (∀ ok : Bool, ∃ t, exec (.monitorGroupChange g ok) s = .next t ∧ bit (t.dev.fld Pg.pmc F.PMC_STAT_MON_OK) g.val = ok))
    ∧ (d.suppliesGood = true → ∃ t, exec .supplyCauseClear s = .next t ∧ t.dev.flag Pg.pmc F.PMC_STAT_SUPPLY_LIVE = false)
    ∧ (d.suppliesGood = false → exec .supplyCauseClear s = s.becomes (s.dev.begin .supplyCauseClear))
    ∧ (∀ x : RailRead, d.flag Pg.pmc (F.PMC_RAIL_CFG_EN x.rail.val) = true → ∃ t, exec (.pmbusPoll [x]) s = .next t
      ∧ (∀ v, x.vout = some v → t.dev.fld Pg.pmc (F.PMC_RAIL_MEAS_VOUT_MV x.rail.val) = v.toNat)
      ∧ (∀ v, x.iout = some v → t.dev.fld Pg.pmc (F.PMC_RAIL_MEAS_IOUT x.rail.val) = v.toNat)
      ∧ t.dev.fld Pg.pmc (F.ERRCNT 3) = (if x.status = none then min (d.fld Pg.pmc (F.ERRCNT 3) + 1) 0xFFFFFFFF else d.fld Pg.pmc (F.ERRCNT 3)))
    ∧ (∀ (r : Fin 8) (val : Word), val.toNat < 65536 →
      let no := val.toNat < d.fld Pg.pmc (F.PMC_RAIL_LIMIT_MIN_MV r.val) ∨ d.fld Pg.pmc (F.PMC_RAIL_LIMIT_MAX_MV r.val) < val.toNat
        ∨ d.flag Pg.pmc (F.PMC_RAIL_CFG_EN r.val) = false ∨ d.flag Pg.pmc (F.PMC_RAIL_CFG_RAMPING r.val) = true
        ∨ (d.mode = Mode.safe.code ∧ d.flag Pg.pmc F.PMC_STAT_SUPPLY_LIVE = true)
      (no → ∃ t, exec (.railTargetWrite r val) s = .next t ∧ t.dev.fld Pg.pmc (F.PMC_RAIL_TARGET_MV r.val) = d.fld Pg.pmc (F.PMC_RAIL_TARGET_MV r.val)
        ∧ t.dev.fld Pg.pmc (F.ERRCNT 1) = min (d.fld Pg.pmc (F.ERRCNT 1) + 1) 0xFFFFFFFF)
      ∧ (¬ no → d.mode ≠ Mode.loading.code ∨ d.started = true → ∃ t, exec (.railTargetWrite r val) s = .next t
        ∧ t.dev.fld Pg.pmc (F.PMC_RAIL_TARGET_MV r.val) = val.toNat ∧ t.dev.flag Pg.pmc (F.PMC_RAIL_CFG_RAMPING r.val) = true
        ∧ t.dev.flag Pg.pmc (F.PMC_RAIL_CFG_RAMP_ERR r.val) = false ∧ t.dev.awaits (.rampStep r none) = true))
    ∧ (∀ (r : Fin 8) (v : BitVec 16), d.flag Pg.pmc (F.PMC_RAIL_CFG_RAMPING r.val) = true →
      let step := sget 0 d.pmc.steps r.val
      let off := max v.toNat step - min v.toNat step
      (d.fld Pg.pmc F.PMC_RAMP_TOL_MV < off → ∃ t, exec (.rampStep r (some v)) s = .next t ∧ t.dev.flag Pg.pmc (F.PMC_RAIL_CFG_RAMPING r.val) = false
        ∧ t.dev.flag Pg.pmc (F.PMC_RAIL_CFG_RAMP_ERR r.val) = true ∧ bit (t.dev.reg Pg.pmc 0x010).toNat 3 = true
        ∧ t.dev.fld Pg.pmc (F.ERRCNT 2) = min (d.fld Pg.pmc (F.ERRCNT 2) + 1) 0xFFFFFFFF)
      ∧ (off ≤ d.fld Pg.pmc F.PMC_RAMP_TOL_MV → step = d.fld Pg.pmc (F.PMC_RAIL_TARGET_MV r.val) → ∃ t, exec (.rampStep r (some v)) s = .next t
        ∧ t.dev.flag Pg.pmc (F.PMC_RAIL_CFG_RAMPING r.val) = false ∧ bit (t.dev.reg Pg.pmc 0x010).toNat 3 = true)
      ∧ (off ≤ d.fld Pg.pmc F.PMC_RAMP_TOL_MV → step ≠ d.fld Pg.pmc (F.PMC_RAIL_TARGET_MV r.val) → ∃ t, exec (.rampStep r (some v)) s = .next t
        ∧ t.dev.flag Pg.pmc (F.PMC_RAIL_CFG_RAMPING r.val) = true ∧ sget 0 t.dev.pmc.steps r.val = d.rampNext r.val step
        ∧ t.dev.awaits (.rampStep r none) = true)
      ∧ (∃ t, exec (.rampStep r none) s = .next t ∧ t.dev.fld Pg.pmc (F.ERRCNT 3) = min (d.fld Pg.pmc (F.ERRCNT 3) + 1) 0xFFFFFFFF
        ∧ t.dev.awaits (.rampStep r none) = true))

/-- R450 to R460, R469 to R471: the Scarf link, numbered messages, roles and failover. -/
def Obligations.PairLinkAndRoles : Prop :=
  ∀ (s : State), s.dev.rst = .running → s.dev.pins = s.dev.pinsOf →
    let d := s.dev
    let pg := Pg.pair
    let tx := d.fld pg F.PAIR_TX_SEQ
    let rx := d.fld pg F.PAIR_RX_SEQ
    (∀ (lat : BitVec 16) (ph : BitVec 8), d.pairEn = true → d.fld pg F.PAIR_STAT_LINK = 1 →
      ∃ t, exec (.scarfLinkUp lat ph) s = .next t ∧ t.dev.linkUp = true ∧ t.dev.fld pg F.PAIR_LINK_CK_CK = lat.toNat
        ∧ t.dev.fld pg F.PAIR_CK_PHASE_PHASE = ph.toNat ∧ t.dev.fld pg F.PAIR_TX_SEQ = 1 ∧ t.dev.fld pg F.PAIR_RX_SEQ = 0
        ∧ Out.scarf 1 1 0 d.helloPayload ∈ t.dev.out ∧ (d.ck + 128, .heartbeatSend) ∈ t.dev.agenda ∧ bit (t.dev.reg pg 0x010).toNat 0 = true)
    ∧ (d.linkUp = true → ∃ t, exec .scarfLaneLoss s = .next t ∧ t.dev.fld pg F.PAIR_STAT_LINK = (if d.pairEn then 1 else 0)
        ∧ t.dev.pair.replay = [] ∧ bit (t.dev.reg pg 0x010).toNat 1 = true
        ∧ t.dev.fld pg (F.ERRCNT 2) = min (d.fld pg (F.ERRCNT 2) + 1) 0xFFFFFFFF
        ∧ (d.pairEn = true → d.pairState ≠ Ps.isolated → t.dev.pairState = (if d.pairRole = Ps.lead then Ps.degraded else Ps.link)))
    ∧ (d.linkUp = false → exec .scarfLaneLoss s = s.becomes d.fresh)
    ∧ (d.fld pg F.PAIR_STAT_LINK = 1 → (d.begin .scarfTrainingTimeout).awaits .scarfTrainingTimeout = false →
        ∃ t, exec .scarfTrainingTimeout s = .next t ∧ (d.ck + 100000, .scarfTrainingTimeout) ∈ t.dev.agenda ∧ t.dev.fld pg F.PAIR_STAT_LINK = 1)
    ∧ (d.pairEn = false →
      (d.stewardMode = Mode.ready.code ∨ isOperating d.stewardMode = true ∨ d.stewardMode = Mode.offload.code →
        ∃ t, exec (.pairEnWrite 1#32) s = .next t ∧ t.dev.pairEn = true ∧ t.dev.pairState = Ps.link ∧ t.dev.fld pg F.PAIR_STAT_LINK = 1
          ∧ t.dev.pair.hbCk = d.ck ∧ (d.ck + 100000, .scarfTrainingTimeout) ∈ t.dev.agenda)
      ∧ (d.stewardMode ≠ Mode.ready.code → isOperating d.stewardMode = false → d.stewardMode ≠ Mode.offload.code →
        ∃ t, exec (.pairEnWrite 1#32) s = .next t ∧ t.dev.pairEn = false ∧ t.dev.fld pg (F.ERRCNT 6) = min (d.fld pg (F.ERRCNT 6) + 1) 0xFFFFFFFF))
    ∧ (d.pairEn = true → ∃ t, exec (.pairEnWrite 0#32) s = .next t ∧ t.dev.pairEn = false ∧ t.dev.pairRole = 0 ∧ t.dev.pairState = Ps.off
        ∧ t.dev.fld pg F.PAIR_STAT_LINK = 0)
    ∧ (∀ (typ : Nat) (seq ack : Word) (good : Bool) (p : List Byte) (peer : Fin 8) (c : Instr),
      (c, typ) ∈ [(Instr.hello seq ack good p, 1), (.heartbeat seq ack good p peer, 2), (.journal seq ack good p, 3), (.writeMessage seq ack good p, 4),
        (.seqState seq ack good p, 5), (.alignRec seq ack good p, 6), (.digest seq ack good p, 7), (.resyncReq seq ack good p, 8),
        (.resyncData seq ack good p, 9), (.nak seq ack good p, 10)] →
      (d.linkUp = false → exec c s = s.becomes d.fresh)
      ∧ (d.linkUp = true →
        (d.accepts typ seq good p → ∃ t, exec c s = .next t ∧ t.dev.fld pg F.PAIR_RX_SEQ = seq.toNat)
        ∧ (good = false ∨ unitsOk typ p.length = false → ∃ t, exec c s = .next t ∧ t.dev.fld pg F.PAIR_RX_SEQ = rx
          ∧ t.dev.fld pg (F.ERRCNT 1) = min (d.fld pg (F.ERRCNT 1) + 1) 0xFFFFFFFF
          ∧ (d.pair.muted = false → t.dev.fld pg F.PAIR_NAK_CNT = min (d.fld pg F.PAIR_NAK_CNT + 1) 0xFFFFFFFF))
        ∧ (good = true → unitsOk typ p.length = true → seq.toNat ≠ nextSeq rx →
          (signed 32 ((seq.toNat + 2 ^ 32 - rx) % 2 ^ 32) ≤ 0 → ∃ t, exec c s = .next t ∧ t.dev.pair = d.pair ∧ t.dev.fld pg F.PAIR_RX_SEQ = rx
            ∧ t.dev.fld pg F.PAIR_DUP_CNT = min (d.fld pg F.PAIR_DUP_CNT + 1) 0xFFFFFFFF)
          ∧ (0 < signed 32 ((seq.toNat + 2 ^ 32 - rx) % 2 ^ 32) → d.pair.muted = false → ∃ t, exec c s = .next t ∧ t.dev.fld pg F.PAIR_RX_SEQ = rx
            ∧ t.dev.fld pg F.PAIR_NAK_CNT = min (d.fld pg F.PAIR_NAK_CNT + 1) 0xFFFFFFFF))))
    ∧ (∀ (seq ack : Word) (p : List Byte), d.accepts 1 seq true p →
      let same := (List.range 4).all (fun j => decide (pf p (4 * j) 4 = d.fld Pg.cfg (F.CFG_DESIGN j)))
      (same = false ∨ pf p 16 1 = d.side → ∃ t, exec (.hello seq ack true p) s = .next t ∧ t.dev.pair.muted = true ∧ t.dev.pairRole = d.pairRole
        ∧ bit (t.dev.reg pg 0x010).toNat 6 = true ∧ t.dev.fld pg (F.ERRCNT 0) = min (d.fld pg (F.ERRCNT 0) + 1) 0xFFFFFFFF)
      ∧ (same = true → pf p 16 1 ≠ d.side → ∃ t, exec (.hello seq ack true p) s = .next t ∧ t.dev.pair.hello = true ∧ t.dev.pair.hbCk = d.ck
        ∧ t.dev.pairRole = helloRole d.pairRole (pf p 17 1) d.side
        ∧ t.dev.fld pg F.PAIR_FAILOVER_CNT = (if helloRole d.pairRole (pf p 17 1) d.side = d.pairRole then d.fld pg F.PAIR_FAILOVER_CNT
            else min (d.fld pg F.PAIR_FAILOVER_CNT + 1) 0xFFFFFFFF)))
    ∧ (∀ (seq ack : Word) (p : List Byte) (peer : Fin 8), d.accepts 2 seq true p →
      ∃ t, exec (.heartbeat seq ack true p peer) s = .next t ∧ t.dev.pair.hbCk = d.ck
        ∧ (d.pairJudges = true → bit (pf p 10 1) 3 = true → d.pairRole = Ps.lead → t.dev.pairRole = Ps.shadow)
        ∧ (d.pairJudges = true → bit (pf p 10 1) 3 = false → bit (pf p 10 1) 2 = true → d.pairRole = Ps.shadow →
            t.dev.pairRole = Ps.lead ∧ t.dev.pairState = Ps.degraded)
        ∧ (bit (pf p 10 1) 3 = false → bit (pf p 10 1) 2 = false → t.dev.pairRole = d.pairRole ∧ t.dev.pair.peer = peer.val))
    ∧ (d.linkUp = true → d.pair.muted = false → d.replayFill + 48 ≤ 65536 → ∃ t p, exec .heartbeatSend s = .next t
        ∧ Out.scarf 2 (nextSeq tx) rx p ∈ t.dev.out ∧ p.length = 32 ∧ p.take 8 = leBytes 8 (lpInt (d.pubLp 0)) ∧ t.dev.awaits .heartbeatSend = true)
    ∧ (d.yieldDue = true → ∃ t, exec .heartbeatYield s = .next t ∧ t.dev.pairRole = Ps.shadow ∧ t.dev.pair.yielding = true
        ∧ t.dev.fld pg F.PAIR_FAILOVER_CNT = min (d.fld pg F.PAIR_FAILOVER_CNT + 1) 0xFFFFFFFF ∧ bit (t.dev.reg pg 0x010).toNat 2 = true)
    ∧ (d.yieldDue = false → exec .heartbeatYield s = s.becomes (s.dev.begin .heartbeatYield))
    ∧ (d.yieldDue = false → d.timeoutDue = true →
      (d.pairRole = Ps.shadow → d.ins.pairOkIn = true ∨ d.side = 0 → ∃ t, exec .heartbeatTimeout s = .next t ∧ t.dev.pairRole = Ps.lead
        ∧ t.dev.pairState = Ps.degraded ∧ t.dev.pair.takeover = true ∧ t.dev.fld pg F.PAIR_FAILOVER_CNT = min (d.fld pg F.PAIR_FAILOVER_CNT + 1) 0xFFFFFFFF)
      ∧ (d.ins.pairOkIn = false → d.side = 1 → ∃ t, exec .heartbeatTimeout s = .next t ∧ t.dev.pairRole = d.pairRole
        ∧ t.dev.pairState = Ps.isolated ∧ bit (t.dev.reg pg 0x010).toNat 5 = true))
    ∧ (d.timeoutDue = false → exec .heartbeatTimeout s = s.becomes (s.dev.begin .heartbeatTimeout))
    ∧ (∀ fell : Bool, ∃ t, exec (.peerOkFell fell) s = .next t ∧ t.dev.ins.pairOkIn = !fell
        ∧ (fell = true → d.ins.pairOkIn = true → d.pairJudges = true → d.pairRole = Ps.shadow → t.dev.pairRole = Ps.lead ∧ t.dev.pairState = Ps.degraded)
        ∧ (fell = true → d.ins.pairOkIn = true → d.pairJudges = true → d.pairRole = Ps.lead → d.pairState = Ps.inStep → t.dev.pairState = Ps.degraded)
        ∧ (fell = false ∨ d.ins.pairOkIn = false → t.dev.pairRole = d.pairRole ∧ t.dev.pairState = d.pairState))
    ∧ (d.pairState = Ps.isolated → d.pairRole = Ps.lead → ∃ t, exec .claim s = .next t ∧ t.dev.pairState = Ps.degraded ∧ t.dev.pairRole = Ps.lead)
    ∧ (d.pairState ≠ Ps.isolated ∨ d.pairRole ≠ Ps.lead → ∃ t, exec .claim s = .next t ∧ t.dev.pairState = d.pairState
        ∧ t.dev.fld pg (F.ERRCNT 6) = min (d.fld pg (F.ERRCNT 6) + 1) 0xFFFFFFFF)
    ∧ (∀ (seq ack : Word) (p : List Byte), d.accepts 10 seq true p →
      let held := d.pair.replay.filter (fun m => !decide (signed 32 ((m.seq + 2 ^ 32 - ack.toNat) % 2 ^ 32) ≤ 0))
      (pf p 0 4 = nextSeq tx → ∃ t, exec (.nak seq ack true p) s = .next t ∧ t.dev.out = [] ∧ t.dev.linkUp = true)
      ∧ (∀ m ∈ held, m.seq = pf p 0 4 → m.seq ≠ nextSeq tx → ∃ t, exec (.nak seq ack true p) s = .next t
        ∧ Out.scarf m.typ m.seq seq.toNat m.payload ∈ t.dev.out ∧ t.dev.pair.replay = held)
      ∧ ((∀ m ∈ held, m.seq ≠ pf p 0 4) → pf p 0 4 ≠ nextSeq tx → ∃ t, exec (.nak seq ack true p) s = .next t ∧ t.dev.linkUp = false))

/-- R461 to R468: alignment, mirrored writes, journal, digests and resynchronisation of a pair. -/
def Obligations.PairMirrorAndResync : Prop :=
  ∀ (s : State), s.dev.rst = .running →
    let d := s.dev
    let pg := Pg.pair
    (∀ (seq ack : Word) (p : List Byte),
      (d.accepts 3 seq true p → d.isShadow = true → ∃ t, exec (.journal seq ack true p) s = .next t ∧ t.dev.pair.ring = d.pair.ring + 1
        ∧ t.dev.meta64 = (d.burstWrite Ep.scarf (d.fld pg F.PAIR_MJRN_CFG_CHAN)
            (d.fld pg F.PAIR_MJRN_BASE_BASE * 4096 + d.pair.ring % 2 ^ d.fld pg F.PAIR_MJRN_CFG_LOG2 * 32) p).meta64)
      ∧ (d.accepts 4 seq true p → d.isShadow = true →
        let w : PairWr := ⟨pf p 8 8, pf p 0 4, BitVec.ofNat 32 (pf p 4 4)⟩
        ∃ t, exec (.writeMessage seq ack true p) s = .next t ∧ t.dev.pair.writes = d.pair.writes ++ [w]
          ∧ (d.writeDue w = true → t.dev.awaits .mirroredWriteApply = true ∧ t.dev.fld pg F.PAIR_LATE_CNT = min (d.fld pg F.PAIR_LATE_CNT + 1) 0xFFFFFFFF)
          ∧ (d.writeDue w = false → t.dev.fld pg F.PAIR_LATE_CNT = d.fld pg F.PAIR_LATE_CNT))
      ∧ (d.accepts 5 seq true p → d.isShadow = true → d.pair.applied = false → ∃ t, exec (.seqState seq ack true p) s = .next t
        ∧ t.dev.pair.seqs = d.pair.seqs ++ [⟨pf p 0 1 % 2, pf p 1 1 % 8, pf p 2 1 % 16, bit (pf p 3 1) 0, pf p 4 4, pf p 8 8⟩])
      ∧ (d.accepts 6 seq true p → d.isShadow = true → d.pairState = Ps.align → d.alignRecs = [] → d.pair.aligned = false →
        ∃ t, exec (.alignRec seq ack true p) s = .next t ∧ t.dev.pair.alignIn = d.pair.alignIn ++ ((List.range (p.length / 16)).map (fun k =>
          (⟨mkLp (pf p (16 * k) 8) (pf p (16 * k + 8) 1), pf p (16 * k + 9) 1, pf p (16 * k + 10) 2, pf p (16 * k + 12) 4⟩ : AlignRec))).filter
            (fun e => decide (e.len ≠ 0)))
      ∧ (∀ typ ∈ [3, 4, 5, 6, 7, 9], d.accepts typ seq true p → d.isShadow = false → d.pair.resyncs = [] →
        ∀ c, (c, typ) ∈ [(Instr.journal seq ack true p, 3), (.writeMessage seq ack true p, 4), (.seqState seq ack true p, 5), (.alignRec seq ack true p, 6),
          (.digest seq ack true p, 7), (.resyncData seq ack true p, 9)] →
        ∃ t, exec c s = .next t ∧ t.dev.pair = { d.pair with replay := t.dev.pair.replay } ∧ t.dev.meta64 = d.meta64 ∧ t.dev.holds = d.holds)
      ∧ (∀ a : Epoch, d.accepts 7 seq true p → d.isShadow = true → d.pair.theirs = [] → setBits (pf p 32 512) 4096 = [] → a.lost = [] →
        d.pair.own.find? (fun x => x.half = pf p 8 1 % 2 && x.epoch = pf p 0 8) = some a →
        ∃ t, exec (.digest seq ack true p) s = .next t
          ∧ t.dev.fld pg F.PAIR_CHECKED_CNT = (if a.digest = pf p 16 8 then min (d.fld pg F.PAIR_CHECKED_CNT + 1) 0xFFFFFFFF else d.fld pg F.PAIR_CHECKED_CNT)
          ∧ t.dev.fld pg F.PAIR_MISMATCH_CNT = (if a.digest = pf p 16 8 then d.fld pg F.PAIR_MISMATCH_CNT else min (d.fld pg F.PAIR_MISMATCH_CNT + 1) 0xFFFFFFFF)
          ∧ (a.digest ≠ pf p 16 8 → bit (t.dev.reg pg 0x010).toNat 4 = true))
      ∧ (d.accepts 8 seq true p → d.isLead = true →
        let f := pf p 0 2 % 4096
        let h := pf p 2 1 % 2
        let n := if seqBefore (d.firstUnoffered h f) (pf p 4 4) then pf p 4 4 else d.firstUnoffered h f
        ∃ t, exec (.resyncReq seq ack true p) s = .next t ∧ t.dev.pair.leadSyncs = d.pair.leadSyncs ++ [⟨h, f, n, pf p 4 4, none⟩]
          ∧ sfind t.dev.holds (flowKey h f) = some n)
      ∧ (∀ r : PairResync, d.accepts 9 seq true p → d.pair.resyncs = [r] → r.slot = none → r.half = pf p 2 1 % 2 → r.flow = pf p 0 2 % 4096 →
        ∃ t, exec (.resyncData seq ack true p) s = .next t ∧ t.dev.pair.resyncs = [{ r with seq := pf p 4 4, slot := some ((p.drop 32).take 256) }]
          ∧ sfind t.dev.holds (flowKey r.half r.flow) = some (pf p 4 4)))
    ∧ (d.isShadow = true → d.pairState = Ps.align → d.pair.aligned = false → ∃ t, exec .pairAlignTimeout s = .next t
        ∧ (d.ck + 100000000, .pairAlignTimeout) ∈ t.dev.agenda ∧ t.dev.pair.alignIn = [] ∧ t.dev.alignRecs = []
        ∧ t.dev.fld pg (F.ERRCNT 4) = min (d.fld pg (F.ERRCNT 4) + 1) 0xFFFFFFFF)
    ∧ (d.isShadow = false ∨ d.pairState ≠ Ps.align ∨ d.pair.aligned = true →
        exec .pairAlignTimeout s = s.becomes (s.dev.begin .pairAlignTimeout))
    ∧ ((d.isShadow = true ∧ d.pairState = Ps.align) ∨ (d.isLead = true ∧ d.linkUp = true ∧ d.pair.peer = Ps.align) →
        ∃ t, exec .alignRemeasure s = .next t ∧ (d.ck + 1000000, .alignRemeasure) ∈ t.dev.agenda ∧ t.dev.alignRecs = []
          ∧ ∀ i, i < 64 → t.dev.reg pg (0x400 + 4 * i) = 0#32)
    ∧ ((d.isShadow = false ∨ d.pairState ≠ Ps.align) → (d.isLead = false ∨ d.linkUp = false ∨ d.pair.peer ≠ Ps.align) →
        exec .alignRemeasure s = s.becomes (s.dev.begin .alignRemeasure))
    ∧ (∃ t, exec .digestSend s = .next t ∧ (∀ k ∈ d.digestsDue, k ∉ t.dev.pair.ended) ∧ (∀ k ∈ d.pair.ended, k ∉ d.digestsDue → k ∈ t.dev.pair.ended))
    ∧ (∀ r : PairResync, d.pair.leadSyncs = [r] →
      (d.leadReady r = false → exec .resyncLeadBoundary s = s.becomes (s.dev.begin .resyncLeadBoundary))
      ∧ (d.leadReady r = true → ∃ t, exec .resyncLeadBoundary s = .next t ∧ t.dev.pair.leadSyncs = [] ∧ sfind t.dev.holds (flowKey r.half r.flow) = none
        ∧ (d.linkUp = true → d.pair.muted = false → d.pair.replay = [] → d.flowEn r.half r.flow = true →
          ∃ n k p, Out.scarf 9 n k p ∈ t.dev.out ∧ p.length = 288 ∧ p.drop 32 = d.slotBytes r.half r.flow)))
    ∧ (∀ r : PairResync, d.pair.resyncs = [r] →
      (d.shadowReady r = false → exec .resyncShadowBoundary s = s.becomes (s.dev.begin .resyncShadowBoundary))
      ∧ (∀ l, d.shadowReady r = true → r.slot = some l → ∃ t, exec .resyncShadowBoundary s = .next t ∧ t.dev.pair.resyncs = []
        ∧ t.dev.fld pg F.PAIR_RESYNC_CNT = min (d.fld pg F.PAIR_RESYNC_CNT + 1) 0xFFFFFFFF ∧ sfind t.dev.holds (flowKey r.half r.flow) = none
        ∧ ∀ k, d.curEngine r.half r.flow < 192 → sfind (d.engOf (d.curEngine r.half r.flow)).slots r.flow = some k →
          ∀ i, i < 256 → sget 0#8 t.dev.ctx (ctxAddr (d.curEngine r.half r.flow) k + i) = byteAt l i))
    ∧ (d.isShadow = false → ∃ t, exec .resyncAll s = .next t ∧ t.dev.pair = d.pair
        ∧ t.dev.fld pg (F.ERRCNT 7) = min (d.fld pg (F.ERRCNT 7) + 1) 0xFFFFFFFF)
    ∧ (d.isShadow = true → ∃ t, exec .resyncAll s = .next t ∧ ∀ h f, h < 2 → f ∈ d.listedFlows h → d.flowEn h f = true → d.flowFld h f FL_BYPASS ≠ 1 →
        ∃ r ∈ t.dev.pair.resyncs, r.half = h ∧ r.flow = f)
    ∧ (d.takeWrite d.pair.writes = none → exec .mirroredWriteApply s = s.becomes (s.dev.begin .mirroredWriteApply))
    ∧ (∀ w rest, d.takeWrite d.pair.writes = some (w, rest) →
      let g := d.begin .mirroredWriteApply
      let g := (({ g with pair := { g.pair with writes := rest } } : Dev).softWrite w.addr w.val).pairApplied w.addr
      ∃ t, exec .mirroredWriteApply s = .next t ∧ t.pending = s.pending
        ∧ t.dev = (if g.pair.writes.any (fun x => g.writeDue x) then g.schedOnce 0 .mirroredWriteApply else g).settle)
end

