-- ==== Sys2Proof/Laws/Bits.lean ====
section
/-! SUPPORT. Laws of bit fields. -/

namespace Sys2Proof.Machine

theorem bitsOf_lt (x lo wd : Nat) : bitsOf x lo wd < 2 ^ wd := Nat.mod_lt _ (by positivity)

/-- A number with a field replaced, below the field. -/
theorem bitsPut_low (x lo wd v : Nat) : bitsPut x lo wd v % 2 ^ lo = x % 2 ^ lo := by
  unfold bitsPut
  rw [pow_add]
  have : x / (2 ^ lo * 2 ^ wd) * (2 ^ lo * 2 ^ wd) + v % 2 ^ wd * 2 ^ lo + x % 2 ^ lo
      = x % 2 ^ lo + 2 ^ lo * (x / (2 ^ lo * 2 ^ wd) * 2 ^ wd + v % 2 ^ wd) := by ring
  rw [this, Nat.add_mul_mod_self_left, Nat.mod_mod]

/-- From the field up. -/
theorem bitsPut_high (x lo wd v : Nat) : bitsPut x lo wd v / 2 ^ lo = x / 2 ^ (lo + wd) * 2 ^ wd + v % 2 ^ wd := by
  unfold bitsPut
  rw [pow_add]
  have : x / (2 ^ lo * 2 ^ wd) * (2 ^ lo * 2 ^ wd) + v % 2 ^ wd * 2 ^ lo + x % 2 ^ lo
      = x % 2 ^ lo + 2 ^ lo * (x / (2 ^ lo * 2 ^ wd) * 2 ^ wd + v % 2 ^ wd) := by ring
  rw [this, Nat.add_mul_div_left _ _ (by positivity), Nat.div_eq_of_lt (Nat.mod_lt _ (by positivity)), Nat.zero_add]

/-- Above the field. -/
theorem bitsPut_top (x lo wd v : Nat) : bitsPut x lo wd v / 2 ^ (lo + wd) = x / 2 ^ (lo + wd) := by
  conv_lhs => rw [pow_add, ← Nat.div_div_eq_div_mul, bitsPut_high]
  rw [mul_comm, Nat.mul_add_div (by positivity), Nat.div_eq_of_lt (Nat.mod_lt _ (by positivity)), Nat.add_zero]

/-- A field reads what was put into it. -/
@[simp] theorem bitsOf_bitsPut (x lo wd v : Nat) : bitsOf (bitsPut x lo wd v) lo wd = v % 2 ^ wd := by
  unfold bitsOf
  rw [bitsPut_high, mul_comm, Nat.mul_add_mod, Nat.mod_mod]

/-- A field below the one put. -/
theorem bitsOf_bitsPut_below (x lo wd v a w : Nat) (h : a + w ≤ lo) : bitsOf (bitsPut x lo wd v) a w = bitsOf x a w := by
  have key : ∀ y, bitsOf y a w = bitsOf (y % 2 ^ lo) a w := by
    intro y
    unfold bitsOf
    obtain ⟨k, rfl⟩ : ∃ k, lo = a + (w + k) := ⟨lo - a - w, by omega⟩
    rw [pow_add 2 a, Nat.mod_mul_right_div_self, pow_add 2 w, Nat.mod_mul_right_mod]
  rw [key, bitsPut_low, ← key]

/-- A field above the one put. -/
theorem bitsOf_bitsPut_above (x lo wd v a w : Nat) (h : lo + wd ≤ a) : bitsOf (bitsPut x lo wd v) a w = bitsOf x a w := by
  unfold bitsOf
  obtain ⟨k, rfl⟩ : ∃ k, a = lo + wd + k := ⟨a - lo - wd, by omega⟩
  rw [pow_add 2 (lo + wd), ← Nat.div_div_eq_div_mul, ← Nat.div_div_eq_div_mul, bitsPut_top]

/-- A field put into a number of `n` bits stays in it. -/
theorem bitsPut_lt (x lo wd v n : Nat) (hx : x < 2 ^ n) (h : lo + wd ≤ n) : bitsPut x lo wd v < 2 ^ n := by
  obtain ⟨k, rfl⟩ : ∃ k, n = lo + wd + k := ⟨n - lo - wd, by omega⟩
  have ht : bitsPut x lo wd v / 2 ^ (lo + wd) < 2 ^ k := by
    rw [bitsPut_top]
    exact Nat.div_lt_of_lt_mul (by rwa [← pow_add])
  rw [pow_add]
  exact (Nat.div_lt_iff_lt_mul (by positivity)).1 ht |>.trans_eq (mul_comm _ _)

/-- A field of an entry reads what was put into it. -/
theorem eget_eput {n : Nat} (x : BitVec n) (f : Fld) (v : Nat) (h : 8 * f.off + f.lo + f.wd ≤ n) : eget (eput x f v) f = v % 2 ^ f.wd := by
  unfold eget eput
  rw [BitVec.toNat_ofNat, Nat.mod_eq_of_lt (bitsPut_lt _ _ _ _ _ x.isLt h), bitsOf_bitsPut]

/-- Another field of an entry stays. -/
theorem eget_eput_ne {n : Nat} (x : BitVec n) (f g : Fld) (v : Nat) (h : 8 * f.off + f.lo + f.wd ≤ n)
    (hd : 8 * g.off + g.lo + g.wd ≤ 8 * f.off + f.lo ∨ 8 * f.off + f.lo + f.wd ≤ 8 * g.off + g.lo) : eget (eput x f v) g = eget x g := by
  unfold eget eput
  rw [BitVec.toNat_ofNat, Nat.mod_eq_of_lt (bitsPut_lt _ _ _ _ _ x.isLt h)]
  rcases hd with hd | hd
  · exact bitsOf_bitsPut_below _ _ _ _ _ _ hd
  · exact bitsOf_bitsPut_above _ _ _ _ _ _ hd

end Sys2Proof.Machine
end

