-- ==== Sys2Proof/Laws/SMap.lean ====
section
/-! SUPPORT. Laws of sparse storage: reading after a write, and the canonical form every write keeps. -/

namespace Sys2Proof.Machine

variable {α : Type}

/-- Addresses strictly rising, as a proposition. -/
theorem srising_iff (m : SMap α) : srising m = true ↔ (m.map Prod.fst).Pairwise (· < ·) := by
  induction m with
  | nil => simp [srising]
  | cons p r ih =>
    cases r with
    | nil => simp [srising]
    | cons q r =>
      have hstep : srising (p :: q :: r) = (decide (p.1 < q.1) && srising (q :: r)) := rfl
      rw [hstep, Bool.and_eq_true, decide_eq_true_eq, ih]
      simp only [List.map_cons, List.pairwise_cons, List.mem_cons]
      constructor
      · rintro ⟨h, h1, h2⟩
        refine ⟨fun b hb => ?_, h1, h2⟩
        rcases hb with rfl | hb
        · exact h
        · exact lt_trans h (h1 b hb)
      · rintro ⟨h, h1, h2⟩
        exact ⟨h q.1 (Or.inl rfl), h1, h2⟩

/-- Reading where an entry has just been put. -/
@[simp] theorem sget_sins_same (d : α) (a : Nat) (v : α) (m : SMap α) (h : a ∉ m.map Prod.fst) :
    sget d (sins a v m) a = v := by
  induction m with
  | nil => simp [sins, sget]
  | cons p r ih =>
    simp only [List.map_cons, List.mem_cons, not_or] at h
    unfold sins
    split
    · simp [sget]
    · rw [sget, if_neg (fun he => h.1 he.symm), ih h.2]

/-- Reading elsewhere. -/
@[simp] theorem sget_sins_ne (d : α) {a b : Nat} (v : α) (m : SMap α) (h : a ≠ b) : sget d (sins a v m) b = sget d m b := by
  induction m with
  | nil => simp [sins, sget, h]
  | cons p r ih =>
    unfold sins
    split
    · simp [sget, h]
    · simp only [sget, ih]

@[simp] theorem sget_serase_same (d : α) (m : SMap α) (a : Nat) : sget d (serase m a) a = d := by
  induction m with
  | nil => rfl
  | cons p r ih =>
    by_cases h : p.1 = a
    · simpa [serase, List.filter_cons, h] using ih
    · simpa [serase, List.filter_cons, h, sget] using ih

@[simp] theorem sget_serase_ne (d : α) (m : SMap α) {a b : Nat} (h : a ≠ b) : sget d (serase m a) b = sget d m b := by
  induction m with
  | nil => rfl
  | cons p r ih =>
    by_cases hp : p.1 = a
    · have : p.1 ≠ b := fun e => h (hp ▸ e)
      simpa [serase, List.filter_cons, hp, sget, h] using ih
    · by_cases hb : p.1 = b
      · subst hb
        simp [serase, hp, sget]
      · simpa [serase, List.filter_cons, hp, sget, hb] using ih

theorem mem_keys_serase (m : SMap α) (a b : Nat) : b ∈ (serase m a).map Prod.fst ↔ b ∈ m.map Prod.fst ∧ b ≠ a := by
  induction m with
  | nil => simp [serase]
  | cons p r ih =>
    by_cases hp : p.1 = a
    · rw [show serase (p :: r) a = serase r a by simp [serase, hp], ih]
      simp only [List.map_cons, List.mem_cons]
      constructor
      · rintro ⟨h1, h2⟩; exact ⟨Or.inr h1, h2⟩
      · rintro ⟨h1 | h1, h2⟩
        · exact absurd (h1.trans hp) h2
        · exact ⟨h1, h2⟩
    · rw [show serase (p :: r) a = p :: serase r a by simp [serase, hp]]
      simp only [List.map_cons, List.mem_cons, ih]
      constructor
      · rintro (h | ⟨h, h2⟩)
        · exact ⟨Or.inl h, fun e => hp (h ▸ e)⟩
        · exact ⟨Or.inr h, h2⟩
      · rintro ⟨h | h, h2⟩
        · exact Or.inl h
        · exact Or.inr ⟨h, h2⟩

/-- Reading after a write to the same address. -/
@[simp] theorem sget_sset_same [DecidableEq α] (d : α) (m : SMap α) (a : Nat) (v : α) : sget d (sset d m a v) a = v := by
  unfold sset
  split
  · next h => rw [sget_serase_same, h]
  · exact sget_sins_same d a v _ (by rw [mem_keys_serase]; simp)

/-- Reading after a write to another address, whatever the two read as when unlisted. -/
@[simp] theorem sget_sset_ne [DecidableEq α] (d d' : α) (m : SMap α) {a b : Nat} (v : α) (h : a ≠ b) :
    sget d (sset d' m a v) b = sget d m b := by
  unfold sset
  split
  · exact sget_serase_ne d m h
  · rw [sget_sins_ne d v _ h, sget_serase_ne d m h]

/-! The canonical form. -/

theorem keys_sins (a : Nat) (v : α) (m : SMap α) (b : Nat) : b ∈ (sins a v m).map Prod.fst ↔ b = a ∨ b ∈ m.map Prod.fst := by
  induction m with
  | nil => simp [sins]
  | cons p r ih =>
    unfold sins
    split
    · simp
    · simp only [List.map_cons, List.mem_cons, ih]
      tauto

theorem sins_rising (a : Nat) (v : α) (m : SMap α) (h : srising m = true) (ha : a ∉ m.map Prod.fst) : srising (sins a v m) = true := by
  rw [srising_iff] at h ⊢
  induction m with
  | nil => simp [sins]
  | cons p r ih =>
    simp only [List.map_cons, List.mem_cons, not_or] at ha
    simp only [List.map_cons, List.pairwise_cons] at h
    unfold sins
    split
    · next hlt =>
      simp only [List.map_cons, List.pairwise_cons, List.mem_cons]
      refine ⟨fun b hb => ?_, h⟩
      rcases hb with rfl | hb
      · exact hlt
      · exact lt_trans hlt (h.1 b hb)
    · next hge =>
      simp only [List.map_cons, List.pairwise_cons]
      refine ⟨fun b hb => ?_, ih h.2 ha.2⟩
      rcases (keys_sins a v r b).1 hb with rfl | hb
      · exact lt_of_le_of_ne (not_lt.1 hge) (fun e => ha.1 e.symm)
      · exact h.1 b hb

theorem filter_rising (p : Nat × α → Bool) (m : SMap α) (h : srising m = true) : srising (m.filter p) = true := by
  rw [srising_iff] at h ⊢
  exact List.Pairwise.sublist ((List.filter_sublist (p := p)).map Prod.fst) h

/-- A write keeps addresses rising. -/
theorem sset_rising [DecidableEq α] (d : α) (m : SMap α) (a : Nat) (v : α) (h : srising m = true) : srising (sset d m a v) = true := by
  unfold sset
  split
  · exact filter_rising _ m h
  · exact sins_rising a v _ (filter_rising _ m h) (by rw [mem_keys_serase]; simp)

theorem mem_sins (a : Nat) (v : α) (m : SMap α) (p : Nat × α) : p ∈ sins a v m ↔ p = (a, v) ∨ p ∈ m := by
  induction m with
  | nil => simp [sins]
  | cons q r ih =>
    unfold sins
    split
    · simp
    · simp only [List.mem_cons, ih]
      tauto

/-- A write keeps the canonical form. -/
theorem sset_wf [DecidableEq α] (f : Nat → α) (m : SMap α) (a : Nat) (v : α) (h : swfBy f m = true) :
    swfBy f (sset (f a) m a v) = true := by
  simp only [swfBy, Bool.and_eq_true, List.all_eq_true, decide_eq_true_eq] at h ⊢
  refine ⟨sset_rising (f a) m a v h.1, fun p hp => ?_⟩
  unfold sset at hp
  split at hp
  · exact h.2 p (List.mem_of_mem_filter hp)
  · next hv =>
    rcases (mem_sins a v _ p).1 hp with rfl | hp
    · exact hv
    · exact h.2 p (List.mem_of_mem_filter hp)

/-- Dropping entries keeps the canonical form. -/
theorem filter_wf [DecidableEq α] (f : Nat → α) (p : Nat × α → Bool) (m : SMap α) (h : swfBy f m = true) :
    swfBy f (m.filter p) = true := by
  simp only [swfBy, Bool.and_eq_true, List.all_eq_true, decide_eq_true_eq] at h ⊢
  exact ⟨filter_rising p m h.1, fun q hq => h.2 q (List.mem_of_mem_filter hq)⟩

end Sys2Proof.Machine
end

