-- ==== Sys2Proof/Laws/Cells.lean ====
section
/-! SUPPORT. Laws of the user flip-flops: what a CK's edges leave alone, what a cluster with an edge takes, what a release shows. -/

namespace Sys2Proof.Machine

/-- A pass over a list that writes some of its keys leaves a key it does not write. -/
theorem sget_foldl_other {α β : Type} [DecidableEq α] (z : α) (p : Nat × β → Bool) (g : Nat × β → α) (a : Nat) (l : List (Nat × β)) (m : SMap α)
    (h : ∀ e ∈ l, e.1 = a → p e = false) : sget z (l.foldl (fun m e => if p e then sset z m e.1 (g e) else m) m) a = sget z m a := by
  induction l generalizing m with
  | nil => rfl
  | cons x r ih =>
    rw [List.foldl_cons, ih _ (fun e he => h e (List.mem_cons_of_mem _ he))]
    by_cases hp : p x = true
    · have hx : x.1 ≠ a := fun e => by simp [h x List.mem_cons_self e] at hp
      simp only [hp, if_true]
      exact sget_sset_ne _ _ _ _ hx
    · simp [hp]

/-- With keys that rise, a key it writes holds what it writes. -/
theorem sget_foldl_at {α β : Type} [DecidableEq α] (z : α) (p : Nat × β → Bool) (g : Nat × β → α) (x : Nat × β) (l : List (Nat × β)) (m : SMap α)
    (hl : (l.map Prod.fst).Pairwise (· < ·)) (hx : x ∈ l) (hp : p x = true) :
    sget z (l.foldl (fun m e => if p e then sset z m e.1 (g e) else m) m) x.1 = g x := by
  induction l generalizing m with
  | nil => simp at hx
  | cons y r ih =>
    rw [List.map_cons, List.pairwise_cons] at hl
    rw [List.foldl_cons]
    rcases List.mem_cons.1 hx with rfl | hr
    · rw [sget_foldl_other]
      · simp [hp]
      · intro e he ee
        exact absurd (hl.1 e.1 (List.mem_map_of_mem he)) (by omega)
    · exact ih _ hl.2 hr

/-- A cluster with no edge in this CK keeps its flip-flops (R300). -/
theorem Dev.ffsNext_still (d : Dev) (a : Nat) (h : d.clusterEdge a = false) : sget 0#32 d.ffsNext a = sget 0#32 d.fab.ffs a :=
  sget_foldl_other _ (fun e => d.clusterEdge e.1) _ _ _ _ (fun _ _ he => he ▸ h)

/-- A cluster with an edge takes what its frame and its inputs give. -/
theorem Dev.ffsNext_edge (d : Dev) (a : Nat) (f : BitVec 2048) (hs : srising d.fab.clusters = true) (hf : (a, f) ∈ d.fab.clusters)
    (h : d.clusterEdge a = true) : sget 0#32 d.ffsNext a = d.clusterNext a :=
  sget_foldl_at _ (fun e => d.clusterEdge e.1) (fun e => d.clusterNext e.1) (a, f) _ _ ((srising_iff _).1 hs) hf h

/-- With keys that rise, an entry is what its key holds. -/
theorem sget_of_mem {α : Type} (z : α) (x : Nat × α) (m : SMap α) (hm : (m.map Prod.fst).Pairwise (· < ·)) (hx : x ∈ m) :
    sget z m x.1 = x.2 := by
  induction m with
  | nil => simp at hx
  | cons y r ih =>
    rw [List.map_cons, List.pairwise_cons] at hm
    rcases List.mem_cons.1 hx with rfl | hr
    · simp [sget]
    · have h : y.1 ≠ x.1 := fun e => absurd (hm.1 x.1 (List.mem_map_of_mem hr)) (by omega)
      simp only [sget, h, if_false]
      exact ih hm.2 hr

/-- A key with no entry reads as an unlisted one. -/
theorem sget_of_not_mem {α : Type} (z : α) (a : Nat) (m : SMap α) (h : ∀ e ∈ m, e.1 ≠ a) : sget z m a = z := by
  induction m with
  | nil => rfl
  | cons y r ih =>
    have hy : y.1 ≠ a := h y List.mem_cons_self
    simp only [sget, hy, if_false]
    exact ih (fun e he => h e (List.mem_cons_of_mem _ he))

/-- The release of a bay shows every flip-flop of the bay at the INIT value of its frame (R361). -/
theorem Dev.ffsRelease_init (d : Dev) (b a : Nat) (hs : srising d.fab.clusters = true) (ha : a / 53760 = b) :
    sget 0#32 (d.ffsRelease b).fab.ffs a = clusterInit (d.frame a) := by
  have hp := (srising_iff _).1 hs
  simp only [Dev.ffsRelease, Dev.onFab, ffsInit, Dev.frame]
  by_cases h : ∃ f, (a, f) ∈ d.fab.clusters
  · obtain ⟨f, hf⟩ := h
    have hq := (srising_iff _).1 (filter_rising (fun e => decide (e.1 / 53760 = b)) _ hs)
    have := sget_foldl_at 0#32 (fun _ => true) (fun e => clusterInit e.2) (a, f) _
      (d.fab.ffs.filter (fun e => decide (e.1 / 53760 ≠ b))) hq (by simp [hf, ha]) rfl
    rw [sget_of_mem _ (a, f) _ hp hf]
    simpa using this
  · have hn : ∀ e ∈ d.fab.clusters, e.1 ≠ a := fun e he ee => h ⟨e.2, by rw [← ee]; exact he⟩
    have := sget_foldl_other 0#32 (fun _ => true) (fun e => clusterInit e.2) a (d.fab.clusters.filter (fun e => decide (e.1 / 53760 = b)))
      (d.fab.ffs.filter (fun e => decide (e.1 / 53760 ≠ b))) (fun e he ee => absurd ee (hn e (List.mem_filter.1 he).1))
    simp only [if_true] at this
    rw [this, sget_of_not_mem _ _ _ hn, sget_of_not_mem]
    · decide +kernel
    · intro e he ee
      have := (List.mem_filter.1 he).2
      simp [ee, ha] at this

end Sys2Proof.Machine
end

