-- ==== Sys2Proof/Laws/State.lean ====
section
/-! SUPPORT. Each field of the block after each of the named updates: what the update sets, or what stood there before. -/

namespace Sys2Proof.Machine

/-! `setReg`. -/

@[simp] theorem Dev.setReg_rst (d : Dev) (pg off : Nat) (v : Word) : (d.setReg pg off v).rst = d.rst := rfl
@[simp] theorem Dev.setReg_sources (d : Dev) (pg off : Nat) (v : Word) : (d.setReg pg off v).sources = d.sources := rfl
@[simp] theorem Dev.setReg_started (d : Dev) (pg off : Nat) (v : Word) : (d.setReg pg off v).started = d.started := rfl
@[simp] theorem Dev.setReg_thermTrip (d : Dev) (pg off : Nat) (v : Word) : (d.setReg pg off v).thermTrip = d.thermTrip := rfl
@[simp] theorem Dev.setReg_modeTarget (d : Dev) (pg off : Nat) (v : Word) : (d.setReg pg off v).modeTarget = d.modeTarget := rfl
@[simp] theorem Dev.setReg_reqCk (d : Dev) (pg off : Nat) (v : Word) : (d.setReg pg off v).reqCk = d.reqCk := rfl
@[simp] theorem Dev.setReg_readyCk (d : Dev) (pg off : Nat) (v : Word) : (d.setReg pg off v).readyCk = d.readyCk := rfl
@[simp] theorem Dev.setReg_offEntry (d : Dev) (pg off : Nat) (v : Word) : (d.setReg pg off v).offEntry = d.offEntry := rfl
@[simp] theorem Dev.setReg_safeEntry (d : Dev) (pg off : Nat) (v : Word) : (d.setReg pg off v).safeEntry = d.safeEntry := rfl
@[simp] theorem Dev.setReg_safeCk (d : Dev) (pg off : Nat) (v : Word) : (d.setReg pg off v).safeCk = d.safeCk := rfl
@[simp] theorem Dev.setReg_safeDue (d : Dev) (pg off : Nat) (v : Word) : (d.setReg pg off v).safeDue = d.safeDue := rfl
@[simp] theorem Dev.setReg_south (d : Dev) (pg off : Nat) (v : Word) : (d.setReg pg off v).south = d.south := rfl
@[simp] theorem Dev.setReg_waking (d : Dev) (pg off : Nat) (v : Word) : (d.setReg pg off v).waking = d.waking := rfl
@[simp] theorem Dev.setReg_lanesBegun (d : Dev) (pg off : Nat) (v : Word) : (d.setReg pg off v).lanesBegun = d.lanesBegun := rfl
@[simp] theorem Dev.setReg_lanesDue (d : Dev) (pg off : Nat) (v : Word) : (d.setReg pg off v).lanesDue = d.lanesDue := rfl
@[simp] theorem Dev.setReg_ins (d : Dev) (pg off : Nat) (v : Word) : (d.setReg pg off v).ins = d.ins := rfl
@[simp] theorem Dev.setReg_pins (d : Dev) (pg off : Nat) (v : Word) : (d.setReg pg off v).pins = d.pins := rfl
@[simp] theorem Dev.setReg_ck (d : Dev) (pg off : Nat) (v : Word) : (d.setReg pg off v).ck = d.ck := rfl
@[simp] theorem Dev.setReg_log (d : Dev) (pg off : Nat) (v : Word) : (d.setReg pg off v).log = d.log := rfl
@[simp] theorem Dev.setReg_out (d : Dev) (pg off : Nat) (v : Word) : (d.setReg pg off v).out = d.out := rfl
@[simp] theorem Dev.setReg_agenda (d : Dev) (pg off : Nat) (v : Word) : (d.setReg pg off v).agenda = d.agenda := rfl
@[simp] theorem Dev.setReg_latch (d : Dev) (pg off : Nat) (v : Word) : (d.setReg pg off v).latch = d.latch := rfl
@[simp] theorem Dev.setReg_lineLog (d : Dev) (pg off : Nat) (v : Word) : (d.setReg pg off v).lineLog = d.lineLog := rfl
@[simp] theorem Dev.setReg_msix (d : Dev) (pg off : Nat) (v : Word) : (d.setReg pg off v).msix = d.msix := rfl
@[simp] theorem Dev.setReg_msixPend (d : Dev) (pg off : Nat) (v : Word) : (d.setReg pg off v).msixPend = d.msixPend := rfl
@[simp] theorem Dev.setReg_lanes (d : Dev) (pg off : Nat) (v : Word) : (d.setReg pg off v).lanes = d.lanes := rfl
@[simp] theorem Dev.setReg_recs (d : Dev) (pg off : Nat) (v : Word) : (d.setReg pg off v).recs = d.recs := rfl
@[simp] theorem Dev.setReg_nextRid (d : Dev) (pg off : Nat) (v : Word) : (d.setReg pg off v).nextRid = d.nextRid := rfl
@[simp] theorem Dev.setReg_lpc (d : Dev) (pg off : Nat) (v : Word) : (d.setReg pg off v).lpc = d.lpc := rfl
@[simp] theorem Dev.setReg_evs (d : Dev) (pg off : Nat) (v : Word) : (d.setReg pg off v).evs = d.evs := rfl
@[simp] theorem Dev.setReg_evsLate (d : Dev) (pg off : Nat) (v : Word) : (d.setReg pg off v).evsLate = d.evsLate := rfl
@[simp] theorem Dev.setReg_evsRan (d : Dev) (pg off : Nat) (v : Word) : (d.setReg pg off v).evsRan = d.evsRan := rfl
@[simp] theorem Dev.setReg_evsFired (d : Dev) (pg off : Nat) (v : Word) : (d.setReg pg off v).evsFired = d.evsFired := rfl
@[simp] theorem Dev.setReg_rules (d : Dev) (pg off : Nat) (v : Word) : (d.setReg pg off v).rules = d.rules := rfl
@[simp] theorem Dev.setReg_seqStates (d : Dev) (pg off : Nat) (v : Word) : (d.setReg pg off v).seqStates = d.seqStates := rfl
@[simp] theorem Dev.setReg_seqSlots (d : Dev) (pg off : Nat) (v : Word) : (d.setReg pg off v).seqSlots = d.seqSlots := rfl
@[simp] theorem Dev.setReg_seqSel (d : Dev) (pg off : Nat) (v : Word) : (d.setReg pg off v).seqSel = d.seqSel := rfl
@[simp] theorem Dev.setReg_seqs (d : Dev) (pg off : Nat) (v : Word) : (d.setReg pg off v).seqs = d.seqs := rfl
@[simp] theorem Dev.setReg_trigEvs (d : Dev) (pg off : Nat) (v : Word) : (d.setReg pg off v).trigEvs = d.trigEvs := rfl
@[simp] theorem Dev.setReg_bridgeOut (d : Dev) (pg off : Nat) (v : Word) : (d.setReg pg off v).bridgeOut = d.bridgeOut := rfl
@[simp] theorem Dev.setReg_flying (d : Dev) (pg off : Nat) (v : Word) : (d.setReg pg off v).flying = d.flying := rfl
@[simp] theorem Dev.setReg_stimIn (d : Dev) (pg off : Nat) (v : Word) : (d.setReg pg off v).stimIn = d.stimIn := rfl
@[simp] theorem Dev.setReg_stims (d : Dev) (pg off : Nat) (v : Word) : (d.setReg pg off v).stims = d.stims := rfl
@[simp] theorem Dev.setReg_plays (d : Dev) (pg off : Nat) (v : Word) : (d.setReg pg off v).plays = d.plays := rfl
@[simp] theorem Dev.setReg_tmpls (d : Dev) (pg off : Nat) (v : Word) : (d.setReg pg off v).tmpls = d.tmpls := rfl
@[simp] theorem Dev.setReg_allocs (d : Dev) (pg off : Nat) (v : Word) : (d.setReg pg off v).allocs = d.allocs := rfl
@[simp] theorem Dev.setReg_flows (d : Dev) (pg off : Nat) (v : Word) : (d.setReg pg off v).flows = d.flows := rfl
@[simp] theorem Dev.setReg_nums (d : Dev) (pg off : Nat) (v : Word) : (d.setReg pg off v).nums = d.nums := rfl
@[simp] theorem Dev.setReg_runs (d : Dev) (pg off : Nat) (v : Word) : (d.setReg pg off v).runs = d.runs := rfl
@[simp] theorem Dev.setReg_closing (d : Dev) (pg off : Nat) (v : Word) : (d.setReg pg off v).closing = d.closing := rfl
@[simp] theorem Dev.setReg_frozeLp (d : Dev) (pg off : Nat) (v : Word) : (d.setReg pg off v).frozeLp = d.frozeLp := rfl
@[simp] theorem Dev.setReg_cq (d : Dev) (pg off : Nat) (v : Word) : (d.setReg pg off v).cq = d.cq := rfl
@[simp] theorem Dev.setReg_mem (d : Dev) (pg off : Nat) (v : Word) : (d.setReg pg off v).mem = d.mem := rfl
@[simp] theorem Dev.setReg_chk (d : Dev) (pg off : Nat) (v : Word) : (d.setReg pg off v).chk = d.chk := rfl
@[simp] theorem Dev.setReg_subs (d : Dev) (pg off : Nat) (v : Word) : (d.setReg pg off v).subs = d.subs := rfl
@[simp] theorem Dev.setReg_dtx (d : Dev) (pg off : Nat) (v : Word) : (d.setReg pg off v).dtx = d.dtx := rfl
@[simp] theorem Dev.setReg_nextTx (d : Dev) (pg off : Nat) (v : Word) : (d.setReg pg off v).nextTx = d.nextTx := rfl
@[simp] theorem Dev.setReg_drcs (d : Dev) (pg off : Nat) (v : Word) : (d.setReg pg off v).drcs = d.drcs := rfl
@[simp] theorem Dev.setReg_memis (d : Dev) (pg off : Nat) (v : Word) : (d.setReg pg off v).memis = d.memis := rfl
@[simp] theorem Dev.setReg_crypts (d : Dev) (pg off : Nat) (v : Word) : (d.setReg pg off v).crypts = d.crypts := rfl
@[simp] theorem Dev.setReg_fuses (d : Dev) (pg off : Nat) (v : Word) : (d.setReg pg off v).fuses = d.fuses := rfl
@[simp] theorem Dev.setReg_fab (d : Dev) (pg off : Nat) (v : Word) : (d.setReg pg off v).fab = d.fab := rfl
@[simp] theorem Dev.setReg_bays (d : Dev) (pg off : Nat) (v : Word) : (d.setReg pg off v).bays = d.bays := rfl
@[simp] theorem Dev.setReg_scrub (d : Dev) (pg off : Nat) (v : Word) : (d.setReg pg off v).scrub = d.scrub := rfl
@[simp] theorem Dev.setReg_cfg (d : Dev) (pg off : Nat) (v : Word) : (d.setReg pg off v).cfg = d.cfg := rfl
@[simp] theorem Dev.setReg_startCk (d : Dev) (pg off : Nat) (v : Word) : (d.setReg pg off v).startCk = d.startCk := rfl
@[simp] theorem Dev.setReg_pmc (d : Dev) (pg off : Nat) (v : Word) : (d.setReg pg off v).pmc = d.pmc := rfl
@[simp] theorem Dev.setReg_dmas (d : Dev) (pg off : Nat) (v : Word) : (d.setReg pg off v).dmas = d.dmas := rfl
@[simp] theorem Dev.setReg_dmaTurn (d : Dev) (pg off : Nat) (v : Word) : (d.setReg pg off v).dmaTurn = d.dmaTurn := rfl
@[simp] theorem Dev.setReg_exts (d : Dev) (pg off : Nat) (v : Word) : (d.setReg pg off v).exts = d.exts := rfl
@[simp] theorem Dev.setReg_opened (d : Dev) (pg off : Nat) (v : Word) : (d.setReg pg off v).opened = d.opened := rfl
@[simp] theorem Dev.setReg_nextOpen (d : Dev) (pg off : Nat) (v : Word) : (d.setReg pg off v).nextOpen = d.nextOpen := rfl
@[simp] theorem Dev.setReg_plus (d : Dev) (pg off : Nat) (v : Word) : (d.setReg pg off v).plus = d.plus := rfl
@[simp] theorem Dev.setReg_handovers (d : Dev) (pg off : Nat) (v : Word) : (d.setReg pg off v).handovers = d.handovers := rfl
@[simp] theorem Dev.setReg_jrnTx (d : Dev) (pg off : Nat) (v : Word) : (d.setReg pg off v).jrnTx = d.jrnTx := rfl
@[simp] theorem Dev.setReg_meta64 (d : Dev) (pg off : Nat) (v : Word) : (d.setReg pg off v).meta64 = d.meta64 := rfl
@[simp] theorem Dev.setReg_offers (d : Dev) (pg off : Nat) (v : Word) : (d.setReg pg off v).offers = d.offers := rfl
@[simp] theorem Dev.setReg_capReads (d : Dev) (pg off : Nat) (v : Word) : (d.setReg pg off v).capReads = d.capReads := rfl
@[simp] theorem Dev.setReg_nextRead (d : Dev) (pg off : Nat) (v : Word) : (d.setReg pg off v).nextRead = d.nextRead := rfl
@[simp] theorem Dev.setReg_seeks (d : Dev) (pg off : Nat) (v : Word) : (d.setReg pg off v).seeks = d.seeks := rfl
@[simp] theorem Dev.setReg_descReads (d : Dev) (pg off : Nat) (v : Word) : (d.setReg pg off v).descReads = d.descReads := rfl
@[simp] theorem Dev.setReg_engs (d : Dev) (pg off : Nat) (v : Word) : (d.setReg pg off v).engs = d.engs := rfl
@[simp] theorem Dev.setReg_dbgs (d : Dev) (pg off : Nat) (v : Word) : (d.setReg pg off v).dbgs = d.dbgs := rfl
@[simp] theorem Dev.setReg_gks (d : Dev) (pg off : Nat) (v : Word) : (d.setReg pg off v).gks = d.gks := rfl
@[simp] theorem Dev.setReg_bayQ (d : Dev) (pg off : Nat) (v : Word) : (d.setReg pg off v).bayQ = d.bayQ := rfl
@[simp] theorem Dev.setReg_spQ (d : Dev) (pg off : Nat) (v : Word) : (d.setReg pg off v).spQ = d.spQ := rfl
@[simp] theorem Dev.setReg_resvs (d : Dev) (pg off : Nat) (v : Word) : (d.setReg pg off v).resvs = d.resvs := rfl
@[simp] theorem Dev.setReg_nocReqs (d : Dev) (pg off : Nat) (v : Word) : (d.setReg pg off v).nocReqs = d.nocReqs := rfl
@[simp] theorem Dev.setReg_nextNoc (d : Dev) (pg off : Nat) (v : Word) : (d.setReg pg off v).nextNoc = d.nextNoc := rfl
@[simp] theorem Dev.setReg_nocs (d : Dev) (pg off : Nat) (v : Word) : (d.setReg pg off v).nocs = d.nocs := rfl
@[simp] theorem Dev.setReg_linkRuns (d : Dev) (pg off : Nat) (v : Word) : (d.setReg pg off v).linkRuns = d.linkRuns := rfl
@[simp] theorem Dev.setReg_tests (d : Dev) (pg off : Nat) (v : Word) : (d.setReg pg off v).tests = d.tests := rfl
@[simp] theorem Dev.setReg_ctx (d : Dev) (pg off : Nat) (v : Word) : (d.setReg pg off v).ctx = d.ctx := rfl
@[simp] theorem Dev.setReg_ctxBad (d : Dev) (pg off : Nat) (v : Word) : (d.setReg pg off v).ctxBad = d.ctxBad := rfl
@[simp] theorem Dev.setReg_imem (d : Dev) (pg off : Nat) (v : Word) : (d.setReg pg off v).imem = d.imem := rfl
@[simp] theorem Dev.setReg_epochs (d : Dev) (pg off : Nat) (v : Word) : (d.setReg pg off v).epochs = d.epochs := rfl
@[simp] theorem Dev.setReg_alignRecs (d : Dev) (pg off : Nat) (v : Word) : (d.setReg pg off v).alignRecs = d.alignRecs := rfl
@[simp] theorem Dev.setReg_holds (d : Dev) (pg off : Nat) (v : Word) : (d.setReg pg off v).holds = d.holds := rfl
@[simp] theorem Dev.setReg_pair (d : Dev) (pg off : Nat) (v : Word) : (d.setReg pg off v).pair = d.pair := rfl
@[simp] theorem Dev.setReg_hostEvs (d : Dev) (pg off : Nat) (v : Word) : (d.setReg pg off v).hostEvs = d.hostEvs := rfl
@[simp] theorem Dev.setReg_evtPhase (d : Dev) (pg off : Nat) (v : Word) : (d.setReg pg off v).evtPhase = d.evtPhase := rfl
@[simp] theorem Dev.setReg_hcmd (d : Dev) (pg off : Nat) (v : Word) : (d.setReg pg off v).hcmd = d.hcmd := rfl
@[simp] theorem Dev.setReg_fetching (d : Dev) (pg off : Nat) (v : Word) : (d.setReg pg off v).fetching = d.fetching := rfl
@[simp] theorem Dev.setReg_cmdBell (d : Dev) (pg off : Nat) (v : Word) : (d.setReg pg off v).cmdBell = d.cmdBell := rfl
@[simp] theorem Dev.setReg_boot (d : Dev) (pg off : Nat) (v : Word) : (d.setReg pg off v).boot = d.boot := rfl
@[simp] theorem Dev.setReg_tokenCk (d : Dev) (pg off : Nat) (v : Word) : (d.setReg pg off v).tokenCk = d.tokenCk := rfl

/-! `setLog`. -/

@[simp] theorem Dev.setLog_rst (d : Dev) (l : CkLog) : (d.setLog l).rst = d.rst := rfl
@[simp] theorem Dev.setLog_sources (d : Dev) (l : CkLog) : (d.setLog l).sources = d.sources := rfl
@[simp] theorem Dev.setLog_started (d : Dev) (l : CkLog) : (d.setLog l).started = d.started := rfl
@[simp] theorem Dev.setLog_thermTrip (d : Dev) (l : CkLog) : (d.setLog l).thermTrip = d.thermTrip := rfl
@[simp] theorem Dev.setLog_modeTarget (d : Dev) (l : CkLog) : (d.setLog l).modeTarget = d.modeTarget := rfl
@[simp] theorem Dev.setLog_reqCk (d : Dev) (l : CkLog) : (d.setLog l).reqCk = d.reqCk := rfl
@[simp] theorem Dev.setLog_readyCk (d : Dev) (l : CkLog) : (d.setLog l).readyCk = d.readyCk := rfl
@[simp] theorem Dev.setLog_offEntry (d : Dev) (l : CkLog) : (d.setLog l).offEntry = d.offEntry := rfl
@[simp] theorem Dev.setLog_safeEntry (d : Dev) (l : CkLog) : (d.setLog l).safeEntry = d.safeEntry := rfl
@[simp] theorem Dev.setLog_safeCk (d : Dev) (l : CkLog) : (d.setLog l).safeCk = d.safeCk := rfl
@[simp] theorem Dev.setLog_safeDue (d : Dev) (l : CkLog) : (d.setLog l).safeDue = d.safeDue := rfl
@[simp] theorem Dev.setLog_south (d : Dev) (l : CkLog) : (d.setLog l).south = d.south := rfl
@[simp] theorem Dev.setLog_waking (d : Dev) (l : CkLog) : (d.setLog l).waking = d.waking := rfl
@[simp] theorem Dev.setLog_lanesBegun (d : Dev) (l : CkLog) : (d.setLog l).lanesBegun = d.lanesBegun := rfl
@[simp] theorem Dev.setLog_lanesDue (d : Dev) (l : CkLog) : (d.setLog l).lanesDue = d.lanesDue := rfl
@[simp] theorem Dev.setLog_ins (d : Dev) (l : CkLog) : (d.setLog l).ins = d.ins := rfl
@[simp] theorem Dev.setLog_pins (d : Dev) (l : CkLog) : (d.setLog l).pins = d.pins := rfl
@[simp] theorem Dev.setLog_ck (d : Dev) (l : CkLog) : (d.setLog l).ck = d.ck := rfl
@[simp] theorem Dev.setLog_regs (d : Dev) (l : CkLog) : (d.setLog l).regs = d.regs := rfl
@[simp] theorem Dev.setLog_out (d : Dev) (l : CkLog) : (d.setLog l).out = d.out := rfl
@[simp] theorem Dev.setLog_agenda (d : Dev) (l : CkLog) : (d.setLog l).agenda = d.agenda := rfl
@[simp] theorem Dev.setLog_latch (d : Dev) (l : CkLog) : (d.setLog l).latch = d.latch := rfl
@[simp] theorem Dev.setLog_lineLog (d : Dev) (l : CkLog) : (d.setLog l).lineLog = d.lineLog := rfl
@[simp] theorem Dev.setLog_msix (d : Dev) (l : CkLog) : (d.setLog l).msix = d.msix := rfl
@[simp] theorem Dev.setLog_msixPend (d : Dev) (l : CkLog) : (d.setLog l).msixPend = d.msixPend := rfl
@[simp] theorem Dev.setLog_lanes (d : Dev) (l : CkLog) : (d.setLog l).lanes = d.lanes := rfl
@[simp] theorem Dev.setLog_recs (d : Dev) (l : CkLog) : (d.setLog l).recs = d.recs := rfl
@[simp] theorem Dev.setLog_nextRid (d : Dev) (l : CkLog) : (d.setLog l).nextRid = d.nextRid := rfl
@[simp] theorem Dev.setLog_lpc (d : Dev) (l : CkLog) : (d.setLog l).lpc = d.lpc := rfl
@[simp] theorem Dev.setLog_evs (d : Dev) (l : CkLog) : (d.setLog l).evs = d.evs := rfl
@[simp] theorem Dev.setLog_evsLate (d : Dev) (l : CkLog) : (d.setLog l).evsLate = d.evsLate := rfl
@[simp] theorem Dev.setLog_evsRan (d : Dev) (l : CkLog) : (d.setLog l).evsRan = d.evsRan := rfl
@[simp] theorem Dev.setLog_evsFired (d : Dev) (l : CkLog) : (d.setLog l).evsFired = d.evsFired := rfl
@[simp] theorem Dev.setLog_rules (d : Dev) (l : CkLog) : (d.setLog l).rules = d.rules := rfl
@[simp] theorem Dev.setLog_seqStates (d : Dev) (l : CkLog) : (d.setLog l).seqStates = d.seqStates := rfl
@[simp] theorem Dev.setLog_seqSlots (d : Dev) (l : CkLog) : (d.setLog l).seqSlots = d.seqSlots := rfl
@[simp] theorem Dev.setLog_seqSel (d : Dev) (l : CkLog) : (d.setLog l).seqSel = d.seqSel := rfl
@[simp] theorem Dev.setLog_seqs (d : Dev) (l : CkLog) : (d.setLog l).seqs = d.seqs := rfl
@[simp] theorem Dev.setLog_trigEvs (d : Dev) (l : CkLog) : (d.setLog l).trigEvs = d.trigEvs := rfl
@[simp] theorem Dev.setLog_bridgeOut (d : Dev) (l : CkLog) : (d.setLog l).bridgeOut = d.bridgeOut := rfl
@[simp] theorem Dev.setLog_flying (d : Dev) (l : CkLog) : (d.setLog l).flying = d.flying := rfl
@[simp] theorem Dev.setLog_stimIn (d : Dev) (l : CkLog) : (d.setLog l).stimIn = d.stimIn := rfl
@[simp] theorem Dev.setLog_stims (d : Dev) (l : CkLog) : (d.setLog l).stims = d.stims := rfl
@[simp] theorem Dev.setLog_plays (d : Dev) (l : CkLog) : (d.setLog l).plays = d.plays := rfl
@[simp] theorem Dev.setLog_tmpls (d : Dev) (l : CkLog) : (d.setLog l).tmpls = d.tmpls := rfl
@[simp] theorem Dev.setLog_allocs (d : Dev) (l : CkLog) : (d.setLog l).allocs = d.allocs := rfl
@[simp] theorem Dev.setLog_flows (d : Dev) (l : CkLog) : (d.setLog l).flows = d.flows := rfl
@[simp] theorem Dev.setLog_nums (d : Dev) (l : CkLog) : (d.setLog l).nums = d.nums := rfl
@[simp] theorem Dev.setLog_runs (d : Dev) (l : CkLog) : (d.setLog l).runs = d.runs := rfl
@[simp] theorem Dev.setLog_closing (d : Dev) (l : CkLog) : (d.setLog l).closing = d.closing := rfl
@[simp] theorem Dev.setLog_frozeLp (d : Dev) (l : CkLog) : (d.setLog l).frozeLp = d.frozeLp := rfl
@[simp] theorem Dev.setLog_cq (d : Dev) (l : CkLog) : (d.setLog l).cq = d.cq := rfl
@[simp] theorem Dev.setLog_mem (d : Dev) (l : CkLog) : (d.setLog l).mem = d.mem := rfl
@[simp] theorem Dev.setLog_chk (d : Dev) (l : CkLog) : (d.setLog l).chk = d.chk := rfl
@[simp] theorem Dev.setLog_subs (d : Dev) (l : CkLog) : (d.setLog l).subs = d.subs := rfl
@[simp] theorem Dev.setLog_dtx (d : Dev) (l : CkLog) : (d.setLog l).dtx = d.dtx := rfl
@[simp] theorem Dev.setLog_nextTx (d : Dev) (l : CkLog) : (d.setLog l).nextTx = d.nextTx := rfl
@[simp] theorem Dev.setLog_drcs (d : Dev) (l : CkLog) : (d.setLog l).drcs = d.drcs := rfl
@[simp] theorem Dev.setLog_memis (d : Dev) (l : CkLog) : (d.setLog l).memis = d.memis := rfl
@[simp] theorem Dev.setLog_crypts (d : Dev) (l : CkLog) : (d.setLog l).crypts = d.crypts := rfl
@[simp] theorem Dev.setLog_fuses (d : Dev) (l : CkLog) : (d.setLog l).fuses = d.fuses := rfl
@[simp] theorem Dev.setLog_fab (d : Dev) (l : CkLog) : (d.setLog l).fab = d.fab := rfl
@[simp] theorem Dev.setLog_bays (d : Dev) (l : CkLog) : (d.setLog l).bays = d.bays := rfl
@[simp] theorem Dev.setLog_scrub (d : Dev) (l : CkLog) : (d.setLog l).scrub = d.scrub := rfl
@[simp] theorem Dev.setLog_cfg (d : Dev) (l : CkLog) : (d.setLog l).cfg = d.cfg := rfl
@[simp] theorem Dev.setLog_startCk (d : Dev) (l : CkLog) : (d.setLog l).startCk = d.startCk := rfl
@[simp] theorem Dev.setLog_pmc (d : Dev) (l : CkLog) : (d.setLog l).pmc = d.pmc := rfl
@[simp] theorem Dev.setLog_dmas (d : Dev) (l : CkLog) : (d.setLog l).dmas = d.dmas := rfl
@[simp] theorem Dev.setLog_dmaTurn (d : Dev) (l : CkLog) : (d.setLog l).dmaTurn = d.dmaTurn := rfl
@[simp] theorem Dev.setLog_exts (d : Dev) (l : CkLog) : (d.setLog l).exts = d.exts := rfl
@[simp] theorem Dev.setLog_opened (d : Dev) (l : CkLog) : (d.setLog l).opened = d.opened := rfl
@[simp] theorem Dev.setLog_nextOpen (d : Dev) (l : CkLog) : (d.setLog l).nextOpen = d.nextOpen := rfl
@[simp] theorem Dev.setLog_plus (d : Dev) (l : CkLog) : (d.setLog l).plus = d.plus := rfl
@[simp] theorem Dev.setLog_handovers (d : Dev) (l : CkLog) : (d.setLog l).handovers = d.handovers := rfl
@[simp] theorem Dev.setLog_jrnTx (d : Dev) (l : CkLog) : (d.setLog l).jrnTx = d.jrnTx := rfl
@[simp] theorem Dev.setLog_meta64 (d : Dev) (l : CkLog) : (d.setLog l).meta64 = d.meta64 := rfl
@[simp] theorem Dev.setLog_offers (d : Dev) (l : CkLog) : (d.setLog l).offers = d.offers := rfl
@[simp] theorem Dev.setLog_capReads (d : Dev) (l : CkLog) : (d.setLog l).capReads = d.capReads := rfl
@[simp] theorem Dev.setLog_nextRead (d : Dev) (l : CkLog) : (d.setLog l).nextRead = d.nextRead := rfl
@[simp] theorem Dev.setLog_seeks (d : Dev) (l : CkLog) : (d.setLog l).seeks = d.seeks := rfl
@[simp] theorem Dev.setLog_descReads (d : Dev) (l : CkLog) : (d.setLog l).descReads = d.descReads := rfl
@[simp] theorem Dev.setLog_engs (d : Dev) (l : CkLog) : (d.setLog l).engs = d.engs := rfl
@[simp] theorem Dev.setLog_dbgs (d : Dev) (l : CkLog) : (d.setLog l).dbgs = d.dbgs := rfl
@[simp] theorem Dev.setLog_gks (d : Dev) (l : CkLog) : (d.setLog l).gks = d.gks := rfl
@[simp] theorem Dev.setLog_bayQ (d : Dev) (l : CkLog) : (d.setLog l).bayQ = d.bayQ := rfl
@[simp] theorem Dev.setLog_spQ (d : Dev) (l : CkLog) : (d.setLog l).spQ = d.spQ := rfl
@[simp] theorem Dev.setLog_resvs (d : Dev) (l : CkLog) : (d.setLog l).resvs = d.resvs := rfl
@[simp] theorem Dev.setLog_nocReqs (d : Dev) (l : CkLog) : (d.setLog l).nocReqs = d.nocReqs := rfl
@[simp] theorem Dev.setLog_nextNoc (d : Dev) (l : CkLog) : (d.setLog l).nextNoc = d.nextNoc := rfl
@[simp] theorem Dev.setLog_nocs (d : Dev) (l : CkLog) : (d.setLog l).nocs = d.nocs := rfl
@[simp] theorem Dev.setLog_linkRuns (d : Dev) (l : CkLog) : (d.setLog l).linkRuns = d.linkRuns := rfl
@[simp] theorem Dev.setLog_tests (d : Dev) (l : CkLog) : (d.setLog l).tests = d.tests := rfl
@[simp] theorem Dev.setLog_ctx (d : Dev) (l : CkLog) : (d.setLog l).ctx = d.ctx := rfl
@[simp] theorem Dev.setLog_ctxBad (d : Dev) (l : CkLog) : (d.setLog l).ctxBad = d.ctxBad := rfl
@[simp] theorem Dev.setLog_imem (d : Dev) (l : CkLog) : (d.setLog l).imem = d.imem := rfl
@[simp] theorem Dev.setLog_epochs (d : Dev) (l : CkLog) : (d.setLog l).epochs = d.epochs := rfl
@[simp] theorem Dev.setLog_alignRecs (d : Dev) (l : CkLog) : (d.setLog l).alignRecs = d.alignRecs := rfl
@[simp] theorem Dev.setLog_holds (d : Dev) (l : CkLog) : (d.setLog l).holds = d.holds := rfl
@[simp] theorem Dev.setLog_pair (d : Dev) (l : CkLog) : (d.setLog l).pair = d.pair := rfl
@[simp] theorem Dev.setLog_hostEvs (d : Dev) (l : CkLog) : (d.setLog l).hostEvs = d.hostEvs := rfl
@[simp] theorem Dev.setLog_evtPhase (d : Dev) (l : CkLog) : (d.setLog l).evtPhase = d.evtPhase := rfl
@[simp] theorem Dev.setLog_hcmd (d : Dev) (l : CkLog) : (d.setLog l).hcmd = d.hcmd := rfl
@[simp] theorem Dev.setLog_fetching (d : Dev) (l : CkLog) : (d.setLog l).fetching = d.fetching := rfl
@[simp] theorem Dev.setLog_cmdBell (d : Dev) (l : CkLog) : (d.setLog l).cmdBell = d.cmdBell := rfl
@[simp] theorem Dev.setLog_boot (d : Dev) (l : CkLog) : (d.setLog l).boot = d.boot := rfl
@[simp] theorem Dev.setLog_tokenCk (d : Dev) (l : CkLog) : (d.setLog l).tokenCk = d.tokenCk := rfl

/-! `emit`. -/

@[simp] theorem Dev.emit_rst (d : Dev) (o : Out) : (d.emit o).rst = d.rst := rfl
@[simp] theorem Dev.emit_sources (d : Dev) (o : Out) : (d.emit o).sources = d.sources := rfl
@[simp] theorem Dev.emit_started (d : Dev) (o : Out) : (d.emit o).started = d.started := rfl
@[simp] theorem Dev.emit_thermTrip (d : Dev) (o : Out) : (d.emit o).thermTrip = d.thermTrip := rfl
@[simp] theorem Dev.emit_modeTarget (d : Dev) (o : Out) : (d.emit o).modeTarget = d.modeTarget := rfl
@[simp] theorem Dev.emit_reqCk (d : Dev) (o : Out) : (d.emit o).reqCk = d.reqCk := rfl
@[simp] theorem Dev.emit_readyCk (d : Dev) (o : Out) : (d.emit o).readyCk = d.readyCk := rfl
@[simp] theorem Dev.emit_offEntry (d : Dev) (o : Out) : (d.emit o).offEntry = d.offEntry := rfl
@[simp] theorem Dev.emit_safeEntry (d : Dev) (o : Out) : (d.emit o).safeEntry = d.safeEntry := rfl
@[simp] theorem Dev.emit_safeCk (d : Dev) (o : Out) : (d.emit o).safeCk = d.safeCk := rfl
@[simp] theorem Dev.emit_safeDue (d : Dev) (o : Out) : (d.emit o).safeDue = d.safeDue := rfl
@[simp] theorem Dev.emit_south (d : Dev) (o : Out) : (d.emit o).south = d.south := rfl
@[simp] theorem Dev.emit_waking (d : Dev) (o : Out) : (d.emit o).waking = d.waking := rfl
@[simp] theorem Dev.emit_lanesBegun (d : Dev) (o : Out) : (d.emit o).lanesBegun = d.lanesBegun := rfl
@[simp] theorem Dev.emit_lanesDue (d : Dev) (o : Out) : (d.emit o).lanesDue = d.lanesDue := rfl
@[simp] theorem Dev.emit_ins (d : Dev) (o : Out) : (d.emit o).ins = d.ins := rfl
@[simp] theorem Dev.emit_pins (d : Dev) (o : Out) : (d.emit o).pins = d.pins := rfl
@[simp] theorem Dev.emit_ck (d : Dev) (o : Out) : (d.emit o).ck = d.ck := rfl
@[simp] theorem Dev.emit_regs (d : Dev) (o : Out) : (d.emit o).regs = d.regs := rfl
@[simp] theorem Dev.emit_log (d : Dev) (o : Out) : (d.emit o).log = d.log := rfl
@[simp] theorem Dev.emit_agenda (d : Dev) (o : Out) : (d.emit o).agenda = d.agenda := rfl
@[simp] theorem Dev.emit_latch (d : Dev) (o : Out) : (d.emit o).latch = d.latch := rfl
@[simp] theorem Dev.emit_lineLog (d : Dev) (o : Out) : (d.emit o).lineLog = d.lineLog := rfl
@[simp] theorem Dev.emit_msix (d : Dev) (o : Out) : (d.emit o).msix = d.msix := rfl
@[simp] theorem Dev.emit_msixPend (d : Dev) (o : Out) : (d.emit o).msixPend = d.msixPend := rfl
@[simp] theorem Dev.emit_lanes (d : Dev) (o : Out) : (d.emit o).lanes = d.lanes := rfl
@[simp] theorem Dev.emit_recs (d : Dev) (o : Out) : (d.emit o).recs = d.recs := rfl
@[simp] theorem Dev.emit_nextRid (d : Dev) (o : Out) : (d.emit o).nextRid = d.nextRid := rfl
@[simp] theorem Dev.emit_lpc (d : Dev) (o : Out) : (d.emit o).lpc = d.lpc := rfl
@[simp] theorem Dev.emit_evs (d : Dev) (o : Out) : (d.emit o).evs = d.evs := rfl
@[simp] theorem Dev.emit_evsLate (d : Dev) (o : Out) : (d.emit o).evsLate = d.evsLate := rfl
@[simp] theorem Dev.emit_evsRan (d : Dev) (o : Out) : (d.emit o).evsRan = d.evsRan := rfl
@[simp] theorem Dev.emit_evsFired (d : Dev) (o : Out) : (d.emit o).evsFired = d.evsFired := rfl
@[simp] theorem Dev.emit_rules (d : Dev) (o : Out) : (d.emit o).rules = d.rules := rfl
@[simp] theorem Dev.emit_seqStates (d : Dev) (o : Out) : (d.emit o).seqStates = d.seqStates := rfl
@[simp] theorem Dev.emit_seqSlots (d : Dev) (o : Out) : (d.emit o).seqSlots = d.seqSlots := rfl
@[simp] theorem Dev.emit_seqSel (d : Dev) (o : Out) : (d.emit o).seqSel = d.seqSel := rfl
@[simp] theorem Dev.emit_seqs (d : Dev) (o : Out) : (d.emit o).seqs = d.seqs := rfl
@[simp] theorem Dev.emit_trigEvs (d : Dev) (o : Out) : (d.emit o).trigEvs = d.trigEvs := rfl
@[simp] theorem Dev.emit_bridgeOut (d : Dev) (o : Out) : (d.emit o).bridgeOut = d.bridgeOut := rfl
@[simp] theorem Dev.emit_flying (d : Dev) (o : Out) : (d.emit o).flying = d.flying := rfl
@[simp] theorem Dev.emit_stimIn (d : Dev) (o : Out) : (d.emit o).stimIn = d.stimIn := rfl
@[simp] theorem Dev.emit_stims (d : Dev) (o : Out) : (d.emit o).stims = d.stims := rfl
@[simp] theorem Dev.emit_plays (d : Dev) (o : Out) : (d.emit o).plays = d.plays := rfl
@[simp] theorem Dev.emit_tmpls (d : Dev) (o : Out) : (d.emit o).tmpls = d.tmpls := rfl
@[simp] theorem Dev.emit_allocs (d : Dev) (o : Out) : (d.emit o).allocs = d.allocs := rfl
@[simp] theorem Dev.emit_flows (d : Dev) (o : Out) : (d.emit o).flows = d.flows := rfl
@[simp] theorem Dev.emit_nums (d : Dev) (o : Out) : (d.emit o).nums = d.nums := rfl
@[simp] theorem Dev.emit_runs (d : Dev) (o : Out) : (d.emit o).runs = d.runs := rfl
@[simp] theorem Dev.emit_closing (d : Dev) (o : Out) : (d.emit o).closing = d.closing := rfl
@[simp] theorem Dev.emit_frozeLp (d : Dev) (o : Out) : (d.emit o).frozeLp = d.frozeLp := rfl
@[simp] theorem Dev.emit_cq (d : Dev) (o : Out) : (d.emit o).cq = d.cq := rfl
@[simp] theorem Dev.emit_mem (d : Dev) (o : Out) : (d.emit o).mem = d.mem := rfl
@[simp] theorem Dev.emit_chk (d : Dev) (o : Out) : (d.emit o).chk = d.chk := rfl
@[simp] theorem Dev.emit_subs (d : Dev) (o : Out) : (d.emit o).subs = d.subs := rfl
@[simp] theorem Dev.emit_dtx (d : Dev) (o : Out) : (d.emit o).dtx = d.dtx := rfl
@[simp] theorem Dev.emit_nextTx (d : Dev) (o : Out) : (d.emit o).nextTx = d.nextTx := rfl
@[simp] theorem Dev.emit_drcs (d : Dev) (o : Out) : (d.emit o).drcs = d.drcs := rfl
@[simp] theorem Dev.emit_memis (d : Dev) (o : Out) : (d.emit o).memis = d.memis := rfl
@[simp] theorem Dev.emit_crypts (d : Dev) (o : Out) : (d.emit o).crypts = d.crypts := rfl
@[simp] theorem Dev.emit_fuses (d : Dev) (o : Out) : (d.emit o).fuses = d.fuses := rfl
@[simp] theorem Dev.emit_fab (d : Dev) (o : Out) : (d.emit o).fab = d.fab := rfl
@[simp] theorem Dev.emit_bays (d : Dev) (o : Out) : (d.emit o).bays = d.bays := rfl
@[simp] theorem Dev.emit_scrub (d : Dev) (o : Out) : (d.emit o).scrub = d.scrub := rfl
@[simp] theorem Dev.emit_cfg (d : Dev) (o : Out) : (d.emit o).cfg = d.cfg := rfl
@[simp] theorem Dev.emit_startCk (d : Dev) (o : Out) : (d.emit o).startCk = d.startCk := rfl
@[simp] theorem Dev.emit_pmc (d : Dev) (o : Out) : (d.emit o).pmc = d.pmc := rfl
@[simp] theorem Dev.emit_dmas (d : Dev) (o : Out) : (d.emit o).dmas = d.dmas := rfl
@[simp] theorem Dev.emit_dmaTurn (d : Dev) (o : Out) : (d.emit o).dmaTurn = d.dmaTurn := rfl
@[simp] theorem Dev.emit_exts (d : Dev) (o : Out) : (d.emit o).exts = d.exts := rfl
@[simp] theorem Dev.emit_opened (d : Dev) (o : Out) : (d.emit o).opened = d.opened := rfl
@[simp] theorem Dev.emit_nextOpen (d : Dev) (o : Out) : (d.emit o).nextOpen = d.nextOpen := rfl
@[simp] theorem Dev.emit_plus (d : Dev) (o : Out) : (d.emit o).plus = d.plus := rfl
@[simp] theorem Dev.emit_handovers (d : Dev) (o : Out) : (d.emit o).handovers = d.handovers := rfl
@[simp] theorem Dev.emit_jrnTx (d : Dev) (o : Out) : (d.emit o).jrnTx = d.jrnTx := rfl
@[simp] theorem Dev.emit_meta64 (d : Dev) (o : Out) : (d.emit o).meta64 = d.meta64 := rfl
@[simp] theorem Dev.emit_offers (d : Dev) (o : Out) : (d.emit o).offers = d.offers := rfl
@[simp] theorem Dev.emit_capReads (d : Dev) (o : Out) : (d.emit o).capReads = d.capReads := rfl
@[simp] theorem Dev.emit_nextRead (d : Dev) (o : Out) : (d.emit o).nextRead = d.nextRead := rfl
@[simp] theorem Dev.emit_seeks (d : Dev) (o : Out) : (d.emit o).seeks = d.seeks := rfl
@[simp] theorem Dev.emit_descReads (d : Dev) (o : Out) : (d.emit o).descReads = d.descReads := rfl
@[simp] theorem Dev.emit_engs (d : Dev) (o : Out) : (d.emit o).engs = d.engs := rfl
@[simp] theorem Dev.emit_dbgs (d : Dev) (o : Out) : (d.emit o).dbgs = d.dbgs := rfl
@[simp] theorem Dev.emit_gks (d : Dev) (o : Out) : (d.emit o).gks = d.gks := rfl
@[simp] theorem Dev.emit_bayQ (d : Dev) (o : Out) : (d.emit o).bayQ = d.bayQ := rfl
@[simp] theorem Dev.emit_spQ (d : Dev) (o : Out) : (d.emit o).spQ = d.spQ := rfl
@[simp] theorem Dev.emit_resvs (d : Dev) (o : Out) : (d.emit o).resvs = d.resvs := rfl
@[simp] theorem Dev.emit_nocReqs (d : Dev) (o : Out) : (d.emit o).nocReqs = d.nocReqs := rfl
@[simp] theorem Dev.emit_nextNoc (d : Dev) (o : Out) : (d.emit o).nextNoc = d.nextNoc := rfl
@[simp] theorem Dev.emit_nocs (d : Dev) (o : Out) : (d.emit o).nocs = d.nocs := rfl
@[simp] theorem Dev.emit_linkRuns (d : Dev) (o : Out) : (d.emit o).linkRuns = d.linkRuns := rfl
@[simp] theorem Dev.emit_tests (d : Dev) (o : Out) : (d.emit o).tests = d.tests := rfl
@[simp] theorem Dev.emit_ctx (d : Dev) (o : Out) : (d.emit o).ctx = d.ctx := rfl
@[simp] theorem Dev.emit_ctxBad (d : Dev) (o : Out) : (d.emit o).ctxBad = d.ctxBad := rfl
@[simp] theorem Dev.emit_imem (d : Dev) (o : Out) : (d.emit o).imem = d.imem := rfl
@[simp] theorem Dev.emit_epochs (d : Dev) (o : Out) : (d.emit o).epochs = d.epochs := rfl
@[simp] theorem Dev.emit_alignRecs (d : Dev) (o : Out) : (d.emit o).alignRecs = d.alignRecs := rfl
@[simp] theorem Dev.emit_holds (d : Dev) (o : Out) : (d.emit o).holds = d.holds := rfl
@[simp] theorem Dev.emit_pair (d : Dev) (o : Out) : (d.emit o).pair = d.pair := rfl
@[simp] theorem Dev.emit_hostEvs (d : Dev) (o : Out) : (d.emit o).hostEvs = d.hostEvs := rfl
@[simp] theorem Dev.emit_evtPhase (d : Dev) (o : Out) : (d.emit o).evtPhase = d.evtPhase := rfl
@[simp] theorem Dev.emit_hcmd (d : Dev) (o : Out) : (d.emit o).hcmd = d.hcmd := rfl
@[simp] theorem Dev.emit_fetching (d : Dev) (o : Out) : (d.emit o).fetching = d.fetching := rfl
@[simp] theorem Dev.emit_cmdBell (d : Dev) (o : Out) : (d.emit o).cmdBell = d.cmdBell := rfl
@[simp] theorem Dev.emit_boot (d : Dev) (o : Out) : (d.emit o).boot = d.boot := rfl
@[simp] theorem Dev.emit_tokenCk (d : Dev) (o : Out) : (d.emit o).tokenCk = d.tokenCk := rfl

/-! `setMsixPend`. -/

@[simp] theorem Dev.setMsixPend_rst (d : Dev) (v : Nat) : (d.setMsixPend v).rst = d.rst := rfl
@[simp] theorem Dev.setMsixPend_sources (d : Dev) (v : Nat) : (d.setMsixPend v).sources = d.sources := rfl
@[simp] theorem Dev.setMsixPend_started (d : Dev) (v : Nat) : (d.setMsixPend v).started = d.started := rfl
@[simp] theorem Dev.setMsixPend_thermTrip (d : Dev) (v : Nat) : (d.setMsixPend v).thermTrip = d.thermTrip := rfl
@[simp] theorem Dev.setMsixPend_modeTarget (d : Dev) (v : Nat) : (d.setMsixPend v).modeTarget = d.modeTarget := rfl
@[simp] theorem Dev.setMsixPend_reqCk (d : Dev) (v : Nat) : (d.setMsixPend v).reqCk = d.reqCk := rfl
@[simp] theorem Dev.setMsixPend_readyCk (d : Dev) (v : Nat) : (d.setMsixPend v).readyCk = d.readyCk := rfl
@[simp] theorem Dev.setMsixPend_offEntry (d : Dev) (v : Nat) : (d.setMsixPend v).offEntry = d.offEntry := rfl
@[simp] theorem Dev.setMsixPend_safeEntry (d : Dev) (v : Nat) : (d.setMsixPend v).safeEntry = d.safeEntry := rfl
@[simp] theorem Dev.setMsixPend_safeCk (d : Dev) (v : Nat) : (d.setMsixPend v).safeCk = d.safeCk := rfl
@[simp] theorem Dev.setMsixPend_safeDue (d : Dev) (v : Nat) : (d.setMsixPend v).safeDue = d.safeDue := rfl
@[simp] theorem Dev.setMsixPend_south (d : Dev) (v : Nat) : (d.setMsixPend v).south = d.south := rfl
@[simp] theorem Dev.setMsixPend_waking (d : Dev) (v : Nat) : (d.setMsixPend v).waking = d.waking := rfl
@[simp] theorem Dev.setMsixPend_lanesBegun (d : Dev) (v : Nat) : (d.setMsixPend v).lanesBegun = d.lanesBegun := rfl
@[simp] theorem Dev.setMsixPend_lanesDue (d : Dev) (v : Nat) : (d.setMsixPend v).lanesDue = d.lanesDue := rfl
@[simp] theorem Dev.setMsixPend_ins (d : Dev) (v : Nat) : (d.setMsixPend v).ins = d.ins := rfl
@[simp] theorem Dev.setMsixPend_pins (d : Dev) (v : Nat) : (d.setMsixPend v).pins = d.pins := rfl
@[simp] theorem Dev.setMsixPend_ck (d : Dev) (v : Nat) : (d.setMsixPend v).ck = d.ck := rfl
@[simp] theorem Dev.setMsixPend_regs (d : Dev) (v : Nat) : (d.setMsixPend v).regs = d.regs := rfl
@[simp] theorem Dev.setMsixPend_log (d : Dev) (v : Nat) : (d.setMsixPend v).log = d.log := rfl
@[simp] theorem Dev.setMsixPend_out (d : Dev) (v : Nat) : (d.setMsixPend v).out = d.out := rfl
@[simp] theorem Dev.setMsixPend_agenda (d : Dev) (v : Nat) : (d.setMsixPend v).agenda = d.agenda := rfl
@[simp] theorem Dev.setMsixPend_latch (d : Dev) (v : Nat) : (d.setMsixPend v).latch = d.latch := rfl
@[simp] theorem Dev.setMsixPend_lineLog (d : Dev) (v : Nat) : (d.setMsixPend v).lineLog = d.lineLog := rfl
@[simp] theorem Dev.setMsixPend_msix (d : Dev) (v : Nat) : (d.setMsixPend v).msix = d.msix := rfl
@[simp] theorem Dev.setMsixPend_lanes (d : Dev) (v : Nat) : (d.setMsixPend v).lanes = d.lanes := rfl
@[simp] theorem Dev.setMsixPend_recs (d : Dev) (v : Nat) : (d.setMsixPend v).recs = d.recs := rfl
@[simp] theorem Dev.setMsixPend_nextRid (d : Dev) (v : Nat) : (d.setMsixPend v).nextRid = d.nextRid := rfl
@[simp] theorem Dev.setMsixPend_lpc (d : Dev) (v : Nat) : (d.setMsixPend v).lpc = d.lpc := rfl
@[simp] theorem Dev.setMsixPend_evs (d : Dev) (v : Nat) : (d.setMsixPend v).evs = d.evs := rfl
@[simp] theorem Dev.setMsixPend_evsLate (d : Dev) (v : Nat) : (d.setMsixPend v).evsLate = d.evsLate := rfl
@[simp] theorem Dev.setMsixPend_evsRan (d : Dev) (v : Nat) : (d.setMsixPend v).evsRan = d.evsRan := rfl
@[simp] theorem Dev.setMsixPend_evsFired (d : Dev) (v : Nat) : (d.setMsixPend v).evsFired = d.evsFired := rfl
@[simp] theorem Dev.setMsixPend_rules (d : Dev) (v : Nat) : (d.setMsixPend v).rules = d.rules := rfl
@[simp] theorem Dev.setMsixPend_seqStates (d : Dev) (v : Nat) : (d.setMsixPend v).seqStates = d.seqStates := rfl
@[simp] theorem Dev.setMsixPend_seqSlots (d : Dev) (v : Nat) : (d.setMsixPend v).seqSlots = d.seqSlots := rfl
@[simp] theorem Dev.setMsixPend_seqSel (d : Dev) (v : Nat) : (d.setMsixPend v).seqSel = d.seqSel := rfl
@[simp] theorem Dev.setMsixPend_seqs (d : Dev) (v : Nat) : (d.setMsixPend v).seqs = d.seqs := rfl
@[simp] theorem Dev.setMsixPend_trigEvs (d : Dev) (v : Nat) : (d.setMsixPend v).trigEvs = d.trigEvs := rfl
@[simp] theorem Dev.setMsixPend_bridgeOut (d : Dev) (v : Nat) : (d.setMsixPend v).bridgeOut = d.bridgeOut := rfl
@[simp] theorem Dev.setMsixPend_flying (d : Dev) (v : Nat) : (d.setMsixPend v).flying = d.flying := rfl
@[simp] theorem Dev.setMsixPend_stimIn (d : Dev) (v : Nat) : (d.setMsixPend v).stimIn = d.stimIn := rfl
@[simp] theorem Dev.setMsixPend_stims (d : Dev) (v : Nat) : (d.setMsixPend v).stims = d.stims := rfl
@[simp] theorem Dev.setMsixPend_plays (d : Dev) (v : Nat) : (d.setMsixPend v).plays = d.plays := rfl
@[simp] theorem Dev.setMsixPend_tmpls (d : Dev) (v : Nat) : (d.setMsixPend v).tmpls = d.tmpls := rfl
@[simp] theorem Dev.setMsixPend_allocs (d : Dev) (v : Nat) : (d.setMsixPend v).allocs = d.allocs := rfl
@[simp] theorem Dev.setMsixPend_flows (d : Dev) (v : Nat) : (d.setMsixPend v).flows = d.flows := rfl
@[simp] theorem Dev.setMsixPend_nums (d : Dev) (v : Nat) : (d.setMsixPend v).nums = d.nums := rfl
@[simp] theorem Dev.setMsixPend_runs (d : Dev) (v : Nat) : (d.setMsixPend v).runs = d.runs := rfl
@[simp] theorem Dev.setMsixPend_closing (d : Dev) (v : Nat) : (d.setMsixPend v).closing = d.closing := rfl
@[simp] theorem Dev.setMsixPend_frozeLp (d : Dev) (v : Nat) : (d.setMsixPend v).frozeLp = d.frozeLp := rfl
@[simp] theorem Dev.setMsixPend_cq (d : Dev) (v : Nat) : (d.setMsixPend v).cq = d.cq := rfl
@[simp] theorem Dev.setMsixPend_mem (d : Dev) (v : Nat) : (d.setMsixPend v).mem = d.mem := rfl
@[simp] theorem Dev.setMsixPend_chk (d : Dev) (v : Nat) : (d.setMsixPend v).chk = d.chk := rfl
@[simp] theorem Dev.setMsixPend_subs (d : Dev) (v : Nat) : (d.setMsixPend v).subs = d.subs := rfl
@[simp] theorem Dev.setMsixPend_dtx (d : Dev) (v : Nat) : (d.setMsixPend v).dtx = d.dtx := rfl
@[simp] theorem Dev.setMsixPend_nextTx (d : Dev) (v : Nat) : (d.setMsixPend v).nextTx = d.nextTx := rfl
@[simp] theorem Dev.setMsixPend_drcs (d : Dev) (v : Nat) : (d.setMsixPend v).drcs = d.drcs := rfl
@[simp] theorem Dev.setMsixPend_memis (d : Dev) (v : Nat) : (d.setMsixPend v).memis = d.memis := rfl
@[simp] theorem Dev.setMsixPend_crypts (d : Dev) (v : Nat) : (d.setMsixPend v).crypts = d.crypts := rfl
@[simp] theorem Dev.setMsixPend_fuses (d : Dev) (v : Nat) : (d.setMsixPend v).fuses = d.fuses := rfl
@[simp] theorem Dev.setMsixPend_fab (d : Dev) (v : Nat) : (d.setMsixPend v).fab = d.fab := rfl
@[simp] theorem Dev.setMsixPend_bays (d : Dev) (v : Nat) : (d.setMsixPend v).bays = d.bays := rfl
@[simp] theorem Dev.setMsixPend_scrub (d : Dev) (v : Nat) : (d.setMsixPend v).scrub = d.scrub := rfl
@[simp] theorem Dev.setMsixPend_cfg (d : Dev) (v : Nat) : (d.setMsixPend v).cfg = d.cfg := rfl
@[simp] theorem Dev.setMsixPend_startCk (d : Dev) (v : Nat) : (d.setMsixPend v).startCk = d.startCk := rfl
@[simp] theorem Dev.setMsixPend_pmc (d : Dev) (v : Nat) : (d.setMsixPend v).pmc = d.pmc := rfl
@[simp] theorem Dev.setMsixPend_dmas (d : Dev) (v : Nat) : (d.setMsixPend v).dmas = d.dmas := rfl
@[simp] theorem Dev.setMsixPend_dmaTurn (d : Dev) (v : Nat) : (d.setMsixPend v).dmaTurn = d.dmaTurn := rfl
@[simp] theorem Dev.setMsixPend_exts (d : Dev) (v : Nat) : (d.setMsixPend v).exts = d.exts := rfl
@[simp] theorem Dev.setMsixPend_opened (d : Dev) (v : Nat) : (d.setMsixPend v).opened = d.opened := rfl
@[simp] theorem Dev.setMsixPend_nextOpen (d : Dev) (v : Nat) : (d.setMsixPend v).nextOpen = d.nextOpen := rfl
@[simp] theorem Dev.setMsixPend_plus (d : Dev) (v : Nat) : (d.setMsixPend v).plus = d.plus := rfl
@[simp] theorem Dev.setMsixPend_handovers (d : Dev) (v : Nat) : (d.setMsixPend v).handovers = d.handovers := rfl
@[simp] theorem Dev.setMsixPend_jrnTx (d : Dev) (v : Nat) : (d.setMsixPend v).jrnTx = d.jrnTx := rfl
@[simp] theorem Dev.setMsixPend_meta64 (d : Dev) (v : Nat) : (d.setMsixPend v).meta64 = d.meta64 := rfl
@[simp] theorem Dev.setMsixPend_offers (d : Dev) (v : Nat) : (d.setMsixPend v).offers = d.offers := rfl
@[simp] theorem Dev.setMsixPend_capReads (d : Dev) (v : Nat) : (d.setMsixPend v).capReads = d.capReads := rfl
@[simp] theorem Dev.setMsixPend_nextRead (d : Dev) (v : Nat) : (d.setMsixPend v).nextRead = d.nextRead := rfl
@[simp] theorem Dev.setMsixPend_seeks (d : Dev) (v : Nat) : (d.setMsixPend v).seeks = d.seeks := rfl
@[simp] theorem Dev.setMsixPend_descReads (d : Dev) (v : Nat) : (d.setMsixPend v).descReads = d.descReads := rfl
@[simp] theorem Dev.setMsixPend_engs (d : Dev) (v : Nat) : (d.setMsixPend v).engs = d.engs := rfl
@[simp] theorem Dev.setMsixPend_dbgs (d : Dev) (v : Nat) : (d.setMsixPend v).dbgs = d.dbgs := rfl
@[simp] theorem Dev.setMsixPend_gks (d : Dev) (v : Nat) : (d.setMsixPend v).gks = d.gks := rfl
@[simp] theorem Dev.setMsixPend_bayQ (d : Dev) (v : Nat) : (d.setMsixPend v).bayQ = d.bayQ := rfl
@[simp] theorem Dev.setMsixPend_spQ (d : Dev) (v : Nat) : (d.setMsixPend v).spQ = d.spQ := rfl
@[simp] theorem Dev.setMsixPend_resvs (d : Dev) (v : Nat) : (d.setMsixPend v).resvs = d.resvs := rfl
@[simp] theorem Dev.setMsixPend_nocReqs (d : Dev) (v : Nat) : (d.setMsixPend v).nocReqs = d.nocReqs := rfl
@[simp] theorem Dev.setMsixPend_nextNoc (d : Dev) (v : Nat) : (d.setMsixPend v).nextNoc = d.nextNoc := rfl
@[simp] theorem Dev.setMsixPend_nocs (d : Dev) (v : Nat) : (d.setMsixPend v).nocs = d.nocs := rfl
@[simp] theorem Dev.setMsixPend_linkRuns (d : Dev) (v : Nat) : (d.setMsixPend v).linkRuns = d.linkRuns := rfl
@[simp] theorem Dev.setMsixPend_tests (d : Dev) (v : Nat) : (d.setMsixPend v).tests = d.tests := rfl
@[simp] theorem Dev.setMsixPend_ctx (d : Dev) (v : Nat) : (d.setMsixPend v).ctx = d.ctx := rfl
@[simp] theorem Dev.setMsixPend_ctxBad (d : Dev) (v : Nat) : (d.setMsixPend v).ctxBad = d.ctxBad := rfl
@[simp] theorem Dev.setMsixPend_imem (d : Dev) (v : Nat) : (d.setMsixPend v).imem = d.imem := rfl
@[simp] theorem Dev.setMsixPend_epochs (d : Dev) (v : Nat) : (d.setMsixPend v).epochs = d.epochs := rfl
@[simp] theorem Dev.setMsixPend_alignRecs (d : Dev) (v : Nat) : (d.setMsixPend v).alignRecs = d.alignRecs := rfl
@[simp] theorem Dev.setMsixPend_holds (d : Dev) (v : Nat) : (d.setMsixPend v).holds = d.holds := rfl
@[simp] theorem Dev.setMsixPend_pair (d : Dev) (v : Nat) : (d.setMsixPend v).pair = d.pair := rfl
@[simp] theorem Dev.setMsixPend_hostEvs (d : Dev) (v : Nat) : (d.setMsixPend v).hostEvs = d.hostEvs := rfl
@[simp] theorem Dev.setMsixPend_evtPhase (d : Dev) (v : Nat) : (d.setMsixPend v).evtPhase = d.evtPhase := rfl
@[simp] theorem Dev.setMsixPend_hcmd (d : Dev) (v : Nat) : (d.setMsixPend v).hcmd = d.hcmd := rfl
@[simp] theorem Dev.setMsixPend_fetching (d : Dev) (v : Nat) : (d.setMsixPend v).fetching = d.fetching := rfl
@[simp] theorem Dev.setMsixPend_cmdBell (d : Dev) (v : Nat) : (d.setMsixPend v).cmdBell = d.cmdBell := rfl
@[simp] theorem Dev.setMsixPend_boot (d : Dev) (v : Nat) : (d.setMsixPend v).boot = d.boot := rfl
@[simp] theorem Dev.setMsixPend_tokenCk (d : Dev) (v : Nat) : (d.setMsixPend v).tokenCk = d.tokenCk := rfl

/-! `setPins`. -/

@[simp] theorem Dev.setPins_rst (d : Dev) (p : Pins) : (d.setPins p).rst = d.rst := rfl
@[simp] theorem Dev.setPins_sources (d : Dev) (p : Pins) : (d.setPins p).sources = d.sources := rfl
@[simp] theorem Dev.setPins_started (d : Dev) (p : Pins) : (d.setPins p).started = d.started := rfl
@[simp] theorem Dev.setPins_thermTrip (d : Dev) (p : Pins) : (d.setPins p).thermTrip = d.thermTrip := rfl
@[simp] theorem Dev.setPins_modeTarget (d : Dev) (p : Pins) : (d.setPins p).modeTarget = d.modeTarget := rfl
@[simp] theorem Dev.setPins_reqCk (d : Dev) (p : Pins) : (d.setPins p).reqCk = d.reqCk := rfl
@[simp] theorem Dev.setPins_readyCk (d : Dev) (p : Pins) : (d.setPins p).readyCk = d.readyCk := rfl
@[simp] theorem Dev.setPins_offEntry (d : Dev) (p : Pins) : (d.setPins p).offEntry = d.offEntry := rfl
@[simp] theorem Dev.setPins_safeEntry (d : Dev) (p : Pins) : (d.setPins p).safeEntry = d.safeEntry := rfl
@[simp] theorem Dev.setPins_safeCk (d : Dev) (p : Pins) : (d.setPins p).safeCk = d.safeCk := rfl
@[simp] theorem Dev.setPins_safeDue (d : Dev) (p : Pins) : (d.setPins p).safeDue = d.safeDue := rfl
@[simp] theorem Dev.setPins_south (d : Dev) (p : Pins) : (d.setPins p).south = d.south := rfl
@[simp] theorem Dev.setPins_waking (d : Dev) (p : Pins) : (d.setPins p).waking = d.waking := rfl
@[simp] theorem Dev.setPins_lanesBegun (d : Dev) (p : Pins) : (d.setPins p).lanesBegun = d.lanesBegun := rfl
@[simp] theorem Dev.setPins_lanesDue (d : Dev) (p : Pins) : (d.setPins p).lanesDue = d.lanesDue := rfl
@[simp] theorem Dev.setPins_ins (d : Dev) (p : Pins) : (d.setPins p).ins = d.ins := rfl
@[simp] theorem Dev.setPins_ck (d : Dev) (p : Pins) : (d.setPins p).ck = d.ck := rfl
@[simp] theorem Dev.setPins_regs (d : Dev) (p : Pins) : (d.setPins p).regs = d.regs := rfl
@[simp] theorem Dev.setPins_log (d : Dev) (p : Pins) : (d.setPins p).log = d.log := rfl
@[simp] theorem Dev.setPins_out (d : Dev) (p : Pins) : (d.setPins p).out = d.out := rfl
@[simp] theorem Dev.setPins_agenda (d : Dev) (p : Pins) : (d.setPins p).agenda = d.agenda := rfl
@[simp] theorem Dev.setPins_latch (d : Dev) (p : Pins) : (d.setPins p).latch = d.latch := rfl
@[simp] theorem Dev.setPins_lineLog (d : Dev) (p : Pins) : (d.setPins p).lineLog = d.lineLog := rfl
@[simp] theorem Dev.setPins_msix (d : Dev) (p : Pins) : (d.setPins p).msix = d.msix := rfl
@[simp] theorem Dev.setPins_msixPend (d : Dev) (p : Pins) : (d.setPins p).msixPend = d.msixPend := rfl
@[simp] theorem Dev.setPins_lanes (d : Dev) (p : Pins) : (d.setPins p).lanes = d.lanes := rfl
@[simp] theorem Dev.setPins_recs (d : Dev) (p : Pins) : (d.setPins p).recs = d.recs := rfl
@[simp] theorem Dev.setPins_nextRid (d : Dev) (p : Pins) : (d.setPins p).nextRid = d.nextRid := rfl
@[simp] theorem Dev.setPins_lpc (d : Dev) (p : Pins) : (d.setPins p).lpc = d.lpc := rfl
@[simp] theorem Dev.setPins_evs (d : Dev) (p : Pins) : (d.setPins p).evs = d.evs := rfl
@[simp] theorem Dev.setPins_evsLate (d : Dev) (p : Pins) : (d.setPins p).evsLate = d.evsLate := rfl
@[simp] theorem Dev.setPins_evsRan (d : Dev) (p : Pins) : (d.setPins p).evsRan = d.evsRan := rfl
@[simp] theorem Dev.setPins_evsFired (d : Dev) (p : Pins) : (d.setPins p).evsFired = d.evsFired := rfl
@[simp] theorem Dev.setPins_rules (d : Dev) (p : Pins) : (d.setPins p).rules = d.rules := rfl
@[simp] theorem Dev.setPins_seqStates (d : Dev) (p : Pins) : (d.setPins p).seqStates = d.seqStates := rfl
@[simp] theorem Dev.setPins_seqSlots (d : Dev) (p : Pins) : (d.setPins p).seqSlots = d.seqSlots := rfl
@[simp] theorem Dev.setPins_seqSel (d : Dev) (p : Pins) : (d.setPins p).seqSel = d.seqSel := rfl
@[simp] theorem Dev.setPins_seqs (d : Dev) (p : Pins) : (d.setPins p).seqs = d.seqs := rfl
@[simp] theorem Dev.setPins_trigEvs (d : Dev) (p : Pins) : (d.setPins p).trigEvs = d.trigEvs := rfl
@[simp] theorem Dev.setPins_bridgeOut (d : Dev) (p : Pins) : (d.setPins p).bridgeOut = d.bridgeOut := rfl
@[simp] theorem Dev.setPins_flying (d : Dev) (p : Pins) : (d.setPins p).flying = d.flying := rfl
@[simp] theorem Dev.setPins_stimIn (d : Dev) (p : Pins) : (d.setPins p).stimIn = d.stimIn := rfl
@[simp] theorem Dev.setPins_stims (d : Dev) (p : Pins) : (d.setPins p).stims = d.stims := rfl
@[simp] theorem Dev.setPins_plays (d : Dev) (p : Pins) : (d.setPins p).plays = d.plays := rfl
@[simp] theorem Dev.setPins_tmpls (d : Dev) (p : Pins) : (d.setPins p).tmpls = d.tmpls := rfl
@[simp] theorem Dev.setPins_allocs (d : Dev) (p : Pins) : (d.setPins p).allocs = d.allocs := rfl
@[simp] theorem Dev.setPins_flows (d : Dev) (p : Pins) : (d.setPins p).flows = d.flows := rfl
@[simp] theorem Dev.setPins_nums (d : Dev) (p : Pins) : (d.setPins p).nums = d.nums := rfl
@[simp] theorem Dev.setPins_runs (d : Dev) (p : Pins) : (d.setPins p).runs = d.runs := rfl
@[simp] theorem Dev.setPins_closing (d : Dev) (p : Pins) : (d.setPins p).closing = d.closing := rfl
@[simp] theorem Dev.setPins_frozeLp (d : Dev) (p : Pins) : (d.setPins p).frozeLp = d.frozeLp := rfl
@[simp] theorem Dev.setPins_cq (d : Dev) (p : Pins) : (d.setPins p).cq = d.cq := rfl
@[simp] theorem Dev.setPins_mem (d : Dev) (p : Pins) : (d.setPins p).mem = d.mem := rfl
@[simp] theorem Dev.setPins_chk (d : Dev) (p : Pins) : (d.setPins p).chk = d.chk := rfl
@[simp] theorem Dev.setPins_subs (d : Dev) (p : Pins) : (d.setPins p).subs = d.subs := rfl
@[simp] theorem Dev.setPins_dtx (d : Dev) (p : Pins) : (d.setPins p).dtx = d.dtx := rfl
@[simp] theorem Dev.setPins_nextTx (d : Dev) (p : Pins) : (d.setPins p).nextTx = d.nextTx := rfl
@[simp] theorem Dev.setPins_drcs (d : Dev) (p : Pins) : (d.setPins p).drcs = d.drcs := rfl
@[simp] theorem Dev.setPins_memis (d : Dev) (p : Pins) : (d.setPins p).memis = d.memis := rfl
@[simp] theorem Dev.setPins_crypts (d : Dev) (p : Pins) : (d.setPins p).crypts = d.crypts := rfl
@[simp] theorem Dev.setPins_fuses (d : Dev) (p : Pins) : (d.setPins p).fuses = d.fuses := rfl
@[simp] theorem Dev.setPins_fab (d : Dev) (p : Pins) : (d.setPins p).fab = d.fab := rfl
@[simp] theorem Dev.setPins_bays (d : Dev) (p : Pins) : (d.setPins p).bays = d.bays := rfl
@[simp] theorem Dev.setPins_scrub (d : Dev) (p : Pins) : (d.setPins p).scrub = d.scrub := rfl
@[simp] theorem Dev.setPins_cfg (d : Dev) (p : Pins) : (d.setPins p).cfg = d.cfg := rfl
@[simp] theorem Dev.setPins_startCk (d : Dev) (p : Pins) : (d.setPins p).startCk = d.startCk := rfl
@[simp] theorem Dev.setPins_pmc (d : Dev) (p : Pins) : (d.setPins p).pmc = d.pmc := rfl
@[simp] theorem Dev.setPins_dmas (d : Dev) (p : Pins) : (d.setPins p).dmas = d.dmas := rfl
@[simp] theorem Dev.setPins_dmaTurn (d : Dev) (p : Pins) : (d.setPins p).dmaTurn = d.dmaTurn := rfl
@[simp] theorem Dev.setPins_exts (d : Dev) (p : Pins) : (d.setPins p).exts = d.exts := rfl
@[simp] theorem Dev.setPins_opened (d : Dev) (p : Pins) : (d.setPins p).opened = d.opened := rfl
@[simp] theorem Dev.setPins_nextOpen (d : Dev) (p : Pins) : (d.setPins p).nextOpen = d.nextOpen := rfl
@[simp] theorem Dev.setPins_plus (d : Dev) (p : Pins) : (d.setPins p).plus = d.plus := rfl
@[simp] theorem Dev.setPins_handovers (d : Dev) (p : Pins) : (d.setPins p).handovers = d.handovers := rfl
@[simp] theorem Dev.setPins_jrnTx (d : Dev) (p : Pins) : (d.setPins p).jrnTx = d.jrnTx := rfl
@[simp] theorem Dev.setPins_meta64 (d : Dev) (p : Pins) : (d.setPins p).meta64 = d.meta64 := rfl
@[simp] theorem Dev.setPins_offers (d : Dev) (p : Pins) : (d.setPins p).offers = d.offers := rfl
@[simp] theorem Dev.setPins_capReads (d : Dev) (p : Pins) : (d.setPins p).capReads = d.capReads := rfl
@[simp] theorem Dev.setPins_nextRead (d : Dev) (p : Pins) : (d.setPins p).nextRead = d.nextRead := rfl
@[simp] theorem Dev.setPins_seeks (d : Dev) (p : Pins) : (d.setPins p).seeks = d.seeks := rfl
@[simp] theorem Dev.setPins_descReads (d : Dev) (p : Pins) : (d.setPins p).descReads = d.descReads := rfl
@[simp] theorem Dev.setPins_engs (d : Dev) (p : Pins) : (d.setPins p).engs = d.engs := rfl
@[simp] theorem Dev.setPins_dbgs (d : Dev) (p : Pins) : (d.setPins p).dbgs = d.dbgs := rfl
@[simp] theorem Dev.setPins_gks (d : Dev) (p : Pins) : (d.setPins p).gks = d.gks := rfl
@[simp] theorem Dev.setPins_bayQ (d : Dev) (p : Pins) : (d.setPins p).bayQ = d.bayQ := rfl
@[simp] theorem Dev.setPins_spQ (d : Dev) (p : Pins) : (d.setPins p).spQ = d.spQ := rfl
@[simp] theorem Dev.setPins_resvs (d : Dev) (p : Pins) : (d.setPins p).resvs = d.resvs := rfl
@[simp] theorem Dev.setPins_nocReqs (d : Dev) (p : Pins) : (d.setPins p).nocReqs = d.nocReqs := rfl
@[simp] theorem Dev.setPins_nextNoc (d : Dev) (p : Pins) : (d.setPins p).nextNoc = d.nextNoc := rfl
@[simp] theorem Dev.setPins_nocs (d : Dev) (p : Pins) : (d.setPins p).nocs = d.nocs := rfl
@[simp] theorem Dev.setPins_linkRuns (d : Dev) (p : Pins) : (d.setPins p).linkRuns = d.linkRuns := rfl
@[simp] theorem Dev.setPins_tests (d : Dev) (p : Pins) : (d.setPins p).tests = d.tests := rfl
@[simp] theorem Dev.setPins_ctx (d : Dev) (p : Pins) : (d.setPins p).ctx = d.ctx := rfl
@[simp] theorem Dev.setPins_ctxBad (d : Dev) (p : Pins) : (d.setPins p).ctxBad = d.ctxBad := rfl
@[simp] theorem Dev.setPins_imem (d : Dev) (p : Pins) : (d.setPins p).imem = d.imem := rfl
@[simp] theorem Dev.setPins_epochs (d : Dev) (p : Pins) : (d.setPins p).epochs = d.epochs := rfl
@[simp] theorem Dev.setPins_alignRecs (d : Dev) (p : Pins) : (d.setPins p).alignRecs = d.alignRecs := rfl
@[simp] theorem Dev.setPins_holds (d : Dev) (p : Pins) : (d.setPins p).holds = d.holds := rfl
@[simp] theorem Dev.setPins_pair (d : Dev) (p : Pins) : (d.setPins p).pair = d.pair := rfl
@[simp] theorem Dev.setPins_hostEvs (d : Dev) (p : Pins) : (d.setPins p).hostEvs = d.hostEvs := rfl
@[simp] theorem Dev.setPins_evtPhase (d : Dev) (p : Pins) : (d.setPins p).evtPhase = d.evtPhase := rfl
@[simp] theorem Dev.setPins_hcmd (d : Dev) (p : Pins) : (d.setPins p).hcmd = d.hcmd := rfl
@[simp] theorem Dev.setPins_fetching (d : Dev) (p : Pins) : (d.setPins p).fetching = d.fetching := rfl
@[simp] theorem Dev.setPins_cmdBell (d : Dev) (p : Pins) : (d.setPins p).cmdBell = d.cmdBell := rfl
@[simp] theorem Dev.setPins_boot (d : Dev) (p : Pins) : (d.setPins p).boot = d.boot := rfl
@[simp] theorem Dev.setPins_tokenCk (d : Dev) (p : Pins) : (d.setPins p).tokenCk = d.tokenCk := rfl

/-! `setFld`. -/

@[simp] theorem Dev.setFld_rst (d : Dev) (pg : Nat) (f : Fld) (v : Nat) : (d.setFld pg f v).rst = d.rst := d.setReg_rst _ _ _
@[simp] theorem Dev.setFld_sources (d : Dev) (pg : Nat) (f : Fld) (v : Nat) : (d.setFld pg f v).sources = d.sources := d.setReg_sources _ _ _
@[simp] theorem Dev.setFld_started (d : Dev) (pg : Nat) (f : Fld) (v : Nat) : (d.setFld pg f v).started = d.started := d.setReg_started _ _ _
@[simp] theorem Dev.setFld_thermTrip (d : Dev) (pg : Nat) (f : Fld) (v : Nat) : (d.setFld pg f v).thermTrip = d.thermTrip := d.setReg_thermTrip _ _ _
@[simp] theorem Dev.setFld_modeTarget (d : Dev) (pg : Nat) (f : Fld) (v : Nat) : (d.setFld pg f v).modeTarget = d.modeTarget := d.setReg_modeTarget _ _ _
@[simp] theorem Dev.setFld_reqCk (d : Dev) (pg : Nat) (f : Fld) (v : Nat) : (d.setFld pg f v).reqCk = d.reqCk := d.setReg_reqCk _ _ _
@[simp] theorem Dev.setFld_readyCk (d : Dev) (pg : Nat) (f : Fld) (v : Nat) : (d.setFld pg f v).readyCk = d.readyCk := d.setReg_readyCk _ _ _
@[simp] theorem Dev.setFld_offEntry (d : Dev) (pg : Nat) (f : Fld) (v : Nat) : (d.setFld pg f v).offEntry = d.offEntry := d.setReg_offEntry _ _ _
@[simp] theorem Dev.setFld_safeEntry (d : Dev) (pg : Nat) (f : Fld) (v : Nat) : (d.setFld pg f v).safeEntry = d.safeEntry := d.setReg_safeEntry _ _ _
@[simp] theorem Dev.setFld_safeCk (d : Dev) (pg : Nat) (f : Fld) (v : Nat) : (d.setFld pg f v).safeCk = d.safeCk := d.setReg_safeCk _ _ _
@[simp] theorem Dev.setFld_safeDue (d : Dev) (pg : Nat) (f : Fld) (v : Nat) : (d.setFld pg f v).safeDue = d.safeDue := d.setReg_safeDue _ _ _
@[simp] theorem Dev.setFld_south (d : Dev) (pg : Nat) (f : Fld) (v : Nat) : (d.setFld pg f v).south = d.south := d.setReg_south _ _ _
@[simp] theorem Dev.setFld_waking (d : Dev) (pg : Nat) (f : Fld) (v : Nat) : (d.setFld pg f v).waking = d.waking := d.setReg_waking _ _ _
@[simp] theorem Dev.setFld_lanesBegun (d : Dev) (pg : Nat) (f : Fld) (v : Nat) : (d.setFld pg f v).lanesBegun = d.lanesBegun := d.setReg_lanesBegun _ _ _
@[simp] theorem Dev.setFld_lanesDue (d : Dev) (pg : Nat) (f : Fld) (v : Nat) : (d.setFld pg f v).lanesDue = d.lanesDue := d.setReg_lanesDue _ _ _
@[simp] theorem Dev.setFld_ins (d : Dev) (pg : Nat) (f : Fld) (v : Nat) : (d.setFld pg f v).ins = d.ins := d.setReg_ins _ _ _
@[simp] theorem Dev.setFld_pins (d : Dev) (pg : Nat) (f : Fld) (v : Nat) : (d.setFld pg f v).pins = d.pins := d.setReg_pins _ _ _
@[simp] theorem Dev.setFld_ck (d : Dev) (pg : Nat) (f : Fld) (v : Nat) : (d.setFld pg f v).ck = d.ck := d.setReg_ck _ _ _
@[simp] theorem Dev.setFld_log (d : Dev) (pg : Nat) (f : Fld) (v : Nat) : (d.setFld pg f v).log = d.log := d.setReg_log _ _ _
@[simp] theorem Dev.setFld_out (d : Dev) (pg : Nat) (f : Fld) (v : Nat) : (d.setFld pg f v).out = d.out := d.setReg_out _ _ _
@[simp] theorem Dev.setFld_agenda (d : Dev) (pg : Nat) (f : Fld) (v : Nat) : (d.setFld pg f v).agenda = d.agenda := d.setReg_agenda _ _ _
@[simp] theorem Dev.setFld_latch (d : Dev) (pg : Nat) (f : Fld) (v : Nat) : (d.setFld pg f v).latch = d.latch := d.setReg_latch _ _ _
@[simp] theorem Dev.setFld_lineLog (d : Dev) (pg : Nat) (f : Fld) (v : Nat) : (d.setFld pg f v).lineLog = d.lineLog := d.setReg_lineLog _ _ _
@[simp] theorem Dev.setFld_msix (d : Dev) (pg : Nat) (f : Fld) (v : Nat) : (d.setFld pg f v).msix = d.msix := d.setReg_msix _ _ _
@[simp] theorem Dev.setFld_msixPend (d : Dev) (pg : Nat) (f : Fld) (v : Nat) : (d.setFld pg f v).msixPend = d.msixPend := d.setReg_msixPend _ _ _
@[simp] theorem Dev.setFld_lanes (d : Dev) (pg : Nat) (f : Fld) (v : Nat) : (d.setFld pg f v).lanes = d.lanes := d.setReg_lanes _ _ _
@[simp] theorem Dev.setFld_recs (d : Dev) (pg : Nat) (f : Fld) (v : Nat) : (d.setFld pg f v).recs = d.recs := d.setReg_recs _ _ _
@[simp] theorem Dev.setFld_nextRid (d : Dev) (pg : Nat) (f : Fld) (v : Nat) : (d.setFld pg f v).nextRid = d.nextRid := d.setReg_nextRid _ _ _
@[simp] theorem Dev.setFld_lpc (d : Dev) (pg : Nat) (f : Fld) (v : Nat) : (d.setFld pg f v).lpc = d.lpc := d.setReg_lpc _ _ _
@[simp] theorem Dev.setFld_evs (d : Dev) (pg : Nat) (f : Fld) (v : Nat) : (d.setFld pg f v).evs = d.evs := d.setReg_evs _ _ _
@[simp] theorem Dev.setFld_evsLate (d : Dev) (pg : Nat) (f : Fld) (v : Nat) : (d.setFld pg f v).evsLate = d.evsLate := d.setReg_evsLate _ _ _
@[simp] theorem Dev.setFld_evsRan (d : Dev) (pg : Nat) (f : Fld) (v : Nat) : (d.setFld pg f v).evsRan = d.evsRan := d.setReg_evsRan _ _ _
@[simp] theorem Dev.setFld_evsFired (d : Dev) (pg : Nat) (f : Fld) (v : Nat) : (d.setFld pg f v).evsFired = d.evsFired := d.setReg_evsFired _ _ _
@[simp] theorem Dev.setFld_rules (d : Dev) (pg : Nat) (f : Fld) (v : Nat) : (d.setFld pg f v).rules = d.rules := d.setReg_rules _ _ _
@[simp] theorem Dev.setFld_seqStates (d : Dev) (pg : Nat) (f : Fld) (v : Nat) : (d.setFld pg f v).seqStates = d.seqStates := d.setReg_seqStates _ _ _
@[simp] theorem Dev.setFld_seqSlots (d : Dev) (pg : Nat) (f : Fld) (v : Nat) : (d.setFld pg f v).seqSlots = d.seqSlots := d.setReg_seqSlots _ _ _
@[simp] theorem Dev.setFld_seqSel (d : Dev) (pg : Nat) (f : Fld) (v : Nat) : (d.setFld pg f v).seqSel = d.seqSel := d.setReg_seqSel _ _ _
@[simp] theorem Dev.setFld_seqs (d : Dev) (pg : Nat) (f : Fld) (v : Nat) : (d.setFld pg f v).seqs = d.seqs := d.setReg_seqs _ _ _
@[simp] theorem Dev.setFld_trigEvs (d : Dev) (pg : Nat) (f : Fld) (v : Nat) : (d.setFld pg f v).trigEvs = d.trigEvs := d.setReg_trigEvs _ _ _
@[simp] theorem Dev.setFld_bridgeOut (d : Dev) (pg : Nat) (f : Fld) (v : Nat) : (d.setFld pg f v).bridgeOut = d.bridgeOut := d.setReg_bridgeOut _ _ _
@[simp] theorem Dev.setFld_flying (d : Dev) (pg : Nat) (f : Fld) (v : Nat) : (d.setFld pg f v).flying = d.flying := d.setReg_flying _ _ _
@[simp] theorem Dev.setFld_stimIn (d : Dev) (pg : Nat) (f : Fld) (v : Nat) : (d.setFld pg f v).stimIn = d.stimIn := d.setReg_stimIn _ _ _
@[simp] theorem Dev.setFld_stims (d : Dev) (pg : Nat) (f : Fld) (v : Nat) : (d.setFld pg f v).stims = d.stims := d.setReg_stims _ _ _
@[simp] theorem Dev.setFld_plays (d : Dev) (pg : Nat) (f : Fld) (v : Nat) : (d.setFld pg f v).plays = d.plays := d.setReg_plays _ _ _
@[simp] theorem Dev.setFld_tmpls (d : Dev) (pg : Nat) (f : Fld) (v : Nat) : (d.setFld pg f v).tmpls = d.tmpls := d.setReg_tmpls _ _ _
@[simp] theorem Dev.setFld_allocs (d : Dev) (pg : Nat) (f : Fld) (v : Nat) : (d.setFld pg f v).allocs = d.allocs := d.setReg_allocs _ _ _
@[simp] theorem Dev.setFld_flows (d : Dev) (pg : Nat) (f : Fld) (v : Nat) : (d.setFld pg f v).flows = d.flows := d.setReg_flows _ _ _
@[simp] theorem Dev.setFld_nums (d : Dev) (pg : Nat) (f : Fld) (v : Nat) : (d.setFld pg f v).nums = d.nums := d.setReg_nums _ _ _
@[simp] theorem Dev.setFld_runs (d : Dev) (pg : Nat) (f : Fld) (v : Nat) : (d.setFld pg f v).runs = d.runs := d.setReg_runs _ _ _
@[simp] theorem Dev.setFld_closing (d : Dev) (pg : Nat) (f : Fld) (v : Nat) : (d.setFld pg f v).closing = d.closing := d.setReg_closing _ _ _
@[simp] theorem Dev.setFld_frozeLp (d : Dev) (pg : Nat) (f : Fld) (v : Nat) : (d.setFld pg f v).frozeLp = d.frozeLp := d.setReg_frozeLp _ _ _
@[simp] theorem Dev.setFld_cq (d : Dev) (pg : Nat) (f : Fld) (v : Nat) : (d.setFld pg f v).cq = d.cq := d.setReg_cq _ _ _
@[simp] theorem Dev.setFld_mem (d : Dev) (pg : Nat) (f : Fld) (v : Nat) : (d.setFld pg f v).mem = d.mem := d.setReg_mem _ _ _
@[simp] theorem Dev.setFld_chk (d : Dev) (pg : Nat) (f : Fld) (v : Nat) : (d.setFld pg f v).chk = d.chk := d.setReg_chk _ _ _
@[simp] theorem Dev.setFld_subs (d : Dev) (pg : Nat) (f : Fld) (v : Nat) : (d.setFld pg f v).subs = d.subs := d.setReg_subs _ _ _
@[simp] theorem Dev.setFld_dtx (d : Dev) (pg : Nat) (f : Fld) (v : Nat) : (d.setFld pg f v).dtx = d.dtx := d.setReg_dtx _ _ _
@[simp] theorem Dev.setFld_nextTx (d : Dev) (pg : Nat) (f : Fld) (v : Nat) : (d.setFld pg f v).nextTx = d.nextTx := d.setReg_nextTx _ _ _
@[simp] theorem Dev.setFld_drcs (d : Dev) (pg : Nat) (f : Fld) (v : Nat) : (d.setFld pg f v).drcs = d.drcs := d.setReg_drcs _ _ _
@[simp] theorem Dev.setFld_memis (d : Dev) (pg : Nat) (f : Fld) (v : Nat) : (d.setFld pg f v).memis = d.memis := d.setReg_memis _ _ _
@[simp] theorem Dev.setFld_crypts (d : Dev) (pg : Nat) (f : Fld) (v : Nat) : (d.setFld pg f v).crypts = d.crypts := d.setReg_crypts _ _ _
@[simp] theorem Dev.setFld_fuses (d : Dev) (pg : Nat) (f : Fld) (v : Nat) : (d.setFld pg f v).fuses = d.fuses := d.setReg_fuses _ _ _
@[simp] theorem Dev.setFld_fab (d : Dev) (pg : Nat) (f : Fld) (v : Nat) : (d.setFld pg f v).fab = d.fab := d.setReg_fab _ _ _
@[simp] theorem Dev.setFld_bays (d : Dev) (pg : Nat) (f : Fld) (v : Nat) : (d.setFld pg f v).bays = d.bays := d.setReg_bays _ _ _
@[simp] theorem Dev.setFld_scrub (d : Dev) (pg : Nat) (f : Fld) (v : Nat) : (d.setFld pg f v).scrub = d.scrub := d.setReg_scrub _ _ _
@[simp] theorem Dev.setFld_cfg (d : Dev) (pg : Nat) (f : Fld) (v : Nat) : (d.setFld pg f v).cfg = d.cfg := d.setReg_cfg _ _ _
@[simp] theorem Dev.setFld_startCk (d : Dev) (pg : Nat) (f : Fld) (v : Nat) : (d.setFld pg f v).startCk = d.startCk := d.setReg_startCk _ _ _
@[simp] theorem Dev.setFld_pmc (d : Dev) (pg : Nat) (f : Fld) (v : Nat) : (d.setFld pg f v).pmc = d.pmc := d.setReg_pmc _ _ _
@[simp] theorem Dev.setFld_dmas (d : Dev) (pg : Nat) (f : Fld) (v : Nat) : (d.setFld pg f v).dmas = d.dmas := d.setReg_dmas _ _ _
@[simp] theorem Dev.setFld_dmaTurn (d : Dev) (pg : Nat) (f : Fld) (v : Nat) : (d.setFld pg f v).dmaTurn = d.dmaTurn := d.setReg_dmaTurn _ _ _
@[simp] theorem Dev.setFld_exts (d : Dev) (pg : Nat) (f : Fld) (v : Nat) : (d.setFld pg f v).exts = d.exts := d.setReg_exts _ _ _
@[simp] theorem Dev.setFld_opened (d : Dev) (pg : Nat) (f : Fld) (v : Nat) : (d.setFld pg f v).opened = d.opened := d.setReg_opened _ _ _
@[simp] theorem Dev.setFld_nextOpen (d : Dev) (pg : Nat) (f : Fld) (v : Nat) : (d.setFld pg f v).nextOpen = d.nextOpen := d.setReg_nextOpen _ _ _
@[simp] theorem Dev.setFld_plus (d : Dev) (pg : Nat) (f : Fld) (v : Nat) : (d.setFld pg f v).plus = d.plus := d.setReg_plus _ _ _
@[simp] theorem Dev.setFld_handovers (d : Dev) (pg : Nat) (f : Fld) (v : Nat) : (d.setFld pg f v).handovers = d.handovers := d.setReg_handovers _ _ _
@[simp] theorem Dev.setFld_jrnTx (d : Dev) (pg : Nat) (f : Fld) (v : Nat) : (d.setFld pg f v).jrnTx = d.jrnTx := d.setReg_jrnTx _ _ _
@[simp] theorem Dev.setFld_meta64 (d : Dev) (pg : Nat) (f : Fld) (v : Nat) : (d.setFld pg f v).meta64 = d.meta64 := d.setReg_meta64 _ _ _
@[simp] theorem Dev.setFld_offers (d : Dev) (pg : Nat) (f : Fld) (v : Nat) : (d.setFld pg f v).offers = d.offers := d.setReg_offers _ _ _
@[simp] theorem Dev.setFld_capReads (d : Dev) (pg : Nat) (f : Fld) (v : Nat) : (d.setFld pg f v).capReads = d.capReads := d.setReg_capReads _ _ _
@[simp] theorem Dev.setFld_nextRead (d : Dev) (pg : Nat) (f : Fld) (v : Nat) : (d.setFld pg f v).nextRead = d.nextRead := d.setReg_nextRead _ _ _
@[simp] theorem Dev.setFld_seeks (d : Dev) (pg : Nat) (f : Fld) (v : Nat) : (d.setFld pg f v).seeks = d.seeks := d.setReg_seeks _ _ _
@[simp] theorem Dev.setFld_descReads (d : Dev) (pg : Nat) (f : Fld) (v : Nat) : (d.setFld pg f v).descReads = d.descReads := d.setReg_descReads _ _ _
@[simp] theorem Dev.setFld_engs (d : Dev) (pg : Nat) (f : Fld) (v : Nat) : (d.setFld pg f v).engs = d.engs := d.setReg_engs _ _ _
@[simp] theorem Dev.setFld_dbgs (d : Dev) (pg : Nat) (f : Fld) (v : Nat) : (d.setFld pg f v).dbgs = d.dbgs := d.setReg_dbgs _ _ _
@[simp] theorem Dev.setFld_gks (d : Dev) (pg : Nat) (f : Fld) (v : Nat) : (d.setFld pg f v).gks = d.gks := d.setReg_gks _ _ _
@[simp] theorem Dev.setFld_bayQ (d : Dev) (pg : Nat) (f : Fld) (v : Nat) : (d.setFld pg f v).bayQ = d.bayQ := d.setReg_bayQ _ _ _
@[simp] theorem Dev.setFld_spQ (d : Dev) (pg : Nat) (f : Fld) (v : Nat) : (d.setFld pg f v).spQ = d.spQ := d.setReg_spQ _ _ _
@[simp] theorem Dev.setFld_resvs (d : Dev) (pg : Nat) (f : Fld) (v : Nat) : (d.setFld pg f v).resvs = d.resvs := d.setReg_resvs _ _ _
@[simp] theorem Dev.setFld_nocReqs (d : Dev) (pg : Nat) (f : Fld) (v : Nat) : (d.setFld pg f v).nocReqs = d.nocReqs := d.setReg_nocReqs _ _ _
@[simp] theorem Dev.setFld_nextNoc (d : Dev) (pg : Nat) (f : Fld) (v : Nat) : (d.setFld pg f v).nextNoc = d.nextNoc := d.setReg_nextNoc _ _ _
@[simp] theorem Dev.setFld_nocs (d : Dev) (pg : Nat) (f : Fld) (v : Nat) : (d.setFld pg f v).nocs = d.nocs := d.setReg_nocs _ _ _
@[simp] theorem Dev.setFld_linkRuns (d : Dev) (pg : Nat) (f : Fld) (v : Nat) : (d.setFld pg f v).linkRuns = d.linkRuns := d.setReg_linkRuns _ _ _
@[simp] theorem Dev.setFld_tests (d : Dev) (pg : Nat) (f : Fld) (v : Nat) : (d.setFld pg f v).tests = d.tests := d.setReg_tests _ _ _
@[simp] theorem Dev.setFld_ctx (d : Dev) (pg : Nat) (f : Fld) (v : Nat) : (d.setFld pg f v).ctx = d.ctx := d.setReg_ctx _ _ _
@[simp] theorem Dev.setFld_ctxBad (d : Dev) (pg : Nat) (f : Fld) (v : Nat) : (d.setFld pg f v).ctxBad = d.ctxBad := d.setReg_ctxBad _ _ _
@[simp] theorem Dev.setFld_imem (d : Dev) (pg : Nat) (f : Fld) (v : Nat) : (d.setFld pg f v).imem = d.imem := d.setReg_imem _ _ _
@[simp] theorem Dev.setFld_epochs (d : Dev) (pg : Nat) (f : Fld) (v : Nat) : (d.setFld pg f v).epochs = d.epochs := d.setReg_epochs _ _ _
@[simp] theorem Dev.setFld_alignRecs (d : Dev) (pg : Nat) (f : Fld) (v : Nat) : (d.setFld pg f v).alignRecs = d.alignRecs := d.setReg_alignRecs _ _ _
@[simp] theorem Dev.setFld_holds (d : Dev) (pg : Nat) (f : Fld) (v : Nat) : (d.setFld pg f v).holds = d.holds := d.setReg_holds _ _ _
@[simp] theorem Dev.setFld_pair (d : Dev) (pg : Nat) (f : Fld) (v : Nat) : (d.setFld pg f v).pair = d.pair := d.setReg_pair _ _ _
@[simp] theorem Dev.setFld_hostEvs (d : Dev) (pg : Nat) (f : Fld) (v : Nat) : (d.setFld pg f v).hostEvs = d.hostEvs := d.setReg_hostEvs _ _ _
@[simp] theorem Dev.setFld_evtPhase (d : Dev) (pg : Nat) (f : Fld) (v : Nat) : (d.setFld pg f v).evtPhase = d.evtPhase := d.setReg_evtPhase _ _ _
@[simp] theorem Dev.setFld_hcmd (d : Dev) (pg : Nat) (f : Fld) (v : Nat) : (d.setFld pg f v).hcmd = d.hcmd := d.setReg_hcmd _ _ _
@[simp] theorem Dev.setFld_fetching (d : Dev) (pg : Nat) (f : Fld) (v : Nat) : (d.setFld pg f v).fetching = d.fetching := d.setReg_fetching _ _ _
@[simp] theorem Dev.setFld_cmdBell (d : Dev) (pg : Nat) (f : Fld) (v : Nat) : (d.setFld pg f v).cmdBell = d.cmdBell := d.setReg_cmdBell _ _ _
@[simp] theorem Dev.setFld_boot (d : Dev) (pg : Nat) (f : Fld) (v : Nat) : (d.setFld pg f v).boot = d.boot := d.setReg_boot _ _ _
@[simp] theorem Dev.setFld_tokenCk (d : Dev) (pg : Nat) (f : Fld) (v : Nat) : (d.setFld pg f v).tokenCk = d.tokenCk := d.setReg_tokenCk _ _ _

/-! `noteCount`. -/

@[simp] theorem Dev.noteCount_rst (d : Dev) (pg : Nat) (f : Fld) (k : Nat) : (d.noteCount pg f k).rst = d.rst := d.setLog_rst _
@[simp] theorem Dev.noteCount_sources (d : Dev) (pg : Nat) (f : Fld) (k : Nat) : (d.noteCount pg f k).sources = d.sources := d.setLog_sources _
@[simp] theorem Dev.noteCount_started (d : Dev) (pg : Nat) (f : Fld) (k : Nat) : (d.noteCount pg f k).started = d.started := d.setLog_started _
@[simp] theorem Dev.noteCount_thermTrip (d : Dev) (pg : Nat) (f : Fld) (k : Nat) : (d.noteCount pg f k).thermTrip = d.thermTrip := d.setLog_thermTrip _
@[simp] theorem Dev.noteCount_modeTarget (d : Dev) (pg : Nat) (f : Fld) (k : Nat) : (d.noteCount pg f k).modeTarget = d.modeTarget := d.setLog_modeTarget _
@[simp] theorem Dev.noteCount_reqCk (d : Dev) (pg : Nat) (f : Fld) (k : Nat) : (d.noteCount pg f k).reqCk = d.reqCk := d.setLog_reqCk _
@[simp] theorem Dev.noteCount_readyCk (d : Dev) (pg : Nat) (f : Fld) (k : Nat) : (d.noteCount pg f k).readyCk = d.readyCk := d.setLog_readyCk _
@[simp] theorem Dev.noteCount_offEntry (d : Dev) (pg : Nat) (f : Fld) (k : Nat) : (d.noteCount pg f k).offEntry = d.offEntry := d.setLog_offEntry _
@[simp] theorem Dev.noteCount_safeEntry (d : Dev) (pg : Nat) (f : Fld) (k : Nat) : (d.noteCount pg f k).safeEntry = d.safeEntry := d.setLog_safeEntry _
@[simp] theorem Dev.noteCount_safeCk (d : Dev) (pg : Nat) (f : Fld) (k : Nat) : (d.noteCount pg f k).safeCk = d.safeCk := d.setLog_safeCk _
@[simp] theorem Dev.noteCount_safeDue (d : Dev) (pg : Nat) (f : Fld) (k : Nat) : (d.noteCount pg f k).safeDue = d.safeDue := d.setLog_safeDue _
@[simp] theorem Dev.noteCount_south (d : Dev) (pg : Nat) (f : Fld) (k : Nat) : (d.noteCount pg f k).south = d.south := d.setLog_south _
@[simp] theorem Dev.noteCount_waking (d : Dev) (pg : Nat) (f : Fld) (k : Nat) : (d.noteCount pg f k).waking = d.waking := d.setLog_waking _
@[simp] theorem Dev.noteCount_lanesBegun (d : Dev) (pg : Nat) (f : Fld) (k : Nat) : (d.noteCount pg f k).lanesBegun = d.lanesBegun := d.setLog_lanesBegun _
@[simp] theorem Dev.noteCount_lanesDue (d : Dev) (pg : Nat) (f : Fld) (k : Nat) : (d.noteCount pg f k).lanesDue = d.lanesDue := d.setLog_lanesDue _
@[simp] theorem Dev.noteCount_ins (d : Dev) (pg : Nat) (f : Fld) (k : Nat) : (d.noteCount pg f k).ins = d.ins := d.setLog_ins _
@[simp] theorem Dev.noteCount_pins (d : Dev) (pg : Nat) (f : Fld) (k : Nat) : (d.noteCount pg f k).pins = d.pins := d.setLog_pins _
@[simp] theorem Dev.noteCount_ck (d : Dev) (pg : Nat) (f : Fld) (k : Nat) : (d.noteCount pg f k).ck = d.ck := d.setLog_ck _
@[simp] theorem Dev.noteCount_regs (d : Dev) (pg : Nat) (f : Fld) (k : Nat) : (d.noteCount pg f k).regs = d.regs := d.setLog_regs _
@[simp] theorem Dev.noteCount_out (d : Dev) (pg : Nat) (f : Fld) (k : Nat) : (d.noteCount pg f k).out = d.out := d.setLog_out _
@[simp] theorem Dev.noteCount_agenda (d : Dev) (pg : Nat) (f : Fld) (k : Nat) : (d.noteCount pg f k).agenda = d.agenda := d.setLog_agenda _
@[simp] theorem Dev.noteCount_latch (d : Dev) (pg : Nat) (f : Fld) (k : Nat) : (d.noteCount pg f k).latch = d.latch := d.setLog_latch _
@[simp] theorem Dev.noteCount_lineLog (d : Dev) (pg : Nat) (f : Fld) (k : Nat) : (d.noteCount pg f k).lineLog = d.lineLog := d.setLog_lineLog _
@[simp] theorem Dev.noteCount_msix (d : Dev) (pg : Nat) (f : Fld) (k : Nat) : (d.noteCount pg f k).msix = d.msix := d.setLog_msix _
@[simp] theorem Dev.noteCount_msixPend (d : Dev) (pg : Nat) (f : Fld) (k : Nat) : (d.noteCount pg f k).msixPend = d.msixPend := d.setLog_msixPend _
@[simp] theorem Dev.noteCount_lanes (d : Dev) (pg : Nat) (f : Fld) (k : Nat) : (d.noteCount pg f k).lanes = d.lanes := d.setLog_lanes _
@[simp] theorem Dev.noteCount_recs (d : Dev) (pg : Nat) (f : Fld) (k : Nat) : (d.noteCount pg f k).recs = d.recs := d.setLog_recs _
@[simp] theorem Dev.noteCount_nextRid (d : Dev) (pg : Nat) (f : Fld) (k : Nat) : (d.noteCount pg f k).nextRid = d.nextRid := d.setLog_nextRid _
@[simp] theorem Dev.noteCount_lpc (d : Dev) (pg : Nat) (f : Fld) (k : Nat) : (d.noteCount pg f k).lpc = d.lpc := d.setLog_lpc _
@[simp] theorem Dev.noteCount_evs (d : Dev) (pg : Nat) (f : Fld) (k : Nat) : (d.noteCount pg f k).evs = d.evs := d.setLog_evs _
@[simp] theorem Dev.noteCount_evsLate (d : Dev) (pg : Nat) (f : Fld) (k : Nat) : (d.noteCount pg f k).evsLate = d.evsLate := d.setLog_evsLate _
@[simp] theorem Dev.noteCount_evsRan (d : Dev) (pg : Nat) (f : Fld) (k : Nat) : (d.noteCount pg f k).evsRan = d.evsRan := d.setLog_evsRan _
@[simp] theorem Dev.noteCount_evsFired (d : Dev) (pg : Nat) (f : Fld) (k : Nat) : (d.noteCount pg f k).evsFired = d.evsFired := d.setLog_evsFired _
@[simp] theorem Dev.noteCount_rules (d : Dev) (pg : Nat) (f : Fld) (k : Nat) : (d.noteCount pg f k).rules = d.rules := d.setLog_rules _
@[simp] theorem Dev.noteCount_seqStates (d : Dev) (pg : Nat) (f : Fld) (k : Nat) : (d.noteCount pg f k).seqStates = d.seqStates := d.setLog_seqStates _
@[simp] theorem Dev.noteCount_seqSlots (d : Dev) (pg : Nat) (f : Fld) (k : Nat) : (d.noteCount pg f k).seqSlots = d.seqSlots := d.setLog_seqSlots _
@[simp] theorem Dev.noteCount_seqSel (d : Dev) (pg : Nat) (f : Fld) (k : Nat) : (d.noteCount pg f k).seqSel = d.seqSel := d.setLog_seqSel _
@[simp] theorem Dev.noteCount_seqs (d : Dev) (pg : Nat) (f : Fld) (k : Nat) : (d.noteCount pg f k).seqs = d.seqs := d.setLog_seqs _
@[simp] theorem Dev.noteCount_trigEvs (d : Dev) (pg : Nat) (f : Fld) (k : Nat) : (d.noteCount pg f k).trigEvs = d.trigEvs := d.setLog_trigEvs _
@[simp] theorem Dev.noteCount_bridgeOut (d : Dev) (pg : Nat) (f : Fld) (k : Nat) : (d.noteCount pg f k).bridgeOut = d.bridgeOut := d.setLog_bridgeOut _
@[simp] theorem Dev.noteCount_flying (d : Dev) (pg : Nat) (f : Fld) (k : Nat) : (d.noteCount pg f k).flying = d.flying := d.setLog_flying _
@[simp] theorem Dev.noteCount_stimIn (d : Dev) (pg : Nat) (f : Fld) (k : Nat) : (d.noteCount pg f k).stimIn = d.stimIn := d.setLog_stimIn _
@[simp] theorem Dev.noteCount_stims (d : Dev) (pg : Nat) (f : Fld) (k : Nat) : (d.noteCount pg f k).stims = d.stims := d.setLog_stims _
@[simp] theorem Dev.noteCount_plays (d : Dev) (pg : Nat) (f : Fld) (k : Nat) : (d.noteCount pg f k).plays = d.plays := d.setLog_plays _
@[simp] theorem Dev.noteCount_tmpls (d : Dev) (pg : Nat) (f : Fld) (k : Nat) : (d.noteCount pg f k).tmpls = d.tmpls := d.setLog_tmpls _
@[simp] theorem Dev.noteCount_allocs (d : Dev) (pg : Nat) (f : Fld) (k : Nat) : (d.noteCount pg f k).allocs = d.allocs := d.setLog_allocs _
@[simp] theorem Dev.noteCount_flows (d : Dev) (pg : Nat) (f : Fld) (k : Nat) : (d.noteCount pg f k).flows = d.flows := d.setLog_flows _
@[simp] theorem Dev.noteCount_nums (d : Dev) (pg : Nat) (f : Fld) (k : Nat) : (d.noteCount pg f k).nums = d.nums := d.setLog_nums _
@[simp] theorem Dev.noteCount_runs (d : Dev) (pg : Nat) (f : Fld) (k : Nat) : (d.noteCount pg f k).runs = d.runs := d.setLog_runs _
@[simp] theorem Dev.noteCount_closing (d : Dev) (pg : Nat) (f : Fld) (k : Nat) : (d.noteCount pg f k).closing = d.closing := d.setLog_closing _
@[simp] theorem Dev.noteCount_frozeLp (d : Dev) (pg : Nat) (f : Fld) (k : Nat) : (d.noteCount pg f k).frozeLp = d.frozeLp := d.setLog_frozeLp _
@[simp] theorem Dev.noteCount_cq (d : Dev) (pg : Nat) (f : Fld) (k : Nat) : (d.noteCount pg f k).cq = d.cq := d.setLog_cq _
@[simp] theorem Dev.noteCount_mem (d : Dev) (pg : Nat) (f : Fld) (k : Nat) : (d.noteCount pg f k).mem = d.mem := d.setLog_mem _
@[simp] theorem Dev.noteCount_chk (d : Dev) (pg : Nat) (f : Fld) (k : Nat) : (d.noteCount pg f k).chk = d.chk := d.setLog_chk _
@[simp] theorem Dev.noteCount_subs (d : Dev) (pg : Nat) (f : Fld) (k : Nat) : (d.noteCount pg f k).subs = d.subs := d.setLog_subs _
@[simp] theorem Dev.noteCount_dtx (d : Dev) (pg : Nat) (f : Fld) (k : Nat) : (d.noteCount pg f k).dtx = d.dtx := d.setLog_dtx _
@[simp] theorem Dev.noteCount_nextTx (d : Dev) (pg : Nat) (f : Fld) (k : Nat) : (d.noteCount pg f k).nextTx = d.nextTx := d.setLog_nextTx _
@[simp] theorem Dev.noteCount_drcs (d : Dev) (pg : Nat) (f : Fld) (k : Nat) : (d.noteCount pg f k).drcs = d.drcs := d.setLog_drcs _
@[simp] theorem Dev.noteCount_memis (d : Dev) (pg : Nat) (f : Fld) (k : Nat) : (d.noteCount pg f k).memis = d.memis := d.setLog_memis _
@[simp] theorem Dev.noteCount_crypts (d : Dev) (pg : Nat) (f : Fld) (k : Nat) : (d.noteCount pg f k).crypts = d.crypts := d.setLog_crypts _
@[simp] theorem Dev.noteCount_fuses (d : Dev) (pg : Nat) (f : Fld) (k : Nat) : (d.noteCount pg f k).fuses = d.fuses := d.setLog_fuses _
@[simp] theorem Dev.noteCount_fab (d : Dev) (pg : Nat) (f : Fld) (k : Nat) : (d.noteCount pg f k).fab = d.fab := d.setLog_fab _
@[simp] theorem Dev.noteCount_bays (d : Dev) (pg : Nat) (f : Fld) (k : Nat) : (d.noteCount pg f k).bays = d.bays := d.setLog_bays _
@[simp] theorem Dev.noteCount_scrub (d : Dev) (pg : Nat) (f : Fld) (k : Nat) : (d.noteCount pg f k).scrub = d.scrub := d.setLog_scrub _
@[simp] theorem Dev.noteCount_cfg (d : Dev) (pg : Nat) (f : Fld) (k : Nat) : (d.noteCount pg f k).cfg = d.cfg := d.setLog_cfg _
@[simp] theorem Dev.noteCount_startCk (d : Dev) (pg : Nat) (f : Fld) (k : Nat) : (d.noteCount pg f k).startCk = d.startCk := d.setLog_startCk _
@[simp] theorem Dev.noteCount_pmc (d : Dev) (pg : Nat) (f : Fld) (k : Nat) : (d.noteCount pg f k).pmc = d.pmc := d.setLog_pmc _
@[simp] theorem Dev.noteCount_dmas (d : Dev) (pg : Nat) (f : Fld) (k : Nat) : (d.noteCount pg f k).dmas = d.dmas := d.setLog_dmas _
@[simp] theorem Dev.noteCount_dmaTurn (d : Dev) (pg : Nat) (f : Fld) (k : Nat) : (d.noteCount pg f k).dmaTurn = d.dmaTurn := d.setLog_dmaTurn _
@[simp] theorem Dev.noteCount_exts (d : Dev) (pg : Nat) (f : Fld) (k : Nat) : (d.noteCount pg f k).exts = d.exts := d.setLog_exts _
@[simp] theorem Dev.noteCount_opened (d : Dev) (pg : Nat) (f : Fld) (k : Nat) : (d.noteCount pg f k).opened = d.opened := d.setLog_opened _
@[simp] theorem Dev.noteCount_nextOpen (d : Dev) (pg : Nat) (f : Fld) (k : Nat) : (d.noteCount pg f k).nextOpen = d.nextOpen := d.setLog_nextOpen _
@[simp] theorem Dev.noteCount_plus (d : Dev) (pg : Nat) (f : Fld) (k : Nat) : (d.noteCount pg f k).plus = d.plus := d.setLog_plus _
@[simp] theorem Dev.noteCount_handovers (d : Dev) (pg : Nat) (f : Fld) (k : Nat) : (d.noteCount pg f k).handovers = d.handovers := d.setLog_handovers _
@[simp] theorem Dev.noteCount_jrnTx (d : Dev) (pg : Nat) (f : Fld) (k : Nat) : (d.noteCount pg f k).jrnTx = d.jrnTx := d.setLog_jrnTx _
@[simp] theorem Dev.noteCount_meta64 (d : Dev) (pg : Nat) (f : Fld) (k : Nat) : (d.noteCount pg f k).meta64 = d.meta64 := d.setLog_meta64 _
@[simp] theorem Dev.noteCount_offers (d : Dev) (pg : Nat) (f : Fld) (k : Nat) : (d.noteCount pg f k).offers = d.offers := d.setLog_offers _
@[simp] theorem Dev.noteCount_capReads (d : Dev) (pg : Nat) (f : Fld) (k : Nat) : (d.noteCount pg f k).capReads = d.capReads := d.setLog_capReads _
@[simp] theorem Dev.noteCount_nextRead (d : Dev) (pg : Nat) (f : Fld) (k : Nat) : (d.noteCount pg f k).nextRead = d.nextRead := d.setLog_nextRead _
@[simp] theorem Dev.noteCount_seeks (d : Dev) (pg : Nat) (f : Fld) (k : Nat) : (d.noteCount pg f k).seeks = d.seeks := d.setLog_seeks _
@[simp] theorem Dev.noteCount_descReads (d : Dev) (pg : Nat) (f : Fld) (k : Nat) : (d.noteCount pg f k).descReads = d.descReads := d.setLog_descReads _
@[simp] theorem Dev.noteCount_engs (d : Dev) (pg : Nat) (f : Fld) (k : Nat) : (d.noteCount pg f k).engs = d.engs := d.setLog_engs _
@[simp] theorem Dev.noteCount_dbgs (d : Dev) (pg : Nat) (f : Fld) (k : Nat) : (d.noteCount pg f k).dbgs = d.dbgs := d.setLog_dbgs _
@[simp] theorem Dev.noteCount_gks (d : Dev) (pg : Nat) (f : Fld) (k : Nat) : (d.noteCount pg f k).gks = d.gks := d.setLog_gks _
@[simp] theorem Dev.noteCount_bayQ (d : Dev) (pg : Nat) (f : Fld) (k : Nat) : (d.noteCount pg f k).bayQ = d.bayQ := d.setLog_bayQ _
@[simp] theorem Dev.noteCount_spQ (d : Dev) (pg : Nat) (f : Fld) (k : Nat) : (d.noteCount pg f k).spQ = d.spQ := d.setLog_spQ _
@[simp] theorem Dev.noteCount_resvs (d : Dev) (pg : Nat) (f : Fld) (k : Nat) : (d.noteCount pg f k).resvs = d.resvs := d.setLog_resvs _
@[simp] theorem Dev.noteCount_nocReqs (d : Dev) (pg : Nat) (f : Fld) (k : Nat) : (d.noteCount pg f k).nocReqs = d.nocReqs := d.setLog_nocReqs _
@[simp] theorem Dev.noteCount_nextNoc (d : Dev) (pg : Nat) (f : Fld) (k : Nat) : (d.noteCount pg f k).nextNoc = d.nextNoc := d.setLog_nextNoc _
@[simp] theorem Dev.noteCount_nocs (d : Dev) (pg : Nat) (f : Fld) (k : Nat) : (d.noteCount pg f k).nocs = d.nocs := d.setLog_nocs _
@[simp] theorem Dev.noteCount_linkRuns (d : Dev) (pg : Nat) (f : Fld) (k : Nat) : (d.noteCount pg f k).linkRuns = d.linkRuns := d.setLog_linkRuns _
@[simp] theorem Dev.noteCount_tests (d : Dev) (pg : Nat) (f : Fld) (k : Nat) : (d.noteCount pg f k).tests = d.tests := d.setLog_tests _
@[simp] theorem Dev.noteCount_ctx (d : Dev) (pg : Nat) (f : Fld) (k : Nat) : (d.noteCount pg f k).ctx = d.ctx := d.setLog_ctx _
@[simp] theorem Dev.noteCount_ctxBad (d : Dev) (pg : Nat) (f : Fld) (k : Nat) : (d.noteCount pg f k).ctxBad = d.ctxBad := d.setLog_ctxBad _
@[simp] theorem Dev.noteCount_imem (d : Dev) (pg : Nat) (f : Fld) (k : Nat) : (d.noteCount pg f k).imem = d.imem := d.setLog_imem _
@[simp] theorem Dev.noteCount_epochs (d : Dev) (pg : Nat) (f : Fld) (k : Nat) : (d.noteCount pg f k).epochs = d.epochs := d.setLog_epochs _
@[simp] theorem Dev.noteCount_alignRecs (d : Dev) (pg : Nat) (f : Fld) (k : Nat) : (d.noteCount pg f k).alignRecs = d.alignRecs := d.setLog_alignRecs _
@[simp] theorem Dev.noteCount_holds (d : Dev) (pg : Nat) (f : Fld) (k : Nat) : (d.noteCount pg f k).holds = d.holds := d.setLog_holds _
@[simp] theorem Dev.noteCount_pair (d : Dev) (pg : Nat) (f : Fld) (k : Nat) : (d.noteCount pg f k).pair = d.pair := d.setLog_pair _
@[simp] theorem Dev.noteCount_hostEvs (d : Dev) (pg : Nat) (f : Fld) (k : Nat) : (d.noteCount pg f k).hostEvs = d.hostEvs := d.setLog_hostEvs _
@[simp] theorem Dev.noteCount_evtPhase (d : Dev) (pg : Nat) (f : Fld) (k : Nat) : (d.noteCount pg f k).evtPhase = d.evtPhase := d.setLog_evtPhase _
@[simp] theorem Dev.noteCount_hcmd (d : Dev) (pg : Nat) (f : Fld) (k : Nat) : (d.noteCount pg f k).hcmd = d.hcmd := d.setLog_hcmd _
@[simp] theorem Dev.noteCount_fetching (d : Dev) (pg : Nat) (f : Fld) (k : Nat) : (d.noteCount pg f k).fetching = d.fetching := d.setLog_fetching _
@[simp] theorem Dev.noteCount_cmdBell (d : Dev) (pg : Nat) (f : Fld) (k : Nat) : (d.noteCount pg f k).cmdBell = d.cmdBell := d.setLog_cmdBell _
@[simp] theorem Dev.noteCount_boot (d : Dev) (pg : Nat) (f : Fld) (k : Nat) : (d.noteCount pg f k).boot = d.boot := d.setLog_boot _
@[simp] theorem Dev.noteCount_tokenCk (d : Dev) (pg : Nat) (f : Fld) (k : Nat) : (d.noteCount pg f k).tokenCk = d.tokenCk := d.setLog_tokenCk _

/-! `bump`. -/

@[simp] theorem Dev.bump_rst (d : Dev) (pg : Nat) (f : Fld) : (d.bump pg f).rst = d.rst := ((d.setFld pg f _).noteCount_rst _ _ _).trans (d.setFld_rst _ _ _)
@[simp] theorem Dev.bump_sources (d : Dev) (pg : Nat) (f : Fld) : (d.bump pg f).sources = d.sources := ((d.setFld pg f _).noteCount_sources _ _ _).trans (d.setFld_sources _ _ _)
@[simp] theorem Dev.bump_started (d : Dev) (pg : Nat) (f : Fld) : (d.bump pg f).started = d.started := ((d.setFld pg f _).noteCount_started _ _ _).trans (d.setFld_started _ _ _)
@[simp] theorem Dev.bump_thermTrip (d : Dev) (pg : Nat) (f : Fld) : (d.bump pg f).thermTrip = d.thermTrip := ((d.setFld pg f _).noteCount_thermTrip _ _ _).trans (d.setFld_thermTrip _ _ _)
@[simp] theorem Dev.bump_modeTarget (d : Dev) (pg : Nat) (f : Fld) : (d.bump pg f).modeTarget = d.modeTarget := ((d.setFld pg f _).noteCount_modeTarget _ _ _).trans (d.setFld_modeTarget _ _ _)
@[simp] theorem Dev.bump_reqCk (d : Dev) (pg : Nat) (f : Fld) : (d.bump pg f).reqCk = d.reqCk := ((d.setFld pg f _).noteCount_reqCk _ _ _).trans (d.setFld_reqCk _ _ _)
@[simp] theorem Dev.bump_readyCk (d : Dev) (pg : Nat) (f : Fld) : (d.bump pg f).readyCk = d.readyCk := ((d.setFld pg f _).noteCount_readyCk _ _ _).trans (d.setFld_readyCk _ _ _)
@[simp] theorem Dev.bump_offEntry (d : Dev) (pg : Nat) (f : Fld) : (d.bump pg f).offEntry = d.offEntry := ((d.setFld pg f _).noteCount_offEntry _ _ _).trans (d.setFld_offEntry _ _ _)
@[simp] theorem Dev.bump_safeEntry (d : Dev) (pg : Nat) (f : Fld) : (d.bump pg f).safeEntry = d.safeEntry := ((d.setFld pg f _).noteCount_safeEntry _ _ _).trans (d.setFld_safeEntry _ _ _)
@[simp] theorem Dev.bump_safeCk (d : Dev) (pg : Nat) (f : Fld) : (d.bump pg f).safeCk = d.safeCk := ((d.setFld pg f _).noteCount_safeCk _ _ _).trans (d.setFld_safeCk _ _ _)
@[simp] theorem Dev.bump_safeDue (d : Dev) (pg : Nat) (f : Fld) : (d.bump pg f).safeDue = d.safeDue := ((d.setFld pg f _).noteCount_safeDue _ _ _).trans (d.setFld_safeDue _ _ _)
@[simp] theorem Dev.bump_south (d : Dev) (pg : Nat) (f : Fld) : (d.bump pg f).south = d.south := ((d.setFld pg f _).noteCount_south _ _ _).trans (d.setFld_south _ _ _)
@[simp] theorem Dev.bump_waking (d : Dev) (pg : Nat) (f : Fld) : (d.bump pg f).waking = d.waking := ((d.setFld pg f _).noteCount_waking _ _ _).trans (d.setFld_waking _ _ _)
@[simp] theorem Dev.bump_lanesBegun (d : Dev) (pg : Nat) (f : Fld) : (d.bump pg f).lanesBegun = d.lanesBegun := ((d.setFld pg f _).noteCount_lanesBegun _ _ _).trans (d.setFld_lanesBegun _ _ _)
@[simp] theorem Dev.bump_lanesDue (d : Dev) (pg : Nat) (f : Fld) : (d.bump pg f).lanesDue = d.lanesDue := ((d.setFld pg f _).noteCount_lanesDue _ _ _).trans (d.setFld_lanesDue _ _ _)
@[simp] theorem Dev.bump_ins (d : Dev) (pg : Nat) (f : Fld) : (d.bump pg f).ins = d.ins := ((d.setFld pg f _).noteCount_ins _ _ _).trans (d.setFld_ins _ _ _)
@[simp] theorem Dev.bump_pins (d : Dev) (pg : Nat) (f : Fld) : (d.bump pg f).pins = d.pins := ((d.setFld pg f _).noteCount_pins _ _ _).trans (d.setFld_pins _ _ _)
@[simp] theorem Dev.bump_ck (d : Dev) (pg : Nat) (f : Fld) : (d.bump pg f).ck = d.ck := ((d.setFld pg f _).noteCount_ck _ _ _).trans (d.setFld_ck _ _ _)
@[simp] theorem Dev.bump_out (d : Dev) (pg : Nat) (f : Fld) : (d.bump pg f).out = d.out := ((d.setFld pg f _).noteCount_out _ _ _).trans (d.setFld_out _ _ _)
@[simp] theorem Dev.bump_agenda (d : Dev) (pg : Nat) (f : Fld) : (d.bump pg f).agenda = d.agenda := ((d.setFld pg f _).noteCount_agenda _ _ _).trans (d.setFld_agenda _ _ _)
@[simp] theorem Dev.bump_latch (d : Dev) (pg : Nat) (f : Fld) : (d.bump pg f).latch = d.latch := ((d.setFld pg f _).noteCount_latch _ _ _).trans (d.setFld_latch _ _ _)
@[simp] theorem Dev.bump_lineLog (d : Dev) (pg : Nat) (f : Fld) : (d.bump pg f).lineLog = d.lineLog := ((d.setFld pg f _).noteCount_lineLog _ _ _).trans (d.setFld_lineLog _ _ _)
@[simp] theorem Dev.bump_msix (d : Dev) (pg : Nat) (f : Fld) : (d.bump pg f).msix = d.msix := ((d.setFld pg f _).noteCount_msix _ _ _).trans (d.setFld_msix _ _ _)
@[simp] theorem Dev.bump_msixPend (d : Dev) (pg : Nat) (f : Fld) : (d.bump pg f).msixPend = d.msixPend := ((d.setFld pg f _).noteCount_msixPend _ _ _).trans (d.setFld_msixPend _ _ _)
@[simp] theorem Dev.bump_lanes (d : Dev) (pg : Nat) (f : Fld) : (d.bump pg f).lanes = d.lanes := ((d.setFld pg f _).noteCount_lanes _ _ _).trans (d.setFld_lanes _ _ _)
@[simp] theorem Dev.bump_recs (d : Dev) (pg : Nat) (f : Fld) : (d.bump pg f).recs = d.recs := ((d.setFld pg f _).noteCount_recs _ _ _).trans (d.setFld_recs _ _ _)
@[simp] theorem Dev.bump_nextRid (d : Dev) (pg : Nat) (f : Fld) : (d.bump pg f).nextRid = d.nextRid := ((d.setFld pg f _).noteCount_nextRid _ _ _).trans (d.setFld_nextRid _ _ _)
@[simp] theorem Dev.bump_lpc (d : Dev) (pg : Nat) (f : Fld) : (d.bump pg f).lpc = d.lpc := ((d.setFld pg f _).noteCount_lpc _ _ _).trans (d.setFld_lpc _ _ _)
@[simp] theorem Dev.bump_evs (d : Dev) (pg : Nat) (f : Fld) : (d.bump pg f).evs = d.evs := ((d.setFld pg f _).noteCount_evs _ _ _).trans (d.setFld_evs _ _ _)
@[simp] theorem Dev.bump_evsLate (d : Dev) (pg : Nat) (f : Fld) : (d.bump pg f).evsLate = d.evsLate := ((d.setFld pg f _).noteCount_evsLate _ _ _).trans (d.setFld_evsLate _ _ _)
@[simp] theorem Dev.bump_evsRan (d : Dev) (pg : Nat) (f : Fld) : (d.bump pg f).evsRan = d.evsRan := ((d.setFld pg f _).noteCount_evsRan _ _ _).trans (d.setFld_evsRan _ _ _)
@[simp] theorem Dev.bump_evsFired (d : Dev) (pg : Nat) (f : Fld) : (d.bump pg f).evsFired = d.evsFired := ((d.setFld pg f _).noteCount_evsFired _ _ _).trans (d.setFld_evsFired _ _ _)
@[simp] theorem Dev.bump_rules (d : Dev) (pg : Nat) (f : Fld) : (d.bump pg f).rules = d.rules := ((d.setFld pg f _).noteCount_rules _ _ _).trans (d.setFld_rules _ _ _)
@[simp] theorem Dev.bump_seqStates (d : Dev) (pg : Nat) (f : Fld) : (d.bump pg f).seqStates = d.seqStates := ((d.setFld pg f _).noteCount_seqStates _ _ _).trans (d.setFld_seqStates _ _ _)
@[simp] theorem Dev.bump_seqSlots (d : Dev) (pg : Nat) (f : Fld) : (d.bump pg f).seqSlots = d.seqSlots := ((d.setFld pg f _).noteCount_seqSlots _ _ _).trans (d.setFld_seqSlots _ _ _)
@[simp] theorem Dev.bump_seqSel (d : Dev) (pg : Nat) (f : Fld) : (d.bump pg f).seqSel = d.seqSel := ((d.setFld pg f _).noteCount_seqSel _ _ _).trans (d.setFld_seqSel _ _ _)
@[simp] theorem Dev.bump_seqs (d : Dev) (pg : Nat) (f : Fld) : (d.bump pg f).seqs = d.seqs := ((d.setFld pg f _).noteCount_seqs _ _ _).trans (d.setFld_seqs _ _ _)
@[simp] theorem Dev.bump_trigEvs (d : Dev) (pg : Nat) (f : Fld) : (d.bump pg f).trigEvs = d.trigEvs := ((d.setFld pg f _).noteCount_trigEvs _ _ _).trans (d.setFld_trigEvs _ _ _)
@[simp] theorem Dev.bump_bridgeOut (d : Dev) (pg : Nat) (f : Fld) : (d.bump pg f).bridgeOut = d.bridgeOut := ((d.setFld pg f _).noteCount_bridgeOut _ _ _).trans (d.setFld_bridgeOut _ _ _)
@[simp] theorem Dev.bump_flying (d : Dev) (pg : Nat) (f : Fld) : (d.bump pg f).flying = d.flying := ((d.setFld pg f _).noteCount_flying _ _ _).trans (d.setFld_flying _ _ _)
@[simp] theorem Dev.bump_stimIn (d : Dev) (pg : Nat) (f : Fld) : (d.bump pg f).stimIn = d.stimIn := ((d.setFld pg f _).noteCount_stimIn _ _ _).trans (d.setFld_stimIn _ _ _)
@[simp] theorem Dev.bump_stims (d : Dev) (pg : Nat) (f : Fld) : (d.bump pg f).stims = d.stims := ((d.setFld pg f _).noteCount_stims _ _ _).trans (d.setFld_stims _ _ _)
@[simp] theorem Dev.bump_plays (d : Dev) (pg : Nat) (f : Fld) : (d.bump pg f).plays = d.plays := ((d.setFld pg f _).noteCount_plays _ _ _).trans (d.setFld_plays _ _ _)
@[simp] theorem Dev.bump_tmpls (d : Dev) (pg : Nat) (f : Fld) : (d.bump pg f).tmpls = d.tmpls := ((d.setFld pg f _).noteCount_tmpls _ _ _).trans (d.setFld_tmpls _ _ _)
@[simp] theorem Dev.bump_allocs (d : Dev) (pg : Nat) (f : Fld) : (d.bump pg f).allocs = d.allocs := ((d.setFld pg f _).noteCount_allocs _ _ _).trans (d.setFld_allocs _ _ _)
@[simp] theorem Dev.bump_flows (d : Dev) (pg : Nat) (f : Fld) : (d.bump pg f).flows = d.flows := ((d.setFld pg f _).noteCount_flows _ _ _).trans (d.setFld_flows _ _ _)
@[simp] theorem Dev.bump_nums (d : Dev) (pg : Nat) (f : Fld) : (d.bump pg f).nums = d.nums := ((d.setFld pg f _).noteCount_nums _ _ _).trans (d.setFld_nums _ _ _)
@[simp] theorem Dev.bump_runs (d : Dev) (pg : Nat) (f : Fld) : (d.bump pg f).runs = d.runs := ((d.setFld pg f _).noteCount_runs _ _ _).trans (d.setFld_runs _ _ _)
@[simp] theorem Dev.bump_closing (d : Dev) (pg : Nat) (f : Fld) : (d.bump pg f).closing = d.closing := ((d.setFld pg f _).noteCount_closing _ _ _).trans (d.setFld_closing _ _ _)
@[simp] theorem Dev.bump_frozeLp (d : Dev) (pg : Nat) (f : Fld) : (d.bump pg f).frozeLp = d.frozeLp := ((d.setFld pg f _).noteCount_frozeLp _ _ _).trans (d.setFld_frozeLp _ _ _)
@[simp] theorem Dev.bump_cq (d : Dev) (pg : Nat) (f : Fld) : (d.bump pg f).cq = d.cq := ((d.setFld pg f _).noteCount_cq _ _ _).trans (d.setFld_cq _ _ _)
@[simp] theorem Dev.bump_mem (d : Dev) (pg : Nat) (f : Fld) : (d.bump pg f).mem = d.mem := ((d.setFld pg f _).noteCount_mem _ _ _).trans (d.setFld_mem _ _ _)
@[simp] theorem Dev.bump_chk (d : Dev) (pg : Nat) (f : Fld) : (d.bump pg f).chk = d.chk := ((d.setFld pg f _).noteCount_chk _ _ _).trans (d.setFld_chk _ _ _)
@[simp] theorem Dev.bump_subs (d : Dev) (pg : Nat) (f : Fld) : (d.bump pg f).subs = d.subs := ((d.setFld pg f _).noteCount_subs _ _ _).trans (d.setFld_subs _ _ _)
@[simp] theorem Dev.bump_dtx (d : Dev) (pg : Nat) (f : Fld) : (d.bump pg f).dtx = d.dtx := ((d.setFld pg f _).noteCount_dtx _ _ _).trans (d.setFld_dtx _ _ _)
@[simp] theorem Dev.bump_nextTx (d : Dev) (pg : Nat) (f : Fld) : (d.bump pg f).nextTx = d.nextTx := ((d.setFld pg f _).noteCount_nextTx _ _ _).trans (d.setFld_nextTx _ _ _)
@[simp] theorem Dev.bump_drcs (d : Dev) (pg : Nat) (f : Fld) : (d.bump pg f).drcs = d.drcs := ((d.setFld pg f _).noteCount_drcs _ _ _).trans (d.setFld_drcs _ _ _)
@[simp] theorem Dev.bump_memis (d : Dev) (pg : Nat) (f : Fld) : (d.bump pg f).memis = d.memis := ((d.setFld pg f _).noteCount_memis _ _ _).trans (d.setFld_memis _ _ _)
@[simp] theorem Dev.bump_crypts (d : Dev) (pg : Nat) (f : Fld) : (d.bump pg f).crypts = d.crypts := ((d.setFld pg f _).noteCount_crypts _ _ _).trans (d.setFld_crypts _ _ _)
@[simp] theorem Dev.bump_fuses (d : Dev) (pg : Nat) (f : Fld) : (d.bump pg f).fuses = d.fuses := ((d.setFld pg f _).noteCount_fuses _ _ _).trans (d.setFld_fuses _ _ _)
@[simp] theorem Dev.bump_fab (d : Dev) (pg : Nat) (f : Fld) : (d.bump pg f).fab = d.fab := ((d.setFld pg f _).noteCount_fab _ _ _).trans (d.setFld_fab _ _ _)
@[simp] theorem Dev.bump_bays (d : Dev) (pg : Nat) (f : Fld) : (d.bump pg f).bays = d.bays := ((d.setFld pg f _).noteCount_bays _ _ _).trans (d.setFld_bays _ _ _)
@[simp] theorem Dev.bump_scrub (d : Dev) (pg : Nat) (f : Fld) : (d.bump pg f).scrub = d.scrub := ((d.setFld pg f _).noteCount_scrub _ _ _).trans (d.setFld_scrub _ _ _)
@[simp] theorem Dev.bump_cfg (d : Dev) (pg : Nat) (f : Fld) : (d.bump pg f).cfg = d.cfg := ((d.setFld pg f _).noteCount_cfg _ _ _).trans (d.setFld_cfg _ _ _)
@[simp] theorem Dev.bump_startCk (d : Dev) (pg : Nat) (f : Fld) : (d.bump pg f).startCk = d.startCk := ((d.setFld pg f _).noteCount_startCk _ _ _).trans (d.setFld_startCk _ _ _)
@[simp] theorem Dev.bump_pmc (d : Dev) (pg : Nat) (f : Fld) : (d.bump pg f).pmc = d.pmc := ((d.setFld pg f _).noteCount_pmc _ _ _).trans (d.setFld_pmc _ _ _)
@[simp] theorem Dev.bump_dmas (d : Dev) (pg : Nat) (f : Fld) : (d.bump pg f).dmas = d.dmas := ((d.setFld pg f _).noteCount_dmas _ _ _).trans (d.setFld_dmas _ _ _)
@[simp] theorem Dev.bump_dmaTurn (d : Dev) (pg : Nat) (f : Fld) : (d.bump pg f).dmaTurn = d.dmaTurn := ((d.setFld pg f _).noteCount_dmaTurn _ _ _).trans (d.setFld_dmaTurn _ _ _)
@[simp] theorem Dev.bump_exts (d : Dev) (pg : Nat) (f : Fld) : (d.bump pg f).exts = d.exts := ((d.setFld pg f _).noteCount_exts _ _ _).trans (d.setFld_exts _ _ _)
@[simp] theorem Dev.bump_opened (d : Dev) (pg : Nat) (f : Fld) : (d.bump pg f).opened = d.opened := ((d.setFld pg f _).noteCount_opened _ _ _).trans (d.setFld_opened _ _ _)
@[simp] theorem Dev.bump_nextOpen (d : Dev) (pg : Nat) (f : Fld) : (d.bump pg f).nextOpen = d.nextOpen := ((d.setFld pg f _).noteCount_nextOpen _ _ _).trans (d.setFld_nextOpen _ _ _)
@[simp] theorem Dev.bump_plus (d : Dev) (pg : Nat) (f : Fld) : (d.bump pg f).plus = d.plus := ((d.setFld pg f _).noteCount_plus _ _ _).trans (d.setFld_plus _ _ _)
@[simp] theorem Dev.bump_handovers (d : Dev) (pg : Nat) (f : Fld) : (d.bump pg f).handovers = d.handovers := ((d.setFld pg f _).noteCount_handovers _ _ _).trans (d.setFld_handovers _ _ _)
@[simp] theorem Dev.bump_jrnTx (d : Dev) (pg : Nat) (f : Fld) : (d.bump pg f).jrnTx = d.jrnTx := ((d.setFld pg f _).noteCount_jrnTx _ _ _).trans (d.setFld_jrnTx _ _ _)
@[simp] theorem Dev.bump_meta64 (d : Dev) (pg : Nat) (f : Fld) : (d.bump pg f).meta64 = d.meta64 := ((d.setFld pg f _).noteCount_meta64 _ _ _).trans (d.setFld_meta64 _ _ _)
@[simp] theorem Dev.bump_offers (d : Dev) (pg : Nat) (f : Fld) : (d.bump pg f).offers = d.offers := ((d.setFld pg f _).noteCount_offers _ _ _).trans (d.setFld_offers _ _ _)
@[simp] theorem Dev.bump_capReads (d : Dev) (pg : Nat) (f : Fld) : (d.bump pg f).capReads = d.capReads := ((d.setFld pg f _).noteCount_capReads _ _ _).trans (d.setFld_capReads _ _ _)
@[simp] theorem Dev.bump_nextRead (d : Dev) (pg : Nat) (f : Fld) : (d.bump pg f).nextRead = d.nextRead := ((d.setFld pg f _).noteCount_nextRead _ _ _).trans (d.setFld_nextRead _ _ _)
@[simp] theorem Dev.bump_seeks (d : Dev) (pg : Nat) (f : Fld) : (d.bump pg f).seeks = d.seeks := ((d.setFld pg f _).noteCount_seeks _ _ _).trans (d.setFld_seeks _ _ _)
@[simp] theorem Dev.bump_descReads (d : Dev) (pg : Nat) (f : Fld) : (d.bump pg f).descReads = d.descReads := ((d.setFld pg f _).noteCount_descReads _ _ _).trans (d.setFld_descReads _ _ _)
@[simp] theorem Dev.bump_engs (d : Dev) (pg : Nat) (f : Fld) : (d.bump pg f).engs = d.engs := ((d.setFld pg f _).noteCount_engs _ _ _).trans (d.setFld_engs _ _ _)
@[simp] theorem Dev.bump_dbgs (d : Dev) (pg : Nat) (f : Fld) : (d.bump pg f).dbgs = d.dbgs := ((d.setFld pg f _).noteCount_dbgs _ _ _).trans (d.setFld_dbgs _ _ _)
@[simp] theorem Dev.bump_gks (d : Dev) (pg : Nat) (f : Fld) : (d.bump pg f).gks = d.gks := ((d.setFld pg f _).noteCount_gks _ _ _).trans (d.setFld_gks _ _ _)
@[simp] theorem Dev.bump_bayQ (d : Dev) (pg : Nat) (f : Fld) : (d.bump pg f).bayQ = d.bayQ := ((d.setFld pg f _).noteCount_bayQ _ _ _).trans (d.setFld_bayQ _ _ _)
@[simp] theorem Dev.bump_spQ (d : Dev) (pg : Nat) (f : Fld) : (d.bump pg f).spQ = d.spQ := ((d.setFld pg f _).noteCount_spQ _ _ _).trans (d.setFld_spQ _ _ _)
@[simp] theorem Dev.bump_resvs (d : Dev) (pg : Nat) (f : Fld) : (d.bump pg f).resvs = d.resvs := ((d.setFld pg f _).noteCount_resvs _ _ _).trans (d.setFld_resvs _ _ _)
@[simp] theorem Dev.bump_nocReqs (d : Dev) (pg : Nat) (f : Fld) : (d.bump pg f).nocReqs = d.nocReqs := ((d.setFld pg f _).noteCount_nocReqs _ _ _).trans (d.setFld_nocReqs _ _ _)
@[simp] theorem Dev.bump_nextNoc (d : Dev) (pg : Nat) (f : Fld) : (d.bump pg f).nextNoc = d.nextNoc := ((d.setFld pg f _).noteCount_nextNoc _ _ _).trans (d.setFld_nextNoc _ _ _)
@[simp] theorem Dev.bump_nocs (d : Dev) (pg : Nat) (f : Fld) : (d.bump pg f).nocs = d.nocs := ((d.setFld pg f _).noteCount_nocs _ _ _).trans (d.setFld_nocs _ _ _)
@[simp] theorem Dev.bump_linkRuns (d : Dev) (pg : Nat) (f : Fld) : (d.bump pg f).linkRuns = d.linkRuns := ((d.setFld pg f _).noteCount_linkRuns _ _ _).trans (d.setFld_linkRuns _ _ _)
@[simp] theorem Dev.bump_tests (d : Dev) (pg : Nat) (f : Fld) : (d.bump pg f).tests = d.tests := ((d.setFld pg f _).noteCount_tests _ _ _).trans (d.setFld_tests _ _ _)
@[simp] theorem Dev.bump_ctx (d : Dev) (pg : Nat) (f : Fld) : (d.bump pg f).ctx = d.ctx := ((d.setFld pg f _).noteCount_ctx _ _ _).trans (d.setFld_ctx _ _ _)
@[simp] theorem Dev.bump_ctxBad (d : Dev) (pg : Nat) (f : Fld) : (d.bump pg f).ctxBad = d.ctxBad := ((d.setFld pg f _).noteCount_ctxBad _ _ _).trans (d.setFld_ctxBad _ _ _)
@[simp] theorem Dev.bump_imem (d : Dev) (pg : Nat) (f : Fld) : (d.bump pg f).imem = d.imem := ((d.setFld pg f _).noteCount_imem _ _ _).trans (d.setFld_imem _ _ _)
@[simp] theorem Dev.bump_epochs (d : Dev) (pg : Nat) (f : Fld) : (d.bump pg f).epochs = d.epochs := ((d.setFld pg f _).noteCount_epochs _ _ _).trans (d.setFld_epochs _ _ _)
@[simp] theorem Dev.bump_alignRecs (d : Dev) (pg : Nat) (f : Fld) : (d.bump pg f).alignRecs = d.alignRecs := ((d.setFld pg f _).noteCount_alignRecs _ _ _).trans (d.setFld_alignRecs _ _ _)
@[simp] theorem Dev.bump_holds (d : Dev) (pg : Nat) (f : Fld) : (d.bump pg f).holds = d.holds := ((d.setFld pg f _).noteCount_holds _ _ _).trans (d.setFld_holds _ _ _)
@[simp] theorem Dev.bump_pair (d : Dev) (pg : Nat) (f : Fld) : (d.bump pg f).pair = d.pair := ((d.setFld pg f _).noteCount_pair _ _ _).trans (d.setFld_pair _ _ _)
@[simp] theorem Dev.bump_hostEvs (d : Dev) (pg : Nat) (f : Fld) : (d.bump pg f).hostEvs = d.hostEvs := ((d.setFld pg f _).noteCount_hostEvs _ _ _).trans (d.setFld_hostEvs _ _ _)
@[simp] theorem Dev.bump_evtPhase (d : Dev) (pg : Nat) (f : Fld) : (d.bump pg f).evtPhase = d.evtPhase := ((d.setFld pg f _).noteCount_evtPhase _ _ _).trans (d.setFld_evtPhase _ _ _)
@[simp] theorem Dev.bump_hcmd (d : Dev) (pg : Nat) (f : Fld) : (d.bump pg f).hcmd = d.hcmd := ((d.setFld pg f _).noteCount_hcmd _ _ _).trans (d.setFld_hcmd _ _ _)
@[simp] theorem Dev.bump_fetching (d : Dev) (pg : Nat) (f : Fld) : (d.bump pg f).fetching = d.fetching := ((d.setFld pg f _).noteCount_fetching _ _ _).trans (d.setFld_fetching _ _ _)
@[simp] theorem Dev.bump_cmdBell (d : Dev) (pg : Nat) (f : Fld) : (d.bump pg f).cmdBell = d.cmdBell := ((d.setFld pg f _).noteCount_cmdBell _ _ _).trans (d.setFld_cmdBell _ _ _)
@[simp] theorem Dev.bump_boot (d : Dev) (pg : Nat) (f : Fld) : (d.bump pg f).boot = d.boot := ((d.setFld pg f _).noteCount_boot _ _ _).trans (d.setFld_boot _ _ _)
@[simp] theorem Dev.bump_tokenCk (d : Dev) (pg : Nat) (f : Fld) : (d.bump pg f).tokenCk = d.tokenCk := ((d.setFld pg f _).noteCount_tokenCk _ _ _).trans (d.setFld_tokenCk _ _ _)

/-! `noteErr`. -/

@[simp] theorem Dev.noteErr_rst (d : Dev) (pg idx code : Nat) : (d.noteErr pg idx code).rst = d.rst := d.setLog_rst _
@[simp] theorem Dev.noteErr_sources (d : Dev) (pg idx code : Nat) : (d.noteErr pg idx code).sources = d.sources := d.setLog_sources _
@[simp] theorem Dev.noteErr_started (d : Dev) (pg idx code : Nat) : (d.noteErr pg idx code).started = d.started := d.setLog_started _
@[simp] theorem Dev.noteErr_thermTrip (d : Dev) (pg idx code : Nat) : (d.noteErr pg idx code).thermTrip = d.thermTrip := d.setLog_thermTrip _
@[simp] theorem Dev.noteErr_modeTarget (d : Dev) (pg idx code : Nat) : (d.noteErr pg idx code).modeTarget = d.modeTarget := d.setLog_modeTarget _
@[simp] theorem Dev.noteErr_reqCk (d : Dev) (pg idx code : Nat) : (d.noteErr pg idx code).reqCk = d.reqCk := d.setLog_reqCk _
@[simp] theorem Dev.noteErr_readyCk (d : Dev) (pg idx code : Nat) : (d.noteErr pg idx code).readyCk = d.readyCk := d.setLog_readyCk _
@[simp] theorem Dev.noteErr_offEntry (d : Dev) (pg idx code : Nat) : (d.noteErr pg idx code).offEntry = d.offEntry := d.setLog_offEntry _
@[simp] theorem Dev.noteErr_safeEntry (d : Dev) (pg idx code : Nat) : (d.noteErr pg idx code).safeEntry = d.safeEntry := d.setLog_safeEntry _
@[simp] theorem Dev.noteErr_safeCk (d : Dev) (pg idx code : Nat) : (d.noteErr pg idx code).safeCk = d.safeCk := d.setLog_safeCk _
@[simp] theorem Dev.noteErr_safeDue (d : Dev) (pg idx code : Nat) : (d.noteErr pg idx code).safeDue = d.safeDue := d.setLog_safeDue _
@[simp] theorem Dev.noteErr_south (d : Dev) (pg idx code : Nat) : (d.noteErr pg idx code).south = d.south := d.setLog_south _
@[simp] theorem Dev.noteErr_waking (d : Dev) (pg idx code : Nat) : (d.noteErr pg idx code).waking = d.waking := d.setLog_waking _
@[simp] theorem Dev.noteErr_lanesBegun (d : Dev) (pg idx code : Nat) : (d.noteErr pg idx code).lanesBegun = d.lanesBegun := d.setLog_lanesBegun _
@[simp] theorem Dev.noteErr_lanesDue (d : Dev) (pg idx code : Nat) : (d.noteErr pg idx code).lanesDue = d.lanesDue := d.setLog_lanesDue _
@[simp] theorem Dev.noteErr_ins (d : Dev) (pg idx code : Nat) : (d.noteErr pg idx code).ins = d.ins := d.setLog_ins _
@[simp] theorem Dev.noteErr_pins (d : Dev) (pg idx code : Nat) : (d.noteErr pg idx code).pins = d.pins := d.setLog_pins _
@[simp] theorem Dev.noteErr_ck (d : Dev) (pg idx code : Nat) : (d.noteErr pg idx code).ck = d.ck := d.setLog_ck _
@[simp] theorem Dev.noteErr_regs (d : Dev) (pg idx code : Nat) : (d.noteErr pg idx code).regs = d.regs := d.setLog_regs _
@[simp] theorem Dev.noteErr_out (d : Dev) (pg idx code : Nat) : (d.noteErr pg idx code).out = d.out := d.setLog_out _
@[simp] theorem Dev.noteErr_agenda (d : Dev) (pg idx code : Nat) : (d.noteErr pg idx code).agenda = d.agenda := d.setLog_agenda _
@[simp] theorem Dev.noteErr_latch (d : Dev) (pg idx code : Nat) : (d.noteErr pg idx code).latch = d.latch := d.setLog_latch _
@[simp] theorem Dev.noteErr_lineLog (d : Dev) (pg idx code : Nat) : (d.noteErr pg idx code).lineLog = d.lineLog := d.setLog_lineLog _
@[simp] theorem Dev.noteErr_msix (d : Dev) (pg idx code : Nat) : (d.noteErr pg idx code).msix = d.msix := d.setLog_msix _
@[simp] theorem Dev.noteErr_msixPend (d : Dev) (pg idx code : Nat) : (d.noteErr pg idx code).msixPend = d.msixPend := d.setLog_msixPend _
@[simp] theorem Dev.noteErr_lanes (d : Dev) (pg idx code : Nat) : (d.noteErr pg idx code).lanes = d.lanes := d.setLog_lanes _
@[simp] theorem Dev.noteErr_recs (d : Dev) (pg idx code : Nat) : (d.noteErr pg idx code).recs = d.recs := d.setLog_recs _
@[simp] theorem Dev.noteErr_nextRid (d : Dev) (pg idx code : Nat) : (d.noteErr pg idx code).nextRid = d.nextRid := d.setLog_nextRid _
@[simp] theorem Dev.noteErr_lpc (d : Dev) (pg idx code : Nat) : (d.noteErr pg idx code).lpc = d.lpc := d.setLog_lpc _
@[simp] theorem Dev.noteErr_evs (d : Dev) (pg idx code : Nat) : (d.noteErr pg idx code).evs = d.evs := d.setLog_evs _
@[simp] theorem Dev.noteErr_evsLate (d : Dev) (pg idx code : Nat) : (d.noteErr pg idx code).evsLate = d.evsLate := d.setLog_evsLate _
@[simp] theorem Dev.noteErr_evsRan (d : Dev) (pg idx code : Nat) : (d.noteErr pg idx code).evsRan = d.evsRan := d.setLog_evsRan _
@[simp] theorem Dev.noteErr_evsFired (d : Dev) (pg idx code : Nat) : (d.noteErr pg idx code).evsFired = d.evsFired := d.setLog_evsFired _
@[simp] theorem Dev.noteErr_rules (d : Dev) (pg idx code : Nat) : (d.noteErr pg idx code).rules = d.rules := d.setLog_rules _
@[simp] theorem Dev.noteErr_seqStates (d : Dev) (pg idx code : Nat) : (d.noteErr pg idx code).seqStates = d.seqStates := d.setLog_seqStates _
@[simp] theorem Dev.noteErr_seqSlots (d : Dev) (pg idx code : Nat) : (d.noteErr pg idx code).seqSlots = d.seqSlots := d.setLog_seqSlots _
@[simp] theorem Dev.noteErr_seqSel (d : Dev) (pg idx code : Nat) : (d.noteErr pg idx code).seqSel = d.seqSel := d.setLog_seqSel _
@[simp] theorem Dev.noteErr_seqs (d : Dev) (pg idx code : Nat) : (d.noteErr pg idx code).seqs = d.seqs := d.setLog_seqs _
@[simp] theorem Dev.noteErr_trigEvs (d : Dev) (pg idx code : Nat) : (d.noteErr pg idx code).trigEvs = d.trigEvs := d.setLog_trigEvs _
@[simp] theorem Dev.noteErr_bridgeOut (d : Dev) (pg idx code : Nat) : (d.noteErr pg idx code).bridgeOut = d.bridgeOut := d.setLog_bridgeOut _
@[simp] theorem Dev.noteErr_flying (d : Dev) (pg idx code : Nat) : (d.noteErr pg idx code).flying = d.flying := d.setLog_flying _
@[simp] theorem Dev.noteErr_stimIn (d : Dev) (pg idx code : Nat) : (d.noteErr pg idx code).stimIn = d.stimIn := d.setLog_stimIn _
@[simp] theorem Dev.noteErr_stims (d : Dev) (pg idx code : Nat) : (d.noteErr pg idx code).stims = d.stims := d.setLog_stims _
@[simp] theorem Dev.noteErr_plays (d : Dev) (pg idx code : Nat) : (d.noteErr pg idx code).plays = d.plays := d.setLog_plays _
@[simp] theorem Dev.noteErr_tmpls (d : Dev) (pg idx code : Nat) : (d.noteErr pg idx code).tmpls = d.tmpls := d.setLog_tmpls _
@[simp] theorem Dev.noteErr_allocs (d : Dev) (pg idx code : Nat) : (d.noteErr pg idx code).allocs = d.allocs := d.setLog_allocs _
@[simp] theorem Dev.noteErr_flows (d : Dev) (pg idx code : Nat) : (d.noteErr pg idx code).flows = d.flows := d.setLog_flows _
@[simp] theorem Dev.noteErr_nums (d : Dev) (pg idx code : Nat) : (d.noteErr pg idx code).nums = d.nums := d.setLog_nums _
@[simp] theorem Dev.noteErr_runs (d : Dev) (pg idx code : Nat) : (d.noteErr pg idx code).runs = d.runs := d.setLog_runs _
@[simp] theorem Dev.noteErr_closing (d : Dev) (pg idx code : Nat) : (d.noteErr pg idx code).closing = d.closing := d.setLog_closing _
@[simp] theorem Dev.noteErr_frozeLp (d : Dev) (pg idx code : Nat) : (d.noteErr pg idx code).frozeLp = d.frozeLp := d.setLog_frozeLp _
@[simp] theorem Dev.noteErr_cq (d : Dev) (pg idx code : Nat) : (d.noteErr pg idx code).cq = d.cq := d.setLog_cq _
@[simp] theorem Dev.noteErr_mem (d : Dev) (pg idx code : Nat) : (d.noteErr pg idx code).mem = d.mem := d.setLog_mem _
@[simp] theorem Dev.noteErr_chk (d : Dev) (pg idx code : Nat) : (d.noteErr pg idx code).chk = d.chk := d.setLog_chk _
@[simp] theorem Dev.noteErr_subs (d : Dev) (pg idx code : Nat) : (d.noteErr pg idx code).subs = d.subs := d.setLog_subs _
@[simp] theorem Dev.noteErr_dtx (d : Dev) (pg idx code : Nat) : (d.noteErr pg idx code).dtx = d.dtx := d.setLog_dtx _
@[simp] theorem Dev.noteErr_nextTx (d : Dev) (pg idx code : Nat) : (d.noteErr pg idx code).nextTx = d.nextTx := d.setLog_nextTx _
@[simp] theorem Dev.noteErr_drcs (d : Dev) (pg idx code : Nat) : (d.noteErr pg idx code).drcs = d.drcs := d.setLog_drcs _
@[simp] theorem Dev.noteErr_memis (d : Dev) (pg idx code : Nat) : (d.noteErr pg idx code).memis = d.memis := d.setLog_memis _
@[simp] theorem Dev.noteErr_crypts (d : Dev) (pg idx code : Nat) : (d.noteErr pg idx code).crypts = d.crypts := d.setLog_crypts _
@[simp] theorem Dev.noteErr_fuses (d : Dev) (pg idx code : Nat) : (d.noteErr pg idx code).fuses = d.fuses := d.setLog_fuses _
@[simp] theorem Dev.noteErr_fab (d : Dev) (pg idx code : Nat) : (d.noteErr pg idx code).fab = d.fab := d.setLog_fab _
@[simp] theorem Dev.noteErr_bays (d : Dev) (pg idx code : Nat) : (d.noteErr pg idx code).bays = d.bays := d.setLog_bays _
@[simp] theorem Dev.noteErr_scrub (d : Dev) (pg idx code : Nat) : (d.noteErr pg idx code).scrub = d.scrub := d.setLog_scrub _
@[simp] theorem Dev.noteErr_cfg (d : Dev) (pg idx code : Nat) : (d.noteErr pg idx code).cfg = d.cfg := d.setLog_cfg _
@[simp] theorem Dev.noteErr_startCk (d : Dev) (pg idx code : Nat) : (d.noteErr pg idx code).startCk = d.startCk := d.setLog_startCk _
@[simp] theorem Dev.noteErr_pmc (d : Dev) (pg idx code : Nat) : (d.noteErr pg idx code).pmc = d.pmc := d.setLog_pmc _
@[simp] theorem Dev.noteErr_dmas (d : Dev) (pg idx code : Nat) : (d.noteErr pg idx code).dmas = d.dmas := d.setLog_dmas _
@[simp] theorem Dev.noteErr_dmaTurn (d : Dev) (pg idx code : Nat) : (d.noteErr pg idx code).dmaTurn = d.dmaTurn := d.setLog_dmaTurn _
@[simp] theorem Dev.noteErr_exts (d : Dev) (pg idx code : Nat) : (d.noteErr pg idx code).exts = d.exts := d.setLog_exts _
@[simp] theorem Dev.noteErr_opened (d : Dev) (pg idx code : Nat) : (d.noteErr pg idx code).opened = d.opened := d.setLog_opened _
@[simp] theorem Dev.noteErr_nextOpen (d : Dev) (pg idx code : Nat) : (d.noteErr pg idx code).nextOpen = d.nextOpen := d.setLog_nextOpen _
@[simp] theorem Dev.noteErr_plus (d : Dev) (pg idx code : Nat) : (d.noteErr pg idx code).plus = d.plus := d.setLog_plus _
@[simp] theorem Dev.noteErr_handovers (d : Dev) (pg idx code : Nat) : (d.noteErr pg idx code).handovers = d.handovers := d.setLog_handovers _
@[simp] theorem Dev.noteErr_jrnTx (d : Dev) (pg idx code : Nat) : (d.noteErr pg idx code).jrnTx = d.jrnTx := d.setLog_jrnTx _
@[simp] theorem Dev.noteErr_meta64 (d : Dev) (pg idx code : Nat) : (d.noteErr pg idx code).meta64 = d.meta64 := d.setLog_meta64 _
@[simp] theorem Dev.noteErr_offers (d : Dev) (pg idx code : Nat) : (d.noteErr pg idx code).offers = d.offers := d.setLog_offers _
@[simp] theorem Dev.noteErr_capReads (d : Dev) (pg idx code : Nat) : (d.noteErr pg idx code).capReads = d.capReads := d.setLog_capReads _
@[simp] theorem Dev.noteErr_nextRead (d : Dev) (pg idx code : Nat) : (d.noteErr pg idx code).nextRead = d.nextRead := d.setLog_nextRead _
@[simp] theorem Dev.noteErr_seeks (d : Dev) (pg idx code : Nat) : (d.noteErr pg idx code).seeks = d.seeks := d.setLog_seeks _
@[simp] theorem Dev.noteErr_descReads (d : Dev) (pg idx code : Nat) : (d.noteErr pg idx code).descReads = d.descReads := d.setLog_descReads _
@[simp] theorem Dev.noteErr_engs (d : Dev) (pg idx code : Nat) : (d.noteErr pg idx code).engs = d.engs := d.setLog_engs _
@[simp] theorem Dev.noteErr_dbgs (d : Dev) (pg idx code : Nat) : (d.noteErr pg idx code).dbgs = d.dbgs := d.setLog_dbgs _
@[simp] theorem Dev.noteErr_gks (d : Dev) (pg idx code : Nat) : (d.noteErr pg idx code).gks = d.gks := d.setLog_gks _
@[simp] theorem Dev.noteErr_bayQ (d : Dev) (pg idx code : Nat) : (d.noteErr pg idx code).bayQ = d.bayQ := d.setLog_bayQ _
@[simp] theorem Dev.noteErr_spQ (d : Dev) (pg idx code : Nat) : (d.noteErr pg idx code).spQ = d.spQ := d.setLog_spQ _
@[simp] theorem Dev.noteErr_resvs (d : Dev) (pg idx code : Nat) : (d.noteErr pg idx code).resvs = d.resvs := d.setLog_resvs _
@[simp] theorem Dev.noteErr_nocReqs (d : Dev) (pg idx code : Nat) : (d.noteErr pg idx code).nocReqs = d.nocReqs := d.setLog_nocReqs _
@[simp] theorem Dev.noteErr_nextNoc (d : Dev) (pg idx code : Nat) : (d.noteErr pg idx code).nextNoc = d.nextNoc := d.setLog_nextNoc _
@[simp] theorem Dev.noteErr_nocs (d : Dev) (pg idx code : Nat) : (d.noteErr pg idx code).nocs = d.nocs := d.setLog_nocs _
@[simp] theorem Dev.noteErr_linkRuns (d : Dev) (pg idx code : Nat) : (d.noteErr pg idx code).linkRuns = d.linkRuns := d.setLog_linkRuns _
@[simp] theorem Dev.noteErr_tests (d : Dev) (pg idx code : Nat) : (d.noteErr pg idx code).tests = d.tests := d.setLog_tests _
@[simp] theorem Dev.noteErr_ctx (d : Dev) (pg idx code : Nat) : (d.noteErr pg idx code).ctx = d.ctx := d.setLog_ctx _
@[simp] theorem Dev.noteErr_ctxBad (d : Dev) (pg idx code : Nat) : (d.noteErr pg idx code).ctxBad = d.ctxBad := d.setLog_ctxBad _
@[simp] theorem Dev.noteErr_imem (d : Dev) (pg idx code : Nat) : (d.noteErr pg idx code).imem = d.imem := d.setLog_imem _
@[simp] theorem Dev.noteErr_epochs (d : Dev) (pg idx code : Nat) : (d.noteErr pg idx code).epochs = d.epochs := d.setLog_epochs _
@[simp] theorem Dev.noteErr_alignRecs (d : Dev) (pg idx code : Nat) : (d.noteErr pg idx code).alignRecs = d.alignRecs := d.setLog_alignRecs _
@[simp] theorem Dev.noteErr_holds (d : Dev) (pg idx code : Nat) : (d.noteErr pg idx code).holds = d.holds := d.setLog_holds _
@[simp] theorem Dev.noteErr_pair (d : Dev) (pg idx code : Nat) : (d.noteErr pg idx code).pair = d.pair := d.setLog_pair _
@[simp] theorem Dev.noteErr_hostEvs (d : Dev) (pg idx code : Nat) : (d.noteErr pg idx code).hostEvs = d.hostEvs := d.setLog_hostEvs _
@[simp] theorem Dev.noteErr_evtPhase (d : Dev) (pg idx code : Nat) : (d.noteErr pg idx code).evtPhase = d.evtPhase := d.setLog_evtPhase _
@[simp] theorem Dev.noteErr_hcmd (d : Dev) (pg idx code : Nat) : (d.noteErr pg idx code).hcmd = d.hcmd := d.setLog_hcmd _
@[simp] theorem Dev.noteErr_fetching (d : Dev) (pg idx code : Nat) : (d.noteErr pg idx code).fetching = d.fetching := d.setLog_fetching _
@[simp] theorem Dev.noteErr_cmdBell (d : Dev) (pg idx code : Nat) : (d.noteErr pg idx code).cmdBell = d.cmdBell := d.setLog_cmdBell _
@[simp] theorem Dev.noteErr_boot (d : Dev) (pg idx code : Nat) : (d.noteErr pg idx code).boot = d.boot := d.setLog_boot _
@[simp] theorem Dev.noteErr_tokenCk (d : Dev) (pg idx code : Nat) : (d.noteErr pg idx code).tokenCk = d.tokenCk := d.setLog_tokenCk _

/-! `fresh`. -/

@[simp] theorem Dev.fresh_rst (d : Dev) : d.fresh.rst = d.rst := rfl
@[simp] theorem Dev.fresh_sources (d : Dev) : d.fresh.sources = d.sources := rfl
@[simp] theorem Dev.fresh_started (d : Dev) : d.fresh.started = d.started := rfl
@[simp] theorem Dev.fresh_thermTrip (d : Dev) : d.fresh.thermTrip = d.thermTrip := rfl
@[simp] theorem Dev.fresh_modeTarget (d : Dev) : d.fresh.modeTarget = d.modeTarget := rfl
@[simp] theorem Dev.fresh_reqCk (d : Dev) : d.fresh.reqCk = d.reqCk := rfl
@[simp] theorem Dev.fresh_readyCk (d : Dev) : d.fresh.readyCk = d.readyCk := rfl
@[simp] theorem Dev.fresh_offEntry (d : Dev) : d.fresh.offEntry = d.offEntry := rfl
@[simp] theorem Dev.fresh_safeEntry (d : Dev) : d.fresh.safeEntry = d.safeEntry := rfl
@[simp] theorem Dev.fresh_safeCk (d : Dev) : d.fresh.safeCk = d.safeCk := rfl
@[simp] theorem Dev.fresh_safeDue (d : Dev) : d.fresh.safeDue = d.safeDue := rfl
@[simp] theorem Dev.fresh_south (d : Dev) : d.fresh.south = d.south := rfl
@[simp] theorem Dev.fresh_waking (d : Dev) : d.fresh.waking = d.waking := rfl
@[simp] theorem Dev.fresh_lanesBegun (d : Dev) : d.fresh.lanesBegun = d.lanesBegun := rfl
@[simp] theorem Dev.fresh_lanesDue (d : Dev) : d.fresh.lanesDue = d.lanesDue := rfl
@[simp] theorem Dev.fresh_ins (d : Dev) : d.fresh.ins = d.ins := rfl
@[simp] theorem Dev.fresh_pins (d : Dev) : d.fresh.pins = d.pins := rfl
@[simp] theorem Dev.fresh_ck (d : Dev) : d.fresh.ck = d.ck := rfl
@[simp] theorem Dev.fresh_regs (d : Dev) : d.fresh.regs = d.regs := rfl
@[simp] theorem Dev.fresh_log (d : Dev) : d.fresh.log = d.log := rfl
@[simp] theorem Dev.fresh_agenda (d : Dev) : d.fresh.agenda = d.agenda := rfl
@[simp] theorem Dev.fresh_latch (d : Dev) : d.fresh.latch = d.latch := rfl
@[simp] theorem Dev.fresh_lineLog (d : Dev) : d.fresh.lineLog = d.lineLog := rfl
@[simp] theorem Dev.fresh_msix (d : Dev) : d.fresh.msix = d.msix := rfl
@[simp] theorem Dev.fresh_msixPend (d : Dev) : d.fresh.msixPend = d.msixPend := rfl
@[simp] theorem Dev.fresh_lanes (d : Dev) : d.fresh.lanes = d.lanes := rfl
@[simp] theorem Dev.fresh_recs (d : Dev) : d.fresh.recs = d.recs := rfl
@[simp] theorem Dev.fresh_nextRid (d : Dev) : d.fresh.nextRid = d.nextRid := rfl
@[simp] theorem Dev.fresh_lpc (d : Dev) : d.fresh.lpc = d.lpc := rfl
@[simp] theorem Dev.fresh_evs (d : Dev) : d.fresh.evs = d.evs := rfl
@[simp] theorem Dev.fresh_evsLate (d : Dev) : d.fresh.evsLate = d.evsLate := rfl
@[simp] theorem Dev.fresh_evsRan (d : Dev) : d.fresh.evsRan = d.evsRan := rfl
@[simp] theorem Dev.fresh_evsFired (d : Dev) : d.fresh.evsFired = d.evsFired := rfl
@[simp] theorem Dev.fresh_rules (d : Dev) : d.fresh.rules = d.rules := rfl
@[simp] theorem Dev.fresh_seqStates (d : Dev) : d.fresh.seqStates = d.seqStates := rfl
@[simp] theorem Dev.fresh_seqSlots (d : Dev) : d.fresh.seqSlots = d.seqSlots := rfl
@[simp] theorem Dev.fresh_seqSel (d : Dev) : d.fresh.seqSel = d.seqSel := rfl
@[simp] theorem Dev.fresh_seqs (d : Dev) : d.fresh.seqs = d.seqs := rfl
@[simp] theorem Dev.fresh_trigEvs (d : Dev) : d.fresh.trigEvs = d.trigEvs := rfl
@[simp] theorem Dev.fresh_bridgeOut (d : Dev) : d.fresh.bridgeOut = d.bridgeOut := rfl
@[simp] theorem Dev.fresh_flying (d : Dev) : d.fresh.flying = d.flying := rfl
@[simp] theorem Dev.fresh_stimIn (d : Dev) : d.fresh.stimIn = d.stimIn := rfl
@[simp] theorem Dev.fresh_stims (d : Dev) : d.fresh.stims = d.stims := rfl
@[simp] theorem Dev.fresh_plays (d : Dev) : d.fresh.plays = d.plays := rfl
@[simp] theorem Dev.fresh_tmpls (d : Dev) : d.fresh.tmpls = d.tmpls := rfl
@[simp] theorem Dev.fresh_allocs (d : Dev) : d.fresh.allocs = d.allocs := rfl
@[simp] theorem Dev.fresh_flows (d : Dev) : d.fresh.flows = d.flows := rfl
@[simp] theorem Dev.fresh_nums (d : Dev) : d.fresh.nums = d.nums := rfl
@[simp] theorem Dev.fresh_runs (d : Dev) : d.fresh.runs = d.runs := rfl
@[simp] theorem Dev.fresh_closing (d : Dev) : d.fresh.closing = d.closing := rfl
@[simp] theorem Dev.fresh_frozeLp (d : Dev) : d.fresh.frozeLp = d.frozeLp := rfl
@[simp] theorem Dev.fresh_cq (d : Dev) : d.fresh.cq = d.cq := rfl
@[simp] theorem Dev.fresh_mem (d : Dev) : d.fresh.mem = d.mem := rfl
@[simp] theorem Dev.fresh_chk (d : Dev) : d.fresh.chk = d.chk := rfl
@[simp] theorem Dev.fresh_subs (d : Dev) : d.fresh.subs = d.subs := rfl
@[simp] theorem Dev.fresh_dtx (d : Dev) : d.fresh.dtx = d.dtx := rfl
@[simp] theorem Dev.fresh_nextTx (d : Dev) : d.fresh.nextTx = d.nextTx := rfl
@[simp] theorem Dev.fresh_drcs (d : Dev) : d.fresh.drcs = d.drcs := rfl
@[simp] theorem Dev.fresh_memis (d : Dev) : d.fresh.memis = d.memis := rfl
@[simp] theorem Dev.fresh_crypts (d : Dev) : d.fresh.crypts = d.crypts := rfl
@[simp] theorem Dev.fresh_fuses (d : Dev) : d.fresh.fuses = d.fuses := rfl
@[simp] theorem Dev.fresh_fab (d : Dev) : d.fresh.fab = d.fab := rfl
@[simp] theorem Dev.fresh_bays (d : Dev) : d.fresh.bays = d.bays := rfl
@[simp] theorem Dev.fresh_scrub (d : Dev) : d.fresh.scrub = d.scrub := rfl
@[simp] theorem Dev.fresh_cfg (d : Dev) : d.fresh.cfg = d.cfg := rfl
@[simp] theorem Dev.fresh_startCk (d : Dev) : d.fresh.startCk = d.startCk := rfl
@[simp] theorem Dev.fresh_pmc (d : Dev) : d.fresh.pmc = d.pmc := rfl
@[simp] theorem Dev.fresh_dmas (d : Dev) : d.fresh.dmas = d.dmas := rfl
@[simp] theorem Dev.fresh_dmaTurn (d : Dev) : d.fresh.dmaTurn = d.dmaTurn := rfl
@[simp] theorem Dev.fresh_exts (d : Dev) : d.fresh.exts = d.exts := rfl
@[simp] theorem Dev.fresh_opened (d : Dev) : d.fresh.opened = d.opened := rfl
@[simp] theorem Dev.fresh_nextOpen (d : Dev) : d.fresh.nextOpen = d.nextOpen := rfl
@[simp] theorem Dev.fresh_plus (d : Dev) : d.fresh.plus = d.plus := rfl
@[simp] theorem Dev.fresh_handovers (d : Dev) : d.fresh.handovers = d.handovers := rfl
@[simp] theorem Dev.fresh_jrnTx (d : Dev) : d.fresh.jrnTx = d.jrnTx := rfl
@[simp] theorem Dev.fresh_meta64 (d : Dev) : d.fresh.meta64 = d.meta64 := rfl
@[simp] theorem Dev.fresh_offers (d : Dev) : d.fresh.offers = d.offers := rfl
@[simp] theorem Dev.fresh_capReads (d : Dev) : d.fresh.capReads = d.capReads := rfl
@[simp] theorem Dev.fresh_nextRead (d : Dev) : d.fresh.nextRead = d.nextRead := rfl
@[simp] theorem Dev.fresh_seeks (d : Dev) : d.fresh.seeks = d.seeks := rfl
@[simp] theorem Dev.fresh_descReads (d : Dev) : d.fresh.descReads = d.descReads := rfl
@[simp] theorem Dev.fresh_engs (d : Dev) : d.fresh.engs = d.engs := rfl
@[simp] theorem Dev.fresh_dbgs (d : Dev) : d.fresh.dbgs = d.dbgs := rfl
@[simp] theorem Dev.fresh_gks (d : Dev) : d.fresh.gks = d.gks := rfl
@[simp] theorem Dev.fresh_bayQ (d : Dev) : d.fresh.bayQ = d.bayQ := rfl
@[simp] theorem Dev.fresh_spQ (d : Dev) : d.fresh.spQ = d.spQ := rfl
@[simp] theorem Dev.fresh_resvs (d : Dev) : d.fresh.resvs = d.resvs := rfl
@[simp] theorem Dev.fresh_nocReqs (d : Dev) : d.fresh.nocReqs = d.nocReqs := rfl
@[simp] theorem Dev.fresh_nextNoc (d : Dev) : d.fresh.nextNoc = d.nextNoc := rfl
@[simp] theorem Dev.fresh_nocs (d : Dev) : d.fresh.nocs = d.nocs := rfl
@[simp] theorem Dev.fresh_linkRuns (d : Dev) : d.fresh.linkRuns = d.linkRuns := rfl
@[simp] theorem Dev.fresh_tests (d : Dev) : d.fresh.tests = d.tests := rfl
@[simp] theorem Dev.fresh_ctx (d : Dev) : d.fresh.ctx = d.ctx := rfl
@[simp] theorem Dev.fresh_ctxBad (d : Dev) : d.fresh.ctxBad = d.ctxBad := rfl
@[simp] theorem Dev.fresh_imem (d : Dev) : d.fresh.imem = d.imem := rfl
@[simp] theorem Dev.fresh_epochs (d : Dev) : d.fresh.epochs = d.epochs := rfl
@[simp] theorem Dev.fresh_alignRecs (d : Dev) : d.fresh.alignRecs = d.alignRecs := rfl
@[simp] theorem Dev.fresh_holds (d : Dev) : d.fresh.holds = d.holds := rfl
@[simp] theorem Dev.fresh_pair (d : Dev) : d.fresh.pair = d.pair := rfl
@[simp] theorem Dev.fresh_hostEvs (d : Dev) : d.fresh.hostEvs = d.hostEvs := rfl
@[simp] theorem Dev.fresh_evtPhase (d : Dev) : d.fresh.evtPhase = d.evtPhase := rfl
@[simp] theorem Dev.fresh_hcmd (d : Dev) : d.fresh.hcmd = d.hcmd := rfl
@[simp] theorem Dev.fresh_fetching (d : Dev) : d.fresh.fetching = d.fetching := rfl
@[simp] theorem Dev.fresh_cmdBell (d : Dev) : d.fresh.cmdBell = d.cmdBell := rfl
@[simp] theorem Dev.fresh_boot (d : Dev) : d.fresh.boot = d.boot := rfl
@[simp] theorem Dev.fresh_tokenCk (d : Dev) : d.fresh.tokenCk = d.tokenCk := rfl

/-! `begin`. -/

@[simp] theorem Dev.begin_rst (d : Dev) (i : Instr) : (d.begin i).rst = d.rst := rfl
@[simp] theorem Dev.begin_sources (d : Dev) (i : Instr) : (d.begin i).sources = d.sources := rfl
@[simp] theorem Dev.begin_started (d : Dev) (i : Instr) : (d.begin i).started = d.started := rfl
@[simp] theorem Dev.begin_thermTrip (d : Dev) (i : Instr) : (d.begin i).thermTrip = d.thermTrip := rfl
@[simp] theorem Dev.begin_modeTarget (d : Dev) (i : Instr) : (d.begin i).modeTarget = d.modeTarget := rfl
@[simp] theorem Dev.begin_reqCk (d : Dev) (i : Instr) : (d.begin i).reqCk = d.reqCk := rfl
@[simp] theorem Dev.begin_readyCk (d : Dev) (i : Instr) : (d.begin i).readyCk = d.readyCk := rfl
@[simp] theorem Dev.begin_offEntry (d : Dev) (i : Instr) : (d.begin i).offEntry = d.offEntry := rfl
@[simp] theorem Dev.begin_safeEntry (d : Dev) (i : Instr) : (d.begin i).safeEntry = d.safeEntry := rfl
@[simp] theorem Dev.begin_safeCk (d : Dev) (i : Instr) : (d.begin i).safeCk = d.safeCk := rfl
@[simp] theorem Dev.begin_safeDue (d : Dev) (i : Instr) : (d.begin i).safeDue = d.safeDue := rfl
@[simp] theorem Dev.begin_south (d : Dev) (i : Instr) : (d.begin i).south = d.south := rfl
@[simp] theorem Dev.begin_waking (d : Dev) (i : Instr) : (d.begin i).waking = d.waking := rfl
@[simp] theorem Dev.begin_lanesBegun (d : Dev) (i : Instr) : (d.begin i).lanesBegun = d.lanesBegun := rfl
@[simp] theorem Dev.begin_lanesDue (d : Dev) (i : Instr) : (d.begin i).lanesDue = d.lanesDue := rfl
@[simp] theorem Dev.begin_ins (d : Dev) (i : Instr) : (d.begin i).ins = d.ins := rfl
@[simp] theorem Dev.begin_pins (d : Dev) (i : Instr) : (d.begin i).pins = d.pins := rfl
@[simp] theorem Dev.begin_ck (d : Dev) (i : Instr) : (d.begin i).ck = d.ck := rfl
@[simp] theorem Dev.begin_regs (d : Dev) (i : Instr) : (d.begin i).regs = d.regs := rfl
@[simp] theorem Dev.begin_log (d : Dev) (i : Instr) : (d.begin i).log = d.log := rfl
@[simp] theorem Dev.begin_latch (d : Dev) (i : Instr) : (d.begin i).latch = d.latch := rfl
@[simp] theorem Dev.begin_lineLog (d : Dev) (i : Instr) : (d.begin i).lineLog = d.lineLog := rfl
@[simp] theorem Dev.begin_msix (d : Dev) (i : Instr) : (d.begin i).msix = d.msix := rfl
@[simp] theorem Dev.begin_msixPend (d : Dev) (i : Instr) : (d.begin i).msixPend = d.msixPend := rfl
@[simp] theorem Dev.begin_lanes (d : Dev) (i : Instr) : (d.begin i).lanes = d.lanes := rfl
@[simp] theorem Dev.begin_recs (d : Dev) (i : Instr) : (d.begin i).recs = d.recs := rfl
@[simp] theorem Dev.begin_nextRid (d : Dev) (i : Instr) : (d.begin i).nextRid = d.nextRid := rfl
@[simp] theorem Dev.begin_lpc (d : Dev) (i : Instr) : (d.begin i).lpc = d.lpc := rfl
@[simp] theorem Dev.begin_evs (d : Dev) (i : Instr) : (d.begin i).evs = d.evs := rfl
@[simp] theorem Dev.begin_evsLate (d : Dev) (i : Instr) : (d.begin i).evsLate = d.evsLate := rfl
@[simp] theorem Dev.begin_evsRan (d : Dev) (i : Instr) : (d.begin i).evsRan = d.evsRan := rfl
@[simp] theorem Dev.begin_evsFired (d : Dev) (i : Instr) : (d.begin i).evsFired = d.evsFired := rfl
@[simp] theorem Dev.begin_rules (d : Dev) (i : Instr) : (d.begin i).rules = d.rules := rfl
@[simp] theorem Dev.begin_seqStates (d : Dev) (i : Instr) : (d.begin i).seqStates = d.seqStates := rfl
@[simp] theorem Dev.begin_seqSlots (d : Dev) (i : Instr) : (d.begin i).seqSlots = d.seqSlots := rfl
@[simp] theorem Dev.begin_seqSel (d : Dev) (i : Instr) : (d.begin i).seqSel = d.seqSel := rfl
@[simp] theorem Dev.begin_seqs (d : Dev) (i : Instr) : (d.begin i).seqs = d.seqs := rfl
@[simp] theorem Dev.begin_trigEvs (d : Dev) (i : Instr) : (d.begin i).trigEvs = d.trigEvs := rfl
@[simp] theorem Dev.begin_bridgeOut (d : Dev) (i : Instr) : (d.begin i).bridgeOut = d.bridgeOut := rfl
@[simp] theorem Dev.begin_flying (d : Dev) (i : Instr) : (d.begin i).flying = d.flying := rfl
@[simp] theorem Dev.begin_stimIn (d : Dev) (i : Instr) : (d.begin i).stimIn = d.stimIn := rfl
@[simp] theorem Dev.begin_stims (d : Dev) (i : Instr) : (d.begin i).stims = d.stims := rfl
@[simp] theorem Dev.begin_plays (d : Dev) (i : Instr) : (d.begin i).plays = d.plays := rfl
@[simp] theorem Dev.begin_tmpls (d : Dev) (i : Instr) : (d.begin i).tmpls = d.tmpls := rfl
@[simp] theorem Dev.begin_allocs (d : Dev) (i : Instr) : (d.begin i).allocs = d.allocs := rfl
@[simp] theorem Dev.begin_flows (d : Dev) (i : Instr) : (d.begin i).flows = d.flows := rfl
@[simp] theorem Dev.begin_nums (d : Dev) (i : Instr) : (d.begin i).nums = d.nums := rfl
@[simp] theorem Dev.begin_runs (d : Dev) (i : Instr) : (d.begin i).runs = d.runs := rfl
@[simp] theorem Dev.begin_closing (d : Dev) (i : Instr) : (d.begin i).closing = d.closing := rfl
@[simp] theorem Dev.begin_frozeLp (d : Dev) (i : Instr) : (d.begin i).frozeLp = d.frozeLp := rfl
@[simp] theorem Dev.begin_cq (d : Dev) (i : Instr) : (d.begin i).cq = d.cq := rfl
@[simp] theorem Dev.begin_mem (d : Dev) (i : Instr) : (d.begin i).mem = d.mem := rfl
@[simp] theorem Dev.begin_chk (d : Dev) (i : Instr) : (d.begin i).chk = d.chk := rfl
@[simp] theorem Dev.begin_subs (d : Dev) (i : Instr) : (d.begin i).subs = d.subs := rfl
@[simp] theorem Dev.begin_dtx (d : Dev) (i : Instr) : (d.begin i).dtx = d.dtx := rfl
@[simp] theorem Dev.begin_nextTx (d : Dev) (i : Instr) : (d.begin i).nextTx = d.nextTx := rfl
@[simp] theorem Dev.begin_drcs (d : Dev) (i : Instr) : (d.begin i).drcs = d.drcs := rfl
@[simp] theorem Dev.begin_memis (d : Dev) (i : Instr) : (d.begin i).memis = d.memis := rfl
@[simp] theorem Dev.begin_crypts (d : Dev) (i : Instr) : (d.begin i).crypts = d.crypts := rfl
@[simp] theorem Dev.begin_fuses (d : Dev) (i : Instr) : (d.begin i).fuses = d.fuses := rfl
@[simp] theorem Dev.begin_fab (d : Dev) (i : Instr) : (d.begin i).fab = d.fab := rfl
@[simp] theorem Dev.begin_bays (d : Dev) (i : Instr) : (d.begin i).bays = d.bays := rfl
@[simp] theorem Dev.begin_scrub (d : Dev) (i : Instr) : (d.begin i).scrub = d.scrub := rfl
@[simp] theorem Dev.begin_cfg (d : Dev) (i : Instr) : (d.begin i).cfg = d.cfg := rfl
@[simp] theorem Dev.begin_startCk (d : Dev) (i : Instr) : (d.begin i).startCk = d.startCk := rfl
@[simp] theorem Dev.begin_pmc (d : Dev) (i : Instr) : (d.begin i).pmc = d.pmc := rfl
@[simp] theorem Dev.begin_dmas (d : Dev) (i : Instr) : (d.begin i).dmas = d.dmas := rfl
@[simp] theorem Dev.begin_dmaTurn (d : Dev) (i : Instr) : (d.begin i).dmaTurn = d.dmaTurn := rfl
@[simp] theorem Dev.begin_exts (d : Dev) (i : Instr) : (d.begin i).exts = d.exts := rfl
@[simp] theorem Dev.begin_opened (d : Dev) (i : Instr) : (d.begin i).opened = d.opened := rfl
@[simp] theorem Dev.begin_nextOpen (d : Dev) (i : Instr) : (d.begin i).nextOpen = d.nextOpen := rfl
@[simp] theorem Dev.begin_plus (d : Dev) (i : Instr) : (d.begin i).plus = d.plus := rfl
@[simp] theorem Dev.begin_handovers (d : Dev) (i : Instr) : (d.begin i).handovers = d.handovers := rfl
@[simp] theorem Dev.begin_jrnTx (d : Dev) (i : Instr) : (d.begin i).jrnTx = d.jrnTx := rfl
@[simp] theorem Dev.begin_meta64 (d : Dev) (i : Instr) : (d.begin i).meta64 = d.meta64 := rfl
@[simp] theorem Dev.begin_offers (d : Dev) (i : Instr) : (d.begin i).offers = d.offers := rfl
@[simp] theorem Dev.begin_capReads (d : Dev) (i : Instr) : (d.begin i).capReads = d.capReads := rfl
@[simp] theorem Dev.begin_nextRead (d : Dev) (i : Instr) : (d.begin i).nextRead = d.nextRead := rfl
@[simp] theorem Dev.begin_seeks (d : Dev) (i : Instr) : (d.begin i).seeks = d.seeks := rfl
@[simp] theorem Dev.begin_descReads (d : Dev) (i : Instr) : (d.begin i).descReads = d.descReads := rfl
@[simp] theorem Dev.begin_engs (d : Dev) (i : Instr) : (d.begin i).engs = d.engs := rfl
@[simp] theorem Dev.begin_dbgs (d : Dev) (i : Instr) : (d.begin i).dbgs = d.dbgs := rfl
@[simp] theorem Dev.begin_gks (d : Dev) (i : Instr) : (d.begin i).gks = d.gks := rfl
@[simp] theorem Dev.begin_bayQ (d : Dev) (i : Instr) : (d.begin i).bayQ = d.bayQ := rfl
@[simp] theorem Dev.begin_spQ (d : Dev) (i : Instr) : (d.begin i).spQ = d.spQ := rfl
@[simp] theorem Dev.begin_resvs (d : Dev) (i : Instr) : (d.begin i).resvs = d.resvs := rfl
@[simp] theorem Dev.begin_nocReqs (d : Dev) (i : Instr) : (d.begin i).nocReqs = d.nocReqs := rfl
@[simp] theorem Dev.begin_nextNoc (d : Dev) (i : Instr) : (d.begin i).nextNoc = d.nextNoc := rfl
@[simp] theorem Dev.begin_nocs (d : Dev) (i : Instr) : (d.begin i).nocs = d.nocs := rfl
@[simp] theorem Dev.begin_linkRuns (d : Dev) (i : Instr) : (d.begin i).linkRuns = d.linkRuns := rfl
@[simp] theorem Dev.begin_tests (d : Dev) (i : Instr) : (d.begin i).tests = d.tests := rfl
@[simp] theorem Dev.begin_ctx (d : Dev) (i : Instr) : (d.begin i).ctx = d.ctx := rfl
@[simp] theorem Dev.begin_ctxBad (d : Dev) (i : Instr) : (d.begin i).ctxBad = d.ctxBad := rfl
@[simp] theorem Dev.begin_imem (d : Dev) (i : Instr) : (d.begin i).imem = d.imem := rfl
@[simp] theorem Dev.begin_epochs (d : Dev) (i : Instr) : (d.begin i).epochs = d.epochs := rfl
@[simp] theorem Dev.begin_alignRecs (d : Dev) (i : Instr) : (d.begin i).alignRecs = d.alignRecs := rfl
@[simp] theorem Dev.begin_holds (d : Dev) (i : Instr) : (d.begin i).holds = d.holds := rfl
@[simp] theorem Dev.begin_pair (d : Dev) (i : Instr) : (d.begin i).pair = d.pair := rfl
@[simp] theorem Dev.begin_hostEvs (d : Dev) (i : Instr) : (d.begin i).hostEvs = d.hostEvs := rfl
@[simp] theorem Dev.begin_evtPhase (d : Dev) (i : Instr) : (d.begin i).evtPhase = d.evtPhase := rfl
@[simp] theorem Dev.begin_hcmd (d : Dev) (i : Instr) : (d.begin i).hcmd = d.hcmd := rfl
@[simp] theorem Dev.begin_fetching (d : Dev) (i : Instr) : (d.begin i).fetching = d.fetching := rfl
@[simp] theorem Dev.begin_cmdBell (d : Dev) (i : Instr) : (d.begin i).cmdBell = d.cmdBell := rfl
@[simp] theorem Dev.begin_boot (d : Dev) (i : Instr) : (d.begin i).boot = d.boot := rfl
@[simp] theorem Dev.begin_tokenCk (d : Dev) (i : Instr) : (d.begin i).tokenCk = d.tokenCk := rfl

theorem Dev.setLog_log (d : Dev) (l : CkLog) : (d.setLog l).log = l := rfl
theorem Dev.emit_out (d : Dev) (o : Out) : (d.emit o).out = d.out ++ [o] := rfl
theorem Dev.setPins_pins (d : Dev) (p : Pins) : (d.setPins p).pins = p := rfl
theorem Dev.fresh_out (d : Dev) : d.fresh.out = [] := rfl
theorem Dev.begin_out (d : Dev) (i : Instr) : (d.begin i).out = [] := rfl
theorem Dev.begin_agenda (d : Dev) (i : Instr) : (d.begin i).agenda = agendaDrop i d.agenda := rfl

end Sys2Proof.Machine
end

