-- ==== Sys2Proof/Laws/Ops.lean ====
section
/-! SUPPORT. Laws of the shared operations: a register after a write, a field after a write, counters, and what errors, interrupt bits and
the end of a command leave alone. -/

namespace Sys2Proof.Machine

/-! Registers. -/

theorem raddr_inj {pg off pg' off' : Nat} (h : off < 4096) (h' : off' < 4096) (e : raddr pg off = raddr pg' off') : pg = pg' ∧ off = off' := by
  unfold raddr at e
  omega

/-- A register that has just been stored. -/
@[simp] theorem Dev.reg_setReg (d : Dev) (pg off : Nat) (v : Word) : (d.setReg pg off v).reg pg off = v := by
  simp [Dev.reg, Dev.setReg]

/-- Any other register. -/
theorem Dev.reg_setReg_ne (d : Dev) {pg off pg' off' : Nat} (v : Word) (h : raddr pg off ≠ raddr pg' off') :
    (d.setReg pg off v).reg pg' off' = d.reg pg' off' := by
  simp [Dev.reg, Dev.setReg, sget_sset_ne _ _ _ _ h]

theorem Dev.reg_setReg_page (d : Dev) {pg off pg' off' : Nat} (v : Word) (h : off < 4096) (h' : off' < 4096) (hp : pg ≠ pg') :
    (d.setReg pg off v).reg pg' off' = d.reg pg' off' :=
  d.reg_setReg_ne v (fun e => hp (raddr_inj h h' e).1)

theorem Dev.reg_setReg_off (d : Dev) {pg off pg' off' : Nat} (v : Word) (h : off < 4096) (h' : off' < 4096) (ho : off ≠ off') :
    (d.setReg pg off v).reg pg' off' = d.reg pg' off' :=
  d.reg_setReg_ne v (fun e => ho (raddr_inj h h' e).2)

/-- A field that has just been set. -/
@[simp] theorem Dev.fld_setFld (d : Dev) (pg : Nat) (f : Fld) (v : Nat) (h : f.lo + f.wd ≤ 32) : (d.setFld pg f v).fld pg f = v % 2 ^ f.wd := by
  unfold Dev.fld Dev.setFld
  rw [Dev.reg_setReg, BitVec.toNat_ofNat, Nat.mod_eq_of_lt (bitsPut_lt _ _ _ _ _ (d.reg pg f.off).isLt h), bitsOf_bitsPut]

/-- A field of another register. -/
theorem Dev.fld_setFld_ne (d : Dev) {pg pg' : Nat} (f g : Fld) (v : Nat) (h : raddr pg f.off ≠ raddr pg' g.off) :
    (d.setFld pg f v).fld pg' g = d.fld pg' g := by
  unfold Dev.fld Dev.setFld
  rw [Dev.reg_setReg_ne _ _ h]

/-- Another field of the register. -/
theorem Dev.fld_setFld_disj (d : Dev) (pg : Nat) (f g : Fld) (v : Nat) (ho : f.off = g.off) (h : f.lo + f.wd ≤ 32)
    (hd : g.lo + g.wd ≤ f.lo ∨ f.lo + f.wd ≤ g.lo) : (d.setFld pg f v).fld pg g = d.fld pg g := by
  unfold Dev.fld Dev.setFld
  rw [← ho, Dev.reg_setReg, BitVec.toNat_ofNat, Nat.mod_eq_of_lt (bitsPut_lt _ _ _ _ _ (d.reg pg f.off).isLt h)]
  rcases hd with hd | hd
  · exact bitsOf_bitsPut_below _ _ _ _ _ _ hd
  · exact bitsOf_bitsPut_above _ _ _ _ _ _ hd

theorem Dev.fld_lt (d : Dev) (pg : Nat) (f : Fld) : d.fld pg f < 2 ^ f.wd := bitsOf_lt _ _ _

/-! The log of the CK is no register. -/

@[simp] theorem Dev.reg_setLog (d : Dev) (l : CkLog) (pg off : Nat) : (d.setLog l).reg pg off = d.reg pg off := rfl
@[simp] theorem Dev.fld_setLog (d : Dev) (l : CkLog) (pg : Nat) (f : Fld) : (d.setLog l).fld pg f = d.fld pg f := rfl
@[simp] theorem Dev.reg_noteCount (d : Dev) (p : Nat) (f : Fld) (k pg off : Nat) : (d.noteCount p f k).reg pg off = d.reg pg off := rfl
@[simp] theorem Dev.fld_noteCount (d : Dev) (p : Nat) (f : Fld) (k pg : Nat) (g : Fld) : (d.noteCount p f k).fld pg g = d.fld pg g := rfl
@[simp] theorem Dev.reg_noteErr (d : Dev) (p i c pg off : Nat) : (d.noteErr p i c).reg pg off = d.reg pg off := rfl
@[simp] theorem Dev.fld_noteErr (d : Dev) (p i c pg : Nat) (g : Fld) : (d.noteErr p i c).fld pg g = d.fld pg g := rfl

/-- A counter that advances, saturating. -/
theorem Dev.fld_bump (d : Dev) (pg : Nat) (f : Fld) (h : f.lo + f.wd ≤ 32) :
    (d.bump pg f).fld pg f = min (d.fld pg f + 1) (2 ^ f.wd - 1) := by
  have hp : 0 < 2 ^ f.wd := by positivity
  unfold Dev.bump Dev.bumpBy
  rw [Dev.fld_noteCount, Dev.fld_setFld _ _ _ _ h, satAdd, Nat.mod_eq_of_lt (by omega)]

/-! What an operation leaves alone. -/

theorem Dev.rest_regs (d : Dev) (x : SMap Word) : ({ d with regs := x } : Dev).rest = d.rest := rfl
theorem Dev.rest_log (d : Dev) (x : CkLog) : ({ d with log := x } : Dev).rest = d.rest := rfl
theorem Dev.rest_out (d : Dev) (x : List Out) : ({ d with out := x } : Dev).rest = d.rest := rfl
theorem Dev.rest_msixPend (d : Dev) (x : List Nat) : ({ d with msixPend := x } : Dev).rest = d.rest := rfl
theorem Dev.rest_lineLog (d : Dev) (x : List (Nat × Nat × Bool)) : ({ d with lineLog := x } : Dev).rest = d.rest := rfl
theorem Dev.rest_pins (d : Dev) (x : Pins) : ({ d with pins := x } : Dev).rest = d.rest := rfl

@[simp] theorem Dev.rest_setReg (d : Dev) (pg off : Nat) (v : Word) : (d.setReg pg off v).rest = d.rest := d.rest_regs _
@[simp] theorem Dev.rest_setFld (d : Dev) (pg : Nat) (f : Fld) (v : Nat) : (d.setFld pg f v).rest = d.rest := d.rest_setReg _ _ _
@[simp] theorem Dev.rest_setLog (d : Dev) (l : CkLog) : (d.setLog l).rest = d.rest := d.rest_log _
@[simp] theorem Dev.rest_noteCount (d : Dev) (pg : Nat) (f : Fld) (k : Nat) : (d.noteCount pg f k).rest = d.rest := d.rest_setLog _
@[simp] theorem Dev.rest_noteErr (d : Dev) (pg idx code : Nat) : (d.noteErr pg idx code).rest = d.rest := d.rest_setLog _
@[simp] theorem Dev.rest_bumpBy (d : Dev) (pg : Nat) (f : Fld) (k : Nat) : (d.bumpBy pg f k).rest = d.rest := by
  rw [Dev.bumpBy, Dev.rest_noteCount, Dev.rest_setFld]
@[simp] theorem Dev.rest_bump (d : Dev) (pg : Nat) (f : Fld) : (d.bump pg f).rest = d.rest := d.rest_bumpBy _ _ _
@[simp] theorem Dev.rest_setReg64 (d : Dev) (pg off v : Nat) : (d.setReg64 pg off v).rest = d.rest := by
  rw [Dev.setReg64, Dev.rest_setReg, Dev.rest_setReg]
@[simp] theorem Dev.rest_emit (d : Dev) (o : Out) : (d.emit o).rest = d.rest := d.rest_out _

@[simp] theorem Dev.rest_setWindow {n : Nat} (d : Dev) (pg off k : Nat) (x : BitVec n) : (d.setWindow pg off k x).rest = d.rest := by
  unfold Dev.setWindow
  generalize List.range k = l
  induction l generalizing d with
  | nil => rfl
  | cons j l ih => rw [List.foldl_cons, ih, Dev.rest_setReg]

@[simp] theorem Dev.rest_setMsixPend (d : Dev) (v : Nat) : (d.setMsixPend v).rest = d.rest := d.rest_msixPend _
@[simp] theorem Dev.rest_setPins (d : Dev) (p : Pins) : (d.setPins p).rest = d.rest := d.rest_pins _

@[simp] theorem Dev.reg_setMsixPend (d : Dev) (v pg off : Nat) : (d.setMsixPend v).reg pg off = d.reg pg off := rfl
@[simp] theorem Dev.fld_setMsixPend (d : Dev) (v pg : Nat) (f : Fld) : (d.setMsixPend v).fld pg f = d.fld pg f := rfl
@[simp] theorem Dev.reg_emit (d : Dev) (o : Out) (pg off : Nat) : (d.emit o).reg pg off = d.reg pg off := rfl
@[simp] theorem Dev.fld_emit (d : Dev) (o : Out) (pg : Nat) (f : Fld) : (d.emit o).fld pg f = d.fld pg f := rfl
@[simp] theorem Dev.reg_setPins (d : Dev) (p : Pins) (pg off : Nat) : (d.setPins p).reg pg off = d.reg pg off := rfl
@[simp] theorem Dev.fld_setPins (d : Dev) (p : Pins) (pg : Nat) (f : Fld) : (d.setPins p).fld pg f = d.fld pg f := rfl
@[simp] theorem Dev.reg_fresh (d : Dev) (pg off : Nat) : d.fresh.reg pg off = d.reg pg off := rfl
@[simp] theorem Dev.fld_fresh (d : Dev) (pg : Nat) (f : Fld) : d.fresh.fld pg f = d.fld pg f := rfl
@[simp] theorem Dev.reg_begin (d : Dev) (i : Instr) (pg off : Nat) : (d.begin i).reg pg off = d.reg pg off := rfl
@[simp] theorem Dev.fld_begin (d : Dev) (i : Instr) (pg : Nat) (f : Fld) : (d.begin i).fld pg f = d.fld pg f := rfl

@[simp] theorem Dev.rest_errLoad (d : Dev) (pg idx code : Nat) : (d.errLoad pg idx code).rest = d.rest := by
  rw [Dev.errLoad, Dev.rest_setLog, Dev.rest_setFld, Dev.rest_setFld]

@[simp] theorem Dev.rest_errFirst (d : Dev) (pg idx code : Nat) : (d.errFirst pg idx code).rest = d.rest := by
  unfold Dev.errFirst
  dsimp only
  split_ifs
  · exact d.rest_errLoad _ _ _
  · rfl

@[simp] theorem Dev.rest_err (d : Dev) (pg idx code : Nat) : (d.err pg idx code).rest = d.rest := by
  rw [Dev.err, Dev.rest_errFirst, Dev.rest_noteErr, Dev.rest_bump]

@[simp] theorem Dev.rest_regErr (d : Dev) (pg code : Nat) : (d.regErr pg code).rest = d.rest := d.rest_err _ _ _

@[simp] theorem Dev.rest_errs (d : Dev) (pg : Nat) (cs : List (Nat × Nat)) : (d.errs pg cs).rest = d.rest := by
  unfold Dev.errs
  generalize List.range 8 = l
  induction l generalizing d with
  | nil => rfl
  | cons i l ih =>
    rw [List.foldl_cons, ih]
    split
    · rfl
    · rw [Dev.rest_err]

@[simp] theorem Dev.rest_sendVec (d : Dev) (v : Nat) : (d.sendVec v).rest = d.rest := by
  unfold Dev.sendVec
  split_ifs
  · rfl
  · dsimp only
    split_ifs
    · rw [Dev.rest_setMsixPend, Dev.rest_setLog]
    · rw [Dev.rest_emit, Dev.rest_setLog]

@[simp] theorem Dev.rest_edge (d : Dev) (pg : Nat) : (d.edge pg).rest = d.rest := by
  unfold Dev.edge
  split_ifs
  · exact d.rest_sendVec _
  · rfl

@[simp] theorem Dev.rest_lineMoved (d : Dev) (pg : Nat) (b : Bool) : (d.lineMoved pg b).rest = d.rest := by
  unfold Dev.lineMoved
  split_ifs
  · rfl
  · exact d.rest_lineLog _

@[simp] theorem Dev.rest_seqStep (d : Dev) (pg : Nat) (b : Bool) : (d.seqStep pg b).rest = d.rest := by
  unfold Dev.seqStep
  split_ifs
  · rw [Dev.rest_setLog, Dev.rest_setFld]
  · rfl

@[simp] theorem Dev.rest_pendBits (d : Dev) (pg bits : Nat) : (d.pendBits pg bits).rest = d.rest := by
  unfold Dev.pendBits
  dsimp only
  split_ifs
  · rw [Dev.rest_edge, Dev.rest_lineMoved, Dev.rest_seqStep, Dev.rest_setReg, Dev.rest_setLog]
  · rw [Dev.rest_lineMoved, Dev.rest_seqStep, Dev.rest_setReg, Dev.rest_setLog]

@[simp] theorem Dev.rest_pend (d : Dev) (pg k : Nat) : (d.pend pg k).rest = d.rest := d.rest_pendBits _ _

@[simp] theorem Dev.rest_fresh (d : Dev) : d.fresh.rest = d.rest := by
  unfold Dev.fresh
  rfl

/-- What a pair's drop-out leaves alone. -/
@[simp] theorem Dev.rest_pairDrop (d : Dev) (b : Bool) : (d.pairDrop b).rest = d.rest := by
  unfold Dev.pairDrop
  split_ifs
  · exact d.rest_setFld _ _ _
  · exact d.rest_setFld _ _ _
  · rfl

/-- The end of a command: the balls follow; a pair's state may show that it has dropped out (R460). -/
@[simp] theorem Dev.rest_settle (d : Dev) : d.settle.rest = d.rest := by
  unfold Dev.settle
  dsimp only
  rw [Dev.rest_setPins, Dev.rest_pairDrop]

theorem Dev.settle_regs (d : Dev) : d.settle.regs = (d.pairDrop d.pins.pairOk).regs := rfl

theorem Dev.reg_congr {d d' : Dev} (h : d.regs = d'.regs) (pg off : Nat) : d.reg pg off = d'.reg pg off := by
  unfold Dev.reg
  rw [h]

/-- The end of a command leaves every register alone but PAIR_STAT. -/
theorem Dev.reg_settle (d : Dev) (pg off : Nat) (h : raddr Pg.pair F.PAIR_STAT_STATE.off ≠ raddr pg off) : d.settle.reg pg off = d.reg pg off := by
  rw [Dev.reg_congr d.settle_regs]
  unfold Dev.pairDrop
  split_ifs
  · exact Dev.reg_setReg_ne _ _ h
  · exact Dev.reg_setReg_ne _ _ h
  · rfl

theorem Dev.fld_settle (d : Dev) (pg : Nat) (f : Fld) (h : raddr Pg.pair F.PAIR_STAT_STATE.off ≠ raddr pg f.off) : d.settle.fld pg f = d.fld pg f := by
  unfold Dev.fld
  rw [d.reg_settle pg f.off h]

/-! Registers after an error and after interrupt bits. -/

theorem raddr_ne {pg off off' : Nat} (h : off ≠ off') : raddr pg off ≠ raddr pg off' := by
  unfold raddr
  omega

theorem Dev.reg_setFld_ne (d : Dev) {pg pg' off : Nat} (f : Fld) (v : Nat) (h : raddr pg f.off ≠ raddr pg' off) :
    (d.setFld pg f v).reg pg' off = d.reg pg' off := Dev.reg_setReg_ne _ _ h

theorem Dev.reg_bump_ne (d : Dev) {pg pg' off : Nat} (f : Fld) (h : raddr pg f.off ≠ raddr pg' off) :
    (d.bump pg f).reg pg' off = d.reg pg' off := (Dev.reg_noteCount _ _ _ _ _ _).trans (Dev.reg_setReg_ne _ _ h)

theorem Dev.reg_errLoad_ne (d : Dev) (pg idx code : Nat) {pg' off : Nat} (h : raddr pg 0x01C ≠ raddr pg' off) :
    (d.errLoad pg idx code).reg pg' off = d.reg pg' off := by
  rw [Dev.errLoad, Dev.reg_setLog, Dev.reg_setFld_ne _ _ _ h, Dev.reg_setFld_ne _ _ _ h]

theorem Dev.reg_errFirst_ne (d : Dev) (pg idx code : Nat) {pg' off : Nat} (h : raddr pg 0x01C ≠ raddr pg' off) :
    (d.errFirst pg idx code).reg pg' off = d.reg pg' off := by
  unfold Dev.errFirst
  dsimp only
  split_ifs
  · exact d.reg_errLoad_ne _ _ _ h
  · rfl

/-- An error changes its counter and ERR_FIRST, and no other register. -/
theorem Dev.reg_err_ne (d : Dev) (pg idx code : Nat) {pg' off : Nat} (h1 : raddr pg (0x020 + 4 * idx) ≠ raddr pg' off)
    (h2 : raddr pg 0x01C ≠ raddr pg' off) : (d.err pg idx code).reg pg' off = d.reg pg' off := by
  rw [Dev.err, Dev.reg_errFirst_ne _ _ _ _ h2, Dev.reg_noteErr, Dev.reg_bump_ne _ _ h1]

theorem Dev.fld_errFirst_errcnt (d : Dev) (pg idx code j : Nat) : (d.errFirst pg idx code).fld pg (F.ERRCNT j) = d.fld pg (F.ERRCNT j) := by
  unfold Dev.fld
  rw [Dev.reg_errFirst_ne _ _ _ _ (raddr_ne (by simp only [F.ERRCNT]; omega))]

/-- The counter of an error. -/
theorem Dev.fld_err (d : Dev) (pg idx code : Nat) :
    (d.err pg idx code).fld pg (F.ERRCNT idx) = min (d.fld pg (F.ERRCNT idx) + 1) 0xFFFFFFFF := by
  rw [Dev.err, Dev.fld_errFirst_errcnt, Dev.fld_noteErr, Dev.fld_bump _ _ _ (by simp [F.ERRCNT])]
  rfl

/-- Another counter of the page. -/
theorem Dev.fld_err_ne (d : Dev) (pg idx code j : Nat) (h : idx ≠ j) : (d.err pg idx code).fld pg (F.ERRCNT j) = d.fld pg (F.ERRCNT j) := by
  rw [Dev.err, Dev.fld_errFirst_errcnt, Dev.fld_noteErr, Dev.bump, Dev.bumpBy, Dev.fld_noteCount]
  exact Dev.fld_setFld_ne _ _ _ _ (raddr_ne (by simp only [F.ERRCNT]; omega))

/-- ERR_FIRST as an error finds it: the counters stand elsewhere. -/
theorem Dev.reg_bump_first (d : Dev) (pg idx : Nat) : (d.bump pg (F.ERRCNT idx)).reg pg 0x01C = d.reg pg 0x01C :=
  Dev.reg_bump_ne _ _ (raddr_ne (by simp only [F.ERRCNT]; omega))

theorem Dev.fld_bump_first (d : Dev) (pg idx : Nat) : (d.bump pg (F.ERRCNT idx)).fld pg F.ERR_FIRST_CODE = d.fld pg F.ERR_FIRST_CODE := by
  unfold Dev.fld
  exact congrArg (fun w : Word => bitsOf w.toNat 0 16) (d.reg_bump_first pg idx)

theorem Dev.fld_errLoad_code (d : Dev) (pg idx code : Nat) : (d.errLoad pg idx code).fld pg F.ERR_FIRST_CODE = code % 2 ^ 16 := by
  rw [Dev.errLoad, Dev.fld_setLog, Dev.fld_setFld_disj _ _ F.ERR_FIRST_IDX F.ERR_FIRST_CODE _ rfl (by decide) (by decide), Dev.fld_setFld _ _ _ _ (by decide)]
  rfl

theorem Dev.fld_errLoad_idx (d : Dev) (pg idx code : Nat) : (d.errLoad pg idx code).fld pg F.ERR_FIRST_IDX = idx % 2 ^ 3 := by
  rw [Dev.errLoad, Dev.fld_setLog, Dev.fld_setFld _ _ _ _ (by decide)]
  rfl

/-- Pages whose ERR_FIRST this CK has loaded, through what an error does before it. -/
@[simp] theorem Dev.noteErr_firsts (d : Dev) (pg idx code : Nat) : (d.noteErr pg idx code).log.firsts = d.log.firsts := rfl
@[simp] theorem Dev.noteCount_firsts (d : Dev) (pg : Nat) (f : Fld) (k : Nat) : (d.noteCount pg f k).log.firsts = d.log.firsts := rfl
@[simp] theorem Dev.bump_firsts (d : Dev) (pg : Nat) (f : Fld) : (d.bump pg f).log.firsts = d.log.firsts := by
  rw [Dev.bump, Dev.bumpBy, Dev.noteCount_firsts, Dev.setFld_log]

/-- An error finds ERR_FIRST at 0: it loads it. -/
theorem Dev.err_loads (d : Dev) (pg idx code : Nat) (h : d.fld pg F.ERR_FIRST_CODE = 0) :
    d.err pg idx code = ((d.bump pg (F.ERRCNT idx)).noteErr pg idx code).errLoad pg idx code := by
  have hb : ((d.bump pg (F.ERRCNT idx)).noteErr pg idx code).fld pg F.ERR_FIRST_CODE = 0 := by
    rw [Dev.fld_noteErr, Dev.fld_bump_first]; exact h
  rw [Dev.err]
  generalize (d.bump pg (F.ERRCNT idx)).noteErr pg idx code = x at hb ⊢
  unfold Dev.errFirst
  exact if_pos (Or.inl hb)

/-- An error finds a code that an earlier CK left: it stays. -/
theorem Dev.err_keeps (d : Dev) (pg idx code : Nat) (h : d.fld pg F.ERR_FIRST_CODE ≠ 0) (hl : pg ∉ d.log.firsts) :
    d.err pg idx code = (d.bump pg (F.ERRCNT idx)).noteErr pg idx code := by
  have hb : ((d.bump pg (F.ERRCNT idx)).noteErr pg idx code).fld pg F.ERR_FIRST_CODE ≠ 0 := by
    rw [Dev.fld_noteErr, Dev.fld_bump_first]; exact h
  have hf : pg ∉ ((d.bump pg (F.ERRCNT idx)).noteErr pg idx code).log.firsts := by
    rw [Dev.noteErr_firsts, Dev.bump_firsts]; exact hl
  rw [Dev.err]
  generalize (d.bump pg (F.ERRCNT idx)).noteErr pg idx code = x at hb hf ⊢
  unfold Dev.errFirst
  exact if_neg (not_or.mpr ⟨hb, fun c => hf (by simpa using c.1)⟩)

theorem Dev.reg_sendVec (d : Dev) (v pg off : Nat) : (d.sendVec v).reg pg off = d.reg pg off := by
  unfold Dev.sendVec
  split_ifs
  · rfl
  · dsimp only
    split_ifs <;> simp

theorem Dev.reg_edge (d : Dev) (p pg off : Nat) : (d.edge p).reg pg off = d.reg pg off := by
  unfold Dev.edge
  split_ifs
  · exact d.reg_sendVec _ _ _
  · rfl

theorem Dev.reg_lineMoved (d : Dev) (p : Nat) (b : Bool) (pg off : Nat) : (d.lineMoved p b).reg pg off = d.reg pg off := by
  unfold Dev.lineMoved
  split_ifs <;> rfl

theorem Dev.reg_seqStep_ne (d : Dev) (p : Nat) (b : Bool) {pg off : Nat} (h : raddr p 0x040 ≠ raddr pg off) :
    (d.seqStep p b).reg pg off = d.reg pg off := by
  unfold Dev.seqStep
  split_ifs
  · rw [Dev.reg_setLog, Dev.reg_setFld_ne _ _ _ h]
  · rfl

/-- Interrupt bits change INT_PEND and SEQ, and no other register. -/
theorem Dev.reg_pendBits_ne (d : Dev) (p bits : Nat) {pg off : Nat} (h1 : raddr p 0x010 ≠ raddr pg off) (h2 : raddr p 0x040 ≠ raddr pg off) :
    (d.pendBits p bits).reg pg off = d.reg pg off := by
  unfold Dev.pendBits
  dsimp only
  split_ifs
  · rw [Dev.reg_edge, Dev.reg_lineMoved, Dev.reg_seqStep_ne _ _ _ h2, Dev.reg_setReg_ne _ _ h1, Dev.reg_setLog]
  · rw [Dev.reg_lineMoved, Dev.reg_seqStep_ne _ _ _ h2, Dev.reg_setReg_ne _ _ h1, Dev.reg_setLog]

/-- INT_PEND takes the bits the page defines. -/
theorem Dev.reg_pendBits (d : Dev) (p bits : Nat) :
    (d.pendBits p bits).reg p 0x010 = d.reg p 0x010 ||| BitVec.ofNat 32 (bits &&& pendMaskOf p) := by
  unfold Dev.pendBits
  dsimp only
  split_ifs
  · rw [Dev.reg_edge, Dev.reg_lineMoved, Dev.reg_seqStep_ne _ _ _ (raddr_ne (by decide)), Dev.reg_setReg]
  · rw [Dev.reg_lineMoved, Dev.reg_seqStep_ne _ _ _ (raddr_ne (by decide)), Dev.reg_setReg]

theorem Dev.fld_pendBits_ne (d : Dev) (p bits : Nat) {pg : Nat} (f : Fld) (h1 : raddr p 0x010 ≠ raddr pg f.off) (h2 : raddr p 0x040 ≠ raddr pg f.off) :
    (d.pendBits p bits).fld pg f = d.fld pg f := by
  unfold Dev.fld
  rw [Dev.reg_pendBits_ne _ _ _ h1 h2]

theorem Dev.fld_err_other (d : Dev) (p idx code : Nat) {pg : Nat} (f : Fld) (h1 : raddr p (0x020 + 4 * idx) ≠ raddr pg f.off)
    (h2 : raddr p 0x01C ≠ raddr pg f.off) : (d.err p idx code).fld pg f = d.fld pg f := by
  unfold Dev.fld
  rw [Dev.reg_err_ne _ _ _ _ h1 h2]

/-! How a command is run. -/

/-- A command that acts out of reset alone. -/
theorem Dev.awake_running (d : Dev) (f : Dev → Dev) (h : d.rst = .running) : d.awake f = f d := if_pos h

theorem State.cmd_running (s : State) (f : Dev → Dev) (h : s.dev.rst = .running) : s.cmd f = s.becomes (f s.dev.fresh) := by
  unfold State.cmd State.becomes
  rw [Dev.awake_running _ _ (show s.dev.fresh.rst = .running from h)]

theorem State.run_running (s : State) (i : Instr) (f : Dev → Dev) (h : s.dev.rst = .running) : s.run i f = s.becomes (f (s.dev.begin i)) := by
  unfold State.run State.becomes
  rw [Dev.awake_running _ _ (show (s.dev.begin i).rst = .running from h)]

theorem State.checked_running (s : State) (f : Dev → Dev) (h : s.dev.rst = .running) : s.checked true f = s.becomes (f s.dev.fresh) := by
  unfold State.checked
  rw [if_pos rfl, s.cmd_running f h]

theorem State.cmdAlways_eq (s : State) (f : Dev → Dev) : s.cmdAlways f = s.becomes (f s.dev.fresh) := rfl
theorem State.runAlways_eq (s : State) (i : Instr) (f : Dev → Dev) : s.runAlways i f = s.becomes (f (s.dev.begin i)) := rfl

/-- A software write of a device that is not paired acts at once. -/
theorem Dev.swGate_unpaired (d : Dev) (addr : Nat) (val : Word) (f : Dev → Dev) (h : d.unpaired) : d.swGate addr val f = f d := by
  unfold Dev.swGate
  rw [if_neg h.1, if_neg h.2, ite_self]

end Sys2Proof.Machine
end

