-- ==== Sys2Proof/Laws/Eng.lean ====
section
/-! SUPPORT. What issuing an instruction leaves of the block: engines, memories and records through fetch, stalls and issue. -/

namespace Sys2Proof.Machine

/-- What of the block the instruction statements speak of. -/
def Dev.eproj (d : Dev) : SMap EngSt × SMap Byte × SMap Byte × SMap Word × SMap Rec × Nat × SMap DbgSt :=
  (d.engs, d.mem, d.ctx, d.imem, d.recs, d.ck, d.dbgs)

@[simp] theorem Dev.eproj_setReg (d : Dev) (pg off : Nat) (v : Word) : (d.setReg pg off v).eproj = d.eproj := (rfl)
@[simp] theorem Dev.eproj_setFld (d : Dev) (pg : Nat) (f : Fld) (v : Nat) : (d.setFld pg f v).eproj = d.eproj := (rfl)
@[simp] theorem Dev.eproj_bumpBy (d : Dev) (pg : Nat) (f : Fld) (k : Nat) : (d.bumpBy pg f k).eproj = d.eproj := (rfl)
@[simp] theorem Dev.eproj_bump (d : Dev) (pg : Nat) (f : Fld) : (d.bump pg f).eproj = d.eproj := (rfl)
@[simp] theorem Dev.eproj_sched (d : Dev) (k : Nat) (i : Instr) : (d.sched k i).eproj = d.eproj := (rfl)
@[simp] theorem Dev.eproj_dropFetch (d : Dev) (t : Nat) : (d.dropFetch t).eproj = d.eproj := (rfl)
@[simp] theorem Dev.eproj_setGk (d : Dev) (k : Nat) (x : GkSt) : (d.setGk k x).eproj = d.eproj := (rfl)
@[simp] theorem Dev.eproj_setPlu (d : Dev) (h : Nat) (x : PluSt) : (d.setPlu h x).eproj = d.eproj := (rfl)
@[simp] theorem Dev.eproj_nocSend (d : Dev) (r : NocReq) : (d.nocSend r).eproj = d.eproj := (rfl)
@[simp] theorem Dev.eproj_begin (d : Dev) (i : Instr) : (d.begin i).eproj = d.eproj := (rfl)
@[simp] theorem Dev.eproj_fresh (d : Dev) : d.fresh.eproj = d.eproj := (rfl)

@[simp] theorem Dev.eproj_gkFill (d : Dev) (k l : Nat) (b : Bool) : (d.gkFill k l b).eproj = d.eproj := by
  unfold Dev.gkFill; dsimp only; split_ifs <;> simp

@[simp] theorem Dev.eproj_offerWord (d : Dev) (t : Nat) (w : Word) : (d.offerWord t w).eproj = d.eproj := by
  unfold Dev.offerWord; dsimp only; split
  · simp
  · split_ifs <;> simp

@[simp] theorem Dev.eproj_gkFetchTrap (d : Dev) (k c a : Nat) : (d.gkFetchTrap k c a).eproj = d.eproj := by
  unfold Dev.gkFetchTrap; simp

@[simp] theorem Dev.eproj_fetch (d : Dev) (t : Nat) : (d.fetch t).eproj = d.eproj := by
  unfold Dev.fetch; dsimp only
  split
  · rfl
  split
  · simp
  split
  · simp
  split
  · simp
  split
  · simp
  · simp
  · simp
  split
  · simp
  split <;> simp

theorem Dev.engs_of_eproj {d d' : Dev} (h : d'.eproj = d.eproj) : d'.engs = d.engs := congrArg Prod.fst h
theorem Dev.mem_of_eproj {d d' : Dev} (h : d'.eproj = d.eproj) : d'.mem = d.mem := congrArg (fun x => x.2.1) h
theorem Dev.ctx_of_eproj {d d' : Dev} (h : d'.eproj = d.eproj) : d'.ctx = d.ctx := congrArg (fun x => x.2.2.1) h
theorem Dev.imem_of_eproj {d d' : Dev} (h : d'.eproj = d.eproj) : d'.imem = d.imem := congrArg (fun x => x.2.2.2.1) h
theorem Dev.recs_of_eproj {d d' : Dev} (h : d'.eproj = d.eproj) : d'.recs = d.recs := congrArg (fun x => x.2.2.2.2.1) h
theorem Dev.ck_of_eproj {d d' : Dev} (h : d'.eproj = d.eproj) : d'.ck = d.ck := congrArg (fun x => x.2.2.2.2.2.1) h
theorem Dev.engOf_of_eproj {d d' : Dev} (h : d'.eproj = d.eproj) (t : Nat) : d'.engOf t = d.engOf t := by
  unfold Dev.engOf; rw [Dev.engs_of_eproj h]

@[simp] theorem Dev.engOf_setEng (d : Dev) (t : Nat) (x : EngSt) : (d.setEng t x).engOf t = x := sget_sset_same _ _ _ _
theorem Dev.engOf_setEng_ne (d : Dev) {t u : Nat} (x : EngSt) (h : t ≠ u) : (d.setEng t x).engOf u = d.engOf u := sget_sset_ne _ _ _ _ h

/-- What an instruction that changes only its target's state keeps. -/
theorem Dev.engKeeps_refl (d : Dev) (t : Nat) : d.engKeeps d t := ⟨fun _ _ => rfl, rfl, rfl, rfl, rfl⟩
theorem Dev.engKeeps.trans {d d' d'' : Dev} {t : Nat} (h : d.engKeeps d' t) (h' : d'.engKeeps d'' t) : d.engKeeps d'' t :=
  ⟨fun u hu => (h'.engs u hu).trans (h.engs u hu), h'.mem.trans h.mem, h'.ctx.trans h.ctx, h'.imem.trans h.imem, h'.recs.trans h.recs⟩
theorem Dev.engKeeps_of_eproj {d d' : Dev} (t : Nat) (h : d'.eproj = d.eproj) : d.engKeeps d' t :=
  ⟨fun u _ => Dev.engOf_of_eproj h u, Dev.mem_of_eproj h, Dev.ctx_of_eproj h, Dev.imem_of_eproj h, Dev.recs_of_eproj h⟩
theorem Dev.engKeeps_setEng (d : Dev) (t : Nat) (x : EngSt) : d.engKeeps (d.setEng t x) t :=
  ⟨fun _ hu => d.engOf_setEng_ne x (Ne.symm hu), rfl, rfl, rfl, rfl⟩

@[simp] theorem Dev.eproj_setPins (d : Dev) (p : Pins) : (d.setPins p).eproj = d.eproj := (rfl)
@[simp] theorem Dev.eproj_pairDrop (d : Dev) (was : Bool) : (d.pairDrop was).eproj = d.eproj := by
  unfold Dev.pairDrop; split
  · exact Dev.eproj_setFld _ _ _ _
  · rfl
@[simp] theorem Dev.eproj_settle (d : Dev) : d.settle.eproj = d.eproj := by simp [Dev.settle]

/-- What an issue leaves of a target: its registers, predicates and pc as they were. -/
structure EngSt.like (g g' : EngSt) : Prop where
  n : g'.n = g.n
  p : g'.p = g.p
  pc : g'.pc = g.pc
  ready : g'.ready = g.ready

theorem EngSt.like.trans {a b c : EngSt} (h : a.like b) (h' : b.like c) : a.like c :=
  ⟨h'.n.trans h.n, h'.p.trans h.p, h'.pc.trans h.pc, h'.ready.trans h.ready⟩

theorem EngSt.like_refl (g : EngSt) : g.like g := ⟨rfl, rfl, rfl, rfl⟩

/-- A step within an issue that changes nothing the result is read from. -/
structure Dev.tweaks (d d' : Dev) (t : Nat) : Prop where
  like : (d.engOf t).like (d'.engOf t)
  keeps : d.engKeeps d' t
  ck : d'.ck = d.ck

theorem Dev.tweaks_refl (d : Dev) (t : Nat) : d.tweaks d t := ⟨EngSt.like_refl _, d.engKeeps_refl t, rfl⟩
theorem Dev.tweaks.trans {d d' d'' : Dev} {t : Nat} (h : d.tweaks d' t) (h' : d'.tweaks d'' t) : d.tweaks d'' t :=
  ⟨h.like.trans h'.like, h.keeps.trans h'.keeps, h'.ck.trans h.ck⟩
theorem Dev.tweaks_of_eproj {d d' : Dev} (t : Nat) (h : d'.eproj = d.eproj) : d.tweaks d' t :=
  ⟨by rw [Dev.engOf_of_eproj h]; exact EngSt.like_refl _, Dev.engKeeps_of_eproj t h, Dev.ck_of_eproj h⟩
theorem Dev.tweaks_setEng (d : Dev) (t : Nat) (x : EngSt) (h : (d.engOf t).like x) : d.tweaks (d.setEng t x) t :=
  ⟨by rw [Dev.engOf_setEng]; exact h, d.engKeeps_setEng t x, rfl⟩
theorem Dev.tweaks_setDbg (d : Dev) (t u : Nat) (x : DbgSt) : d.tweaks (d.setDbg u x) t :=
  ⟨EngSt.like_refl _, ⟨fun _ _ => rfl, rfl, rfl, rfl, rfl⟩, rfl⟩
theorem Dev.tweaks_ite {d a b : Dev} {t : Nat} {c : Prop} [Decidable c] (ha : d.tweaks a t) (hb : d.tweaks b t) :
    d.tweaks (if c then a else b) t := by split <;> assumption

theorem Dev.countStall_tweaks (d : Dev) (t n : Nat) : d.tweaks (d.countStall t n) t := by
  unfold Dev.countStall
  exact Dev.tweaks_ite (Dev.tweaks_of_eproj t (Dev.eproj_bumpBy _ _ _ _)) (Dev.tweaks_refl _ _)

theorem Dev.settleStall_tweaks (d : Dev) (t : Nat) : d.tweaks (d.settleStall t) t :=
  (Dev.tweaks_setEng _ t { d.engOf t with heldCk := 0, held := none } ⟨rfl, rfl, rfl, rfl⟩).trans (Dev.countStall_tweaks _ _ _)

theorem Dev.dbgs_of_eproj {d d' : Dev} (h : d'.eproj = d.eproj) : d'.dbgs = d.dbgs := congrArg (fun x => x.2.2.2.2.2.2) h

theorem Dev.dbgs_countStall (d : Dev) (t n : Nat) : (d.countStall t n).dbgs = d.dbgs := by
  unfold Dev.countStall
  split
  · exact Dev.dbgs_of_eproj (Dev.eproj_bumpBy _ _ _ _)
  · rfl

theorem Dev.dbgs_settleStall (d : Dev) (t : Nat) : (d.settleStall t).dbgs = d.dbgs :=
  (Dev.dbgs_countStall _ _ _).trans (rfl : (d.setEng t { d.engOf t with heldCk := 0, held := none }).dbgs = d.dbgs)

theorem Dev.countIssue_tweaks (d : Dev) (t : Nat) : d.tweaks (d.countIssue t) t := by
  unfold Dev.countIssue
  exact Dev.tweaks_ite (Dev.tweaks_of_eproj t ((Dev.eproj_setPlu _ _ _).trans (Dev.eproj_bump _ _ _))) (Dev.tweaks_refl _ _)

theorem Dev.startBudget_tweaks (d : Dev) (t : Nat) (b : Bool) : d.tweaks (d.startBudget t b) t := by
  unfold Dev.startBudget
  exact Dev.tweaks_ite (Dev.tweaks_of_eproj t (by simp)) (Dev.tweaks_refl _ _)

theorem Dev.noteStep_tweaks (d : Dev) (t : Nat) : d.tweaks (d.noteStep t) t := by
  unfold Dev.noteStep
  exact Dev.tweaks_ite (Dev.tweaks_setDbg _ _ _ _) (Dev.tweaks_refl _ _)

theorem Dev.noteIssue_tweaks (d : Dev) (t : Nat) (x : Isu) : d.tweaks (d.noteIssue t x) t :=
  (d.countIssue_tweaks t).trans (Dev.tweaks.trans
    (Dev.tweaks_setEng _ t (((d.countIssue t).engOf t).issued (d.countIssue t).ck x) ⟨rfl, rfl, rfl, rfl⟩)
    ((Dev.startBudget_tweaks _ t _).trans (Dev.noteStep_tweaks _ t)))

/-- Where nothing keeps it from issuing, an instruction has its effect on a block that differs in nothing the result is read from. -/
theorem Dev.issue_of_canIssue (d : Dev) (e : Fin 196) (i : Instr) (x : Isu) (f : Dev → Dev) (h : d.canIssue e x) :
    ∃ d', d.issue e i x f = f d' ∧ d.tweaks d' e := by
  obtain ⟨h1, h2, h3, h4, h5, h6, h7, h8⟩ := h
  refine ⟨((d.dropFetch e.val).settleStall e.val).noteIssue e.val x.trim, ?_,
    (Dev.tweaks_of_eproj _ (d.eproj_dropFetch _)).trans ((Dev.settleStall_tweaks _ _).trans (Dev.noteIssue_tweaks _ _ _))⟩
  have hp : (match ((d.dropFetch e.val).engOf e.val).first with
      | some p => p.ck ≠ (d.dropFetch e.val).ck || pairs p x.trim
      | none => true) = true := by
    change (match (d.engOf e.val).first with | some p => p.ck ≠ d.ck || pairs p x.trim | none => true) = true
    split
    · next p hp => simpa using h3 p hp
    · rfl
  have hr : ((d.dropFetch e.val).settleStall e.val).insRanges e.val ((d.dropFetch e.val).engOf e.val).pc
      = ((d.dropFetch e.val).settleStall e.val, false) := by
    unfold Dev.insRanges
    have : ((d.dropFetch e.val).settleStall e.val).dbgOf e.val = d.dbgOf e.val := by
      unfold Dev.dbgOf; rw [Dev.dbgs_settleStall]; rfl
    rw [this, if_pos h8]
  unfold Dev.issue
  dsimp only
  rw [if_neg (by simpa using h1), if_neg (show ¬ (d.dropFetch e.val).ck < ((d.dropFetch e.val).engOf e.val).nextCk from Nat.not_lt.mpr h2),
    if_neg (show ¬ (2 ≤ ((d.dropFetch e.val).dbgOf e.val).step ∧ _) from fun hh => absurd hh.1 (Nat.not_le.mpr h7)),
    if_neg (show ¬ (192 ≤ e.val ∧ ((d.dropFetch e.val).gkTakeable (e.val - 192)).isSome = true) from fun hh => by
      have := h6 hh.1
      change d.gkTakeable (e.val - 192) = none at this
      exact absurd hh.2 (by change ¬ (d.gkTakeable (e.val - 192)).isSome = true; simp [this]))]
  rw [show ((d.dropFetch e.val).engOf e.val).storeErr = none from h5]
  dsimp only
  rw [if_neg (fun hn => hn hp), show (d.dropFetch e.val).waitOf e.val x.trim = .go from h4]
  dsimp only
  rw [hr]

/-! The effects of an instruction that writes a register or a predicate. -/

theorem EngSt.reg_setReg (g : EngSt) (r : Fin 32) (v : Word64) : (g.setReg r v).reg r = if r = 0 then 0#64 else v := by
  unfold EngSt.setReg EngSt.reg
  split_ifs <;> simp

theorem EngSt.reg_setReg_ne (g : EngSt) {r q : Fin 32} (v : Word64) (h : q ≠ r) : (g.setReg r v).reg q = g.reg q := by
  unfold EngSt.setReg EngSt.reg
  split_ifs <;> try rfl
  exact sget_sset_ne _ _ _ _ (fun hh => h (Fin.ext hh).symm)

theorem EngSt.pred_setPred (g : EngSt) (p : Fin 8) (v : Bool) : (g.setPred p v).pred p = v := by
  unfold EngSt.setPred EngSt.pred
  dsimp only
  have := p.isLt
  cases v <;> simp [this]

theorem EngSt.pred_setPred_ne (g : EngSt) {p q : Fin 8} (v : Bool) (h : q ≠ p) : (g.setPred p v).pred q = g.pred q := by
  have hq : ¬ (q.val - p.val = 0 ∧ p.val ≤ q.val) := fun hh => h (Fin.ext (by omega))
  unfold EngSt.setPred EngSt.pred
  dsimp only
  have h8 := q.isLt
  cases v
  · simp only [Bool.false_eq_true, if_false, BitVec.getLsbD_and, BitVec.getLsbD_not, BitVec.getLsbD_shiftLeft, h8, decide_true, Bool.true_and]
    by_cases hl : q.val < p.val
    · simp [hl]
    · have : q.val - p.val ≠ 0 := by omega
      simp [hl, this]
  · simp only [if_true, BitVec.getLsbD_or, BitVec.getLsbD_shiftLeft, h8, decide_true, Bool.true_and]
    by_cases hl : q.val < p.val
    · simp [hl]
    · have : q.val - p.val ≠ 0 := by omega
      simp [hl, this]

theorem sfind_sins_same {α : Type} (a : Nat) (v : α) (m : SMap α) (h : a ∉ m.map Prod.fst) : sfind (sins a v m) a = some v := by
  induction m with
  | nil => simp [sins, sfind]
  | cons p r ih =>
    simp only [List.map_cons, List.mem_cons, not_or] at h
    unfold sins
    split
    · simp [sfind]
    · rw [sfind, if_neg (fun he => h.1 he.symm), ih h.2]

theorem sfind_sput_same {α : Type} (m : SMap α) (a : Nat) (v : α) : sfind (sput m a v) a = some v :=
  sfind_sins_same a v _ (by rw [mem_keys_serase]; simp)

theorem Dev.eproj_next (d : Dev) (t : Nat) : (d.next t).eproj = (d.goTo t ((d.engOf t).pc + 1)).eproj := Dev.eproj_fetch _ _

/-- The engine after the step to the next instruction. -/
theorem Dev.engOf_next (d : Dev) (t : Nat) : (d.next t).engOf t = { d.engOf t with pc := pcOf t ((d.engOf t).pc + 1) } :=
  (Dev.engOf_of_eproj (d.eproj_next t) t).trans (Dev.engOf_setEng _ _ _)

theorem Dev.next_keeps (d : Dev) (t : Nat) : d.engKeeps (d.next t) t :=
  (d.engKeeps_setEng t _).trans (Dev.engKeeps_of_eproj t (d.eproj_next t))

theorem Dev.canIssue_begin {d : Dev} {t : Nat} {x : Isu} (i : Instr) (h : d.canIssue t x) : (d.begin i).canIssue t x :=
  ⟨h.runs, h.turn, h.fits, h.ready, h.noErr, h.noIrq, h.noStep, h.noRange⟩

/-- An instruction whose meaning is `alu` writes its register where it may issue. -/
theorem aluStep_of {i : Instr} {e : Fin 196} {dst : Fin 32} {reads : List Nat} {k : Nat} {v w : EngSt → Word64}
    (hx : ∀ s, exec i s = s.run i (fun d => d.alu e i dst reads k v)) (hv : ∀ g g' : EngSt, g.like g' → v g' = w g) :
    aluStep i e dst reads k w := by
  intro s hr hc
  rw [hx, State.run_running _ _ _ hr]
  obtain ⟨d', h1, h2⟩ := (s.dev.begin i).issue_of_canIssue e i { reads := reads, writes := [nReg dst] }
    (fun d => (d.result e.val dst (v (d.engOf e.val)) k false).next e.val) (Dev.canIssue_begin i hc)
  refine ⟨_, rfl, ?_⟩
  unfold Dev.alu
  rw [h1]
  have hl : (s.dev.engOf e).like (d'.engOf e) := h2.like
  have hk : s.dev.engKeeps d' e := (Dev.engKeeps_of_eproj _ (Dev.eproj_begin _ _)).trans h2.keeps
  have hck : d'.ck = s.dev.ck := h2.ck
  set r := d'.result e.val dst (v (d'.engOf e.val)) k false with hrdef
  have hre : r.engOf e = if dst = 0 then d'.engOf e else
      { (d'.engOf e).setReg dst (v (d'.engOf e)) with ready := sput (d'.engOf e).ready dst.val (d'.ck + k, false) } := by
    rw [hrdef]; unfold Dev.result; dsimp only
    by_cases h0 : dst = 0
    · simp [h0]
    · simp only [h0, false_and, if_false]
      exact (Dev.engOf_setEng _ _ _).trans (by rw [Nat.max_eq_right (Nat.zero_le _)])
  have hrk : d'.engKeeps r e := by
    rw [hrdef]; unfold Dev.result; dsimp only
    split
    · exact Dev.engKeeps_refl _ _
    · exact Dev.engKeeps_setEng _ _ _
  have hs : ((r.next e).settle).engOf e = { r.engOf e with pc := pcOf e ((r.engOf e).pc + 1) } :=
    (Dev.engOf_of_eproj (Dev.eproj_settle _) e.val).trans (Dev.engOf_next _ _)
  have hall : s.dev.engKeeps ((r.next e).settle) e :=
    hk.trans (hrk.trans ((r.next_keeps e).trans (Dev.engKeeps_of_eproj _ (Dev.eproj_settle _))))
  have hreg : ∀ q, ((r.next e).settle.engOf e).reg q = (r.engOf e).reg q := fun q => by rw [hs]; rfl
  refine ⟨?_, ?_, ?_, ?_, ?_, hall⟩
  · show ((r.next e).settle.engOf e).reg dst = _
    rw [hreg, hre]
    split
    · next h0 => unfold EngSt.reg; rw [if_pos h0]
    · next h0 =>
      have := EngSt.reg_setReg (d'.engOf e) dst (v (d'.engOf e))
      rw [if_neg h0] at this
      exact this.trans (hv _ _ hl)
  · intro h0
    show sfind ((r.next e).settle.engOf e).ready _ = _
    rw [hs, hre, if_neg h0]
    exact (sfind_sput_same _ _ _).trans (by rw [hck])
  · intro q hq
    show ((r.next e).settle.engOf e).reg q = _
    rw [hreg, hre]
    have hn : (d'.engOf e).reg q = (s.dev.engOf e).reg q := by unfold EngSt.reg; rw [hl.n]
    split
    · exact hn
    · exact (EngSt.reg_setReg_ne _ _ hq).trans hn
  · show ((r.next e).settle.engOf e).p = _
    rw [hs, hre]
    split
    · exact hl.p
    · next h0 => rw [show (_ : EngSt).p = (d'.engOf e).p from by unfold EngSt.setReg; rw [if_neg h0]]; exact hl.p
  · show ((r.next e).settle.engOf e).pc = _
    rw [hs, hre]
    split
    · show pcOf _ _ = _; rw [hl.pc]
    · next h0 =>
      show pcOf e (((d'.engOf e).setReg dst (v (d'.engOf e))).pc + 1) = _
      rw [show ((d'.engOf e).setReg dst (v (d'.engOf e))).pc = (d'.engOf e).pc from by unfold EngSt.setReg; rw [if_neg h0], hl.pc]

end Sys2Proof.Machine
end

