-- ==== Sys2Proof/Laws/Mem.lean ====
section
/-! SUPPORT. Laws of memory: a byte reads as last written, a write leaves every other byte, and every memory operation keeps the
canonical form. -/

namespace Sys2Proof.Machine

@[simp] theorem Dev.byte_setByte (d : Dev) (a : Nat) (v : Byte) : (d.setByte a v).byte a = v := sget_sset_same _ _ _ _
theorem Dev.byte_setByte_ne (d : Dev) {a b : Nat} (v : Byte) (h : a ≠ b) : (d.setByte a v).byte b = d.byte b :=
  sget_sset_ne _ _ _ _ h

/-- Bytes written from `a` up read back, every byte outside them is as before. -/
theorem Dev.byte_setBytes (d : Dev) (a b : Nat) (l : List Byte) :
    (d.setBytes a l).byte b = if h : a ≤ b ∧ b - a < l.length then l[b - a]'h.2 else d.byte b := by
  induction l generalizing d a with
  | nil => simp [Dev.setBytes]
  | cons x r ih =>
    rw [Dev.setBytes, ih]
    by_cases hb : a = b
    · subst hb
      simp
    · by_cases hc : a + 1 ≤ b ∧ b - (a + 1) < r.length
      · have h1 : a ≤ b ∧ b - a < (x :: r).length := ⟨by omega, by simp only [List.length_cons]; omega⟩
        have e : b - a = (b - (a + 1)) + 1 := by omega
        simp only [hc, h1, and_self, dite_true]
        simp [e]
      · have h1 : ¬ (a ≤ b ∧ b - a < (x :: r).length) := by simp only [List.length_cons]; omega
        rw [dif_neg hc, dif_neg h1, d.byte_setByte_ne x hb]

theorem Memory.wf_setByte (d : Dev) (a : Nat) (v : Byte) (h : Memory.wf d.mem = true) : Memory.wf (d.setByte a v).mem = true :=
  sset_wf memDflt d.mem a v h

theorem Memory.wf_setBytes (d : Dev) (a : Nat) (l : List Byte) (h : Memory.wf d.mem = true) :
    Memory.wf (d.setBytes a l).mem = true := by
  induction l generalizing d a with
  | nil => exact h
  | cons x r ih => exact ih _ _ (Memory.wf_setByte d a x h)

theorem Memory.wf_setSome (d : Dev) (a : Nat) (l : List (Option Byte)) (h : Memory.wf d.mem = true) :
    Memory.wf (d.setSome a l).mem = true := by
  induction l generalizing d a with
  | nil => exact h
  | cons x r ih =>
    cases x with
    | none => exact ih _ _ h
    | some x => exact ih _ _ (Memory.wf_setByte d a x h)

/-- Check bytes stored elsewhere leave memory. -/
theorem Memory.wf_chk (d : Dev) (m : SMap (BitVec 128)) (h : Memory.wf d.mem = true) :
    Memory.wf ({ d with chk := m } : Dev).mem = true := h

theorem Memory.wf_setBurst (d : Dev) (c off : Nat) (x : Burst) (h : Memory.wf d.mem = true) :
    Memory.wf (d.setBurst c off x).mem = true :=
  Memory.wf_chk _ _ (Memory.wf_setBytes d (Na.dram c + off) (leBytes 64 x.data.toNat) h)

theorem Memory.wf_clearSpan (d : Dev) (c lo hi : Nat) (h : Memory.wf d.mem = true) :
    Memory.wf (d.clearSpan c lo hi).mem = true := filter_wf memDflt _ d.mem h

/-- Memory of the reset state is canonical. -/
theorem Memory.wf_reset : Memory.wf State.reset.dev.mem = true := rfl

end Sys2Proof.Machine
end

