-- ==== Sys2Proof/Tests/Slice0.lean ====
section
/-! SUPPORT. Small checks of the model on states built here: ill-formed commands, words of Table 8-2 written out, states and operands
that meet the hypotheses of the statements, and what a few commands do. Expected results are the spec's. -/

namespace Sys2Proof.Tests

set_option Elab.async false

open Sys2Proof.Machine

/-- The command answers a next state of which the check holds. -/
def nextIs (o : Host.Outcome State Fault Refusal) (p : Dev → Bool) : Bool :=
  match o with
  | .next t => p t.dev
  | _ => false

/-- The command stops as ill-formed. -/
def illFormed (o : Host.Outcome State Fault Refusal) : Bool :=
  match o with
  | .fault .illFormed => true
  | _ => false

/-- A running device with nothing listed, and a machine around a device. -/
def dev0 : Dev := {}
def on (d : Dev) : State := ⟨d, []⟩

/-- Engine or core `t` runs. -/
def runs (t : Nat) : Dev :=
  if t < 192 then dev0.setFld (Pg.newt t) F.NEWT_STAT_STATE Es.run else dev0.setFld (Pg.gecko (t - 192)) F.GECKO_STAT_STATE Gs.run

/-- `canIssue` from one computable check. -/
def canIssueB (d : Dev) (t : Nat) (x : Isu) : Bool :=
  d.mayIssue t && decide ((d.engOf t).nextCk ≤ d.ck) && decide ((d.engOf t).first = none) && decide (d.waitOf t x.trim = .go)
  && decide ((d.engOf t).storeErr = none) && (decide (t < 192) || decide (d.gkTakeable (t - 192) = none))
  && decide ((d.dbgOf t).step < 2) && decide ((d.dbgOf t).regs = [])

theorem canIssue_of {d : Dev} {t : Nat} {x : Isu} (h : canIssueB d t x = true) : d.canIssue t x := by
  simp only [canIssueB, Bool.and_eq_true, Bool.or_eq_true, decide_eq_true_eq] at h
  obtain ⟨⟨⟨⟨⟨⟨⟨h1, h2⟩, h3⟩, h4⟩, h5⟩, h6⟩, h7⟩, h8⟩ := h
  refine ⟨h1, h2, fun p hp => ?_, h4, h5, fun ht => ?_, h7, h8⟩
  · rw [h3] at hp
    cases hp
  · rcases h6 with h6 | h6
    · omega
    · exact h6

/-! Ill-formed commands stop under their name. -/

theorem test_wf_registerWrite : illFormed (exec (.registerWrite 2 0#32) State.reset) = true := by decide +kernel
theorem test_wf_registerWrite_top : illFormed (exec (.registerWrite 0x4000000 0#32) State.reset) = true := by decide +kernel
theorem test_wf_unoccupiedOffsetRead : illFormed (exec (.unoccupiedOffsetRead 0x4000000 false) State.reset) = true := by decide +kernel
theorem test_wf_latchingRead : illFormed (exec (.latchingRead 0x101 false) State.reset) = true := by decide +kernel
theorem test_wf_counterClear : illFormed (exec (.counterClear 0x22 0#32 false) State.reset) = true := by decide +kernel
theorem test_wf_errFirstClear : illFormed (exec (.errFirstClear 16384 0#32 none) State.reset) = true := by decide +kernel
theorem test_wf_intPendClear : illFormed (exec (.intPendClear 16384 0#32 0#32) State.reset) = true := by decide +kernel
theorem test_wf_intForce : illFormed (exec (.intForce 16384 0#32) State.reset) = true := by decide +kernel
theorem test_wf_intEnWrite : illFormed (exec (.intEnWrite 16384 0#32) State.reset) = true := by decide +kernel

/-! Witnesses: steps, registers. -/

theorem wit_EmptyQueueRunsTheClock_due : ({ ck := 144, agenda := [(144, .bootDone)] } : Dev).dueEvent = some .bootDone := by decide +kernel
theorem wit_EmptyQueueRunsTheClock_idle : dev0.dueEvent = none := by decide +kernel
theorem wit_QueueIsFirstInFirstOut : nextIs (step ⟨dev0, [.kick 0, .kick 1]⟩) (fun _ => true) = true := by decide +kernel
theorem wit_BallsFollowTheBlock : dev0.settle.pins = dev0.settle.pinsOf ∧ nextIs (step ⟨dev0.settle, [.kick 0]⟩) (fun _ => true) = true := by
  decide +kernel
theorem wit_EveryCommandAnswers : Instr.wellFormed (.kick 0) = true ∧ Instr.wellFormed (.registerWrite 2 0#32) = false := by decide
theorem wit_ResetHoldsTheBlock : ({ rst := .held } : Dev).rst ≠ .running ∧ Instr.actsInReset (.kick 0) = false
    ∧ nextIs (exec (.kick 0) (on { rst := .held })) (fun _ => true) = true := by decide +kernel

theorem wit_ErrorCountsAndFirstCode : dev0.rst = .running ∧ 0x010 < 16384 ∧ (blkOfPage 0x010).isSome ∧ dev0.fld 0x010 F.ERR_FIRST_CODE = 0
    ∧ (dev0.err 0x010 1 0x302).fresh.fld 0x010 F.ERR_FIRST_CODE ≠ 0 ∧ 0x010 ∉ ({ dev0.err 0x010 1 0x302 with log := {} } : Dev).log.firsts
    ∧ (let d := dev0.err 0x010 1 0x302
       0x010 ∈ d.log.firsts ∧ 0 < d.fld 0x010 F.ERR_FIRST_IDX ∧ d.errsNow 0x010 = [(1, 0x302)]) ∧ dev0.errsNow 0x010 = [] := by decide +kernel
theorem wit_unpaired : dev0.unpaired := by unfold Dev.unpaired; decide +kernel
theorem wit_InterruptBits : (BitVec.ofNat 32 (1 &&& pendMaskOf 0x100)) &&& ~~~dev0.reg 0x100 0x010 ≠ 0#32 ∧ 0x100 ∉ dev0.log.seqPages
    ∧ (BitVec.ofNat 32 (0 &&& pendMaskOf 0x100)) &&& ~~~dev0.reg 0x100 0x010 = 0#32 ∧ (blkOfPage 0x100).isSome := by decide +kernel
/-- An error counter of a DEV page and a statistics counter of a NEWT page. -/
theorem wit_CountersSaturateAndClear : (blkOfPage 0).isSome ∧ wfAddr 0x120140 = true ∧ blkOfPage (0x120140 / 4096) = some (.newt, 32)
    ∧ (regDesc .newt 0x140).map (fun r => (r.clr, r.ro)) = some (0xFFFFFFFF, 0xFFFFFFFF)
    ∧ raddr Pg.pair F.PAIR_STAT_STATE.off ≠ 0x120140 ∧ dev0.countNow (raddr 0 (F.ERRCNT 7).off) 0 = 0
    ∧ (dev0.err 0 7 1).countNow (raddr 0 (F.ERRCNT 7).off) 0 = 1 := by decide +kernel
/-- An offset with no register, a page with no block, a counter of time, a register that latches another. -/
theorem wit_ReadsOfRegisters : wfAddr 0x100FFC = true ∧ blkOfPage 0x100 = some (.newt, 0) ∧ regDesc .newt 0xFFC = none
    ∧ blkOfPage 0x3FFF = none ∧ wfAddr 0x3FFF000 = true
    ∧ (regDesc .lpc 0x118).isSome ∧ blkOfPage 0x50 = some (.lpc, 0) ∧ latchPartners .lpc 0x118 ≠ [] := by decide +kernel
theorem wit_PlainRegisterWrite : (regDesc .newt 0x100).map (fun r => (r.clr, acceptsWrites r 191)) = some (0, true)
    ∧ (regDesc .newt 0x10C).map (fun r => (r.clr, acceptsWrites r 0)) = some (0, false) ∧ dev0.cfgLock = false := by decide +kernel

/-! Witnesses: engines and cores. -/

/-- Words of the example of Table 8-8. -/
theorem test_decodeEng : [0x6CAA0020#32, 0x20E280F0#32, 0x64CB0000#32, 0x2E270004#32, 0x5120000F#32, 0x01250010#32, 0x286933C0#32, 0x05890001#32,
      0xA0074802#32, 0x858B0000#32, 0x01AD80CD#32, 0x8DAB0008#32, 0xA0000000#32].map (decodeEng 191)
    = [some (.ld64 191 5 10 32#16 0), some (.ext 191 7 2 32 15), some (.ld16u 191 6 11 0#16 0), some (.cmpiLtu 191 1 7 4#16),
      some (.br 191 true 1 15#16), some (.bswap 191 9 5), some (.cmpEqm 191 3 0#2 9 6 15), some (.addi 191 12 9 1#16),
      some (.pushCur 191 7 9 false), some (.st16 191 12 11 0#16), some (.sel 191 13 13 16 3), some (.st64 191 13 11 8#16), some (.pop 191)] := by
  decide +kernel

/-- A record of flow 0 waiting for engine 0 of the North half. -/
def aRec : Rec := { flow := 0, st := .queued, complete := true, ended := true, units := 2, offerCk := some 0, payload := [1#8, 2#8] }
/-- A task on it, with its window. -/
def tasked : Dev := { runs 0 with recs := [(1, { aRec with st := .taken })], engs := [(0, { task := some 1, window := List.replicate 32 0#8 ++ [1#8, 2#8] })] }

/-- Every form an instruction issues in finds a target where it may: the first and last engine, the last core. It meets the hypotheses of
AluWritesItsRegister, ImmediatesWriteTheirRegister, ComparisonsWritePredicates, BitFieldsAndCarrylessProducts and BranchesMoveThePc. -/
theorem wit_canIssue (t : Nat) (h : t = 0 ∨ t = 191 ∨ t = 195) (x : Isu)
    (hx : x ∈ [{ reads := [nReg 1, nReg 2], writes := [nReg 3] }, { reads := [nReg 1], writes := [nReg 31] }, { reads := [nReg 1, nReg 2, nReg 3, pReg 7], writes := [pReg 7] },
      { reads := [pReg 0, pReg 1], writes := [pReg 2] }, { mSlot := true, reads := [nReg 1], writes := [nReg 3] }, { mSlot := true, reads := [nReg 3, nReg 1] },
      { mSlot := true, reads := [nReg 1, nReg 2], writes := [nReg 3] }, { mSlot := true, reads := [nReg 3, nReg 1, nReg 2] }, { mSlot := true },
      { mSlot := true, alone := true, afterStores := true, writes := [1, 2, 3, 4] }, { mSlot := true, alone := true }, { noSlot := true, alone := true },
      { alone := true }, { reads := [pReg 0], alone := true },
      { writes := [nReg 1], alone := true }, { reads := [nReg 1], writes := [nReg 1], alone := true }, { mSlot := true, writes := [nReg 3, pReg 0] }, { writes := [nReg 3] }]) :
    (runs t).canIssue t x := by
  simp only [List.mem_cons, List.not_mem_nil, or_false] at hx
  apply canIssue_of
  rcases h with rfl | rfl | rfl <;> rcases hx with rfl | rfl | rfl | rfl | rfl | rfl | rfl | rfl | rfl | rfl | rfl | rfl | rfl | rfl | rfl | rfl | rfl | rfl <;> decide +kernel

/-- A load and a store in each area of Table 7-1 and in a core's SRAM: registers hold the first and last aligned address. -/
theorem wit_LoadsReadTheirBytes :
    (({ n := [(1, 0x1FFF8#64)] } : EngSt).ea 1 0#16 = 0x1FFF8) ∧ 0x1FFF8 % 8 = 0 ∧ (({ n := [(1, 0x20000#64)] } : EngSt).ea 1 0xF8#16 = 0x200F8)
    ∧ tasked.hasTask 0 = true ∧ (({ n := [(1, 0x30000#64)] } : EngSt).ea 1 0#16 = 0x30000) ∧ (({ n := [(1, 0x500000#64)] } : EngSt).ea 1 0xFFF8#16 = 0x4FFFF8)
    ∧ (({ n := [(1, 0x100000000#64)] } : EngSt).ea 1 0#16 = 2 ^ 32) ∧ gkTgt 0 0x7FFF8 = .sram (Na.gecko + 0x7FFF8) ∧ dev0.prPasses 0 0x7FFF8 8 1 = true := by
  decide +kernel
theorem wit_StoresWriteTheirBytes : gkTgt 3 0 = .sram (Na.gecko + 2 ^ 32) ∧ dev0.prPasses 3 0 8 2 = true := by decide +kernel

/-- LR at the last granule; SC with its reservation and without; a fence met and not met. -/
theorem wit_ReservedPairsAndFences :
    (let d : Dev := { runs 5 with engs := [(5, { resv := some (Na.sp 5), n := [] })], resvs := [(Ep.newt 5, [(Na.sp 5, Ep.newt 5)])] }
     (d.engOf 5).resv = some (Na.sp 5 + ((d.engOf 5).reg 1).toNat) ∧ canIssueB d 5 { mSlot := true, reads := [nReg 1, nReg 2], writes := [nReg 3] } = true)
    ∧ (runs 5).reserved 5 (Na.sp 5) (Ep.newt 5) = false ∧ (runs 5).fenceMet 5 false = some 0
    ∧ (let d : Dev := { runs 5 with engs := [(5, { bayStores := 1 })] }
       d.fenceMet 5 true = none ∧ canIssueB d 5 { mSlot := true } = true)
    ∧ (runs 195).fenceMet 195 true = some 0 := by decide +kernel
theorem wit_ReservedPairsAndFences_held :
    ({ runs 5 with resvs := [(5, [(Na.sp 5, Ep.newt 5)])] } : Dev).reserved 5 (Na.sp 5) (Ep.newt 5) = true := by decide +kernel

/-- Requests of the NoC in a scratchpad bank, in a bay bank, and an answer for a load. -/
def spReq (op : NocOp) : NocReq := { who := .inspect, src := 0, op := op, addr := Na.sp 0, len := 8, wr := List.replicate 8 (some 1#8), left := 1, cls := 0, ph := .target }
theorem wit_EngineRequestsAreServed :
    (let d : Dev := { spQ := [(3, [(64, 0)])] }
     (∀ op ∈ [NocOp.read, .write], (spReq op).op = op ∧ (spReq op).addr < 2 ^ 64 ∧ sfind ({ nocReqs := [(1, spReq op)] } : Dev).nocReqs (64 / 64) = some (spReq op))
     ∧ sget [] d.spQ (0 * 4 + 3) = [(64, 0)] ∧ d.bankBusy 0 3 = false ∧ (∀ a ∈ (d.begin (.scratchpadRequest 0 3 0)).agenda, d.ck < a.1 ∨ insTarget a.2 ≠ some 0))
    ∧ (let d : Dev := { spQ := [(3, [(64, 0)])], nocReqs := [(1, spReq .read)] }
       (sfind d.nocReqs 1).isSome ∧ (∃ x ∈ d.spQ, ∃ y ∈ x.2, y.1 / 64 = 1))
    ∧ (let r : BayReq := { who := 15, word := 0, load := some (3, 0, 8, false), due := 0, lost := 7 }
       sget [] ({ bayQ := [(15, [r])] } : Dev).bayQ (0 * 16 + 15) = [r] ∧ ({ bayQ := [(15, [r])] } : Dev).bayTurn 0 r = true
       ∧ r.due ≤ 0 ∧ r.lost < 8 ∧ r.who < 16 ∧ r.lr = false) := by
  decide +kernel

/-- A record on offer to engine 0, and none. -/
theorem wit_TasksBeginAtPopAndOffer :
    (({ (runs 0).setFlowFld 0 0 FL_CUR_ENGINE 0 with recs := [(1, aRec)] } : Dev).nextOffer 0).isSome ∧ (runs 0).nextOffer 0 = none ∧ ((runs 0).engOf 0).task = none
    ∧ (let d : Dev := { dev0.setFld (Pg.newt 0) F.NEWT_STAT_STATE Es.stopping with engs := [(0, { stopping := true })] }
       canIssueB d 0 { mSlot := true, alone := true, afterStores := true, writes := [1, 2, 3, 4] } = true ∧ d.engState 0 = Es.stopping)
    ∧ (let d : Dev := { (dev0.setFld (Pg.newt 0) F.NEWT_STAT_STATE Es.wait).setFlowFld 0 0 FL_CUR_ENGINE 0 with engs := [(0, { popWait := true })], recs := [(1, aRec)] }
       d.engState 0 = Es.wait ∧ (d.nextOffer 0).isSome) := by decide +kernel

/-- A task whose record has two payload bytes; a scratchpad address and length of PUSH.SP at their bounds. -/
theorem wit_StreamInstructions : canIssueB tasked 0 { mSlot := true, reads := [nReg 1, nReg 2] } = true ∧ (tasked.engOf 0).task = some 1
    ∧ (tasked.engOf 0).pushed = false ∧ ((tasked.engOf 0).reg 1).toNat % 2 ^ 16 + 32 ≤ (tasked.engOf 0).window.length
    ∧ (0x20000 - 65504) % 32 = 0 ∧ 65504 ≤ 65504 ∧ 0x20000 - 65504 + 65504 ≤ 0x2_0000
    ∧ (let d : Dev := { agenda := [(0, .userEventLine 1 7)] }
       (0, .userEventLine 1 7) ∈ d.agenda ∧ (sget [] d.trigEvs 1).any (fun x => decide (x.ck = d.ck) && decide (x.src = 0x69 + 7)) = false) := by decide +kernel

theorem newtReady_of {d : Dev} {e : Fin 192} (h : (d.mayIssue e && !(d.engOf e).inTrap && !(d.engOf e).stopping && decide ((d.engOf e).pc < 8192)
    && decide ((d.dbgOf e).regs = [])) = true) : d.newtReady e := by
  simp only [Bool.and_eq_true, Bool.not_eq_true', decide_eq_true_eq] at h
  obtain ⟨⟨⟨⟨h1, h2⟩, h3⟩, h4⟩, h5⟩ := h
  exact ⟨h1, h2, h3, h4, h5⟩
theorem coreReady_of {d : Dev} {k : Fin 4} (h : (d.mayIssue (192 + k) && !d.gkEXL k && decide ((d.dbgOf (192 + k)).regs = [])) = true) : d.coreReady k := by
  simp only [Bool.and_eq_true, Bool.not_eq_true', decide_eq_true_eq] at h
  obtain ⟨⟨h1, h2⟩, h3⟩ := h
  exact ⟨h1, h2, h3⟩

theorem wit_NewtExceptions : tasked.newtReady 0 ∧ (runs 191).newtReady 191 := ⟨newtReady_of (by decide +kernel), newtReady_of (by decide +kernel)⟩
/-- A misaligned address and a hole of Table 7-1; a handler that runs; a budget reached and not reached. -/
theorem wit_NewtExceptions_more : 0x7 % 8 ≠ 0 ∧ newtTgt 0x50_0000 = .hole ∧ newtTgt 0x2_0100 = .hole
    ∧ (let d : Dev := { runs 0 with engs := [(0, { inTrap := true })] }
       d.mayIssue 0 = true ∧ (d.engOf 0).task = none)
    ∧ (let d : Dev := ({ runs 0 with engs := [(0, { task := some 1, taskCk := 1 })], ck := 9 } : Dev).setFld (Pg.newt 0) F.NEWT_TASK_LIMIT 9
       d.fld (Pg.newt 0) F.NEWT_TASK_LIMIT ≤ d.ck + 1 - 1 ∧ d.mayIssue 0 = true)
    ∧ (let d : Dev := ({ runs 0 with engs := [(0, { task := some 1, taskCk := 1 })], ck := 8 } : Dev).setFld (Pg.newt 0) F.NEWT_TASK_LIMIT 9
       d.ck + 1 - 1 < d.fld (Pg.newt 0) F.NEWT_TASK_LIMIT) := by decide +kernel

theorem wit_RunStartsAndStopsEngines :
    (let d : Dev := ({ started := true } : Dev).setDomState (Dom.bay 0) Ds.opened
     d.fld (Pg.newt 0) F.NEWT_CTRL_RUN = 0 ∧ d.engState 0 = Es.off ∧ d.started = true ∧ d.domOpen (Dom.bay 0) = true)
    ∧ (let d := ((runs 0).setFld (Pg.newt 0) F.NEWT_CTRL_RUN 1)
       d.fld (Pg.newt 0) F.NEWT_CTRL_RUN = 1 ∧ d.engState 0 = Es.run) := by decide +kernel
theorem wit_InstructionMemoryAndTests : dev0.engState 0 = Es.off ∧ (runs 0).engState 0 ≠ Es.off ∧ (runs 0).engState 0 ≠ Es.halted
    ∧ dev0.fld (Pg.newt 0) F.NEWT_TEST_STAT_IMEM_REP = 0 := by decide +kernel

/-- STATUS is writable and readable in privileged mode; a number with no register; a user-mode core. -/
theorem wit_ControlRegisterInstructions : dev0.csrCause 0 Csr.status.num true = none ∧ dev0.csrCause 0 Csr.status.num false = none
    ∧ dev0.csrCause 0 0x7FF false = some 2 ∧ (csrMask 0x7FF) = none
    ∧ (let d : Dev := { runs 192 with gks := [(0, { csr := [(Csr.status.num, 0#64)] })] }
       d.gkPriv 0 = false ∧ d.csrCause 0 Csr.status.num true = some 9 ∧ d.mayIssue 192 = true ∧ d.gkEXL 0 = false) := by decide +kernel
theorem wit_CoreExceptionsAndReturn : (runs 195).coreReady 3 := coreReady_of (by decide +kernel)
theorem wit_CoreExceptionsAndReturn_more :
    (let d : Dev := { runs 192 with gks := [(0, { csr := [(Csr.status.num, 5#64), (Csr.ie.num, 16#64)], srcs := [4] })] }
     d.gkTakeable 0 = some 4 ∧ d.inMonitor 192 = false ∧ d.gkWaiting 0 ≠ 0)
    ∧ (runs 192).gkPriv 0 = true ∧ ((runs 192).gkOf 0).live = false ∧ (runs 192).gkWaiting 0 = 0 := by decide +kernel
theorem wit_CoreControlCommands :
    (let d : Dev := { runs 192 with gks := [(0, { wdogCk := some 0, entry := some 0, resetCk := some 0 })] }
     (d.gkOf 0).wdogCk = some 0 ∧ d.fld (Pg.gecko 0) F.GECKO_STAT_STATE ≠ Gs.reset ∧ d.fld (Pg.gecko 0) F.GECKO_STAT_STATE ≠ Gs.stopped)
    ∧ (let d : Dev := { dev0.setFld (Pg.gecko 0) F.GECKO_STAT_STATE Gs.wfi with gks := [(0, { csr := [(Csr.ie.num, 16#64)], srcs := [4] })], engs := [(192, { popWait := true })] }
       d.gkWaiting 0 ≠ 0 ∧ (d.engOf 192).popWait = true ∧ (d.dbgOf 192).stop = none)
    ∧ (dev0.gkOf 0).resetCk = none ∧ dev0.inMonitor 192 = false := by decide +kernel
theorem wit_CachesAndWriteBuffer :
    (let q : NocReq := ⟨.fill 0 0x100000000 false, 0, 0, .read, 0x100000000, false, 64, [], false, 0, false, false, 0, .done, false, 0, 0, 0, Ns.ok, List.replicate 64 0#8, []⟩
     let d : Dev := { nocReqs := [(1, q)] }
     (d.begin (.cacheLineFill 0 0x100000000 false)).nocReqs.find? (fun p => decide (p.2.who = .fill 0 0x100000000 false) && decide (p.2.ph = .done)) = some (1, q)
       ∧ (cachePut (d.gkOf 0).dcache ⟨0x100000000, q.data, false⟩).2 = none)
    ∧ (let d : Dev := { gks := [(0, { wbuf := [⟨0x100000000, [some 1#8], false⟩], opCk := some 0 })] }
       (d.gkOf 0).spill = [] ∧ (d.gkOf 0).opCk = some 0)
    ∧ (let d := (dev0.setFld (Pg.gecko 0) F.GECKO_DC_LEN 64)
       d.reg64 (Pg.gecko 0) 0x164 % 64 = 0 ∧ d.fld (Pg.gecko 0) F.GECKO_DC_LEN % 64 = 0 ∧ d.fld (Pg.gecko 0) F.GECKO_DC_LEN ≠ 0)
    ∧ dev0.fld (Pg.gecko 0) F.GECKO_DC_LEN = 0 := by decide +kernel

/-! Witnesses: modes, lanes, line position, tables. -/

/-- A device in a mode. -/
def inMode (m : Nat) : Dev := dev0.setFld Pg.dev F.DEV_MODE_MODE m

/-- READY to TAP is taken; BLANK to TAP is refused; a request for the mode held while SAFE is being entered. -/
theorem wit_ModeRequests : dev0.stewardHalf = 0 ∧ dev0.dueNow (.modeRequest 0x80000004#32 false) = false
    ∧ (0x80000004#32).toNat / 2 ^ 4 = 2 ^ 27 ∧ (inMode Mode.ready.code).ownMode = Mode.ready.code ∧ legalRequest Mode.ready.code 4 0 = true
    ∧ Mode.ready.code ≠ Mode.sleep.code ∧ Mode.ready.code ≠ Mode.safe.code ∧ dev0.ownMode = 0 ∧ legalRequest 0 4 0 = false
    ∧ (inMode Mode.ready.code).flag Pg.dev F.DEV_MODE_TRANS = false ∧ (0x80000004#32).toNat % 16 = (inMode 4).ownMode := by decide +kernel
theorem test_modeRequest_taken : nextIs (exec (.modeRequest 0x80000004#32 false) (on (inMode Mode.ready.code)))
    (fun d => d.modeTarget = some 4 && d.fld Pg.dev F.DEV_MODE_TRANS = 1 && d.agenda.contains (8, .modeTransitionDone)) = true := by decide +kernel

/-- A device in a mode with SAFE entry under way, supplies good, queues empty; cause 0. -/
def entering : Dev := ({ inMode Mode.tap.code with safeEntry := true } : Dev).setFld Pg.pmc F.PMC_STAT_MON_OK 0x1F
theorem wit_ModeTransitions :
    entering.south = none ∧ entering.mode ≠ Mode.sleep.code ∧ entering.dramSupplyOk = true ∧ entering.captureIdle 0 = true ∧ entering.captureIdle 1 = true
    ∧ (({ entering with allocs := [(0, [⟨9, 0, 1, none⟩])], recs := [(1, { typ := 1 })] } : Dev).captureIdle 0 = false)
    ∧ (let d : Dev := { inMode Mode.tap.code with offEntry := [0, 1] }
       d.offEntry = [0, 1] ∧ (d.cqOf 0).drain = false ∧ (d.cqOf 1).drain = false ∧ d.captureIdle 0 = true ∧ d.captureIdle 1 = true)
    ∧ (let d : Dev := { inMode Mode.loading.code with started := true, lanesBegun := true }
       d.mode = Mode.loading.code ∧ d.allEnded = true ∧ d.liveCauses = 0 ∧ d.safeDue = 0 ∧ (d.setFld Pg.pmc ⟨0x00C, 0, 3⟩ 7).liveCauses ≠ 0)
    ∧ (let d : Dev := { inMode Mode.sleep.code with waking := true, lanesBegun := true, safeEntry := true }
       d.waking = true ∧ d.mode ≠ Mode.loading.code ∧ d.mode = Mode.sleep.code ∧ (∀ k, k < 64 → d.byDev k = true → d.domOpen k = true) ∧ d.allEnded = true)
    ∧ (let d : Dev := { inMode Mode.ready.code with safeDue := 7, readyCk := some 9 }
       d.safeDue < 8 ∧ isConfigured d.mode = true ∧ d.mode ≠ Mode.safe.code ∧ d.readyCk ≠ some d.ck)
    ∧ ((((inMode Mode.loading.code).setFld (Pg.lane 63) F.LANE_CFG_EN 1).setLaneState 63 Ln.acquire).allEnded = false)
    ∧ bit ((entering.setFld Pg.dev F.DEV_MODE_SAFE_CAUSE 1).fld Pg.dev F.DEV_MODE_SAFE_CAUSE) 0 = true ∧ entering.recs = []
    ∧ (({ dev0 with modeTarget := some Mode.ready.code } : Dev).waking = false) := by decide +kernel

/-- The last lane in each state of Table 3-5 that a clause names; a slip of the margin and one more. -/
def laneIn (st : Nat) : Dev := dev0.setLaneState 63 st
theorem wit_LaneReceiverEvents : (laneIn Ln.acquire).laneState 63 ∈ [Ln.acquire, Ln.lost, Ln.failed]
    ∧ ((laneIn Ln.failed).setFld (Pg.lane 63) F.LANE_STAT_CDR 1).fld (Pg.lane 63) F.LANE_STAT_CDR = 1
    ∧ (laneIn Ln.codeLock).laneState 63 = Ln.codeLock ∧ (laneIn Ln.aligned).laneState 63 = Ln.aligned
    ∧ (let d := (laneIn Ln.aligned).setFld (Pg.lane 63) F.LANE_CFG_DET 1
       d.fld (Pg.lane 63) F.LANE_CFG_DET = 1 ∧ max 1 (d.fld (Pg.lane 63) F.LANE_ALIGN_MARGIN) < max 1 (d.fld (Pg.lane 63) F.LANE_ALIGN_MARGIN) + 1) := by
  decide +kernel
theorem test_laneAligned : nextIs (exec (.laneAligned 63 5 (BitVec.ofNat 32 (3 * dev0.laneTau 63 / 2))) (on (laneIn Ln.codeLock)))
    (fun d => d.laneState 63 = Ln.aligned && d.fld (Pg.lane 63) F.LANE_STAT_EB_DEPTH = 5 && d.fld (Pg.lpc 1) (F.LPC_OFF_OFF 31) = 0x180) = true := by
  decide +kernel

theorem wit_LaneRegisterWrites : dev0.passActive 63 = false ∧ (64#32).toNat ≤ 64 ∧ 64 < (65#32).toNat
    ∧ (let d := (inMode Mode.through.code).setFld (Pg.lane 63) F.LANE_CFG_EN 1
       d.modePasses 1 = true ∧ d.laneEn 63 = true)
    ∧ (let d := (inMode Mode.through.code).setFld (Pg.lane 60) F.LANE_CFG_EN 1
       (d.setLaneState (d.passSrc 60) Ln.aligned).passActive 60 = true)
    ∧ rateCodeOk 15 0 = false ∧ bit (0x1000F#32).toNat 16 = true ∧ (dev0.setDomState (Dom.quad 15) Ds.opened).domOpen (Dom.quad (63 / 4)) = true
    ∧ ((0x10001#32).toNat ^^^ ((dev0.setFld (Pg.lane 63) F.LANE_CFG_EN 1).reg (Pg.lane 63) 0x100).toNat) &&& 0x0BE7F ≠ 0
    ∧ (0x80000001#32).toNat / 2 ^ 20 % 2 ^ 11 = 0 ∧ bit (0x80000001#32).toNat 31 = true := by decide +kernel

def userLane : Dev :=
  let d := (((laneIn Ln.aligned).setFld (Pg.lane 63) F.LANE_CFG_USER_PCS 1).setFld (Pg.lane 63) F.LANE_CFG_DET 1).setFld (Pg.lpc 0) F.LPC_REF_SRC 2
  { d with startCk := some 0, ck := 5 }
theorem wit_SymbolsReachTheStream : userLane.laneState 63 = Ln.aligned ∧ userLane.flag (Pg.lane 63) F.LANE_CFG_USER_PCS = true
    ∧ userLane.flag (Pg.lane 63) F.LANE_CFG_DET = true ∧ userLane.userUp (.lane 63) = true ∧ (userLane.laneOf 63).fresh = false
    ∧ (userLane.laneOf 63).openRec = none ∧ symFits (userLane.laneCode 63) true (.blk66 1#2 0#64) = false ∧ (List.replicate 65504 (0 : Byte)).length ≤ 65504
    ∧ (let d := ((userLane.setFld (Pg.lane 63) F.LANE_CFG_USER_PCS 0).setFld (Pg.lane 63) F.LANE_CFG_CODE 3).setFld (Pg.lane 63) F.LANE_FRAME_RAW_LEN 2
       d.laneState 63 = Ln.aligned ∧ d.laneCode 63 = 3 ∧ d.flag (Pg.lane 63) F.LANE_CFG_USER_PCS = false ∧ d.flag (Pg.lane 63) F.LANE_CFG_RX_INV = false
         ∧ (rateRow (d.laneRate 63)).map (fun r => r.pam4) = some false ∧ d.refSrc ≠ 0 ∧ (d.laneOf 63).tauN ≠ 4096 ∧ 2 ≤ d.fld (Pg.lane 63) F.LANE_FRAME_RAW_LEN)
    ∧ (let d : Dev := { dev0 with lanes := [(63, { txq := [{ sym := .raw 0#128, lp := 0#72, num := 0, samp := 0, pin := 0, sel := 0, room := 0, rd := none }] })] }
       (d.laneOf 63).txq.head?.map (fun e => e.sel) = some 0 ∧ d.actionsCome = false ∧ d.stimOf 63 = {} ∧ d.plays = []
         ∧ d.flag (Pg.lane 63) F.LANE_CFG_TX_INV = false) := by decide +kernel

/-- Both counters locked on LREF; a jump of cause 1; the other half's counter. -/
def locked : Dev := ((dev0.setFld (Pg.lpc 0) F.LPC_STAT_STATE Lpc.locked).setFld (Pg.lpc 1) F.LPC_STAT_STATE Lpc.locked).setFld (Pg.lpc 0) F.LPC_REF_SRC 1
theorem wit_LinePosition : (({ lpc := [(1, { jumps := [⟨0, 1, {}, 0, false⟩] })] } : Dev).lpcOf 1).jumps = [⟨0, 1, {}, 0, false⟩] ∧ locked.refSrc = 1
    ∧ (∀ h, h < 2 → locked.lpcState h = Lpc.locked ∧ (locked.lpcOf h).jumps = [] ∧ (locked.lpcOf h).await = 0 ∧ (locked.lpcOf h).coast = false
      ∧ (locked.lpcOf h).alone = false)
    ∧ ((locked.lpcOf 0).track.l0 + (locked.fld (Pg.lpc 0) F.LPC_REF_LREF_DIV : Int) * 2 ^ 32) % 2 ^ (32 + locked.fld (Pg.lpc 0) F.LPC_REF_MARK_K) ≠ 0
    ∧ (let d : Dev := { locked with lpc := [(0, { track := { l0 := -(locked.fld (Pg.lpc 0) F.LPC_REF_LREF_DIV : Int) * 2 ^ 32 } })] }
       ((d.lpcOf 0).track.l0 + (d.fld (Pg.lpc 0) F.LPC_REF_LREF_DIV : Int) * 2 ^ 32) % 2 ^ (32 + d.fld (Pg.lpc 0) F.LPC_REF_MARK_K) = 0)
    ∧ (let d : Dev := { locked with ck := 4 }
       d.lpcState 1 = Lpc.locked ∧ (d.lpcOf 1).wordCk + 4 ≤ d.ck)
    ∧ locked.anchorHalf = 0 ∧ locked.lpcState 1 ≠ Lpc.idle
    ∧ (({ locked with lpc := [(1, { alone := true })] } : Dev).lpcOf 1).alone = true
    ∧ (inMode Mode.ready.code).mode = Mode.ready.code ∧ dev0.mode ≠ Mode.ready.code ∧ dev0.flag Pg.pair F.PAIR_CTRL_EN = false ∧ dev0.cfgLock = false
    ∧ bitsOf (0x6802#32).toNat 8 6 = 40 ∧ bitsOf (0x6802#32).toNat 14 9 = 1 ∧ bitsOf (0x6802#32).toNat 0 2 = 2 ∧ bitsOf (0x400800#32).toNat 8 6 = 8
    ∧ bitsOf (0x400800#32).toNat 14 9 = 256 ∧ dev0.reg (Pg.lpc 0) 0x100 ≠ 0x6802#32
    ∧ (dev0.setReg (Pg.lpc 0) 0x108 0#32).fld (Pg.lpc 0) F.LPC_SYN_INC_HI_INT = 0 ∧ dev0.fld (Pg.lpc 0) F.LPC_SYN_INC_LO = 0 := by decide +kernel
theorem test_lpcRefWrite : nextIs (exec (.lpcRefWrite 0x6802#32) (on (inMode Mode.ready.code)))
    (fun d => d.reg (Pg.lpc 1) 0x100 = 0x6802#32 && (d.lpcOf 0).jumps.map (fun j => (j.due, j.cause)) = [(4, 8)]) = true := by decide +kernel
theorem test_lpcRefWrite_refused : nextIs (exec (.lpcRefWrite 0x6802#32) (on dev0))
    (fun d => d.reg (Pg.lpc 0) 0x100 = 0x5000#32 && d.fld (Pg.lpc 0) (F.ERRCNT 0) = 1) = true := by decide +kernel

/-- Table windows: entries that pass every check, entries that one check refuses, an armed sequencer. -/
def evsOk : BitVec 256 := eput (eput (eput (0 : BitVec 256) EV_CLASS Cl.host) EV_VALID 1) EV_TARGET 1000
theorem wit_TableWindows : dev0.evsDueList 0 = [] ∧ dev0.evsFired = []
    ∧ evsErrors ((dev0.setWindow (Pg.evs 0) 0x104 8 evsOk).window 256 (Pg.evs 0) 0x104 8) = []
    ∧ reached (evsTarget (evsClean ((dev0.setWindow (Pg.evs 0) 0x104 8 evsOk).window 256 (Pg.evs 0) 0x104 8))) (dev0.pubLp 0) = false
    ∧ evsErrors (dev0.window 256 (Pg.evs 0) 0x104 8) ≠ []
    ∧ ruleErrors 15 (dev0.window 512 (Pg.sieve 15) 0x104 16) = [] ∧ ruleErrors 15 (BitVec.allOnes 512) ≠ []
    ∧ dev0.fld (Pg.trig 1) F.TRIG_IDX_TABLE = 0 ∧ dev0.seqArmed 1 0 = false ∧ dev0.trigErrors 1 0 0 0 (dev0.window 256 (Pg.trig 1) 0x104 8) = []
    ∧ nextIs (exec (.seqArm 1 7 true) (on dev0)) (fun d => d.seqArmed 1 7) = true
    ∧ (let x : BitVec 512 := eput (eput (0 : BitVec 512) FL_EN 1) FL_WEIGHT 1
       eget x FL_EN = 1 ∧ eget x FL_RETAIN ≠ 3 ∧ eget x FL_WEIGHT ≠ 0 ∧ eget x FL_PIN_ENGINE ≤ 95 ∧ bitsOf x.toNat 77 3 = 0 ∧ bitsOf x.toNat 23 1 = 0
         ∧ bitsOf x.toNat 80 48 = 0)
    ∧ dev0.flowEn 0 4095 = false ∧ dev0.flowEn 1 4095 = false ∧ dev0.log.flowWas = [] ∧ dev0.log.counted = [] ∧ dev0.recs = [] ∧ eget (eput (0 : BitVec 512) FL_RETAIN 3) FL_RETAIN = 3 := by decide +kernel
theorem test_evsWrite : nextIs (exec (.evsWrite 0) (on (dev0.setWindow (Pg.evs 0) 0x104 8 evsOk)))
    (fun d => d.evsEntry 0 0 = evsOk && d.evsEntry 1 0 = 0#256) = true := by decide +kernel

/-- An action of entry 5, of the STIM class. -/
def evsAct : Action := { half := 0, src := .evs 5, cls := 1, arg0 := 0, arg1 := 0, tag := 0, lp := 0#72, pub := 0#72, dest := 0 }
/-- Triggers: a due MARK entry, a match event, an outcome to apply, a bridge word, an action at its arrival, sequencers. -/
def trigDev : Dev :=
  { locked with
    evs := [(5, eput (eput (0 : BitVec 256) EV_CLASS Cl.mark) EV_VALID 1)]
    lanes := [(0, { evq := [([3], 7#72, 2)], outq := [1] })]
    recs := [(1, { typ := 1, outc := some ⟨.keep, 9, 0, 5, 0, 0⟩ })]
    bridgeOut := [(0, [{ acts := [evsAct] }])]
    flying := [⟨0, true, evsAct⟩] }
theorem wit_TriggerEvents : trigDev.lpcState 0 ≠ Lpc.idle ∧ sget 0 trigDev.evsRan 0 ≠ trigDev.ck + 1 ∧ (trigDev.evsDueList 0).map (·.1) = [5]
    ∧ (trigDev.laneOf 0).evq = [([3], 7#72, 2)] ∧ (trigDev.laneOf 0).outq = [1] ∧ ((trigDev.recOf 1).outc.map (fun o => (o.act, o.shed)) = some (.keep, 0))
    ∧ (trigDev.recOf 1).typ = 1 ∧ (trigDev.laneOf 0).relockFlows = none ∧ (∀ x ∈ trigDev.recs, x.2.first ≠ some 1)
    ∧ ((sget [] trigDev.bridgeOut 0).map (fun b => (b.lines, b.acts.length)) = [([], 1)])
    ∧ (takeFlying trigDev.ck trigDev.flying).map (fun p => (p.1.issued, p.1.act.cls)) = some (true, 1)
    ∧ (trigDev.setFld Pg.steward F.STEWARD_STAT_BRIDGE_OK 1).bridgeOk = true ∧ (dev0.begin (.seqEvaluate 0 0)).seqWaits = false
    ∧ (({ dev0.setFld (Pg.trig 0) (F.TRIG_SEQ_STAT_ARMED 0) 1 with agenda := [(0, .seqEvaluate 0 0)] } : Dev).seqDue 0 0 = true) ∧ dev0.seqDue 0 0 = false
    ∧ (dev0.seqOf 0 0).after = [] ∧ (dev0.seqOf 0 0).shows = []
    ∧ (let d := dev0.setFld (Pg.trig 0) (F.TRIG_SEQ_STAT_ARMED 0) 1
       let e : Dev := { d with ck := 9, seqs := [(0, { timer := true })] }
       d.seqArmed 0 0 = true ∧ (d.seqOf 0 0).timer = false ∧ (e.seqOf 0 0).timer = true ∧ (e.seqOf 0 0).enterCk < e.ck ∧ (e.seqOf 0 0).evalCk ≠ e.ck + 1
         ∧ d.seqBranch 0 0 0 (d.seqState 0 0 0) = none ∧ d.seqBranch 0 0 1 (d.seqState 0 0 0) = none ∧ reached (e.seqOf 0 0).deadline (e.pubLp 0) = true) := by
  decide +kernel
theorem test_evsEntryDue : nextIs (exec (.evsEntryDue 0) (on trigDev))
    (fun d => eget (d.evsEntry 0 5) EV_VALID = 0 && d.fld (Pg.evs 0) F.EVS_FIRE_CNT = 1 && d.flying.any (fun f => f.due = 2 && f.act.src = .evs 5)) = true := by
  decide +kernel

/-! Witnesses: capture, placement, stimulus, DRAM. -/

/-- A record at its allocation point in TAP, its flow assigned; one whose second unit arrives; an open run; a written one. -/
def capDev : Dev :=
  { ((inMode Mode.tap.code).setFlowFld 0 9 FL_CUR_ENGINE 3).setFlowFld 0 9 FL_EN 1 with
    recs := [(1, { flow := 9 })]
    allocs := [(0, [⟨0, 0, 1, none⟩])] }
theorem wit_CaptureQueue : isCapturing (capDev.modeOf 0) = true ∧ capDev.flowEn 0 9 = true ∧ capDev.curEngine 0 9 < 192
    ∧ capDev.flowFld 0 9 FL_BYPASS = 0 ∧ (capDev.cqOf 0).fill + (capDev.recOf 1).needUnits ≤ cqCap ∧ (capDev.recOf 1).complete = false
    ∧ (let d : Dev := { capDev with recs := [(1, { units := 1, payload := List.replicate 64 0#8 })], allocs := [(0, [⟨0, 0, 1, some (32, false)⟩])] }
       (d.recOf 1).units < unitsOf (min 32 (d.recOf 1).payload.length) false ∧ (d.cqOf 0).fill + (unitsOf 32 false - 1) ≤ cqCap)
    ∧ (let d : Dev := { capDev with closing := [(9, 0)], runs := [(9, { count := 1 })], exts := [{ home := 0, flow := 9, ord := 0, half := 0, stripe := 0, slot := 0, openNo := 0 }] }
       (sget ({} : LossRun) d.runs (flowKey 0 9)).count ≠ 0 ∧ d.flowFld 0 9 FL_FROZEN = 0
         ∧ (d.openExt 0 9).map (fun x => (x.half, decide (x.written + 64 ≤ extBytes))) = some (d.placeHalf 0 9, true))
    ∧ (let d : Dev := { capDev with
         recs := [(1, { flow := 9, st := .emitted, complete := true })], nums := [(9, [⟨0, 1, none, 0#72, 0⟩])]
         exts := [{ home := 0, flow := 9, ord := 0, half := 0, stripe := 0, slot := 0, openNo := 0, written := extBytes - 32 }] }
       (d.writable 0).map (·.1) = [1] ∧ (∀ y ∈ d.recs, y.2.emit = none ∧ y.2.copyCk ≤ d.ck) ∧ d.marksOf 0 = [] ∧ (sget ({} : LossRun) d.runs (flowKey 0 9)).count = 0
         ∧ extBytes - 32 + d.streamNeed 0 9 ≤ extBytes)
    ∧ dev0.writable 0 = [] ∧ sfind dev0.recs 1 = none
    ∧ (let d := (dev0.setFld (Pg.cq 1) F.CQ_STAT_FLUSH_PEND 1)
       d.flag (Pg.cq 1) F.CQ_STAT_FLUSH_PEND = true ∧ ∀ x ∈ d.recs, x.2.half = 1 → x.2.units = 0)
    ∧ (let d : Dev := { cq := [(0, { tap := [5#512] })] }
       (d.cqOf 0).tap = [5#512])
    ∧ (dev0.cqOf 0).tap = [] ∧ (dev0.setFld (Pg.cq 0) F.CQ_TAP_WAIT_CK 1).fld (Pg.cq 0) F.CQ_TAP_WAIT_CK ≠ 0
    ∧ (({ cq := [(0, { tapReads := [(0, .cmd)] })] } : Dev).cqOf 0).tapReads = [(0, .cmd)] := by decide +kernel
theorem wit_CaptureQueue_written :
    (let d : Dev := { recs := [(1, { st := .writing, half := 1, tx := 4 })] }
     (d.recOf 1).st = .writing ∧ (d.recOf 1).half = 1 ∧ (sget ({} : DTx) d.dtx 4).resp = .ok ∧ d.txDone (sget ({} : DTx) d.dtx 4) = true) := by decide +kernel
theorem test_queueAllocation : nextIs (exec (.queueAllocation 0) (on capDev))
    (fun d => d.flowFld 0 9 FL_NEXT_SEQ = 1 && (d.recOf 1).st = .queued && (d.cqOf 0).wp = 1 && sget [] d.allocs 0 = []) = true := by decide +kernel
theorem test_tapPop : nextIs (exec (.tapPop 0 false) (on { cq := [(0, { tap := [5#512, 6#512] })] }))
    (fun d => d.out.contains (.rdata (raddr (Pg.cq 0) 0x144) 0x80000001#32) && d.window 512 (Pg.cq 0) 0x180 16 = 5#512) = true := by decide +kernel

/-- Placement: handovers in each phase, a window that ends, flows to assign, extents held, spills. -/
def pluDev : Dev :=
  { ((runs 0).setFlowFld 0 9 FL_EN 1).setFld (Pg.newt 1) F.NEWT_STAT_STATE Es.run with
    ck := 1024
    engs := [(0, { slots := [(9, 63)] })]
    handovers := [(8, { src := 0, dst := 1 }), (9, { src := 0, dst := 1, phase := 1 }), (10, { src := 0, dst := 1, phase := 2 }), (11, { src := 0, dst := 1, phase := 3 })] }
theorem wit_PlacementDecisions :
    (sfind pluDev.handovers (flowKey 0 8)).map (fun x => x.phase) = some 0 ∧ (sfind pluDev.handovers (flowKey 0 9)).map (fun x => x.phase) = some 1
    ∧ sfind (pluDev.engOf 0).slots 9 = some 63 ∧ (sfind pluDev.handovers (flowKey 0 11)).map (fun x => x.phase) = some 3
    ∧ (pluDev.pluOf 0).winCk + 1024 ≤ pluDev.ck ∧ keepsRates (pluDev.modeOf 0) = false ∧ keepsRates ((inMode Mode.sleep.code).modeOf 0) = true
    ∧ 192 ≤ pluDev.curEngine 0 9 ∧ pluDev.flowEn 0 9 = true ∧ pluDev.pinned 0 9 = false ∧ ({ pluDev with handovers := [] } : Dev).chooseEngine 0 none = some 1
    ∧ (let d := (pluDev.setFlowFld 0 9 FL_PIN_ENG_EN 1)
       d.pinned 0 9 = true ∧ d.takesFlow (d.pinOf 0 9) = true)
    ∧ (let d := { (pluDev.setFld (Pg.newt 0) F.NEWT_STAT_STATE Es.off).setFlowFld 0 9 FL_CUR_ENGINE 0 with handovers := [] }
       d.engRuns 0 = false ∧ (d.engOf 0).slots = [(9, 63)] ∧ d.flowFld 0 9 FL_NO_MOVE = 0 ∧ d.chooseEngine 0 (some 0) = some 1 ∧ d.inHandover 0 9 = false
         ∧ d.curEngine 0 9 = 0 ∧ (∀ g ∈ d.listedFlows 0, d.stoppedFor 0 g = none) ∧ (d.pluOf 0).stops = []
         ∧ (({ d with plus := [(0, { stops := [⟨9, 0, some 0, none⟩] })] } : Dev).pluOf 0).stops = [⟨9, 0, some 0, none⟩])
    ∧ dev0.openExt 0 9 = none ∧ dev0.flowFld 0 9 FL_CHAN_SET = 0 ∧ dev0.extChoice 0 9 (dev0.placeHalf 0 9) none = .freeze ∧ dev0.headRec 0 9 = none := by
  decide +kernel
/-- A stripe of one channel with room; spilling halves. -/
def storeDev : Dev :=
  ((((inMode Mode.tap.code).setFld (Pg.plu 0) (F.PLU_STRIPE_CHANS 0) 1).setFld (Pg.plu 0) (F.PLU_STRIPE_EN 0) 1).setFld (Pg.plu 0) (F.PLU_POOL_SIZE_SIZE 0) 64).setChanState 0 Ch.online
theorem wit_PlacementDecisions_more :
    (let d := storeDev
     d.openExt 0 9 = none ∧ d.extChoice 0 9 (d.placeHalf 0 9) none = .opened 0 0 false ∧ d.heldOf 0 9 = [])
    ∧ (let d := (({ pluDev with plus := [(0, { rate := [(9, 5)] })], engs := [] } : Dev).setFld (Pg.cq 0) F.CQ_STAT_SPILL 1)
       d.cqSpill 0 = true ∧ d.cqSpill 1 = false ∧ d.spillable 0 ≠ [] ∧ (d.setFld (Pg.cq 1) F.CQ_STAT_SPILL 1).cqSpill 1 = true)
    ∧ (({ plus := [(0, { spilled := [9] })] } : Dev).pluOf 0).spilled ≠ [] ∧ dev0.cqSpill 0 = false
    ∧ (let x : Ext := { home := 0, flow := 9, ord := 0, half := 0, stripe := 7, slot := 0, openNo := 0, isOpen := false }
       (({ exts := [x] } : Dev).exts.filter (fun x => x.half = 0 && x.flow = bitsOf (0x1009#32).toNat 0 12 && !x.isOpen)).take (bitsOf (0x1009#32).toNat 12 20) = [x]
         ∧ ({ exts := [x] } : Dev).extsOn 0 7 = [x] ∧ dev0.extsOn 0 7 = [] ∧ bit (0xFFF#32).toNat 12 = false) := by decide +kernel

theorem wit_CaptureSpaceAndSeeks :
    (let d : Dev := { inMode Mode.tap.code with
       capReads := [(1, { src := .pcie 3, off := 0, len := 32, tx := 2, classes := some [1] })], dtx := [(2, { left := 0 })] }
     d.unitClass (.pcie 3) [] 0 = clsUnwritten ∧ sfind d.dtx 2 = some { left := 0 } ∧ d.txDone { left := 0 } = true)
    ∧ (({ src := .pcie 0, off := 0, len := 1, due := 3, begun := false } : CapRead).begun = false)
    ∧ dev0.fld (Pg.idx 1) F.IDX_STAT_SEEK_BUSY = 0 ∧ (dev0.setFld (Pg.idx 1) F.IDX_STAT_SEEK_BUSY 1).fld (Pg.idx 1) F.IDX_STAT_SEEK_BUSY = 1
    ∧ sfind dev0.descReads 1 = none
    ∧ (let d : Dev := { seeks := [(1, ⟨9, 1, 0, 0, 0, 0, 0, 0⟩)] }
       (sfind d.seeks 1).map (fun q => q.n) = some 0)
    ∧ (let x : Ext := { home := 1, flow := 9, ord := 0, half := 1, stripe := 0, slot := 0, openNo := 0, firstLp := some 0 }
       let d : Dev := { seeks := [(1, ⟨9, 1, 0, 0, 1, dev0.dirD 1 + 1, 0, 2⟩)], dtx := [(2, { left := 0 })], exts := [x] }
       (d.liveExt 1 9 0).isSome = true ∧ (DTx.poisoned { left := 0 }) = false ∧ ¬ (0 = d.oldest 1 9 ∧ 0 < (d.ordLp 1 9 0 0).1)
         ∧ ¬ (0 = d.newest 1 9 ∧ (d.ordLp 1 9 0 0).1 + (d.ordLp 1 9 0 0).2 < 0))
    ∧ dev0.openExt 0 0 = none ∧ sfind ({ descReads := [(1, ⟨2, 0, 0, 0⟩)] } : Dev).descReads 1 = some ⟨2, 0, 0, 0⟩ := by decide +kernel

/-- Lane 60 passes in INTERCEPT with the unit on and a symbol at injection select; actions for it; a template of one entry. -/
def passDev : Dev :=
  { (((inMode Mode.intercept.code).setFld (Pg.stim 1) F.STIM_CTRL_EN 1).setFld (Pg.lane 60) F.LANE_CFG_EN 1).setLaneState 60 Ln.aligned with
    lanes := [(60, { txq := [{ sym := .blk66 2#2 0#64, lp := 0#72, num := 0, samp := 0, pin := 0, sel := 0, room := 0, rd := none }] })]
    tmpls := [(tmplKey 1 0 0, 1#32)] }
def aAct (op n : Nat) : StimAct := ⟨op, 0, n, 0, 0#72, some 0, some 0⟩
def acting (x : StimLane) : Dev := { passDev with stims := [(60, x)] }
theorem wit_StimulusActions : argOk Cl.stim (0#32).toNat (0xFFFFFFFF#32).toNat = false ∧ argOk Cl.stim (0x8002#32).toNat (0x3C#32).toNat = true
    ∧ laneHalf ((0x3C#32).toNat % 64) = 1 ∧ isStimulus (passDev.modeOf 1) = true ∧ passDev.txOk 60 = true ∧ (passDev.stimOf 60).pend.length < 4
    ∧ (acting { pend := [aAct 2 5] }).dueActs 60 = ([aAct 2 5], [])
    ∧ (acting { pend := [aAct 0 0] }).dueActs 60 = ([aAct 0 0], []) ∧ passDev.tmplBad 60 0 0 = false
    ∧ passDev.generating 60 = false
    ∧ (let d := acting { pend := [aAct 4 5], run := some { op := 4, left := 3 } }
       (d.dueActs 60).1.length = 1 ∧ (d.stimOf 60).run.isSome = true)
    ∧ userLane.userUp (.stim 1) = true ∧ dev0.userUp (.stim 1) = false ∧ 4 ≤ (List.replicate 4 (aAct 0 0)).length ∧ dev0.dueActs 63 = ([], []) ∧ dev0.tmplNamed 1 0 = false ∧ (acting { pend := [{ aAct 0 0 with anchor := none, first := none }] }).tmplNamed 1 0 = true := by decide +kernel
theorem test_delete : nextIs (exec (.delete 60) (on (acting { pend := [aAct 2 5] })))
    (fun d => (d.stimOf 60).run = some { op := 2, left := 5 } && d.fld (Pg.stim 1) F.STIM_APPLY_CNT = 1) = true := by decide +kernel

def playOkEntry : BitVec 256 := eput (0 : BitVec 256) PL_END 64
theorem wit_PlaybackStreams : dev0.playFree 1 (dev0.playSel 1) = true ∧ playEntryOk ((dev0.setWindow (Pg.stim 1) 0x124 8 playOkEntry).window 256 (Pg.stim 1) 0x124 8) = true
    ∧ playEntryOk (dev0.window 256 (Pg.stim 1) 0x124 8) = false
    ∧ (let d := dev0.setPlay 1 63 { entry := playOkEntry, arming := true }
       (d.playOf 1 63).arming = true)
    ∧ (let d := (passDev.setFld (Pg.stim 1) F.STIM_PLAY_IDX_LANE 60).setPlayState 1 0 Ps.armed
       d.playState 1 0 = Ps.armed ∧ laneHalf (d.fld (Pg.stim 1) F.STIM_PLAY_IDX_LANE) = 1 ∧ d.txOk 60 = true ∧ d.playSel 1 = 0)
    ∧ (let d := dev0.setPlayState 1 0 Ps.running
       d.playState 1 0 = Ps.running ∧ d.playSending 1 0 = false
         ∧ ({ d.setPlay 1 0 { entry := playOkEntry, lane := 63 } with stims := [(63, { play := some { op := 5, stream := some 0 } })] } : Dev).playSending 1 0 = true)
    ∧ (let d : Dev := { passDev.setPlayState 1 0 Ps.armed with stimIn := [{ evsAct with half := 1, cls := Cl.play, arg1 := 60, dest := 1 }] }
       (d.stimNext 1 Cl.play).isSome ∧ d.playState 1 (0 % 64) = Ps.armed ∧ d.txOk (60 % 64) = true)
    ∧ (let d := { dev0.setPlay 1 0 { entry := playOkEntry, read := some (1, 0, 2) } with capReads := [(1, { src := .play 1 0, off := 0, len := 64, done := some ([], [0, 0]) })] }
       eget (d.playOf 1 0).entry PL_SRC = 0 ∧ (d.playOf 1 0).read = some (1, 0, 2) ∧ (sfind d.capReads 1).isSome)
    ∧ PlaySt.next { entry := playOkEntry } 0#72 = .wait
    ∧ PlaySt.next { entry := playOkEntry, buf := [⟨0, List.replicate 32 0#8, 3⟩] } 0#72 = .skip 64 := by decide +kernel

/-- Channel 15: training eyes at the bound and below it, requests, decisions, service, refresh, self-refresh. -/
def drcIn (st : Nat) : Dev := dev0.setChanState 15 st
def aReq (wr : Option (List (Option Byte))) : DReq :=
  { tx := 2, part := 0, off := 0, base := 0, span := 64, wr := wr, poison := false, cls := 0, reader := 0, close := false, internal := false, age := 0 }
theorem wit_DramChannels :
    (drcIn Ch.training).chanState 15 = Ch.training ∧ dev0.ck < (dev0.drcOf 15).trainCk + trainCks
    ∧ (({ drcIn Ch.training with ck := trainCks } : Dev).drcOf 15).trainCk + trainCks ≤ ({ drcIn Ch.training with ck := trainCks } : Dev).ck ∧ (dev0.fld (Pg.drc 15) F.DRC_TRACK_MIN_EYE ≤ ([0xFF#8][0]?).elim 0 (fun b => b.toNat))
    ∧ bitsOf (0#32).toNat 8 8 < dev0.fld (Pg.drc 15) F.DRC_TRACK_MIN_EYE
    ∧ (drcIn Ch.online).chanState 15 = Ch.online ∧ ((drcIn Ch.online).drcOf 15).drain = .none ∧ (drcIn Ch.online).chanIdle 15 = true
    ∧ (let d := (drcIn Ch.online).setDrc 15 { drain := .retrain }
       (d.drcOf 15).drain = .retrain ∧ d.chanIdle 15 = true)
    ∧ (let d : Dev := { drcIn Ch.online with subs := [(31, { waiting := [aReq none] })] }
       (d.subOf 15 1).waiting = [aReq none] ∧ d.domState (Dom.dram 15) ≠ Ds.closing ∧ 0 + 64 ≤ d.chanCap 15 ∧ d.cryptRange 15 0 = none
         ∧ (d.subOf 15 1).queue.length < 64)
    ∧ (let d : Dev := { drcIn Ch.online with subs := [(31, { queue := [aReq none] })] }
       (d.subOf 15 1).queue = [aReq none] ∧ d.selectable 15 1 (BitVec.allOnes 64) (0, aReq none) = true)
    ∧ (let d : Dev := { drcIn Ch.online with subs := [(31, { serving := [(0, aReq none)] })], dtx := [(2, { left := 2 })] }
       (d.subOf 15 1).serving = [(0, aReq none)] ∧ (aReq none).base = (aReq none).off ∧ d.cryptRange 15 0 = none ∧ d.afterA 15 1 = false ∧ (sfind d.dtx 2).map (fun t => t.left) = some 2)
    ∧ ((aReq (some (List.replicate 64 (some 1#8)))).wr.map (fun l => (l.all (fun o => o.isSome), l.length)) = some (true, 64))
    ∧ (drcIn Ch.online).ranks 15 ≥ 1
    ∧ (((drcIn Ch.online).setDrc 15 { drain := .retrain, retrainCk := some 0 }).drcOf 15).retrainCk = some 0
    ∧ (let d := (drcIn Ch.online).setDrc 15 { drain := .selfRefresh }
       (d.drcOf 15).drain = .selfRefresh ∧ d.chanIdle 15 = true)
    ∧ (drcIn Ch.selfRefresh).chanState 15 = Ch.selfRefresh ∧ ((drcIn Ch.selfRefresh).drcOf 15).exiting = false ∧ dev0.forced (Dom.dram 15) = false
    ∧ (((drcIn Ch.selfRefresh).setDrc 15 { exiting := true }).drcOf 15).exiting = true := by decide +kernel
theorem wit_DramChannels_clean : dev0.decodeAt 15 0 (dev0.burst 15 0) = .clean := by decide +kernel
theorem test_dramTrainingDone : nextIs (exec (.dramTrainingDone 15 (List.replicate 20 0#16) (List.replicate 20 0xFF#8) (List.replicate 20 0xFF#8)) (on { drcIn Ch.training with ck := trainCks }))
    (fun d => d.chanState 15 = Ch.online) = true := by decide +kernel
theorem test_dramTrainingDone_fails : nextIs (exec (.dramTrainingDone 15 (List.replicate 20 0#16) (List.replicate 20 0#8) (List.replicate 20 0xFF#8)) (on { drcIn Ch.training with ck := trainCks }))
    (fun d => d.chanState 15 = Ch.failed && d.fld (Pg.drc 15) (F.ERRCNT 0) = 1) = true := by decide +kernel

/-! Witnesses: integrity, encryption, fabric, resets, configuration. -/

/-- FIPS 197, appendix C.3: round 1, and word 8 of the key schedule. -/
theorem test_aes256_fips197 :
    (let s : List Byte := ((leBytes 16 0x00102030405060708090A0B0C0D0E0F0).reverse).map aesSub
     (leNat s.reverse, leNat (aesShift false s).reverse, leNat (aesMix [2#8, 3#8, 1#8, 1#8] (aesShift false s)).reverse)
       = (0x63CAB7040953D051CD60E0E7BA70E18C, 0x6353E08C0960E104CD70B751BACAD0E7, 0x5F72641557F5BC92F7BE3B291DB9F91A))
    ∧ (aesExpand 1 8 1#8 ((List.range 8).map (fun i => (List.range 4).map (fun j => BitVec.ofNat 8 (4 * i + j))))).map (fun w => leNat w.reverse) = [0xA573C29F]
    ∧ (List.range 4).all (fun i => aesUnsub (aesSub (BitVec.ofNat 8 (85 * i))) = BitVec.ofNat 8 (85 * i)) = true := by decide +kernel

/-- A scrubbed region of one 4 KiB unit on channel 15; a region being filled; ranges on and off; a live key slot. -/
def scrubDev : Dev :=
  let d := (((drcIn Ch.online).setFld (Pg.memi 15) (F.MEMI_REGION_CTRL_SIZE 0) 1).setFld (Pg.memi 15) (F.MEMI_REGION_CTRL_EN 0) 1)
  ((d.setFld (Pg.memi 15) (F.MEMI_REGION_CTRL_INITED 0) 1).setFld (Pg.memi 15) (F.MEMI_REGION_CTRL_SCRUB 0) 1).setFld (Pg.memi 15) F.MEMI_CTRL_SCRUB_EN 1
def keyDev : Dev := { dev0 with fuses := { prog := [0, 3], useData := [3] } }
theorem wit_IntegrityAndCryptUnits : nextScrub (dev0.scrubSpans 15) 0 = none
    ∧ nextScrub (scrubDev.scrubSpans 15) (scrubDev.fld (Pg.memi 15) F.MEMI_SCRUB_POS * 64) = some 0 ∧ nextScrub (scrubDev.scrubSpans 15) 64 = some 64
    ∧ scrubDev.flag (Pg.memi 15) F.MEMI_CTRL_SCRUB_EN = true ∧ (scrubDev.subOf 15 (offSub 0)).queue = [] ∧ (scrubDev.subOf 15 (offSub 0)).lastScrub = 0
    ∧ (scrubDev.subOf 15 (offSub 0)).scrub = none ∧ scrubDev.rankBlocked 15 (offSub 0) 0 = false
    ∧ scrubDev.retired 15 0 = false ∧ (({ drcIn Ch.online with memis := [(15, { filling := some 15 })] } : Dev).memiOf 15).filling = some 15
    ∧ ({ drcIn Ch.online with memis := [(15, { filling := some 15 })] } : Dev).chanState 15 = Ch.online ∧ (dev0.memiOf 15).filling = none
    ∧ dev0.regionRefused 15 0 (dev0.fld (Pg.memi 15) (F.MEMI_REGION_CTRL_SIZE 15)) = false
    ∧ (drcIn Ch.online).regionRefused 15 1 0 = true ∧ (dev0.reg (Pg.memi 15) 0x100 &&& 0x3FFFFFF#32) ≠ 1#32
    ∧ bit (dev0.setFld (Pg.crypt 1) F.CRYPT_STAT_INIT_BUSY 128 |>.fld (Pg.crypt 1) F.CRYPT_STAT_INIT_BUSY) 7 = true
    ∧ dev0.chansOnline 1 ((dev0.setFld (Pg.crypt 1) F.CRYPT_STAT_INIT_BUSY 128).fld (Pg.crypt 1) (F.CRYPT_RANGE_CFG_CHANS 7)) = true
    ∧ (({ drcIn Ch.online with crypts := [(1, { resealing := [(7, 15, 1, 0)] })] } : Dev).cryptOf 1).resealing = [(7, 15, 1, 0)]
    ∧ ({ drcIn Ch.online with crypts := [(1, { resealing := [(7, 15, 1, 0)] })] } : Dev).chanState 15 = Ch.online
    ∧ dev0.rgEn 1 7 = false ∧ (dev0.setFld (Pg.crypt 1) (F.CRYPT_RANGE_CFG_EN 7) 1).rgEn 1 7 = true ∧ keyDev.slotLive 3 = true ∧ keyDev.slotLive 0 = false
    ∧ dev0.rgBase 1 7 ≤ 0 ∧ (0 - dev0.rgBase 1 7) % (2048 * 8 ^ dev0.fld (Pg.crypt 1) F.CRYPT_RESEAL_LEVEL_LEVEL) = 0
    ∧ bitsOf (0x10002#32).toNat 16 16 ≠ 0 ∧ bitsOf (0x10002#32).toNat 0 2 = 2 ∧ dev0.cfgLock = false := by decide +kernel
theorem wit_IntegrityAndCryptUnits_clean : scrubDev.decodeAt 15 0 (scrubDev.burst 15 0) = .clean := by decide +kernel

def bayDev : Dev := ({ dev0 with started := true, startCk := some 0, ck := 5 } : Dev).setDomState (Dom.bay 11) Ds.opened
theorem wit_FabricBlocks : bayDev.bayLive 11 = true ∧ dev0.bayLive 0 = false ∧ (36863 + 1 ≤ 36864) ∧ laneHalf 63 = 11 / 6 ∧ laneHalf 0 ≠ 11 / 6
    ∧ bayDev.fld (Pg.bay 11) F.BAY_SILL_FIRST_VALID = 0 ∧ (bayDev.setFld (Pg.bay 11) F.BAY_SILL_FIRST_VALID 1).fld (Pg.bay 11) F.BAY_SILL_FIRST_VALID = 1
    ∧ (bayDev.bayOf 11).sillCk ≠ some bayDev.ck ∧ bayDev.portUp 11 (.queue 1) = true ∧ ({ bayDev with ck := 0 } : Dev).portUp 11 (.queue 1) = false
    ∧ (({ bayDev with bays := [(11, { sillCk := some 5, sillOwn := true })] } : Dev).bayOf 11).sillCk = some bayDev.ck
    ∧ dev0.fld Pg.dev (F.DEV_RO_EN 15) = 0 ∧ clusterBack 960 .east 1 = some 0 ∧ clusterBack 53760 .north 1 = some 959
    ∧ sillDrivers 7903 ≠ 0 ∧ sillDriver 0#2048 3 = 0 ∧ dev0.bayLive 11 = false := by decide +kernel
/-- R309: 3 × 5 as a product of DUAL, taken by the accumulator. R311: ratio 3, a value of CK 1 is presented in slot 0 of the edge of CK 4. -/
theorem test_slices : (((({} : SliceSt).next 4#16 (3 + 5 <<< 18)).next 4#16 0).next 4#16 0).prod = 15#128 ∧ presentAt 1 3 1 = (4, 0)
    ∧ launchedAt 1 3 8 = (7, 0) ∧ launchedAt 1 3 (1 + userRound 3 1) = (7, 0) := by decide +kernel

/-- Frames of one cluster whose cell 15 has control bits `k` of Table 15-1. -/
def cellFrame (k : Nat) : Nat := k * 2 ^ (1024 + 8 * 15)
theorem wit_FabricBlocks_cells : srising ([(645119, BitVec.ofNat 2048 (cellFrame 0x80))] : SMap (BitVec 2048)) = true
    ∧ cellBit (cellFrame 0x80) 15 7 = true ∧ bit 2 1 = true ∧ cellBit (cellFrame 0x40) 15 7 = false ∧ cellBit (cellFrame 0x40) 15 6 = true ∧ bit 2 0 = false
    ∧ cellBit (cellFrame 0x21) 15 7 = false ∧ cellBit (cellFrame 0x21) 15 6 = false ∧ cellBit (cellFrame 0x21) 15 0 = true
    ∧ cellBit (cellFrame 0x21) 15 5 = true ∧ cellBit (cellFrame 0x21) 15 3 = false ∧ cellBit (cellFrame 0x21) 15 4 = false := by decide +kernel
/-- R299: propagate passes the carry, generate gives it; R300: INIT under the cluster reset. -/
theorem test_cells : cellNext (cellFrame 0x21 + 2 ^ (64 * 15 + 33)) 15 1 1 0 true = 0 ∧ cellCarry (cellFrame 0x21 + 2 ^ (64 * 15 + 33)) 15 1 true = true
    ∧ cellCarry (cellFrame 0x21 + 2 ^ (64 * 15 + 2)) 15 2 false = true ∧ cellNext (cellFrame 0x86) 15 0 3 0 false = 3 := by decide +kernel

theorem wit_FlashSerialAndScan : dev0.fld Pg.dev F.DEV_FLASH_ADDR_ADDR % 256 = 0 ∧ dev0.flashWp 0 = false ∧ dev0.fab.flash = none ∧ dev0.fab.pages.contains 0 = false
    ∧ (dev0.setFld Pg.dev F.DEV_FLASH_ADDR_ADDR 1).fld Pg.dev F.DEV_FLASH_ADDR_ADDR % 256 ≠ 0
    ∧ (List.replicate 256 (0 : Byte)).length = 256 ∧ (({ fab := { flash := some (true, 0x1FF0000, []) } } : Dev).fab.flash = some (true, 0x1FF0000, []))
    ∧ dev0.flag Pg.dev (F.DEV_SP_CTRL_OWNER 6) = false ∧ (dev0.serOf 6).tx = [] ∧ (dev0.serOf 6).busy = none ∧ dev0.flag Pg.dev (F.DEV_SP_CTRL_EN 6) = false
    ∧ (dev0.setFld Pg.dev (F.DEV_SP_CTRL_EN 6) 1).flag Pg.dev (F.DEV_SP_CTRL_EN 6) = true
    ∧ (dev0.setFld Pg.dev (F.DEV_SP_CTRL_OWNER 0) 1).flag Pg.dev (F.DEV_SP_CTRL_OWNER 0) = true
    ∧ (({ fab := { sers := [(5, { busy := some 0x41, rx := List.replicate 64 0#8 })] } } : Dev).serOf 5).busy = some 0x41
    ∧ 64 ≤ (({ fab := { sers := [(5, { busy := some 0x41, rx := List.replicate 64 0#8 })] } } : Dev).serOf 5).rx.length := by decide +kernel
theorem test_flashProgram : nextIs (exec .flashProgram (on dev0)) (fun d => d.fab.flash.map (fun f => (f.1, f.2.1)) = some (false, 0)
    && d.agenda.contains (600000, .flashCmdDone true)) = true := by decide +kernel

/-- A device in each step of its release; a lost QREF; a PLL locked, one on and not locked; a setting of R326 out of range. -/
theorem wit_ResetsReleaseAndClocks : dev0.sources = [] ∧ ({ sources := [1] } : Dev).sources = [1] ∧ dev0.fld (Pg.clkrst 0) F.CLKRST_RST_CAUSE_THERM = 0
    ∧ bitsOf (0x5EED#32).toNat 0 16 = 0x5EED ∧ ({ rst := .held, sources := [0] } : Dev).rst = .held ∧ ({ rst := .aonUp } : Dev).ins.cfgAuto = false
    ∧ (dev0.setFld (Pg.clkrst 1) ⟨0x00C, 8, 1⟩ 1).fld (Pg.clkrst 1) ⟨0x00C, 1 + 15 % 8, 1⟩ = 1
    ∧ fpllOk 1 (0x00801#32).toNat = false ∧ bit (0x00801#32).toNat 0 = true ∧ dev0.reg (Pg.clkrst 1) 0x108 ≠ 0x10#32
    ∧ (dev0.setFld (Pg.clkrst 1) ⟨0x00C, 10, 1⟩ 1).fld (Pg.clkrst 1) ⟨0x00C, 9 + 1, 1⟩ = 1
    ∧ ((dev0.setFld (Pg.clkrst 1) (F.CLKRST_FPLL_EN 1) 1).setFld (Pg.clkrst 1) ⟨0x00C, 10, 1⟩ 0).fld (Pg.clkrst 1) ⟨0x00C, 9 + 1, 1⟩ = 0
    ∧ (dev0.setFld (Pg.clkrst 1) (F.CLKRST_FPLL_EN 1) 1).fld (Pg.clkrst 1) (F.CLKRST_FPLL_EN 1) = 1 := by decide +kernel
theorem test_softwareReset : nextIs (exec (.softwareReset 1 0x5EED#32) (on dev0)) (fun d => d.rst = .held && d.sources = [4]
    && d.reg (Pg.clkrst 0) 0x10C = 16#32) = true := by decide +kernel

/-- A load under way: its header accepted, verified bytes of PAD, FRAME and REG units, a command under way. -/
def loadDev (cmd : Option (Nat × Nat × Nat × Nat)) (l : List Byte) : Dev :=
  { inMode Mode.loading.code with
    cfg := { port := 2, hdr := [1#8], cmd := cmd, taken := [(0, [])], blocks := [⟨0, some 0, 0, l⟩] } }
def hdrOk : List Byte :=
  leBytes 4 0x4C56524F ++ leBytes 2 0x4F52 ++ leBytes 2 0xC192 ++ [1#8, 1#8, 0#8, 0#8] ++ leBytes 4 1 ++ leBytes 4 1 ++ List.replicate 44 0#8
theorem wit_ConfigurationStreams : dev0.mayLoad = true ∧ ({ cfg := { port := 1 } } : Dev).cfg.port = 1 ∧ dev0.flag Pg.cfg F.CFG_STAT_WIPING = false
    ∧ dev0.cfgPaced = false ∧ dev0.mode ≠ Mode.loading.code ∧ (inMode Mode.loading.code).cfg.port ≠ 2 ∧ hdrOk.length = 64
    ∧ (let d := { inMode Mode.loading.code with cfg := { port := 1 } }
       d.headerCodes hdrOk = [] ∧ d.headerCodes (List.replicate 64 0#8) ≠ [])
    ∧ (loadDev none []).cfg.taken = [(0, [])]
    ∧ (nextUnit (loadDev none (List.replicate 8 0#8)).unitLen (loadDev none (List.replicate 8 0#8)).cfg.blocks).map (fun x => cmdWord x.2.2) = some (0, 0, 0, 0)
    ∧ (nextUnit 8 (loadDev none [1#8, 0#8, 1#8, 0#8, 255#8, 215#8, 9#8, 0#8]).cfg.blocks).map (fun x => cmdWord x.2.2) = some (1, 0, 1, 645119)
    ∧ frameRange 0 1 645119 = true
    ∧ (nextUnit (loadDev (some (1, 0, 1, 0)) (List.replicate 256 0#8)).unitLen (loadDev (some (1, 0, 1, 0)) (List.replicate 256 0#8)).cfg.blocks).isSome
    ∧ dev0.clusterBad 0 0#2048 = false ∧ dev0.clusterBad 0 (BitVec.allOnes 2048) = true
    ∧ (nextUnit 8 (loadDev none [2#8, 0#8, 1#8, 0#8, 0#8, 0#8, 0#8, 0#8]).cfg.blocks).map (fun x => cmdWord x.2.2) = some (2, 0, 1, 0)
    ∧ (loadDev (some (2, 0, 1, 0)) []).pairAllowed 0x100 = true ∧ (∀ b ∈ (loadDev (some (3, 0, 0, 0)) []).cfg.blocks, b.last ≤ 0) ∧ (loadDev none []).trainingOver = true
    ∧ (inMode Mode.loading.code).bytesRemain = true ∧ 0 < ({ cfg := { discard := 1 } } : Dev).cfg.discard ∧ dev0.cfg.port = 0
    ∧ (dev0.setReg Pg.cfg 0x110 64#32).fld Pg.cfg F.CFG_HOST_LEN ≠ 0
    ∧ (let d := dev0.setFld Pg.cfg F.CFG_STAT_WIPING 1
       d.flag Pg.cfg F.CFG_STAT_WIPING = true ∧ (d.begin .wipeDone).awaits .wipeDone = false) := by decide +kernel
theorem test_streamHeader_refused : nextIs (exec (.streamHeader (List.replicate 64 0#8)) (on { inMode Mode.loading.code with cfg := { port := 1 } }))
    (fun d => d.mode = Mode.faulted.code && d.fld Pg.cfg (F.ERRCNT 0) = 1) = true := by decide +kernel

/-! Witnesses: bays, scrubber, network. -/

def armedIn (b st : Nat) : Dev := ({ bayDev with ck := 100 } : Dev).setRcfg b st |>.setFld (Pg.bay b) F.BAY_RCFG_CTRL_ARM 1
theorem wit_FusesAndBays : dev0.rst = .running ∧ dev0.mode = Mode.blank.code ∧ dev0.fuses.lock = false ∧ dev0.cfg.fuse = none ∧ dev0.fuses.prog.contains (dev0.setFld Pg.cfg F.CFG_FUSE_SEL_SLOT 1).fuseSlot = false
    ∧ (inMode Mode.ready.code).mode ≠ Mode.blank.code ∧ ({ cfg := { fuse := some (4, 0, 0, 0#256) } } : Dev).cfg.fuse = some (4, 0, 0, 0#256)
    ∧ (7#32).toNat < 8 ∧ (let d := (inMode Mode.ready.code).setDomState (Dom.bay 11) Ds.opened
        d.mode = Mode.ready.code ∧ d.armedBay = none ∧ d.domOpen (Dom.bay 11) = true ∧ d.flag Pg.cfg F.CFG_STAT_WIPING = false)
    ∧ dev0.armed 0 = false ∧ (armedIn 11 Rc.closing).armedBay.isSome ∧ (armedIn 11 Rc.closing).armed 11 = true
    ∧ bitsOf ((armedIn 11 Rc.closing).reg (Pg.bay 11) 0x180).toNat 1 2 = bitsOf (0#32).toNat 1 2
    ∧ (armedIn 11 Rc.closed).rcfg 11 = Rc.closed ∧ (armedIn 11 Rc.closing).rcfg 11 ≠ Rc.closed ∧ (armedIn 11 Rc.closing).rcfg 11 ≠ Rc.failed
    ∧ ((armedIn 11 Rc.closing).bayOf 11).armCk + 2 ≤ (armedIn 11 Rc.closing).ck ∧ (armedIn 11 Rc.closing).engsStopped 11 = true ∧ (armedIn 11 Rc.closing).scrubOn 11 = false
    ∧ (let d := (armedIn 11 Rc.closing).setFld (Pg.newt 191) F.NEWT_STAT_STATE Es.run
       d.engsStopped 11 = false ∧ d.engRetain 11 = false ∧ d.rcfg 11 = Rc.closing)
    ∧ (armedIn 11 Rc.wiping).rcfg 11 = Rc.wiping ∧ (bayDev.setRcfg 11 Rc.opened).rcfg 11 = Rc.opened ∧ bayDev.domOpen (Dom.bay 11) = true
    ∧ bayDev.flag (Pg.bay 11) F.BAY_SNAP_CTRL_HOLD = false ∧ (bayDev.setRcfg 11 Rc.closed).rcfg 11 ≠ Rc.opened := by decide +kernel
theorem test_bayArm : nextIs (exec (.bayArm 11 5#32) (on ((inMode Mode.ready.code).setDomState (Dom.bay 11) Ds.opened)))
    (fun d => d.armed 11 && d.engRetain 11 == false && d.rcfg 11 = Rc.closing) = true := by decide +kernel

/-- The scrubber at the last frame: its signature holds, or does not; a shadow on an online channel. -/
def scrubAt (w : Word) : Dev :=
  let d := { bayDev with fab := { sigs := [(645119, w)] } }.setRcfg 11 Rc.opened
  ((d.setFld Pg.scrub F.SCRUB_CTRL_EN 1).setFld Pg.scrub F.SCRUB_BAYS_MASK 4095).setFld Pg.scrub F.SCRUB_POS_FRAME 645119
theorem wit_ConfigurationScrubber :
    (let d := scrubAt (signature 0#2048)
     d.rst = .running ∧ d.flag Pg.scrub F.SCRUB_STAT_FILLING = false ∧ d.scrub.repair = none ∧ d.started = true ∧ d.flag Pg.scrub F.SCRUB_CTRL_EN = true
     ∧ d.cfg.cmd = none ∧ d.scrubs (d.fld Pg.scrub F.SCRUB_POS_FRAME / 53760) = true ∧ d.fld Pg.scrub F.SCRUB_POS_FRAME = 645119
     ∧ sfind d.fab.sigs 645119 = some (signature 0#2048) ∧ signature (d.clusterFrame 645119 ^^^ 0#2048) = signature 0#2048
     ∧ signature (d.clusterFrame 645119 ^^^ 1#2048) ≠ signature 0#2048 ∧ d.flag Pg.scrub F.SCRUB_CTRL_REPAIR = false)
    ∧ (let d := (drcIn Ch.online).setFld Pg.scrub F.SCRUB_SHADOW_CFG_CHAN 15 |>.setFld Pg.scrub F.SCRUB_SHADOW_CFG_EN 1
       d.shadowEn = true ∧ d.chanOnline d.shadowChan = true ∧ d.flag Pg.scrub F.SCRUB_STAT_FILLING = false ∧ d.shadowOff 0 + 165150720 ≤ d.chanCap d.shadowChan)
    ∧ dev0.shadowEn = false ∧ (dev0.setFld Pg.scrub F.SCRUB_STAT_FILLING 1).flag Pg.scrub F.SCRUB_STAT_FILLING = true := by decide +kernel

theorem wit_RoutingTables :
    (let d := dev0.setFld (Pg.noc 1) F.NOC_STAT_TOPO 1
     d.fitted 1 = true ∧ d.flag (Pg.noc 1) F.NOC_STAT_OLD_LIVE = false ∧ d.flag (Pg.noc 1) F.NOC_STAT_SWAP_BUSY = false)
    ∧ dev0.fitted 0 = false ∧ (dev0.setFld (Pg.noc 1) F.NOC_STAT_SWAP_BUSY 1).flag (Pg.noc 1) F.NOC_STAT_SWAP_BUSY = true
    ∧ (dev0.setFld (Pg.noc 1) F.NOC_STAT_OLD_LIVE 1).flag (Pg.noc 1) F.NOC_STAT_OLD_LIVE = true ∧ dev0.epochOut 1 (1 - dev0.fld (Pg.noc 1) F.NOC_STAT_EPOCH) = false
    ∧ ({ nocReqs := [(1, { who := .inspect, src := Ep.newt 191, dst := Ep.newt 191, op := .read, addr := 0, len := 8, cls := 4, ph := .transit, epoch := 1 })] } : Dev).epochOut 1 1 = true
    ∧ (0xFFFD#32).toNat < 2 ^ 16 ∧ (0xFFFD#32).toNat % 8 < 6 ∧ 6 ≤ (0xFFFE#32).toNat % 8 ∧ (4095#32).toNat < 4096 ∧ (0#32).toNat ∉ (dev0.nocOf 0).dead := by decide +kernel

def nReqA : NocReq := { who := .inspect, src := Ep.newt 0, op := .read, addr := Na.gecko, len := 32, cls := 4, dst := Ep.gecko 0 }
def reqIn (r : NocReq) : Dev := { dev0 with nocReqs := [(1, r)] }
theorem wit_NetworkRequests : (reqIn nReqA).rst = .running ∧ sfind (reqIn nReqA).nocReqs 1 = some nReqA ∧ nReqA.ph = .source ∧ nReqA.host = false
    ∧ decodeReq 0 8 = none ∧ decodeReq Na.gecko 32 = some (.gecko 0 0) ∧ (dev0.setDomState Dom.spine Ds.opened).domOpen Dom.spine = true
    ∧ dev0.bridged nReqA.src (tgtEp 0 (.gecko 0 0)) = true ∧ (dev0.setFld Pg.steward F.STEWARD_STAT_BRIDGE_OK 0).bridged nReqA.src (tgtEp 0 (.gecko 2 0)) = false
    ∧ dev0.linkRuns = [] ∧ dev0.fitted 1 = false
    ∧ (({ nocs := [(0, { dead := [Ep.gecko 0] })] } : Dev).nocOf 0).dead = [Ep.gecko 0]
    ∧ (let d : Dev := { reqIn nReqA with nocs := [(0, { dead := [Ep.newt 0] })] }
       d.bridged nReqA.src (tgtEp 0 (.gecko 0 0)) = true ∧ nReqA.src ∈ (d.nocOf (epHalf nReqA.src)).dead) ∧ nReqA.src ∉ (dev0.nocOf 0).dead
    ∧ epHalf (Ep.gecko 0) = 0 ∧ Ep.gecko 0 ∉ (dev0.nocOf 0).dead
    ∧ (dev0.setFld Pg.pmc (forcedFld 63) 1).forced 63 = true ∧ dev0.forced 63 = false ∧ (dev0.setDomState 63 Ds.closed).domState 63 = Ds.closed
    ∧ dev0.nocReqs.countP (fun (x : Nat × NocReq) => x.2.ph = .held && x.2.dst = 0) < 4
    ∧ 4 ≤ ({ nocReqs := (List.range 4).map (fun i => (i, { nReqA with ph := .held, dst := 0 })) } : Dev).nocReqs.countP (fun (x : Nat × NocReq) => x.2.ph = .held && x.2.dst = 0)
    ∧ (dev0.setDomState (Dom.gecko 0) Ds.opened).domState (Dom.gecko 0) = Ds.opened ∧ dev0.forced (Dom.gecko 0) = false ∧ decodeReq (Na.gecko + 0x7FFF8) 8 = some (.gecko 0 0x7FFF8)
    ∧ decodeReq (Na.reg + 0x4000) 4 = some (.regs 0x4000) ∧ retryable Ns.busy = true
    ∧ dev0.ins.perstLow = false ∧ ({ ins := { perstLow := true } } : Dev).ins.perstLow = true ∧ 0x3FFFFFC < 2 ^ 26 ∧ [0x1#4] ≠ [0xF#4]
    ∧ 0x3F8 < 0x400 ∧ 0x3F8 % 4 = 0 ∧ 0x3F8 % 16 ≠ 12 := by decide +kernel
theorem wit_NetworkRequests_sram : ∀ c off, NocTgt.gecko 0 0 ≠ .dram c off := by
  intro c off h
  cases h
theorem test_nocRequest_begins : nextIs (exec (.nocInject 1 0) (on ((reqIn nReqA).setDomState Dom.spine Ds.opened)))
    (fun d => (sfind d.nocReqs 1).any (fun r => r.ph = .transit && r.dst = Ep.gecko 0)) = true := by decide +kernel

/-! Witnesses: steward, host, DMA. -/

/-- A flash with a boot header and an image of 32 zero bytes at 20H, and at the fallback's place. -/
def bootDev (fb : Bool) : Dev :=
  let hd := leBytes 4 0x4B434547 ++ leBytes 4 32 ++ leBytes 4 32 ++ leBytes 8 Na.gecko ++ leBytes 4 (crc32c (List.replicate 32 0#8)).toNat
  let img := (List.range 32).map (fun i => (Na.flash + 32 + i, 0#8))
  let at_ (b : Nat) := ((hd ++ leBytes 4 (crc32c hd).toNat).zipIdx).map (fun x => (Na.flash + b + x.2, x.1))
  { ck := 1000, boot := some (7, fb), mem := at_ 0 ++ img ++ at_ 0x1000000 }
theorem wit_StewardAndBoot_images (fb : Bool) : (bootDev fb).boot = some (7, fb) ∧ (bootDev fb).bootImage fb = some (32, 32, Na.gecko)
    ∧ (bootDev fb).imageOk fb 32 32 = true ∧ dev0.bootImage fb = none := by cases fb <;> decide +kernel
def aliveDev : Dev := (runs 194).setFld Pg.steward F.STEWARD_STAT_BRIDGE_OK 1
theorem wit_StewardAndBoot : (let d := (List.range 4).foldl (fun (d : Dev) k => d.setFld (Pg.gecko k) F.GECKO_STAT_STATE Gs.stopped) dev0
      ∀ k, k < 4 → d.tgtState (192 + k) = Gs.reset ∨ d.tgtState (192 + k) = Gs.stopped)
    ∧ (runs 195).tgtState 195 ≠ Gs.reset ∧ (runs 195).tgtState 195 ≠ Gs.stopped
    ∧ aliveDev.stewardHalf = 0 ∧ aliveDev.complexAlive 1 = true ∧ aliveDev.complexAlive 0 = false ∧ aliveDev.bridgeOk = true
    ∧ aliveDev.flag Pg.pmc F.PMC_STAT_STEWARD_LIVE = false ∧ aliveDev.tokenCk = none ∧ (runs 193).complexAlive 0 = true
    ∧ (({ aliveDev with tokenCk := some 0 } : Dev).tokenCk = some 0) ∧ (dev0.setFld Pg.steward F.STEWARD_STAT_BRIDGE_OK 0).bridgeOk = false ∧ dev0.heldMode 0 = dev0.heldMode 1 := by decide +kernel
theorem test_bootDone_badImage : nextIs (exec .bootDone (on { boot := some (0, true) }))
    (fun d => d.boot.isNone && d.fld Pg.steward F.STEWARD_BOOT_STAT_STATE = 3) = true := by decide +kernel

/-- A host ring of 4 entries with CMD_EN; entries by OP and operand bytes, and the command each spells. -/
def ringDev : Dev := (dev0.setFld Pg.hostif F.HOSTIF_CMD_CFG_LOG2 6).setFld Pg.hostif F.HOSTIF_CTRL_CMD_EN 1
def entry (n op : Nat) (l : List Byte) : List Byte := (leBytes 4 n ++ [BitVec.ofNat 8 op, 1#8, 0#8, 0#8] ++ l ++ List.replicate 64 0#8).take 64
def cmdOf (op : Nat) (l : List Byte) (phase : Nat) : HostCmd := { hseq := 1, op := op, flags := 1, bytes := entry 1 op l, phase := phase }
theorem wit_HostCommands : (63#32).toNat < 2 ^ 16 ∧ (63#32).toNat < 2 ^ ringDev.fld Pg.hostif F.HOSTIF_CMD_CFG_LOG2 ∧ 2 ^ ringDev.fld Pg.hostif F.HOSTIF_CMD_CFG_LOG2 ≤ (64#32).toNat
    ∧ ringDev.flag Pg.hostif F.HOSTIF_CTRL_CMD_EN = true ∧ ringDev.flag Pg.hostif F.HOSTIF_STAT_CMD_HALTED = false ∧ ringDev.hcmd = none ∧ ringDev.fetching = false ∧ ringDev.bar0Owed = false
    ∧ ({ ringDev with cmdBell := 2, nocReqs := [(1, { who := .pcie none, src := Ep.pcie, op := .write, addr := Na.reg, len := 4, cls := 0 })] } : Dev).bar0Owed = true
    ∧ ringDev.fld Pg.hostif F.HOSTIF_CMD_HEAD_IDX ≠ (63#32).toNat ∧ (entry 1 7 []).length = 64 ∧ (cmdOf 7 [] 0).reserved = false ∧ (cmdOf 7 [1#8] 0).reserved = true
    ∧ (cmdOf 7 [] 0).event = .nopCmd ∧ (cmdOf 1 [1#8] 0).event = .regWrite ∧ (cmdOf 2 [1#8] 1).event = .regRead ∧ (cmdOf 2 [1#8] 1).at 8 1 ≤ (cmdOf 2 [1#8] 1).phase
    ∧ (cmdOf 3 [4#8] 0).event = .mode ∧ dev0.stewardHalf = 0 ∧ (inMode Mode.ready.code).requestErrors ((cmdOf 3 [4#8] 0).at 8 1) false = []
    ∧ dev0.requestErrors ((cmdOf 3 [4#8] 0).at 8 1) false ≠ []
    ∧ (cmdOf 4 [0#8, 3#8] 0).event = .sched ∧ (((dev0.begin .sched).evsDrop 0 0).2 ≠ 2)
    ∧ (cmdOf 5 [3#8] 1).event = .flush ∧ (∀ h ∈ setBits ((cmdOf 5 [3#8] 1).at 8 1) 2, dev0.flag (Pg.cq h) F.CQ_STAT_FLUSH_PEND = false)
    ∧ (∀ h ∈ setBits ((cmdOf 5 [2#8] 1).at 8 1) 2, (dev0.setFld (Pg.cq 1) F.CQ_STAT_FLUSH_PEND 1).flag (Pg.cq h) F.CQ_STAT_FLUSH_PEND = true)
    ∧ (cmdOf 6 [0#8, 0#8, 1#8] 0).event = .seek ∧ (dev0.setFld (Pg.idx 1) F.IDX_STAT_SEEK_BUSY 1).flag (Pg.idx ((cmdOf 6 [0#8, 0#8, 1#8] 0).at 10 1)) F.IDX_STAT_SEEK_BUSY = true
    ∧ (cmdOf 0x80 [] 0).event = .firmwareCommand ∧ (dev0.setFld Pg.hostif F.HOSTIF_STAT_FW_PEND 1).flag Pg.hostif F.HOSTIF_STAT_FW_PEND = true
    ∧ (0xFFFF0004#32).toNat % 8 = 4 ∧ bitsOf (0xFFFF0004#32).toNat 3 13 = 0 ∧ dev0.fwWaits = false
    ∧ 0x80 ≤ (dev0.setFld Pg.hostif (F.HOSTIF_FW_EVT 2) 0x80).fld Pg.hostif (F.HOSTIF_FW_EVT 2) % 256 ∧ dev0.fld Pg.hostif (F.HOSTIF_FW_EVT 2) % 256 < 0x80
    ∧ (let d := (dev0.setFld Pg.hostif F.HOSTIF_EVT_CFG_LOG2 6).setFld Pg.hostif F.HOSTIF_CTRL_EVT_EN 1
       d.evtReady = true) ∧ dev0.evtReady = false ∧ ({ hostEvs := [0#512] } : Dev).hostEvs = [0#512] := by decide +kernel
/-- REG_READ of DEV_ID: its first register reads. -/
theorem wit_HostCommands_read : ((({ dev0 with hcmd := some (cmdOf 2 [1#8] 0) } : Dev).begin .regRead).readReg ((cmdOf 2 [1#8] 0).at 16 4) false .host).2.isSome = true
    ∧ (cmdOf 2 [1#8] 0).phase < (cmdOf 2 [1#8] 0).at 8 1 := by decide +kernel

/-- A descriptor that moves 2,112 bytes between the local memories; channel 63 in each state; a burst with its data. -/
def dmaDesc (src len : Nat) : List Byte := leBytes 8 src ++ leBytes 8 (Na.gecko + 2 ^ 32) ++ leBytes 4 len ++ List.replicate 44 0#8
def dmaIn (st : Nat) (x : DmaSt) : Dev := { dev0 with dmas := [(63, x)] }.setDmaState 63 st
def dmaReq (p : Nat) (status : Nat) (l : List Byte) : NocReq :=
  { who := .dma 63 p, src := Ep.dma 1 31, op := .read, addr := Na.gecko, len := 64, cls := 1, ph := .done, status := status, data := l }
theorem wit_DmaChannels : bit (1#32).toNat 2 = false ∧ dev0.dmaFree 63 = true ∧ dev0.reg64 (Pg.dmach 63) 0x100 % 64 = 0
    ∧ (dev0.setReg (Pg.dmach 63) 0x100 1#32).reg64 (Pg.dmach 63) 0x100 % 64 ≠ 0 ∧ (dmaIn Dc.run {}).dmaFree 63 = false ∧ (dmaIn Dc.run {}).dmaState 63 = Dc.run
    ∧ (dmaIn Dc.paused {}).dmaState 63 = Dc.paused ∧ (dmaIn Dc.paused {}).flag (Pg.dmach 63) F.DMACH_STAT_PWR = false ∧ (dmaIn Dc.fetch {}).dmaState 63 = Dc.fetch
    ∧ sfind ({ nocReqs := [(9, dmaReq 0 0 (dmaDesc Na.gecko 2112))] } : Dev).nocReqs 9 = some (dmaReq 0 0 (dmaDesc Na.gecko 2112))
    ∧ ({ desc := dmaDesc Na.gecko 2112 } : DmaSt).refusals = [] ∧ ({ desc := dmaDesc (Na.gecko + 1) 0 } : DmaSt).refusals = [1, 2]
    ∧ retryable Ns.decode = false ∧ Ns.decode ≠ Ns.ok ∧ retryable Ns.busy = true ∧ sget 0 ({} : DmaSt).retries 8 < 16
    ∧ (let x : DmaSt := { desc := dmaDesc Na.gecko 2112, bursts := [{ no := 0, off := 0, len := 2048, data := some (List.replicate 2048 0#8), issued := true, writes := 1 }] }
       (x.bursts.find? (fun b => b.no = (8 - 8) / 2)).any (fun b => decide (b.writes ≤ 1)) = true ∧ x.abort = false ∧ x.halt = none)
    ∧ 32 ≤ ((List.range 32).map (fun i => 32 * 1 + i)).foldl (fun n j => n + (({ dmas := (List.range 4).map (fun i => (32 + i,
        { bursts := (List.range 8).map (fun n => { no := n, off := 0, len := 64 }) })) } : Dev).dmaOf j).flying) 0
    ∧ (let d := dmaIn Dc.run { desc := dmaDesc Na.gecko 2112 }
       d.dmaChoose 1 (((List.range 32).map (fun i => 32 * 1 + i)).filter d.dmaReady) = some (63, false) ∧ ((List.range 32).map (fun i => (d.dmaOf (32 + i)).flying)).foldl (· + ·) 0 < 32)
    ∧ (dmaIn Dc.pausing {}).dmaState 63 = Dc.pausing ∧ (({ fin := some 255 } : DmaSt).fin = some 255) ∧ bit ({ desc := dmaDesc 0 0 } : DmaSt).ctl 6 = false := by decide +kernel
theorem test_dmaDescEnd : nextIs (exec (.dmaDescEnd 63) (on (dmaIn Dc.run { desc := dmaDesc Na.gecko 2112, fin := some 0 })))
    (fun d => d.dmaState 63 = Dc.done && d.fld (Pg.dmach 63) F.DMACH_DESC_CNT = 1) = true := by decide +kernel

/-! Witnesses: debug, power. -/

def dbgOn (t : Nat) (d : Dev) : Dev := d.setFld Pg.dbg F.DBG_SEL_TARGET t
def stopped (t : Nat) : Dev :=
  dbgOn t (if t < 192 then dev0.setFld (Pg.newt t) F.NEWT_STAT_STATE Es.monitor else dev0.setFld (Pg.gecko (t - 192)) F.GECKO_STAT_STATE Gs.monitor)
theorem wit_DebugCommands : (dbgOn 191 (runs 191)).dbgSel = 191 ∧ (dbgOn 191 (runs 191)).flag Pg.dbg F.DBG_CTRL_DISABLE = false
    ∧ (dbgOn 191 (runs 191)).engState 191 = Es.run ∧ ((dbgOn 191 (runs 191)).dbgOf 191).stop = none
    ∧ (dev0.setFld Pg.dbg F.DBG_CTRL_DISABLE 1).flag Pg.dbg F.DBG_CTRL_DISABLE = true ∧ dev0.inMonitor dev0.dbgSel = false
    ∧ (stopped 191).inMonitor (stopped 191).dbgSel = true ∧ ((stopped 191).engOf 191).stopping = false ∧ ((stopped 191).dbgOf 191).caught = false
    ∧ (stopped 195).inMonitor (stopped 195).dbgSel = true ∧ dev0.dbgRegOk 0 = false ∧ (stopped 191).dbgRegOk 191 = true ∧ (stopped 191).accessDue true = none
    ∧ (stopped 191).accessDue false = none ∧ dev0.accessDue true = none ∧ (({ stopped 191 with dbgs := [(191, { regDue := some 0 })] } : Dev).accessDue false = some 191)
    ∧ (let d := ({ stopped 191 with dbgs := [(191, { regDue := some 0, regWr := true })] } : Dev).setTfld 191 F.DBG_REG_SEL_NUM 31
       d.dbgRegOk 191 = true ∧ d.accessDue true = some 191 ∧ d.tfld 191 F.DBG_REG_SEL_SPACE = 0 ∧ d.tfld 191 F.DBG_REG_SEL_NUM = 31)
    ∧ (dev0.setTreg 0 (rngOff 8 4) (BitVec.ofNat 32 ((1#32).toNat &&& 0x3FF))).rangeRefused 0 8 = true
    ∧ (dev0.setTreg 0 (rngOff 11 5) (BitVec.ofNat 32 ((0xFFFFFFFF#32).toNat &&& 0xFFFF))).rangeRefused 0 11 = false
    ∧ dev0.inspecting = false ∧ (dev0.fld Pg.dbg F.DBG_IM_ADDR_LO + 2 ^ 32 * dev0.fld Pg.dbg F.DBG_IM_ADDR_HI) % 32 = 0
    ∧ (({ nocReqs := [(1, { who := .inspect, src := Ep.inspect, op := .read, addr := 0, len := 32, cls := 4 })] } : Dev).inspecting = true) := by decide +kernel
theorem test_halt_notRunning : nextIs (exec .halt (on (dbgOn 191 dev0))) (fun d => d.fld Pg.dbg F.DBG_RUN_CMD_STATUS = 2) = true := by decide +kernel

def domIn (k st : Nat) : Dev := dev0.setDomState k st
theorem wit_PowerThermalAndSupplies_domains : (domIn 63 Ds.closing).domState 63 = Ds.closing ∧ (domIn (Dom.bay 11) Ds.closing).drained (Dom.bay 11) = true
    ∧ ((domIn (Dom.bay 11) Ds.closing).setFld (Pg.newt 191) F.NEWT_STAT_STATE Es.run).drained (Dom.bay 11) = false
    ∧ (domIn (Dom.bay 11) Ds.opening).domState (Dom.bay 11) = Ds.opening ∧ Dom.bay 11 ∉ dev0.pmc.later
    ∧ bitsOf (BitVec.ofNat 32 (Dom.bay 11)).toNat 6 2 = 0 ∧ bitsOf (BitVec.ofNat 32 (Dom.bay 11)).toNat 10 22 = 0 ∧ bitsOf (BitVec.ofNat 32 (Dom.bay 11)).toNat 0 6 = Dom.bay 11
    ∧ ((domIn (Dom.bay 11) Ds.opened).setRcfg 11 Rc.opened).domState (Dom.bay 11) = Ds.opened ∧ ((domIn (Dom.bay 11) Ds.opened).setRcfg 11 Rc.opened).closeRefused (Dom.bay 11) = false
    ∧ ((domIn (Dom.bay 11) Ds.opened).setRcfg 11 Rc.failed).closeRefused (Dom.bay 11) = true
    ∧ (dev0.setFld Pg.pmc (forcedFld 31) 1).forced 31 = true ∧ (domIn 31 Ds.closed).forced 31 = false ∧ (domIn 31 Ds.closed).domState 31 = Ds.closed := by decide +kernel
def rampDev (v : Nat) : Dev :=
  let d := { dev0 with started := true, pmc := { steps := [(7, v)] } }
  (((d.setFld Pg.pmc (F.PMC_RAIL_CFG_RAMPING 7) 1).setFld Pg.pmc (F.PMC_RAIL_CFG_EN 7) 1).setFld Pg.pmc (F.PMC_RAIL_LIMIT_MAX_MV 7) 900).setFld Pg.pmc (F.PMC_RAIL_TARGET_MV 7) 900
theorem wit_PowerThermalAndSupplies_rails : dev0.sources = [] ∧ (dev0.fld Pg.therm ⟨0x00C, 12 + 11, 1⟩ = 0)
    ∧ bit ((dev0.setFld Pg.pmc F.PMC_STAT_MON_OK 127).fld Pg.pmc F.PMC_STAT_MON_OK) 7 = false ∧ 7 ∉ dev0.pmc.groupFault
    ∧ bit ((dev0.setFld Pg.pmc F.PMC_STAT_MON_OK 255).fld Pg.pmc F.PMC_STAT_MON_OK) 7 = true
    ∧ (dev0.setFld Pg.pmc F.PMC_STAT_MON_OK 255).suppliesGood = true ∧ (dev0.setFld Pg.pmc F.PMC_STAT_MON_OK 127).suppliesGood = false
    ∧ (rampDev 850).flag Pg.pmc (F.PMC_RAIL_CFG_EN 7) = true ∧ (65535#32).toNat < 65536
    ∧ dev0.flag Pg.pmc (F.PMC_RAIL_CFG_EN 7) = false
    ∧ (let d := (rampDev 850).setFld Pg.pmc (F.PMC_RAIL_CFG_RAMPING 7) 0
       ¬ (900 < d.fld Pg.pmc (F.PMC_RAIL_LIMIT_MIN_MV 7)) ∧ ¬ (d.fld Pg.pmc (F.PMC_RAIL_LIMIT_MAX_MV 7) < 900) ∧ d.flag Pg.pmc (F.PMC_RAIL_CFG_EN 7) = true
       ∧ d.flag Pg.pmc (F.PMC_RAIL_CFG_RAMPING 7) = false ∧ d.mode ≠ Mode.safe.code ∧ d.started = true)
    ∧ (rampDev 850).flag Pg.pmc (F.PMC_RAIL_CFG_RAMPING 7) = true
    ∧ (rampDev 850).fld Pg.pmc F.PMC_RAMP_TOL_MV < max (65535#16).toNat 850 - min (65535#16).toNat 850
    ∧ max (850#16).toNat 850 - min (850#16).toNat 850 ≤ (rampDev 850).fld Pg.pmc F.PMC_RAMP_TOL_MV ∧ 850 ≠ (rampDev 850).fld Pg.pmc (F.PMC_RAIL_TARGET_MV 7)
    ∧ sget 0 (rampDev 900).pmc.steps 7 = (rampDev 900).fld Pg.pmc (F.PMC_RAIL_TARGET_MV 7) := by decide +kernel
theorem test_thermalSample_warns : nextIs (exec (.thermalSample 11 440 true) (on dev0))
    (fun d => d.fld Pg.therm ⟨0x00C, 11, 1⟩ = 1 && d.fld Pg.therm (F.THERM_BAY_TEMP 11) = 440) = true := by decide +kernel
theorem test_thermalSample_shutsDown : nextIs (exec (.thermalSample 0 540 true) (on dev0)) (fun d => d.thermTrip && d.rst ≠ .running) = true := by decide +kernel

/-! Witnesses: a pair. -/

/-- A paired device: role, state, link; what an accepted message needs. -/
def pairDev (role st : Nat) : Dev :=
  (((dev0.setFld Pg.pair F.PAIR_CTRL_EN 1).setFld Pg.pair F.PAIR_STAT_ROLE role).setFld Pg.pair F.PAIR_STAT_STATE st).setFld Pg.pair F.PAIR_STAT_LINK 2
def pairLed (role st : Nat) : Dev := (pairDev role st).settle
theorem wit_pins : dev0.settle.pins = dev0.settle.pinsOf ∧ (pairLed 1 5).pins = (pairLed 1 5).pinsOf ∧ (pairLed 2 4).pins = (pairLed 2 4).pinsOf := by decide +kernel
/-- Message types with the length of each (Table 24-2). -/
def msgSizes : List (Nat × Nat) := [(1, 32), (2, 32), (3, 32), (4, 32), (5, 32), (6, 544), (7, 544), (8, 32), (9, 288), (10, 32)]
theorem sized : ∀ p ∈ msgSizes, unitsOk p.1 p.2 = true := by decide +kernel
theorem wit_accepts (typ n : Nat) (h : (typ, n) ∈ msgSizes) :
    (pairLed 1 5).accepts typ 1#32 true (List.replicate n 0#8) ∧ (pairDev 2 2).accepts typ 1#32 true (List.replicate n 0#8) := by
  have e : (pairLed 1 5).linkUp = true ∧ (1#32).toNat = nextSeq ((pairLed 1 5).fld Pg.pair F.PAIR_RX_SEQ) ∧ (pairLed 1 5).pair.sendq = []
    ∧ (pairDev 2 2).linkUp = true ∧ (1#32).toNat = nextSeq ((pairDev 2 2).fld Pg.pair F.PAIR_RX_SEQ) ∧ (pairDev 2 2).pair.sendq = [] := by decide +kernel
  have u : unitsOk typ (List.replicate n (0#8 : Byte)).length = true := by
    rw [List.length_replicate]
    exact sized (typ, n) h
  exact ⟨⟨e.1, rfl, u, e.2.1, e.2.2.1⟩, ⟨e.2.2.2.1, rfl, u, e.2.2.2.2.1, e.2.2.2.2.2⟩⟩

def training : Dev := ((dev0.setFld Pg.pair F.PAIR_CTRL_EN 1).setFld Pg.pair F.PAIR_STAT_LINK 1).settle
/-- A device whose last HEARTBEAT is `age` old. -/
def aged (role age : Nat) (okIn side : Bool) : Dev :=
  let d := (pairDev role Ps.degraded).setFld Pg.pair F.PAIR_HB_TIMEOUT 1000 |>.setFld Pg.pair F.PAIR_HB_YIELD 500
  ({ d with ck := 2000, ins := { pairOkIn := okIn, pairSide := side }, pair := { d.pair with hbCk := 2000 - age } } : Dev).settle
theorem wit_PairLinkAndRoles : training.pairEn = true ∧ training.fld Pg.pair F.PAIR_STAT_LINK = 1 ∧ training.pins = training.pinsOf
    ∧ (training.begin .scarfTrainingTimeout).awaits .scarfTrainingTimeout = false ∧ dev0.settle.linkUp = false ∧ (pairLed 1 5).linkUp = true
    ∧ dev0.settle.pairEn = false ∧ (inMode Mode.ready.code).settle.stewardMode = Mode.ready.code ∧ (inMode Mode.ready.code).settle.pairEn = false ∧ dev0.settle.stewardMode ≠ Mode.ready.code
    ∧ isOperating dev0.settle.stewardMode = false ∧ dev0.settle.stewardMode ≠ Mode.offload.code
    ∧ unitsOk 2 33 = false ∧ (0xFFFFFFFF#32).toNat ≠ nextSeq 0 ∧ signed 32 (((0xFFFFFFFF#32).toNat + 2 ^ 32 - 0) % 2 ^ 32) ≤ 0 ∧ 0 < signed 32 (((2#32).toNat + 2 ^ 32 - 0) % 2 ^ 32)
    ∧ (pairLed 1 5).pair.muted = false ∧ (pairLed 1 5).side = 0
    ∧ (List.range 4).all (fun j => decide (pf (List.replicate 16 0#8 ++ 1#8 :: List.replicate 15 0#8) (4 * j) 4 = (pairLed 1 5).fld Pg.cfg (F.CFG_DESIGN j))) = true
    ∧ pf (List.replicate 16 0#8 ++ 1#8 :: List.replicate 15 0#8) 16 1 ≠ (pairLed 1 5).side ∧ pf (List.replicate 32 0#8) 16 1 = (pairLed 1 5).side
    ∧ (pairLed 1 5).replayFill + 48 ≤ 65536 ∧ (aged 1 500 true false).yieldDue = true ∧ (aged 1 499 true false).yieldDue = false
    ∧ (aged 2 1000 true true).yieldDue = false ∧ (aged 2 1000 true true).timeoutDue = true ∧ (aged 2 1000 true true).ins.pairOkIn = true
    ∧ (aged 1 1000 false true).timeoutDue = true ∧ (aged 1 1000 false true).side = 1 ∧ (aged 1 999 false true).timeoutDue = false
    ∧ (aged 2 0 true false).pairJudges = true ∧ (pairLed 1 4).pairState = Ps.inStep ∧ (pairLed 1 4).pairRole = Ps.lead ∧ (pairLed 1 6).pairState = Ps.isolated
    ∧ bit (pf (List.replicate 10 0#8 ++ 12#8 :: List.replicate 21 0#8) 10 1) 3 = true ∧ bit (pf (List.replicate 10 0#8 ++ 4#8 :: List.replicate 21 0#8) 10 1) 2 = true := by
  decide +kernel

theorem wit_PairMirrorAndResync : (pairDev 2 2).isShadow = true ∧ (pairDev 2 2).pairState = Ps.align ∧ (pairDev 2 2).alignRecs = [] ∧ (pairDev 2 2).pair.aligned = false
    ∧ (pairDev 2 2).pair.applied = false ∧ (pairDev 2 2).writeDue ⟨0, 0, 0#32⟩ = true ∧ (pairDev 2 2).writeDue ⟨1, 0, 0#32⟩ = false ∧ (pairDev 1 5).isShadow = false
    ∧ (pairDev 1 5).pair.resyncs = [] ∧ (pairDev 2 2).pair.theirs = [] ∧ setBits (pf (List.replicate 544 0#8) 32 512) 4096 = []
    ∧ ({ pair := { own := [{ half := 0, epoch := 0 }] } } : Dev).pair.own.find? (fun x => x.half = pf (List.replicate 544 0#8) 8 1 % 2 && x.epoch = pf (List.replicate 544 0#8) 0 8)
        = some { half := 0, epoch := 0 }
    ∧ (pairDev 1 5).isLead = true ∧ (pairDev 1 5).linkUp = true ∧ dev0.isShadow = false ∧ dev0.isLead = false
    ∧ ({ pair := { peer := Ps.align } } : Dev).pair.peer = Ps.align
    ∧ (pairDev 1 5).leadReady ⟨0, 7, 0, 0, none⟩ = true ∧ ((pairDev 1 5).setFlowFld 0 7 FL_EN 1 |>.setFlowFld 0 7 FL_CUR_ENGINE 255).leadReady ⟨0, 7, 0, 0, none⟩ = true
    ∧ ((pairDev 1 5).setFlowFld 0 7 FL_EN 1 |>.setFlowFld 0 7 FL_CUR_ENGINE 255).leadReady ⟨0, 7, 5, 0, none⟩ = false
    ∧ (pairDev 2 4).shadowReady ⟨0, 7, 0, 0, none⟩ = false
    ∧ (let d := { (pairDev 2 4).setFlowFld 0 7 FL_CUR_ENGINE 95 with engs := [(95, { slots := [(7, 63)] })] }
       d.shadowReady ⟨0, 7, 0, 0, some (List.replicate 256 1#8)⟩ = true ∧ d.curEngine 0 7 < 192 ∧ sfind (d.engOf (d.curEngine 0 7)).slots 7 = some 63)
    ∧ (let d := (pairDev 2 4).setFlowFld 1 4095 FL_EN 1
       4095 ∈ d.listedFlows 1 ∧ d.flowEn 1 4095 = true ∧ d.flowFld 1 4095 FL_BYPASS ≠ 1)
    ∧ dev0.takeWrite [] = none ∧ dev0.takeWrite [⟨1, 0, 0#32⟩, ⟨0, 0x100, 0#32⟩] = some (⟨0, 0x100, 0#32⟩, [⟨1, 0, 0#32⟩]) := by decide +kernel
theorem test_claim : nextIs (exec .claim (on (pairLed 1 6))) (fun d => d.pairState = Ps.degraded) = true := by decide +kernel

end Sys2Proof.Tests
end

section
/-! PROOFS. Registers at the end of a command: where an address lies, what settling keeps, what a counted error leaves in ERR_FIRST. -/

namespace Sys2Proof.Machine

/-! Addresses and pages. -/

theorem raddr_div (pg : Nat) {off : Nat} (h : off < 4096) : raddr pg off / 4096 = pg := by
  unfold raddr
  omega

theorem raddr_mod (pg : Nat) {off : Nat} (h : off < 4096) : raddr pg off % 4096 = off := by
  unfold raddr
  omega

@[simp] theorem raddr_div_mod (addr : Nat) : raddr (addr / 4096) (addr % 4096) = addr := by
  unfold raddr
  omega

theorem wfAddr_raddr {pg off : Nat} (hp : pg < 16384) (ho : off < 4096) (h4 : off % 4 = 0) : wfAddr (raddr pg off) = true := by
  have hlt : raddr pg off < 16384 * 4096 := by unfold raddr; omega
  have hal : raddr pg off % 4 = 0 := by unfold raddr; omega
  unfold wfAddr
  rw [decide_eq_true hlt, decide_eq_true hal]
  rfl

/-- PAIR_STAT, the one register that the end of a command may change (R460), stands at offset 0x00C of its page. -/
theorem pairStat_ne_raddr (pg : Nat) {off : Nat} (h : off < 4096) (ho : off ≠ 0x00C) : raddr Pg.pair F.PAIR_STAT_STATE.off ≠ raddr pg off :=
  fun e => ho (raddr_inj (by decide) h e).2.symm

/-- The pages of Table 25-2 do not overlap: page `i` of a block is that block's (R475). -/
theorem blkOfPage_page (b : Blk) : ∀ i < b.count, blkOfPage (b.page i) = some (b, i) := by
  cases b <;> decide +kernel

theorem regDesc_mem {b : Blk} {off : Nat} {r : RegDesc} (h : regDesc b off = some r) : r ∈ hdrTable ++ b.table := by
  unfold regDesc at h
  split at h
  · next r' hf =>
    cases h
    exact List.mem_append_left _ (List.mem_of_find?_eq_some hf)
  · exact List.mem_append_right _ (List.mem_of_find?_eq_some h)

theorem rowOf_of_regDesc {b : Blk} {off : Nat} {r : RegDesc} (h : regDesc b off = some r) : rowOf b off = r := by
  unfold rowOf
  rw [h]

/-! The end of a command. -/

theorem Dev.pairDrop_out (d : Dev) (was : Bool) : (d.pairDrop was).out = d.out := by
  unfold Dev.pairDrop
  split_ifs
  · exact d.setFld_out _ _ _
  · exact d.setFld_out _ _ _
  · rfl

theorem Dev.pairDrop_latch (d : Dev) (was : Bool) : (d.pairDrop was).latch = d.latch := by
  unfold Dev.pairDrop
  split_ifs
  · exact d.setFld_latch _ _ _
  · exact d.setFld_latch _ _ _
  · rfl

@[simp] theorem Dev.settle_out (d : Dev) : d.settle.out = d.out := by
  unfold Dev.settle
  dsimp only
  rw [Dev.setPins_out, Dev.pairDrop_out]

@[simp] theorem Dev.settle_latch (d : Dev) : d.settle.latch = d.latch := by
  unfold Dev.settle
  dsimp only
  rw [Dev.setPins_latch, Dev.pairDrop_latch]

/-- The error counters of a page stand where settling changes nothing. -/
theorem Dev.fld_settle_errcnt (d : Dev) (pg : Nat) {k : Nat} (h : k < 8) : d.settle.fld pg (F.ERRCNT k) = d.fld pg (F.ERRCNT k) :=
  d.fld_settle pg _ (pairStat_ne_raddr pg (by simp only [F.ERRCNT]; omega) (by simp only [F.ERRCNT]; omega))

/-- Engines are in the rest of the block, which no register access moves. -/
theorem Dev.engs_of_rest {d d' : Dev} (h : d'.rest = d.rest) : d'.engs = d.engs := by
  have he : d'.rest.engs = d.rest.engs := congrArg Dev.engs h
  exact he

/-- A field that is the whole register. -/
theorem Dev.fld_whole (d : Dev) (pg off : Nat) : d.fld pg ⟨off, 0, 32⟩ = (d.reg pg off).toNat := by
  have hlt := (d.reg pg off).isLt
  simp only [Dev.fld, bitsOf]
  omega

theorem Dev.fld_setReg_ne (d : Dev) {pg off pg' : Nat} (v : Word) (f : Fld) (h : raddr pg off ≠ raddr pg' f.off) :
    (d.setReg pg off v).fld pg' f = d.fld pg' f := by
  unfold Dev.fld
  rw [Dev.reg_setReg_ne _ _ h]

/-- Only a register of the header changes the error counters of a page. -/
theorem Dev.fld_setReg_errcnt (d : Dev) (pg : Nat) {off k : Nat} (v : Word) (h : off < 0x020 ∨ 0x040 ≤ off) (hk : k < 8) :
    (d.setReg pg off v).fld pg (F.ERRCNT k) = d.fld pg (F.ERRCNT k) :=
  d.fld_setReg_ne v _ (raddr_ne (by simp only [F.ERRCNT]; omega))

/-! ERR_FIRST (R28, R477). -/

theorem Dev.fld_errLoad_first (d : Dev) (pg idx code : Nat) (hi : idx < 8) (hc : code < 2 ^ 16) :
    (d.errLoad pg idx code).fld pg F.ERR_FIRST_CODE = code ∧ (d.errLoad pg idx code).fld pg F.ERR_FIRST_IDX = idx := by
  rw [Dev.fld_errLoad_code, Dev.fld_errLoad_idx]
  exact ⟨Nat.mod_eq_of_lt hc, Nat.mod_eq_of_lt hi⟩

/-- An error finds a code of this CK with a higher counter: it takes its place. -/
theorem Dev.err_replaces (d : Dev) (pg idx code : Nat) (hl : pg ∈ d.log.firsts) (hi : idx < d.fld pg F.ERR_FIRST_IDX) :
    d.err pg idx code = ((d.bump pg (F.ERRCNT idx)).noteErr pg idx code).errLoad pg idx code := by
  have hidx : ((d.bump pg (F.ERRCNT idx)).noteErr pg idx code).fld pg F.ERR_FIRST_IDX = d.fld pg F.ERR_FIRST_IDX := by
    rw [Dev.fld_noteErr]
    exact congrArg (fun w : Word => bitsOf w.toNat 16 3) (d.reg_bump_first pg idx)
  have hf : pg ∈ ((d.bump pg (F.ERRCNT idx)).noteErr pg idx code).log.firsts := by
    rw [Dev.noteErr_firsts, Dev.bump_firsts]; exact hl
  rw [Dev.err]
  rw [← hidx] at hi
  generalize (d.bump pg (F.ERRCNT idx)).noteErr pg idx code = x at hf hi ⊢
  unfold Dev.errFirst
  exact if_pos (Or.inr ⟨by simpa using hf, Or.inl hi⟩)

theorem Dev.fld_err_loads (d : Dev) (pg idx code : Nat) (hi : idx < 8) (hc : code < 2 ^ 16) (h : d.fld pg F.ERR_FIRST_CODE = 0) :
    (d.err pg idx code).fld pg F.ERR_FIRST_CODE = code ∧ (d.err pg idx code).fld pg F.ERR_FIRST_IDX = idx := by
  rw [d.err_loads pg idx code h]
  exact Dev.fld_errLoad_first _ _ _ _ hi hc

theorem Dev.fld_err_replaces (d : Dev) (pg idx code : Nat) (hi : idx < 8) (hc : code < 2 ^ 16) (hl : pg ∈ d.log.firsts)
    (hlow : idx < d.fld pg F.ERR_FIRST_IDX) :
    (d.err pg idx code).fld pg F.ERR_FIRST_CODE = code ∧ (d.err pg idx code).fld pg F.ERR_FIRST_IDX = idx := by
  rw [d.err_replaces pg idx code hl hlow]
  exact Dev.fld_errLoad_first _ _ _ _ hi hc

theorem Dev.reg_err_keeps (d : Dev) (pg idx code : Nat) (h : d.fld pg F.ERR_FIRST_CODE ≠ 0) (hl : pg ∉ d.log.firsts) :
    (d.err pg idx code).reg pg 0x01C = d.reg pg 0x01C := by
  rw [d.err_keeps pg idx code h hl, Dev.reg_noteErr, Dev.reg_bump_first]

/-! A write to ERR_FIRST. -/

theorem Dev.fld_firstCode_cleared (d : Dev) (pg : Nat) : (d.setReg pg 0x01C 0#32).fld pg F.ERR_FIRST_CODE = 0 := by
  have h : (d.setReg pg 0x01C 0#32).reg pg F.ERR_FIRST_CODE.off = 0#32 := d.reg_setReg pg 0x01C 0#32
  unfold Dev.fld
  rw [h]
  rfl

theorem Dev.errFirstWrite_quiet (d : Dev) (pg : Nat) (h : d.errsNow pg = []) : d.errFirstWrite pg none = d.setReg pg 0x01C 0#32 := by
  have hs : (d.setReg pg 0x01C 0#32).errsNow pg = [] := h
  unfold Dev.errFirstWrite
  dsimp only
  rw [hs]
  rfl

theorem Dev.errFirstWrite_with_error (d : Dev) (pg : Nat) (j : Fin 8) (code : BitVec 16) (h : d.errsNow pg = []) :
    d.errFirstWrite pg (some (j, code)) = (d.setReg pg 0x01C 0#32).err pg j.val code.toNat := by
  have hs : (d.setReg pg 0x01C 0#32).errsNow pg = [] := h
  unfold Dev.errFirstWrite
  dsimp only
  rw [hs]
  rfl

theorem Dev.errFirstWrite_after_error (d : Dev) (pg j code : Nat) (h : d.errsNow pg = [(j, code)]) :
    d.errFirstWrite pg none = (d.setReg pg 0x01C 0#32).errLoad pg j code := by
  have hs : (d.setReg pg 0x01C 0#32).errsNow pg = [(j, code)] := h
  unfold Dev.errFirstWrite
  dsimp only
  rw [hs]
  rfl

theorem exec_errFirstClear {s : State} {pg : Nat} (val : Word) (inCk : Option (Fin 8 × BitVec 16)) (hr : s.dev.rst = .running)
    (hp : pg < 16384) (hb : (blkOfPage pg).isSome) :
    exec (.errFirstClear pg val inCk) s = s.becomes (s.dev.fresh.errFirstWrite pg inCk) := by
  obtain ⟨b, hb⟩ := Option.isSome_iff_exists.1 hb
  have hw : wfPage pg = true := decide_eq_true hp
  change s.checked (wfPage pg) (fun d => d.onPage pg (fun d => d.errFirstWrite pg inCk)) = _
  rw [hw, s.checked_running _ hr]
  unfold Dev.onPage
  rw [hb]

theorem Dev.fld_settle_first (d : Dev) (pg : Nat) :
    d.settle.fld pg F.ERR_FIRST_CODE = d.fld pg F.ERR_FIRST_CODE ∧ d.settle.fld pg F.ERR_FIRST_IDX = d.fld pg F.ERR_FIRST_IDX :=
  ⟨d.fld_settle pg _ (pairStat_ne_raddr pg (by decide) (by decide)), d.fld_settle pg _ (pairStat_ne_raddr pg (by decide) (by decide))⟩

end Sys2Proof.Machine
end

section
/-! PROOFS. Errors: the counter and the first code, and the write that clears it (O8). -/

namespace Sys2Proof.Machine

/-- R28: what one error leaves in its counter, the other counters, ERR_FIRST and the rest of the block. -/
theorem err_counts_and_loads (d : Dev) (pg idx code : Nat) (hi : idx < 8) (hc : code < 2 ^ 16) :
    (d.err pg idx code).fld pg (F.ERRCNT idx) = min (d.fld pg (F.ERRCNT idx) + 1) 0xFFFFFFFF
    ∧ (∀ j, j < 8 → j ≠ idx → (d.err pg idx code).fld pg (F.ERRCNT j) = d.fld pg (F.ERRCNT j))
    ∧ (d.fld pg F.ERR_FIRST_CODE = 0 →
        (d.err pg idx code).fld pg F.ERR_FIRST_CODE = code ∧ (d.err pg idx code).fld pg F.ERR_FIRST_IDX = idx)
    ∧ (d.fld pg F.ERR_FIRST_CODE ≠ 0 → pg ∉ d.log.firsts →
        (d.err pg idx code).reg pg 0x01C = d.reg pg 0x01C)
    ∧ (d.fld pg F.ERR_FIRST_CODE ≠ 0 → pg ∈ d.log.firsts → idx < d.fld pg F.ERR_FIRST_IDX →
        (d.err pg idx code).fld pg F.ERR_FIRST_CODE = code ∧ (d.err pg idx code).fld pg F.ERR_FIRST_IDX = idx)
    ∧ (d.err pg idx code).rest = d.rest :=
  ⟨d.fld_err pg idx code, fun j _ hj => d.fld_err_ne pg idx code j hj.symm, d.fld_err_loads pg idx code hi hc,
    d.reg_err_keeps pg idx code, fun _ => d.fld_err_replaces pg idx code hi hc, d.rest_err pg idx code⟩

/-- With no error in the CK, a write leaves ERR_FIRST 0. -/
theorem errFirstClear_zeroes {s : State} {pg : Nat} (val : Word) (hr : s.dev.rst = .running) (hp : pg < 16384)
    (hb : (blkOfPage pg).isSome) (he : s.dev.errsNow pg = []) :
    ∃ t, exec (.errFirstClear pg val none) s = .next t ∧ t.dev.reg pg 0x01C = 0#32 ∧ t.dev.rest = s.dev.rest := by
  refine ⟨_, exec_errFirstClear val none hr hp hb, ?_, ?_⟩ <;> rw [s.dev.fresh.errFirstWrite_quiet pg he]
  · rw [Dev.reg_settle _ _ _ (pairStat_ne_raddr pg (by decide) (by decide)), Dev.reg_setReg]
  · rw [Dev.rest_settle, Dev.rest_setReg, Dev.rest_fresh]

/-- The error an earlier command of the CK has counted stays in ERR_FIRST. -/
theorem errFirstClear_after_error {s : State} {pg j code : Nat} (val : Word) (hr : s.dev.rst = .running) (hp : pg < 16384)
    (hb : (blkOfPage pg).isSome) (hj : j < 8) (hc : code < 2 ^ 16) (he : s.dev.errsNow pg = [(j, code)]) :
    ∃ t, exec (.errFirstClear pg val none) s = .next t
      ∧ t.dev.fld pg F.ERR_FIRST_CODE = code ∧ t.dev.fld pg F.ERR_FIRST_IDX = j ∧ t.dev.rest = s.dev.rest := by
  have hw := s.dev.fresh.errFirstWrite_after_error pg j code he
  have hl := (s.dev.fresh.setReg pg 0x01C 0#32).fld_errLoad_first pg j code hj hc
  refine ⟨_, exec_errFirstClear val none hr hp hb, ?_, ?_, ?_⟩ <;> rw [hw]
  · rw [(Dev.fld_settle_first _ pg).1, hl.1]
  · rw [(Dev.fld_settle_first _ pg).2, hl.2]
  · rw [Dev.rest_settle, Dev.rest_errLoad, Dev.rest_setReg, Dev.rest_fresh]

/-- The error that comes with the write loads ERR_FIRST and counts. -/
theorem errFirstClear_with_error {s : State} {pg : Nat} (val : Word) (j : Fin 8) (code : BitVec 16) (hr : s.dev.rst = .running)
    (hp : pg < 16384) (hb : (blkOfPage pg).isSome) (he : s.dev.errsNow pg = []) :
    ∃ t, exec (.errFirstClear pg val (some (j, code))) s = .next t
      ∧ t.dev.fld pg F.ERR_FIRST_CODE = code.toNat ∧ t.dev.fld pg F.ERR_FIRST_IDX = j.val
      ∧ t.dev.fld pg (F.ERRCNT j) = min (s.dev.fld pg (F.ERRCNT j) + 1) 0xFFFFFFFF := by
  have hw := s.dev.fresh.errFirstWrite_with_error pg j code he
  have hl := Dev.fld_err_loads _ pg j code.toNat j.isLt code.isLt (s.dev.fresh.fld_firstCode_cleared pg)
  refine ⟨_, exec_errFirstClear val _ hr hp hb, ?_, ?_, ?_⟩ <;> rw [hw]
  · rw [(Dev.fld_settle_first _ pg).1, hl.1]
  · rw [(Dev.fld_settle_first _ pg).2, hl.2]
  · rw [Dev.fld_settle_errcnt _ _ j.isLt, Dev.fld_err, Dev.fld_setReg_errcnt _ _ _ (by decide) j.isLt, Dev.fld_fresh]

/-- Settles O8: an error counts and loads ERR_FIRST (R28); a write clears ERR_FIRST but for the errors of its CK (R477). -/
theorem errorCountsAndFirstCode : Obligations.ErrorCountsAndFirstCode := by
  unfold Obligations.ErrorCountsAndFirstCode
  refine ⟨err_counts_and_loads, fun pg val s hr hp hb => ⟨?_, ?_, ?_⟩⟩
  · exact errFirstClear_zeroes val hr hp hb
  · exact fun j code hj hc => errFirstClear_after_error val hr hp hb hj hc
  · exact fun j code => errFirstClear_with_error val j code hr hp hb

end Sys2Proof.Machine
end

section
/-! PROOFS. Counters: a write of any value clears them, but for the event of the same CK (R9, O10). -/

namespace Sys2Proof.Machine

/-! A register that any write clears whole. -/

theorem Dev.counterClear_whole (d : Dev) {addr : Nat} (val : Word) (inCk : Bool) {b : Blk} {i : Nat} {r : RegDesc}
    (hb : blkOfPage (addr / 4096) = some (b, i)) (hd : regDesc b (addr % 4096) = some r) (hclr : r.clr = 0xFFFFFFFF)
    (hro : r.ro = 0xFFFFFFFF) : d.counterClear addr val inCk = d.counterWrite (addr / 4096) (addr % 4096) inCk := by
  simp only [Dev.counterClear, hb, hd]
  exact if_pos ⟨hclr, hro⟩

theorem Dev.reg_counterWrite (d : Dev) (pg off : Nat) (inCk : Bool) :
    (d.counterWrite pg off inCk).reg pg off = if inCk then 1#32 else BitVec.ofNat 32 (d.countNow (raddr pg off) 0) :=
  d.reg_setReg pg off _

theorem Dev.reg_counterWrite_ne (d : Dev) {pg off pg' off' : Nat} (inCk : Bool) (h : raddr pg off ≠ raddr pg' off') :
    (d.counterWrite pg off inCk).reg pg' off' = d.reg pg' off' :=
  d.reg_setReg_ne _ h

@[simp] theorem Dev.rest_counterWrite (d : Dev) (pg off : Nat) (inCk : Bool) : (d.counterWrite pg off inCk).rest = d.rest :=
  d.rest_setReg pg off _

theorem exec_counterClear {s : State} {addr : Nat} (val : Word) (inCk : Bool) (hr : s.dev.rst = .running) (hw : wfAddr addr = true) :
    exec (.counterClear addr val inCk) s = s.becomes (s.dev.fresh.counterClear addr val inCk) := by
  change s.checked (wfAddr addr) (fun d => d.counterClear addr val inCk) = _
  rw [hw, s.checked_running _ hr]

/-- COUNTER_CLEAR of a register that any write clears whole: it holds what the CK has counted, nothing else moves. -/
theorem counterClear_clears {s : State} {addr : Nat} (val : Word) (inCk : Bool) {b : Blk} {i : Nat} {r : RegDesc}
    (hr : s.dev.rst = .running) (hw : wfAddr addr = true) (hb : blkOfPage (addr / 4096) = some (b, i))
    (hd : regDesc b (addr % 4096) = some r) (hclr : r.clr = 0xFFFFFFFF) (hro : r.ro = 0xFFFFFFFF)
    (hne : raddr Pg.pair F.PAIR_STAT_STATE.off ≠ addr) :
    ∃ t, exec (.counterClear addr val inCk) s = .next t
      ∧ t.dev.reg (addr / 4096) (addr % 4096) = (if inCk then 1#32 else BitVec.ofNat 32 (s.dev.countNow addr 0))
      ∧ (∀ pg off, off < 4096 → raddr pg off ≠ addr → raddr Pg.pair F.PAIR_STAT_STATE.off ≠ raddr pg off → t.dev.reg pg off = s.dev.reg pg off)
      ∧ t.dev.rest = s.dev.rest := by
  have hc := s.dev.fresh.counterClear_whole val inCk hb hd hclr hro
  refine ⟨_, exec_counterClear val inCk hr hw, ?_, fun pg off _ ha hp => ?_, ?_⟩ <;> rw [hc]
  · rw [Dev.reg_settle _ _ _ (by rwa [raddr_div_mod]), Dev.reg_counterWrite, raddr_div_mod]
    rfl
  · rw [Dev.reg_settle _ _ _ hp, Dev.reg_counterWrite_ne _ _ (by rw [raddr_div_mod]; exact ha.symm), Dev.reg_fresh]
  · rw [Dev.rest_settle, Dev.rest_counterWrite, Dev.rest_fresh]

/-! The error counters of the common header. -/

/-- The row of ERRCNTk in the common header (Table 25-1). -/
theorem regDesc_errcnt (b : Blk) {idx : Nat} (h : idx < 8) :
    regDesc b (F.ERRCNT idx).off = some ⟨0x020, 4, 8, 0, 0, 0, 0xFFFFFFFF, 0, 0xFFFFFFFF, false⟩ := by
  have hrow : ∀ k < 8, hdrTable.find? (fun r => r.covers (F.ERRCNT k).off)
      = some ⟨0x020, 4, 8, 0, 0, 0, 0xFFFFFFFF, 0, 0xFFFFFFFF, false⟩ := by decide
  unfold regDesc
  rw [hrow idx h]

/-- COUNTER_CLEAR of an error counter, on any page of a block. -/
theorem counterClear_errcnt {s : State} {pg idx : Nat} (val : Word) (inCk : Bool) (hr : s.dev.rst = .running) (hp : pg < 16384)
    (hb : (blkOfPage pg).isSome) (hi : idx < 8) (hc : s.dev.countNow (raddr pg (F.ERRCNT idx).off) 0 ≤ 1) :
    ∃ t, exec (.counterClear (raddr pg (F.ERRCNT idx).off) val inCk) s = .next t
      ∧ t.dev.fld pg (F.ERRCNT idx) = (if inCk ∨ s.dev.countNow (raddr pg (F.ERRCNT idx).off) 0 = 1 then 1 else 0) := by
  obtain ⟨⟨b, i⟩, hb⟩ := Option.isSome_iff_exists.1 hb
  have ho : (F.ERRCNT idx).off < 4096 := by simp only [F.ERRCNT]; omega
  have hdiv := raddr_div pg ho
  have hmod := raddr_mod pg ho
  obtain ⟨t, ht, hreg, -, -⟩ := counterClear_clears (s := s) (addr := raddr pg (F.ERRCNT idx).off) val inCk hr
    (wfAddr_raddr hp ho (by simp only [F.ERRCNT]; omega)) (by rw [hdiv]; exact hb) (by rw [hmod]; exact regDesc_errcnt b hi) rfl rfl
    (pairStat_ne_raddr pg ho (by simp only [F.ERRCNT]; omega))
  refine ⟨t, ht, ?_⟩
  rw [hdiv, hmod] at hreg
  have hfld : t.dev.fld pg (F.ERRCNT idx) = (t.dev.reg pg (F.ERRCNT idx).off).toNat := t.dev.fld_whole pg _
  rw [hfld, hreg]
  generalize s.dev.countNow (raddr pg (F.ERRCNT idx).off) 0 = n at hc ⊢
  have hn : n = 0 ∨ n = 1 := by omega
  cases inCk with
  | true => simp
  | false => rcases hn with rfl | rfl <;> simp

/-- Settles O10: error counters saturate, and any write clears a whole counter but for the event of its CK (R9). -/
theorem countersSaturateAndClear : Obligations.CountersSaturateAndClear := by
  unfold Obligations.CountersSaturateAndClear
  refine ⟨fun d pg idx code _ => d.fld_err pg idx code, ?_, ?_⟩
  · exact fun pg idx val inCk s hr hp hb hi hc => counterClear_errcnt val inCk hr hp hb hi hc
  · exact fun addr val inCk b i r s hr hw hb hd hclr hro hne => counterClear_clears val inCk hr hw hb hd hclr hro hne

end Sys2Proof.Machine
end

section
/-! PROOFS. Reads of registers: unoccupied offsets, PEEK, the latch of a page (R7, R10, R475, R480, O11). -/

namespace Sys2Proof.Machine

/-! What a read answers, by where it falls. -/

theorem Dev.readReg_noBlock (d : Dev) {addr : Nat} (who : TapWho) (h : blkOfPage (addr / 4096) = none) :
    d.readReg addr false who = (d.regErr Pg.dev 3, some 0#32) := by
  simp [Dev.readReg, h]

theorem Dev.readReg_noRegister (d : Dev) {addr : Nat} (who : TapWho) {b : Blk} {i : Nat} (hb : blkOfPage (addr / 4096) = some (b, i))
    (hd : regDesc b (addr % 4096) = none) : d.readReg addr false who = (d.regErr (addr / 4096) 3, some 0#32) := by
  simp [Dev.readReg, hb, hd]

/-- A read with PEEK of a register that is no TAP_POP (R10). -/
theorem Dev.readReg_peek (d : Dev) {addr : Nat} (who : TapWho) {b : Blk} {i : Nat} {r : RegDesc}
    (hb : blkOfPage (addr / 4096) = some (b, i)) (hd : regDesc b (addr % 4096) = some r) (hq : b ≠ .cq) :
    d.readReg addr true who = (d, some (d.liveReg b i r (addr % 4096))) := by
  simp [Dev.readReg, hb, hd, hq]

/-- A read of a register with partners loads the latch of its page (R480). -/
theorem Dev.readReg_latches (d : Dev) {addr : Nat} (who : TapWho) {b : Blk} {i : Nat} {r : RegDesc}
    (hb : blkOfPage (addr / 4096) = some (b, i)) (hd : regDesc b (addr % 4096) = some r) (hq : b ≠ .cq) (hn : b ≠ .newt) (hs : b ≠ .stim)
    (hp : latchPartners b (addr % 4096) ≠ []) :
    d.readReg addr false who = (d.setLatch (addr / 4096) ((latchPartners b (addr % 4096)).map (fun o => (o, d.liveAt b i o))),
      some (d.liveReg b i r (addr % 4096))) := by
  obtain ⟨o, os, hos⟩ := List.exists_cons_of_ne_nil hp
  simp only [Dev.readReg, hb, hd, hq, hn, hs, hos, false_and, if_false, Bool.false_eq_true]

/-- A read that has its value puts it out. -/
theorem Dev.readOut_of_readReg {d d' : Dev} {addr : Nat} {peek : Bool} {v : Word} (h : d.readReg addr peek .cmd = (d', some v)) :
    d.readOut addr peek = d'.emit (.rdata addr v) := by
  simp [Dev.readOut, h]

theorem exec_unoccupiedOffsetRead {s : State} {addr : Nat} (peek : Bool) (hr : s.dev.rst = .running) (hw : wfAddr addr = true) :
    exec (.unoccupiedOffsetRead addr peek) s = s.becomes (s.dev.fresh.readOut addr peek) := by
  change s.checked (wfAddr addr) (fun d => d.readOut addr peek) = _
  rw [hw, s.checked_running _ hr]

theorem exec_latchingRead {s : State} {addr : Nat} (peek : Bool) (hr : s.dev.rst = .running) (hw : wfAddr addr = true) :
    exec (.latchingRead addr peek) s = s.becomes (s.dev.fresh.readOut addr peek) := by
  change s.checked (wfAddr addr) (fun d => d.readOut addr peek) = _
  rw [hw, s.checked_running _ hr]

theorem Dev.mem_out_settle_emit (d : Dev) (o : Out) : o ∈ (d.emit o).settle.out := by
  rw [Dev.settle_out, Dev.emit_out]
  exact List.mem_append_right _ (List.mem_singleton_self o)

/-! The rows. -/

/-- UNOCCUPIED_OFFSET_READ where the read finds no register: 0 goes out, and the page that answers for the offset counts (R10, R475). -/
theorem unoccupiedOffsetRead_counts {s : State} {addr pg : Nat} (hr : s.dev.rst = .running) (hw : wfAddr addr = true)
    (h : s.dev.fresh.readReg addr false .cmd = (s.dev.fresh.regErr pg 3, some 0#32)) :
    ∃ t, exec (.unoccupiedOffsetRead addr false) s = .next t ∧ Out.rdata addr 0#32 ∈ t.dev.out
      ∧ t.dev.fld pg (F.ERRCNT 7) = min (s.dev.fld pg (F.ERRCNT 7) + 1) 0xFFFFFFFF ∧ t.dev.rest = s.dev.rest := by
  refine ⟨_, exec_unoccupiedOffsetRead false hr hw, ?_, ?_, ?_⟩ <;> rw [Dev.readOut_of_readReg h]
  · exact Dev.mem_out_settle_emit _ _
  · rw [Dev.fld_settle_errcnt _ _ (by decide), Dev.fld_emit, Dev.regErr, Dev.fld_err, Dev.fld_fresh]
  · rw [Dev.rest_settle, Dev.rest_emit, Dev.rest_regErr, Dev.rest_fresh]

/-- A read with PEEK puts out the live value and moves no register and no latch. -/
theorem latchingRead_peek {s : State} {addr : Nat} {b : Blk} {i : Nat} {r : RegDesc} (hr : s.dev.rst = .running) (hw : wfAddr addr = true)
    (hb : blkOfPage (addr / 4096) = some (b, i)) (hd : regDesc b (addr % 4096) = some r) (hq : b ≠ .cq) :
    ∃ t, exec (.latchingRead addr true) s = .next t ∧ Out.rdata addr (s.dev.fresh.liveReg b i r (addr % 4096)) ∈ t.dev.out
      ∧ t.dev.latch = s.dev.latch
      ∧ ∀ pg off, off < 4096 → raddr Pg.pair F.PAIR_STAT_STATE.off ≠ raddr pg off → t.dev.reg pg off = s.dev.reg pg off := by
  have h := Dev.readOut_of_readReg (s.dev.fresh.readReg_peek .cmd hb hd hq)
  refine ⟨_, exec_latchingRead true hr hw, ?_, ?_, fun pg off _ hp => ?_⟩ <;> rw [h]
  · exact Dev.mem_out_settle_emit _ _
  · exact Dev.settle_latch _
  · rw [Dev.reg_settle _ _ _ hp, Dev.reg_emit, Dev.reg_fresh]

/-- A latching read puts out the live value and loads the latch of the page with the partners' live values. -/
theorem latchingRead_latches {s : State} {addr : Nat} {b : Blk} {i : Nat} {r : RegDesc} (hr : s.dev.rst = .running)
    (hw : wfAddr addr = true) (hb : blkOfPage (addr / 4096) = some (b, i)) (hd : regDesc b (addr % 4096) = some r) (hq : b ≠ .cq)
    (hn : b ≠ .newt) (hs : b ≠ .stim) (hp : latchPartners b (addr % 4096) ≠ []) :
    ∃ t, exec (.latchingRead addr false) s = .next t ∧ Out.rdata addr (s.dev.fresh.liveReg b i r (addr % 4096)) ∈ t.dev.out
      ∧ t.dev.latchOf (addr / 4096) = (latchPartners b (addr % 4096)).map (fun o => (o, s.dev.fresh.liveAt b i o)) := by
  have h := Dev.readOut_of_readReg (s.dev.fresh.readReg_latches .cmd hb hd hq hn hs hp)
  refine ⟨_, exec_latchingRead false hr hw, ?_, ?_⟩ <;> rw [h]
  · exact Dev.mem_out_settle_emit _ _
  · rw [Dev.latchOf, Dev.settle_latch]
    exact sget_sset_same _ _ _ _

/-- Settles O11, by where the read falls: no register, no block, PEEK, a register with partners. -/
theorem readsOfRegisters : Obligations.ReadsOfRegisters := by
  unfold Obligations.ReadsOfRegisters
  refine fun addr s hr hw => ⟨?_, ?_, ?_, ?_⟩
  · exact fun b i hb hd => unoccupiedOffsetRead_counts hr hw (s.dev.fresh.readReg_noRegister .cmd hb hd)
  · exact fun hb => unoccupiedOffsetRead_counts hr hw (s.dev.fresh.readReg_noBlock .cmd hb)
  · exact fun b i r hb hd hq => latchingRead_peek hr hw hb hd hq
  · exact fun b i r hb hd hq hn hs hp => latchingRead_latches hr hw hb hd hq hn hs hp

end Sys2Proof.Machine
end

section
/-! PROOFS. Writes by the common rules, on the pages of the NEWT engines (R6, R8, O12). -/

namespace Sys2Proof.Machine

/-! A write by the common rules alone. -/

/-- A register's value after an accepted write: the bits under the mask from the write, the others as they were (R6). -/
def mergedWord (cur v mask : Nat) : Word := BitVec.ofNat 32 ((cur &&& (0xFFFFFFFF - mask)) ||| (v &&& mask))

/-- Masking a number of 32 bits to 32 bits changes nothing. -/
theorem and_word_of_lt {x : Nat} (h : x < 2 ^ 32) : x &&& 0xFFFFFFFF = x := by
  rw [show (0xFFFFFFFF : Nat) = 2 ^ 32 - 1 from rfl, Nat.and_two_pow_sub_one_eq_mod, Nat.mod_eq_of_lt h]

/-- A word takes the low 32 bits of a number, so masking to 32 bits first changes nothing. -/
theorem ofNat_and_word (x : Nat) : BitVec.ofNat 32 (x &&& 0xFFFFFFFF) = BitVec.ofNat 32 x := by
  rw [show (0xFFFFFFFF : Nat) = 2 ^ 32 - 1 from rfl, Nat.and_two_pow_sub_one_eq_mod]
  exact BitVec.eq_of_toNat_eq (by rw [BitVec.toNat_ofNat, BitVec.toNat_ofNat, Nat.mod_mod])

theorem writableBits_unlocked (d : Dev) (r : RegDesc) (inst : Nat) (hl : d.cfgLock = false) (hn : r.nOnly = false) :
    writableBits d r inst = r.rw ||| r.rwl := by
  simp [writableBits, hl, hn]

theorem writeCodes_accepted (d : Dev) (r : RegDesc) (inst cur v : Nat) (hl : d.cfgLock = false) (ha : acceptsWrites r inst = true)
    (hv : v &&& (0xFFFFFFFF - (r.rw ||| r.rwl ||| r.wo ||| r.ro)) = 0) : writeCodes d r inst cur v 0 = [] := by
  simp [writeCodes, hl, ha, hv]

theorem writeCodes_readOnly (d : Dev) (r : RegDesc) (inst cur v : Nat) (hl : d.cfgLock = false) (ha : acceptsWrites r inst = false)
    (hc : r.clr = 0) : writeCodes d r inst cur v 0 = [1] := by
  simp [writeCodes, hl, ha, hc]

@[simp] theorem Dev.rest_plainWrite (d : Dev) (pg inst : Nat) (r : RegDesc) (off : Nat) (val : Word) (bad : Nat) :
    (d.plainWrite pg inst r off val bad).rest = d.rest := by
  unfold Dev.plainWrite
  dsimp only
  split_ifs
  · exact d.rest_setReg _ _ _
  · split
    · exact d.rest_setReg _ _ _
    · rw [Dev.rest_regErr, Dev.rest_setReg]

@[simp] theorem Dev.rest_plain (d : Dev) (b : Blk) (i off : Nat) (val : Word) (bad : Nat) : (d.plain b i off val bad).rest = d.rest :=
  d.rest_plainWrite _ _ _ _ _ _

/-- What the common rules store where the register is unlocked, the chapter refuses no bit and no write clears one. -/
theorem storedWord_unlocked (d : Dev) (r : RegDesc) (inst cur v x : Nat) (hl : d.cfgLock = false) (hn : r.nOnly = false)
    (hm : r.rw ||| r.rwl < 2 ^ 32) :
    BitVec.ofNat 32 ((((cur &&& (0xFFFFFFFF - (writableBits d r inst &&& (0xFFFFFFFF - 0)))) ||| (v &&& (writableBits d r inst &&& (0xFFFFFFFF - 0))))
      &&& (0xFFFFFFFF - 0)) ||| (x &&& 0)) = mergedWord cur v (r.rw ||| r.rwl) := by
  rw [writableBits_unlocked d r inst hl hn, Nat.sub_zero, and_word_of_lt hm, Nat.and_zero, Nat.or_zero, ofNat_and_word]
  rfl

/-- Every field takes or keeps its value where the write has no reserved bit set (R6). -/
theorem Dev.plainWrite_accepted (d : Dev) (pg inst : Nat) (r : RegDesc) (off : Nat) (val : Word) (hl : d.cfgLock = false)
    (hn : r.nOnly = false) (hm : r.rw ||| r.rwl < 2 ^ 32) (hc : r.clr = 0) (ha : acceptsWrites r inst = true)
    (hv : val.toNat &&& (0xFFFFFFFF - (r.rw ||| r.rwl ||| r.wo ||| r.ro)) = 0) :
    d.plainWrite pg inst r off val 0 = d.setReg pg off (mergedWord (d.reg pg off).toNat val.toNat (r.rw ||| r.rwl)) := by
  unfold Dev.plainWrite
  simp only [hc, storedWord_unlocked d r inst _ _ _ hl hn hm, writeCodes_accepted d r inst _ _ hl ha hv, ne_eq, not_true_eq_false,
    false_and, if_false]

/-- A write to a register in which no field accepts writes counts once (R8). -/
theorem Dev.plainWrite_readOnly (d : Dev) (pg inst : Nat) (r : RegDesc) (off : Nat) (val : Word) (hl : d.cfgLock = false)
    (hn : r.nOnly = false) (hm : r.rw ||| r.rwl < 2 ^ 32) (hc : r.clr = 0) (ha : acceptsWrites r inst = false) :
    d.plainWrite pg inst r off val 0 = (d.setReg pg off (mergedWord (d.reg pg off).toNat val.toNat (r.rw ||| r.rwl))).regErr pg 1 := by
  unfold Dev.plainWrite
  simp only [hc, storedWord_unlocked d r inst _ _ _ hl hn hm, writeCodes_readOnly d r inst _ _ hl ha hc, ne_eq, not_true_eq_false,
    false_and, if_false, List.foldl_nil]

/-! The NEWT pages. -/

/-- No register of a NEWT page is kept for the North, and its writable bits lie in the word. -/
theorem newtRow_writable {off : Nat} {r : RegDesc} (h : regDesc .newt off = some r) : r.nOnly = false ∧ r.rw ||| r.rwl < 2 ^ 32 := by
  have hrows : ∀ q ∈ hdrTable ++ Blk.newt.table, q.nOnly = false ∧ q.rw ||| q.rwl < 2 ^ 32 := by decide
  exact hrows r (regDesc_mem h)

/-- An engine with no task has no budget to expire (R156). -/
theorem Dev.taskLimitExpiry_idle (d : Dev) (e : Nat) (h : (d.engOf e).task = none) : d.taskLimitExpiry e = d := by
  simp [Dev.taskLimitExpiry, h]

/-- Beyond CTRL and IMEM_DATA the common rules alone govern a NEWT page, a new TASK_LIMIT of an idle engine included. -/
theorem Dev.writeNewt_plain (d : Dev) (e off : Nat) (val : Word) (h8 : off ≠ 0x008) (h124 : off ≠ 0x124)
    (ht : off = 0x108 → (d.engOf e).task = none) : d.writeNewt e off val = d.plain .newt e off val 0 := by
  unfold Dev.writeNewt
  rw [if_neg h8, if_neg h124]
  split_ifs with h108
  · have heng : (d.plain .newt e off val 0).engOf e = d.engOf e := by
      unfold Dev.engOf
      rw [Dev.engs_of_rest (d.rest_plain .newt e off val 0)]
    exact Dev.taskLimitExpiry_idle _ _ (by rw [heng]; exact ht h108)
  · rfl

/-- A register of a block beyond the common header is written as its chapter says. -/
theorem Dev.softWrite_block (d : Dev) {b : Blk} {i off : Nat} {r : RegDesc} (val : Word) (hi : i < b.count) (ho : off < 4096)
    (hh : 0x100 ≤ off) (hd : regDesc b off = some r) : d.softWrite (raddr (b.page i) off) val = d.blockWrite b i off val := by
  unfold Dev.softWrite
  simp only [raddr_div _ ho, raddr_mod _ ho, blkOfPage_page b i hi, hd]
  exact if_neg (fun h => by omega)

theorem exec_registerWrite {s : State} {addr : Nat} (val : Word) (hr : s.dev.rst = .running) (hw : wfAddr addr = true)
    (hu : s.dev.unpaired) : exec (.registerWrite addr val) s = s.becomes (s.dev.fresh.softWrite addr val) := by
  change s.checked (wfAddr addr) (fun d => d.busWrite addr val) = _
  rw [hw, s.checked_running _ hr]
  exact congrArg s.becomes (Dev.swGate_unpaired _ _ _ _ hu)

/-- REGISTER_WRITE of a NEWT page is a write by the common rules. -/
theorem exec_registerWrite_newt {e : Fin 192} {off : Nat} (val : Word) {r : RegDesc} {s : State} (hr : s.dev.rst = .running) (ho : off < 4096)
    (h4 : off % 4 = 0) (hh : 0x100 ≤ off) (h124 : off ≠ 0x124) (hd : regDesc .newt off = some r) (hu : s.dev.unpaired)
    (ht : off = 0x108 → (s.dev.engOf e).task = none) :
    exec (.registerWrite (raddr (Pg.newt e.val) off) val) s = s.becomes (s.dev.fresh.plainWrite (Pg.newt e.val) e.val r off val 0) := by
  have hpg : Pg.newt e.val < 16384 := by
    have he := e.isLt
    change 0x100 + e.val < 16384
    omega
  rw [exec_registerWrite val hr (wfAddr_raddr hpg ho h4) hu, Dev.softWrite_block _ val e.isLt ho hh hd]
  have hw := s.dev.fresh.writeNewt_plain e.val off val (by omega) h124 ht
  rw [Dev.plain, rowOf_of_regDesc hd] at hw
  exact congrArg s.becomes hw

/-- Settles O12, by whether some field of the register accepts writes. -/
theorem plainRegisterWrite : Obligations.PlainRegisterWrite := by
  unfold Obligations.PlainRegisterWrite
  intro e off val r s hr ho h4 hh h124 hd hc hu hl ht
  obtain ⟨hn, hm⟩ := newtRow_writable hd
  have hpair := pairStat_ne_raddr (Pg.newt e.val) ho (by omega)
  have hfl : s.dev.fresh.cfgLock = false := hl
  refine ⟨_, exec_registerWrite_newt val hr ho h4 hh h124 hd hu ht, fun ha hv => ⟨?_, ?_⟩, fun ha => ?_, ?_⟩
  · rw [Dev.reg_settle _ _ _ hpair, Dev.plainWrite_accepted _ _ _ _ _ _ hfl hn hm hc ha hv, Dev.reg_setReg]
    rfl
  · rw [Dev.fld_settle_errcnt _ _ (by decide), Dev.plainWrite_accepted _ _ _ _ _ _ hfl hn hm hc ha hv,
      Dev.fld_setReg_errcnt _ _ _ (by omega) (by decide), Dev.fld_fresh]
  · rw [Dev.fld_settle_errcnt _ _ (by decide), Dev.plainWrite_readOnly _ _ _ _ _ _ hfl hn hm hc ha, Dev.regErr, Dev.fld_err,
      Dev.fld_setReg_errcnt _ _ _ (by omega) (by decide), Dev.fld_fresh]
  · rw [Dev.rest_settle, Dev.rest_plainWrite, Dev.rest_fresh]

end Sys2Proof.Machine
end

section
/-! PROOFS. The balls follow the block (R42): how every command and every CK ends, and the machine out of reset (O4, O5). -/

namespace Sys2Proof.Machine

/-- The balls are no input of the levels they take. -/
theorem Dev.pinsOf_setPins (d : Dev) (p : Pins) : (d.setPins p).pinsOf = d.pinsOf := rfl

/-- The end of a command puts every ball at its level (R42, R460). -/
theorem Dev.settle_pins (d : Dev) : d.settle.pins = d.settle.pinsOf := by
  unfold Dev.settle
  dsimp only
  rw [Dev.setPins_pins, Dev.pinsOf_setPins]

/-- A command ends in a fault, or its block is settled: an outcome of either kind. -/
def State.ends (s : State) (o : Host.Outcome State Fault Refusal) : Prop :=
  o = .fault .illFormed ∨ ∃ d, o = s.becomes d

theorem State.ends_becomes (s : State) (d : Dev) : s.ends (s.becomes d) := Or.inr ⟨d, rfl⟩

theorem State.ends_checked (s : State) (ok : Bool) (f : Dev → Dev) : s.ends (s.checked ok f) := by
  cases ok with
  | true => exact s.ends_becomes _
  | false => exact Or.inl rfl

theorem State.ends_modeRequest (s : State) (val : Word) (safeInCk : Bool) : s.ends (execModeRequest val safeInCk s) := by
  unfold execModeRequest
  split
  · exact s.ends_becomes _
  · exact s.ends_becomes _

/-- How any command ends: the common register accesses may be ill-formed, every other command settles the block. -/
theorem exec_ends (i : Instr) (s : State) : s.ends (exec i s) := by
  cases i with
  | registerWrite | unoccupiedOffsetRead | latchingRead | counterClear | errFirstClear | intPendClear | intForce | intEnWrite =>
    exact s.ends_checked _ _
  | modeRequest val safeInCk => exact s.ends_modeRequest val safeInCk
  | _ => exact s.ends_becomes _

/-- A CK of the block itself ends settled too. -/
theorem Dev.tick_settles (d : Dev) : ∃ x : Dev, d.tick = x.settle := by
  unfold Dev.tick
  dsimp only
  split
  · exact ⟨_, rfl⟩
  · exact ⟨_, rfl⟩

/-- Where a command answers a next state, its block is settled. -/
theorem State.ends.settled {s t : State} {o : Host.Outcome State Fault Refusal} (h : s.ends o) (ho : o = .next t) :
    ∃ d : Dev, t.dev = d.settle := by
  obtain hf | ⟨d, hd⟩ := h
  · rw [hf] at ho
    cases ho
  · rw [hd] at ho
    cases ho
    exact ⟨d, rfl⟩

/-- Every step that answers a next state ends settled. -/
theorem step_settles {s t : State} (h : step s = .next t) : ∃ d : Dev, t.dev = d.settle := by
  unfold step at h
  split at h
  · exact (exec_ends _ _).settled h
  · split at h
    · exact (exec_ends _ _).settled h
    · cases h
      exact s.dev.tick_settles

/-- Settles O4: every step ends with the balls put at their levels, so they follow the block whatever stood there before. -/
theorem ballsFollowTheBlock : Obligations.BallsFollowTheBlock := by
  unfold Obligations.BallsFollowTheBlock
  intro s t _ h
  obtain ⟨d, hd⟩ := step_settles h
  rw [hd]
  exact d.settle_pins

/-- Settles O5: the state out of reset is one closed state, and its balls are computed (Table 2-4). -/
theorem ballsFollowAtReset : Obligations.BallsFollowAtReset := by
  unfold Obligations.BallsFollowAtReset
  decide

end Sys2Proof.Machine
end

section
/-! PROOFS. The mode as the block's state tells it, and the operations that leave it as it stands (O32). -/

namespace Sys2Proof.Machine

/-- The state of the block's mode: its registers, and what of a transition is under way. -/
structure ModeCtl where
  regs : SMap Word
  south : Option SouthSt
  offEntry : List Nat
  safeEntry : Bool
  safeDue : Nat
  target : Option Nat
  waking : Bool
  readyCk : Option Nat
  ck : Nat

def Dev.modeCtl (d : Dev) : ModeCtl :=
  ⟨d.regs, d.south, d.offEntry, d.safeEntry, d.safeDue, d.modeTarget, d.waking, d.readyCk, d.ck⟩

/-- What a register holds, of the registers as they are stored. -/
def regIn (regs : SMap Word) (pg off : Nat) : Word := sget (regReset (raddr pg off)) regs (raddr pg off)

/-- What of it tells the mode: of the registers DEV_MODE alone, and PMC_STAT, which shows the causes live. -/
@[ext] structure ModeView where
  word : Word
  live : Word
  ctl : ModeCtl

def ModeCtl.view (c : ModeCtl) : ModeView := ⟨regIn c.regs Pg.dev 0x100, regIn c.regs Pg.pmc 0x00C, { c with regs := [] }⟩

def Dev.modeView (d : Dev) : ModeView := d.modeCtl.view

theorem Dev.modeView_eq {d d' : Dev} (hw : d'.modeView.word = d.modeView.word) (hl : d'.modeView.live = d.modeView.live)
    (hc : d'.modeView.ctl = d.modeView.ctl) : d'.modeView = d.modeView :=
  ModeView.ext hw hl hc

theorem Dev.modeView_setReg_ne (d : Dev) {pg off : Nat} (v : Word) (hm : raddr pg off ≠ raddr Pg.dev 0x100)
    (hs : raddr pg off ≠ raddr Pg.pmc 0x00C) : (d.setReg pg off v).modeView = d.modeView :=
  Dev.modeView_eq (d.reg_setReg_ne v hm) (d.reg_setReg_ne v hs) rfl

/-- The pages of every block but DEV and PMC lie above both registers. -/
theorem raddr_page_ne {b : Blk} (i off : Nat) (hb : 2 ≤ b.base) :
    raddr (b.page i) off ≠ raddr Pg.dev 0x100 ∧ raddr (b.page i) off ≠ raddr Pg.pmc 0x00C := by
  have hd : raddr Pg.dev 0x100 = 256 := by decide
  have hp : raddr Pg.pmc 0x00C = 4108 := by decide
  have : raddr (b.page i) off = (b.base + i) * 4096 + off := rfl
  omega

theorem Dev.modeView_setReg (d : Dev) {b : Blk} (i off : Nat) (v : Word) (hb : 2 ≤ b.base) :
    (d.setReg (b.page i) off v).modeView = d.modeView :=
  d.modeView_setReg_ne v (raddr_page_ne i off hb).1 (raddr_page_ne i off hb).2

theorem Dev.modeView_setFld (d : Dev) {b : Blk} (i : Nat) (f : Fld) (v : Nat) (hb : 2 ≤ b.base) :
    (d.setFld (b.page i) f v).modeView = d.modeView := d.modeView_setReg i _ _ hb

theorem Dev.modeView_setLog (d : Dev) (l : CkLog) : (d.setLog l).modeView = d.modeView := (rfl)

theorem Dev.modeView_bumpBy (d : Dev) {b : Blk} (i : Nat) (f : Fld) (k : Nat) (hb : 2 ≤ b.base) :
    (d.bumpBy (b.page i) f k).modeView = d.modeView := d.modeView_setFld i f _ hb
theorem Dev.modeView_bump (d : Dev) {b : Blk} (i : Nat) (f : Fld) (hb : 2 ≤ b.base) :
    (d.bump (b.page i) f).modeView = d.modeView := d.modeView_bumpBy i f 1 hb

theorem Dev.modeView_sched (d : Dev) (k : Nat) (i : Instr) : (d.sched k i).modeView = d.modeView := (rfl)

theorem Dev.modeView_schedOnce (d : Dev) (k : Nat) (i : Instr) : (d.schedOnce k i).modeView = d.modeView := by
  unfold Dev.schedOnce
  split <;> rfl

theorem Dev.modeView_foldl {α : Type} (f : Dev → α → Dev) (l : List α) (d : Dev) (h : ∀ d x, (f d x).modeView = d.modeView) :
    (l.foldl f d).modeView = d.modeView := by
  induction l generalizing d with
  | nil => rfl
  | cons x l ih => rw [List.foldl_cons, ih, h]

/-! Updates of what is no register and nothing of a transition. -/

theorem Dev.modeView_agenda (d : Dev) (x : List (Nat × Instr)) : ({ d with agenda := x } : Dev).modeView = d.modeView := (rfl)
theorem Dev.modeView_setRec (d : Dev) (rid : Nat) (r : Rec) : (d.setRec rid r).modeView = d.modeView := (rfl)
theorem Dev.modeView_dropRec (d : Dev) (rid : Nat) : (d.dropRec rid).modeView = d.modeView := (rfl)
theorem Dev.modeView_setCq (d : Dev) (h : Nat) (x : CqSt) : (d.setCq h x).modeView = d.modeView := (rfl)
theorem Dev.modeView_setPlu (d : Dev) (h : Nat) (x : PluSt) : (d.setPlu h x).modeView = d.modeView := (rfl)
theorem Dev.modeView_setFlowFld (d : Dev) (h f : Nat) (k : Fld) (v : Nat) : (d.setFlowFld h f k v).modeView = d.modeView := (rfl)
theorem Dev.modeView_setLpc (d : Dev) (h : Nat) (x : LpcSt) : (d.setLpc h x).modeView = d.modeView := (rfl)
theorem Dev.modeView_setLane (d : Dev) (n : Nat) (x : LaneSt) : (d.setLane n x).modeView = d.modeView := (rfl)
theorem Dev.modeView_setStim (d : Dev) (n : Nat) (x : StimLane) : (d.setStim n x).modeView = d.modeView := (rfl)
theorem Dev.modeView_setPlay (d : Dev) (h s : Nat) (x : PlaySt) : (d.setPlay h s x).modeView = d.modeView := (rfl)
theorem Dev.modeView_setEng (d : Dev) (t : Nat) (x : EngSt) : (d.setEng t x).modeView = d.modeView := (rfl)
theorem Dev.modeView_setGk (d : Dev) (k : Nat) (x : GkSt) : (d.setGk k x).modeView = d.modeView := (rfl)
theorem Dev.modeView_setDma (d : Dev) (k : Nat) (x : DmaSt) : (d.setDma k x).modeView = d.modeView := (rfl)
theorem Dev.modeView_setDrc (d : Dev) (c : Nat) (x : DrcSt) : (d.setDrc c x).modeView = d.modeView := (rfl)
theorem Dev.modeView_setSub (d : Dev) (c s : Nat) (x : DSub) : (d.setSub c s x).modeView = d.modeView := (rfl)
theorem Dev.modeView_setNoc (d : Dev) (h : Nat) (x : NocSt) : (d.setNoc h x).modeView = d.modeView := (rfl)
theorem Dev.modeView_setCrypt (d : Dev) (h : Nat) (x : CryptSt) : (d.setCrypt h x).modeView = d.modeView := (rfl)
theorem Dev.modeView_setDbg (d : Dev) (t : Nat) (x : DbgSt) : (d.setDbg t x).modeView = d.modeView := (rfl)
theorem Dev.modeView_setTfld (d : Dev) (t : Nat) (f : Fld) (v : Nat) : (d.setTfld t f v).modeView = d.modeView := (rfl)
theorem Dev.modeView_onFab (d : Dev) (f : FabSt → FabSt) : (d.onFab f).modeView = d.modeView := (rfl)
theorem Dev.modeView_dropFetch (d : Dev) (t : Nat) : (d.dropFetch t).modeView = d.modeView := (rfl)
theorem Dev.modeView_dropBytes (d : Dev) (a n : Nat) : (d.dropBytes a n).modeView = d.modeView := (rfl)
theorem Dev.modeView_stopRefresh (d : Dev) (c : Nat) : (d.stopRefresh c).modeView = d.modeView := (rfl)
theorem Dev.modeView_cfgStop (d : Dev) : d.cfgStop.modeView = d.modeView := (rfl)
theorem Dev.modeView_nocSend (d : Dev) (r : NocReq) : (d.nocSend r).modeView = d.modeView := (rfl)

/-! Errors and interrupts. -/

theorem Dev.modeView_setReg_header (d : Dev) (pg : Nat) {off : Nat} (v : Word) (h : 0x010 ≤ off) (h' : off < 0x100) :
    (d.setReg pg off v).modeView = d.modeView :=
  d.modeView_setReg_ne _ (fun e => absurd (raddr_inj (by omega) (by decide) e).2 (by omega))
    (fun e => absurd (raddr_inj (by omega) (by decide) e).2 (by omega))

theorem Dev.modeView_setFld_header (d : Dev) (pg : Nat) (f : Fld) (v : Nat) (h : 0x010 ≤ f.off) (h' : f.off < 0x100) :
    (d.setFld pg f v).modeView = d.modeView := d.modeView_setReg_header pg _ h h'

theorem Dev.modeView_errFirst (d : Dev) (pg idx code : Nat) : (d.errFirst pg idx code).modeView = d.modeView := by
  have h : (d.errLoad pg idx code).modeView = d.modeView := by
    rw [Dev.errLoad, Dev.modeView_setLog, Dev.modeView_setFld_header _ _ _ _ (by decide) (by decide),
      Dev.modeView_setFld_header _ _ _ _ (by decide) (by decide)]
  unfold Dev.errFirst
  simp only [apply_ite Dev.modeView, h, ite_self]

theorem Dev.modeView_err (d : Dev) (pg code : Nat) {idx : Nat} (h : idx < 8) : (d.err pg idx code).modeView = d.modeView := by
  rw [Dev.err, Dev.modeView_errFirst, Dev.noteErr, Dev.modeView_setLog, Dev.bump, Dev.bumpBy, Dev.noteCount, Dev.modeView_setLog,
    Dev.modeView_setFld_header _ _ _ _ (by simp only [F.ERRCNT]; omega) (by simp only [F.ERRCNT]; omega)]

theorem Dev.modeView_sendVec (d : Dev) (v : Nat) : (d.sendVec v).modeView = d.modeView := by
  unfold Dev.sendVec
  dsimp only
  split_ifs <;> rfl

theorem Dev.modeView_lineMoved (d : Dev) (pg : Nat) (b : Bool) : (d.lineMoved pg b).modeView = d.modeView := by
  unfold Dev.lineMoved
  split <;> rfl

theorem Dev.modeView_seqStep (d : Dev) (pg : Nat) (b : Bool) : (d.seqStep pg b).modeView = d.modeView := by
  unfold Dev.seqStep
  split
  · rw [Dev.modeView_setLog, Dev.modeView_setFld_header _ pg F.SEQ _ (by decide) (by decide)]
  · rfl

theorem Dev.modeView_pend (d : Dev) (pg k : Nat) : (d.pend pg k).modeView = d.modeView := by
  unfold Dev.pend Dev.pendBits Dev.edge
  simp only [apply_ite Dev.modeView, Dev.modeView_sendVec, Dev.modeView_lineMoved, Dev.modeView_seqStep, ite_self]
  exact Dev.modeView_setReg_header _ pg _ (by decide) (by decide)

/-! Records and the capture queue. -/

theorem Dev.modeView_toQueue (d : Dev) (h : Nat) (x : AllocItem) : (d.toQueue h x).modeView = d.modeView := by
  unfold Dev.toQueue
  exact Dev.modeView_foldl _ _ _ (fun _ _ => rfl)

theorem Dev.modeView_lineEvent (d : Dev) (h lane : Nat) (lp : LP) (flags : Nat) (payload : List Byte) :
    (d.lineEvent h lane lp flags payload).modeView = d.modeView := Dev.modeView_toQueue _ _ _

theorem Dev.modeView_epochLost (d : Dev) (h f ep cause : Nat) : (d.epochLost h f ep cause).modeView = d.modeView := by
  unfold Dev.epochLost Dev.onEpoch
  split
  · rfl
  · split <;> rfl

theorem Dev.modeView_flowBump (d : Dev) (h f : Nat) (k : Fld) (n : Nat) : (d.flowBump h f k n).modeView = d.modeView := by
  unfold Dev.flowBump
  rw [Dev.modeView_setLog, Dev.modeView_setFlowFld]

theorem Dev.modeView_kickWriter (d : Dev) (h : Nat) : (d.kickWriter h).modeView = d.modeView := d.modeView_schedOnce _ _

theorem Dev.modeView_resolve (d : Dev) (h f : Nat) : (d.resolve h f).modeView = d.modeView := by
  unfold Dev.resolve
  dsimp only
  split <;>
    simp only [apply_ite Dev.modeView, Dev.modeView_schedOnce, Dev.modeView_kickWriter, Dev.modeView_setFlowFld, ite_self] <;> rfl

theorem Dev.modeView_stopFlow (d : Dev) (h f : Nat) : (d.stopFlow h f).modeView = d.modeView := Dev.modeView_resolve _ h f

theorem Dev.modeView_stopFlows (d : Dev) (h : Nat) (but0 : Bool) : (d.stopFlows h but0).modeView = d.modeView :=
  Dev.modeView_foldl _ _ _ (fun d k => d.modeView_stopFlow h (k % 4096))

theorem Dev.modeView_loseNum (d : Dev) (h f rid cause : Nat) : (d.loseNum h f rid cause).modeView = d.modeView := by
  unfold Dev.loseNum
  simp (disch := decide) only [Dev.modeView_resolve, Dev.modeView_bump, Dev.modeView_flowBump]
  rfl

theorem Dev.modeView_flushCheck (d : Dev) (h : Nat) : (d.flushCheck h).modeView = d.modeView := by
  unfold Dev.flushCheck
  simp only [apply_ite Dev.modeView, Dev.modeView_schedOnce, ite_self]

theorem Dev.modeView_fillMoved (d : Dev) (h before : Nat) : (d.fillMoved h before).modeView = d.modeView := by
  unfold Dev.fillMoved Dev.pluAsk
  simp (disch := decide) only [apply_ite Dev.modeView, Dev.modeView_setPlu, Dev.modeView_pend, Dev.modeView_setFld, ite_self]

theorem Dev.modeView_freeUnits (d : Dev) (rid : Nat) : (d.freeUnits rid).modeView = d.modeView := by
  unfold Dev.freeUnits
  simp only [Dev.modeView_flushCheck, Dev.modeView_fillMoved, Dev.modeView_setRec, Dev.modeView_setCq]

theorem Dev.modeView_slotCheck (d : Dev) (h f : Nat) : (d.slotCheck h f).modeView = d.modeView := by
  unfold Dev.slotCheck Dev.freeSlot Dev.setSlots
  simp (disch := decide) only [apply_ite Dev.modeView, Dev.modeView_setFlowFld, Dev.modeView_setFld, Dev.modeView_setEng, ite_self]

theorem Dev.modeView_loseRec (d : Dev) (rid cause : Nat) : (d.loseRec rid cause).modeView = d.modeView := by
  unfold Dev.loseRec
  simp only [apply_ite Dev.modeView, Dev.modeView_slotCheck, Dev.modeView_kickWriter, Dev.modeView_loseNum, Dev.modeView_dropRec,
    Dev.modeView_setRec, Dev.modeView_epochLost, Dev.modeView_freeUnits, ite_self]

theorem Dev.modeView_drainAsk (d : Dev) (h : Nat) : (d.drainAsk h).modeView = d.modeView := (rfl)

theorem Dev.modeView_drainMark (d : Dev) (h : Nat) : (d.drainMark h).modeView = d.modeView := by
  unfold Dev.drainMark Dev.cqFlush
  simp (disch := decide) only [apply_ite Dev.modeView, Dev.modeView_flushCheck, Dev.modeView_setFld, Dev.modeView_setCq, ite_self]

/-! Lanes, the line position. -/

theorem Dev.modeView_lpcEvent (d : Dev) (h cause : Nat) (old new : LP) : (d.lpcEvent h cause old new).modeView = d.modeView :=
  d.modeView_lineEvent _ _ _ _ _

theorem Dev.modeView_setLpcState (d : Dev) (h st : Nat) : (d.setLpcState h st).modeView = d.modeView := d.modeView_setFld _ _ _ (by decide)

theorem Dev.modeView_lostHalf (d : Dev) (h : Nat) : (d.lostHalf h).modeView = d.modeView := by
  unfold Dev.lostHalf Dev.freewheelHalf
  simp (disch := decide) only [apply_ite Dev.modeView, Dev.modeView_setLpc, Dev.modeView_lpcEvent, Dev.modeView_pend, Dev.modeView_bump,
    Dev.modeView_setLpcState, ite_self]

theorem Dev.modeView_refLaneLost (d : Dev) (n : Nat) : (d.refLaneLost n).modeView = d.modeView := by
  unfold Dev.refLaneLost Dev.freewheel
  simp only [apply_ite Dev.modeView, Dev.modeView_lostHalf, ite_self]

theorem Dev.modeView_showFollower (d : Dev) : d.showFollower.modeView = d.modeView := by
  unfold Dev.showFollower
  simp (disch := decide) only [Dev.modeView_setFld]

theorem Dev.modeView_setRate (d : Dev) (h r : Nat) : (d.setRate h r).modeView = d.modeView := by
  unfold Dev.setRate
  simp (disch := decide) only [Dev.modeView_setFld]

theorem Dev.modeView_startWindow (d : Dev) (h : Nat) : (d.startWindow h).modeView = d.modeView := (rfl)

theorem Dev.modeView_lpcLeaveIdle (d : Dev) (h : Nat) : (d.lpcLeaveIdle h).modeView = d.modeView := by
  unfold Dev.lpcLeaveIdle
  simp only [apply_ite Dev.modeView, Dev.modeView_lpcEvent, Dev.modeView_pend, Dev.modeView_startWindow, Dev.modeView_showFollower,
    Dev.modeView_setLpc, Dev.modeView_setLpcState, Dev.modeView_setRate, ite_self]

theorem Dev.modeView_newWindow (d : Dev) (h : Nat) : (d.newWindow h).modeView = d.modeView := (rfl)

theorem Dev.modeView_passStart (d : Dev) (n : Nat) : (d.passStart n).modeView = d.modeView := by
  unfold Dev.passStart
  simp (disch := decide) only [apply_ite Dev.modeView, Dev.modeView_err, ite_self]

theorem Dev.modeView_alignNote (d : Dev) (lane : Nat) (lp : LP) (payload : List Byte) : (d.alignNote lane lp payload).modeView = d.modeView := by
  unfold Dev.alignNote
  dsimp only
  split <;> rfl

theorem Dev.modeView_sievePoint (d : Dev) (n : Fin 64) (rid : Nat) (lp : LP) : (d.sievePoint n rid lp).modeView = d.modeView := by
  unfold Dev.sievePoint
  simp only [apply_ite Dev.modeView, Dev.modeView_sched, Dev.modeView_setLane, Dev.modeView_setRec, Dev.modeView_toQueue, ite_self]

theorem Dev.modeView_closeRecord (d : Dev) (n : Fin 64) (lp : LP) (flags : Nat) : (d.closeRecord n lp flags).modeView = d.modeView := by
  unfold Dev.closeRecord
  split
  · rfl
  · simp only [apply_ite Dev.modeView, Dev.modeView_sievePoint, Dev.modeView_alignNote, Dev.modeView_setLane, Dev.modeView_setRec, ite_self]

theorem Dev.modeView_noTx (d : Dev) (n : Nat) : (d.noTx n).modeView = d.modeView := by
  unfold Dev.noTx
  simp (disch := decide) only [Dev.modeView_pend, Dev.modeView_bump]

theorem Dev.modeView_txGone (d : Dev) (m : Nat) : (d.txGone m).modeView = d.modeView := by
  unfold Dev.txGone
  dsimp only
  rw [Dev.modeView_setLane, Dev.modeView_setStim]
  split
  · exact Dev.modeView_foldl _ _ _ (fun d _ => d.modeView_noTx m)
  · exact Dev.modeView_foldl _ _ _ (fun d _ => d.modeView_noTx m)

theorem Dev.modeView_srcGone (d : Dev) (n : Nat) : (d.srcGone n).modeView = d.modeView :=
  Dev.modeView_foldl _ _ _ (fun d k => by simp only [apply_ite Dev.modeView, Dev.modeView_txGone, ite_self])

theorem Dev.modeView_laneOff (d : Dev) (n : Fin 64) : (d.laneOff n).modeView = d.modeView := by
  unfold Dev.laneOff Dev.setLaneState
  simp (disch := decide) only [apply_ite Dev.modeView, Dev.modeView_refLaneLost, Dev.modeView_srcGone, Dev.modeView_txGone,
    Dev.modeView_agenda, Dev.modeView_setLane, Dev.modeView_setFld, Dev.modeView_closeRecord, ite_self]

/-! Stimulus, sequencers, host events. -/

theorem Dev.modeView_txEnds (d : Dev) (n : Fin 64) : (d.txEnds n).modeView = d.modeView := by
  unfold Dev.txEnds
  dsimp only
  rw [Dev.modeView_foldl _ _ _ (fun d s => d.modeView_sched _ _), Dev.modeView_setLane, Dev.modeView_setStim]

theorem Dev.modeView_playStopAt (d : Dev) (h s : Nat) : (d.playStopAt h s).modeView = d.modeView := by
  unfold Dev.playStopAt Dev.playEnd Dev.setPlayState
  simp (disch := decide) only [apply_ite Dev.modeView, Dev.modeView_pend, Dev.modeView_setFld, Dev.modeView_setPlay, ite_self]

theorem Dev.modeView_setEvsEntry (d : Dev) (h i : Nat) (e : BitVec 256) : (d.setEvsEntry h i e).modeView = d.modeView := (rfl)

theorem Dev.modeView_evsDiscard (d : Dev) (h i : Nat) (e : BitVec 256) : (d.evsDiscard h i e).modeView = d.modeView := by
  unfold Dev.evsDiscard
  rw [Dev.modeView_pend, Dev.modeView_bump _ _ _ (by decide), Dev.modeView_setEvsEntry]

theorem Dev.modeView_evsModeDiscard (d : Dev) (h : Nat) : (d.evsModeDiscard h).modeView = d.modeView :=
  Dev.modeView_foldl _ _ _ (fun d e => by simp only [apply_ite Dev.modeView, Dev.modeView_evsDiscard, ite_self])

theorem Dev.modeView_stims (d : Dev) (a : List Action) (x : SMap StimLane) :
    ({ d with stimIn := a, stims := x } : Dev).modeView = d.modeView := (rfl)

theorem Dev.modeView_stimCancel (d : Dev) (h : Nat) : (d.stimCancel h).modeView = d.modeView := by
  unfold Dev.stimCancel
  dsimp only
  rw [Dev.modeView_stims, Dev.modeView_foldl _ _ _ (fun d s => d.modeView_playStopAt h s), Dev.modeView_evsModeDiscard]

theorem Dev.modeView_setArmed (d : Dev) (h q v : Nat) : (d.setArmed h q v).modeView = d.modeView := by
  unfold Dev.setArmed
  rw [Dev.modeView_setFld _ _ _ _ (by decide), Dev.modeView_setFld _ _ _ _ (by decide)]

theorem Dev.modeView_hostEvs (d : Dev) (x : List (BitVec 512)) : ({ d with hostEvs := x } : Dev).modeView = d.modeView := (rfl)

theorem Dev.modeView_evtKick (d : Dev) : d.evtKick.modeView = d.modeView := by
  unfold Dev.evtKick
  simp only [apply_ite Dev.modeView, Dev.modeView_sched, ite_self]

theorem Dev.modeView_genEvent (d : Dev) (hseq typ status code : Nat) (payload : List Byte) :
    (d.genEvent hseq typ status code payload).modeView = d.modeView := by
  unfold Dev.genEvent
  simp (disch := decide) only [apply_ite Dev.modeView, Dev.modeView_pend, Dev.modeView_bump, Dev.modeView_evtKick, Dev.modeView_hostEvs,
    Dev.modeView_setFld, ite_self]

/-! Bays and the load under way. -/

theorem Dev.modeView_wipeBay (d : Dev) (b : Nat) : (d.wipeBay b).modeView = d.modeView := by
  unfold Dev.wipeBay Dev.setRcfg Dev.shadowGone
  dsimp only
  rw [Dev.modeView_sched, Dev.modeView_setFld _ _ _ _ (by decide), Dev.modeView_setFld _ _ _ _ (by decide), Dev.modeView_agenda]
  split <;> rfl

theorem Dev.modeView_bayLoadCut (d : Dev) : d.bayLoadCut.modeView = d.modeView := by
  have hf : (d.bayLoadFail 5 0x1107).modeView = d.modeView := by
    have hc : ((d.cfgCount 5 0x1107).cfgStop).modeView = d.modeView := by
      unfold Dev.cfgCount
      rw [Dev.modeView_cfgStop, Dev.modeView_pend, Dev.modeView_setReg _ _ _ _ (by decide), Dev.modeView_err _ _ _ (by decide)]
    unfold Dev.bayLoadFail
    dsimp only
    split
    · rw [Dev.modeView_wipeBay, hc]
    · exact hc
  unfold Dev.bayLoadCut
  split
  · simp only [apply_ite Dev.modeView, hf, ite_self]
  · rfl

/-! DRAM channels. -/

theorem Dev.modeView_setByte (d : Dev) (a : Nat) (v : Byte) : (d.setByte a v).modeView = d.modeView := (rfl)

theorem Dev.modeView_setBytes (d : Dev) (a : Nat) (l : List Byte) : (d.setBytes a l).modeView = d.modeView := by
  induction l generalizing d a with
  | nil => rfl
  | cons x l ih => rw [Dev.setBytes, ih, Dev.modeView_setByte]

theorem Dev.modeView_chk (d : Dev) (x : SMap (BitVec 128)) : ({ d with chk := x } : Dev).modeView = d.modeView := (rfl)

theorem Dev.modeView_memiStore (d : Dev) (c off : Nat) (data : BitVec 512) (poison : Bool) :
    (d.memiStore c off data poison).modeView = d.modeView := by
  unfold Dev.memiStore Dev.setBurst
  dsimp only
  rw [Dev.modeView_chk, Dev.modeView_setBytes]

theorem Dev.modeView_writeBackPair (d : Dev) (h id : Nat) : (d.writeBackPair h id).modeView = d.modeView := by
  unfold Dev.writeBackPair Dev.setSeal
  simp (disch := decide) only [apply_ite Dev.modeView, Dev.modeView_setCrypt, Dev.modeView_bump, Dev.modeView_memiStore, ite_self]

theorem Dev.modeView_writeBackChannel (d : Dev) (c : Nat) : (d.writeBackChannel c).modeView = d.modeView :=
  Dev.modeView_foldl _ _ _ (fun d e => by rw [Dev.modeView_setCrypt, Dev.modeView_writeBackPair])

theorem Dev.modeView_setChanState (d : Dev) (c st : Nat) : (d.setChanState c st).modeView = d.modeView := d.modeView_setFld _ _ _ (by decide)

theorem Dev.modeView_callRequest (d : Dev) (c s : Nat) (all : Bool) : (d.callRequest c s all).modeView = d.modeView := by
  unfold Dev.callRequest
  split
  · rfl
  · rw [Dev.modeView_sched, Dev.modeView_agenda]

theorem Dev.modeView_unpark (d : Dev) : d.unpark.modeView = d.modeView :=
  Dev.modeView_foldl _ _ _ (fun d e => by
    dsimp only
    split <;> rfl)

theorem Dev.modeView_resumeChannel (d : Dev) (c : Nat) : (d.resumeChannel c).modeView = d.modeView := by
  unfold Dev.resumeChannel
  rw [Dev.modeView_foldl, Dev.modeView_unpark]
  intro d s
  simp only [apply_ite Dev.modeView, Dev.modeView_schedOnce, Dev.modeView_callRequest, ite_self]

theorem Dev.modeView_resumeAll (d : Dev) : d.resumeAll.modeView = d.modeView :=
  Dev.modeView_foldl _ _ _ (fun d c => d.modeView_resumeChannel c)

/-! Domains. -/

/-- Of the PMC page only PMC_STAT shows causes. -/
theorem Dev.modeView_setFld_pmc (d : Dev) (f : Fld) (v : Nat) (h : 0x100 ≤ f.off) : (d.setFld Pg.pmc f v).modeView = d.modeView := by
  have hd : raddr Pg.dev 0x100 = 256 := by decide
  have hs : raddr Pg.pmc 0x00C = 4096 + 12 := by decide
  have hf : raddr Pg.pmc f.off = 4096 + f.off := rfl
  exact d.modeView_setReg_ne _ (by omega) (by omega)

theorem Dev.modeView_setDomState (d : Dev) (k st : Nat) : (d.setDomState k st).modeView = d.modeView :=
  d.modeView_setFld_pmc _ _ (Nat.le_add_right_of_le (by decide))
theorem Dev.modeView_setByDev (d : Dev) (k v : Nat) : (d.setFld Pg.pmc (byDevFld k) v).modeView = d.modeView :=
  d.modeView_setFld_pmc _ _ (Nat.le_add_right_of_le (by decide))
theorem Dev.modeView_setForced (d : Dev) (k v : Nat) : (d.setFld Pg.pmc (forcedFld k) v).modeView = d.modeView :=
  d.modeView_setFld_pmc _ _ (Nat.le_add_right_of_le (by decide))
theorem Dev.modeView_bumpClose (d : Dev) : (d.bump Pg.pmc F.PMC_CLOSE_CNT).modeView = d.modeView := by
  rw [Dev.bump, Dev.bumpBy, Dev.noteCount, Dev.modeView_setLog, Dev.modeView_setFld_pmc _ _ _ (by decide)]

theorem Dev.modeView_dmaStatus (d : Dev) (k st : Nat) : (d.dmaStatus k st).modeView = d.modeView := by
  unfold Dev.dmaStatus Dev.dmaSend
  simp only [Dev.modeView_nocSend, Dev.modeView_setDma]

theorem Dev.modeView_dmaSettle (d : Dev) (k : Nat) : (d.dmaSettle k).modeView = d.modeView := by
  unfold Dev.dmaSettle Dev.dmaSend
  dsimp only
  split
  · rfl
  split
  · simp only [apply_ite Dev.modeView, Dev.modeView_dmaStatus, Dev.modeView_setDma, ite_self]
  split <;>
    simp only [apply_ite Dev.modeView, Dev.modeView_dmaStatus, Dev.modeView_nocSend, Dev.modeView_setDma, Dev.modeView_schedOnce, ite_self]

theorem Dev.modeView_dmaPower (d : Dev) (k : Nat) : (d.dmaPower k).modeView = d.modeView := by
  unfold Dev.dmaPower Dev.dmaFollow Dev.setDmaState Dev.dmaKick
  simp (disch := decide) only [apply_ite Dev.modeView, Dev.modeView_schedOnce, Dev.modeView_dmaSettle, Dev.modeView_setFld, ite_self]

theorem Dev.modeView_dmaDomains (d : Dev) : d.dmaDomains.modeView = d.modeView :=
  Dev.modeView_foldl _ _ _ (fun d k => d.modeView_dmaPower k)

theorem Dev.modeView_setEngState (d : Dev) (e st : Nat) : (d.setEngState e st).modeView = d.modeView := by
  unfold Dev.setEngState
  simp (disch := decide) only [apply_ite Dev.modeView, Dev.modeView_schedOnce, Dev.modeView_setFld, ite_self]

theorem Dev.modeView_engineQuit (d : Dev) (e : Nat) : (d.engineQuit e).modeView = d.modeView := by
  unfold Dev.engineQuit
  simp only [apply_ite Dev.modeView, Dev.modeView_setEngState, Dev.modeView_setEng, ite_self]

theorem Dev.modeView_drainCheck (d : Dev) (c : Nat) : (d.drainCheck c).modeView = d.modeView := by
  unfold Dev.drainCheck
  split
  · rfl
  split <;>
    simp only [apply_ite Dev.modeView, Dev.modeView_schedOnce, Dev.modeView_setDrc, Dev.modeView_writeBackChannel, ite_self]

theorem Dev.modeView_selfRefreshEntry (d : Dev) (c : Nat) : (d.selfRefreshEntry c).modeView = d.modeView := by
  unfold Dev.selfRefreshEntry Dev.retrainUndone
  simp (disch := decide) only [apply_ite Dev.modeView, Dev.modeView_drainCheck, Dev.modeView_setDrc, Dev.modeView_err,
    Dev.modeView_setChanState, Dev.modeView_agenda, ite_self]

theorem Dev.modeView_startClose (d : Dev) (k : Nat) : (d.startClose k).modeView = d.modeView := by
  unfold Dev.startClose
  split
  · exact Dev.modeView_foldl _ _ _ (fun d e => d.modeView_engineQuit e)
  · exact d.modeView_selfRefreshEntry _
  · rfl

theorem Dev.modeView_nocReqs (d : Dev) (x : SMap NocReq) : ({ d with nocReqs := x } : Dev).modeView = d.modeView := (rfl)
theorem Dev.modeView_pmc (d : Dev) (x : PmcSt) : ({ d with pmc := x } : Dev).modeView = d.modeView := (rfl)

theorem Dev.modeView_domClose (d : Dev) (k : Nat) (dev : Bool) : (d.domClose k dev).modeView = d.modeView := by
  unfold Dev.domClose
  simp only [apply_ite Dev.modeView, Dev.modeView_sched, Dev.modeView_dmaDomains, Dev.modeView_startClose, Dev.modeView_nocReqs,
    Dev.modeView_setByDev, Dev.modeView_bumpClose, Dev.modeView_setDomState, Dev.modeView_pmc, ite_self]

theorem Dev.modeView_dramForced (d : Dev) (c : Nat) : (d.dramForced c).modeView = d.modeView := by
  have hs : ∀ d : Dev, ([0, 1].foldl (fun (d : Dev) s => d.setSub c s { lastScrub := (d.subOf c s).lastScrub }) d).modeView = d.modeView :=
    fun d => Dev.modeView_foldl _ _ _ (fun d s => d.modeView_setSub c s _)
  unfold Dev.dramForced
  simp (disch := decide) only [apply_ite Dev.modeView, Dev.modeView_stopRefresh, Dev.modeView_bump, Dev.modeView_setChanState, hs,
    Dev.modeView_setDrc, Dev.modeView_agenda, ite_self]

/-! Engines and Gecko cores. -/

theorem Dev.modeView_endTask (d : Dev) (e : Nat) : (d.endTask e).modeView = d.modeView := by
  unfold Dev.endTask
  simp (disch := decide) only [Dev.modeView_setFld, Dev.modeView_setEng]

theorem Dev.modeView_bayMems (d : Dev) (a : SMap Byte) (b : List Nat) (q : SMap (List BayReq)) (r : SMap (List (Nat × Nat))) :
    ({ d with ctx := a, ctxBad := b, bayQ := q, resvs := r } : Dev).modeView = d.modeView := (rfl)

theorem Dev.modeView_bayLoses (d : Dev) (b : Nat) : (d.bayLoses b).modeView = d.modeView := by
  unfold Dev.bayLoses
  dsimp only
  rw [Dev.modeView_foldl, Dev.modeView_bayMems, Dev.modeView_onFab, Dev.modeView_dropBytes, Dev.modeView_dropBytes]
  intro d e
  simp only [apply_ite Dev.modeView, Dev.modeView_setEngState, Dev.modeView_setEng, Dev.modeView_dropFetch, Dev.modeView_endTask, ite_self]

theorem Dev.modeView_offerWord (d : Dev) (t : Nat) (w : Word) : (d.offerWord t w).modeView = d.modeView := by
  unfold Dev.offerWord
  dsimp only
  split <;> simp only [apply_ite Dev.modeView, Dev.modeView_sched, Dev.modeView_dropFetch, ite_self]

theorem Dev.modeView_gkFetchTrap (d : Dev) (k cause addr : Nat) : (d.gkFetchTrap k cause addr).modeView = d.modeView := by
  unfold Dev.gkFetchTrap
  rw [Dev.modeView_sched, Dev.modeView_dropFetch]

theorem Dev.modeView_gkFill (d : Dev) (k line : Nat) (ins : Bool) : (d.gkFill k line ins).modeView = d.modeView := by
  unfold Dev.gkFill
  simp only [apply_ite Dev.modeView, Dev.modeView_nocSend, Dev.modeView_setGk, ite_self]

theorem Dev.modeView_fetch (d : Dev) (t : Nat) : (d.fetch t).modeView = d.modeView := by
  unfold Dev.fetch
  dsimp only
  split
  · rfl
  split
  · exact d.modeView_offerWord _ _
  split
  · exact d.modeView_gkFetchTrap _ _ _
  split
  · exact d.modeView_gkFetchTrap _ _ _
  split
  · exact d.modeView_offerWord _ _
  · exact d.modeView_offerWord _ _
  · exact d.modeView_gkFetchTrap _ _ _
  split
  · rw [Dev.modeView_nocSend, Dev.modeView_dropFetch]
  split
  · rw [Dev.modeView_offerWord, Dev.modeView_setGk]
  · rw [Dev.modeView_gkFill, Dev.modeView_dropFetch]

theorem Dev.modeView_wdogReload (d : Dev) (k : Nat) : (d.wdogReload k).modeView = d.modeView := by
  unfold Dev.wdogReload
  simp only [apply_ite Dev.modeView, Dev.modeView_sched, Dev.modeView_setGk, Dev.modeView_agenda, ite_self]

theorem Dev.modeView_geckoCoreReset (d : Dev) (k : Nat) : (d.geckoCoreReset k).modeView = d.modeView := by
  unfold Dev.geckoCoreReset Dev.coreStart Dev.showWbuf
  dsimp only
  split <;>
    simp (disch := decide) only [apply_ite Dev.modeView, Dev.modeView_sched, Dev.modeView_fetch, Dev.modeView_wdogReload, Dev.modeView_setFld,
      Dev.modeView_setGk, Dev.modeView_setDbg, Dev.modeView_setTfld, Dev.modeView_setEng, Dev.modeView_agenda, Dev.modeView_dropFetch, ite_self]

theorem Dev.modeView_complexOff (d : Dev) (h : Nat) : (d.complexOff h).modeView = d.modeView :=
  Dev.modeView_foldl _ _ _ (fun d k => by
    simp only [Dev.modeView_agenda, Dev.modeView_setGk, Dev.modeView_geckoCoreReset])

theorem Dev.modeView_domShut (d : Dev) (k : Nat) : (d.domShut k).modeView = d.modeView := by
  unfold Dev.domShut
  dsimp only
  rw [Dev.modeView_dmaDomains]
  split <;> simp only [Dev.modeView_bayLoses, Dev.modeView_complexOff, Dev.modeView_pend, Dev.modeView_setDomState]

theorem Dev.modeView_domForce (d : Dev) (k : Nat) : (d.domForce k).modeView = d.modeView := by
  have hn : ∀ d : Dev, ([0, 1].foldl (fun (d : Dev) h => d.setNoc h { d.nocOf h with
      isolated := (d.nocOf h).isolated.filter (fun x => decide (x ≠ k)) }) d).modeView = d.modeView :=
    fun d => Dev.modeView_foldl _ _ _ (fun d h => d.modeView_setNoc h _)
  unfold Dev.domForce
  dsimp only
  split
  · rfl
  rw [Dev.modeView_domShut]
  split <;>
    simp only [apply_ite Dev.modeView, Dev.modeView_dramForced, hn, Dev.modeView_setForced, Dev.modeView_setByDev, Dev.modeView_agenda,
      Dev.modeView_bumpClose, ite_self]

end Sys2Proof.Machine
end

section
/-! PROOFS. Transitions of the mode: the switch of the halves, OFFLOAD, SAFE and READY (R31 to R40, R439, R514, O32). -/

namespace Sys2Proof.Machine

/-! What a transition does before and after the mode held changes. -/

theorem Dev.modeView_leaveMode (d : Dev) (hs : List Nat) (old new : Nat) : (d.leaveMode hs old new).modeView = d.modeView := by
  have hc : ∀ d : Dev, (hs.foldl (fun (d : Dev) h => d.stimCancel h) d).modeView = d.modeView :=
    fun d => Dev.modeView_foldl _ _ _ (fun d h => d.modeView_stimCancel h)
  have ha : ∀ d : Dev, (hs.foldl (fun (d : Dev) h => (List.range 8).foldl (fun (d : Dev) q => d.setArmed h q 0) d) d).modeView = d.modeView :=
    fun d => Dev.modeView_foldl _ _ _ (fun d h => Dev.modeView_foldl _ _ _ (fun d q => d.modeView_setArmed h q 0))
  have hf : ∀ d : Dev, (hs.foldl (fun (d : Dev) h => d.stopFlows h (new = Mode.safe.code)) d).modeView = d.modeView :=
    fun d => Dev.modeView_foldl _ _ _ (fun d h => d.modeView_stopFlows h _)
  unfold Dev.leaveMode
  simp only [apply_ite Dev.modeView, hc, ha, hf, ite_self]

theorem Dev.modeView_lanesFollow (d : Dev) (hs : List Nat) (was : Nat) : (d.lanesFollow hs was).modeView = d.modeView :=
  Dev.modeView_foldl _ _ _ (fun d n => by
    simp only [apply_ite Dev.modeView, Dev.modeView_laneOff, Dev.modeView_passStart, Dev.modeView_txEnds, ite_self])

theorem Dev.modeView_setPins (d : Dev) (p : Pins) : (d.setPins p).modeView = d.modeView := (rfl)

/-- The end of a command. -/
theorem Dev.modeView_settle (d : Dev) : d.settle.modeView = d.modeView := by
  unfold Dev.settle Dev.pairDrop
  simp (disch := decide) only [apply_ite Dev.modeView, Dev.modeView_setPins, Dev.modeView_setFld, ite_self]

/-! What the view tells. -/

theorem Dev.fld_of_modeView {d d' : Dev} (h : d'.modeView = d.modeView) {f : Fld} (hf : f.off = 0x100) :
    d'.fld Pg.dev f = d.fld Pg.dev f := by
  have hw : d'.reg Pg.dev 0x100 = d.reg Pg.dev 0x100 := congrArg ModeView.word h
  unfold Dev.fld
  rw [hf, hw]

theorem Dev.reg_of_modeView {d d' : Dev} (h : d'.modeView = d.modeView) : d'.reg Pg.dev 0x100 = d.reg Pg.dev 0x100 := congrArg ModeView.word h
theorem Dev.mode_of_modeView {d d' : Dev} (h : d'.modeView = d.modeView) : d'.mode = d.mode := Dev.fld_of_modeView h rfl
theorem Dev.liveCauses_of_modeView {d d' : Dev} (h : d'.modeView.live = d.modeView.live) : d'.liveCauses = d.liveCauses :=
  congrArg (fun w : Word => bitsOf w.toNat 0 3) h
theorem Dev.south_of_ctl {d d' : Dev} (h : d'.modeView.ctl = d.modeView.ctl) : d'.south = d.south := congrArg ModeCtl.south h
theorem Dev.offEntry_of_ctl {d d' : Dev} (h : d'.modeView.ctl = d.modeView.ctl) : d'.offEntry = d.offEntry := congrArg ModeCtl.offEntry h
theorem Dev.safeEntry_of_ctl {d d' : Dev} (h : d'.modeView.ctl = d.modeView.ctl) : d'.safeEntry = d.safeEntry := congrArg ModeCtl.safeEntry h
theorem Dev.safeDue_of_ctl {d d' : Dev} (h : d'.modeView.ctl = d.modeView.ctl) : d'.safeDue = d.safeDue := congrArg ModeCtl.safeDue h
theorem Dev.modeTarget_of_ctl {d d' : Dev} (h : d'.modeView.ctl = d.modeView.ctl) : d'.modeTarget = d.modeTarget := congrArg ModeCtl.target h
theorem Dev.waking_of_ctl {d d' : Dev} (h : d'.modeView.ctl = d.modeView.ctl) : d'.waking = d.waking := congrArg ModeCtl.waking h
theorem Dev.readyCk_of_ctl {d d' : Dev} (h : d'.modeView.ctl = d.modeView.ctl) : d'.readyCk = d.readyCk := congrArg ModeCtl.readyCk h
theorem Dev.ck_of_ctl {d d' : Dev} (h : d'.modeView.ctl = d.modeView.ctl) : d'.ck = d.ck := congrArg ModeCtl.ck h
theorem Dev.mode_lt (d : Dev) : d.mode < 16 := d.fld_lt _ _

theorem Dev.ctl_setFld (d : Dev) (pg : Nat) (f : Fld) (v : Nat) : (d.setFld pg f v).modeView.ctl = d.modeView.ctl := rfl
theorem Dev.live_setMode (d : Dev) {f : Fld} (v : Nat) (hf : f.off = 0x100) : (d.setFld Pg.dev f v).modeView.live = d.modeView.live :=
  d.reg_setReg_ne _ (by rw [hf]; decide)

theorem Dev.modeOf_of_modeView {d d' : Dev} (h : d'.modeView = d.modeView) (i : Nat) : d'.modeOf i = d.modeOf i := by
  have hc := congrArg ModeView.ctl h
  unfold Dev.modeOf Dev.enteringSafe Dev.heldMode
  rw [Dev.south_of_ctl hc, Dev.safeEntry_of_ctl hc, Dev.offEntry_of_ctl hc, Dev.mode_of_modeView h]

/-- The halves hold a mode, entered from another; no transition is under way. -/
structure Dev.holdsMode (d : Dev) (m prev : Nat) : Prop where
  mode : d.mode = m
  trans : d.fld Pg.dev F.DEV_MODE_TRANS = 0
  prev : d.fld Pg.dev F.DEV_MODE_PREV = prev

theorem Dev.holdsMode.of_modeView {d d' : Dev} {m prev : Nat} (hd : d.holdsMode m prev) (h : d'.modeView = d.modeView) :
    d'.holdsMode m prev :=
  ⟨(Dev.mode_of_modeView h).trans hd.mode, (Dev.fld_of_modeView h rfl).trans hd.trans, (Dev.fld_of_modeView h rfl).trans hd.prev⟩

/-- A field of DEV_MODE beside one that is set. -/
theorem Dev.fld_setMode_ne (d : Dev) (f g : Fld) (v : Nat) (hf : f.off = g.off) (h : f.lo + f.wd ≤ 32)
    (hd : g.lo + g.wd ≤ f.lo ∨ f.lo + f.wd ≤ g.lo) : (d.setFld Pg.dev f v).fld Pg.dev g = d.fld Pg.dev g :=
  d.fld_setFld_disj _ _ _ _ hf h hd

/-- No half is left waiting for OFFLOAD. -/
def Dev.offloadOver (d : Dev) : Dev := { d with offEntry := d.offEntry.filter (fun h => !([0, 1] : List Nat).contains h) }

/-- What a device that is not split stores where its mode changes (R31, R32). -/
def Dev.storeMode (d : Dev) (new : Nat) : Dev :=
  (((d.setFld Pg.dev F.DEV_MODE_MODE new).setFld Pg.dev F.DEV_MODE_PREV d.mode).setFld Pg.dev F.DEV_MODE_TRANS 0).offloadOver.setFld
    Pg.dev F.DEV_MODE_OTHER new

theorem Dev.fld_offloadOver (d : Dev) (pg : Nat) (f : Fld) : d.offloadOver.fld pg f = d.fld pg f := rfl

theorem Dev.holdsMode_storeMode (d : Dev) {new : Nat} (hn : new < 16) : (d.storeMode new).holdsMode new d.mode where
  mode := by
    have hw : new % 2 ^ F.DEV_MODE_MODE.wd = new := Nat.mod_eq_of_lt hn
    rw [Dev.mode, Dev.storeMode, Dev.fld_setMode_ne _ F.DEV_MODE_OTHER F.DEV_MODE_MODE _ rfl (by decide) (by decide), Dev.fld_offloadOver,
      Dev.fld_setMode_ne _ F.DEV_MODE_TRANS F.DEV_MODE_MODE _ rfl (by decide) (by decide),
      Dev.fld_setMode_ne _ F.DEV_MODE_PREV F.DEV_MODE_MODE _ rfl (by decide) (by decide), Dev.fld_setFld _ _ _ _ (by decide), hw]
  trans := by
    rw [Dev.storeMode, Dev.fld_setMode_ne _ F.DEV_MODE_OTHER F.DEV_MODE_TRANS _ rfl (by decide) (by decide), Dev.fld_offloadOver,
      Dev.fld_setFld _ _ _ _ (by decide), Nat.zero_mod]
  prev := by
    have hw : d.mode % 2 ^ F.DEV_MODE_PREV.wd = d.mode := Nat.mod_eq_of_lt d.mode_lt
    rw [Dev.storeMode, Dev.fld_setMode_ne _ F.DEV_MODE_OTHER F.DEV_MODE_PREV _ rfl (by decide) (by decide), Dev.fld_offloadOver,
      Dev.fld_setMode_ne _ F.DEV_MODE_TRANS F.DEV_MODE_PREV _ rfl (by decide) (by decide), Dev.fld_setFld _ _ _ _ (by decide), hw]

theorem Dev.other_storeMode (d : Dev) {new : Nat} (hn : new < 16) : (d.storeMode new).fld Pg.dev F.DEV_MODE_OTHER = new := by
  have hw : new % 2 ^ F.DEV_MODE_OTHER.wd = new := Nat.mod_eq_of_lt hn
  rw [Dev.storeMode, Dev.fld_setFld _ _ _ _ (by decide), hw]

theorem Dev.heldMode_whole {d : Dev} (h : d.south = none) (i : Nat) : d.heldMode i = d.mode := by
  unfold Dev.heldMode
  rw [h]

/-- Both halves take a mode: it is stored, and the host hears of it (R406). -/
theorem Dev.putMode_both (d : Dev) (new : Nat) (h : d.south = none) : ∃ p, d.putMode [0, 1] new = (d.storeMode new).genEvent 0 3 0 0 p := by
  refine ⟨[byteOf d.mode 0, byteOf new 0, byteOf ((d.storeMode new).fld Pg.dev F.DEV_MODE_SAFE_CAUSE) 0], ?_⟩
  unfold Dev.putMode Dev.storeMode
  rw [Dev.heldMode_whole h]
  dsimp only
  rw [if_pos (by decide)]
  generalize hx : ((d.setFld Pg.dev F.DEV_MODE_MODE new).setFld Pg.dev F.DEV_MODE_PREV d.mode).setFld Pg.dev F.DEV_MODE_TRANS 0 = x
  have hs : x.south = none := by rw [← hx, Dev.setFld_south, Dev.setFld_south, Dev.setFld_south, h]
  split
  · rfl
  · next y hy => exact absurd (hs.symm.trans hy) (by simp)

theorem Dev.modeView_putMode {d : Dev} (h : d.south = none) (new : Nat) : (d.putMode [0, 1] new).modeView = (d.storeMode new).modeView := by
  obtain ⟨p, hp⟩ := d.putMode_both new h
  rw [hp, Dev.modeView_genEvent]

theorem Dev.holdsMode_putMode {d : Dev} (h : d.south = none) {new : Nat} (hn : new < 16) : (d.putMode [0, 1] new).holdsMode new d.mode :=
  (d.holdsMode_storeMode hn).of_modeView (Dev.modeView_putMode h new)

theorem Dev.ctl_offloadOver_congr {d d' : Dev} (h : d'.modeView.ctl = d.modeView.ctl) :
    d'.offloadOver.modeView.ctl = d.offloadOver.modeView.ctl :=
  congrArg (fun c : ModeCtl => { c with offEntry := c.offEntry.filter (fun h => !([0, 1] : List Nat).contains h) }) h
theorem Dev.live_offloadOver (d : Dev) : d.offloadOver.modeView.live = d.modeView.live := (rfl)

theorem Dev.ctl_putMode {d : Dev} (h : d.south = none) (new : Nat) : (d.putMode [0, 1] new).modeView.ctl = d.offloadOver.modeView.ctl := by
  rw [Dev.modeView_putMode h, Dev.storeMode, Dev.ctl_setFld]
  exact Dev.ctl_offloadOver_congr (by rw [Dev.ctl_setFld, Dev.ctl_setFld, Dev.ctl_setFld])

theorem Dev.live_putMode {d : Dev} (h : d.south = none) (new : Nat) : (d.putMode [0, 1] new).modeView.live = d.modeView.live := by
  rw [Dev.modeView_putMode h, Dev.storeMode, Dev.live_setMode _ _ rfl, Dev.live_offloadOver, Dev.live_setMode _ _ rfl,
    Dev.live_setMode _ _ rfl, Dev.live_setMode _ _ rfl]

/-- DEV_MODE_PASS is set in the whole device, and is no part of the mode held. -/
theorem Dev.putPass_both (d : Dev) (v : Bool) (h : d.south = none) : d.putPass [0, 1] v = d.setFld Pg.dev F.DEV_MODE_PASS (b01 v) := by
  have hp : (d.setFld Pg.dev F.DEV_MODE_PASS (b01 v)).south = none := (d.setFld_south _ _ _).trans h
  unfold Dev.putPass
  rw [if_pos (by decide)]
  dsimp only
  rw [hp]

theorem Dev.holdsMode.setPass {d : Dev} {m prev : Nat} (hd : d.holdsMode m prev) (v : Nat) :
    (d.setFld Pg.dev F.DEV_MODE_PASS v).holdsMode m prev where
  mode := (d.fld_setMode_ne F.DEV_MODE_PASS F.DEV_MODE_MODE v rfl (by decide) (by decide)).trans hd.mode
  trans := (d.fld_setMode_ne F.DEV_MODE_PASS F.DEV_MODE_TRANS v rfl (by decide) (by decide)).trans hd.trans
  prev := (d.fld_setMode_ne F.DEV_MODE_PASS F.DEV_MODE_PREV v rfl (by decide) (by decide)).trans hd.prev

theorem putMode_changes (d : Dev) (new : Nat) (h : d.south = none) (hn : new < 16) :
    (d.putMode [0, 1] new).mode = new ∧ (d.putMode [0, 1] new).fld Pg.dev F.DEV_MODE_PREV = d.mode
    ∧ (d.putMode [0, 1] new).fld Pg.dev F.DEV_MODE_TRANS = 0 ∧ (d.putMode [0, 1] new).fld Pg.dev F.DEV_MODE_OTHER = new := by
  obtain ⟨hm, ht, hp⟩ := Dev.holdsMode_putMode h hn
  exact ⟨hm, hp, ht, (Dev.fld_of_modeView (Dev.modeView_putMode h new) rfl).trans (d.other_storeMode hn)⟩

/-! A transition but to OFFLOAD. -/

/-- What comes before the mode held changes. -/
def Dev.beforeSwitch (d : Dev) (new : Nat) : Dev :=
  let e := d.leaveMode [0, 1] d.mode new
  if d.mode = Mode.offload.code then e.putPass [0, 1] false else e

theorem Dev.modeView_lineEvents (d : Dev) (p : Dev → Nat → List Byte) : ([0, 1].foldl (fun (d : Dev) h =>
    d.lineEvent h (ownLane h) (d.pubLp h) (d.fwFlag h) (p d h)) d).modeView = d.modeView :=
  Dev.modeView_foldl _ _ _ (fun d _ => d.modeView_lineEvent _ _ _ _ _)

theorem Dev.modeView_switchTo {d : Dev} (h : d.south = none) {new : Nat} (hb : new ≠ Mode.blank.code) :
    (d.switchTo [0, 1] new).modeView = ((d.beforeSwitch new).putMode [0, 1] new).modeView := by
  have hc : ∀ (d : Dev) (l : List Nat), (l.foldl (fun (d : Dev) k => d.domClose k true) d.bayLoadCut).modeView = d.modeView :=
    fun d l => (Dev.modeView_foldl _ _ _ (fun d k => d.modeView_domClose k true)).trans d.modeView_bayLoadCut
  unfold Dev.switchTo Dev.beforeSwitch
  dsimp only
  rw [Dev.heldMode_whole h]
  simp only [if_neg hb, apply_ite Dev.modeView, Dev.modeView_lineEvents, hc, Dev.modeView_lanesFollow, ite_self]

theorem Dev.mode_setPass (d : Dev) (v : Nat) : (d.setFld Pg.dev F.DEV_MODE_PASS v).mode = d.mode :=
  d.fld_setMode_ne F.DEV_MODE_PASS F.DEV_MODE_MODE v rfl (by decide) (by decide)

theorem Dev.beforeSwitch_keeps {d : Dev} (h : d.south = none) (new : Nat) :
    (d.beforeSwitch new).mode = d.mode ∧ (d.beforeSwitch new).modeView.ctl = d.modeView.ctl := by
  have hv := d.modeView_leaveMode [0, 1] d.mode new
  have hs : (d.leaveMode [0, 1] d.mode new).south = none := (Dev.south_of_ctl (congrArg ModeView.ctl hv)).trans h
  unfold Dev.beforeSwitch
  dsimp only
  split
  · rw [Dev.putPass_both _ _ hs, Dev.mode_setPass, Dev.ctl_setFld, Dev.mode_of_modeView hv, hv]
    exact ⟨rfl, rfl⟩
  · rw [Dev.mode_of_modeView hv, hv]
    exact ⟨rfl, rfl⟩

theorem Dev.switchTo_holds {d : Dev} (h : d.south = none) {new : Nat} (hn : new < 16) (hb : new ≠ Mode.blank.code) :
    (d.switchTo [0, 1] new).holdsMode new d.mode ∧ (d.switchTo [0, 1] new).modeTarget = d.modeTarget := by
  obtain ⟨hm, hc⟩ := Dev.beforeSwitch_keeps h new
  have hs : (d.beforeSwitch new).south = none := (Dev.south_of_ctl hc).trans h
  have hv := Dev.modeView_switchTo h hb
  constructor
  · exact hm ▸ (Dev.holdsMode_putMode hs hn).of_modeView hv
  · have ht : (d.switchTo [0, 1] new).modeTarget = (d.beforeSwitch new).modeTarget :=
      Dev.modeTarget_of_ctl (d := (d.beforeSwitch new).offloadOver) ((congrArg ModeView.ctl hv).trans (Dev.ctl_putMode hs new))
    exact ht.trans (Dev.modeTarget_of_ctl hc)

/-! The commands of this chapter that the block raises by itself, out of reset. -/

theorem exec_modeTransitionDone {s : State} (hr : s.dev.rst = .running) :
    exec .modeTransitionDone s = s.becomes (s.dev.begin .modeTransitionDone).modeTransitionDone := s.run_running _ _ hr
theorem exec_offloadDrainDone {s : State} (hr : s.dev.rst = .running) :
    exec .offloadDrainDone s = s.becomes (s.dev.begin .offloadDrainDone).offloadDrainDone := s.run_running _ _ hr
theorem exec_safeEntryDone {s : State} (hr : s.dev.rst = .running) :
    exec .safeEntryDone s = s.becomes (s.dev.begin .safeEntryDone).safeEntryDone := s.run_running _ _ hr
theorem exec_readyEntry {s : State} (hr : s.dev.rst = .running) :
    exec .readyEntry s = s.becomes (s.dev.begin .readyEntry).readyEntry := s.run_running _ _ hr
theorem exec_thermalDrainTimeout {s : State} (hr : s.dev.rst = .running) :
    exec .thermalDrainTimeout s = s.becomes (s.dev.begin .thermalDrainTimeout).thermalDrainTimeout := s.run_running _ _ hr

theorem Dev.settle_agenda (d : Dev) : d.settle.agenda = d.agenda := by
  unfold Dev.settle Dev.pairDrop
  dsimp only
  rw [Dev.setPins_agenda]
  split_ifs
  · exact d.setFld_agenda _ _ _
  · exact d.setFld_agenda _ _ _
  · rfl

theorem Dev.awaits_settle (d : Dev) (i : Instr) : d.settle.awaits i = d.awaits i := by
  unfold Dev.awaits
  rw [Dev.settle_agenda]

theorem Dev.mem_sched (d : Dev) (k : Nat) (i : Instr) : (d.ck + k, i) ∈ (d.sched k i).agenda := by
  unfold Dev.sched
  simp

theorem Dev.awaits_sched (d : Dev) (k : Nat) {i : Instr} (h : sameEvent i i = true) : (d.sched k i).awaits i = true :=
  List.any_eq_true.mpr ⟨_, d.mem_sched k i, h⟩

theorem Dev.awaits_schedOnce (d : Dev) (k : Nat) {i : Instr} (h : sameEvent i i = true) : (d.schedOnce k i).awaits i = true := by
  unfold Dev.schedOnce
  split
  · assumption
  · exact d.awaits_sched k h

/-! OFFLOAD (R36, R38). -/

theorem Dev.mode_setMode_ne (d : Dev) (f : Fld) (v : Nat) (hf : f.off = 0x100) (h : f.lo + f.wd ≤ 32) (hd : 4 ≤ f.lo) :
    (d.setFld Pg.dev f v).mode = d.mode :=
  d.fld_setMode_ne f F.DEV_MODE_MODE v hf h (Or.inl hd)

/-- What comes before a half acts in OFFLOAD. -/
def Dev.beforeOffload (d : Dev) : Dev :=
  ([0, 1].foldl (fun (d : Dev) h => { d with frozeLp := sput d.frozeLp h (d.pubLp h) }) (d.leaveMode [0, 1] d.mode Mode.offload.code)).putPass
    [0, 1] (decide (d.mode = Mode.through.code ∨ d.mode = Mode.intercept.code))

theorem Dev.beforeOffload_keeps {d : Dev} (h : d.south = none) : d.beforeOffload.mode = d.mode
    ∧ d.beforeOffload.fld Pg.dev F.DEV_MODE_TRANS = d.fld Pg.dev F.DEV_MODE_TRANS ∧ d.beforeOffload.modeView.ctl = d.modeView.ctl := by
  have hv : ([0, 1].foldl (fun (d : Dev) h => { d with frozeLp := sput d.frozeLp h (d.pubLp h) })
      (d.leaveMode [0, 1] d.mode Mode.offload.code)).modeView = d.modeView := by
    rw [Dev.modeView_foldl, Dev.modeView_leaveMode]
    exact fun _ _ => rfl
  unfold Dev.beforeOffload
  generalize [0, 1].foldl (fun (d : Dev) h => { d with frozeLp := sput d.frozeLp h (d.pubLp h) })
      (d.leaveMode [0, 1] d.mode Mode.offload.code) = e at hv ⊢
  have hs : e.south = none := (Dev.south_of_ctl (congrArg ModeView.ctl hv)).trans h
  rw [Dev.putPass_both _ _ hs, Dev.mode_setPass, Dev.fld_setMode_ne _ F.DEV_MODE_PASS F.DEV_MODE_TRANS _ rfl (by decide) (by decide),
    Dev.ctl_setFld]
  exact ⟨Dev.mode_of_modeView hv, Dev.fld_of_modeView hv rfl, congrArg ModeView.ctl hv⟩

/-- The halves act in OFFLOAD, the mode held is still the old one. -/
def Dev.actOffload (d : Dev) : Dev := { d with offEntry := [0, 1] }

theorem Dev.modeView_offloadBegin {d : Dev} (h : d.south = none) : (d.offloadBegin [0, 1]).modeView = d.beforeOffload.actOffload.modeView := by
  have ha : ∀ d : Dev, ([0, 1].foldl (fun (d : Dev) h => d.drainAsk h) d).modeView = d.modeView :=
    fun d => Dev.modeView_foldl _ _ _ (fun d h => d.modeView_drainAsk h)
  unfold Dev.offloadBegin Dev.beforeOffload Dev.actOffload
  dsimp only
  rw [Dev.modeView_sched, ha, Dev.modeView_lanesFollow, Dev.heldMode_whole h]

theorem Dev.offloadBegin_acts {d : Dev} (h : d.south = none) (hs : d.safeEntry = false) :
    (d.offloadBegin [0, 1]).mode = d.mode ∧ (d.offloadBegin [0, 1]).offEntry = [0, 1] ∧ (d.offloadBegin [0, 1]).modeOf 0 = Mode.offload.code
    ∧ (d.offloadBegin [0, 1]).fld Pg.dev F.DEV_MODE_TRANS = d.fld Pg.dev F.DEV_MODE_TRANS
    ∧ (d.offloadBegin [0, 1]).awaits .offloadDrainDone = true := by
  obtain ⟨hm, ht, hc⟩ := Dev.beforeOffload_keeps h
  have hv := Dev.modeView_offloadBegin h
  have hctl := congrArg ModeView.ctl hv
  have hoff : (d.offloadBegin [0, 1]).offEntry = [0, 1] := Dev.offEntry_of_ctl hctl
  have hsafe : (d.offloadBegin [0, 1]).safeEntry = false := (Dev.safeEntry_of_ctl hctl).trans ((Dev.safeEntry_of_ctl hc).trans hs)
  have hsouth : (d.offloadBegin [0, 1]).south = none := (Dev.south_of_ctl hctl).trans ((Dev.south_of_ctl hc).trans h)
  refine ⟨(Dev.mode_of_modeView hv).trans hm, hoff, ?_, (Dev.fld_of_modeView hv rfl).trans ht, Dev.awaits_sched _ _ (by decide)⟩
  unfold Dev.modeOf Dev.enteringSafe
  rw [hsouth, hoff]
  dsimp only
  rw [hsafe]
  rfl

theorem Dev.drainMark_noDrain {d : Dev} {h : Nat} (hd : (d.cqOf h).drain = false) : d.drainMark h = d := by
  unfold Dev.drainMark
  rw [hd]
  exact if_neg (fun hc => Bool.false_ne_true hc.1)

theorem Dev.offloadDrainDone_marked {d : Dev} (h : d.offEntry = [0, 1]) (h0 : (d.cqOf 0).drain = false) (h1 : (d.cqOf 1).drain = false) :
    d.offloadDrainDone = if [0, 1].all d.captureIdle then d.putMode [0, 1] Mode.offload.code else d.schedOnce 1 .offloadDrainDone := by
  unfold Dev.offloadDrainDone
  rw [h]
  dsimp only
  rw [if_neg (by decide), List.foldl_cons, List.foldl_cons, List.foldl_nil, Dev.drainMark_noDrain h0, Dev.drainMark_noDrain h1]

theorem all_halves {p : Nat → Bool} (h0 : p 0 = true) (h1 : p 1 = true) : [0, 1].all p = true := by
  simp [h0, h1]
theorem not_all_halves {p : Nat → Bool} (h : p 0 = false ∨ p 1 = false) : [0, 1].all p ≠ true := by
  rcases h with h | h <;> simp [h]

/-! SAFE (R35, R40, R439). -/

theorem Dev.actHalves_whole {d : Dev} (h : d.south = none) : d.actHalves = [0, 1] := by
  unfold Dev.actHalves
  rw [h]
  rfl

theorem Dev.steered_whole {d : Dev} (h : d.south = none) : d.steered [0, 1] = true := by
  unfold Dev.steered
  rw [Dev.actHalves_whole h]
  rfl

/-- SAFE entry in the whole device has ended, the mode held is still the old one. -/
def Dev.safeOver (d : Dev) : Dev := { d with safeEntry := false }

theorem Dev.unite_whole {d : Dev} (h : d.south = none) : d.unite = d := by
  unfold Dev.unite
  rw [h]

theorem Dev.modeView_safeFinish {d : Dev} (h : d.south = none) (cause : Nat) :
    (d.safeFinish [0, 1] cause).modeView = ((d.safeOver.putMode [0, 1] Mode.safe.code).putPass [0, 1] false).modeView := by
  have hc : ∀ (d : Dev) (l : List Nat), (l.foldl (fun (d : Dev) k =>
      if bit cause 0 then d.domForce k else d.domClose k true) d).modeView = d.modeView :=
    fun d l => Dev.modeView_foldl _ _ _ (fun d k => by
      simp only [apply_ite Dev.modeView, Dev.modeView_domForce, Dev.modeView_domClose, ite_self])
  have hm : (d.safeOver.putMode [0, 1] Mode.safe.code).south = none := (Dev.south_of_ctl (Dev.ctl_putMode (d := d.safeOver) h _)).trans h
  have hp : ((d.safeOver.putMode [0, 1] Mode.safe.code).putPass [0, 1] false).south = none := by
    rw [Dev.putPass_both _ _ hm, Dev.setFld_south, hm]
  unfold Dev.safeFinish
  dsimp only
  rw [if_pos (by decide), ← Dev.safeOver]
  generalize (d.safeOver.putMode [0, 1] Mode.safe.code).putPass [0, 1] false = x at hp ⊢
  rw [Dev.unite_whole, hc, Dev.modeView_agenda]
  exact (Dev.south_of_ctl (congrArg ModeView.ctl (hc _ _))).trans hp

theorem Dev.safeFinish_holds {d : Dev} (h : d.south = none) (cause : Nat) :
    (d.safeFinish [0, 1] cause).holdsMode Mode.safe.code d.mode ∧ (d.safeFinish [0, 1] cause).safeEntry = false := by
  have hv := Dev.modeView_safeFinish h cause
  have hctl := Dev.ctl_putMode (d := d.safeOver) h Mode.safe.code
  have hold : (d.safeOver.putMode [0, 1] Mode.safe.code).holdsMode Mode.safe.code d.mode := Dev.holdsMode_putMode (d := d.safeOver) h (by decide)
  rw [Dev.putPass_both _ _ ((Dev.south_of_ctl hctl).trans h)] at hv
  exact ⟨(hold.setPass _).of_modeView hv, (Dev.safeEntry_of_ctl ((congrArg ModeView.ctl hv).trans (Dev.ctl_setFld _ _ _ _))).trans
    (Dev.safeEntry_of_ctl hctl)⟩

theorem Dev.entering_whole {d : Dev} (h : d.south = none) (hs : d.safeEntry = true) :
    d.entering = [([0, 1], d.fld Pg.dev F.DEV_MODE_SAFE_CAUSE)] := by
  unfold Dev.entering
  rw [h]
  dsimp only
  rw [if_pos hs]

/-- From SLEEP or SAFE there is nothing to drain (R40). -/
theorem Dev.safeEntryDone_closed {d : Dev} (h : d.south = none) (hs : d.safeEntry = true) (hq : queuesClosed d.mode = true) :
    d.safeEntryDone = d.safeFinish [0, 1] (d.fld Pg.dev F.DEV_MODE_SAFE_CAUSE) := by
  unfold Dev.safeEntryDone
  rw [Dev.entering_whole h hs, List.foldl_cons, List.foldl_nil]
  dsimp only
  rw [Dev.heldMode_whole h, if_pos hq]

/-- From another mode, with the DRAM supplies in their window and the drain's flushes asked for already, idle queues end the drain. -/
theorem Dev.safeEntryDone_marked {d : Dev} (h : d.south = none) (hs : d.safeEntry = true) (hq : queuesClosed d.mode = false)
    (hd : d.dramSupplyOk = true) (h0 : (d.cqOf 0).drain = false) (h1 : (d.cqOf 1).drain = false) :
    d.safeEntryDone = if [0, 1].all d.captureIdle then d.safeFinish [0, 1] (d.fld Pg.dev F.DEV_MODE_SAFE_CAUSE)
      else d.schedOnce 1 .safeEntryDone := by
  unfold Dev.safeEntryDone
  rw [Dev.entering_whole h hs, List.foldl_cons, List.foldl_nil]
  dsimp only
  rw [Dev.heldMode_whole h, if_neg (by rw [hq]; exact Bool.false_ne_true), if_pos hd, List.foldl_cons, List.foldl_cons, List.foldl_nil,
    Dev.drainMark_noDrain h0, Dev.drainMark_noDrain h1]

theorem queuesClosed_eq_true {m : Nat} (h : m = Mode.sleep.code ∨ m = Mode.safe.code) : queuesClosed m = true := by
  rcases h with rfl | rfl <;> decide

theorem queuesClosed_eq_false {m : Nat} (hs : m ≠ Mode.sleep.code) (hf : m ≠ Mode.safe.code) : queuesClosed m = false := by
  unfold queuesClosed
  rw [decide_eq_false hs, decide_eq_false hf]
  rfl

/-- R439: a record not yet disposed is lost, whatever it is; then SAFE is reached. -/
theorem Dev.thermalDrainTimeout_finishes {d : Dev} (h : d.south = none) (hs : d.safeEntry = true)
    (hb : bit (d.fld Pg.dev F.DEV_MODE_SAFE_CAUSE) 0 = true) :
    ∃ e : Dev, e.modeView = d.modeView ∧ d.thermalDrainTimeout = e.safeFinish [0, 1] (d.fld Pg.dev F.DEV_MODE_SAFE_CAUSE) := by
  unfold Dev.thermalDrainTimeout
  rw [Dev.entering_whole h hs, List.foldl_cons, List.foldl_nil]
  dsimp only
  rw [if_neg (fun hn => hn hb)]
  refine ⟨_, ?_, rfl⟩
  rw [Dev.modeView_foldl]
  intro d i
  rw [Dev.modeView_drainMark, Dev.modeView_foldl]
  exact fun d e => d.modeView_loseRec e.1 1

/-- SAFE entry begins: a transition under way is over (R35). What of DEV_MODE stood there stays. -/
theorem Dev.cutTransition_keeps (d : Dev) (hs : List Nat) :
    (d.cutTransition hs).modeView.word = d.modeView.word ∧ (d.cutTransition hs).south = d.south := by
  have hv : ∀ e : Dev, (if e.reqCk = some e.ck then e.err Pg.dev 1 0x0203 else e).modeView = e.modeView := fun e => by
    simp (disch := decide) only [apply_ite Dev.modeView, Dev.modeView_err, ite_self]
  unfold Dev.cutTransition
  dsimp only
  split
  · exact ⟨rfl, rfl⟩
  · have hw := congrArg ModeView.word (hv { d with offEntry := d.offEntry.filter (fun h => !hs.contains h) })
    have hc := Dev.south_of_ctl (congrArg ModeView.ctl (hv { d with offEntry := d.offEntry.filter (fun h => !hs.contains h) }))
    exact ⟨hw, hc⟩

/-- What DEV_MODE shows of a SAFE entry: the causes, and a transition under way. -/
def Dev.showEntry (d : Dev) (cause : Nat) : Dev :=
  ({ d with safeEntry := true, safeCk := d.ck }.setFld Pg.dev F.DEV_MODE_SAFE_CAUSE cause).setFld Pg.dev F.DEV_MODE_TRANS 1

/-- A SAFE entry of the whole device, from the capture stop on (R40). -/
theorem Dev.safeBegin_shown {d : Dev} (h : d.south = none) (cause : Nat) :
    (d.safeBegin [0, 1] cause).modeView
      = (((d.leaveMode [0, 1] (d.modeOf 0) Mode.safe.code).cutTransition [0, 1]).showEntry (cause ||| d.safeDue)).modeView := by
  have hl : ∀ (c : Nat) (d : Dev), ([0, 1].foldl (fun (d : Dev) h =>
      (d.lineEvent h (ownLane h) (d.pubLp h) (d.fwFlag h) (lineEventPayload 0x21 c h 0 0 0 0)).drainAsk h) d).modeView = d.modeView :=
    fun c d => Dev.modeView_foldl _ _ _ (fun d h => by rw [Dev.modeView_drainAsk, Dev.modeView_lineEvent])
  have hs : ((d.leaveMode [0, 1] (d.modeOf 0) Mode.safe.code).cutTransition [0, 1]).south = none :=
    (Dev.cutTransition_keeps _ _).2.trans ((Dev.south_of_ctl (congrArg ModeView.ctl (d.modeView_leaveMode _ _ _))).trans h)
  unfold Dev.safeBegin
  dsimp only
  rw [if_pos (Dev.steered_whole h), List.headD_cons, Dev.modeView_schedOnce]
  generalize (d.leaveMode [0, 1] (d.modeOf 0) Mode.safe.code).cutTransition [0, 1] = e at hs ⊢
  rw [if_pos (show ([0, 1] : List Nat).contains 0 = true from rfl), ← Dev.showEntry]
  have hx : (e.showEntry (cause ||| d.safeDue)).south = none := by rw [Dev.showEntry, Dev.setFld_south, Dev.setFld_south, hs]
  generalize e.showEntry (cause ||| d.safeDue) = x at hx ⊢
  rw [hx]
  simp only [apply_ite Dev.modeView, Dev.modeView_sched, hl, Dev.modeView_bayLoadCut, Dev.modeView_lanesFollow, ite_self]

theorem Dev.awaits_safeBegin (d : Dev) (hs : List Nat) (cause : Nat) : (d.safeBegin hs cause).awaits .safeEntryDone = true :=
  Dev.awaits_schedOnce _ _ (by decide)

theorem Dev.mode_of_word {d d' : Dev} (h : d'.modeView.word = d.modeView.word) : d'.mode = d.mode :=
  congrArg (fun w : Word => bitsOf w.toNat 0 4) h

theorem Dev.showEntry_shows (d : Dev) {cause : Nat} (hc : cause < 8) :
    (d.showEntry cause).mode = d.mode ∧ (d.showEntry cause).fld Pg.dev F.DEV_MODE_SAFE_CAUSE = cause
    ∧ (d.showEntry cause).fld Pg.dev F.DEV_MODE_TRANS = 1 ∧ (d.showEntry cause).safeEntry = true := by
  have hw : cause % 2 ^ F.DEV_MODE_SAFE_CAUSE.wd = cause := Nat.mod_eq_of_lt hc
  unfold Dev.showEntry
  refine ⟨?_, ?_, ?_, ?_⟩
  · rw [Dev.mode_setMode_ne _ _ _ rfl (by decide) (by decide), Dev.mode_setMode_ne _ _ _ rfl (by decide) (by decide)]
    rfl
  · rw [Dev.fld_setMode_ne _ F.DEV_MODE_TRANS F.DEV_MODE_SAFE_CAUSE _ rfl (by decide) (by decide), Dev.fld_setFld _ _ _ _ (by decide), hw]
  · rw [Dev.fld_setFld _ _ _ _ (by decide)]
    rfl
  · rw [Dev.setFld_safeEntry, Dev.setFld_safeEntry]

theorem Dev.safeBegin_enters {d : Dev} (h : d.south = none) {cause : Nat} (hc : cause ||| d.safeDue < 8) :
    (d.safeBegin [0, 1] cause).mode = d.mode ∧ (d.safeBegin [0, 1] cause).fld Pg.dev F.DEV_MODE_SAFE_CAUSE = cause ||| d.safeDue
    ∧ (d.safeBegin [0, 1] cause).fld Pg.dev F.DEV_MODE_TRANS = 1 ∧ (d.safeBegin [0, 1] cause).safeEntry = true := by
  have hv := Dev.safeBegin_shown h cause
  obtain ⟨hm, hcause, ht, hs⟩ := Dev.showEntry_shows ((d.leaveMode [0, 1] (d.modeOf 0) Mode.safe.code).cutTransition [0, 1]) hc
  have hold : ((d.leaveMode [0, 1] (d.modeOf 0) Mode.safe.code).cutTransition [0, 1]).mode = d.mode :=
    (Dev.mode_of_word (Dev.cutTransition_keeps _ _).1).trans (Dev.mode_of_modeView (d.modeView_leaveMode _ _ _))
  exact ⟨(Dev.mode_of_modeView hv).trans (hm.trans hold), (Dev.fld_of_modeView hv rfl).trans hcause,
    (Dev.fld_of_modeView hv rfl).trans ht, (Dev.safeEntry_of_ctl (congrArg ModeView.ctl hv)).trans hs⟩

/-! READY (R33, R39, R70, R514). -/

theorem Dev.enteringSafe_whole {d : Dev} (h : d.south = none) (i : Nat) : d.enteringSafe i = d.safeEntry := by
  unfold Dev.enteringSafe
  rw [h]

theorem Dev.safeTrigger_whole {d : Dev} (h : d.south = none) (hs : List Nat) (cause : Nat) :
    d.safeTrigger hs cause = d.safeTriggerOf [0, 1] cause :=
  if_pos (by rw [h]; rfl)

/-- A trigger in a configured mode but SAFE, with no SAFE entry in progress, not in the CK of the entry to READY (R35). -/
theorem Dev.safeTriggerOf_begins {d : Dev} (h : d.south = none) (cause : Nat) (hr : d.rst = .running) (hc : isConfigured d.mode = true)
    (hm : d.mode ≠ Mode.safe.code) (hs : d.safeEntry = false) (hk : d.readyCk ≠ some d.ck) :
    d.safeTriggerOf [0, 1] cause = d.safeBegin [0, 1] cause := by
  unfold Dev.safeTriggerOf
  dsimp only
  rw [Dev.heldMode_whole h, Dev.enteringSafe_whole h, hs, if_neg, if_neg Bool.false_ne_true, if_neg (fun hn => hm hn.1),
    if_neg (fun hn => hk hn.1)]
  rintro (hn | hn)
  · exact hn hr
  · exact hn hc

/-- Causes due since the entry to READY begin the SAFE entry (R514). -/
theorem Dev.readyEntry_due {d : Dev} (h : d.south = none) (hr : d.rst = .running) (hd : d.safeDue ≠ 0) (hc : isConfigured d.mode = true)
    (hm : d.mode ≠ Mode.safe.code) (hs : d.safeEntry = false) (hk : d.readyCk ≠ some d.ck) :
    d.readyEntry = d.safeBegin [0, 1] d.safeDue := by
  unfold Dev.readyEntry
  rw [if_pos hd, Dev.safeTrigger_whole h, Dev.safeTriggerOf_begins h _ hr hc hm hs hk]

/-- READY is entered. -/
def Dev.becomeReady (d : Dev) : Dev := { d with waking := false, modeTarget := none, readyCk := some d.ck }

/-- The causes live at the entry to READY wait for the next CK. -/
def Dev.causesDue (d : Dev) : Dev := if d.liveCauses ≠ 0 then ({ d with safeDue := d.liveCauses } : Dev).sched 1 .readyEntry else d

/-- The line position counters start (R70). -/
def Dev.lpcStart (d : Dev) : Dev := [0, 1].foldl (fun (d : Dev) h => (d.lpcLeaveIdle h).newWindow h) d

theorem Dev.readyEntry_early {d : Dev} (hd : d.safeDue = 0) (he : d.allEnded = false) : d.readyEntry = d := by
  unfold Dev.readyEntry
  rw [if_neg (fun hn => hn hd), if_pos]
  intro hn
  exact Bool.false_ne_true (he.symm.trans hn.2.2)

theorem Dev.readyEntry_load {d : Dev} (hd : d.safeDue = 0) (hm : d.mode = Mode.loading.code) (hs : d.started = true)
    (hb : d.lanesBegun = true) (he : d.allEnded = true) :
    d.readyEntry = (d.becomeReady.putMode [0, 1] Mode.ready.code).cfgStop.lpcStart.causesDue := by
  unfold Dev.readyEntry
  rw [if_neg (fun hn => hn hd), if_neg (fun hn => hn ⟨Or.inl ⟨hm, hs⟩, hb, he⟩)]
  dsimp only
  simp only [if_pos hm]
  rfl

theorem Dev.modeView_byDevClear (d : Dev) (l : List Nat) : (l.foldl (fun (d : Dev) k => d.setFld Pg.pmc (byDevFld k) 0) d).modeView = d.modeView :=
  Dev.modeView_foldl _ _ _ (fun d k => d.modeView_setByDev k 0)

theorem Dev.readyEntry_wake {d : Dev} (h : d.south = none) (hd : d.safeDue = 0) (hm : d.mode ≠ Mode.loading.code) (hw : d.waking = true)
    (ho : ∀ k, k < 64 → d.byDev k = true → d.domOpen k = true) (hb : d.lanesBegun = true) (he : d.allEnded = true) :
    ∃ e : Dev, e.modeView = d.becomeReady.modeView ∧ d.readyEntry = (e.putMode [0, 1] Mode.ready.code).resumeAll.causesDue := by
  have hall : (List.range 64).all (fun k => !d.byDev k || d.domOpen k) = true := by
    rw [List.all_eq_true]
    intro k hk
    have := ho k (List.mem_range.mp hk)
    cases hb : d.byDev k with
    | false => rfl
    | true => rw [this hb]; rfl
  refine ⟨d.becomeReady.byDevDoms.foldl (fun (d : Dev) k => d.setFld Pg.pmc (byDevFld k) 0) d.becomeReady, Dev.modeView_byDevClear _ _, ?_⟩
  unfold Dev.readyEntry
  rw [if_neg (fun hn => hn hd), if_neg (fun hn => hn ⟨Or.inr ⟨hw, hall⟩, hb, he⟩)]
  dsimp only
  simp only [if_neg hm, Dev.actHalves_whole h]
  rfl

end Sys2Proof.Machine
end

section
/-! PROOFS. The line position counters at the entry to READY (R70, O32). -/

namespace Sys2Proof.Machine

/-- The states of the counters, and the reference they follow. -/
def Dev.lpcView (d : Dev) : (Nat → Nat) × Nat := (d.lpcState, d.refSrc)

theorem Dev.lpcView_of_regs {d d' : Dev} (h : d'.regs = d.regs) : d'.lpcView = d.lpcView := by
  unfold Dev.lpcView Dev.lpcState Dev.refSrc Dev.fld
  simp only [Dev.reg_congr h]

theorem Dev.lpcView_setLpc (d : Dev) (h : Nat) (x : LpcSt) : (d.setLpc h x).lpcView = d.lpcView := (rfl)
theorem Dev.lpcView_startWindow (d : Dev) (h : Nat) : (d.startWindow h).lpcView = d.lpcView := (rfl)
theorem Dev.lpcView_newWindow (d : Dev) (h : Nat) : (d.newWindow h).lpcView = d.lpcView := (rfl)
theorem Dev.lpcView_cfgStop (d : Dev) : d.cfgStop.lpcView = d.lpcView := (rfl)
theorem Dev.lpcView_sched (d : Dev) (k : Nat) (i : Instr) : (d.sched k i).lpcView = d.lpcView := (rfl)

/-- A register that is at neither offset. -/
theorem Dev.lpcView_setReg_off (d : Dev) (pg : Nat) {off : Nat} (v : Word) (h : off < 4096) (hs : off ≠ 0x00C) (hr : off ≠ 0x100) :
    (d.setReg pg off v).lpcView = d.lpcView := by
  refine Prod.ext (funext fun i => ?_) (d.fld_setReg_ne v _ fun e => hr (raddr_inj h (by decide) e).2)
  exact d.fld_setReg_ne v _ fun e => hs (raddr_inj h (by decide) e).2

/-- A register of a page below those of the counters. -/
theorem Dev.lpcView_setReg_page (d : Dev) {pg off : Nat} (v : Word) (h : off < 4096) (hp : pg < Blk.lpc.base) :
    (d.setReg pg off v).lpcView = d.lpcView := by
  refine Prod.ext (funext fun i => ?_) (d.fld_setReg_ne v _ fun e => Nat.ne_of_lt hp (raddr_inj h (by decide) e).1)
  exact d.fld_setReg_ne v _ fun e => Nat.ne_of_lt (Nat.lt_add_right i hp) (raddr_inj h (by decide) e).1

theorem Dev.lpcView_setFld_page (d : Dev) {pg : Nat} (f : Fld) (v : Nat) (h : f.off < 4096) (hp : pg < Blk.lpc.base) :
    (d.setFld pg f v).lpcView = d.lpcView := d.lpcView_setReg_page _ h hp

theorem Dev.regs_toQueue (d : Dev) (h : Nat) (x : AllocItem) : (d.toQueue h x).regs = d.regs := by
  have hf : ∀ (l : List AllocItem) (g : AllocItem → Instr) (k : Dev → Nat) (d : Dev),
      (l.foldl (fun d y => d.sched (k d) (g y)) d).regs = d.regs := by
    intro l g k d
    induction l generalizing d with
    | nil => rfl
    | cons y l ih => rw [List.foldl_cons, ih]; rfl
  unfold Dev.toQueue
  exact hf _ _ _ _

theorem Dev.lpcView_lpcEvent (d : Dev) (h cause : Nat) (old new : LP) : (d.lpcEvent h cause old new).lpcView = d.lpcView :=
  Dev.lpcView_of_regs (Dev.regs_toQueue _ _ _)

theorem Dev.lpcView_pend (d : Dev) (pg k : Nat) : (d.pend pg k).lpcView = d.lpcView :=
  Prod.ext
    (funext fun _ => d.fld_pendBits_ne _ _ _ (fun e => absurd (raddr_inj (by decide) (by decide) e).2 (by decide))
      (fun e => absurd (raddr_inj (by decide) (by decide) e).2 (by decide)))
    (d.fld_pendBits_ne _ _ _ (fun e => absurd (raddr_inj (by decide) (by decide) e).2 (by decide))
      (fun e => absurd (raddr_inj (by decide) (by decide) e).2 (by decide)))

theorem Dev.lpcView_setRate (d : Dev) (h r : Nat) : (d.setRate h r).lpcView = d.lpcView := by
  unfold Dev.setRate Dev.setFld
  rw [Dev.lpcView_setReg_off _ _ _ (by decide) (by decide) (by decide), Dev.lpcView_setReg_off _ _ _ (by decide) (by decide) (by decide)]

/-- LPC_STAT does not give the reference. -/
theorem Dev.refSrc_setStat (d : Dev) (h v : Nat) {f : Fld} (hf : f.off = 0x00C) : (d.setFld (Pg.lpc h) f v).refSrc = d.refSrc :=
  d.fld_setFld_ne _ _ _ (fun e => absurd (raddr_inj (by rw [hf]; decide) (by decide) e).2 (by rw [hf]; decide))

/-- LPC_STAT of another half. -/
theorem Dev.lpcState_setStat_ne (d : Dev) {h i : Nat} (v : Nat) {f : Fld} (hf : f.off = 0x00C) (hi : i ≠ h) :
    (d.setFld (Pg.lpc h) f v).lpcState i = d.lpcState i :=
  d.fld_setFld_ne _ _ _ (fun e => hi (Nat.add_left_cancel (raddr_inj (by rw [hf]; decide) (by decide) e).1).symm)

theorem Dev.lpcView_setFollower (d : Dev) (j v : Nat) : (d.setFld (Pg.lpc j) F.LPC_STAT_FOLLOWER v).lpcView = d.lpcView := by
  refine Prod.ext (funext fun i => ?_) (d.refSrc_setStat j v rfl)
  by_cases h : i = j
  · subst h
    exact d.fld_setFld_disj _ F.LPC_STAT_FOLLOWER F.LPC_STAT_STATE _ rfl (by decide) (by decide)
  · exact d.lpcState_setStat_ne v rfl h

theorem Dev.lpcView_showFollower (d : Dev) : d.showFollower.lpcView = d.lpcView := by
  unfold Dev.showFollower
  dsimp only
  rw [Dev.lpcView_setFollower, Dev.lpcView_setFollower]

theorem Dev.lpcView_setLpcState (d : Dev) (h : Nat) {st : Nat} (hst : st < 8) :
    (d.setLpcState h st).lpcView = (Function.update d.lpcView.1 h st, d.lpcView.2) := by
  refine Prod.ext (funext fun i => ?_) (d.refSrc_setStat h st rfl)
  by_cases hi : i = h
  · subst hi
    have hs : (d.setLpcState i st).lpcState i = st := (d.fld_setFld _ _ _ (by decide)).trans (Nat.mod_eq_of_lt hst)
    exact hs.trans (Function.update_self i st d.lpcView.1).symm
  · change (d.setLpcState h st).lpcState i = Function.update d.lpcView.1 h st i
    rw [Function.update_of_ne hi]
    exact d.lpcState_setStat_ne st rfl hi

/-- The state a counter takes where it leaves IDLE, by its reference (R70). -/
def startState (ref : Nat) : Nat := if ref = 2 then Lpc.locked else Lpc.unanchored

theorem Dev.lpcView_lpcLeaveIdle (d : Dev) (h : Nat) :
    (d.lpcLeaveIdle h).lpcView = (Function.update d.lpcView.1 h (startState d.lpcView.2), d.lpcView.2) := by
  have hr : (d.setRate h d.synInc).refSrc = d.lpcView.2 := congrArg Prod.snd (d.lpcView_setRate h d.synInc)
  unfold Dev.lpcLeaveIdle startState
  dsimp only
  rw [hr]
  split
  · rw [Dev.lpcView_lpcEvent, Dev.lpcView_pend, Dev.lpcView_startWindow, Dev.lpcView_showFollower, Dev.lpcView_setLpc,
      Dev.lpcView_setLpcState _ _ (by decide), Dev.lpcView_setRate]
  · rw [Dev.lpcView_showFollower, Dev.lpcView_setLpc, Dev.lpcView_setLpcState _ _ (by decide), Dev.lpcView_setRate]

theorem Dev.lpcState_lpcStart (d : Dev) {h : Nat} (hh : h < 2) : d.lpcStart.lpcState h = startState d.refSrc := by
  have hv : d.lpcStart.lpcView = (Function.update (Function.update d.lpcState 0 (startState d.refSrc)) 1 (startState d.refSrc), d.refSrc) := by
    unfold Dev.lpcStart
    rw [List.foldl_cons, List.foldl_cons, List.foldl_nil, Dev.lpcView_newWindow, Dev.lpcView_lpcLeaveIdle, Dev.lpcView_newWindow,
      Dev.lpcView_lpcLeaveIdle]
    rfl
  have hs : d.lpcStart.lpcState h = Function.update (Function.update d.lpcState 0 (startState d.refSrc)) 1 (startState d.refSrc) h :=
    congrFun (congrArg Prod.fst hv) h
  rw [hs]
  obtain rfl | rfl : h = 0 ∨ h = 1 := by omega
  · rw [Function.update_of_ne (by decide), Function.update_self]
  · rw [Function.update_self]

theorem Dev.lpcView_bump_page (d : Dev) {pg : Nat} (f : Fld) (h : f.off < 4096) (hp : pg < Blk.lpc.base) : (d.bump pg f).lpcView = d.lpcView :=
  d.lpcView_setFld_page f _ h hp

theorem Dev.lpcView_hostEvs (d : Dev) (x : List (BitVec 512)) : ({ d with hostEvs := x } : Dev).lpcView = d.lpcView := (rfl)

theorem Dev.lpcView_evtKick (d : Dev) : d.evtKick.lpcView = d.lpcView := by
  unfold Dev.evtKick
  simp only [apply_ite Dev.lpcView, Dev.lpcView_sched, ite_self]

theorem Dev.lpcView_genEvent (d : Dev) (hseq typ status code : Nat) (payload : List Byte) :
    (d.genEvent hseq typ status code payload).lpcView = d.lpcView := by
  unfold Dev.genEvent
  simp (disch := decide) only [apply_ite Dev.lpcView, Dev.lpcView_pend, Dev.lpcView_bump_page, Dev.lpcView_evtKick, Dev.lpcView_hostEvs,
    Dev.lpcView_setFld_page, ite_self]

theorem Dev.lpcView_offloadOver (d : Dev) : d.offloadOver.lpcView = d.lpcView := (rfl)

theorem Dev.lpcView_putMode {d : Dev} (h : d.south = none) (new : Nat) : (d.putMode [0, 1] new).lpcView = d.lpcView := by
  obtain ⟨p, hp⟩ := d.putMode_both new h
  rw [hp, Dev.lpcView_genEvent, Dev.storeMode, Dev.lpcView_setFld_page _ _ _ (by decide) (by decide), Dev.lpcView_offloadOver,
    Dev.lpcView_setFld_page _ _ _ (by decide) (by decide), Dev.lpcView_setFld_page _ _ _ (by decide) (by decide),
    Dev.lpcView_setFld_page _ _ _ (by decide) (by decide)]

theorem Dev.lpcView_settle (d : Dev) : d.settle.lpcView = d.lpcView := by
  have hs : d.settle.lpcView = (d.pairDrop d.pins.pairOk).lpcView := Dev.lpcView_of_regs d.settle_regs
  rw [hs]
  unfold Dev.pairDrop
  split
  · exact Dev.lpcView_setFld_page _ _ _ (by decide) (by decide)
  · rfl

theorem Dev.lpcState_settle (d : Dev) (h : Nat) : d.settle.lpcState h = d.lpcState h := congrFun (congrArg Prod.fst d.lpcView_settle) h

end Sys2Proof.Machine
end

section
/-! PROOFS. Each command of the mode's transitions, and the statement of them together (O32). -/

namespace Sys2Proof.Machine

theorem Dev.modeView_lpcStart (d : Dev) : d.lpcStart.modeView = d.modeView :=
  Dev.modeView_foldl _ _ _ (fun d h => by rw [Dev.modeView_newWindow, Dev.modeView_lpcLeaveIdle])

theorem Dev.causesDue_quiet {d : Dev} (h : d.liveCauses = 0) : d.causesDue = d := if_neg (fun hn => hn h)

/-- R514: causes live at the entry are due in the next CK. -/
theorem Dev.causesDue_awaited {d : Dev} (h : d.liveCauses ≠ 0) :
    d.causesDue.safeDue = d.liveCauses ∧ (d.ck + 1, .readyEntry) ∈ d.causesDue.agenda := by
  have hc : d.causesDue = ({ d with safeDue := d.liveCauses } : Dev).sched 1 .readyEntry := if_pos h
  rw [hc]
  exact ⟨rfl, Dev.mem_sched { d with safeDue := d.liveCauses } 1 .readyEntry⟩

theorem Dev.fld_causesDue (d : Dev) (pg : Nat) (f : Fld) : d.causesDue.fld pg f = d.fld pg f := by
  unfold Dev.causesDue
  rw [apply_ite (fun e : Dev => e.fld pg f)]
  exact ite_self _

theorem Dev.holdsMode.causesDue {d : Dev} {m prev : Nat} (h : d.holdsMode m prev) : d.causesDue.holdsMode m prev :=
  ⟨(d.fld_causesDue _ _).trans h.mode, (d.fld_causesDue _ _).trans h.trans, (d.fld_causesDue _ _).trans h.prev⟩

/-- READY is entered from a mode held before. -/
theorem Dev.ready_entered {d e : Dev} (h : d.south = none) (he : e.modeView = d.becomeReady.modeView) :
    (e.putMode [0, 1] Mode.ready.code).holdsMode Mode.ready.code d.mode
    ∧ (e.putMode [0, 1] Mode.ready.code).modeView.ctl = d.becomeReady.offloadOver.modeView.ctl
    ∧ (e.putMode [0, 1] Mode.ready.code).liveCauses = d.liveCauses := by
  have hs : e.south = none := (Dev.south_of_ctl (congrArg ModeView.ctl he)).trans h
  have hm : e.mode = d.mode := Dev.mode_of_modeView (d := d.becomeReady) he
  have hc : e.offloadOver.modeView.ctl = d.becomeReady.offloadOver.modeView.ctl := Dev.ctl_offloadOver_congr (congrArg ModeView.ctl he)
  refine ⟨hm ▸ Dev.holdsMode_putMode hs (by decide), (Dev.ctl_putMode hs _).trans hc, ?_⟩
  exact (Dev.liveCauses_of_modeView (Dev.live_putMode hs _)).trans (Dev.liveCauses_of_modeView (d := d.becomeReady) (congrArg ModeView.live he))

/-- The halves hold mode `m`, entered from `prev`, with no transition under way. -/
def State.inMode (u : State) (m prev : Nat) : Prop :=
  u.dev.mode = m ∧ u.dev.fld Pg.dev F.DEV_MODE_TRANS = 0 ∧ u.dev.fld Pg.dev F.DEV_MODE_PREV = prev

theorem Dev.holdsMode.settled {d : Dev} {m prev : Nat} {u : State} (h : d.holdsMode m prev) (hu : u.dev = d.settle) : u.inMode m prev := by
  obtain ⟨hm, ht, hp⟩ := h.of_modeView d.modeView_settle
  unfold State.inMode
  rw [hu]
  exact ⟨hm, ht, hp⟩

theorem Dev.ctl_settle (d : Dev) : d.settle.modeView.ctl = d.modeView.ctl := congrArg ModeView.ctl d.modeView_settle
theorem Dev.fld_settle_mode (d : Dev) {f : Fld} (hf : f.off = 0x100) : d.settle.fld Pg.dev f = d.fld Pg.dev f :=
  Dev.fld_of_modeView d.modeView_settle hf
theorem Dev.mode_settle (d : Dev) : d.settle.mode = d.mode := Dev.mode_of_modeView d.modeView_settle

/-! MODE_TRANSITION_DONE. -/

/-- The request is no longer pending. -/
def Dev.targetTaken (d : Dev) : Dev := { d with modeTarget := none }

theorem Dev.modeTransitionDone_switches {d : Dev} (h : d.south = none) {t : Nat} (ht : d.modeTarget = some t) (hw : d.waking = false)
    (ho : t ≠ Mode.offload.code) : d.modeTransitionDone = d.targetTaken.switchTo [0, 1] t := by
  unfold Dev.modeTransitionDone
  rw [ht]
  dsimp only
  rw [if_neg (by rw [hw]; exact Bool.false_ne_true), if_neg ho, ← Dev.targetTaken, Dev.actHalves_whole (d := d.targetTaken) h]

theorem Dev.modeTransitionDone_offload {d : Dev} (h : d.south = none) (ht : d.modeTarget = some Mode.offload.code) (hw : d.waking = false) :
    d.modeTransitionDone = d.targetTaken.offloadBegin [0, 1] := by
  unfold Dev.modeTransitionDone
  rw [ht]
  dsimp only
  rw [if_neg (by rw [hw]; exact Bool.false_ne_true), if_pos rfl, ← Dev.targetTaken, Dev.actHalves_whole (d := d.targetTaken) h]

/-- No half enters SAFE. -/
theorem Dev.thermalDrainTimeout_idle {d : Dev} (h : d.south = none) (hs : d.safeEntry = false) : d.thermalDrainTimeout = d := by
  have he : d.entering = [] := by
    unfold Dev.entering
    rw [h]
    dsimp only
    rw [if_neg (by rw [hs]; exact Bool.false_ne_true)]
  unfold Dev.thermalDrainTimeout
  rw [he, List.foldl_nil]

section
variable {s : State} (hr : s.dev.rst = .running) (h : s.dev.south = none)
include hr h

theorem modeTransitionDone_switches {t : Nat} (ht : s.dev.modeTarget = some t) (hw : s.dev.waking = false) (ho : t ≠ Mode.offload.code) :
    exec .modeTransitionDone s = s.becomes (Dev.switchTo { s.dev.begin .modeTransitionDone with modeTarget := none } [0, 1] t) := by
  rw [exec_modeTransitionDone hr, Dev.modeTransitionDone_switches (d := s.dev.begin .modeTransitionDone) h ht hw ho]
  rfl

theorem modeTransitionDone_holds {t : Nat} (ht : s.dev.modeTarget = some t) (hw : s.dev.waking = false) (hn : t < 16)
    (ho : t ≠ Mode.offload.code) (hb : t ≠ Mode.blank.code) :
    ∃ u, exec .modeTransitionDone s = .next u
      ∧ u.inMode t s.dev.mode ∧ u.dev.modeTarget = none := by
  obtain ⟨hm, htgt⟩ := Dev.switchTo_holds (d := (s.dev.begin .modeTransitionDone).targetTaken) h hn hb
  exact ⟨_, modeTransitionDone_switches hr h ht hw ho, hm.settled rfl, (Dev.modeTarget_of_ctl (Dev.ctl_settle _)).trans htgt⟩

theorem modeTransitionDone_offload (ht : s.dev.modeTarget = some Mode.offload.code) (hw : s.dev.waking = false) (hs : s.dev.safeEntry = false) :
    ∃ u, exec .modeTransitionDone s = .next u ∧ u.dev.mode = s.dev.mode ∧ u.dev.offEntry = [0, 1] ∧ u.dev.modeOf 0 = Mode.offload.code
      ∧ u.dev.fld Pg.dev F.DEV_MODE_TRANS = s.dev.fld Pg.dev F.DEV_MODE_TRANS ∧ u.dev.awaits .offloadDrainDone = true := by
  obtain ⟨hm, hoff, hmo, htr, ha⟩ := Dev.offloadBegin_acts (d := (s.dev.begin .modeTransitionDone).targetTaken) h hs
  have he : exec .modeTransitionDone s = s.becomes ((s.dev.begin .modeTransitionDone).targetTaken.offloadBegin [0, 1]) := by
    rw [exec_modeTransitionDone hr, Dev.modeTransitionDone_offload (d := s.dev.begin .modeTransitionDone) h ht hw]
  exact ⟨_, he, (Dev.mode_settle _).trans hm, (Dev.offEntry_of_ctl (Dev.ctl_settle _)).trans hoff,
    (Dev.modeOf_of_modeView (Dev.modeView_settle _) _).trans hmo, (Dev.fld_settle_mode _ rfl).trans htr, (Dev.awaits_settle _ _).trans ha⟩

/-! OFFLOAD_DRAIN_DONE. -/

theorem offloadDrainDone_holds (ho : s.dev.offEntry = [0, 1]) (d0 : (s.dev.cqOf 0).drain = false) (d1 : (s.dev.cqOf 1).drain = false)
    (i0 : s.dev.captureIdle 0 = true) (i1 : s.dev.captureIdle 1 = true) :
    ∃ u, exec .offloadDrainDone s = .next u ∧ u.inMode Mode.offload.code s.dev.mode ∧ u.dev.offEntry = [] := by
  have hs : (s.dev.begin .offloadDrainDone).south = none := h
  have he : exec .offloadDrainDone s = s.becomes ((s.dev.begin .offloadDrainDone).putMode [0, 1] Mode.offload.code) := by
    rw [exec_offloadDrainDone hr, Dev.offloadDrainDone_marked (d := s.dev.begin .offloadDrainDone) ho d0 d1]
    exact congrArg s.becomes (if_pos (all_halves i0 i1))
  have hoff : (s.dev.begin .offloadDrainDone).offloadOver.offEntry = [] := by
    rw [Dev.offloadOver, Dev.begin_offEntry, ho]
    rfl
  exact ⟨_, he, (Dev.holdsMode_putMode hs (by decide)).settled rfl,
    (Dev.offEntry_of_ctl ((Dev.ctl_settle _).trans (Dev.ctl_putMode hs _))).trans hoff⟩

omit h in
theorem offloadDrainDone_waits (ho : s.dev.offEntry = [0, 1]) (d0 : (s.dev.cqOf 0).drain = false) (d1 : (s.dev.cqOf 1).drain = false)
    (hi : s.dev.captureIdle 0 = false ∨ s.dev.captureIdle 1 = false) :
    ∃ u, exec .offloadDrainDone s = .next u ∧ u.dev.awaits .offloadDrainDone = true ∧ u.dev.reg Pg.dev 0x100 = s.dev.reg Pg.dev 0x100
      ∧ u.dev.offEntry = [0, 1] := by
  have he : exec .offloadDrainDone s = s.becomes ((s.dev.begin .offloadDrainDone).schedOnce 1 .offloadDrainDone) := by
    rw [exec_offloadDrainDone hr, Dev.offloadDrainDone_marked (d := s.dev.begin .offloadDrainDone) ho d0 d1]
    exact congrArg s.becomes (if_neg (not_all_halves hi))
  have hv := (Dev.modeView_settle _).trans (Dev.modeView_schedOnce (s.dev.begin .offloadDrainDone) 1 .offloadDrainDone)
  exact ⟨_, he, (Dev.awaits_settle _ _).trans (Dev.awaits_schedOnce _ _ (by decide)), Dev.reg_of_modeView hv,
    (Dev.offEntry_of_ctl (congrArg ModeView.ctl hv)).trans ho⟩

/-! SAFE_ENTRY_DONE and THERMAL_DRAIN_TIMEOUT. -/

theorem safeEntryDone_drained (hs : s.dev.safeEntry = true) (hsl : s.dev.mode ≠ Mode.sleep.code) (hsf : s.dev.mode ≠ Mode.safe.code)
    (hd : s.dev.dramSupplyOk = true) (d0 : (s.dev.cqOf 0).drain = false) (d1 : (s.dev.cqOf 1).drain = false)
    (i0 : s.dev.captureIdle 0 = true) (i1 : s.dev.captureIdle 1 = true) :
    ∃ u, exec .safeEntryDone s = .next u ∧ u.inMode Mode.safe.code s.dev.mode ∧ u.dev.safeEntry = false := by
  have he := exec_safeEntryDone hr
  rw [Dev.safeEntryDone_marked (d := s.dev.begin .safeEntryDone) h hs (queuesClosed_eq_false hsl hsf) hd d0 d1] at he
  obtain ⟨hm, hse⟩ := Dev.safeFinish_holds (d := s.dev.begin .safeEntryDone) h ((s.dev.begin .safeEntryDone).fld Pg.dev F.DEV_MODE_SAFE_CAUSE)
  exact ⟨_, he.trans (congrArg s.becomes (if_pos (all_halves i0 i1))), hm.settled rfl, (Dev.safeEntry_of_ctl (Dev.ctl_settle _)).trans hse⟩

theorem safeEntryDone_waits (hs : s.dev.safeEntry = true) (hsl : s.dev.mode ≠ Mode.sleep.code) (hsf : s.dev.mode ≠ Mode.safe.code)
    (hd : s.dev.dramSupplyOk = true) (d0 : (s.dev.cqOf 0).drain = false) (d1 : (s.dev.cqOf 1).drain = false)
    (hi : s.dev.captureIdle 0 = false ∨ s.dev.captureIdle 1 = false) :
    ∃ u, exec .safeEntryDone s = .next u ∧ u.dev.awaits .safeEntryDone = true ∧ u.dev.mode = s.dev.mode ∧ u.dev.safeEntry = true := by
  have he := exec_safeEntryDone hr
  rw [Dev.safeEntryDone_marked (d := s.dev.begin .safeEntryDone) h hs (queuesClosed_eq_false hsl hsf) hd d0 d1] at he
  have hv := (Dev.modeView_settle _).trans (Dev.modeView_schedOnce (s.dev.begin .safeEntryDone) 1 .safeEntryDone)
  exact ⟨_, he.trans (congrArg s.becomes (if_neg (not_all_halves hi))), (Dev.awaits_settle _ _).trans (Dev.awaits_schedOnce _ _ (by decide)),
    Dev.mode_of_modeView hv, (Dev.safeEntry_of_ctl (congrArg ModeView.ctl hv)).trans hs⟩

theorem safeEntryDone_closed (hs : s.dev.safeEntry = true) (hm : s.dev.mode = Mode.sleep.code ∨ s.dev.mode = Mode.safe.code) :
    ∃ u, exec .safeEntryDone s = .next u ∧ u.inMode Mode.safe.code s.dev.mode ∧ u.dev.safeEntry = false := by
  have he := exec_safeEntryDone hr
  rw [Dev.safeEntryDone_closed (d := s.dev.begin .safeEntryDone) h hs (queuesClosed_eq_true hm)] at he
  obtain ⟨hm, hse⟩ := Dev.safeFinish_holds (d := s.dev.begin .safeEntryDone) h ((s.dev.begin .safeEntryDone).fld Pg.dev F.DEV_MODE_SAFE_CAUSE)
  exact ⟨_, he, hm.settled rfl, (Dev.safeEntry_of_ctl (Dev.ctl_settle _)).trans hse⟩

theorem thermalDrainTimeout_ends (hs : s.dev.safeEntry = true) (hb : bit (s.dev.fld Pg.dev F.DEV_MODE_SAFE_CAUSE) 0 = true) :
    ∃ u, exec .thermalDrainTimeout s = .next u ∧ u.inMode Mode.safe.code s.dev.mode ∧ u.dev.safeEntry = false := by
  obtain ⟨e, hv, hf⟩ := Dev.thermalDrainTimeout_finishes (d := s.dev.begin .thermalDrainTimeout) h hs hb
  have he := exec_thermalDrainTimeout hr
  rw [hf] at he
  have hse : e.south = none := (Dev.south_of_ctl (congrArg ModeView.ctl hv)).trans h
  have hm : e.mode = s.dev.mode := Dev.mode_of_modeView hv
  obtain ⟨hold, hend⟩ := Dev.safeFinish_holds hse ((s.dev.begin .thermalDrainTimeout).fld Pg.dev F.DEV_MODE_SAFE_CAUSE)
  exact ⟨_, he, (hm ▸ hold).settled rfl, (Dev.safeEntry_of_ctl (Dev.ctl_settle _)).trans hend⟩

/-! READY_ENTRY. -/

theorem readyEntry_begins_safe (hd : s.dev.safeDue ≠ 0) (hlt : s.dev.safeDue < 8) (hc : isConfigured s.dev.mode = true)
    (hm : s.dev.mode ≠ Mode.safe.code) (hs : s.dev.safeEntry = false) (hk : s.dev.readyCk ≠ some s.dev.ck) :
    ∃ u, exec .readyEntry s = .next u ∧ u.dev.safeEntry = true ∧ u.dev.fld Pg.dev F.DEV_MODE_SAFE_CAUSE = s.dev.safeDue
      ∧ u.dev.fld Pg.dev F.DEV_MODE_TRANS = 1 ∧ u.dev.mode = s.dev.mode ∧ u.dev.awaits .safeEntryDone = true := by
  have he := exec_readyEntry hr
  rw [Dev.readyEntry_due (d := s.dev.begin .readyEntry) h hr hd hc hm hs hk] at he
  have hor : (s.dev.begin .readyEntry).safeDue ||| (s.dev.begin .readyEntry).safeDue = s.dev.safeDue := Nat.or_self _
  obtain ⟨hmode, hcause, htr, hse⟩ := Dev.safeBegin_enters (d := s.dev.begin .readyEntry) h (cause := (s.dev.begin .readyEntry).safeDue)
    (by rw [hor]; exact hlt)
  exact ⟨_, he, (Dev.safeEntry_of_ctl (Dev.ctl_settle _)).trans hse, (Dev.fld_settle_mode _ rfl).trans (hcause.trans hor),
    (Dev.fld_settle_mode _ rfl).trans htr, (Dev.mode_settle _).trans hmode, (Dev.awaits_settle _ _).trans (Dev.awaits_safeBegin _ _ _)⟩

omit h in
theorem readyEntry_early (hd : s.dev.safeDue = 0) (he : s.dev.allEnded = false) :
    exec .readyEntry s = s.becomes (s.dev.begin .readyEntry) := by
  rw [exec_readyEntry hr, Dev.readyEntry_early (d := s.dev.begin .readyEntry) hd he]

omit hr in
/-- With no cause live, nothing follows the entry to READY: `e` is the state the mode is put in, `d'` the state after the entry's other effects. -/
theorem ready_quiet {d' e : Dev} (he : e.modeView = (s.dev.begin .readyEntry).becomeReady.modeView)
    (hv : d'.modeView = (e.putMode [0, 1] Mode.ready.code).modeView) (hl : s.dev.liveCauses = 0) :
    d'.causesDue = d' ∧ d'.holdsMode Mode.ready.code s.dev.mode
    ∧ d'.modeView.ctl = (s.dev.begin .readyEntry).becomeReady.offloadOver.modeView.ctl := by
  obtain ⟨hm, hc, hlive⟩ := Dev.ready_entered (d := s.dev.begin .readyEntry) h he
  exact ⟨Dev.causesDue_quiet ((Dev.liveCauses_of_modeView (congrArg ModeView.live hv)).trans (hlive.trans hl)), hm.of_modeView hv,
    (congrArg ModeView.ctl hv).trans hc⟩

theorem readyEntry_loaded (hd : s.dev.safeDue = 0) (hm : s.dev.mode = Mode.loading.code) (hs : s.dev.started = true)
    (hb : s.dev.lanesBegun = true) (he : s.dev.allEnded = true) (hl : s.dev.liveCauses = 0) :
    ∃ u, exec .readyEntry s = .next u ∧ u.inMode Mode.ready.code s.dev.mode ∧ u.dev.readyCk = some s.dev.ck
      ∧ ∀ h, h < 2 → u.dev.lpcState h = (if s.dev.refSrc = 2 then Lpc.locked else Lpc.unanchored) := by
  have hx := exec_readyEntry hr
  rw [Dev.readyEntry_load (d := s.dev.begin .readyEntry) hd hm hs hb he] at hx
  obtain ⟨hq, hold, hctl⟩ := ready_quiet h rfl ((Dev.modeView_lpcStart _).trans (Dev.modeView_cfgStop _)) hl
  rw [hq] at hx
  have href : ((s.dev.begin .readyEntry).becomeReady.putMode [0, 1] Mode.ready.code).cfgStop.refSrc = s.dev.refSrc :=
    congrArg Prod.snd ((Dev.lpcView_cfgStop _).trans (Dev.lpcView_putMode (d := (s.dev.begin .readyEntry).becomeReady) h _))
  refine ⟨_, hx, hold.settled rfl, (Dev.readyCk_of_ctl ((Dev.ctl_settle _).trans hctl)).trans rfl, fun i hi => ?_⟩
  exact (Dev.lpcState_settle _ i).trans ((Dev.lpcState_lpcStart _ hi).trans (congrArg startState href))

theorem readyEntry_woken (hd : s.dev.safeDue = 0) (hw : s.dev.waking = true) (hm : s.dev.mode ≠ Mode.loading.code)
    (ho : ∀ k, k < 64 → s.dev.byDev k = true → s.dev.domOpen k = true) (hb : s.dev.lanesBegun = true) (he : s.dev.allEnded = true)
    (hl : s.dev.liveCauses = 0) :
    ∃ u, exec .readyEntry s = .next u ∧ u.inMode Mode.ready.code s.dev.mode ∧ u.dev.waking = false ∧ u.dev.modeTarget = none := by
  have hx := exec_readyEntry hr
  obtain ⟨e, hv, hf⟩ := Dev.readyEntry_wake (d := s.dev.begin .readyEntry) h hd hm hw ho hb he
  obtain ⟨hq, hold, hctl⟩ := ready_quiet h hv (Dev.modeView_resumeAll _) hl
  rw [hf, hq] at hx
  have hset := (Dev.ctl_settle _).trans hctl
  exact ⟨_, hx, hold.settled rfl, (Dev.waking_of_ctl hset).trans rfl, (Dev.modeTarget_of_ctl hset).trans rfl⟩

theorem readyEntry_live (hd : s.dev.safeDue = 0) (hm : s.dev.mode = Mode.loading.code) (hs : s.dev.started = true)
    (hb : s.dev.lanesBegun = true) (he : s.dev.allEnded = true) (hl : s.dev.liveCauses ≠ 0) :
    ∃ u, exec .readyEntry s = .next u ∧ u.inMode Mode.ready.code s.dev.mode ∧ u.dev.safeDue = s.dev.liveCauses
      ∧ (s.dev.ck + 1, .readyEntry) ∈ u.dev.agenda := by
  have hx := exec_readyEntry hr
  rw [Dev.readyEntry_load (d := s.dev.begin .readyEntry) hd hm hs hb he] at hx
  obtain ⟨hold, hctl, hlive⟩ := Dev.ready_entered (d := s.dev.begin .readyEntry) h rfl
  have hv := (Dev.modeView_lpcStart ((s.dev.begin .readyEntry).becomeReady.putMode [0, 1] Mode.ready.code).cfgStop).trans (Dev.modeView_cfgStop _)
  generalize ((s.dev.begin .readyEntry).becomeReady.putMode [0, 1] Mode.ready.code).cfgStop.lpcStart = x at hx hv
  have hxl : x.liveCauses = s.dev.liveCauses := (Dev.liveCauses_of_modeView (congrArg ModeView.live hv)).trans hlive
  have hxck : x.ck = s.dev.ck := (Dev.ck_of_ctl ((congrArg ModeView.ctl hv).trans hctl)).trans rfl
  have hxn : x.liveCauses ≠ 0 := fun hn => hl (hxl.symm.trans hn)
  refine ⟨_, hx, (hold.of_modeView hv).causesDue.settled rfl, ?_, ?_⟩
  · rw [Dev.safeDue_of_ctl (Dev.ctl_settle _), (Dev.causesDue_awaited hxn).1, hxl]
  · rw [Dev.settle_agenda, ← hxck]
    exact (Dev.causesDue_awaited hxn).2

theorem thermalDrainTimeout_idle (hs : s.dev.safeEntry = false) :
    exec .thermalDrainTimeout s = s.becomes (s.dev.begin .thermalDrainTimeout) := by
  rw [exec_thermalDrainTimeout hr, Dev.thermalDrainTimeout_idle (d := s.dev.begin .thermalDrainTimeout) h hs]
end

/-- Settles O32: the change of the held mode is `putMode_changes`; each further clause is a lemma about the one command it speaks of. -/
theorem modeTransitions : Obligations.ModeTransitions := by
  unfold Obligations.ModeTransitions
  refine ⟨fun d new h hn => putMode_changes d new h hn, fun s hr h => ?_⟩
  refine ⟨fun t ht hw => ⟨?_, ?_, ?_⟩, fun ho d0 d1 => ⟨?_, ?_⟩, fun hs hsl hsf hd d0 d1 => ⟨?_, ?_⟩, ?_, ?_, ?_, ?_, ?_, ?_, ?_, ?_⟩
  · exact fun hn ho hb => modeTransitionDone_holds hr h ht hw hn ho hb
  · exact fun ho => modeTransitionDone_switches hr h ht hw ho
  · rintro rfl hs
    exact modeTransitionDone_offload hr h ht hw hs
  · exact offloadDrainDone_holds hr h ho d0 d1
  · exact offloadDrainDone_waits hr ho d0 d1
  · exact safeEntryDone_drained hr h hs hsl hsf hd d0 d1
  · exact safeEntryDone_waits hr h hs hsl hsf hd d0 d1
  · exact safeEntryDone_closed hr h
  · exact readyEntry_loaded hr h
  · exact readyEntry_woken hr h
  · exact readyEntry_live hr h
  · exact readyEntry_begins_safe hr h
  · exact readyEntry_early hr
  · exact thermalDrainTimeout_ends hr h
  · exact thermalDrainTimeout_idle hr h

end Sys2Proof.Machine
end

section
/-! PROOFS. The lanes: a lane's page and its receive side, and what the operations about records, TX and the line position leave of them
(R45 to R64). -/

namespace Sys2Proof.Machine

/-! A lane's receive side and its registers. -/

@[simp] theorem Dev.laneOf_setLane (d : Dev) (n : Nat) (x : LaneSt) : (d.setLane n x).laneOf n = x := sget_sset_same _ _ _ _
theorem Dev.laneOf_setLane_ne (d : Dev) {n m : Nat} (x : LaneSt) (h : n ≠ m) : (d.setLane n x).laneOf m = d.laneOf m := sget_sset_ne _ _ _ _ h

theorem Dev.lanes_of_rest {d d' : Dev} (h : d'.rest = d.rest) : d'.lanes = d.lanes := by
  have hl : d'.rest.lanes = d.rest.lanes := congrArg Dev.lanes h
  exact hl

theorem Dev.mem_of_rest {d d' : Dev} (h : d'.rest = d.rest) : d'.mem = d.mem := by
  have hm : d'.rest.mem = d.rest.mem := congrArg Dev.mem h
  exact hm

theorem Dev.recs_of_rest {d d' : Dev} (h : d'.rest = d.rest) : d'.recs = d.recs := by
  have hr : d'.rest.recs = d.rest.recs := congrArg Dev.recs h
  exact hr

theorem Dev.ck_of_rest {d d' : Dev} (h : d'.rest = d.rest) : d'.ck = d.ck := by
  have hc : d'.rest.ck = d.rest.ck := congrArg Dev.ck h
  exact hc

theorem Dev.setLane_ck (d : Dev) (n : Nat) (x : LaneSt) : (d.setLane n x).ck = d.ck := (rfl)
theorem Dev.setLane_mem (d : Dev) (n : Nat) (x : LaneSt) : (d.setLane n x).mem = d.mem := (rfl)

theorem Dev.laneOf_of_rest {d d' : Dev} (h : d'.rest = d.rest) (n : Nat) : d'.laneOf n = d.laneOf n := by
  unfold Dev.laneOf
  rw [Dev.lanes_of_rest h]

theorem Dev.laneOf_settle (d : Dev) (n : Nat) : d.settle.laneOf n = d.laneOf n := Dev.laneOf_of_rest d.rest_settle n

/-- The pages of the blocks from the line position counters on lie behind those of the lanes. -/
theorem lanePage_ne {b : Blk} (n : Fin 64) (i : Nat) (hb : Blk.lpc.base ≤ b.base) : b.page i ≠ Pg.lane n := by
  have hl : Pg.lane n = 16 + n.val := rfl
  have hp : b.page i = b.base + i := rfl
  have hc : Blk.lpc.base = 80 := rfl
  omega

theorem raddr_lane_ne {b : Blk} (n : Fin 64) (i : Nat) {off off' : Nat} (hb : Blk.lpc.base ≤ b.base) (h : off < 4096) (h' : off' < 4096) :
    raddr (b.page i) off ≠ raddr (Pg.lane n) off' :=
  fun e => lanePage_ne n i hb (raddr_inj h h' e).1

/-- The end of a command leaves a lane's page. -/
theorem Dev.reg_settle_lane (d : Dev) (n : Nat) {off : Nat} (h : off < 4096) : d.settle.reg (Pg.lane n) off = d.reg (Pg.lane n) off := by
  have hp : Pg.pair ≠ Pg.lane n := by
    have hl : Pg.lane n = 16 + n := rfl
    have hq : Pg.pair = 7 := rfl
    omega
  exact d.reg_settle _ _ (fun e => hp (raddr_inj (by decide) h e).1)

theorem Dev.fld_settle_lane (d : Dev) (n : Nat) {f : Fld} (h : f.off < 4096) : d.settle.fld (Pg.lane n) f = d.fld (Pg.lane n) f := by
  unfold Dev.fld
  rw [d.reg_settle_lane n h]

theorem Dev.laneState_settle (d : Dev) (n : Nat) : d.settle.laneState n = d.laneState n := d.fld_settle_lane n (by decide)

theorem Dev.laneState_setLaneState (d : Dev) (n : Nat) {st : Nat} (h : st < 8) : (d.setLaneState n st).laneState n = st :=
  (d.fld_setFld _ _ _ (by decide)).trans (Nat.mod_eq_of_lt h)

/-- The other fields of LANEn_STAT leave STATE. -/
theorem Dev.laneState_setStat (d : Dev) (n v : Nat) {f : Fld} (hf : f.off = 0x00C) (h : f.lo + f.wd ≤ 32) (hl : 3 ≤ f.lo) :
    (d.setFld (Pg.lane n) f v).laneState n = d.laneState n :=
  d.fld_setFld_disj _ f F.LANE_STAT_STATE v hf h (Or.inl hl)

/-- A register of another offset leaves STATE. -/
theorem Dev.laneState_setReg (d : Dev) (pg n : Nat) {off : Nat} (v : Word) (h : off < 4096) (ho : off ≠ 0x00C) :
    (d.setReg pg off v).laneState n = d.laneState n :=
  d.fld_setReg_ne v _ (fun e => ho (raddr_inj h (by decide) e).2)

/-- RATE, CODE and USER_PCS and the measured duration give the symbol's duration. -/
theorem Dev.laneTau_congr {d d' : Dev} {n : Nat} (hc : d'.reg (Pg.lane n) 0x100 = d.reg (Pg.lane n) 0x100)
    (ht : (d'.laneOf n).tau = (d.laneOf n).tau) : d'.laneTau n = d.laneTau n := by
  have hf : ∀ lo wd, d'.fld (Pg.lane n) ⟨0x100, lo, wd⟩ = d.fld (Pg.lane n) ⟨0x100, lo, wd⟩ := fun lo wd =>
    congrArg (fun w : Word => bitsOf w.toNat lo wd) hc
  have ht' : (sget ({} : LaneSt) d'.lanes n).tau = (sget ({} : LaneSt) d.lanes n).tau := ht
  have hr : d'.laneRate n = d.laneRate n := hf 0 4
  have hk : d'.laneCode n = d.laneCode n := by
    unfold Dev.laneCode Dev.flag
    rw [show d'.fld (Pg.lane n) F.LANE_CFG_USER_PCS = _ from hf 15 1, show d'.fld (Pg.lane n) F.LANE_CFG_CODE = _ from hf 4 2]
    rfl
  unfold Dev.laneTau
  rw [ht', hr, hk]

/-! Interrupt bits of a lane (R64). -/

theorem pendMaskOf_lane (n : Fin 64) : pendMaskOf (Pg.lane n) = 0x1F := by
  unfold pendMaskOf
  rw [blkOfPage_page .lane n.val n.isLt]
  rfl

theorem Dev.bit_pendBits_lane (d : Dev) (n : Fin 64) (bits k : Nat) :
    bit ((d.pendBits (Pg.lane n) bits).reg (Pg.lane n) 0x010).toNat k
      = (bit (d.reg (Pg.lane n) 0x010).toNat k || bit (bits &&& 0x1F) k) := by
  have hw : (bits &&& 0x1F) % 2 ^ 32 = bits &&& 0x1F := Nat.mod_eq_of_lt (Nat.lt_of_le_of_lt Nat.and_le_right (by decide))
  rw [Dev.reg_pendBits, pendMaskOf_lane, BitVec.toNat_or, BitVec.toNat_ofNat, hw]
  exact Nat.testBit_or _ _ _

theorem Dev.bit_pend_lane (d : Dev) (n : Fin 64) (k : Fin 5) : bit ((d.pend (Pg.lane n) k).reg (Pg.lane n) 0x010).toNat k = true := by
  have hb : ∀ k : Fin 5, bit (2 ^ k.val &&& 0x1F) k = true := by decide
  have hk := d.bit_pendBits_lane n (2 ^ k.val) k
  rw [hb k, Bool.or_true] at hk
  exact hk

/-- Interrupt bits leave the page's registers but INT_PEND and SEQ. -/
theorem Dev.fld_pend_off (d : Dev) (pg bits : Nat) (f : Fld) (h1 : f.off ≠ 0x010) (h2 : f.off ≠ 0x040) :
    (d.pendBits pg bits).fld pg f = d.fld pg f :=
  d.fld_pendBits_ne _ _ _ (raddr_ne h1.symm) (raddr_ne h2.symm)

/-! What waits: the agenda, the capture queue, the mortise ports. -/

/-- Registers, lanes, records and line position counters: what waits on the agenda, for the capture queue or at a port is no part of them. -/
def Dev.lineView (d : Dev) : SMap Word × SMap LaneSt × SMap Rec × SMap LpcSt := (d.regs, d.lanes, d.recs, d.lpc)

theorem Dev.regs_of_lineView {d d' : Dev} (h : d'.lineView = d.lineView) : d'.regs = d.regs := congrArg Prod.fst h
theorem Dev.lanes_of_lineView {d d' : Dev} (h : d'.lineView = d.lineView) : d'.lanes = d.lanes := congrArg (fun v => v.2.1) h
theorem Dev.recs_of_lineView {d d' : Dev} (h : d'.lineView = d.lineView) : d'.recs = d.recs := congrArg (fun v => v.2.2.1) h

theorem Dev.laneOf_of_lineView {d d' : Dev} (h : d'.lineView = d.lineView) (n : Nat) : d'.laneOf n = d.laneOf n := by
  unfold Dev.laneOf
  rw [Dev.lanes_of_lineView h]

theorem Dev.lineView_sched (d : Dev) (k : Nat) (i : Instr) : (d.sched k i).lineView = d.lineView := (rfl)

theorem Dev.lineView_foldl {α : Type} (f : Dev → α → Dev) (l : List α) (d : Dev) (h : ∀ d x, (f d x).lineView = d.lineView) :
    (l.foldl f d).lineView = d.lineView := by
  induction l generalizing d with
  | nil => rfl
  | cons x l ih => rw [List.foldl_cons, ih, h]

theorem Dev.lineView_toQueue (d : Dev) (h : Nat) (x : AllocItem) : (d.toQueue h x).lineView = d.lineView := by
  unfold Dev.toQueue
  exact Dev.lineView_foldl _ _ _ (fun _ _ => rfl)

theorem Dev.lineView_readyCheck (d : Dev) : d.readyCheck.lineView = d.lineView := by
  unfold Dev.readyCheck
  split <;> rfl

theorem Dev.readyCheck_mem (d : Dev) : d.readyCheck.mem = d.mem := by
  unfold Dev.readyCheck
  split <;> rfl

theorem Dev.lineView_alignNote (d : Dev) (lane : Nat) (lp : LP) (payload : List Byte) : (d.alignNote lane lp payload).lineView = d.lineView := by
  unfold Dev.alignNote
  dsimp only
  split <;> rfl

theorem Dev.lineView_present (d : Dev) (p : Port) (v : PortVal) : (d.present p v).lineView = d.lineView := by
  unfold Dev.present
  split <;> rfl

/-! The sieve point. -/

theorem Dev.regs_sched (d : Dev) (k : Nat) (i : Instr) : (d.sched k i).regs = d.regs := (rfl)
theorem Dev.regs_setLane (d : Dev) (n : Nat) (x : LaneSt) : (d.setLane n x).regs = d.regs := (rfl)
theorem Dev.regs_setRec (d : Dev) (rid : Nat) (r : Rec) : (d.setRec rid r).regs = d.regs := (rfl)
theorem Dev.recs_sched (d : Dev) (k : Nat) (i : Instr) : (d.sched k i).recs = d.recs := (rfl)
theorem Dev.recs_setLane (d : Dev) (n : Nat) (x : LaneSt) : (d.setLane n x).recs = d.recs := (rfl)

/-- A lane but for what waits behind it: events, outcomes, symbols for its TX. -/
def LaneSt.still (x : LaneSt) : LaneSt := { x with evq := [], outq := [], txq := [] }
def Dev.laneStill (n : Nat) (d : Dev) : LaneSt := (d.laneOf n).still

theorem Dev.laneStill_sched (d : Dev) (n k : Nat) (i : Instr) : (d.sched k i).laneStill n = d.laneStill n := (rfl)
theorem Dev.laneStill_setRec (d : Dev) (n rid : Nat) (r : Rec) : (d.setRec rid r).laneStill n = d.laneStill n := (rfl)

theorem Dev.laneStill_setLane (d : Dev) (n m : Nat) {x : LaneSt} (h : x.still = d.laneStill m) : (d.setLane m x).laneStill n = d.laneStill n := by
  unfold Dev.laneStill
  by_cases hm : m = n
  · subst hm
    rw [Dev.laneOf_setLane, h]
    rfl
  · rw [Dev.laneOf_setLane_ne _ _ hm]

theorem Dev.regs_sievePoint (d : Dev) (n : Fin 64) (rid : Nat) (lp : LP) : (d.sievePoint n rid lp).regs = d.regs := by
  unfold Dev.sievePoint
  simp only [apply_ite Dev.regs, Dev.regs_sched, Dev.regs_setLane, Dev.regs_setRec, Dev.regs_toQueue, ite_self]

theorem Dev.laneStill_evq (d : Dev) (n m : Nat) (q : List (List Nat × LP × Nat)) :
    (d.setLane m { d.laneOf m with evq := q }).laneStill n = d.laneStill n := d.laneStill_setLane n m rfl
theorem Dev.laneStill_outq (d : Dev) (n m : Nat) (q : List Nat) :
    (d.setLane m { d.laneOf m with outq := q }).laneStill n = d.laneStill n := d.laneStill_setLane n m rfl
theorem Dev.laneStill_txq (d : Dev) (n m : Nat) (q : List TxEnt) :
    (d.setLane m { d.laneOf m with txq := q }).laneStill n = d.laneStill n := d.laneStill_setLane n m rfl

theorem Dev.laneStill_of_lineView {d d' : Dev} (h : d'.lineView = d.lineView) (n : Nat) : d'.laneStill n = d.laneStill n :=
  congrArg LaneSt.still (Dev.laneOf_of_lineView h n)

theorem Dev.laneStill_toQueue (d : Dev) (n h : Nat) (x : AllocItem) : (d.toQueue h x).laneStill n = d.laneStill n :=
  Dev.laneStill_of_lineView (d.lineView_toQueue h x) n

theorem Dev.laneStill_sievePoint (d : Dev) (m : Nat) (n : Fin 64) (rid : Nat) (lp : LP) : (d.sievePoint n rid lp).laneStill m = d.laneStill m := by
  unfold Dev.sievePoint
  simp only [apply_ite (Dev.laneStill m), Dev.laneStill_sched, Dev.laneStill_outq, Dev.laneStill_evq, Dev.laneStill_setRec,
    Dev.laneStill_toQueue, ite_self]

theorem Dev.startCk_of_laneStill {d d' : Dev} {n : Nat} (h : d'.laneStill n = d.laneStill n) : (d'.laneOf n).startCk = (d.laneOf n).startCk := by
  have hs : (d'.laneStill n).startCk = (d.laneStill n).startCk := congrArg LaneSt.startCk h
  exact hs

/-- Of the records, the sieve point marks the rules of the one that stands there. -/
theorem Dev.recs_sievePoint (d : Dev) (n : Fin 64) (rid : Nat) (lp : LP) : ∃ dec mat seen,
    (d.sievePoint n rid lp).recs = sput d.recs rid { d.recOf rid with decided := dec, matched := mat, outSeen := seen } := by
  have hq := Dev.recs_of_lineView (d.lineView_toQueue (laneHalf n)
    ⟨d.ck + 9, n, rid, some ((d.recOf rid).payload.length, (d.recOf rid).ended)⟩)
  unfold Dev.sievePoint
  simp only [apply_ite Dev.recs, Dev.recs_sched, Dev.recs_setLane, ite_self]
  unfold Dev.setRec
  rw [hq]
  exact ⟨_, _, _, rfl⟩

end Sys2Proof.Machine
end

section
/-! PROOFS. A loss of alignment: what its record, its line event, the TX behind the lane and the reference leave of the lane (R56, R60, R71). -/

namespace Sys2Proof.Machine

/-- A lane's page, and the CK in which its attempt began. -/
@[ext] structure LaneView where
  page : Fin 4096 → Word
  startCk : Nat

def Dev.laneView (n : Fin 64) (d : Dev) : LaneView := ⟨fun off => d.reg (Pg.lane n) off, (d.laneOf n).startCk⟩

theorem Dev.reg_of_laneView {d d' : Dev} {n : Fin 64} (h : d'.laneView n = d.laneView n) {off : Nat} (ho : off < 4096) :
    d'.reg (Pg.lane n) off = d.reg (Pg.lane n) off := congrFun (congrArg LaneView.page h) ⟨off, ho⟩

theorem Dev.fld_of_laneView {d d' : Dev} {n : Fin 64} (h : d'.laneView n = d.laneView n) {f : Fld} (hf : f.off < 4096) :
    d'.fld (Pg.lane n) f = d.fld (Pg.lane n) f := by
  unfold Dev.fld
  rw [Dev.reg_of_laneView h hf]

theorem Dev.startCk_of_laneView {d d' : Dev} {n : Fin 64} (h : d'.laneView n = d.laneView n) :
    (d'.laneOf n).startCk = (d.laneOf n).startCk := congrArg LaneView.startCk h

theorem Dev.laneView_of_regs {d d' : Dev} {n : Fin 64} (hr : d'.regs = d.regs) (hs : (d'.laneOf n).startCk = (d.laneOf n).startCk) :
    d'.laneView n = d.laneView n :=
  LaneView.ext (funext fun _ => Dev.reg_congr hr _ _) hs

theorem Dev.laneView_of_lineView {d d' : Dev} (n : Fin 64) (h : d'.lineView = d.lineView) : d'.laneView n = d.laneView n :=
  Dev.laneView_of_regs (Dev.regs_of_lineView h) (congrArg LaneSt.startCk (Dev.laneOf_of_lineView h n))

/-- Updates of what is no register and no lane. -/
theorem Dev.laneView_setStim (d : Dev) (n : Fin 64) (m : Nat) (x : StimLane) : (d.setStim m x).laneView n = d.laneView n := (rfl)
theorem Dev.laneView_setLpc (d : Dev) (n : Fin 64) (h : Nat) (x : LpcSt) : (d.setLpc h x).laneView n = d.laneView n := (rfl)
theorem Dev.laneView_addRec (d : Dev) (n : Fin 64) (r : Rec) : (d.addRec r).laneView n = d.laneView n := (rfl)

theorem Dev.laneView_setRec (d : Dev) (n : Fin 64) (rid : Nat) (r : Rec) : (d.setRec rid r).laneView n = d.laneView n := (rfl)

/-- An update of a lane that keeps the attempt's begin. -/
theorem Dev.laneView_setLane (d : Dev) (n : Fin 64) (m : Nat) {x : LaneSt} (h : x.startCk = (d.laneOf m).startCk) :
    (d.setLane m x).laneView n = d.laneView n := by
  refine LaneView.ext rfl ?_
  change ((d.setLane m x).laneOf n).startCk = (d.laneOf n).startCk
  by_cases hm : m = n
  · subst hm
    rw [Dev.laneOf_setLane, h]
  · rw [Dev.laneOf_setLane_ne _ _ hm]

theorem Dev.laneView_txq (d : Dev) (n : Fin 64) (m : Nat) (q : List TxEnt) :
    (d.setLane m { d.laneOf m with txq := q }).laneView n = d.laneView n := d.laneView_setLane n m rfl
theorem Dev.laneView_openRec (d : Dev) (n : Fin 64) (m : Nat) (r : Option Nat) (k : Nat) :
    (d.setLane m { d.laneOf m with openRec := r, rawCnt := k }).laneView n = d.laneView n := d.laneView_setLane n m rfl

theorem Dev.laneView_foldl {α : Type} (n : Fin 64) (f : Dev → α → Dev) (l : List α) (d : Dev) (h : ∀ d x, (f d x).laneView n = d.laneView n) :
    (l.foldl f d).laneView n = d.laneView n := by
  induction l generalizing d with
  | nil => rfl
  | cons x l ih => rw [List.foldl_cons, ih, h]

/-- A register of a page behind those of the lanes. -/
theorem Dev.laneView_setReg (d : Dev) (n : Fin 64) {b : Blk} (i : Nat) {off : Nat} (v : Word) (hb : Blk.lpc.base ≤ b.base) (h : off < 4096) :
    (d.setReg (b.page i) off v).laneView n = d.laneView n :=
  LaneView.ext (funext fun o => d.reg_setReg_ne v (raddr_lane_ne n i hb h o.isLt)) rfl

theorem Dev.laneView_setFld (d : Dev) (n : Fin 64) {b : Blk} (i : Nat) (f : Fld) (v : Nat) (hb : Blk.lpc.base ≤ b.base) (h : f.off < 4096) :
    (d.setFld (b.page i) f v).laneView n = d.laneView n := d.laneView_setReg n i _ hb h

theorem Dev.laneView_bump (d : Dev) (n : Fin 64) {b : Blk} (i : Nat) (f : Fld) (hb : Blk.lpc.base ≤ b.base) (h : f.off < 4096) :
    (d.bump (b.page i) f).laneView n = d.laneView n := d.laneView_setFld n i f _ hb h

theorem Dev.laneView_pend (d : Dev) (n : Fin 64) {b : Blk} (i k : Nat) (hb : Blk.lpc.base ≤ b.base) :
    (d.pend (b.page i) k).laneView n = d.laneView n := by
  refine LaneView.ext (funext fun o => ?_) ?_
  · exact d.reg_pendBits_ne _ _ (raddr_lane_ne n i hb (by decide) o.isLt) (raddr_lane_ne n i hb (by decide) o.isLt)
  · exact congrArg LaneSt.startCk (Dev.laneOf_of_rest (d.rest_pend _ _) n)

theorem Dev.laneView_lineEvent (d : Dev) (n : Fin 64) (h lane : Nat) (lp : LP) (flags : Nat) (payload : List Byte) :
    (d.lineEvent h lane lp flags payload).laneView n = d.laneView n := by
  unfold Dev.lineEvent Dev.toAlloc
  rw [Dev.laneView_of_lineView n (Dev.lineView_toQueue _ _ _), Dev.laneView_addRec]

/-! Records, symbols for TX, the reference. -/

theorem Dev.laneView_alignNote (d : Dev) (n : Fin 64) (lane : Nat) (lp : LP) (payload : List Byte) :
    (d.alignNote lane lp payload).laneView n = d.laneView n := Dev.laneView_of_lineView n (d.lineView_alignNote _ _ _)

theorem Dev.laneView_sievePoint (d : Dev) (m n : Fin 64) (rid : Nat) (lp : LP) : (d.sievePoint n rid lp).laneView m = d.laneView m :=
  Dev.laneView_of_regs (d.regs_sievePoint _ _ _) (Dev.startCk_of_laneStill (d.laneStill_sievePoint m n rid lp))

theorem Dev.laneView_closeRecord (d : Dev) (m n : Fin 64) (lp : LP) (flags : Nat) : (d.closeRecord n lp flags).laneView m = d.laneView m := by
  unfold Dev.closeRecord
  split
  · rfl
  · simp only [apply_ite (Dev.laneView m), Dev.laneView_sievePoint, Dev.laneView_alignNote, Dev.laneView_openRec, Dev.laneView_setRec, ite_self]

theorem Dev.laneView_noTx (d : Dev) (n : Fin 64) (m : Nat) : (d.noTx m).laneView n = d.laneView n := by
  unfold Dev.noTx
  rw [Dev.laneView_pend _ _ _ _ (by decide), Dev.laneView_bump _ _ _ _ (by decide) (by decide)]

theorem Dev.laneView_txGone (d : Dev) (n : Fin 64) (m : Nat) : (d.txGone m).laneView n = d.laneView n := by
  unfold Dev.txGone
  dsimp only
  rw [Dev.laneView_txq, Dev.laneView_setStim]
  split
  · exact Dev.laneView_foldl n _ _ _ (fun d _ => d.laneView_noTx n m)
  · exact Dev.laneView_foldl n _ _ _ (fun d _ => d.laneView_noTx n m)

theorem Dev.laneView_srcGone (d : Dev) (n : Fin 64) (m : Nat) : (d.srcGone m).laneView n = d.laneView n :=
  Dev.laneView_foldl n _ _ _ (fun d k => by simp only [apply_ite (Dev.laneView n), Dev.laneView_txGone, ite_self])

theorem Dev.laneView_freewheelHalf (d : Dev) (n : Fin 64) (h : Nat) : (d.freewheelHalf h).laneView n = d.laneView n := by
  unfold Dev.freewheelHalf Dev.setLpcState Dev.lpcEvent
  dsimp only
  rw [Dev.laneView_lineEvent, Dev.laneView_pend _ _ _ _ (by decide), Dev.laneView_bump _ _ _ _ (by decide) (by decide), Dev.laneView_setLpc,
    Dev.laneView_setFld _ _ _ _ _ (by decide) (by decide)]

theorem Dev.laneView_lostHalf (d : Dev) (n : Fin 64) (h : Nat) : (d.lostHalf h).laneView n = d.laneView n := by
  unfold Dev.lostHalf
  simp only [apply_ite (Dev.laneView n), Dev.laneView_setLpc, Dev.laneView_freewheelHalf, ite_self]

theorem Dev.laneView_refLaneLost (d : Dev) (n : Fin 64) (m : Nat) : (d.refLaneLost m).laneView n = d.laneView n := by
  unfold Dev.refLaneLost Dev.freewheel
  simp only [apply_ite (Dev.laneView n), Dev.laneView_lostHalf, ite_self]

/-! The attempt (R51). -/

/-- The state a lane shows from the start of an attempt. -/
def attemptState (relock : Bool) : Nat := if relock then Ln.lost else Ln.acquire

theorem attemptState_lt (relock : Bool) : attemptState relock < 8 := by
  cases relock <;> decide

/-- The state of an attempt is shown, and neither signal nor CDR lock. -/
def Dev.showAttempt (d : Dev) (n : Fin 64) (relock : Bool) : Dev :=
  ((d.setLaneState n (attemptState relock)).setFld (Pg.lane n) F.LANE_STAT_SIG 0).setFld (Pg.lane n) F.LANE_STAT_CDR 0

theorem Dev.showAttempt_rest (d : Dev) (n : Fin 64) (relock : Bool) : (d.showAttempt n relock).rest = d.rest := by
  unfold Dev.showAttempt Dev.setLaneState
  simp only [Dev.rest_setFld]

theorem Dev.showAttempt_laneState (d : Dev) (n : Fin 64) (relock : Bool) : (d.showAttempt n relock).laneState n = attemptState relock := by
  unfold Dev.showAttempt
  rw [Dev.laneState_setStat _ _ _ rfl (by decide) (by decide), Dev.laneState_setStat _ _ _ rfl (by decide) (by decide),
    Dev.laneState_setLaneState _ _ (attemptState_lt relock)]

theorem Dev.showAttempt_reg (d : Dev) (n : Fin 64) (relock : Bool) {off : Nat} (h : off ≠ 0x00C) :
    (d.showAttempt n relock).reg (Pg.lane n) off = d.reg (Pg.lane n) off := by
  have hne : raddr (Pg.lane n) 0x00C ≠ raddr (Pg.lane n) off := raddr_ne h.symm
  unfold Dev.showAttempt Dev.setLaneState
  rw [Dev.reg_setFld_ne _ _ _ hne, Dev.reg_setFld_ne _ _ _ hne, Dev.reg_setFld_ne _ _ _ hne]

/-- The attempt has begun; its time-out is not yet on the agenda. -/
def Dev.attemptBegun (d : Dev) (n : Fin 64) (relock : Bool) : Dev :=
  (d.showAttempt n relock).setLane n { (d.showAttempt n relock).laneOf n with
    startCk := (d.showAttempt n relock).ck, relock := relock, ended := false, rxOn := true, win := [] }

/-- The attempt's time-out is taken off the agenda. -/
def Dev.timeoutOff (d : Dev) (n : Fin 64) : Dev := { d with agenda := agendaDrop (.alignTimeout n) d.agenda }

theorem Dev.lineView_timeoutOff (d : Dev) (n : Fin 64) : (d.timeoutOff n).lineView = d.lineView := (rfl)
theorem Dev.timeoutOff_mem (d : Dev) (n : Fin 64) : (d.timeoutOff n).mem = d.mem := (rfl)
theorem Dev.timeoutOff_ck (d : Dev) (n : Fin 64) : (d.timeoutOff n).ck = d.ck := (rfl)

/-- The old attempt's time-out gives place to the new one's. -/
def Dev.timeoutFrom (d : Dev) (n : Fin 64) (t : Nat) : Dev :=
  if t = 0 then d.timeoutOff n else (d.timeoutOff n).sched (1000 * t) (.alignTimeout n)

theorem Dev.startAttempt_eq (d : Dev) (n : Fin 64) (relock : Bool) :
    d.startAttempt n relock = (d.attemptBegun n relock).timeoutFrom n (d.fld (Pg.lane n) F.LANE_ALIGN_TIMEOUT) := rfl

theorem Dev.lineView_timeoutFrom (d : Dev) (n : Fin 64) (t : Nat) : (d.timeoutFrom n t).lineView = d.lineView := by
  unfold Dev.timeoutFrom
  rw [apply_ite Dev.lineView, Dev.lineView_sched, Dev.lineView_timeoutOff, ite_self]

theorem Dev.startAttempt_regs (d : Dev) (n : Fin 64) (relock : Bool) : (d.startAttempt n relock).regs = (d.showAttempt n relock).regs := by
  rw [d.startAttempt_eq, Dev.regs_of_lineView (Dev.lineView_timeoutFrom _ n _)]
  rfl

theorem Dev.startAttempt_laneOf (d : Dev) (n : Fin 64) (relock : Bool) : (d.startAttempt n relock).laneOf n
    = { d.laneOf n with startCk := d.ck, relock := relock, ended := false, rxOn := true, win := [] } := by
  rw [d.startAttempt_eq, Dev.laneOf_of_lineView (Dev.lineView_timeoutFrom _ n _), Dev.attemptBegun, Dev.laneOf_setLane,
    Dev.laneOf_of_rest (d.showAttempt_rest n relock)]
  rfl

theorem Dev.startAttempt_laneState (d : Dev) (n : Fin 64) (relock : Bool) : (d.startAttempt n relock).laneState n = attemptState relock := by
  rw [← d.showAttempt_laneState n relock]
  unfold Dev.laneState Dev.fld
  rw [Dev.reg_congr (d.startAttempt_regs n relock)]

theorem Dev.startAttempt_reg (d : Dev) (n : Fin 64) (relock : Bool) {off : Nat} (h : off ≠ 0x00C) :
    (d.startAttempt n relock).reg (Pg.lane n) off = d.reg (Pg.lane n) off := by
  rw [Dev.reg_congr (d.startAttempt_regs n relock), d.showAttempt_reg n relock h]

theorem Dev.mem_timeoutFrom (d : Dev) (n : Fin 64) {t : Nat} (h : t ≠ 0) : (d.ck + 1000 * t, .alignTimeout n) ∈ (d.timeoutFrom n t).agenda := by
  unfold Dev.timeoutFrom
  rw [if_neg h, ← d.timeoutOff_ck n]
  exact Dev.mem_sched _ _ _

theorem Dev.attemptBegun_ck (d : Dev) (n : Fin 64) (relock : Bool) : (d.attemptBegun n relock).ck = d.ck := by
  rw [Dev.attemptBegun, Dev.setLane_ck, Dev.ck_of_rest (d.showAttempt_rest n relock)]

/-- The time-out of an attempt stands on the agenda where TIMEOUT gives one. -/
theorem Dev.startAttempt_timeout (d : Dev) (n : Fin 64) (relock : Bool) (h : d.fld (Pg.lane n) F.LANE_ALIGN_TIMEOUT ≠ 0) :
    (d.ck + 1000 * d.fld (Pg.lane n) F.LANE_ALIGN_TIMEOUT, .alignTimeout n) ∈ (d.startAttempt n relock).agenda := by
  rw [d.startAttempt_eq, ← d.attemptBegun_ck n relock]
  exact Dev.mem_timeoutFrom _ n h

/-! The loss (R56). -/

/-- The loss as it is counted: the open record is cut, the counter advances, the line event and the interrupt follow. -/
def Dev.lossCounted (d : Dev) (n : Fin 64) (lastLp lp : LP) (flags : Nat) (payload : List Byte) : Dev :=
  (((d.closeRecord n lastLp 2).bump (Pg.lane n) F.LANE_LOCK_LOSS_CNT).lineEvent (laneHalf n) n lp flags payload).pend (Pg.lane n) 2

/-- A loss is counted, then the lane starts its next attempt. -/
theorem Dev.laneLoss_view {d : Dev} {n : Fin 64} (h : d.laneState n = Ln.aligned) :
    ∃ last lp flags payload, (d.laneLoss n).laneView n = ((d.lossCounted n last lp flags payload).startAttempt n true).laneView n := by
  unfold Dev.laneLoss
  rw [if_neg (fun hn => hn h)]
  dsimp only
  exact ⟨_, _, _, _, by
    rw [Dev.laneView_refLaneLost, Dev.laneView_srcGone, Dev.laneView_setLane]
    · rfl
    · rfl⟩

end Sys2Proof.Machine
end

section
/-! PROOFS. The events of a lane's receiver: lock, alignment, time-out, slips, loss of signal (R51 to R54, R56, O33). -/

namespace Sys2Proof.Machine

/-! The events out of reset. -/

theorem exec_cdrLock {s : State} (n : Fin 64) (hr : s.dev.rst = .running) : exec (.cdrLock n) s = s.becomes (s.dev.fresh.cdrLock n) :=
  s.cmd_running _ hr
theorem exec_codeLock {s : State} (n : Fin 64) (hr : s.dev.rst = .running) : exec (.codeLock n) s = s.becomes (s.dev.fresh.codeLock n) :=
  s.cmd_running _ hr
theorem exec_laneAligned {s : State} (n : Fin 64) (depth : Fin 128) (off : BitVec 32) (hr : s.dev.rst = .running) :
    exec (.laneAligned n depth off) s = s.becomes (s.dev.fresh.laneAligned n depth off) := s.cmd_running _ hr
theorem exec_alignTimeout {s : State} (n : Fin 64) (hr : s.dev.rst = .running) :
    exec (.alignTimeout n) s = s.becomes ((s.dev.begin (.alignTimeout n)).alignTimeout n) := s.run_running _ _ hr
theorem exec_wanderSlip {s : State} (n : Fin 64) (words : Nat) (hr : s.dev.rst = .running) :
    exec (.wanderSlip n words) s = s.becomes (s.dev.fresh.wanderSlip n words) := s.cmd_running _ hr
theorem exec_lossOfSignal {s : State} (n : Fin 64) (sig : Bool) (hr : s.dev.rst = .running) :
    exec (.lossOfSignal n sig) s = s.becomes (s.dev.fresh.lossOfSignal n sig) := s.cmd_running _ hr

/-! CDR lock and code lock (R51, steps 1 and 2). -/

section
variable {d : Dev} {n : Fin 64} (h : d.laneState n ∈ [Ln.acquire, Ln.lost, Ln.failed])
include h

theorem Dev.cdrLock_trying : d.cdrLock n = (d.setFld (Pg.lane n) F.LANE_STAT_SIG 1).setFld (Pg.lane n) F.LANE_STAT_CDR 1 :=
  if_pos (List.contains_iff_mem.mpr h)

theorem Dev.codeLock_trying (hc : d.fld (Pg.lane n) F.LANE_STAT_CDR = 1) : d.codeLock n = d.setLaneState n Ln.codeLock :=
  if_pos ⟨List.contains_iff_mem.mpr h, decide_eq_true hc⟩
end

theorem cdrLock_shows {s : State} {n : Fin 64} (hr : s.dev.rst = .running) (h : s.dev.laneState n ∈ [Ln.acquire, Ln.lost, Ln.failed]) :
    ∃ t, exec (.cdrLock n) s = .next t ∧ t.dev.fld (Pg.lane n) F.LANE_STAT_SIG = 1 ∧ t.dev.fld (Pg.lane n) F.LANE_STAT_CDR = 1
      ∧ t.dev.laneState n = s.dev.laneState n ∧ t.dev.rest = s.dev.rest := by
  refine ⟨_, exec_cdrLock n hr, ?_, ?_, ?_, ?_⟩ <;> rw [Dev.cdrLock_trying (d := s.dev.fresh) h]
  · rw [Dev.fld_settle_lane _ _ (by decide),
      Dev.fld_setFld_disj _ _ F.LANE_STAT_CDR F.LANE_STAT_SIG _ rfl (by decide) (by decide), Dev.fld_setFld _ _ _ _ (by decide)]
    rfl
  · rw [Dev.fld_settle_lane _ _ (by decide), Dev.fld_setFld _ _ _ _ (by decide)]
    rfl
  · rw [Dev.laneState_settle, Dev.laneState_setStat _ _ _ rfl (by decide) (by decide), Dev.laneState_setStat _ _ _ rfl (by decide) (by decide)]
    rfl
  · rw [Dev.rest_settle, Dev.rest_setFld, Dev.rest_setFld, Dev.rest_fresh]

theorem codeLock_shows {s : State} {n : Fin 64} (hr : s.dev.rst = .running) (h : s.dev.laneState n ∈ [Ln.acquire, Ln.lost, Ln.failed])
    (hc : s.dev.fld (Pg.lane n) F.LANE_STAT_CDR = 1) :
    ∃ t, exec (.codeLock n) s = .next t ∧ t.dev.laneState n = Ln.codeLock ∧ t.dev.rest = s.dev.rest := by
  refine ⟨_, exec_codeLock n hr, ?_, ?_⟩ <;> rw [Dev.codeLock_trying (d := s.dev.fresh) h hc]
  · rw [Dev.laneState_settle, Dev.laneState_setLaneState _ _ (by decide)]
  · rw [Dev.rest_settle, Dev.setLaneState, Dev.rest_setFld, Dev.rest_fresh]

/-! Alignment (R51, steps 3 to 5, R53). -/

/-- The alignment's duration in µs, as ALIGN_US shows it. -/
def Dev.attemptUs (d : Dev) (n : Nat) : Nat := min ((d.ck - (d.laneOf n).startCk) / 1000) (2 ^ 32 - 1)

/-- The registers that show an alignment. -/
def Dev.showAligned (d : Dev) (n : Fin 64) (depth : Fin 128) (off : BitVec 32) : Dev :=
  (((d.setLaneState n Ln.aligned).setFld (Pg.lane n) F.LANE_STAT_EB_DEPTH depth.val).setFld (Pg.lane n) F.LANE_ALIGN_US (d.attemptUs n)).setFld
    (Pg.lpc (laneHalf n)) (F.LPC_OFF_OFF (n.val % 32)) ((off.toNat * 256 + d.laneTau n / 2) / d.laneTau n)

/-- The lane as an alignment leaves it, its time-out off the agenda. -/
def Dev.alignedLane (d : Dev) (n : Fin 64) (depth : Fin 128) (off : BitVec 32) : Dev :=
  ((d.showAligned n depth off).setLane n { d.laneOf n with
    ended := true, fresh := true, off := off.toNat, win := [], openRec := none, rd := none, tauN := 0 }).timeoutOff n

/-- The interrupt bits of an alignment: bit 4 too where it follows a loss (R57, R64). -/
def alignBits (relock : Bool) : Nat := if relock then 0b10001 else 0b00001

theorem Dev.laneAligned_codeLock {d : Dev} {n : Fin 64} (h : d.laneState n = Ln.codeLock) (depth : Fin 128) (off : BitVec 32) :
    d.laneAligned n depth off
      = ((d.alignedLane n depth off).pendBits (Pg.lane n) (alignBits (d.laneOf n).relock)).readyCheck := by
  have ht : (((d.setLaneState n Ln.aligned).setFld (Pg.lane n) F.LANE_STAT_EB_DEPTH depth.val).setFld (Pg.lane n) F.LANE_ALIGN_US
      (d.attemptUs n)).laneTau n = d.laneTau n := by
    refine Dev.laneTau_congr ?_ (congrArg LaneSt.tau (Dev.laneOf_of_rest ?_ n))
    · unfold Dev.setLaneState
      rw [Dev.reg_setFld_ne _ _ _ (raddr_ne (by decide)), Dev.reg_setFld_ne _ _ _ (raddr_ne (by decide)),
        Dev.reg_setFld_ne _ _ _ (raddr_ne (by decide))]
    · unfold Dev.setLaneState
      rw [Dev.rest_setFld, Dev.rest_setFld, Dev.rest_setFld]
  unfold Dev.laneAligned
  rw [if_neg (fun hn => hn h)]
  unfold Dev.alignedLane Dev.showAligned
  rw [← ht]
  rfl

/-- The offset register of the lane, in the page of its half's line position counter. -/
theorem raddr_off_ne (n : Fin 64) {off : Nat} (h : off < 4096) :
    raddr (Pg.lpc (laneHalf n)) (F.LPC_OFF_OFF (n.val % 32)).off ≠ raddr (Pg.lane n) off :=
  raddr_lane_ne n _ (by decide) (by simp only [F.LPC_OFF_OFF]; omega) h

theorem Dev.showAligned_laneState (d : Dev) (n : Fin 64) (depth : Fin 128) (off : BitVec 32) :
    (d.showAligned n depth off).laneState n = Ln.aligned := by
  unfold Dev.showAligned Dev.laneState
  rw [Dev.fld_setFld_ne _ _ _ _ (raddr_off_ne n (by decide)), Dev.fld_setFld_ne _ _ _ _ (raddr_ne (by decide)),
    Dev.fld_setFld_disj _ _ F.LANE_STAT_EB_DEPTH F.LANE_STAT_STATE _ rfl (by decide) (by decide)]
  exact d.laneState_setLaneState n (by decide)

theorem Dev.showAligned_depth (d : Dev) (n : Fin 64) (depth : Fin 128) (off : BitVec 32) :
    (d.showAligned n depth off).fld (Pg.lane n) F.LANE_STAT_EB_DEPTH = depth.val := by
  unfold Dev.showAligned
  rw [Dev.fld_setFld_ne _ _ _ _ (raddr_off_ne n (by decide)), Dev.fld_setFld_ne _ _ _ _ (raddr_ne (by decide)),
    Dev.fld_setFld _ _ _ _ (by decide)]
  exact Nat.mod_eq_of_lt depth.isLt

theorem Dev.showAligned_us (d : Dev) (n : Fin 64) (depth : Fin 128) (off : BitVec 32) :
    (d.showAligned n depth off).fld (Pg.lane n) F.LANE_ALIGN_US = d.attemptUs n := by
  have hlt : d.attemptUs n < 2 ^ 32 := Nat.lt_of_le_of_lt (Nat.min_le_right _ _) (by decide)
  unfold Dev.showAligned
  rw [Dev.fld_setFld_ne _ _ _ _ (raddr_off_ne n (by decide)), Dev.fld_setFld _ _ _ _ (by decide)]
  exact Nat.mod_eq_of_lt hlt

theorem Dev.showAligned_off (d : Dev) (n : Fin 64) (depth : Fin 128) (off : BitVec 32) :
    (d.showAligned n depth off).fld (Pg.lpc (laneHalf n)) (F.LPC_OFF_OFF (n.val % 32))
      = (off.toNat * 256 + d.laneTau n / 2) / d.laneTau n % 2 ^ 16 := by
  unfold Dev.showAligned
  rw [Dev.fld_setFld _ _ _ _ (Nat.le_of_lt (by decide : 0 + 16 < 32))]
  rfl

theorem Dev.showAligned_rest (d : Dev) (n : Fin 64) (depth : Fin 128) (off : BitVec 32) : (d.showAligned n depth off).rest = d.rest := by
  unfold Dev.showAligned Dev.setLaneState
  simp only [Dev.rest_setFld]

theorem Dev.fld_of_regs {d d' : Dev} (h : d'.regs = d.regs) (pg : Nat) (f : Fld) : d'.fld pg f = d.fld pg f := by
  unfold Dev.fld
  rw [Dev.reg_congr h]

theorem Dev.alignedLane_regs (d : Dev) (n : Fin 64) (depth : Fin 128) (off : BitVec 32) :
    (d.alignedLane n depth off).regs = (d.showAligned n depth off).regs := by
  rw [Dev.alignedLane, Dev.regs_of_lineView (Dev.lineView_timeoutOff _ n), Dev.regs_setLane]

theorem Dev.alignedLane_laneOf (d : Dev) (n : Fin 64) (depth : Fin 128) (off : BitVec 32) : (d.alignedLane n depth off).laneOf n
    = { d.laneOf n with ended := true, fresh := true, off := off.toNat, win := [], openRec := none, rd := none, tauN := 0 } := by
  rw [Dev.alignedLane, Dev.laneOf_of_lineView (Dev.lineView_timeoutOff _ n), Dev.laneOf_setLane]

theorem Dev.alignedLane_mem (d : Dev) (n : Fin 64) (depth : Fin 128) (off : BitVec 32) : (d.alignedLane n depth off).mem = d.mem := by
  rw [Dev.alignedLane, Dev.timeoutOff_mem, Dev.setLane_mem, Dev.mem_of_rest (d.showAligned_rest n depth off)]

section
variable {d : Dev} {n : Fin 64} (h : d.laneState n = Ln.codeLock) (depth : Fin 128) (off : BitVec 32)
include h

theorem Dev.laneAligned_regs : (d.laneAligned n depth off).regs
    = ((d.alignedLane n depth off).pendBits (Pg.lane n) (alignBits (d.laneOf n).relock)).regs := by
  rw [Dev.laneAligned_codeLock h, Dev.regs_of_lineView (Dev.lineView_readyCheck _)]

/-- An alignment's registers stand, but for the interrupt's. -/
theorem Dev.laneAligned_fld (pg : Nat) {f : Fld} (h1 : raddr (Pg.lane n) 0x010 ≠ raddr pg f.off) (h2 : raddr (Pg.lane n) 0x040 ≠ raddr pg f.off) :
    (d.laneAligned n depth off).fld pg f = (d.showAligned n depth off).fld pg f := by
  rw [Dev.fld_of_regs (Dev.laneAligned_regs h depth off), Dev.fld_pendBits_ne _ _ _ _ h1 h2, Dev.fld_of_regs (d.alignedLane_regs n depth off)]

theorem Dev.laneAligned_laneFld {f : Fld} (h1 : 0x010 ≠ f.off) (h2 : 0x040 ≠ f.off) :
    (d.laneAligned n depth off).fld (Pg.lane n) f = (d.showAligned n depth off).fld (Pg.lane n) f :=
  Dev.laneAligned_fld h depth off _ (raddr_ne h1) (raddr_ne h2)

theorem Dev.laneAligned_laneOf : (d.laneAligned n depth off).laneOf n = (d.alignedLane n depth off).laneOf n := by
  rw [Dev.laneAligned_codeLock h, Dev.laneOf_of_lineView (Dev.lineView_readyCheck _), Dev.laneOf_of_rest (Dev.rest_pendBits _ _ _)]

theorem Dev.laneAligned_mem : (d.laneAligned n depth off).mem = d.mem := by
  rw [Dev.laneAligned_codeLock h, Dev.readyCheck_mem, Dev.mem_of_rest (Dev.rest_pendBits _ _ _), Dev.alignedLane_mem]

theorem Dev.laneAligned_pends {k : Nat} (hk : bit (alignBits (d.laneOf n).relock &&& 0x1F) k = true) :
    bit ((d.laneAligned n depth off).reg (Pg.lane n) 0x010).toNat k = true := by
  rw [Dev.reg_congr (Dev.laneAligned_regs h depth off), Dev.bit_pendBits_lane, hk, Bool.or_true]
end

theorem laneAligned_shows {s : State} {n : Fin 64} (hr : s.dev.rst = .running) (h : s.dev.laneState n = Ln.codeLock) (depth : Fin 128)
    (off : BitVec 32) :
    ∃ t, exec (.laneAligned n depth off) s = .next t ∧ t.dev.laneState n = Ln.aligned
      ∧ t.dev.fld (Pg.lane n) F.LANE_STAT_EB_DEPTH = depth.val
      ∧ t.dev.fld (Pg.lpc (laneHalf n)) (F.LPC_OFF_OFF (n.val % 32))
          = (off.toNat * 256 + s.dev.laneTau n / 2) / s.dev.laneTau n % 2 ^ 16
      ∧ t.dev.fld (Pg.lane n) F.LANE_ALIGN_US = s.dev.attemptUs n
      ∧ (t.dev.laneOf n).ended = true ∧ (t.dev.laneOf n).openRec = none
      ∧ bit (t.dev.reg (Pg.lane n) 0x010).toNat 0 = true
      ∧ ((s.dev.laneOf n).relock = true → bit (t.dev.reg (Pg.lane n) 0x010).toNat 4 = true) ∧ t.dev.mem = s.dev.mem := by
  have hf : s.dev.fresh.laneState n = Ln.codeLock := h
  refine ⟨_, exec_laneAligned n depth off hr, ?_, ?_, ?_, ?_, ?_, ?_, ?_, fun hre => ?_, ?_⟩
  · rw [Dev.laneState_settle, Dev.laneState, Dev.laneAligned_laneFld hf _ _ (by decide) (by decide)]
    exact Dev.showAligned_laneState _ _ _ _
  · rw [Dev.fld_settle_lane _ _ (by decide), Dev.laneAligned_laneFld hf _ _ (by decide) (by decide), Dev.showAligned_depth]
  · have ho : (F.LPC_OFF_OFF (n.val % 32)).off < 4096 := by simp only [F.LPC_OFF_OFF]; omega
    have hn : (F.LPC_OFF_OFF (n.val % 32)).off ≠ 0x00C := by simp only [F.LPC_OFF_OFF]; omega
    rw [Dev.fld_settle _ _ _ (pairStat_ne_raddr _ ho hn),
      Dev.laneAligned_fld hf _ _ _ (raddr_off_ne n (by decide)).symm (raddr_off_ne n (by decide)).symm, Dev.showAligned_off]
    rfl
  · rw [Dev.fld_settle_lane _ _ (by decide), Dev.laneAligned_laneFld hf _ _ (by decide) (by decide), Dev.showAligned_us]
    rfl
  · rw [Dev.laneOf_settle, Dev.laneAligned_laneOf hf, Dev.alignedLane_laneOf]
  · rw [Dev.laneOf_settle, Dev.laneAligned_laneOf hf, Dev.alignedLane_laneOf]
  · rw [Dev.reg_settle_lane _ _ (by decide)]
    exact Dev.laneAligned_pends hf _ _ (by cases (s.dev.fresh.laneOf n).relock <;> decide)
  · rw [Dev.reg_settle_lane _ _ (by decide)]
    have hre' : (s.dev.fresh.laneOf n).relock = true := hre
    exact Dev.laneAligned_pends hf _ _ (by rw [hre']; decide)
  · rw [Dev.mem_of_rest (Dev.rest_settle _), Dev.laneAligned_mem hf]
    rfl

/-! The attempt's time-out (R51). -/

theorem Dev.alignTimeout_trying {d : Dev} {n : Fin 64} (h : d.laneState n ∈ [Ln.acquire, Ln.codeLock, Ln.lost]) : d.alignTimeout n
    = (((d.setLaneState n Ln.failed).setLane n { (d.setLaneState n Ln.failed).laneOf n with ended := true }).pend (Pg.lane n) 1).readyCheck :=
  if_pos (List.contains_iff_mem.mpr h)

theorem alignTimeout_fails {s : State} {n : Fin 64} (hr : s.dev.rst = .running)
    (h : s.dev.laneState n ∈ [Ln.acquire, Ln.codeLock, Ln.lost]) :
    ∃ t, exec (.alignTimeout n) s = .next t ∧ t.dev.laneState n = Ln.failed ∧ (t.dev.laneOf n).ended = true
      ∧ bit (t.dev.reg (Pg.lane n) 0x010).toNat 1 = true ∧ t.dev.mem = s.dev.mem := by
  refine ⟨_, exec_alignTimeout n hr, ?_, ?_, ?_, ?_⟩ <;> rw [Dev.alignTimeout_trying (d := s.dev.begin (.alignTimeout n)) h]
  · rw [Dev.laneState_settle, Dev.laneState, Dev.fld_of_regs (Dev.regs_of_lineView (Dev.lineView_readyCheck _)),
      Dev.pend, Dev.fld_pend_off _ _ _ _ (by decide) (by decide)]
    exact (s.dev.begin (.alignTimeout n)).laneState_setLaneState n (by decide)
  · rw [Dev.laneOf_settle, Dev.laneOf_of_lineView (Dev.lineView_readyCheck _), Dev.laneOf_of_rest (Dev.rest_pend _ _ _), Dev.laneOf_setLane]
  · rw [Dev.reg_settle_lane _ _ (by decide), Dev.reg_congr (Dev.regs_of_lineView (Dev.lineView_readyCheck _))]
    exact Dev.bit_pend_lane _ n 1
  · rw [Dev.mem_of_rest (Dev.rest_settle _), Dev.readyCheck_mem, Dev.mem_of_rest (Dev.rest_pend _ _ _)]
    rfl

/-! Slips (R54). -/

section
variable {d : Dev} {n : Fin 64} {words : Nat}

theorem Dev.wanderSlip_beyond (h : d.laneState n = Ln.aligned) (hd : d.fld (Pg.lane n) F.LANE_CFG_DET = 1)
    (hw : max 1 (d.fld (Pg.lane n) F.LANE_ALIGN_MARGIN) < words) :
    d.wanderSlip n words = ((d.bump (Pg.lane n) F.LANE_SLIP_CNT).pend (Pg.lane n) 3).laneLoss n :=
  if_pos ⟨h, decide_eq_true hd, hw⟩

theorem Dev.wanderSlip_within (hw : words ≤ max 1 (d.fld (Pg.lane n) F.LANE_ALIGN_MARGIN)) : d.wanderSlip n words = d :=
  if_neg (fun c => Nat.not_lt.mpr hw c.2.2)
end

/-- What a loss of alignment leaves of the lane. -/
structure Dev.lost (d : Dev) (n : Fin 64) (e : Dev) : Prop where
  state : e.laneState n = Ln.lost
  begun : (e.laneOf n).startCk = d.ck
  counted : e.fld (Pg.lane n) F.LANE_LOCK_LOSS_CNT = min (d.fld (Pg.lane n) F.LANE_LOCK_LOSS_CNT + 1) 0xFFFFFFFF
  pends : bit (e.reg (Pg.lane n) 0x010).toNat 2 = true
  keepsPend : ∀ k, bit (d.reg (Pg.lane n) 0x010).toNat k = true → bit (e.reg (Pg.lane n) 0x010).toNat k = true
  keeps : ∀ f : Fld, 0x044 < f.off → f.off < 4096 → f.off ≠ 0x124 → e.fld (Pg.lane n) f = d.fld (Pg.lane n) f

section
variable (d : Dev) (n : Fin 64) (last lp : LP) (flags : Nat) (payload : List Byte)

theorem Dev.lossCounted_ck : (d.lossCounted n last lp flags payload).ck = d.ck := by
  unfold Dev.lossCounted
  rw [Dev.ck_of_rest (Dev.rest_pend _ _ _), Dev.ck_of_ctl (congrArg ModeView.ctl (Dev.modeView_lineEvent _ _ _ _ _ _)),
    Dev.ck_of_rest (Dev.rest_bump _ _ _), Dev.ck_of_ctl (congrArg ModeView.ctl (Dev.modeView_closeRecord _ _ _ _))]

theorem Dev.lossCounted_cnt : (d.lossCounted n last lp flags payload).fld (Pg.lane n) F.LANE_LOCK_LOSS_CNT
    = min (d.fld (Pg.lane n) F.LANE_LOCK_LOSS_CNT + 1) 0xFFFFFFFF := by
  unfold Dev.lossCounted
  rw [Dev.pend, Dev.fld_pend_off _ _ _ _ (by decide) (by decide), Dev.fld_of_laneView (Dev.laneView_lineEvent _ _ _ _ _ _ _) (by decide),
    Dev.fld_bump _ _ _ (by decide), Dev.fld_of_laneView (d.laneView_closeRecord n n last 2) (by decide)]
  rfl

theorem Dev.lossCounted_fld {f : Fld} (h : 0x044 < f.off) (hlt : f.off < 4096) (hc : f.off ≠ 0x124) :
    (d.lossCounted n last lp flags payload).fld (Pg.lane n) f = d.fld (Pg.lane n) f := by
  unfold Dev.lossCounted
  rw [Dev.pend, Dev.fld_pend_off _ _ _ _ (by omega) (by omega), Dev.fld_of_laneView (Dev.laneView_lineEvent _ _ _ _ _ _ _) hlt,
    Dev.bump, Dev.bumpBy, Dev.fld_noteCount, Dev.fld_setFld_ne _ _ _ _ (raddr_ne hc.symm),
    Dev.fld_of_laneView (d.laneView_closeRecord n n last 2) hlt]

/-- Of INT_PEND a loss sets bit 2 alone. -/
theorem Dev.lossCounted_bit (k : Nat) : bit ((d.lossCounted n last lp flags payload).reg (Pg.lane n) 0x010).toNat k
    = (bit (d.reg (Pg.lane n) 0x010).toNat k || bit (2 ^ 2 &&& 0x1F) k) := by
  unfold Dev.lossCounted
  rw [Dev.pend, Dev.bit_pendBits_lane, Dev.reg_of_laneView (Dev.laneView_lineEvent _ _ _ _ _ _ _) (by decide),
    Dev.reg_bump_ne _ _ (raddr_ne (by decide)), Dev.reg_of_laneView (d.laneView_closeRecord n n last 2) (by decide)]
end

theorem Dev.laneLoss_lost {d : Dev} {n : Fin 64} (h : d.laneState n = Ln.aligned) : d.lost n (d.laneLoss n) := by
  obtain ⟨last, lp, flags, payload, hv⟩ := Dev.laneLoss_view h
  have hreg : ∀ {off : Nat}, off ≠ 0x00C → off < 4096 →
      (d.laneLoss n).reg (Pg.lane n) off = (d.lossCounted n last lp flags payload).reg (Pg.lane n) off := fun ho hlt =>
    (Dev.reg_of_laneView hv hlt).trans (Dev.startAttempt_reg _ n true ho)
  have hfld : ∀ {f : Fld}, f.off ≠ 0x00C → f.off < 4096 →
      (d.laneLoss n).fld (Pg.lane n) f = (d.lossCounted n last lp flags payload).fld (Pg.lane n) f := fun ho hlt =>
    congrArg (fun w : Word => bitsOf w.toNat _ _) (hreg ho hlt)
  refine ⟨?_, ?_, ?_, ?_, fun k hk => ?_, fun f hf hlt hc => ?_⟩
  · exact (Dev.fld_of_laneView hv (by decide)).trans (Dev.startAttempt_laneState _ n true)
  · rw [Dev.startCk_of_laneView hv, Dev.startAttempt_laneOf, Dev.lossCounted_ck]
  · rw [hfld (by decide) (by decide), Dev.lossCounted_cnt]
  · rw [hreg (by decide) (by decide), Dev.lossCounted_bit]
    exact Bool.or_eq_true_iff.mpr (Or.inr (by decide))
  · rw [hreg (by decide) (by decide), Dev.lossCounted_bit, hk, Bool.true_or]
  · rw [hfld (by omega) hlt, Dev.lossCounted_fld d n last lp flags payload hf hlt hc]

theorem wanderSlip_loses {s : State} {n : Fin 64} {words : Nat} (hr : s.dev.rst = .running) (h : s.dev.laneState n = Ln.aligned)
    (hd : s.dev.fld (Pg.lane n) F.LANE_CFG_DET = 1) (hw : max 1 (s.dev.fld (Pg.lane n) F.LANE_ALIGN_MARGIN) < words) :
    exec (.wanderSlip n words) s = s.becomes (((s.dev.fresh.bump (Pg.lane n) F.LANE_SLIP_CNT).pend (Pg.lane n) 3).laneLoss n)
    ∧ ∃ t, exec (.wanderSlip n words) s = .next t ∧ t.dev.laneState n = Ln.lost ∧ (t.dev.laneOf n).startCk = s.dev.ck
      ∧ t.dev.fld (Pg.lane n) F.LANE_SLIP_CNT = min (s.dev.fld (Pg.lane n) F.LANE_SLIP_CNT + 1) 0xFFFFFFFF
      ∧ t.dev.fld (Pg.lane n) F.LANE_LOCK_LOSS_CNT = min (s.dev.fld (Pg.lane n) F.LANE_LOCK_LOSS_CNT + 1) 0xFFFFFFFF
      ∧ bit (t.dev.reg (Pg.lane n) 0x010).toNat 2 = true ∧ bit (t.dev.reg (Pg.lane n) 0x010).toNat 3 = true := by
  have he : exec (.wanderSlip n words) s
      = s.becomes (((s.dev.fresh.bump (Pg.lane n) F.LANE_SLIP_CNT).pend (Pg.lane n) 3).laneLoss n) := by
    rw [exec_wanderSlip n words hr, Dev.wanderSlip_beyond (d := s.dev.fresh) h hd hw]
  have hfld : ∀ f : Fld, f.off ≠ 0x010 → f.off ≠ 0x040 → f.off ≠ 0x128 →
      ((s.dev.fresh.bump (Pg.lane n) F.LANE_SLIP_CNT).pend (Pg.lane n) 3).fld (Pg.lane n) f = s.dev.fld (Pg.lane n) f := by
    intro f h1 h2 h3
    rw [Dev.pend, Dev.fld_pend_off _ _ _ _ h1 h2, Dev.bump, Dev.bumpBy, Dev.fld_noteCount, Dev.fld_setFld_ne _ _ _ _ (raddr_ne h3.symm),
      Dev.fld_fresh]
  have hslip : ((s.dev.fresh.bump (Pg.lane n) F.LANE_SLIP_CNT).pend (Pg.lane n) 3).fld (Pg.lane n) F.LANE_SLIP_CNT
      = min (s.dev.fld (Pg.lane n) F.LANE_SLIP_CNT + 1) 0xFFFFFFFF := by
    rw [Dev.pend, Dev.fld_pend_off _ _ _ _ (by decide) (by decide), Dev.fld_bump _ _ _ (by decide)]
    rfl
  have hck : ((s.dev.fresh.bump (Pg.lane n) F.LANE_SLIP_CNT).pend (Pg.lane n) 3).ck = s.dev.ck := by
    rw [Dev.ck_of_rest (Dev.rest_pend _ _ _), Dev.ck_of_rest (Dev.rest_bump _ _ _)]
    rfl
  have hst : ((s.dev.fresh.bump (Pg.lane n) F.LANE_SLIP_CNT).pend (Pg.lane n) 3).laneState n = Ln.aligned :=
    (hfld _ (by decide) (by decide) (by decide)).trans h
  have hbit := (s.dev.fresh.bump (Pg.lane n) F.LANE_SLIP_CNT).bit_pend_lane n 3
  have hl := Dev.laneLoss_lost hst
  refine ⟨he, _, he, ?_, ?_, ?_, ?_, ?_, ?_⟩
  · rw [Dev.laneState_settle, hl.state]
  · rw [Dev.laneOf_settle, hl.begun, hck]
  · rw [Dev.fld_settle_lane _ _ (by decide), hl.keeps _ (by decide) (by decide) (by decide), hslip]
  · rw [Dev.fld_settle_lane _ _ (by decide), hl.counted, hfld _ (by decide) (by decide) (by decide)]
  · rw [Dev.reg_settle_lane _ _ (by decide)]
    exact hl.pends
  · rw [Dev.reg_settle_lane _ _ (by decide)]
    exact hl.keepsPend 3 hbit

theorem wanderSlip_nothing {s : State} {n : Fin 64} {words : Nat} (hr : s.dev.rst = .running)
    (hw : words ≤ max 1 (s.dev.fld (Pg.lane n) F.LANE_ALIGN_MARGIN)) : exec (.wanderSlip n words) s = s.becomes s.dev.fresh := by
  rw [exec_wanderSlip n words hr, Dev.wanderSlip_within (d := s.dev.fresh) hw]

/-! Loss of signal (R56). -/

/-- The signal's status after a loss: CDR lock is gone, and the signal too where the PHY reports that. -/
def Dev.signalGone (d : Dev) (n : Fin 64) (sig : Bool) : Dev :=
  let d := d.setFld (Pg.lane n) F.LANE_STAT_CDR 0
  if sig then d.setFld (Pg.lane n) F.LANE_STAT_SIG 0 else d

theorem Dev.signalGone_rest (d : Dev) (n : Fin 64) (sig : Bool) : (d.signalGone n sig).rest = d.rest := by
  unfold Dev.signalGone
  dsimp only
  split
  · rw [Dev.rest_setFld, Dev.rest_setFld]
  · rw [Dev.rest_setFld]

theorem Dev.signalGone_laneState (d : Dev) (n : Fin 64) (sig : Bool) : (d.signalGone n sig).laneState n = d.laneState n := by
  unfold Dev.signalGone
  dsimp only
  split
  · rw [Dev.laneState_setStat _ _ _ rfl (by decide) (by decide), Dev.laneState_setStat _ _ _ rfl (by decide) (by decide)]
  · rw [Dev.laneState_setStat _ _ _ rfl (by decide) (by decide)]

theorem Dev.signalGone_cdr (d : Dev) (n : Fin 64) (sig : Bool) : (d.signalGone n sig).fld (Pg.lane n) F.LANE_STAT_CDR = 0 := by
  unfold Dev.signalGone
  dsimp only
  split
  · rw [Dev.fld_setFld_disj _ _ F.LANE_STAT_SIG F.LANE_STAT_CDR _ rfl (by decide) (by decide), Dev.fld_setFld _ _ _ _ (by decide)]
    rfl
  · rw [Dev.fld_setFld _ _ _ _ (by decide)]
    rfl

theorem Dev.signalGone_sig (d : Dev) (n : Fin 64) : (d.signalGone n true).fld (Pg.lane n) F.LANE_STAT_SIG = 0 :=
  Dev.fld_setFld _ _ _ _ (by decide)

theorem Dev.lossOfSignal_codeLock {d : Dev} {n : Fin 64} (h : d.laneState n = Ln.codeLock) (sig : Bool) :
    d.lossOfSignal n sig = (d.setLaneState n (attemptState (d.laneOf n).relock)).signalGone n sig := by
  have ha : d.laneState n ≠ Ln.aligned := by rw [h]; decide
  unfold Dev.lossOfSignal
  rw [if_neg ha, if_pos h]
  rfl

theorem Dev.lossOfSignal_aligned {d : Dev} {n : Fin 64} (h : d.laneState n = Ln.aligned) (sig : Bool) :
    d.lossOfSignal n sig = (d.laneLoss n).signalGone n sig := by
  unfold Dev.lossOfSignal
  rw [if_pos h]
  rfl

theorem lossOfSignal_reacquires {s : State} {n : Fin 64} (hr : s.dev.rst = .running) (h : s.dev.laneState n = Ln.codeLock) (sig : Bool) :
    ∃ t, exec (.lossOfSignal n sig) s = .next t
      ∧ t.dev.laneState n = (if (s.dev.laneOf n).relock then Ln.lost else Ln.acquire) ∧ t.dev.fld (Pg.lane n) F.LANE_STAT_CDR = 0
      ∧ (sig = true → t.dev.fld (Pg.lane n) F.LANE_STAT_SIG = 0) ∧ t.dev.rest = s.dev.rest := by
  refine ⟨_, exec_lossOfSignal n sig hr, ?_, ?_, ?_, ?_⟩ <;> rw [Dev.lossOfSignal_codeLock (d := s.dev.fresh) h]
  · rw [Dev.laneState_settle, Dev.signalGone_laneState, Dev.laneState_setLaneState _ _ (attemptState_lt _)]
    rfl
  · rw [Dev.fld_settle_lane _ _ (by decide), Dev.signalGone_cdr]
  · rintro rfl
    rw [Dev.fld_settle_lane _ _ (by decide), Dev.signalGone_sig]
  · rw [Dev.rest_settle, Dev.signalGone_rest, Dev.setLaneState, Dev.rest_setFld, Dev.rest_fresh]

/-- Settles O33: each event of the receiver is a lemma about the one command it speaks of. -/
theorem laneReceiverEvents : Obligations.LaneReceiverEvents := by
  unfold Obligations.LaneReceiverEvents
  refine fun n s hr => ⟨fun h => ⟨?_, ?_⟩, ?_, ?_, ?_, ?_, ?_, ?_⟩
  · exact cdrLock_shows hr h
  · exact codeLock_shows hr h
  · exact laneAligned_shows hr
  · exact alignTimeout_fails hr
  · exact fun h words => wanderSlip_loses hr h
  · exact fun words => wanderSlip_nothing hr
  · exact lossOfSignal_reacquires hr
  · intro h sig
    rw [exec_lossOfSignal n sig hr, Dev.lossOfSignal_aligned (d := s.dev.fresh) h]
    rfl

end Sys2Proof.Machine
end

section
/-! PROOFS. Software writes of a lane's page: HOLD, CFG and ALIGN (R46, R51, R52, R59, R64, O34). -/

namespace Sys2Proof.Machine

/-! The rows as writes of a lane's page. -/

theorem Dev.softWrite_lane (d : Dev) (n : Fin 64) {off : Nat} {r : RegDesc} (val : Word) (ho : off < 4096) (hh : 0x100 ≤ off)
    (hd : regDesc .lane off = some r) : d.softWrite (raddr (Pg.lane n) off) val = d.writeLane n off val := by
  have hn : Fin.ofNat 64 n.val = n := Fin.ext (Nat.mod_eq_of_lt n.isLt)
  rw [d.softWrite_block val n.isLt ho hh hd, Dev.blockWrite, hn]

section
variable {s : State} (n : Fin 64) (val : Word) (hr : s.dev.rst = .running) (hu : s.dev.unpaired)
include hr hu

theorem cmd_laneWrite {off : Nat} {r : RegDesc} (ho : off < 4096) (hh : 0x100 ≤ off) (hd : regDesc .lane off = some r) :
    s.cmd (fun d => d.busWrite (raddr (Pg.lane n) off) val) = s.becomes (s.dev.fresh.writeLane n off val) := by
  rw [s.cmd_running _ hr, Dev.busWrite, Dev.swGate_unpaired s.dev.fresh _ _ _ hu, Dev.softWrite_lane _ n val ho hh hd]

theorem exec_holdWrite : exec (.holdWrite n val) s = s.becomes (s.dev.fresh.holdWrite n val) :=
  cmd_laneWrite n val hr hu (off := 0x104) (by decide) (by decide) rfl
theorem exec_laneCfgWrite : exec (.laneCfgWrite n val) s = s.becomes (s.dev.fresh.laneEnWrite n val) :=
  cmd_laneWrite n val hr hu (off := 0x100) (by decide) (by decide) rfl
theorem exec_alignRetry : exec (.alignRetry n val) s = s.becomes (s.dev.fresh.alignRetry n val) :=
  cmd_laneWrite n val hr hu (off := 0x108) (by decide) (by decide) rfl
end

/-! HOLD (R59). -/

theorem bitsOf_of_lt {x wd : Nat} (h : x < 2 ^ wd) : bitsOf x 0 wd = x := by
  rw [bitsOf, pow_zero, Nat.div_one, Nat.mod_eq_of_lt h]

/-- The cases a write of HOLD is refused for: its range, and a lane that passes. -/
def Dev.holdCases (d : Dev) (n : Nat) (v : Nat) : List (Nat × Nat) :=
  (if v > 64 then [(2, 0x0303)] else []) ++ (if d.passActive n then [(3, 0x0304)] else [])

theorem Dev.holdWrite_eq (d : Dev) (n : Fin 64) {val : Word} (hv : val.toNat < 128) : d.holdWrite n val
    = if d.holdCases n val.toNat ≠ [] then d.errs (Pg.lane n) (d.holdCases n val.toNat) else d.setFld (Pg.lane n) F.LANE_HOLD_HOLD val.toNat := by
  have hb : bitsOf val.toNat 0 7 = val.toNat := bitsOf_of_lt hv
  have hz : ¬ val.toNat / 2 ^ 7 ≠ 0 := fun h => h (Nat.div_eq_of_lt hv)
  unfold Dev.holdWrite
  dsimp only
  rw [hb, if_neg hz]
  rfl

/-- The step of an error that met several cases, at one counter. -/
def Dev.errStep (pg : Nat) (cases : List (Nat × Nat)) (d : Dev) (i : Nat) : Dev :=
  match (cases.filter (fun c => decide (c.1 = i))).map Prod.snd with
  | [] => d
  | c :: cs => d.err pg i (cs.foldl min c)

theorem Dev.errs_eq (d : Dev) (pg : Nat) (cases : List (Nat × Nat)) : d.errs pg cases = (List.range 8).foldl (Dev.errStep pg cases) d := rfl

/-- A counter that a case names advances; at any other nothing happens. -/
theorem Dev.errStep_cases (d : Dev) (pg : Nat) (cases : List (Nat × Nat)) (i : Nat) :
    (i ∉ cases.map Prod.fst ∧ d.errStep pg cases i = d) ∨ (i ∈ cases.map Prod.fst ∧ ∃ code, d.errStep pg cases i = d.err pg i code) := by
  unfold Dev.errStep
  split
  next hnil =>
    refine Or.inl ⟨fun hi => ?_, rfl⟩
    obtain ⟨c, hc, rfl⟩ := List.mem_map.mp hi
    have hf : c ∈ cases.filter (fun x => decide (x.1 = c.1)) := List.mem_filter.mpr ⟨hc, decide_eq_true rfl⟩
    rw [List.map_eq_nil_iff.mp hnil] at hf
    exact List.not_mem_nil hf
  next c cs hcons =>
    refine Or.inr ⟨?_, _, rfl⟩
    have hmem : c ∈ (cases.filter (fun x => decide (x.1 = i))).map Prod.snd := hcons ▸ List.mem_cons_self
    obtain ⟨x, hx, -⟩ := List.mem_map.mp hmem
    obtain ⟨hc, hi⟩ := List.mem_filter.mp hx
    exact List.mem_map.mpr ⟨x, hc, of_decide_eq_true hi⟩

/-- An error changes of its page the header alone. -/
theorem Dev.reg_err_block (d : Dev) (pg idx code : Nat) {off : Nat} (hi : idx < 8) (h : 0x040 ≤ off) :
    (d.err pg idx code).reg pg off = d.reg pg off :=
  d.reg_err_ne _ _ _ (raddr_ne (by omega)) (raddr_ne (by omega))

theorem Dev.reg_errStep_block (d : Dev) (pg : Nat) (cases : List (Nat × Nat)) {i off : Nat} (hi : i < 8) (h : 0x040 ≤ off) :
    (d.errStep pg cases i).reg pg off = d.reg pg off := by
  obtain ⟨-, he⟩ | ⟨-, code, he⟩ := d.errStep_cases pg cases i <;> rw [he]
  exact d.reg_err_block pg i code hi h

theorem Dev.fld_errStep_ne (d : Dev) (pg : Nat) (cases : List (Nat × Nat)) {i j : Nat} (h : i ≠ j) :
    (d.errStep pg cases i).fld pg (F.ERRCNT j) = d.fld pg (F.ERRCNT j) := by
  obtain ⟨-, he⟩ | ⟨-, code, he⟩ := d.errStep_cases pg cases i <;> rw [he]
  exact d.fld_err_ne pg i code j h

theorem Dev.fld_errStep {cases : List (Nat × Nat)} (d : Dev) (pg : Nat) {i : Nat} (h : i ∈ cases.map Prod.fst) :
    (d.errStep pg cases i).fld pg (F.ERRCNT i) = min (d.fld pg (F.ERRCNT i) + 1) 0xFFFFFFFF := by
  obtain ⟨hi, -⟩ | ⟨-, code, he⟩ := d.errStep_cases pg cases i
  · exact absurd h hi
  · rw [he]
    exact d.fld_err pg i code

theorem Dev.reg_errs_block (d : Dev) (pg : Nat) (cases : List (Nat × Nat)) {off : Nat} (h : 0x040 ≤ off) :
    (d.errs pg cases).reg pg off = d.reg pg off := by
  have hfold : ∀ (l : List Nat) (d : Dev), (∀ i ∈ l, i < 8) → (l.foldl (Dev.errStep pg cases) d).reg pg off = d.reg pg off := by
    intro l
    induction l with
    | nil => exact fun _ _ => rfl
    | cons i l ih =>
      intro d hl
      rw [List.foldl_cons, ih _ (fun k hk => hl k (List.mem_cons_of_mem _ hk)), d.reg_errStep_block pg cases (hl i List.mem_cons_self) h]
  exact hfold _ d (fun _ hi => List.mem_range.mp hi)

/-- Of the steps of several counters, that of counter `j` alone moves it. -/
theorem Dev.fld_foldl_errStep_ne (pg : Nat) (cases : List (Nat × Nat)) {j : Nat} (l : List Nat) (d : Dev) (h : j ∉ l) :
    (l.foldl (Dev.errStep pg cases) d).fld pg (F.ERRCNT j) = d.fld pg (F.ERRCNT j) := by
  induction l generalizing d with
  | nil => rfl
  | cons i l ih =>
    obtain ⟨hji, hjl⟩ := not_or.mp (fun hm => h (List.mem_cons.mpr hm))
    rw [List.foldl_cons, ih _ hjl, d.fld_errStep_ne pg cases (Ne.symm hji)]

/-- Each counter that a case names advances by one (R28). -/
theorem Dev.fld_errs {cases : List (Nat × Nat)} (d : Dev) (pg : Nat) {j : Nat} (hj : j < 8) (h : j ∈ cases.map Prod.fst) :
    (d.errs pg cases).fld pg (F.ERRCNT j) = min (d.fld pg (F.ERRCNT j) + 1) 0xFFFFFFFF := by
  obtain ⟨l, r, hs⟩ := List.append_of_mem (List.mem_range.mpr hj)
  have hnd : (l ++ j :: r).Nodup := hs ▸ List.nodup_range
  obtain ⟨-, hr, hd⟩ := List.nodup_append.mp hnd
  have hjl : j ∉ l := fun hm => hd j hm j List.mem_cons_self rfl
  rw [Dev.errs_eq, hs, List.foldl_append, List.foldl_cons, Dev.fld_foldl_errStep_ne pg cases r _ (List.nodup_cons.mp hr).1,
    Dev.fld_errStep _ pg h, Dev.fld_foldl_errStep_ne pg cases l d hjl]

section
variable {d : Dev} {n : Fin 64} {val : Word}

theorem Dev.range_mem_holdCases (h : 64 < val.toNat) : 2 ∈ (d.holdCases n val.toNat).map Prod.fst := by
  unfold Dev.holdCases
  rw [if_pos h]
  exact List.mem_cons_self

theorem Dev.passing_mem_holdCases (hp : d.passActive n = true) : 3 ∈ (d.holdCases n val.toNat).map Prod.fst := by
  unfold Dev.holdCases
  rw [if_pos hp, List.map_append]
  exact List.mem_append_right _ List.mem_cons_self

theorem Dev.holdWrite_accepted (hv : val.toNat ≤ 64) (hp : d.passActive n = false) :
    d.holdWrite n val = d.setFld (Pg.lane n) F.LANE_HOLD_HOLD val.toNat := by
  have hc : d.holdCases n val.toNat = [] := by
    unfold Dev.holdCases
    rw [if_neg (by omega), hp]
    rfl
  rw [Dev.holdWrite_eq d n (by omega), hc]
  rfl

theorem Dev.holdWrite_refused {j : Nat} (hv : val.toNat < 128) (hj : j ∈ (d.holdCases n val.toNat).map Prod.fst) :
    d.holdWrite n val = d.errs (Pg.lane n) (d.holdCases n val.toNat) := by
  refine (Dev.holdWrite_eq d n hv).trans (if_pos (fun hnil => ?_))
  rw [hnil] at hj
  exact List.not_mem_nil hj
end

section
variable {s : State} {n : Fin 64} {val : Word} (hr : s.dev.rst = .running) (hu : s.dev.unpaired)
include hr hu

theorem holdWrite_takes (hv : val.toNat ≤ 64) (hp : s.dev.passActive n = false) :
    ∃ t, exec (.holdWrite n val) s = .next t ∧ t.dev.fld (Pg.lane n) F.LANE_HOLD_HOLD = val.toNat ∧ t.dev.rest = s.dev.rest := by
  refine ⟨_, exec_holdWrite n val hr hu, ?_, ?_⟩ <;> rw [Dev.holdWrite_accepted (d := s.dev.fresh) hv hp]
  · rw [Dev.fld_settle_lane _ _ (by decide), Dev.fld_setFld _ _ _ _ (by decide)]
    exact Nat.mod_eq_of_lt (Nat.lt_of_le_of_lt hv (by decide))
  · rw [Dev.rest_settle, Dev.rest_setFld, Dev.rest_fresh]

/-- A refused write of HOLD leaves it, and each case counts under its own code. -/
theorem holdWrite_counts (hv : val.toNat < 128) (hc : 64 < val.toNat ∨ s.dev.passActive n = true) :
    ∃ t, exec (.holdWrite n val) s = .next t ∧ t.dev.reg (Pg.lane n) 0x104 = s.dev.reg (Pg.lane n) 0x104
      ∧ (s.dev.passActive n = true → t.dev.fld (Pg.lane n) (F.ERRCNT 3) = min (s.dev.fld (Pg.lane n) (F.ERRCNT 3) + 1) 0xFFFFFFFF)
      ∧ (64 < val.toNat → t.dev.fld (Pg.lane n) (F.ERRCNT 2) = min (s.dev.fld (Pg.lane n) (F.ERRCNT 2) + 1) 0xFFFFFFFF) := by
  have he : s.dev.fresh.holdWrite n val = s.dev.fresh.errs (Pg.lane n) (s.dev.fresh.holdCases n val.toNat) := by
    obtain hlo | hp := hc
    · exact Dev.holdWrite_refused hv (Dev.range_mem_holdCases hlo)
    · exact Dev.holdWrite_refused hv (Dev.passing_mem_holdCases (d := s.dev.fresh) hp)
  refine ⟨_, exec_holdWrite n val hr hu, ?_, fun hp => ?_, fun hlo => ?_⟩ <;> rw [he]
  · rw [Dev.reg_settle_lane _ _ (by decide), Dev.reg_errs_block _ _ _ (by decide), Dev.reg_fresh]
  · rw [Dev.fld_settle_errcnt _ _ (by decide), Dev.fld_errs _ _ (by decide) (Dev.passing_mem_holdCases (d := s.dev.fresh) hp), Dev.fld_fresh]
  · rw [Dev.fld_settle_errcnt _ _ (by decide), Dev.fld_errs _ _ (by decide) (Dev.range_mem_holdCases hlo), Dev.fld_fresh]
end

/-! CFG (R46, R51, R64). -/

theorem Dev.laneEn_eq_bit (d : Dev) (n : Nat) : d.laneEn n = bit (d.reg (Pg.lane n) 0x100).toNat 16 :=
  (Nat.testBit_eq_decide_div_mod_eq).symm

/-- The fields an enabled lane holds: RATE, CODE, DET, GRAY, PRECODE, TX_CLK, PASS_SRC, USER_PCS (R64). -/
def heldMask : Nat := 0x0BE7F

/-- What CFG takes of a write: an enabled lane keeps the held fields. -/
def cfgWord (cur v : Nat) : Nat := (v &&& (0x1FFFF - heldMask)) ||| (cur &&& heldMask)

theorem and_cfg_of_lt {v : Nat} (h : v < 2 ^ 17) : v &&& 0x1FFFF = v := by
  rw [show (0x1FFFF : Nat) = 2 ^ 17 - 1 from rfl, Nat.and_two_pow_sub_one_eq_mod, Nat.mod_eq_of_lt h]

theorem cfgWord_lt (cur v : Nat) : cfgWord cur v < 2 ^ 17 :=
  Nat.or_lt_two_pow (Nat.lt_of_le_of_lt Nat.and_le_right (by decide)) (Nat.lt_of_le_of_lt Nat.and_le_right (by decide))

theorem cfgWord_held (cur v : Nat) : cfgWord cur v &&& heldMask = cur &&& heldMask := by
  have hd : (0x1FFFF - heldMask) &&& heldMask = 0 := by decide
  rw [cfgWord, Nat.and_or_distrib_right, Nat.and_assoc, hd, Nat.and_zero, Nat.zero_or, Nat.and_assoc, Nat.and_self]

/-- Numbers that agree under a mask. -/
theorem and_eq_of_xor_and_eq_zero {x y m : Nat} (h : (x ^^^ y) &&& m = 0) : x &&& m = y &&& m := by
  rw [Nat.and_xor_distrib_right] at h
  exact Nat.xor_eq_zero_iff.mp h

/-- A write that changes no held field is taken whole. -/
theorem cfgWord_unchanged {cur v : Nat} (hv : v < 2 ^ 17) (h : (v ^^^ cur) &&& heldMask = 0) : cfgWord cur v = v := by
  have hor : (0x1FFFF - heldMask) ||| heldMask = 0x1FFFF := by decide
  rw [cfgWord, ← and_eq_of_xor_and_eq_zero h, ← Nat.and_or_distrib_left, hor, and_cfg_of_lt hv]

section
variable {d : Dev} {n : Fin 64} {val : Word} (hv : val.toNat < 2 ^ 17)
include hv

/-- EN goes to 1 with a rate and a code that Table 3-1 does not pair. -/
theorem Dev.laneCfgWrite_unlisted (he : bit val.toNat 16 = true) (hw : bit (d.reg (Pg.lane n) 0x100).toNat 16 = false)
    (hk : rateCodeOk (bitsOf val.toNat 0 4) (bitsOf val.toNat 4 2) = false) :
    d.laneCfgWrite n val = (d.setReg (Pg.lane n) 0x100 val).err (Pg.lane n) 0 0x0301 := by
  have hz : ¬ 131072 ≤ val.toNat := Nat.not_le.mpr hv
  unfold Dev.laneCfgWrite
  simp [he, hw, hz, and_cfg_of_lt hv, hk]

/-- A held field of an enabled lane differs. -/
theorem Dev.laneCfgWrite_locked (he : bit val.toNat 16 = true) (hw : bit (d.reg (Pg.lane n) 0x100).toNat 16 = true)
    (hx : (val.toNat ^^^ (d.reg (Pg.lane n) 0x100).toNat) &&& heldMask ≠ 0) : d.laneCfgWrite n val
      = (d.err (Pg.lane n) 1 0x0302).setReg (Pg.lane n) 0x100 (BitVec.ofNat 32 (cfgWord (d.reg (Pg.lane n) 0x100).toNat val.toNat)) := by
  have hz : ¬ 131072 ≤ val.toNat := Nat.not_le.mpr hv
  unfold heldMask at hx
  unfold Dev.laneCfgWrite
  simp [he, hw, hz, hx, cfgWord, heldMask]

/-- EN and the held fields stay as they are. -/
theorem Dev.laneCfgWrite_free (he : bit val.toNat 16 = bit (d.reg (Pg.lane n) 0x100).toNat 16)
    (hx : (val.toNat ^^^ (d.reg (Pg.lane n) 0x100).toNat) &&& heldMask = 0) : d.laneCfgWrite n val = d.setReg (Pg.lane n) 0x100 val := by
  have hz : ¬ 131072 ≤ val.toNat := Nat.not_le.mpr hv
  have hc := cfgWord_unchanged hv hx
  unfold heldMask at hx
  unfold cfgWord heldMask at hc
  unfold Dev.laneCfgWrite
  cases hw : bit (d.reg (Pg.lane n) 0x100).toNat 16 <;> rw [hw] at he
  · simp [he, hw, hz, and_cfg_of_lt hv]
  · simp [he, hw, hz, hx, hc]
end

/-! EN and the lane's quad (R434). -/

/-- A quad is opened for a lane only where EN goes to 1 while the quad is not OPEN. -/
theorem Dev.laneEnWrite_keeps {d : Dev} {n : Fin 64} {val : Word}
    (h : (d.laneCfgWrite n val).laneEn n = true → d.laneEn n = false → (d.laneCfgWrite n val).domOpen (Dom.quad (n / 4)) = true) :
    d.laneEnWrite n val = d.laneCfgWrite n val := by
  unfold Dev.laneEnWrite
  refine if_neg (fun ⟨hen, hwas, hopen, _⟩ => ?_)
  exact hopen (h hen (Bool.not_eq_true _ ▸ hwas))

/-- A lane's registers hold no domain. -/
theorem raddr_domFld_ne (n : Fin 64) (k : Fin 64) {off : Nat} (h : off < 4096) : raddr (Pg.lane n) off ≠ raddr Pg.pmc (domFld k).off := by
  have hk : (domFld k).off = 0x110 + 4 * (k.val / 16) := rfl
  have hp : Pg.pmc < 16 := by decide
  have hl : Pg.lane n = 16 + n.val := rfl
  exact fun e => absurd (raddr_inj h (by omega) e).1 (by omega)

theorem Dev.domOpen_laneErr (d : Dev) (n : Fin 64) (idx : Fin 8) (code : Nat) (k : Fin 64) :
    (d.err (Pg.lane n) idx code).domOpen k = d.domOpen k := by
  unfold Dev.domOpen Dev.domState Dev.fld
  rw [Dev.reg_err_ne _ _ _ _ (raddr_domFld_ne n k (by omega)) (raddr_domFld_ne n k (by decide))]

theorem Dev.domOpen_setLaneReg (d : Dev) (n : Fin 64) {off : Nat} (v : Word) (k : Fin 64) (h : off < 4096) :
    (d.setReg (Pg.lane n) off v).domOpen k = d.domOpen k := by
  unfold Dev.domOpen Dev.domState Dev.fld
  rw [Dev.reg_setReg_ne _ _ (raddr_domFld_ne n k h)]

/-- The quad of a lane. -/
def laneQuad (n : Fin 64) : Fin 64 := ⟨Dom.quad (n / 4), by unfold Dom.quad; omega⟩

theorem Dev.laneState_err (d : Dev) (n idx code : Nat) (hi : idx < 8) : (d.err (Pg.lane n) idx code).laneState n = d.laneState n :=
  congrArg (fun w : Word => bitsOf w.toNat 0 3) (d.reg_err_ne _ _ _ (raddr_ne (show 0x020 + 4 * idx ≠ 0x00C by omega)) (raddr_ne (by decide)))

section
variable {s : State} {n : Fin 64} {val : Word} (hr : s.dev.rst = .running) (hu : s.dev.unpaired) (hv : val.toNat < 2 ^ 17)
include hr hu hv

theorem laneCfgWrite_counts_unlisted (he : bit val.toNat 16 = true) (hw : bit (s.dev.reg (Pg.lane n) 0x100).toNat 16 = false)
    (hk : rateCodeOk (bitsOf val.toNat 0 4) (bitsOf val.toNat 4 2) = false) (ho : s.dev.domOpen (Dom.quad (n / 4)) = true) :
    ∃ t, exec (.laneCfgWrite n val) s = .next t ∧ t.dev.reg (Pg.lane n) 0x100 = val ∧ t.dev.laneState n = s.dev.laneState n
      ∧ t.dev.fld (Pg.lane n) (F.ERRCNT 0) = min (s.dev.fld (Pg.lane n) (F.ERRCNT 0) + 1) 0xFFFFFFFF := by
  have hc : s.dev.fresh.laneCfgWrite n val = (s.dev.fresh.setReg (Pg.lane n) 0x100 val).err (Pg.lane n) 0 0x0301 :=
    Dev.laneCfgWrite_unlisted hv he hw hk
  have hq : (s.dev.fresh.laneCfgWrite n val).domOpen (laneQuad n) = true := by
    rw [hc]
    exact (Dev.domOpen_laneErr _ n 0 _ _).trans ((Dev.domOpen_setLaneReg _ n _ _ (by decide)).trans ho)
  refine ⟨_, exec_laneCfgWrite n val hr hu, ?_, ?_, ?_⟩ <;> rw [Dev.laneEnWrite_keeps (fun _ _ => hq), hc]
  · rw [Dev.reg_settle_lane _ _ (by decide), Dev.reg_err_block _ _ _ _ (by decide) (by decide), Dev.reg_setReg]
  · rw [Dev.laneState_settle, Dev.laneState_err _ _ _ _ (by decide), Dev.laneState_setReg _ _ _ _ (by decide) (by decide)]
    rfl
  · rw [Dev.fld_settle_errcnt _ _ (by decide), Dev.fld_err, Dev.fld_setReg_errcnt _ _ _ (by decide) (by decide), Dev.fld_fresh]

theorem laneCfgWrite_holds (he : bit val.toNat 16 = true) (hw : bit (s.dev.reg (Pg.lane n) 0x100).toNat 16 = true)
    (hx : (val.toNat ^^^ (s.dev.reg (Pg.lane n) 0x100).toNat) &&& heldMask ≠ 0) : ∃ t, exec (.laneCfgWrite n val) s = .next t
      ∧ (t.dev.reg (Pg.lane n) 0x100).toNat &&& heldMask = (s.dev.reg (Pg.lane n) 0x100).toNat &&& heldMask
      ∧ t.dev.fld (Pg.lane n) (F.ERRCNT 1) = min (s.dev.fld (Pg.lane n) (F.ERRCNT 1) + 1) 0xFFFFFFFF := by
  have hen : s.dev.fresh.laneEn n = true := (Dev.laneEn_eq_bit _ n).trans hw
  have hq : s.dev.fresh.laneEnWrite n val = s.dev.fresh.laneCfgWrite n val :=
    Dev.laneEnWrite_keeps (fun _ hoff => absurd hen (by simp [hoff]))
  refine ⟨_, exec_laneCfgWrite n val hr hu, ?_, ?_⟩ <;> rw [hq, Dev.laneCfgWrite_locked (d := s.dev.fresh) hv he hw hx]
  · rw [Dev.reg_settle_lane _ _ (by decide), Dev.reg_setReg, BitVec.toNat_ofNat,
      Nat.mod_eq_of_lt (Nat.lt_trans (cfgWord_lt _ _) (by decide)), cfgWord_held, Dev.reg_fresh]
  · rw [Dev.fld_settle_errcnt _ _ (by decide), Dev.fld_setReg_errcnt _ _ _ (by decide) (by decide), Dev.fld_err, Dev.fld_fresh]

theorem laneCfgWrite_takes (he : bit val.toNat 16 = bit (s.dev.reg (Pg.lane n) 0x100).toNat 16)
    (hx : (val.toNat ^^^ (s.dev.reg (Pg.lane n) 0x100).toNat) &&& heldMask = 0) :
    ∃ t, exec (.laneCfgWrite n val) s = .next t ∧ t.dev.reg (Pg.lane n) 0x100 = val ∧ t.dev.rest = s.dev.rest := by
  have hc : s.dev.fresh.laneCfgWrite n val = s.dev.fresh.setReg (Pg.lane n) 0x100 val := Dev.laneCfgWrite_free hv he hx
  have hen : (s.dev.fresh.laneCfgWrite n val).laneEn n = s.dev.fresh.laneEn n := by
    rw [hc, Dev.laneEn_eq_bit, Dev.laneEn_eq_bit, Dev.reg_setReg, he, Dev.reg_fresh]
  have hq : s.dev.fresh.laneEnWrite n val = s.dev.fresh.laneCfgWrite n val :=
    Dev.laneEnWrite_keeps (fun hon hoff => absurd (hon.symm.trans (hen.trans hoff)) (by decide))
  refine ⟨_, exec_laneCfgWrite n val hr hu, ?_, ?_⟩ <;> rw [hq, hc]
  · rw [Dev.reg_settle_lane _ _ (by decide), Dev.reg_setReg]
  · rw [Dev.rest_settle, Dev.rest_setReg, Dev.rest_fresh]
end

/-! ALIGN (R51, R52). -/

/-- No reserved bit of ALIGN is set where bits 30:20 are 0. -/
theorem and_alignReserved {v : Nat} (h : v / 2 ^ 20 % 2 ^ 11 = 0) : v &&& 0x7FF00000 = 0 := by
  refine Nat.eq_of_testBit_eq (fun i => ?_)
  have hm : (0x7FF00000 : Nat) = 2 ^ 20 * (2 ^ 11 - 1) := rfl
  have hb : (v / 2 ^ 20 % 2 ^ 11).testBit (i - 20) = false := by rw [h, Nat.zero_testBit]
  rw [Nat.testBit_mod_two_pow, Nat.testBit_div_two_pow] at hb
  rw [hm, Nat.testBit_and, Nat.testBit_two_pow_mul, Nat.testBit_two_pow_sub_one, Nat.zero_testBit]
  by_cases hi : 20 ≤ i
  · rw [Nat.sub_add_cancel hi] at hb
    rw [Bool.and_comm, Bool.and_assoc, hb, Bool.and_false]
  · simp [hi]

/-- TIMEOUT takes the write's low half-word. -/
theorem timeout_mergedWord (cur v : Nat) : bitsOf (mergedWord cur v 0xFFFFF).toNat 0 16 = v % 2 ^ 16 := by
  unfold bitsOf mergedWord
  rw [BitVec.toNat_ofNat, pow_zero, Nat.div_one, Nat.mod_mod_of_dvd _ (by decide), Nat.or_mod_two_pow, Nat.and_mod_two_pow, Nat.and_mod_two_pow]
  have hk : (0xFFFFFFFF - 0xFFFFF) % 2 ^ 16 = 0 := rfl
  have ht : 0xFFFFF % 2 ^ 16 = 2 ^ 16 - 1 := rfl
  rw [hk, ht, Nat.and_zero, Nat.zero_or, Nat.and_two_pow_sub_one_eq_mod, Nat.mod_mod]

theorem Dev.plainWrite_align (d : Dev) (n : Fin 64) {val : Word} (hl : d.cfgLock = false) (hv : val.toNat / 2 ^ 20 % 2 ^ 11 = 0) :
    d.plainWrite (Pg.lane n) 0 (rowOf .lane 0x108) 0x108 val 0
      = d.setReg (Pg.lane n) 0x108 (mergedWord (d.reg (Pg.lane n) 0x108).toNat val.toNat 0xFFFFF) :=
  d.plainWrite_accepted _ _ _ _ _ hl rfl (by decide) rfl rfl (and_alignReserved hv)

/-- The rest of the attempt that a RETRY begins stands on ALIGN as written. -/
theorem Dev.alignRetry_attempt {d : Dev} {n : Fin 64} {val : Word} (hl : d.cfgLock = false) (hb : bit val.toNat 31 = true)
    (hv : val.toNat / 2 ^ 20 % 2 ^ 11 = 0) (hs : d.laneState n ∈ [Ln.acquire, Ln.codeLock, Ln.lost, Ln.failed]) : d.alignRetry n val
      = (d.setReg (Pg.lane n) 0x108 (mergedWord (d.reg (Pg.lane n) 0x108).toNat val.toNat 0xFFFFF)).startAttempt n (d.laneOf n).relock := by
  have hst : ∀ st ∈ [Ln.acquire, Ln.codeLock, Ln.lost, Ln.failed], st ≠ Ln.aligned ∧ st ≠ Ln.off := by decide
  obtain ⟨hna, hno⟩ := hst _ hs
  unfold Dev.alignRetry
  dsimp only
  rw [Dev.plainWrite_align d n hl hv, if_neg (fun h => h hb), Dev.laneState_setReg _ _ _ _ (by decide) (by decide), if_neg hna, if_pos hno]
  rfl

theorem alignRetry_restarts {s : State} {n : Fin 64} {val : Word} (hr : s.dev.rst = .running) (hu : s.dev.unpaired)
    (hl : s.dev.cfgLock = false) (hb : bit val.toNat 31 = true) (hv : val.toNat / 2 ^ 20 % 2 ^ 11 = 0)
    (hs : s.dev.laneState n ∈ [Ln.acquire, Ln.codeLock, Ln.lost, Ln.failed]) :
    ∃ t, exec (.alignRetry n val) s = .next t ∧ (t.dev.laneOf n).startCk = s.dev.ck ∧ (t.dev.laneOf n).ended = false
      ∧ t.dev.laneState n = (if (s.dev.laneOf n).relock then Ln.lost else Ln.acquire)
      ∧ t.dev.fld (Pg.lane n) F.LANE_ALIGN_TIMEOUT = val.toNat % 2 ^ 16
      ∧ (val.toNat % 2 ^ 16 ≠ 0 → (s.dev.ck + 1000 * (val.toNat % 2 ^ 16), .alignTimeout n) ∈ t.dev.agenda) := by
  have he := Dev.alignRetry_attempt (d := s.dev.fresh) hl hb hv hs
  generalize hw : mergedWord (s.dev.fresh.reg (Pg.lane n) 0x108).toNat val.toNat 0xFFFFF = w at he
  have ht : (s.dev.fresh.setReg (Pg.lane n) 0x108 w).fld (Pg.lane n) F.LANE_ALIGN_TIMEOUT = val.toNat % 2 ^ 16 := by
    have hreg : (s.dev.fresh.setReg (Pg.lane n) 0x108 w).reg (Pg.lane n) F.LANE_ALIGN_TIMEOUT.off = w := Dev.reg_setReg _ _ _ _
    rw [Dev.fld, hreg, ← hw]
    exact timeout_mergedWord _ _
  refine ⟨_, exec_alignRetry n val hr hu, ?_, ?_, ?_, ?_, fun hz => ?_⟩ <;> rw [he]
  · rw [Dev.laneOf_settle, Dev.startAttempt_laneOf]
    rfl
  · rw [Dev.laneOf_settle, Dev.startAttempt_laneOf]
  · rw [Dev.laneState_settle, Dev.startAttempt_laneState]
    rfl
  · rw [Dev.fld_settle_lane _ _ (by decide), ← ht]
    unfold Dev.fld
    rw [Dev.startAttempt_reg _ _ _ (by decide)]
  · rw [Dev.settle_agenda]
    have hm := Dev.startAttempt_timeout (s.dev.fresh.setReg (Pg.lane n) 0x108 w) n (s.dev.fresh.laneOf n).relock (by rw [ht]; exact hz)
    rw [ht] at hm
    exact hm

/-- Settles O34: HOLD by its refused cases, CFG by what it keeps of an enabled lane, RETRY by the attempt it starts. -/
theorem laneRegisterWrites : Obligations.LaneRegisterWrites := by
  intro n val s hr hu hl d pg
  refine ⟨holdWrite_takes hr hu, fun hlo hv hp => ?_, fun hp hv => ?_, fun he hw hv => laneCfgWrite_counts_unlisted hr hu hv he hw,
    fun he hw hv => laneCfgWrite_holds hr hu hv he hw, laneCfgWrite_takes hr hu, alignRetry_restarts hr hu hl⟩
  · obtain ⟨t, ht, hreg, -, hrange⟩ := holdWrite_counts (n := n) hr hu hv (Or.inl hlo)
    exact ⟨t, ht, hreg, hrange hlo⟩
  · obtain ⟨t, ht, hreg, hpass, hrange⟩ := holdWrite_counts (n := n) hr hu hv (Or.inr hp)
    exact ⟨t, ht, hreg, hpass hp, hrange⟩

end Sys2Proof.Machine
end

section
/-! PROOFS. Symbols at the sieve point: what a stamp depends on, the count, the open record and its bytes (R47, R48, R75, R129, O35). -/

namespace Sys2Proof.Machine

/-! What a stamp depends on (R66 to R75). -/

/-- Two states that give every instant at every lane the same stamp: the line position counters with their pages, and the symbols'
durations. -/
structure Dev.SameClock (d d' : Dev) : Prop where
  lpc : d'.lpc = d.lpc
  page : ∀ h off, off < 4096 → d'.reg (Pg.lpc h) off = d.reg (Pg.lpc h) off
  tau : ∀ n, d'.laneTau n = d.laneTau n

section
variable {d d' : Dev} (hs : d.SameClock d')
include hs

theorem Dev.SameClock.fld (h : Nat) (f : Fld) (hf : f.off < 4096) : d'.fld (Pg.lpc h) f = d.fld (Pg.lpc h) f := by
  unfold Dev.fld
  rw [hs.page h f.off hf]

theorem Dev.SameClock.refSrc : d'.refSrc = d.refSrc := hs.fld 0 _ (by decide)
theorem Dev.SameClock.refLane : d'.refLane = d.refLane := hs.fld 0 _ (by decide)
theorem Dev.SameClock.lpcState (h : Nat) : d'.lpcState h = d.lpcState h := hs.fld h _ (by decide)

theorem Dev.SameClock.lpcOf (h : Nat) : d'.lpcOf h = d.lpcOf h := by
  unfold Dev.lpcOf
  rw [hs.lpc]

theorem Dev.SameClock.synInc : d'.synInc = d.synInc := by
  unfold Dev.synInc
  rw [hs.fld 0 _ (by decide), hs.fld 0 _ (by decide)]

theorem Dev.SameClock.lpcRate (h : Nat) : d'.lpcRate h = d.lpcRate h := by
  unfold Dev.lpcRate
  rw [hs.fld h _ (by decide), hs.fld h _ (by decide)]

theorem Dev.SameClock.lpcFrom (h : Nat) : d'.lpcFrom h = d.lpcFrom h := by
  unfold Dev.lpcFrom Dev.anchorHalf
  rw [hs.lpcOf, hs.refSrc, hs.refLane]

theorem Dev.SameClock.posAt (h : Nat) (t : Int) : d'.posAt h t = d.posAt h t := by
  unfold Dev.posAt Dev.posOf
  simp only [hs.lpcFrom, hs.lpcState, hs.lpcOf, hs.lpcRate, hs.synInc, hs.refSrc, hs.refLane, hs.tau]

theorem Dev.SameClock.stampAt (n : Fin 64) (t : Int) : d'.stampAt n t = d.stampAt n t := by
  have hk : (F.LPC_SKEW_SKEW (n % 32)).off < 4096 := by
    unfold F.LPC_SKEW_SKEW
    dsimp only
    omega
  unfold Dev.stampAt
  simp only [hs.fld _ _ hk, hs.posAt, hs.tau]
end

/-! The count of symbols (Table 3-5, SYM). -/

theorem Dev.reg64_setReg64 (d : Dev) (pg off : Nat) {v : Nat} (h : v < 2 ^ 64) : (d.setReg64 pg off v).reg64 pg off = v := by
  have hlo : (d.setReg64 pg off v).reg pg off = BitVec.ofNat 32 v :=
    (Dev.reg_setReg_ne _ _ (raddr_ne (by omega))).trans (Dev.reg_setReg _ _ _ _)
  have hhi : (d.setReg64 pg off v).reg pg (off + 4) = BitVec.ofNat 32 (v / 2 ^ 32) := Dev.reg_setReg _ _ _ _
  rw [Dev.reg64, hlo, hhi, BitVec.toNat_ofNat, BitVec.toNat_ofNat, Nat.mod_eq_of_lt (a := v / 2 ^ 32) (Nat.div_lt_of_lt_mul h), Nat.mod_add_div]

theorem Dev.reg_setReg64_ne (d : Dev) {pg off pg' off' : Nat} (v : Nat) (h1 : raddr pg off ≠ raddr pg' off')
    (h2 : raddr pg (off + 4) ≠ raddr pg' off') : (d.setReg64 pg off v).reg pg' off' = d.reg pg' off' :=
  (Dev.reg_setReg_ne _ _ h2).trans (Dev.reg_setReg_ne _ _ h1)

theorem Dev.reg64_congr {d d' : Dev} (h : d'.regs = d.regs) (pg off : Nat) : d'.reg64 pg off = d.reg64 pg off := by
  unfold Dev.reg64
  rw [Dev.reg_congr h, Dev.reg_congr h]

theorem Dev.reg64_countSym (d : Dev) (n : Nat) : (d.countSym n).reg64 (Pg.lane n) 0x12C = (d.reg64 (Pg.lane n) 0x12C + 1) % 2 ^ 64 := by
  unfold Dev.countSym Dev.count64
  rw [Dev.reg64, Dev.reg_noteCount, Dev.reg_noteCount]
  exact d.reg64_setReg64 _ _ (Nat.mod_lt _ (by decide))

/-- The count leaves every register but its two. -/
theorem Dev.reg_countSym (d : Dev) (n : Nat) {pg off : Nat} (h1 : raddr (Pg.lane n) 0x12C ≠ raddr pg off)
    (h2 : raddr (Pg.lane n) 0x130 ≠ raddr pg off) : (d.countSym n).reg pg off = d.reg pg off := by
  unfold Dev.countSym Dev.count64
  rw [Dev.reg_noteCount, Dev.reg_setReg64_ne _ _ h1 h2]

theorem Dev.lanes_countSym (d : Dev) (n : Nat) : (d.countSym n).lanes = d.lanes := (rfl)
theorem Dev.lpc_countSym (d : Dev) (n : Nat) : (d.countSym n).lpc = d.lpc := (rfl)
theorem Dev.nextRid_countSym (d : Dev) (n : Nat) : (d.countSym n).nextRid = d.nextRid := (rfl)

/-! A symbol is counted, and the measurement of its duration goes on (R60, R75). -/

/-- The lane after a symbol at its pin time, before its decode. -/
def Dev.symbolIn (d : Dev) (n : Fin 64) (t : Int) : Dev := (d.setLane n ((d.laneOf n).measure t)).countSym n

theorem LaneSt.measure_tau {x : LaneSt} (t : Int) (h : x.tauN ≠ 4096) : (x.measure t).tau = x.tau := by
  unfold LaneSt.measure
  rw [if_neg h]
  split <;> rfl

theorem LaneSt.measure_openRec (x : LaneSt) (t : Int) : (x.measure t).openRec = x.openRec := by
  unfold LaneSt.measure
  split_ifs <;> rfl

theorem LaneSt.measure_fresh (x : LaneSt) (t : Int) : (x.measure t).fresh = x.fresh := by
  unfold LaneSt.measure
  split_ifs <;> rfl

theorem Dev.symbolIn_laneOf (d : Dev) (n : Fin 64) (t : Int) : (d.symbolIn n t).laneOf n = (d.laneOf n).measure t := by
  unfold Dev.symbolIn Dev.laneOf
  rw [Dev.lanes_countSym]
  exact Dev.laneOf_setLane _ _ _

theorem Dev.symbolIn_laneOf_ne (d : Dev) {n : Fin 64} {m : Nat} (t : Int) (h : n.val ≠ m) : (d.symbolIn n t).laneOf m = d.laneOf m := by
  unfold Dev.symbolIn Dev.laneOf
  rw [Dev.lanes_countSym]
  exact Dev.laneOf_setLane_ne d _ h

theorem Dev.symbolIn_cfg (d : Dev) (n : Fin 64) (t : Int) (m : Nat) : (d.symbolIn n t).reg (Pg.lane m) 0x100 = d.reg (Pg.lane m) 0x100 :=
  Dev.reg_countSym _ _ (fun e => absurd (raddr_inj (by decide) (by decide) e).2 (by decide))
    (fun e => absurd (raddr_inj (by decide) (by decide) e).2 (by decide))

theorem Dev.symbolIn_page (d : Dev) (n : Fin 64) (t : Int) (off : Nat) (h1 : off ≠ 0x12C) (h2 : off ≠ 0x130) :
    (d.symbolIn n t).reg (Pg.lane n) off = d.reg (Pg.lane n) off :=
  Dev.reg_countSym _ _ (raddr_ne h1.symm) (raddr_ne h2.symm)

theorem Dev.symbolIn_lpcPage (d : Dev) (n : Fin 64) (t : Int) (h : Nat) {off : Nat} (ho : off < 4096) :
    (d.symbolIn n t).reg (Pg.lpc h) off = d.reg (Pg.lpc h) off :=
  Dev.reg_countSym _ _ (raddr_lane_ne (b := .lpc) n h (Nat.le_refl _) ho (by decide)).symm
    (raddr_lane_ne (b := .lpc) n h (Nat.le_refl _) ho (by decide)).symm

theorem Dev.symbolIn_count (d : Dev) (n : Fin 64) (t : Int) :
    (d.symbolIn n t).reg64 (Pg.lane n) 0x12C = (d.reg64 (Pg.lane n) 0x12C + 1) % 2 ^ 64 := Dev.reg64_countSym _ _

theorem Dev.symbolIn_lpc (d : Dev) (n : Fin 64) (t : Int) : (d.symbolIn n t).lpc = d.lpc := by
  rw [Dev.symbolIn, Dev.lpc_countSym]
  rfl

theorem Dev.symbolIn_nextRid (d : Dev) (n : Fin 64) (t : Int) : (d.symbolIn n t).nextRid = d.nextRid := by
  rw [Dev.symbolIn, Dev.nextRid_countSym]
  rfl

theorem Dev.symbolIn_tau {d : Dev} {n : Fin 64} (t : Int) (h : (d.laneOf n).tauN ≠ 4096) (m : Nat) : (d.symbolIn n t).laneTau m = d.laneTau m := by
  refine Dev.laneTau_congr (d.symbolIn_cfg n t m) ?_
  by_cases hm : n.val = m
  · rw [← hm, d.symbolIn_laneOf n t, LaneSt.measure_tau t h]
  · rw [d.symbolIn_laneOf_ne t hm]

/-- Where no measurement ends with the symbol, stamps stay what they are. -/
theorem Dev.symbolIn_sameClock {d : Dev} {n : Fin 64} (t : Int) (h : (d.laneOf n).tauN ≠ 4096) : d.SameClock (d.symbolIn n t) :=
  ⟨d.symbolIn_lpc n t, fun k _ ho => d.symbolIn_lpcPage n t k ho, Dev.symbolIn_tau t h⟩

/-! The open record (R48, R49, R129). -/

theorem Dev.recOf_setRec (d : Dev) (rid : Nat) (r : Rec) : (d.setRec rid r).recOf rid = r :=
  sget_sins_same _ _ _ _ (fun hm => ((mem_keys_serase _ _ _).mp hm).2 rfl)

theorem Dev.recOf_congr {d d' : Dev} (h : d'.recs = d.recs) (rid : Nat) : d'.recOf rid = d.recOf rid := by
  unfold Dev.recOf
  rw [h]

/-- A record is open at a lane, with its stamp and the bytes it has so far. -/
structure Dev.RecordOpen (d : Dev) (n : Fin 64) (rid : Nat) (lp : LP) (bs : List Byte) : Prop where
  isOpen : (d.laneOf n).openRec = some rid
  stamp : (d.recOf rid).lp = lp
  payload : (d.recOf rid).payload = bs
  lane : (d.recOf rid).lane = n.val

theorem Dev.RecordOpen.congr {d d' : Dev} {n : Fin 64} {rid : Nat} {lp : LP} {bs : List Byte} (ho : d.RecordOpen n rid lp bs)
    (hl : (d'.laneOf n).openRec = (d.laneOf n).openRec) (hr : d'.recs = d.recs) : d'.RecordOpen n rid lp bs where
  isOpen := hl.trans ho.isOpen
  stamp := (congrArg Rec.lp (Dev.recOf_congr hr rid)).trans ho.stamp
  payload := (congrArg Rec.payload (Dev.recOf_congr hr rid)).trans ho.payload
  lane := (congrArg Rec.lane (Dev.recOf_congr hr rid)).trans ho.lane

theorem Dev.recOf_addRec (d : Dev) (r : Rec) : (d.addRec r).recOf d.nextRid = r :=
  sget_sins_same _ _ _ _ (fun hm => ((mem_keys_serase _ _ _).mp hm).2 rfl)

theorem Dev.RecordOpen.addRec {d : Dev} {n : Fin 64} {r : Rec} {x : LaneSt} (hx : x.openRec = some d.nextRid) (hn : r.lane = n.val) :
    ((d.addRec r).setLane n x).RecordOpen n d.nextRid r.lp r.payload where
  isOpen := (congrArg LaneSt.openRec (Dev.laneOf_setLane _ _ _)).trans hx
  stamp := congrArg Rec.lp (d.recOf_addRec r)
  payload := congrArg Rec.payload (d.recOf_addRec r)
  lane := (congrArg Rec.lane (d.recOf_addRec r)).trans hn

theorem Dev.recordOpen_openRecord (d : Dev) (n : Fin 64) (lp : LP) (typ base flags : Nat) (first : Option Nat) :
    (d.openRecord n lp typ base flags first).RecordOpen n d.nextRid lp [] :=
  Dev.RecordOpen.addRec rfl rfl

section
variable {d : Dev} {n : Fin 64} {rid : Nat} {lp : LP} {bs : List Byte}

/-- Bytes join the open record while it has room. -/
theorem Dev.joinBytes_room (ho : d.RecordOpen n rid lp bs) (at' : LP) {more : List Byte} (h : bs.length + more.length ≤ maxPart) :
    d.joinBytes n at' more = d.setRec rid { d.recOf rid with payload := bs ++ more } := by
  have hp := ho.payload
  unfold Dev.joinBytes
  simp only [ho.isOpen, hp]
  exact if_pos (by omega)

theorem Dev.RecordOpen.joinBytes (ho : d.RecordOpen n rid lp bs) (at' : LP) {more : List Byte} (h : bs.length + more.length ≤ maxPart) :
    (d.joinBytes n at' more).RecordOpen n rid lp (bs ++ more) := by
  rw [Dev.joinBytes_room ho at' h]
  exact ⟨ho.isOpen, (congrArg Rec.lp (d.recOf_setRec rid _)).trans ho.stamp, congrArg Rec.payload (d.recOf_setRec rid _),
    (congrArg Rec.lane (d.recOf_setRec rid _)).trans ho.lane⟩

theorem Dev.openRec_of_laneStill {d d' : Dev} {n : Nat} (h : d'.laneStill n = d.laneStill n) : (d'.laneOf n).openRec = (d.laneOf n).openRec := by
  have hs : (d'.laneStill n).openRec = (d.laneStill n).openRec := congrArg LaneSt.openRec h
  exact hs

theorem Dev.rawCnt_of_laneStill {d d' : Dev} {n : Nat} (h : d'.laneStill n = d.laneStill n) : (d'.laneOf n).rawCnt = (d.laneOf n).rawCnt := by
  have hs : (d'.laneStill n).rawCnt = (d.laneStill n).rawCnt := congrArg LaneSt.rawCnt h
  exact hs

theorem Dev.RecordOpen.sievePoint (ho : d.RecordOpen n rid lp bs) (at' : LP) : (d.sievePoint n rid at').RecordOpen n rid lp bs := by
  obtain ⟨dec, mat, seen, hr⟩ := d.recs_sievePoint n rid at'
  have hrec : (d.sievePoint n rid at').recOf rid = { d.recOf rid with decided := dec, matched := mat, outSeen := seen } :=
    (Dev.recOf_congr (d' := d.sievePoint n rid at') (d := d.setRec rid _) hr rid).trans (d.recOf_setRec rid _)
  exact ⟨(Dev.openRec_of_laneStill (d.laneStill_sievePoint n n rid at')).trans ho.isOpen, (congrArg Rec.lp hrec).trans ho.stamp,
    (congrArg Rec.payload hrec).trans ho.payload, (congrArg Rec.lane hrec).trans ho.lane⟩

theorem Dev.atSieve_open (ho : d.RecordOpen n rid lp bs) (at' : LP) : d.atSieve n at' = d.sievePoint n rid at' := by
  unfold Dev.atSieve
  rw [ho.isOpen]

section
variable (ho : d.RecordOpen n rid lp bs) (at' : LP) {more : List Byte} (h : bs.length + more.length ≤ maxPart)
include ho h

theorem Dev.feed_open : d.feed n at' more = (d.setRec rid { d.recOf rid with payload := bs ++ more }).sievePoint n rid at' := by
  rw [Dev.feed, Dev.atSieve_open (ho.joinBytes at' h), Dev.joinBytes_room ho at' h]

/-- A symbol's bytes stand in the open record. -/
theorem Dev.RecordOpen.feed : (d.feed n at' more).RecordOpen n rid lp (bs ++ more) := by
  rw [Dev.feed, Dev.atSieve_open (ho.joinBytes at' h)]
  exact (ho.joinBytes at' h).sievePoint at'

theorem Dev.regs_feed : (d.feed n at' more).regs = d.regs := by
  rw [Dev.feed_open ho at' h, Dev.regs_sievePoint, Dev.regs_setRec]

theorem Dev.laneStill_feed (m : Nat) : (d.feed n at' more).laneStill m = d.laneStill m := by
  rw [Dev.feed_open ho at' h, Dev.laneStill_sievePoint, Dev.laneStill_setRec]
end
end

theorem Dev.closeRecord_none {d : Dev} {n : Fin 64} (h : (d.laneOf n).openRec = none) (lp : LP) (flags : Nat) : d.closeRecord n lp flags = d := by
  unfold Dev.closeRecord
  rw [h]

theorem Dev.feed_none {d : Dev} {n : Fin 64} (h : (d.laneOf n).openRec = none) (lp : LP) (bs : List Byte) : d.feed n lp bs = d := by
  unfold Dev.feed Dev.joinBytes
  simp only [h]
  unfold Dev.atSieve
  rw [h]

end Sys2Proof.Machine
end

section
/-! PROOFS. A symbol of user logic and a raw word from the line become records (R47, R48, R50, R55, R75, R311, O35). -/

namespace Sys2Proof.Machine

theorem exec_laneSymbol {s : State} (n : Fin 64) (theta : BitVec 8) (buf : RxBuf) (sym : LineSym) (hr : s.dev.rst = .running) :
    exec (.laneSymbol n theta buf sym) s = s.becomes (s.dev.fresh.laneSymbol n theta buf sym) := s.cmd_running _ hr

/-! Symbols that do nothing (R47, R48). -/

theorem Dev.laneSymbol_misfit {d : Dev} {n : Fin 64} (theta : BitVec 8) (buf : RxBuf) {sym : LineSym}
    (h : symFits (d.laneCode n) (d.flag (Pg.lane n) F.LANE_CFG_USER_PCS) sym = false) : d.laneSymbol n theta buf sym = d := by
  unfold Dev.laneSymbol
  exact if_pos (fun hf => absurd (h.symm.trans hf) (by decide))

theorem Dev.laneSymbol_unlocked {d : Dev} {n : Fin 64} (theta : BitVec 8) (buf : RxBuf) (sym : LineSym)
    (ha : d.laneState n ≠ Ln.aligned) (hc : d.laneState n ≠ Ln.codeLock) : d.laneSymbol n theta buf sym = d := by
  unfold Dev.laneSymbol
  cases sym <;> simp only [if_neg hc, if_pos ha, if_pos (Or.inl ha), ite_self]

/-! The last symbol at the sieve point (R56). -/

/-- The lane's symbol stands noted as the last. -/
def Dev.noted (d : Dev) (n : Fin 64) (t : Int) (lp : LP) : Dev := d.setLane n ((d.laneOf n).noteLast d.ck t lp)

theorem LaneSt.noteLast_openRec (x : LaneSt) (ck : Nat) (t : Int) (lp : LP) : (x.noteLast ck t lp).openRec = x.openRec := by
  unfold LaneSt.noteLast
  dsimp only
  split <;> rfl

theorem Dev.noted_lastLp (d : Dev) (n : Fin 64) (t : Int) (lp : LP) : ((d.noted n t lp).laneOf n).lastLp = lp :=
  congrArg LaneSt.lastLp (Dev.laneOf_setLane _ _ _)

theorem Dev.RecordOpen.setLane {d : Dev} {n : Fin 64} {rid : Nat} {lp : LP} {bs : List Byte} (ho : d.RecordOpen n rid lp bs) {x : LaneSt}
    (hx : x.openRec = (d.laneOf n).openRec) : (d.setLane n x).RecordOpen n rid lp bs :=
  ho.congr ((congrArg LaneSt.openRec (Dev.laneOf_setLane _ _ _)).trans hx) rfl

theorem Dev.RecordOpen.noted {d : Dev} {n : Fin 64} {rid : Nat} {lp : LP} {bs : List Byte} (ho : d.RecordOpen n rid lp bs) (t : Int) (lp' : LP) :
    (d.noted n t lp').RecordOpen n rid lp bs :=
  ho.setLane (LaneSt.noteLast_openRec _ _ _ _)

theorem Dev.RecordOpen.settle {d : Dev} {n : Fin 64} {rid : Nat} {lp : LP} {bs : List Byte} (ho : d.RecordOpen n rid lp bs) :
    d.settle.RecordOpen n rid lp bs :=
  ho.congr (congrArg LaneSt.openRec (d.laneOf_settle n)) (Dev.recs_of_rest d.rest_settle)

/-- No relock event where a symbol has come since ALIGNED (R57). -/
theorem Dev.relockEvent_seen {d : Dev} {n : Fin 64} (h : (d.laneOf n).fresh = false) (lp : LP) : d.relockEvent n lp = d := by
  unfold Dev.relockEvent
  exact if_pos (fun hf => absurd (h.symm.trans hf) (by decide))

/-! A symbol of user logic (R48, R311). -/

/-- The instant of the symbol that user logic's comes from, its port's round trip back. -/
def Dev.userTime (d : Dev) (n : Fin 64) (theta : BitVec 8) (k : Nat) : Int :=
  d.pinTime n (d.ck - rxLat (d.laneRate n) - userRound (d.portRatio (.lane n)) k) theta.toNat

section
variable {d : Dev} {n : Fin 64} (ha : d.laneState n = Ln.aligned) (hu : d.flag (Pg.lane n) F.LANE_CFG_USER_PCS = true)
  (hd : d.flag (Pg.lane n) F.LANE_CFG_DET = true) (hp : d.userUp (.lane n) = true) (hf : (d.laneOf n).fresh = false)
include ha hu hd hp hf

theorem Dev.laneSymbol_user (theta : BitVec 8) (buf : RxBuf) (bs : List Byte) (first last : Bool) (k : Nat) :
    d.laneSymbol n theta buf (.user bs first last k)
      = (d.userSym n (d.stampAt n (d.userTime n theta k)) bs first last).noted n (d.userTime n theta k) (d.stampAt n (d.userTime n theta k)) := by
  have hfit : symFits (d.laneCode n) (d.flag (Pg.lane n) F.LANE_CFG_USER_PCS) (.user bs first last k) = true := hu
  unfold Dev.laneSymbol
  rw [if_neg (not_not.mpr hfit)]
  dsimp only
  rw [if_neg (not_or.mpr ⟨not_not.mpr ha, not_not.mpr hp⟩), if_pos hd, Nat.add_zero, Dev.relockEvent_seen hf]
  rfl
end

/-- Without a mark, and with no record open, user logic's bytes are in none. -/
theorem Dev.userSym_outside {d : Dev} {n : Fin 64} (h : (d.laneOf n).openRec = none) (lp : LP) (bs : List Byte) :
    d.userSym n lp bs false false = d := by
  unfold Dev.userSym
  exact Dev.feed_none h lp bs

theorem Dev.userSym_first {d : Dev} {n : Fin 64} (h : (d.laneOf n).openRec = none) (lp : LP) {bs : List Byte} (hb : bs.length ≤ maxPart) :
    (d.userSym n lp bs true false).RecordOpen n d.nextRid lp bs := by
  unfold Dev.userSym
  dsimp only
  rw [Dev.closeRecord_none h]
  exact (d.recordOpen_openRecord n lp 0 0 0 none).feed lp (by simpa using hb)

theorem laneSymbol_user_stream {s : State} {n : Fin 64} (hr : s.dev.rst = .running) (theta : BitVec 8) (buf : RxBuf) (bs : List Byte) (k : Nat)
    (ha : s.dev.laneState n = Ln.aligned) (hu : s.dev.flag (Pg.lane n) F.LANE_CFG_USER_PCS = true)
    (hd : s.dev.flag (Pg.lane n) F.LANE_CFG_DET = true) (hp : s.dev.userUp (.lane n) = true) (hf : (s.dev.laneOf n).fresh = false)
    (ho : (s.dev.laneOf n).openRec = none) (hb : bs.length ≤ maxPart) :
    let lp := s.dev.stampAt n (s.dev.userTime n theta k)
    (∃ t, exec (.laneSymbol n theta buf (.user bs false false k)) s = .next t ∧ (t.dev.laneOf n).lastLp = lp ∧ t.dev.recs = s.dev.recs)
    ∧ ∃ t, exec (.laneSymbol n theta buf (.user bs true false k)) s = .next t ∧ (t.dev.laneOf n).lastLp = lp
      ∧ t.dev.RecordOpen n s.dev.nextRid lp bs := by
  have he := fun first => Dev.laneSymbol_user (d := s.dev.fresh) ha hu hd hp hf theta buf bs first false k
  refine ⟨⟨_, exec_laneSymbol n theta buf _ hr, ?_, ?_⟩, ⟨_, exec_laneSymbol n theta buf _ hr, ?_, ?_⟩⟩ <;> rw [he]
  · rw [Dev.laneOf_settle, Dev.noted_lastLp]
    rfl
  · rw [Dev.recs_of_rest (Dev.rest_settle _), Dev.userSym_outside (d := s.dev.fresh) ho]
    rfl
  · rw [Dev.laneOf_settle, Dev.noted_lastLp]
    rfl
  · exact ((Dev.userSym_first (d := s.dev.fresh) ho _ hb).noted _ _).settle

/-! A raw word from the line (R47, Table 3-2). -/

/-- What the hand-over of a symbol to TX leaves: all but the lines that wait behind the lanes and the agenda. -/
structure Dev.SameButTx (d d' : Dev) : Prop where
  regs : d'.regs = d.regs
  recs : d'.recs = d.recs
  nextRid : d'.nextRid = d.nextRid
  still : ∀ n, d'.laneStill n = d.laneStill n

theorem Dev.sameButTx_refl (d : Dev) : d.SameButTx d := ⟨rfl, rfl, rfl, fun _ => rfl⟩

theorem Dev.SameButTx.trans {d d' d'' : Dev} (h : d.SameButTx d') (h' : d'.SameButTx d'') : d.SameButTx d'' :=
  ⟨h'.regs.trans h.regs, h'.recs.trans h.recs, h'.nextRid.trans h.nextRid, fun n => (h'.still n).trans (h.still n)⟩

theorem Dev.sameButTx_txq (d : Dev) (m : Nat) (q : List TxEnt) (k : Nat) (i : Instr) :
    d.SameButTx ((d.setLane m { d.laneOf m with txq := q }).sched k i) := by
  refine ⟨rfl, rfl, rfl, fun n => ?_⟩
  rw [Dev.laneStill_sched, Dev.laneStill_txq]

theorem Dev.sameButTx_foldl {α : Type} (f : Dev → α → Dev) (l : List α) (d : Dev) (h : ∀ (d : Dev) x, d.SameButTx (f d x)) :
    d.SameButTx (l.foldl f d) := by
  induction l generalizing d with
  | nil => exact d.sameButTx_refl
  | cons x l ih => exact (h d x).trans (ih _)

theorem Dev.sameButTx_toTx (d : Dev) (n : Fin 64) (e : TxEnt) : d.SameButTx (d.toTx n e) := by
  unfold Dev.toTx
  refine Dev.sameButTx_foldl _ _ _ (fun d k => ?_)
  dsimp only
  split
  · exact d.sameButTx_txq _ _ _ _
  · exact d.sameButTx_refl

theorem Dev.toTxStd_det {d : Dev} {n : Fin 64} (h : d.flag (Pg.lane n) F.LANE_CFG_DET = true) (comp : Nat) (e : TxEnt) :
    d.toTxStd n comp e = d.toTx n e := if_pos (Or.inl h)

/-! CFG gives a lane's rate and code. -/

theorem Dev.laneRate_congr {d d' : Dev} {n : Nat} (h : d'.reg (Pg.lane n) 0x100 = d.reg (Pg.lane n) 0x100) : d'.laneRate n = d.laneRate n :=
  congrArg (fun w : Word => bitsOf w.toNat 0 4) h

theorem Dev.userPcs_congr {d d' : Dev} {n : Nat} (h : d'.reg (Pg.lane n) 0x100 = d.reg (Pg.lane n) 0x100) :
    d'.flag (Pg.lane n) F.LANE_CFG_USER_PCS = d.flag (Pg.lane n) F.LANE_CFG_USER_PCS :=
  congrArg (fun w : Word => decide (bitsOf w.toNat 15 1 = 1)) h

theorem Dev.laneCode_congr {d d' : Dev} {n : Nat} (h : d'.reg (Pg.lane n) 0x100 = d.reg (Pg.lane n) 0x100) : d'.laneCode n = d.laneCode n := by
  unfold Dev.laneCode
  rw [Dev.userPcs_congr h, show d'.fld (Pg.lane n) F.LANE_CFG_CODE = d.fld (Pg.lane n) F.LANE_CFG_CODE from
    congrArg (fun w : Word => bitsOf w.toNat 4 2) h]

/-! The first word of a record of more than one. -/

/-- The record of a first raw word, not yet counted. -/
def Dev.rawOpened (d : Dev) (n : Fin 64) (lp : LP) (w : BitVec 128) : Dev := (d.openRecord n lp 0 0 0 none).feed n lp (leBytes 8 w.toNat)

theorem Dev.regs_openRecord (d : Dev) (n : Fin 64) (lp : LP) : (d.openRecord n lp 0 0 0 none).regs = d.regs := (rfl)

theorem Dev.rawCnt_openRecord (d : Dev) (n : Fin 64) (lp : LP) : ((d.openRecord n lp 0 0 0 none).laneOf n).rawCnt = 0 :=
  congrArg LaneSt.rawCnt (Dev.laneOf_setLane _ _ _)

theorem rawBytes_room (w : BitVec 128) : ([] : List Byte).length + (leBytes 8 w.toNat).length ≤ maxPart := by
  simp [leBytes, maxPart]

section
variable (d : Dev) (n : Fin 64) (lp : LP) (w : BitVec 128)

theorem Dev.rawOpened_open : (d.rawOpened n lp w).RecordOpen n d.nextRid lp (leBytes 8 w.toNat) :=
  (d.recordOpen_openRecord n lp 0 0 0 none).feed lp (rawBytes_room w)

theorem Dev.regs_rawOpened : (d.rawOpened n lp w).regs = d.regs :=
  (Dev.regs_feed (d.recordOpen_openRecord n lp 0 0 0 none) lp (rawBytes_room w)).trans (d.regs_openRecord n lp)

theorem Dev.rawCnt_rawOpened : ((d.rawOpened n lp w).laneOf n).rawCnt = 0 :=
  (Dev.rawCnt_of_laneStill (Dev.laneStill_feed (d.recordOpen_openRecord n lp 0 0 0 none) lp (rawBytes_room w) n)).trans
    (d.rawCnt_openRecord n lp)
end

section
variable {d : Dev} {n : Fin 64} (ho : (d.laneOf n).openRec = none) (hp : ∀ row, rateRow (d.laneRate n) = some row → row.pam4 = false)
  (hl : 2 ≤ d.fld (Pg.lane n) F.LANE_FRAME_RAW_LEN)
include ho hp hl

/-- The record stays open after its first word. -/
theorem Dev.rawWord_first (lp : LP) (w : BitVec 128) :
    d.rawWord n lp w = (d.rawOpened n lp w).setLane n { (d.rawOpened n lp w).laneOf n with rawCnt := 1 } := by
  have hlen : ¬ ((d.rawOpened n lp w).setLane n { (d.rawOpened n lp w).laneOf n with rawCnt := 1 }).fld (Pg.lane n) F.LANE_FRAME_RAW_LEN ≤ 1 := by
    rw [Dev.fld_of_regs (d := d) ((Dev.regs_setLane _ _ _).trans (d.regs_rawOpened n lp w))]
    omega
  have hcnt := d.rawCnt_rawOpened n lp w
  unfold Dev.rawOpened at hlen hcnt ⊢
  unfold Dev.rawWord
  rcases hr : rateRow (d.laneRate n) with _ | row
  · simp only [ho, Option.isSome_none, Bool.false_eq_true, if_false, hcnt]
    exact if_neg hlen
  · simp only [ho, hp row hr, Option.isSome_none, Bool.false_eq_true, if_false, hcnt]
    exact if_neg hlen

theorem Dev.RecordOpen.rawWord (lp : LP) (w : BitVec 128) : (d.rawWord n lp w).RecordOpen n d.nextRid lp (leBytes 8 w.toNat) := by
  rw [Dev.rawWord_first ho hp hl]
  exact (d.rawOpened_open n lp w).setLane rfl

theorem Dev.regs_rawWord (lp : LP) (w : BitVec 128) : (d.rawWord n lp w).regs = d.regs := by
  rw [Dev.rawWord_first ho hp hl, Dev.regs_setLane, Dev.regs_rawOpened]
end

/-- No symbols of a raw lane lose its alignment. -/
theorem lossThreshold_raw (l : List Bool) : ¬ lossThreshold 3 ≤ (l.take 64).countP id := by
  have hc := (List.countP_le_length (p := id) (l := l.take 64)).trans (List.length_take_le 64 l)
  have ht : lossThreshold 3 = 65 := rfl
  omega

section
variable {d d' : Dev} {n : Fin 64} {t : Int} (hs : (d.symbolIn n t).SameButTx d')
include hs

/-- Counted and handed to TX, a symbol has left the lane's page below its count. -/
theorem Dev.reg_handedOn {off : Nat} (h : off < 0x12C) : d'.reg (Pg.lane n) off = d.reg (Pg.lane n) off :=
  (Dev.reg_congr hs.regs _ _).trans (d.symbolIn_page n t off (by omega) (by omega))

theorem Dev.openRec_handedOn : (d'.laneOf n).openRec = (d.laneOf n).openRec := by
  rw [Dev.openRec_of_laneStill (hs.still n), d.symbolIn_laneOf, LaneSt.measure_openRec]

section
variable (ho : (d.laneOf n).openRec = none) (hp : ∀ row, rateRow (d.laneRate n) = some row → row.pam4 = false)
  (hl : 2 ≤ d.fld (Pg.lane n) F.LANE_FRAME_RAW_LEN)
include ho hp hl

/-- A raw word handed on opens a record. -/
theorem Dev.rawWord_handedOn (lp : LP) (w : BitVec 128) :
    (d'.rawWord n lp w).RecordOpen n d.nextRid lp (leBytes 8 w.toNat) ∧ (d'.rawWord n lp w).regs = (d.symbolIn n t).regs := by
  have hp' : ∀ row, rateRow (d'.laneRate n) = some row → row.pam4 = false := by
    rw [Dev.laneRate_congr (Dev.reg_handedOn hs (by decide))]
    exact hp
  have hl' : 2 ≤ d'.fld (Pg.lane n) F.LANE_FRAME_RAW_LEN :=
    hl.trans_eq (congrArg (fun w : Word => bitsOf w.toNat 17 11) (Dev.reg_handedOn hs (off := 0x110) (by decide))).symm
  have ho' : (d'.laneOf n).openRec = none := (Dev.openRec_handedOn hs).trans ho
  have hr := Dev.RecordOpen.rawWord ho' hp' hl' lp w
  rw [hs.nextRid, d.symbolIn_nextRid] at hr
  exact ⟨hr, (Dev.regs_rawWord ho' hp' hl' lp w).trans hs.regs⟩
end
end

/-- The end of a symbol: its place in the window of losses, and that it was the last. -/
def Dev.symbolOut (d : Dev) (n : Fin 64) (t : Int) (lp : LP) (win : List Bool) : Dev :=
  d.setLane n ({ d.laneOf n with win := win }.noteLast d.ck t lp)

theorem Dev.symbolOut_lastLp (d : Dev) (n : Fin 64) (t : Int) (lp : LP) (win : List Bool) : ((d.symbolOut n t lp win).laneOf n).lastLp = lp :=
  congrArg LaneSt.lastLp (Dev.laneOf_setLane _ _ _)

theorem Dev.regs_symbolOut (d : Dev) (n : Fin 64) (t : Int) (lp : LP) (win : List Bool) : (d.symbolOut n t lp win).regs = d.regs := (rfl)

theorem Dev.RecordOpen.symbolOut {d : Dev} {n : Fin 64} {rid : Nat} {lp : LP} {bs : List Byte} (ho : d.RecordOpen n rid lp bs) (t : Int) (lp' : LP)
    (win : List Bool) : (d.symbolOut n t lp' win).RecordOpen n rid lp bs :=
  ho.setLane (LaneSt.noteLast_openRec _ _ _ _)

section
variable {d : Dev} {n : Fin 64} (hc : d.laneCode n = 3) (hu : d.flag (Pg.lane n) F.LANE_CFG_USER_PCS = false)
  (hd : d.flag (Pg.lane n) F.LANE_CFG_DET = true) (hs : d.refSrc ≠ 0) (hf : (d.laneOf n).fresh = false) (hn : (d.laneOf n).tauN ≠ 4096)
include hc hu hd hs hf hn

/-- A raw word of an aligned lane: counted, handed to TX, decoded, put on the lane's port, noted; no alignment is lost with it. -/
theorem Dev.lineSymbol_raw (t : Int) (samp comp : Nat) (next : BitVec 2) (w : BitVec 128) :
    ∃ (d4 d6 : Dev) (win : List Bool), (d.symbolIn n t).SameButTx d4 ∧ d6.lineView = (d4.rawWord n (d.stampAt n t) w).lineView
      ∧ ((d4.rawWord n (d.stampAt n t) w).regs = (d.symbolIn n t).regs →
        d.lineSymbol n t samp comp next (.raw w) {} (d.laneOf n) = d6.symbolOut n t (d.stampAt n t) win) := by
  have hclock := Dev.symbolIn_sameClock t hn
  have hfresh : ((d.symbolIn n t).laneOf n).fresh = false := by rw [d.symbolIn_laneOf, LaneSt.measure_fresh, hf]
  have hcfg : (d.symbolIn n t).reg (Pg.lane n) 0x100 = d.reg (Pg.lane n) 0x100 := d.symbolIn_cfg n t n
  have hdet : (d.symbolIn n t).flag (Pg.lane n) F.LANE_CFG_DET = true :=
    (congrArg (fun w : Word => decide (bitsOf w.toNat 6 1 = 1)) hcfg).trans hd
  unfold Dev.lineSymbol
  extract_lets lfsr d1 d2 lp d3 rec0 rids room d4 d5 rec1 d6 win x7 d7
  have h2 : d2 = d.symbolIn n t := if_neg (fun hr => hs (hclock.refSrc.symm.trans hr.1))
  clear_value d2
  have hlp : lp = d.stampAt n t := by
    rw [← hclock.stampAt n t, ← h2]
  clear_value lp
  have h3 : d3 = d.symbolIn n t := by
    rw [← Dev.relockEvent_seen hfresh lp, ← h2]
  clear_value d3
  have h4 : (d.symbolIn n t).SameButTx d4 := by
    rw [← h3] at hdet ⊢
    have hstd : d4 = d3.toTx n _ := Dev.toTxStd_det hdet comp _
    rw [hstd]
    exact Dev.sameButTx_toTx _ n _
  clear_value d4
  have h5 : d5 = d4.rawWord n lp w := by
    refine if_neg ?_
    rw [Dev.userPcs_congr (Dev.reg_handedOn h4 (by decide)), hu]
    exact Bool.false_ne_true
  clear_value d5
  have h6 : d6.lineView = d5.lineView := by
    change (ite _ _ _ : Dev).lineView = _
    rw [apply_ite Dev.lineView, Dev.lineView_present, ite_self]
  clear_value d6
  rw [h5, hlp] at h6
  refine ⟨d4, d6, win, h4, h6, fun hr => ?_⟩
  have hr7 : d7.regs = (d.symbolIn n t).regs := (Dev.regs_of_lineView h6).trans hr
  have hcode : d7.laneCode n = 3 := (Dev.laneCode_congr ((Dev.reg_congr hr7 _ _).trans hcfg)).trans hc
  rw [hcode, if_neg (lossThreshold_raw _), ← hlp]
  rfl
end

/-- The pin time of a symbol from the line in deterministic mode (R75). -/
def Dev.lineTime (d : Dev) (n : Fin 64) (theta : BitVec 8) : Int := d.pinTime n (d.ck - rxLat (d.laneRate n)) theta.toNat

section
variable {d : Dev} {n : Fin 64} (hp : ∀ row, rateRow (d.laneRate n) = some row → row.pam4 = false)
  (hi : d.flag (Pg.lane n) F.LANE_CFG_RX_INV = false)
include hp hi

/-- Neither inverted nor of PAM4, a word comes as it is. -/
theorem Dev.rxBits_plain (sym : LineSym) : d.rxBits n sym = (sym, (d.laneOf n).level) := by
  unfold Dev.rxBits
  rw [hi]
  rcases hr : rateRow (d.laneRate n) with _ | row
  · rfl
  · simp only [hp row hr]
    rfl

theorem Dev.laneSymbol_raw (ha : d.laneState n = Ln.aligned) (hc : d.laneCode n = 3) (hd : d.flag (Pg.lane n) F.LANE_CFG_DET = true)
    (theta : BitVec 8) (buf : RxBuf) (w : BitVec 128) : d.laneSymbol n theta buf (.raw w)
      = d.lineSymbol n (d.lineTime n theta) (d.ck - rxLat (d.laneRate n)) buf.comp.val buf.next (.raw w) {} (d.laneOf n) := by
  have hfit : symFits (d.laneCode n) (d.flag (Pg.lane n) F.LANE_CFG_USER_PCS) (.raw w) = true := decide_eq_true hc
  have hnc : d.laneState n ≠ Ln.codeLock := by
    rw [ha]
    decide
  unfold Dev.laneSymbol
  rw [if_neg (not_not.mpr hfit)]
  dsimp only
  rw [if_neg hnc, if_neg (not_not.mpr ha), if_pos hd, Dev.rxBits_plain hp hi]
  rfl
end

theorem laneSymbol_raw_stream {s : State} {n : Fin 64} (hr : s.dev.rst = .running) (theta : BitVec 8) (buf : RxBuf) (w : BitVec 128)
    (ha : s.dev.laneState n = Ln.aligned) (hc : s.dev.laneCode n = 3) (hu : s.dev.flag (Pg.lane n) F.LANE_CFG_USER_PCS = false)
    (hi : s.dev.flag (Pg.lane n) F.LANE_CFG_RX_INV = false) (hd : s.dev.flag (Pg.lane n) F.LANE_CFG_DET = true)
    (hp : ∀ row, rateRow (s.dev.laneRate n) = some row → row.pam4 = false) (hs : s.dev.refSrc ≠ 0) (hf : (s.dev.laneOf n).fresh = false)
    (ho : (s.dev.laneOf n).openRec = none) (hn : (s.dev.laneOf n).tauN ≠ 4096) (hl : 2 ≤ s.dev.fld (Pg.lane n) F.LANE_FRAME_RAW_LEN) :
    let lp := s.dev.stampAt n (s.dev.lineTime n theta)
    ∃ t, exec (.laneSymbol n theta buf (.raw w)) s = .next t
      ∧ t.dev.reg64 (Pg.lane n) 0x12C = (s.dev.reg64 (Pg.lane n) 0x12C + 1) % 2 ^ 64 ∧ (t.dev.laneOf n).lastLp = lp
      ∧ t.dev.RecordOpen n s.dev.nextRid lp (leBytes 8 w.toNat) := by
  obtain ⟨d4, d6, win, h4, h6, hout⟩ := Dev.lineSymbol_raw (d := s.dev.fresh) hc hu hd hs hf hn (s.dev.fresh.lineTime n theta)
    (s.dev.fresh.ck - rxLat (s.dev.fresh.laneRate n)) buf.comp.val buf.next w
  obtain ⟨hopen, hregs⟩ := Dev.rawWord_handedOn h4 ho hp hl (s.dev.fresh.stampAt n (s.dev.fresh.lineTime n theta)) w
  have ho6 := hopen.congr (congrArg LaneSt.openRec (Dev.laneOf_of_lineView h6 n)) (Dev.recs_of_lineView h6)
  have hr6 := (Dev.regs_of_lineView h6).trans hregs
  have hsettle : ∀ d : Dev, d.settle.reg64 (Pg.lane n) 0x12C = d.reg64 (Pg.lane n) 0x12C := fun d => by
    rw [Dev.reg64, Dev.reg64, d.reg_settle_lane n (by decide), d.reg_settle_lane n (by decide)]
  refine ⟨_, exec_laneSymbol n theta buf _ hr, ?_, ?_, ?_⟩ <;>
    rw [Dev.laneSymbol_raw (d := s.dev.fresh) hp hi ha hc hd, hout hregs]
  · rw [hsettle, Dev.reg64_congr ((Dev.regs_symbolOut _ _ _ _ _).trans hr6), Dev.symbolIn_count]
    rfl
  · rw [Dev.laneOf_settle, Dev.symbolOut_lastLp]
    rfl
  · exact (ho6.symbolOut _ _ _).settle

end Sys2Proof.Machine
end

section
/-! PROOFS. The head of a hold line at injection select (R58, O35). -/

namespace Sys2Proof.Machine

theorem exec_passThroughSymbol {s : State} (n : Fin 64) (hr : s.dev.rst = .running) :
    exec (.passThroughSymbol n) s = s.becomes ((s.dev.begin (.passThroughSymbol n)).passThroughSymbol n) := s.run_running _ _ hr

theorem Dev.passThroughSymbol_early {d : Dev} {n : Fin 64} {e : TxEnt} {rest : List TxEnt} (hq : (d.laneOf n).txq = e :: rest)
    (h : d.ck < e.sel) : d.passThroughSymbol n = d := by
  unfold Dev.passThroughSymbol
  rw [hq]
  exact if_pos h

/-! The stimulus side of a lane with nothing to do. -/

theorem Dev.stimOf_setStim (d : Dev) (n : Nat) (x : StimLane) : (d.setStim n x).stimOf n = x := sget_sset_same _ _ _ _
theorem Dev.stimOf_emit (d : Dev) (n : Nat) (o : Out) : (d.emit o).stimOf n = d.stimOf n := (rfl)
theorem Dev.laneOf_setStim (d : Dev) (n m : Nat) (x : StimLane) : (d.setStim n x).laneOf m = d.laneOf m := (rfl)
theorem Dev.laneOf_emit (d : Dev) (m : Nat) (o : Out) : (d.emit o).laneOf m = d.laneOf m := (rfl)
theorem Dev.recs_setStim (d : Dev) (n : Nat) (x : StimLane) : (d.setStim n x).recs = d.recs := (rfl)
theorem Dev.recs_emit (d : Dev) (o : Out) : (d.emit o).recs = d.recs := (rfl)
theorem Dev.mem_out_emit (d : Dev) (o : Out) : o ∈ (d.emit o).out := List.mem_append_right _ List.mem_cons_self

/-- The stimulus side is written as it stands. -/
def Dev.stimKept (d : Dev) (n : Nat) : Dev := d.setStim n (d.stimOf n)

theorem Dev.stimKept_stimOf (d : Dev) (n : Nat) : (d.stimKept n).stimOf n = d.stimOf n := Dev.stimOf_setStim _ _ _

theorem Dev.anchorActs_none {d : Dev} {n : Nat} (h : (d.stimOf n).pend = []) (num : Nat) (lp : LP) : d.anchorActs n num lp = d.stimKept n := by
  unfold Dev.anchorActs Dev.stimKept
  generalize hx : d.stimOf n = x at h ⊢
  cases x
  subst h
  rfl

theorem Dev.playsOn_none {d : Dev} (h : d.plays = []) (n : Nat) : d.playsOn n = [] := by
  unfold Dev.playsOn
  rw [h]
  rfl

theorem Dev.playOrigins_none {d : Dev} (h : d.plays = []) (n num : Nat) (lp : LP) : d.playOrigins n num lp = d := by
  unfold Dev.playOrigins
  rw [Dev.playsOn_none h]
  rfl

theorem Dev.playDue_none {d : Dev} (h : d.plays = []) (n : Nat) (lp : LP) : d.playDue n lp = none := by
  unfold Dev.playDue
  rw [Dev.playsOn_none h]
  rfl

theorem Dev.dueActs_none {d : Dev} {n : Nat} (h : (d.stimOf n).pend = []) : (d.dueActs n).1 = [] := by
  unfold Dev.dueActs
  dsimp only
  rw [h]
  split <;> rfl

/-! Sending (R58). -/

section
variable {d : Dev} {n : Nat} (hp : ∀ row, rateRow (d.laneRate n) = some row → row.pam4 = false)
  (hi : d.flag (Pg.lane n) F.LANE_CFG_TX_INV = false)
include hp hi

/-- Neither inverted nor of PAM4, a symbol leaves as it is encoded; the encoder's state moves, the symbols noted stay. -/
theorem Dev.txSend_plain (ck : Nat) (sym : LineSym) : ∃ y : StimLane, y.hist = (d.stimOf n).hist
    ∧ d.txSend n ck sym = (d.setStim n y).emit (.tx n (ck + 6 + txLat (d.laneRate n)) (some sym)) := by
  unfold Dev.txSend Dev.txPut
  rcases hr : rateRow (d.laneRate n) with _ | row
  · simp only [hi, Bool.false_eq_true, if_false]
    refine ⟨_, ?_, rfl⟩
    cases sym <;> rfl
  · simp only [hi, hp row hr, Bool.false_eq_true, if_false]
    refine ⟨_, ?_, rfl⟩
    cases sym <;> rfl
end

theorem Dev.sendReceived_plain {d : Dev} {n : Nat} (hk : (d.stimOf n).k28 = none) (hd : (d.stimOf n).rd = none) (e : TxEnt) :
    d.sendReceived n e = d.txSend n e.sel e.sym := by
  unfold Dev.sendReceived
  simp only [hk, hd, Option.isSome_none, Bool.false_eq_true, false_and, and_false, if_false]

/-- The head has left the hold line. -/
def Dev.headTaken (d : Dev) (n : Fin 64) (rest : List TxEnt) : Dev :=
  (d.stimKept n).setLane n { (d.stimKept n).laneOf n with txq := rest }

theorem Dev.headTaken_stimOf (d : Dev) (n : Fin 64) (rest : List TxEnt) : (d.headTaken n rest).stimOf n = d.stimOf n :=
  d.stimKept_stimOf n

/-- A symbol sent is noted past injection select. -/
def Dev.sentNoted (d : Dev) (n : Fin 64) (e : TxEnt) : Dev :=
  d.setStim n { d.stimOf n with selRd := e.rd, hist := (e.num, e.lp, e.samp, e.pin) :: (d.stimOf n).hist }

theorem Dev.laneOf_sentNoted (d : Dev) (n : Fin 64) (e : TxEnt) (m : Nat) : (d.sentNoted n e).laneOf m = d.laneOf m := (rfl)
theorem Dev.recs_sentNoted (d : Dev) (n : Fin 64) (e : TxEnt) : (d.sentNoted n e).recs = d.recs := (rfl)
theorem Dev.out_sentNoted (d : Dev) (n : Fin 64) (e : TxEnt) : (d.sentNoted n e).out = d.out := (rfl)
theorem Dev.hist_sentNoted (d : Dev) (n : Fin 64) (e : TxEnt) :
    ((d.sentNoted n e).stimOf n).hist = (e.num, e.lp, e.samp, e.pin) :: (d.stimOf n).hist :=
  congrArg StimLane.hist (Dev.stimOf_setStim _ _ _)

theorem Dev.laneOf_headTaken (d : Dev) (n : Fin 64) (rest : List TxEnt) : ((d.headTaken n rest).laneOf n).txq = rest :=
  congrArg LaneSt.txq (Dev.laneOf_setLane _ _ _)
theorem Dev.recs_headTaken (d : Dev) (n : Fin 64) (rest : List TxEnt) : (d.headTaken n rest).recs = d.recs := (rfl)
theorem Dev.laneRate_headTaken (d : Dev) (n : Fin 64) (rest : List TxEnt) : (d.headTaken n rest).laneRate n = d.laneRate n := (rfl)
theorem Dev.flag_headTaken (d : Dev) (n : Fin 64) (rest : List TxEnt) (pg : Nat) (f : Fld) : (d.headTaken n rest).flag pg f = d.flag pg f := (rfl)

theorem Dev.stimOf_settle (d : Dev) (n : Nat) : d.settle.stimOf n = d.stimOf n := by
  have hst : d.settle.rest.stims = d.rest.stims := congrArg Dev.stims d.rest_settle
  have hs : d.settle.stims = d.stims := hst
  unfold Dev.stimOf
  rw [hs]

section
variable {d : Dev} {n : Fin 64} {e : TxEnt} {rest : List TxEnt} (hq : (d.laneOf n).txq = e :: rest) (hs : e.sel ≤ d.ck)
  (ha : d.actionsCome = false) (hr : (d.stimOf n).run = none) (hp : (d.stimOf n).pend = []) (hk : (d.stimOf n).k28 = none)
  (hd : (d.stimOf n).rd = none) (hl : d.plays = [])
include hq hs ha hr hp hk hd hl

/-- Where neither an action nor a playback touches it, the head is sent as received. -/
theorem Dev.passThroughSymbol_plain :
    d.passThroughSymbol n = ((d.headTaken n rest).txSend n e.sel e.sym).sentNoted n e := by
  have hstim := d.headTaken_stimOf n rest
  have hplays : (d.stimKept n).plays = [] := hl
  have hpend : ((d.stimKept n).stimOf n).pend = [] := by rw [d.stimKept_stimOf, hp]
  have hsend : (d.headTaken n rest).sendReceived n e = (d.headTaken n rest).txSend n e.sel e.sym :=
    Dev.sendReceived_plain (by rw [hstim, hk]) (by rw [hstim, hd]) e
  unfold Dev.passThroughSymbol
  rw [hq]
  dsimp only
  rw [if_neg (Nat.not_lt.mpr hs), ha, if_neg Bool.false_ne_true, Dev.anchorActs_none hp, Dev.playOrigins_none hplays, Dev.dueActs_none hpend,
    Dev.playDue_none hplays]
  dsimp only
  have hrun : ((d.headTaken n rest).stimOf n).run = none := by rw [hstim, hr]
  unfold Dev.headTaken at hrun hsend ⊢
  rw [hrun]
  dsimp only
  rw [hsend]
  rfl
end

/-- What leaves, and what stays of the lane: the rest of its hold line, the symbols sent, the records. -/
theorem Dev.headTaken_sends (d : Dev) (n : Fin 64) (e : TxEnt) (rest : List TxEnt)
    (hm : ∀ row, rateRow (d.laneRate n) = some row → row.pam4 = false) (hi : d.flag (Pg.lane n) F.LANE_CFG_TX_INV = false) :
    let r := ((d.headTaken n rest).txSend n e.sel e.sym).sentNoted n e
    (r.laneOf n).txq = rest ∧ Out.tx n (e.sel + 6 + txLat (d.laneRate n)) (some e.sym) ∈ r.out
    ∧ (r.stimOf n).hist = (e.num, e.lp, e.samp, e.pin) :: (d.stimOf n).hist ∧ r.recs = d.recs := by
  rw [← d.laneRate_headTaken n rest] at hm ⊢
  rw [← d.flag_headTaken n rest] at hi
  obtain ⟨y, hy, hsend⟩ := Dev.txSend_plain (d := d.headTaken n rest) (n := n) hm hi e.sel e.sym
  dsimp only
  rw [hsend]
  refine ⟨?_, ?_, ?_, ?_⟩
  · rw [Dev.laneOf_sentNoted, Dev.laneOf_emit, Dev.laneOf_setStim, Dev.laneOf_headTaken]
  · rw [Dev.out_sentNoted]
    exact Dev.mem_out_emit _ _
  · rw [Dev.hist_sentNoted, Dev.stimOf_emit, Dev.stimOf_setStim, hy, d.headTaken_stimOf]
  · rw [Dev.recs_sentNoted, Dev.recs_emit, Dev.recs_setStim, Dev.recs_headTaken]

theorem passThroughSymbol_sends {s : State} {n : Fin 64} (hrst : s.dev.rst = .running) {e : TxEnt} {rest : List TxEnt}
    (hq : (s.dev.laneOf n).txq = e :: rest) (hs : e.sel ≤ s.dev.ck) (ha : s.dev.actionsCome = false) (hr : (s.dev.stimOf n).run = none)
    (hp : (s.dev.stimOf n).pend = []) (hk : (s.dev.stimOf n).k28 = none) (hd : (s.dev.stimOf n).rd = none) (hl : s.dev.plays = [])
    (hi : s.dev.flag (Pg.lane n) F.LANE_CFG_TX_INV = false) (hm : ∀ row, rateRow (s.dev.laneRate n) = some row → row.pam4 = false) :
    ∃ t, exec (.passThroughSymbol n) s = .next t ∧ (t.dev.laneOf n).txq = rest
      ∧ Out.tx n (e.sel + 6 + txLat (s.dev.laneRate n)) (some e.sym) ∈ t.dev.out
      ∧ (t.dev.stimOf n).hist = (e.num, e.lp, e.samp, e.pin) :: (s.dev.stimOf n).hist ∧ t.dev.recs = s.dev.recs := by
  obtain ⟨htxq, hout, hhist, hrecs⟩ := (s.dev.begin (.passThroughSymbol n)).headTaken_sends n e rest hm hi
  refine ⟨_, exec_passThroughSymbol n hrst, ?_, ?_, ?_, ?_⟩ <;>
    rw [Dev.passThroughSymbol_plain (d := s.dev.begin (.passThroughSymbol n)) hq hs ha hr hp hk hd hl]
  · rw [Dev.laneOf_settle, htxq]
  · rw [Dev.settle_out]
    exact hout
  · rw [Dev.stimOf_settle, hhist]
    rfl
  · rw [Dev.recs_of_rest (Dev.rest_settle _), hrecs]
    rfl

/-- Settles O35: a symbol's stamp through `Dev.SameClock`, its record through `Dev.RecordOpen`, the head of the hold line as it is sent. -/
theorem symbolsReachTheStream : Obligations.SymbolsReachTheStream := by
  intro n s hr d pg x
  refine ⟨fun theta buf sym h => ?_, fun theta buf w ha hc hu hi hd hp hs hf ho hn hl => ?_, fun theta buf bs k ha hu hd hp hf ho hb => ?_,
    fun e rest hq hs ha hrun hp hk hd hl hi hm => passThroughSymbol_sends hr hq hs ha hrun hp hk hd hl hi hm, fun e rest hq h => ?_⟩
  · rw [exec_laneSymbol n theta buf sym hr]
    obtain ⟨ha, hc⟩ | hfit := h
    · exact congrArg s.becomes (Dev.laneSymbol_unlocked (d := s.dev.fresh) theta buf sym ha hc)
    · exact congrArg s.becomes (Dev.laneSymbol_misfit (d := s.dev.fresh) theta buf hfit)
  · obtain ⟨t, ht, hcount, hlast, hrec⟩ := laneSymbol_raw_stream hr theta buf w ha hc hu hi hd hp hs hf ho hn hl
    exact ⟨t, ht, hcount, hlast, hrec.isOpen, hrec.stamp, hrec.payload, hrec.lane⟩
  · obtain ⟨houtside, t, ht, hlast, hrec⟩ := laneSymbol_user_stream hr theta buf bs k ha hu hd hp hf ho hb
    exact ⟨houtside, t, ht, hlast, hrec.isOpen, hrec.stamp, hrec.payload, hrec.lane⟩
  · rw [exec_passThroughSymbol n hr]
    exact congrArg s.becomes (Dev.passThroughSymbol_early (d := s.dev.begin (.passThroughSymbol n)) hq h)

end Sys2Proof.Machine
end

section
/-! PROOFS. A WRITE of the flow table that the other half's WRITE of the same CK stands against (R134): the refutation of O37. -/

namespace Sys2Proof.Machine

/-- FLOW_WRITE of an unpaired device writes the table at once. -/
theorem exec_flowWrite {s : State} (h : Half) (hr : s.dev.rst = .running) (hu : s.dev.unpaired) :
    exec (.flowWrite h) s = s.becomes (s.dev.fresh.flowWrite h.val) := by
  change s.cmd (fun d => d.swGate (raddr (Pg.flow h.val) 0x144) 1#32 (fun d => d.flowWrite h.val)) = _
  rw [s.cmd_running _ hr]
  exact congrArg s.becomes (Dev.swGate_unpaired _ _ _ _ hu)

theorem Dev.flows_of_rest {d d' : Dev} (h : d'.rest = d.rest) : d'.flows = d.flows := by
  have hf : d'.rest.flows = d.rest.flows := congrArg Dev.flows h
  exact hf

theorem Dev.flow_of_flows {d d' : Dev} (h : d'.flows = d.flows) (half f : Nat) : d'.flow half f = d.flow half f := by
  unfold Dev.flow
  rw [h]

theorem Dev.flow_setFlow (d : Dev) (h f : Nat) (x : BitVec 512) : (d.setFlow h f x).flow h f = x := sget_sset_same _ _ _ _

/-- The other half's WRITE of the same CK is undone: its entry stands as it was before that CK (R134). -/
theorem Dev.flow_flowClash {d : Dev} {h f : Nat} {x : BitVec 512 × LossRun} (hw : d.log.flowWas.lookup (flowKey (1 - h) f) = some x)
    (hf : f ≠ 0) (he : d.flowEn (1 - h) f = true) : (d.flowClash h f).flow (1 - h) f = x.1 := by
  unfold Dev.flowClash
  rw [hw]
  dsimp only
  rw [if_pos ⟨hf, he⟩, Dev.flow_of_flows (Dev.flows_of_rest (Dev.rest_setFld _ _ _ _)), Dev.flow_of_flows (Dev.flows_of_rest (Dev.rest_err _ _ _ _))]
  exact d.flow_setFlow (1 - h) f x.1

/-- A WRITE with EN 1 and RETAIN 3 is refused, whatever else of R134 it meets, once it has stood against the other half's. -/
theorem Dev.flowWrite_retain {d : Dev} {h f : Nat} {e : BitVec 512} (hf : d.fld (Pg.flow h) F.FLOW_IDX_IDX = f)
    (hx : d.window 512 (Pg.flow h) 0x104 16 = e) (hen : eget e FL_EN = 1) (hret : eget e FL_RETAIN = 3) :
    ∃ es, d.flowWrite h = ((d.flowClash h f).errs (Pg.flow h) es).setFld (Pg.flow h) F.FLOW_CMD_STATUS 2 := by
  unfold Dev.flowWrite
  dsimp only
  rw [hf, hx, if_pos hen]
  exact ⟨_, if_pos (by simp [hret])⟩

/-- In a CK in which the other half's table took a WRITE that enabled the flow, a WRITE with EN 1 and RETAIN 3 is refused and undoes that one. -/
theorem flowWrite_undoes_other {s : State} {h : Half} {f : Nat} {e : BitVec 512} {x : BitVec 512 × LossRun} (hr : s.dev.rst = .running)
    (hu : s.dev.unpaired) (hi : s.dev.fld (Pg.flow h.val) F.FLOW_IDX_IDX = f) (hx : s.dev.window 512 (Pg.flow h.val) 0x104 16 = e)
    (hen : eget e FL_EN = 1) (hret : eget e FL_RETAIN = 3) (hf : f ≠ 0) (he : s.dev.flowEn (1 - h.val) f = true)
    (hw : s.dev.log.flowWas.lookup (flowKey (1 - h.val) f) = some x) :
    ∃ t, exec (.flowWrite h) s = .next t ∧ t.dev.flow (1 - h.val) f = x.1 := by
  obtain ⟨es, hes⟩ := Dev.flowWrite_retain (d := s.dev.fresh) hi hx hen hret
  refine ⟨_, exec_flowWrite h hr hu, ?_⟩
  rw [Dev.flow_of_flows (Dev.flows_of_rest (Dev.rest_settle _)), hes,
    Dev.flow_of_flows (Dev.flows_of_rest ((Dev.rest_setFld _ _ _ _).trans (Dev.rest_errs _ _ _)))]
  exact Dev.flow_flowClash (d := s.dev.fresh) hw hf he

/-! The counterexample: in one CK the South's table takes a WRITE that enables flow 1, then the North's is written with the same flow and
RETAIN 3, for which it is refused. -/

/-- An entry that enables its flow. -/
def enablingEntry : BitVec 512 := eput (eput (0 : BitVec 512) FL_EN 1) FL_WEIGHT 1

/-- The same with the RETAIN that R134 refuses. -/
def refusedEntry : BitVec 512 := eput enablingEntry FL_RETAIN 3

/-- Both windows stand at flow 1, each with its entry. -/
def windowsSet : Dev :=
  ((((({} : Dev).setFld (Pg.flow 0) F.FLOW_IDX_IDX 1).setWindow (Pg.flow 0) 0x104 16 refusedEntry).setFld (Pg.flow 1) F.FLOW_IDX_IDX 1).setWindow
    (Pg.flow 1) 0x104 16 enablingEntry)

/-- The block after the South's WRITE. -/
def southWritten : Dev := (windowsSet.fresh.flowWrite 1).settle

theorem exec_southWrite : exec (.flowWrite 1) ⟨windowsSet, []⟩ = .next ⟨southWritten, []⟩ :=
  exec_flowWrite (s := ⟨windowsSet, []⟩) 1 (by decide +kernel) (by unfold Dev.unpaired; decide +kernel)

theorem southWritten_runs : southWritten.rst = .running ∧ southWritten.unpaired := by unfold Dev.unpaired; decide +kernel

/-- What the North's WRITE finds: the refused entry in its window, flow 1 enabled in the South's table, and disabled there before this CK. -/
theorem southWritten_finds : southWritten.fld (Pg.flow 0) F.FLOW_IDX_IDX = 1
    ∧ southWritten.window 512 (Pg.flow 0) 0x104 16 = refusedEntry ∧ southWritten.flowEn 1 1 = true
    ∧ southWritten.log.flowWas.lookup (flowKey 1 1) = some (flowReset 1, {}) := by decide +kernel

theorem refusedEntry_fields : eget refusedEntry FL_EN = 1 ∧ eget refusedEntry FL_RETAIN = 3 := by decide +kernel
theorem flowReset_disabled : eget (flowReset 1) FL_EN = 0 := by decide +kernel

/-- The North's refused WRITE leaves flow 1 disabled in the South's table, where it was enabled. -/
theorem northWrite_changes : ∃ t, exec (.flowWrite 0) ⟨southWritten, []⟩ = .next t ∧ t.dev.flows ≠ southWritten.flows := by
  obtain ⟨hr, hu⟩ := southWritten_runs
  obtain ⟨hi, hx, he, hw⟩ := southWritten_finds
  obtain ⟨hen, hret⟩ := refusedEntry_fields
  obtain ⟨t, ht, hflow⟩ := flowWrite_undoes_other (s := ⟨southWritten, []⟩) (h := 0) hr hu hi hx hen hret (by decide) he hw
  have hundone : t.dev.flow 1 1 = flowReset 1 := hflow
  refine ⟨t, ht, fun hkept => ?_⟩
  have hon : eget (southWritten.flow 1 1) FL_EN = 1 := of_decide_eq_true he
  have hoff : eget (southWritten.flow 1 1) FL_EN = 0 := by
    rw [← Dev.flow_of_flows hkept, hundone]
    exact flowReset_disabled
  exact absurd (hon.symm.trans hoff) (by decide)

/-- Refutes O37: a WRITE with RETAIN 3 does change the tables where the other half's table took a WRITE that enabled the flow in the same
CK, for R134 undoes that one too. -/
theorem not_tableWindows : ¬ Obligations.TableWindows := by
  intro h
  obtain ⟨hr, hu⟩ := southWritten_runs
  obtain ⟨-, hx, -, -⟩ := southWritten_finds
  obtain ⟨-, hret⟩ := refusedEntry_fields
  obtain ⟨-, -, -, hflow⟩ := h ⟨southWritten, []⟩ hr hu
  obtain ⟨-, -, -, hrefused⟩ := hflow 0
  have hwin : eget (southWritten.window 512 (Pg.flow 0) 0x104 16) FL_RETAIN = 3 := by
    rw [hx]
    exact hret
  obtain ⟨t, ht, hkept, -⟩ := hrefused hwin
  obtain ⟨u, hu, hne⟩ := northWrite_changes
  rw [ht] at hu
  cases hu
  exact hne hkept

end Sys2Proof.Machine
end

section
/-! PROOFS. The line position counters beyond their registers: what the operations on registers, records and windows leave of a half's
counter, and operations on both halves (R66 to R73). -/

namespace Sys2Proof.Machine

/-! A half's counter. -/

theorem Dev.lpcOf_setLpc (d : Dev) (h : Nat) (x : LpcSt) : (d.setLpc h x).lpcOf h = x := sget_sset_same _ _ _ _
theorem Dev.lpcOf_setLpc_ne (d : Dev) {h i : Nat} (x : LpcSt) (hi : i ≠ h) : (d.setLpc h x).lpcOf i = d.lpcOf i := sget_sset_ne _ _ _ _ hi.symm
theorem Dev.regs_setLpc (d : Dev) (h : Nat) (x : LpcSt) : (d.setLpc h x).regs = d.regs := (rfl)

theorem Dev.lpcOf_of_lpc {d d' : Dev} (h : d'.lpc = d.lpc) (i : Nat) : d'.lpcOf i = d.lpcOf i := by
  unfold Dev.lpcOf
  rw [h]

theorem Dev.lpc_of_rest {d d' : Dev} (h : d'.rest = d.rest) : d'.lpc = d.lpc := by
  have hl : d'.rest.lpc = d.rest.lpc := congrArg Dev.lpc h
  exact hl

theorem Dev.lpcOf_of_rest {d d' : Dev} (h : d'.rest = d.rest) (i : Nat) : d'.lpcOf i = d.lpcOf i := Dev.lpcOf_of_lpc (Dev.lpc_of_rest h) i

theorem Dev.lpcOf_setFld (d : Dev) (pg : Nat) (f : Fld) (v i : Nat) : (d.setFld pg f v).lpcOf i = d.lpcOf i :=
  Dev.lpcOf_of_lpc (d.setFld_lpc pg f v) i
theorem Dev.lpcOf_setLpcState (d : Dev) (h st i : Nat) : (d.setLpcState h st).lpcOf i = d.lpcOf i := d.lpcOf_setFld _ _ _ _

theorem Dev.lpcOf_setRate (d : Dev) (h r i : Nat) : (d.setRate h r).lpcOf i = d.lpcOf i := by
  unfold Dev.setRate
  rw [Dev.lpcOf_setFld, Dev.lpcOf_setFld]

theorem Dev.lpcOf_showFollower (d : Dev) (i : Nat) : d.showFollower.lpcOf i = d.lpcOf i := by
  unfold Dev.showFollower
  dsimp only
  rw [Dev.lpcOf_setFld, Dev.lpcOf_setFld]

theorem Dev.lpcOf_newWindow (d : Dev) (h i : Nat) : (d.newWindow h).lpcOf i = d.lpcOf i := (rfl)
theorem Dev.lpcOf_sched (d : Dev) (k : Nat) (e : Instr) (i : Nat) : (d.sched k e).lpcOf i = d.lpcOf i := (rfl)
theorem Dev.lpcOf_bump (d : Dev) (pg : Nat) (f : Fld) (i : Nat) : (d.bump pg f).lpcOf i = d.lpcOf i := Dev.lpcOf_of_rest (d.rest_bump pg f) i
theorem Dev.lpcOf_pend (d : Dev) (pg k i : Nat) : (d.pend pg k).lpcOf i = d.lpcOf i := Dev.lpcOf_of_rest (d.rest_pend pg k) i
theorem Dev.lpcOf_settle (d : Dev) (i : Nat) : d.settle.lpcOf i = d.lpcOf i := Dev.lpcOf_of_rest d.rest_settle i

theorem Dev.lpc_of_lineView {d d' : Dev} (h : d'.lineView = d.lineView) : d'.lpc = d.lpc := congrArg (fun v => v.2.2.2) h

/-- A counter's line event is a record (R74): it moves no register and no counter. -/
theorem Dev.regs_lpcEvent (d : Dev) (h cause : Nat) (old new : LP) : (d.lpcEvent h cause old new).regs = d.regs := Dev.regs_toQueue _ _ _

theorem Dev.lpcOf_lpcEvent (d : Dev) (h cause : Nat) (old new : LP) (i : Nat) : (d.lpcEvent h cause old new).lpcOf i = d.lpcOf i :=
  Dev.lpcOf_of_lpc (Dev.lpc_of_lineView (Dev.lineView_toQueue _ _ _)) i

/-! A half's page. -/

theorem Dev.lpcState_of_view {d d' : Dev} (h : d'.lpcView = d.lpcView) (i : Nat) : d'.lpcState i = d.lpcState i :=
  congrFun (congrArg Prod.fst h) i
theorem Dev.refSrc_of_view {d d' : Dev} (h : d'.lpcView = d.lpcView) : d'.refSrc = d.refSrc := congrArg Prod.snd h

theorem Dev.lpcView_bump (d : Dev) (h : Nat) {f : Fld} (hf : f.off < 4096) (hs : f.off ≠ 0x00C) (hr : f.off ≠ 0x100) :
    (d.bump (Pg.lpc h) f).lpcView = d.lpcView := d.lpcView_setReg_off _ _ hf hs hr

theorem Dev.reg_settle_lpc (d : Dev) (h : Nat) {off : Nat} (ho : off < 4096) : d.settle.reg (Pg.lpc h) off = d.reg (Pg.lpc h) off := by
  have hl : Pg.lpc h = 80 + h := rfl
  have hp : Pg.pair = 7 := rfl
  exact d.reg_settle _ _ (fun e => absurd (raddr_inj (by decide) ho e).1 (by omega))

theorem Dev.fld_settle_lpc (d : Dev) (h : Nat) {f : Fld} (hf : f.off < 4096) : d.settle.fld (Pg.lpc h) f = d.fld (Pg.lpc h) f := by
  unfold Dev.fld
  rw [d.reg_settle_lpc h hf]

theorem Dev.lpcState_setLpcState (d : Dev) (h : Nat) {st : Nat} (hst : st < 8) : (d.setLpcState h st).lpcState h = st :=
  (d.fld_setFld _ _ _ (by decide)).trans (Nat.mod_eq_of_lt hst)

theorem Dev.lpcState_of_regs {d d' : Dev} (h : d'.regs = d.regs) (i : Nat) : d'.lpcState i = d.lpcState i :=
  Dev.lpcState_of_view (Dev.lpcView_of_regs h) i

/-- The start of a command leaves the clock. -/
theorem Dev.sameClock_begin (d : Dev) (i : Instr) : d.SameClock (d.begin i) :=
  ⟨rfl, fun _ _ _ => rfl, fun _ => Dev.laneTau_congr rfl rfl⟩
theorem Dev.sameClock_fresh (d : Dev) : d.SameClock d.fresh := ⟨rfl, fun _ _ _ => rfl, fun _ => Dev.laneTau_congr rfl rfl⟩

/-- A register of one half's page and one of the other's. -/
theorem raddr_lpc_ne {h i off off' : Nat} (ho : off < 4096) (ho' : off' < 4096) (hi : i ≠ h) : raddr (Pg.lpc h) off ≠ raddr (Pg.lpc i) off' :=
  fun e => hi (Nat.add_left_cancel (raddr_inj ho ho' e).1).symm

theorem pendMaskOf_lpc (h : Half) : pendMaskOf (Pg.lpc h.val) = 0xF := by
  unfold pendMaskOf
  rw [blkOfPage_page .lpc h.val h.isLt]
  rfl

theorem Dev.bit_pend_lpc (d : Dev) (h : Half) (k : Fin 4) : bit ((d.pend (Pg.lpc h.val) k).reg (Pg.lpc h.val) 0x010).toNat k = true := by
  have hk : ∀ k : Fin 4, (BitVec.ofNat 32 (2 ^ k.val &&& 0xF)).toNat.testBit k = true := by decide
  have hor : bit ((d.pend (Pg.lpc h.val) k).reg (Pg.lpc h.val) 0x010).toNat k
      = (bit (d.reg (Pg.lpc h.val) 0x010).toNat k || (BitVec.ofNat 32 (2 ^ k.val &&& 0xF)).toNat.testBit k) := by
    rw [Dev.pend, Dev.reg_pendBits, pendMaskOf_lpc, BitVec.toNat_or]
    exact Nat.testBit_or _ _ _
  rw [hor, hk k, Bool.or_true]

/-! RATE and its windows (R69). -/

theorem Dev.regs_newWindow (d : Dev) (h : Nat) : (d.newWindow h).regs = d.regs := (rfl)

theorem Dev.ck_setRate (d : Dev) (h r : Nat) : (d.setRate h r).ck = d.ck := by
  unfold Dev.setRate
  rw [Dev.setFld_ck, Dev.setFld_ck]

theorem Dev.regs_startWindow (d : Dev) (h : Nat) : (d.startWindow h).regs = d.regs := (rfl)

theorem Dev.lpcOf_startWindow (d : Dev) (h : Nat) :
    (d.startWindow h).lpcOf h = { d.lpcOf h with winCk := d.ck, winL := d.posAt h (ckTime d.ck) } := d.lpcOf_setLpc _ _

theorem halfOf_val (h : Half) : halfOf h.val = h := by
  revert h
  decide

theorem Dev.startWindow_scheds (d : Dev) (h : Half) : (d.ck + 4096, .lpcRateWindow h) ∈ (d.startWindow h.val).agenda := by
  unfold Dev.startWindow
  rw [halfOf_val]
  exact Dev.mem_sched _ _ _

/-- RATE holds 40 bits. -/
theorem Dev.lpcRate_setRate (d : Dev) (h : Nat) {r : Nat} (hr : r < 2 ^ 40) : (d.setRate h r).lpcRate h = r := by
  have hlo : (d.setRate h r).fld (Pg.lpc h) F.LPC_RATE_LO = r % 2 ^ 32 % 2 ^ 32 :=
    (Dev.fld_setFld_ne _ _ _ _ (raddr_ne (by decide))).trans (Dev.fld_setFld _ _ _ _ (by decide))
  have hhi : (d.setRate h r).fld (Pg.lpc h) F.LPC_RATE_HI_INT = r / 2 ^ 32 % 2 ^ 8 := Dev.fld_setFld _ _ _ _ (by decide)
  unfold Dev.lpcRate
  rw [hlo, hhi, Nat.mod_mod, Nat.mod_eq_of_lt (a := r / 2 ^ 32) (by omega)]
  omega

theorem Dev.lpcRate_of_regs {d d' : Dev} (h : d'.regs = d.regs) (i : Nat) : d'.lpcRate i = d.lpcRate i := by
  unfold Dev.lpcRate
  rw [Dev.fld_of_regs h, Dev.fld_of_regs h]

theorem Dev.lpcRate_settle (d : Dev) (i : Nat) : d.settle.lpcRate i = d.lpcRate i := by
  unfold Dev.lpcRate
  rw [d.fld_settle_lpc i (by decide), d.fld_settle_lpc i (by decide)]

/-! Both halves at once. -/

/-- Each half's counter takes its own value. -/
def Dev.setBoth (d : Dev) (x : Nat → LpcSt) : Dev := (d.setLpc 0 (x 0)).setLpc 1 (x 1)

theorem Dev.regs_setBoth (d : Dev) (x : Nat → LpcSt) : (d.setBoth x).regs = d.regs := (rfl)
theorem Dev.agenda_setBoth (d : Dev) (x : Nat → LpcSt) : (d.setBoth x).agenda = d.agenda := (rfl)
theorem Dev.ck_setBoth (d : Dev) (x : Nat → LpcSt) : (d.setBoth x).ck = d.ck := (rfl)

theorem Dev.lpcOf_setBoth (d : Dev) (x : Nat → LpcSt) {i : Nat} (hi : i < 2) : (d.setBoth x).lpcOf i = x i := by
  unfold Dev.setBoth
  obtain rfl | rfl : i = 0 ∨ i = 1 := by omega
  · rw [Dev.lpcOf_setLpc_ne _ _ (by decide), Dev.lpcOf_setLpc]
  · rw [Dev.lpcOf_setLpc]

/-- An operation on both halves whose step sets a half's counter from that counter and the registers alone. -/
theorem Dev.foldl_halves {d : Dev} {f : Dev → Nat → Dev} {x : Nat → LpcSt}
    (hf : ∀ (e : Dev) (i : Nat), i < 2 → e.regs = d.regs → e.lpcOf i = d.lpcOf i → f e i = e.setLpc i (x i)) : [0, 1].foldl f d = d.setBoth x := by
  rw [List.foldl_cons, List.foldl_cons, List.foldl_nil, hf d 0 (by decide) rfl rfl,
    hf (d.setLpc 0 (x 0)) 1 (by decide) rfl (Dev.lpcOf_setLpc_ne _ _ (by decide))]
  rfl

/-- A jump waits in both halves, neither of which runs alone. -/
theorem Dev.jumpIn_both {d : Dev} (ha : ∀ i, i < 2 → (d.lpcOf i).alone = false) (j : LpcJump) :
    d.jumpIn j = d.setBoth (fun i => { d.lpcOf i with await := if j.locks then 0 else (d.lpcOf i).await, jumps := (d.lpcOf i).jumps ++ [j] }) := by
  refine Dev.foldl_halves (fun e i hi _ hx => ?_)
  dsimp only
  rw [hx, if_neg (by rw [ha i hi]; decide)]

end Sys2Proof.Machine
end

section
/-! PROOFS. What moves the line position counters: first anchors, rate windows, LREF edges, losses, the follower (R67 to R73, R77, R78). -/

namespace Sys2Proof.Machine

/-! The commands. -/

theorem exec_lpcFirstAnchor {s : State} (h : Half) (hr : s.dev.rst = .running) :
    exec (.lpcFirstAnchor h) s = s.becomes ((s.dev.begin (.lpcFirstAnchor h)).lpcFirstAnchor h.val) := s.run_running _ _ hr
theorem exec_lpcRateWindow {s : State} (h : Half) (hr : s.dev.rst = .running) :
    exec (.lpcRateWindow h) s = s.becomes ((s.dev.begin (.lpcRateWindow h)).lpcRateWindow h.val) := s.run_running _ _ hr
theorem exec_lrefEdge {s : State} (theta : BitVec 8) (mark : Bool) (hr : s.dev.rst = .running) :
    exec (.lrefEdge theta mark) s = s.becomes (s.dev.fresh.lrefEdge (ckTime s.dev.ck - (theta.toNat : Int) * 2 ^ 12) mark) :=
  s.cmd_running _ hr
theorem exec_lrefTimeout {s : State} (hr : s.dev.rst = .running) :
    exec .lrefTimeout s = s.becomes (s.dev.begin .lrefTimeout).lrefTimeout := s.run_running _ _ hr
theorem exec_lpcAlignWord {s : State} (h : Half) (hr : s.dev.rst = .running) :
    exec (.lpcAlignWord h) s = s.becomes ((s.dev.begin (.lpcAlignWord h)).lpcAlignWord h.val) := s.run_running _ _ hr
theorem exec_followerFreewheel {s : State} (h : Half) (hr : s.dev.rst = .running) :
    exec (.followerFreewheel h) s = s.becomes ((s.dev.begin (.followerFreewheel h)).followerFreewheel h.val) := s.run_running _ _ hr

/-! A first anchor (R70). -/

/-- The counter takes a first anchor's instants and locks. -/
def Dev.anchored (d : Dev) (h : Nat) (j : LpcJump) : Dev :=
  (d.setLpc h { d.lpcOf h with track := j.track, jumps := (d.lpcOf h).jumps.drop 1, await := 0, coast := false, lag := true }).setLpcState h Lpc.locked

/-- The rate window of a counter that a jump has moved: the one under way leaves the jump out, a new lock begins its own. -/
def Dev.windowed (d : Dev) (h was : Nat) (moved : Int) : Dev :=
  if was = Lpc.locked ∨ d.lpcState h ≠ Lpc.locked then d.setLpc h { d.lpcOf h with winL := (d.lpcOf h).winL + moved } else d.startWindow h

/-- A counter but for its rate window. -/
def LpcSt.still (x : LpcSt) : LpcSt := { x with winCk := 0, winL := 0 }

theorem Dev.regs_windowed (d : Dev) (h was : Nat) (moved : Int) : (d.windowed h was moved).regs = d.regs := by
  unfold Dev.windowed
  split <;> rfl

theorem Dev.lpcOf_windowed (d : Dev) (h was : Nat) (moved : Int) : ((d.windowed h was moved).lpcOf h).still = (d.lpcOf h).still := by
  unfold Dev.windowed
  split
  · rw [Dev.lpcOf_setLpc]
    rfl
  · rw [Dev.lpcOf_startWindow]
    rfl

theorem Dev.applyJump_first {d : Dev} {h : Nat} {j : LpcJump} (hc : j.cause = 1) (hl : j.lost = false) : ∃ was moved old new,
    d.applyJump h j = ((((d.anchored h j).windowed h was moved).pend (Pg.lpc h) 3).newWindow h).lpcEvent h 1 old new := by
  obtain ⟨due, cause, track, shift, lost⟩ := j
  obtain rfl : cause = 1 := hc
  obtain rfl : lost = false := hl
  exact ⟨_, _, _, _, rfl⟩

theorem Dev.lpcFirstAnchor_due {d : Dev} {h : Nat} {j : LpcJump} {rest : List LpcJump} (hj : (d.lpcOf h).jumps = j :: rest) (hc : j.cause = 1)
    (hd : j.due ≤ d.ck) : d.lpcFirstAnchor h = d.applyJump h j := by
  unfold Dev.lpcFirstAnchor
  rw [hj]
  exact if_pos ⟨hc, hd⟩

/-- What a first anchor that takes effect leaves of the half. -/
theorem Dev.firstAnchor_locks {d : Dev} {h : Half} {j : LpcJump} {rest : List LpcJump} (hj : (d.lpcOf h.val).jumps = j :: rest)
    (hc : j.cause = 1) (hl : j.lost = false) : (d.applyJump h.val j).lpcState h.val = Lpc.locked
      ∧ ((d.applyJump h.val j).lpcOf h.val).track = j.track ∧ ((d.applyJump h.val j).lpcOf h.val).jumps = rest
      ∧ bit ((d.applyJump h.val j).reg (Pg.lpc h.val) 0x010).toNat 3 = true := by
  obtain ⟨was, moved, old, new, he⟩ := Dev.applyJump_first (d := d) (h := h.val) hc hl
  have hstill := (d.anchored h.val j).lpcOf_windowed h.val was moved
  have hx : ((d.anchored h.val j).windowed h.val was moved).lpcOf h.val = (d.applyJump h.val j).lpcOf h.val := by
    rw [he, Dev.lpcOf_lpcEvent, Dev.lpcOf_newWindow, Dev.lpcOf_pend]
  rw [hx, Dev.anchored, Dev.lpcOf_setLpcState, Dev.lpcOf_setLpc] at hstill
  refine ⟨?_, congrArg LpcSt.track hstill, (congrArg LpcSt.jumps hstill).trans (congrArg (List.drop 1) hj), ?_⟩
  · have hv : (d.applyJump h.val j).lpcView = (d.anchored h.val j).lpcView := by
      rw [he, Dev.lpcView_lpcEvent, Dev.lpcView_newWindow, Dev.lpcView_pend, Dev.lpcView_of_regs (Dev.regs_windowed _ _ _ _)]
    rw [Dev.lpcState_of_view hv]
    exact Dev.lpcState_setLpcState _ _ (by decide)
  · rw [he, Dev.reg_congr (Dev.regs_lpcEvent _ _ _ _ _), Dev.reg_congr (Dev.regs_newWindow _ _)]
    exact Dev.bit_pend_lpc _ h 3

theorem lpcFirstAnchor_locks {s : State} (hr : s.dev.rst = .running) {h : Half} {j : LpcJump} {rest : List LpcJump}
    (hj : (s.dev.lpcOf h.val).jumps = j :: rest) (hc : j.cause = 1) (hd : j.due ≤ s.dev.ck) (hl : j.lost = false) :
    ∃ t, exec (.lpcFirstAnchor h) s = .next t ∧ t.dev.lpcState h.val = Lpc.locked ∧ (t.dev.lpcOf h.val).track = j.track
      ∧ (t.dev.lpcOf h.val).jumps = rest ∧ bit (t.dev.reg (Pg.lpc h.val) 0x010).toNat 3 = true := by
  obtain ⟨hst, htrack, hjumps, hbit⟩ := Dev.firstAnchor_locks (d := s.dev.begin (.lpcFirstAnchor h)) hj hc hl
  refine ⟨_, exec_lpcFirstAnchor h hr, ?_, ?_, ?_, ?_⟩ <;> rw [Dev.lpcFirstAnchor_due (d := s.dev.begin (.lpcFirstAnchor h)) hj hc hd]
  · rw [Dev.lpcState_settle, hst]
  · rw [Dev.lpcOf_settle, htrack]
  · rw [Dev.lpcOf_settle, hjumps]
  · rw [Dev.reg_settle_lpc _ _ (by decide), hbit]

/-! A rate window ends (R69). -/

/-- RATE as a complete window gives it: the mean advance of its 4,096 CK. -/
def Dev.windowRate (d : Dev) (h : Nat) : Nat := ((d.posAt h (ckTime d.ck) - (d.lpcOf h).winL) / 4096).toNat % 2 ^ 40

theorem Dev.windowRate_begin (d : Dev) (i : Instr) (h : Nat) : (d.begin i).windowRate h = d.windowRate h := by
  unfold Dev.windowRate
  rw [(d.sameClock_begin i).posAt, (d.sameClock_begin i).lpcOf, Dev.begin_ck]

theorem Dev.windowRate_lt (d : Dev) (h : Nat) : d.windowRate h < 2 ^ 40 := Nat.mod_lt _ (by decide)

theorem Dev.lpcRateWindow_locked {d : Dev} {h : Nat} (hs : d.lpcState h = Lpc.locked) :
    d.lpcRateWindow h = (d.setRate h (d.windowRate h)).startWindow h := if_neg (fun hn => hn hs)

theorem lpcRateWindow_loads {s : State} (hr : s.dev.rst = .running) {h : Half} (hs : s.dev.lpcState h.val = Lpc.locked) :
    ∃ t, exec (.lpcRateWindow h) s = .next t ∧ t.dev.lpcRate h.val = s.dev.windowRate h.val ∧ (t.dev.lpcOf h.val).winCk = s.dev.ck
      ∧ (s.dev.ck + 4096, .lpcRateWindow h) ∈ t.dev.agenda := by
  refine ⟨_, exec_lpcRateWindow h hr, ?_, ?_, ?_⟩ <;> rw [Dev.lpcRateWindow_locked (d := s.dev.begin (.lpcRateWindow h)) hs]
  · rw [Dev.lpcRate_settle, Dev.lpcRate_of_regs (Dev.regs_startWindow _ _), Dev.lpcRate_setRate _ _ (Dev.windowRate_lt _ _), Dev.windowRate_begin]
  · rw [Dev.lpcOf_settle, Dev.lpcOf_startWindow, Dev.ck_setRate, Dev.begin_ck]
  · have hm := Dev.startWindow_scheds ((s.dev.begin (.lpcRateWindow h)).setRate h.val ((s.dev.begin (.lpcRateWindow h)).windowRate h.val)) h
    rw [Dev.ck_setRate, Dev.begin_ck] at hm
    rw [Dev.settle_agenda]
    exact hm

/-! An LREF edge (R67, R72). -/

/-- The LREF timer starts again with an edge. -/
def Dev.edgeTimed (d : Dev) : Dev := ({ d with agenda := agendaDrop .lrefTimeout d.agenda } : Dev).sched 64 .lrefTimeout

/-- Both halves follow the reference: none of them runs alone, nothing is awaited and no jump waits. -/
structure Dev.follows (d : Dev) : Prop where
  locked : ∀ h, h < 2 → d.lpcState h = Lpc.locked
  jumps : ∀ h, h < 2 → (d.lpcOf h).jumps = []
  await : ∀ h, h < 2 → (d.lpcOf h).await = 0
  coast : ∀ h, h < 2 → (d.lpcOf h).coast = false
  alone : ∀ h, h < 2 → (d.lpcOf h).alone = false

/-- Both counters take the edge's instant, `k` symbols on. -/
theorem Dev.refAdvance_both {d : Dev} (hf : d.follows) (t : Int) (k : Nat) :
    d.refAdvance t k = d.setBoth (fun i => { d.lpcOf i with track := (d.lpcOf i).track.add t ((k : Int) * 2 ^ 32) }) := by
  unfold Dev.refAdvance
  refine Dev.foldl_halves (fun e i hi hregs hx => ?_)
  have hj : (e.lpcOf i).jumps = [] := by rw [hx, hf.jumps i hi]
  dsimp only
  rw [if_neg (by rw [hx, hf.alone i hi]; decide), if_pos ⟨by rw [Dev.lpcState_of_regs hregs, hf.locked i hi], by rw [hx, hf.coast i hi]⟩, hj, hx]
  rw [List.map_nil, ← hf.jumps i hi]

theorem Dev.follows.regs_only {d e : Dev} (hf : d.follows) (hr : e.regs = d.regs) (hl : e.lpc = d.lpc) : e.follows := by
  have hx : ∀ i, e.lpcOf i = d.lpcOf i := Dev.lpcOf_of_lpc hl
  refine ⟨fun i hi => ?_, fun i hi => ?_, fun i hi => ?_, fun i hi => ?_, fun i hi => ?_⟩
  · rw [Dev.lpcState_of_regs hr, hf.locked i hi]
  · rw [hx, hf.jumps i hi]
  · rw [hx, hf.await i hi]
  · rw [hx, hf.coast i hi]
  · rw [hx, hf.alone i hi]

/-- The symbols of an LREF edge; the position the counters stand at with the next one. -/
def Dev.lrefDiv (d : Dev) : Nat := d.fld (Pg.lpc 0) F.LPC_REF_LREF_DIV
def Dev.nextEdge (d : Dev) : Int := (d.lpcOf 0).track.l0 + (d.lrefDiv : Int) * 2 ^ 32

theorem Dev.nextEdge_fresh (d : Dev) : d.fresh.nextEdge = d.nextEdge := (rfl)

/-- An edge in counters that follow: the timer starts again, both counters advance. -/
def Dev.edged (d : Dev) (t : Int) : Dev :=
  d.edgeTimed.setBoth (fun i => { d.lpcOf i with track := (d.lpcOf i).track.add t ((d.lrefDiv : Int) * 2 ^ 32) })

/-- A marker where none belongs: it counts, and the counters jump to the nearest boundary 4 CK later (R72). -/
def Dev.slipped (d : Dev) (t p : Int) (k : Nat) : Dev :=
  ((d.bump (Pg.lpc 0) F.LPC_MARK_SLIP_CNT).pend (Pg.lpc 0) 2).anchorAt 4 t (roundPos p k)

theorem Dev.lrefEdge_following {d : Dev} (hs : d.refSrc = 1) (hf : d.follows) (t : Int) (mark : Bool) : d.lrefEdge t mark
    = if mark = true ∧ d.nextEdge % 2 ^ (32 + d.fld (Pg.lpc 0) F.LPC_REF_MARK_K) ≠ 0 then
        (d.edged t).slipped t d.nextEdge (d.fld (Pg.lpc 0) F.LPC_REF_MARK_K)
      else if ¬ mark = true ∧ d.nextEdge % 2 ^ (32 + d.fld (Pg.lpc 0) F.LPC_REF_MARK_K) = 0 then (d.edged t).bump (Pg.lpc 0) F.LPC_MARK_MISS_CNT
      else d.edged t := by
  have hl := hf.locked 0 (by decide)
  have ha := hf.await 0 (by decide)
  have hc := hf.coast 0 (by decide)
  have hadv : d.edgeTimed.refAdvance t d.lrefDiv = d.edged t := Dev.refAdvance_both (d := d.edgeTimed) (hf.regs_only rfl rfl) t d.lrefDiv
  have hidle : ¬ (d.refSrc ≠ 1 ∨ d.lpcState 0 = Lpc.idle) := by
    rw [hs, hl]
    decide
  have hst : d.edgeTimed.lpcState 0 = Lpc.locked := hl
  unfold Dev.lrefEdge
  dsimp only
  rw [if_neg hidle, ha, if_neg (by decide), if_neg (by decide), hc]
  change (if ¬ (d.edgeTimed.lpcState 0 = Lpc.locked && !false) = true then d.edgeTimed.refAdvance t d.lrefDiv
    else if mark = true ∧ _ then (d.edgeTimed.refAdvance t d.lrefDiv).slipped t d.nextEdge _ else if ¬ mark = true ∧ _ then
      (d.edgeTimed.refAdvance t d.lrefDiv).bump (Pg.lpc 0) F.LPC_MARK_MISS_CNT else d.edgeTimed.refAdvance t d.lrefDiv) = _
  rw [hadv, hst, if_neg (by decide)]
  rfl

/-! What an edge leaves of a half's counter. -/

theorem Dev.regs_edged (d : Dev) (t : Int) : (d.edged t).regs = d.regs := (rfl)
theorem Dev.ck_edged (d : Dev) (t : Int) : (d.edged t).ck = d.ck := (rfl)

theorem Dev.lpcOf_edged (d : Dev) (t : Int) {i : Nat} (hi : i < 2) :
    (d.edged t).lpcOf i = { d.lpcOf i with track := (d.lpcOf i).track.add t ((d.lrefDiv : Int) * 2 ^ 32) } :=
  Dev.lpcOf_setBoth d.edgeTimed _ hi

theorem Dev.edged_alone {d : Dev} (hf : d.follows) (t : Int) : ∀ i, i < 2 → ((d.edged t).lpcOf i).alone = false := fun i hi => by
  rw [Dev.lpcOf_edged _ _ hi]
  exact hf.alone i hi

theorem Dev.edged_scheds (d : Dev) (t : Int) : (d.ck + 64, .lrefTimeout) ∈ (d.edged t).agenda := by
  unfold Dev.edged
  rw [Dev.agenda_setBoth]
  exact Dev.mem_sched ({ d with agenda := agendaDrop .lrefTimeout d.agenda } : Dev) 64 .lrefTimeout

theorem Dev.slipped_both {d : Dev} (ha : ∀ i, i < 2 → (d.lpcOf i).alone = false) (t p : Int) (k : Nat) : d.slipped t p k
    = ((d.bump (Pg.lpc 0) F.LPC_MARK_SLIP_CNT).pend (Pg.lpc 0) 2).setBoth
        (fun i => { d.lpcOf i with jumps := (d.lpcOf i).jumps ++ [⟨d.ck + 4, 4, ⟨t, roundPos p k, []⟩, 0, false⟩] }) := by
  have hx : ∀ i, ((d.bump (Pg.lpc 0) F.LPC_MARK_SLIP_CNT).pend (Pg.lpc 0) 2).lpcOf i = d.lpcOf i := fun i => by
    rw [Dev.lpcOf_pend, Dev.lpcOf_bump]
  have hck : ((d.bump (Pg.lpc 0) F.LPC_MARK_SLIP_CNT).pend (Pg.lpc 0) 2).ck = d.ck := by
    rw [Dev.ck_of_rest (Dev.rest_pend _ _ _), Dev.bump_ck]
  unfold Dev.slipped Dev.anchorAt
  rw [Dev.jumpIn_both (fun i hi => by rw [hx, ha i hi]), hck]
  simp only [hx]
  rfl

theorem Dev.lpcOf_slipped {d : Dev} (ha : ∀ i, i < 2 → (d.lpcOf i).alone = false) (t p : Int) (k : Nat) {i : Nat} (hi : i < 2) :
    (d.slipped t p k).lpcOf i = { d.lpcOf i with jumps := (d.lpcOf i).jumps ++ [⟨d.ck + 4, 4, ⟨t, roundPos p k, []⟩, 0, false⟩] } := by
  rw [Dev.slipped_both ha, Dev.lpcOf_setBoth _ _ hi]

theorem Dev.jumps_slipped {d : Dev} (ha : ∀ i, i < 2 → (d.lpcOf i).alone = false) (t p : Int) (k : Nat) {i : Nat} (hi : i < 2) :
    ((d.slipped t p k).lpcOf i).jumps = (d.lpcOf i).jumps ++ [⟨d.ck + 4, 4, ⟨t, roundPos p k, []⟩, 0, false⟩] := by
  rw [Dev.lpcOf_slipped ha _ _ _ hi]

theorem Dev.agenda_of_rest {d d' : Dev} (h : d'.rest = d.rest) : d'.agenda = d.agenda := by
  have ha : d'.rest.agenda = d.rest.agenda := congrArg Dev.agenda h
  exact ha

theorem Dev.agenda_slipped {d : Dev} (ha : ∀ i, i < 2 → (d.lpcOf i).alone = false) (t p : Int) (k : Nat) :
    (d.slipped t p k).agenda = d.agenda := by
  rw [Dev.slipped_both ha, Dev.agenda_setBoth, Dev.agenda_of_rest (Dev.rest_pend _ _ _), Dev.bump_agenda]

theorem Dev.fld_slipped {d : Dev} (ha : ∀ i, i < 2 → (d.lpcOf i).alone = false) (t p : Int) (k : Nat) :
    (d.slipped t p k).fld (Pg.lpc 0) F.LPC_MARK_SLIP_CNT = min (d.fld (Pg.lpc 0) F.LPC_MARK_SLIP_CNT + 1) 0xFFFFFFFF := by
  rw [Dev.slipped_both ha, Dev.fld_of_regs (Dev.regs_setBoth _ _), Dev.pend, Dev.fld_pend_off _ _ _ _ (by decide) (by decide),
    Dev.fld_bump _ _ _ (by decide)]
  rfl

theorem Dev.lpcOf_lrefEdge_track {d : Dev} (hs : d.refSrc = 1) (hf : d.follows) (t : Int) (mark : Bool) {i : Nat} (hi : i < 2) :
    ((d.lrefEdge t mark).lpcOf i).track = (d.lpcOf i).track.add t ((d.lrefDiv : Int) * 2 ^ 32) := by
  rw [Dev.lrefEdge_following hs hf]
  split_ifs
  · rw [Dev.lpcOf_slipped (Dev.edged_alone hf t) _ _ _ hi, Dev.lpcOf_edged _ _ hi]
  · rw [Dev.lpcOf_bump, Dev.lpcOf_edged _ _ hi]
  · rw [Dev.lpcOf_edged _ _ hi]

theorem Dev.lrefEdge_scheds {d : Dev} (hs : d.refSrc = 1) (hf : d.follows) (t : Int) (mark : Bool) :
    (d.ck + 64, .lrefTimeout) ∈ (d.lrefEdge t mark).agenda := by
  rw [Dev.lrefEdge_following hs hf]
  split_ifs
  · rw [Dev.agenda_slipped (Dev.edged_alone hf t)]
    exact d.edged_scheds t
  · rw [Dev.bump_agenda]
    exact d.edged_scheds t
  · exact d.edged_scheds t

/-- An edge whose marker stands where the count has it. -/
theorem Dev.lrefEdge_marked {d : Dev} (hs : d.refSrc = 1) (hf : d.follows) (t : Int) {mark : Bool}
    (hm : mark = decide (d.nextEdge % 2 ^ (32 + d.fld (Pg.lpc 0) F.LPC_REF_MARK_K) = 0)) : d.lrefEdge t mark = d.edged t := by
  rw [Dev.lrefEdge_following hs hf, if_neg, if_neg] <;> rw [hm, decide_eq_true_iff]
  · exact fun h => h.1 h.2
  · exact fun h => h.2 h.1

theorem Dev.lrefEdge_slips {d : Dev} (hs : d.refSrc = 1) (hf : d.follows) (t : Int) {mark : Bool} (hm : mark = true)
    (hn : d.nextEdge % 2 ^ (32 + d.fld (Pg.lpc 0) F.LPC_REF_MARK_K) ≠ 0) :
    d.lrefEdge t mark = (d.edged t).slipped t d.nextEdge (d.fld (Pg.lpc 0) F.LPC_REF_MARK_K) := by
  rw [Dev.lrefEdge_following hs hf, if_pos ⟨hm, hn⟩]

theorem Dev.lrefEdge_misses {d : Dev} (hs : d.refSrc = 1) (hf : d.follows) (t : Int) {mark : Bool} (hm : mark = false)
    (hn : d.nextEdge % 2 ^ (32 + d.fld (Pg.lpc 0) F.LPC_REF_MARK_K) = 0) :
    d.lrefEdge t mark = (d.edged t).bump (Pg.lpc 0) F.LPC_MARK_MISS_CNT := by
  rw [Dev.lrefEdge_following hs hf, if_neg (fun h => h.2 hn), if_pos ⟨by rw [hm]; decide, hn⟩]

theorem lrefEdge_advances {s : State} (hr : s.dev.rst = .running) (theta : BitVec 8) (mark : Bool) (hs : s.dev.refSrc = 1) (hf : s.dev.follows) :
    let k := s.dev.fld (Pg.lpc 0) F.LPC_REF_MARK_K
    let t0 : Int := ckTime s.dev.ck - (theta.toNat : Int) * 2 ^ 12
    ∃ t, exec (.lrefEdge theta mark) s = .next t
      ∧ (∀ h, h < 2 → (t.dev.lpcOf h).track.l0 = (s.dev.lpcOf h).track.l0 + (s.dev.lrefDiv : Int) * 2 ^ 32 ∧ (t.dev.lpcOf h).track.t0 = t0)
      ∧ (s.dev.ck + 64, .lrefTimeout) ∈ t.dev.agenda
      ∧ (mark = decide (s.dev.nextEdge % 2 ^ (32 + k) = 0) → ∀ h, h < 2 → (t.dev.lpcOf h).jumps = [])
      ∧ (mark = true → s.dev.nextEdge % 2 ^ (32 + k) ≠ 0 →
        t.dev.fld (Pg.lpc 0) F.LPC_MARK_SLIP_CNT = min (s.dev.fld (Pg.lpc 0) F.LPC_MARK_SLIP_CNT + 1) 0xFFFFFFFF
        ∧ ∀ h, h < 2 → (t.dev.lpcOf h).jumps = [⟨s.dev.ck + 4, 4, ⟨t0, roundPos s.dev.nextEdge k, []⟩, 0, false⟩])
      ∧ (mark = false → s.dev.nextEdge % 2 ^ (32 + k) = 0 →
        t.dev.fld (Pg.lpc 0) F.LPC_MARK_MISS_CNT = min (s.dev.fld (Pg.lpc 0) F.LPC_MARK_MISS_CNT + 1) 0xFFFFFFFF
        ∧ ∀ h, h < 2 → (t.dev.lpcOf h).jumps = []) := by
  intro k t0
  have hs' : s.dev.fresh.refSrc = 1 := hs
  have hf' : s.dev.fresh.follows := hf.regs_only rfl rfl
  have hj : ∀ h, h < 2 → ((s.dev.fresh.edged t0).lpcOf h).jumps = [] := fun h hh => by
    rw [Dev.lpcOf_edged _ _ hh]
    exact hf.jumps h hh
  refine ⟨_, exec_lrefEdge theta mark hr, fun h hh => ?_, ?_, fun hm h hh => ?_, fun hm hn => ⟨?_, fun h hh => ?_⟩,
    fun hm hn => ⟨?_, fun h hh => ?_⟩⟩
  · rw [Dev.lpcOf_settle, Dev.lpcOf_lrefEdge_track hs' hf' _ _ hh]
    exact ⟨rfl, rfl⟩
  · rw [Dev.settle_agenda]
    exact Dev.lrefEdge_scheds hs' hf' _ _
  · rw [Dev.lpcOf_settle, Dev.lrefEdge_marked hs' hf' _ hm]
    exact hj h hh
  · rw [Dev.fld_settle_lpc _ _ (by decide), Dev.lrefEdge_slips hs' hf' _ hm hn, Dev.fld_slipped (Dev.edged_alone hf' _),
      Dev.fld_of_regs (Dev.regs_edged _ _), Dev.fld_fresh]
  · rw [Dev.lpcOf_settle, Dev.lrefEdge_slips hs' hf' _ hm hn, Dev.jumps_slipped (Dev.edged_alone hf' _) _ _ _ hh, hj h hh, List.nil_append,
      Dev.ck_edged, Dev.fresh_ck, Dev.nextEdge_fresh, Dev.fld_fresh]
  · rw [Dev.fld_settle_lpc _ _ (by decide), Dev.lrefEdge_misses hs' hf' _ hm hn, Dev.fld_bump _ _ _ (by decide),
      Dev.fld_of_regs (Dev.regs_edged _ _), Dev.fld_fresh]
    rfl
  · rw [Dev.lpcOf_settle, Dev.lrefEdge_misses hs' hf' _ hm hn, Dev.lpcOf_bump]
    exact hj h hh

/-! The reference is lost (R71). -/

/-- A half that freewheels keeps its instants and awaits the reference's return. -/
theorem Dev.lpcOf_freewheelHalf (d : Dev) (h : Nat) :
    (d.freewheelHalf h).lpcOf h = { d.lpcOf h with await := d.relockCause (d.lpcOf h), edged := false } := by
  have hc : (d.setLpcState h Lpc.freewheel).relockCause (d.lpcOf h) = d.relockCause (d.lpcOf h) := by
    unfold Dev.relockCause
    rw [Dev.setLpcState, Dev.refSrc_setStat _ _ _ rfl]
  unfold Dev.freewheelHalf
  dsimp only
  rw [Dev.lpcOf_lpcEvent, Dev.lpcOf_pend, Dev.lpcOf_bump, Dev.lpcOf_setLpc, hc]

theorem Dev.lpcOf_freewheelHalf_ne (d : Dev) {h i : Nat} (hi : i ≠ h) : (d.freewheelHalf h).lpcOf i = d.lpcOf i := by
  unfold Dev.freewheelHalf
  dsimp only
  rw [Dev.lpcOf_lpcEvent, Dev.lpcOf_pend, Dev.lpcOf_bump, Dev.lpcOf_setLpc_ne _ _ hi, Dev.lpcOf_setLpcState]

theorem Dev.lpcView_freewheelHalf (d : Dev) (h : Nat) :
    (d.freewheelHalf h).lpcView = (Function.update d.lpcView.1 h Lpc.freewheel, d.lpcView.2) := by
  unfold Dev.freewheelHalf
  dsimp only
  rw [Dev.lpcView_lpcEvent, Dev.lpcView_pend, Dev.lpcView_bump _ _ (by decide) (by decide) (by decide), Dev.lpcView_setLpc,
    Dev.lpcView_setLpcState _ _ (by decide)]

theorem Dev.lpcState_freewheelHalf (d : Dev) (h : Nat) : (d.freewheelHalf h).lpcState h = Lpc.freewheel :=
  (congrFun (congrArg Prod.fst (d.lpcView_freewheelHalf h)) h).trans (Function.update_self _ _ _)

theorem Dev.lpcState_freewheelHalf_ne (d : Dev) {h i : Nat} (hi : i ≠ h) : (d.freewheelHalf h).lpcState i = d.lpcState i :=
  (congrFun (congrArg Prod.fst (d.lpcView_freewheelHalf h)) i).trans (Function.update_of_ne hi _ _)

theorem Dev.refSrc_freewheelHalf (d : Dev) (h : Nat) : (d.freewheelHalf h).refSrc = d.refSrc := congrArg Prod.snd (d.lpcView_freewheelHalf h)

/-- The loss counts in the half that freewheels. -/
theorem Dev.lossCnt_freewheelHalf (d : Dev) (h : Nat) :
    (d.freewheelHalf h).fld (Pg.lpc h) F.LPC_LOSS_CNT = min (d.fld (Pg.lpc h) F.LPC_LOSS_CNT + 1) 0xFFFFFFFF := by
  unfold Dev.freewheelHalf
  dsimp only
  rw [Dev.fld_of_regs (Dev.regs_lpcEvent _ _ _ _ _), Dev.pend, Dev.fld_pend_off _ _ _ _ (by decide) (by decide), Dev.fld_bump _ _ _ (by decide),
    Dev.fld_of_regs (Dev.regs_setLpc _ _ _), Dev.setLpcState, Dev.fld_setFld_ne _ _ _ _ (raddr_ne (by decide))]
  rfl

theorem Dev.lossCnt_freewheelHalf_ne (d : Dev) {h i : Nat} (hi : i ≠ h) :
    (d.freewheelHalf h).fld (Pg.lpc i) F.LPC_LOSS_CNT = d.fld (Pg.lpc i) F.LPC_LOSS_CNT := by
  have hp : ∀ off off', off < 4096 → off' < 4096 → raddr (Pg.lpc h) off ≠ raddr (Pg.lpc i) off' := fun _ _ ho ho' => raddr_lpc_ne ho ho' hi
  unfold Dev.freewheelHalf
  dsimp only
  rw [Dev.fld_of_regs (Dev.regs_lpcEvent _ _ _ _ _), Dev.pend, Dev.fld_pendBits_ne _ _ _ _ (hp _ _ (by decide) (by decide)) (hp _ _ (by decide) (by decide)),
    Dev.bump, Dev.bumpBy, Dev.fld_noteCount, Dev.fld_setFld_ne _ _ _ _ (hp _ _ (by decide) (by decide)), Dev.fld_of_regs (Dev.regs_setLpc _ _ _),
    Dev.setLpcState, Dev.fld_setFld_ne _ _ _ _ (hp _ _ (by decide) (by decide))]

/-- A locked counter, for which no jump waits, freewheels with the loss of its reference. -/
theorem Dev.lostHalf_locked {d : Dev} {h : Nat} (ha : (d.lpcOf h).alone = false) (hj : (d.lpcOf h).jumps = []) (hs : d.lpcState h = Lpc.locked) :
    d.lostHalf h = d.freewheelHalf h := by
  unfold Dev.lostHalf
  dsimp only
  rw [hj, if_neg (by rw [ha]; decide), if_neg (by decide), if_pos hs]

theorem Dev.relockCause_lref {d : Dev} {x : LpcSt} (hs : d.refSrc = 1) (hw : x.await = 0) : d.relockCause x = 3 := by
  unfold Dev.relockCause
  rw [hw, if_neg (by decide), if_pos hs]

theorem Dev.freewheel_locked {d : Dev} (hl : ∀ h, h < 2 → d.lpcState h = Lpc.locked) (hj : ∀ h, h < 2 → (d.lpcOf h).jumps = [])
    (ha : ∀ h, h < 2 → (d.lpcOf h).alone = false) : d.freewheel = (d.freewheelHalf 0).freewheelHalf 1 := by
  unfold Dev.freewheel
  rw [Dev.lostHalf_locked (ha 0 (by decide)) (hj 0 (by decide)) (hl 0 (by decide)), Dev.lostHalf_locked]
  · rw [Dev.lpcOf_freewheelHalf_ne _ (by decide), ha 1 (by decide)]
  · rw [Dev.lpcOf_freewheelHalf_ne _ (by decide), hj 1 (by decide)]
  · rw [Dev.lpcState_freewheelHalf_ne _ (by decide), hl 1 (by decide)]

theorem lrefTimeout_freewheels {s : State} (hr : s.dev.rst = .running) (hs : s.dev.refSrc = 1) (hl : ∀ h, h < 2 → s.dev.lpcState h = Lpc.locked)
    (hj : ∀ h, h < 2 → (s.dev.lpcOf h).jumps = []) (hw : ∀ h, h < 2 → (s.dev.lpcOf h).await = 0)
    (ha : ∀ h, h < 2 → (s.dev.lpcOf h).alone = false) :
    ∃ t, exec .lrefTimeout s = .next t ∧ ∀ h, h < 2 → t.dev.lpcState h = Lpc.freewheel ∧ (t.dev.lpcOf h).await = 3
      ∧ t.dev.fld (Pg.lpc h) F.LPC_LOSS_CNT = min (s.dev.fld (Pg.lpc h) F.LPC_LOSS_CNT + 1) 0xFFFFFFFF := by
  have hfree : (s.dev.begin .lrefTimeout).lrefTimeout = ((s.dev.begin .lrefTimeout).freewheelHalf 0).freewheelHalf 1 :=
    (if_pos hs).trans (Dev.freewheel_locked (d := s.dev.begin .lrefTimeout) hl hj ha)
  refine ⟨_, exec_lrefTimeout hr, fun h hh => ?_⟩
  rw [hfree, Dev.lpcState_settle, Dev.lpcOf_settle, Dev.fld_settle_lpc _ _ (by decide)]
  obtain rfl | rfl : h = 0 ∨ h = 1 := by omega
  · rw [Dev.lpcState_freewheelHalf_ne _ (by decide), Dev.lpcState_freewheelHalf, Dev.lpcOf_freewheelHalf_ne _ (by decide), Dev.lpcOf_freewheelHalf,
      Dev.lossCnt_freewheelHalf_ne _ (by decide), Dev.lossCnt_freewheelHalf]
    exact ⟨rfl, Dev.relockCause_lref (d := s.dev.begin .lrefTimeout) hs (hw 0 hh), rfl⟩
  · rw [Dev.lpcState_freewheelHalf, Dev.lpcOf_freewheelHalf, Dev.lpcOf_freewheelHalf_ne _ (by decide), Dev.lossCnt_freewheelHalf,
      Dev.lossCnt_freewheelHalf_ne _ (by decide)]
    exact ⟨rfl, Dev.relockCause_lref ((Dev.refSrc_freewheelHalf _ _).trans hs) (hw 1 hh), rfl⟩

/-! The follower half (R77, R78). -/

theorem Dev.lpcAlignWord_follower {d : Dev} {h : Nat} (hh : h ≠ d.anchorHalf) (hi : d.lpcState h ≠ Lpc.idle) : d.lpcAlignWord h
    = if ¬ (d.lpcOf h).alone ∨ (d.lpcOf h).jumps ≠ [] ∨ d.lpcState d.anchorHalf = Lpc.idle then d.setLpc h { d.lpcOf h with wordCk := d.ck }
      else d.setLpc h { d.lpcOf h with wordCk := d.ck, jumps := [⟨d.ck + 4, 6, (d.lpcOf d.anchorHalf).track, 0, false⟩] } :=
  if_neg (not_or.mpr ⟨hh, hi⟩)

section
variable {d : Dev} {h : Nat} (hh : h ≠ d.anchorHalf) (hi : d.lpcState h ≠ Lpc.idle)
include hh hi

theorem Dev.lpcAlignWord_wordCk : ((d.lpcAlignWord h).lpcOf h).wordCk = d.ck := by
  rw [Dev.lpcAlignWord_follower hh hi]
  split_ifs <;> rw [Dev.lpcOf_setLpc]

/-- A follower that has run alone re-aligns to the anchor half with cause 6. -/
theorem Dev.lpcAlignWord_realigns (ha : (d.lpcOf h).alone = true) (hj : (d.lpcOf h).jumps = []) (hg : d.lpcState d.anchorHalf ≠ Lpc.idle) :
    ((d.lpcAlignWord h).lpcOf h).jumps = [⟨d.ck + 4, 6, (d.lpcOf d.anchorHalf).track, 0, false⟩] := by
  rw [Dev.lpcAlignWord_follower hh hi, if_neg (by simp [ha, hj, hg]), Dev.lpcOf_setLpc]

theorem Dev.lpcAlignWord_held (ha : (d.lpcOf h).alone = false) : ((d.lpcAlignWord h).lpcOf h).jumps = (d.lpcOf h).jumps := by
  rw [Dev.lpcAlignWord_follower hh hi, if_pos (Or.inl (by rw [ha]; decide)), Dev.lpcOf_setLpc]
end

theorem lpcAlignWord_takes {s : State} (hr : s.dev.rst = .running) {h : Half} (hh : h.val ≠ s.dev.anchorHalf) (hi : s.dev.lpcState h.val ≠ Lpc.idle) :
    ∃ t, exec (.lpcAlignWord h) s = .next t ∧ (t.dev.lpcOf h.val).wordCk = s.dev.ck
      ∧ ((s.dev.lpcOf h.val).alone = true → (s.dev.lpcOf h.val).jumps = [] → s.dev.lpcState s.dev.anchorHalf ≠ Lpc.idle →
        (t.dev.lpcOf h.val).jumps = [⟨s.dev.ck + 4, 6, (s.dev.lpcOf s.dev.anchorHalf).track, 0, false⟩])
      ∧ ((s.dev.lpcOf h.val).alone = false → (t.dev.lpcOf h.val).jumps = (s.dev.lpcOf h.val).jumps) := by
  refine ⟨_, exec_lpcAlignWord h hr, ?_, fun ha hj hg => ?_, fun ha => ?_⟩ <;> rw [Dev.lpcOf_settle]
  · exact Dev.lpcAlignWord_wordCk (d := s.dev.begin (.lpcAlignWord h)) hh hi
  · exact Dev.lpcAlignWord_realigns (d := s.dev.begin (.lpcAlignWord h)) hh hi ha hj hg
  · exact Dev.lpcAlignWord_held (d := s.dev.begin (.lpcAlignWord h)) hh hi ha

theorem Dev.followerFreewheel_locked {d : Dev} {h : Nat} (hh : h ≠ d.anchorHalf) (hs : d.lpcState h = Lpc.locked) (hw : (d.lpcOf h).wordCk + 4 ≤ d.ck) :
    d.followerFreewheel h
      = (d.freewheelHalf h).setLpc h { (d.freewheelHalf h).lpcOf h with await := 0, jumps := [], alone := true } := by
  unfold Dev.followerFreewheel
  dsimp only
  rw [hs, if_neg, if_neg (by decide)]
  rintro (he | he | he)
  · exact hh he
  · exact absurd he (by decide)
  · omega

theorem followerFreewheel_leaves {s : State} (hr : s.dev.rst = .running) {h : Half} (hh : h.val ≠ s.dev.anchorHalf)
    (hs : s.dev.lpcState h.val = Lpc.locked) (hw : (s.dev.lpcOf h.val).wordCk + 4 ≤ s.dev.ck) :
    ∃ t, exec (.followerFreewheel h) s = .next t ∧ t.dev.lpcState h.val = Lpc.freewheel ∧ (t.dev.lpcOf h.val).alone = true
      ∧ (t.dev.lpcOf h.val).jumps = []
      ∧ t.dev.fld (Pg.lpc h.val) F.LPC_LOSS_CNT = min (s.dev.fld (Pg.lpc h.val) F.LPC_LOSS_CNT + 1) 0xFFFFFFFF := by
  have he := Dev.followerFreewheel_locked (d := s.dev.begin (.followerFreewheel h)) hh hs hw
  refine ⟨_, exec_followerFreewheel h hr, ?_, ?_, ?_, ?_⟩ <;> rw [he]
  · rw [Dev.lpcState_settle, Dev.lpcState_of_regs (Dev.regs_setLpc _ _ _), Dev.lpcState_freewheelHalf]
  · rw [Dev.lpcOf_settle, Dev.lpcOf_setLpc]
  · rw [Dev.lpcOf_settle, Dev.lpcOf_setLpc]
  · rw [Dev.fld_settle_lpc _ _ (by decide), Dev.fld_of_regs (Dev.regs_setLpc _ _ _), Dev.lossCnt_freewheelHalf]
    rfl

end Sys2Proof.Machine
end

section
/-! PROOFS. The settings of the line position counters: REF, SYN_INC and ANCHOR as software writes them (R68), and O36. -/

namespace Sys2Proof.Machine

/-! The rows as writes of the North's page. -/

section
variable {s : State} (val : Word) (hr : s.dev.rst = .running) (hu : s.dev.unpaired)
include hr hu

theorem cmd_lpcWrite {off : Nat} {r : RegDesc} (ho : off < 4096) (hh : 0x100 ≤ off) (hd : regDesc .lpc off = some r) :
    s.cmd (fun d => d.busWrite (raddr (Pg.lpc 0) off) val) = s.becomes (s.dev.fresh.writeLpc 0 off val) := by
  rw [s.cmd_running _ hr, Dev.busWrite, Dev.swGate_unpaired s.dev.fresh _ _ _ hu, Dev.softWrite_block _ val (by decide) ho hh hd]
  rfl

theorem exec_lpcRefWrite : exec (.lpcRefWrite val) s = s.becomes (s.dev.fresh.lpcRefWrite val) :=
  cmd_lpcWrite val hr hu (off := 0x100) (by decide) (by decide) rfl

theorem exec_lpcSynIncWrite (hi : Bool) : exec (.lpcSynIncWrite hi val) s = s.becomes (s.dev.fresh.lpcSynIncWrite hi val) := by
  cases hi with
  | false => exact cmd_lpcWrite val hr hu (off := 0x104) (by decide) (by decide) rfl
  | true => exact cmd_lpcWrite val hr hu (off := 0x108) (by decide) (by decide) rfl

theorem exec_lpcAnchorWrite (hi : Bool) : exec (.lpcAnchorWrite hi val) s = s.becomes (s.dev.fresh.lpcAnchorWrite hi val) := by
  cases hi with
  | false => exact cmd_lpcWrite val hr hu (off := 0x10C) (by decide) (by decide) rfl
  | true => exact cmd_lpcWrite val hr hu (off := 0x110) (by decide) (by decide) rfl
end

/-! Writes outside READY. -/

/-- What a refused write leaves: it counts, the settings and the counters stay. -/
structure Dev.settingsKept (d e : Dev) : Prop where
  page : ∀ off, 0x040 ≤ off → off < 4096 → e.reg (Pg.lpc 0) off = d.reg (Pg.lpc 0) off
  counted : e.fld (Pg.lpc 0) (F.ERRCNT 0) = min (d.fld (Pg.lpc 0) (F.ERRCNT 0) + 1) 0xFFFFFFFF
  lpc : e.lpc = d.lpc

theorem Dev.settingsKept.fld {d e : Dev} (h : d.settingsKept e) {f : Fld} (hf : 0x040 ≤ f.off) (hlt : f.off < 4096) :
    e.fld (Pg.lpc 0) f = d.fld (Pg.lpc 0) f := by
  unfold Dev.fld
  rw [h.page _ hf hlt]

theorem Dev.settingsKept.synInc {d e : Dev} (h : d.settingsKept e) : e.synInc = d.synInc := by
  unfold Dev.synInc
  rw [h.fld (by decide) (by decide), h.fld (by decide) (by decide)]

theorem Dev.settingsKept.anchorPos {d e : Dev} (h : d.settingsKept e) : e.anchorPos = d.anchorPos := by
  unfold Dev.anchorPos Dev.reg64
  rw [h.page 0x10C (by decide) (by decide), h.page (0x10C + 4) (by decide) (by decide)]

theorem Dev.settingsKept.settle {d e : Dev} (h : d.fresh.settingsKept e) : d.settingsKept e.settle where
  page off ho hlt := (e.reg_settle_lpc 0 hlt).trans (h.page off ho hlt)
  counted := (e.fld_settle_errcnt _ (by decide)).trans h.counted
  lpc := (Dev.lpc_of_rest e.rest_settle).trans h.lpc

/-- Errors of a write that meets the first case of R68, a reserved bit set or not. -/
theorem Dev.settingsKept_errs (d : Dev) (reserved : Prop) [Decidable reserved] {cases : List (Nat × Nat)} (h : 0 ∈ cases.map Prod.fst) :
    d.settingsKept ((if reserved then d.regErr (Pg.lpc 0) 1 else d).errs (Pg.lpc 0) cases) := by
  have hpage : ∀ off, 0x040 ≤ off → (if reserved then d.regErr (Pg.lpc 0) 1 else d).reg (Pg.lpc 0) off = d.reg (Pg.lpc 0) off := fun off ho => by
    split
    · exact d.reg_err_block _ _ _ (by decide) ho
    · rfl
  have hcount : (if reserved then d.regErr (Pg.lpc 0) 1 else d).fld (Pg.lpc 0) (F.ERRCNT 0) = d.fld (Pg.lpc 0) (F.ERRCNT 0) := by
    split
    · exact d.fld_err_ne _ _ _ _ (by decide)
    · rfl
  have hrest : (if reserved then d.regErr (Pg.lpc 0) 1 else d).rest = d.rest := by
    split
    · exact d.rest_regErr _ _
    · rfl
  refine ⟨fun off ho _ => ?_, ?_, Dev.lpc_of_rest ((Dev.rest_errs _ _ _).trans hrest)⟩
  · rw [Dev.reg_errs_block _ _ _ ho, hpage off ho]
  · rw [Dev.fld_errs _ _ (by decide) h, hcount]

theorem Dev.mode_mem_lpcCases {d : Dev} (hm : d.mode ≠ Mode.ready.code) (bad : Bool) : 0 ∈ (d.lpcCases bad).map Prod.fst := by
  unfold Dev.lpcCases
  rw [if_pos hm]
  exact List.mem_cons_self

theorem Dev.lpcCases_ne_nil {d : Dev} (hm : d.mode ≠ Mode.ready.code) (bad : Bool) : d.lpcCases bad ≠ [] := fun h => by
  have hmem := Dev.mode_mem_lpcCases hm bad
  rw [h] at hmem
  exact List.not_mem_nil hmem

section
variable {d : Dev} (val : Word) (hm : d.mode ≠ Mode.ready.code)
include hm

theorem Dev.lpcRefWrite_outside (hp : d.flag Pg.pair F.PAIR_CTRL_EN = false) : d.settingsKept (d.lpcRefWrite val) := by
  unfold Dev.lpcRefWrite
  dsimp only
  rw [if_pos (Or.inl (Dev.lpcCases_ne_nil hm _)), hp, if_neg (by decide)]
  exact d.settingsKept_errs _ (Dev.mode_mem_lpcCases hm _)

theorem Dev.lpcSynIncWrite_outside (hi : Bool) : d.settingsKept (d.lpcSynIncWrite hi val) := by
  unfold Dev.lpcSynIncWrite
  dsimp only
  rw [if_pos (Dev.lpcCases_ne_nil hm _)]
  exact d.settingsKept_errs _ (Dev.mode_mem_lpcCases hm _)

theorem Dev.lpcAnchorWrite_outside (hi : Bool) : d.settingsKept (d.lpcAnchorWrite hi val) := by
  unfold Dev.lpcAnchorWrite
  dsimp only
  rw [if_pos (Dev.lpcCases_ne_nil hm _)]
  exact d.settingsKept_errs False (Dev.mode_mem_lpcCases hm _)
end

/-! Writes in READY. -/

theorem Dev.lpcCases_ready {d : Dev} (hm : d.mode = Mode.ready.code) : d.lpcCases false = [] := by
  unfold Dev.lpcCases
  rw [if_neg (fun h => h hm)]
  rfl

theorem Dev.errs_nil (d : Dev) (pg : Nat) : d.errs pg [] = d := (rfl)

/-- A setting of REF that R68 allows. -/
structure RefOk (v : Nat) : Prop where
  lt : v < 2 ^ 23
  src : bitsOf v 0 2 ≠ 3
  kMin : 8 ≤ bitsOf v 8 6
  kMax : bitsOf v 8 6 ≤ 40
  divMin : 1 ≤ bitsOf v 14 9
  divMax : bitsOf v 14 9 ≤ 256

theorem Dev.lpcRefWrite_ready {d : Dev} {val : Word} (hm : d.mode = Mode.ready.code) (hp : d.flag Pg.pair F.PAIR_CTRL_EN = false) (hv : RefOk val.toNat) :
    d.lpcRefWrite val = if d.reg (Pg.lpc 0) 0x100 = val then d else d.changeRef val := by
  have hres : bitsOf val.toNat 23 9 = 0 := by
    rw [bitsOf, Nat.div_eq_of_lt hv.lt, Nat.zero_mod]
  have hbad : (decide (bitsOf val.toNat 0 2 = 3) || decide (bitsOf val.toNat 8 6 < 8) || decide (bitsOf val.toNat 8 6 > 40)
      || decide (bitsOf val.toNat 14 9 = 0) || decide (bitsOf val.toNat 14 9 > 256)) = false := by
    obtain ⟨-, hsrc, hk, hk', hd, hd'⟩ := hv
    simp only [Bool.or_eq_false_iff, decide_eq_false_iff_not]
    omega
  have hnew : BitVec.ofNat 32 (val.toNat % 2 ^ 23) = val := by
    rw [Nat.mod_eq_of_lt hv.lt, BitVec.ofNat_toNat, BitVec.setWidth_eq]
  unfold Dev.lpcRefWrite
  dsimp only
  rw [hbad, Dev.lpcCases_ready hm, hp, Dev.errs_nil, hres, hnew]
  simp only [ne_eq, not_true_eq_false, Bool.false_eq_true, or_self, if_false]

/-- A counter goes on at RATE from an instant at which it stands at a position, until the new reference's first event. -/
def LpcSt.rebased (x : LpcSt) (t p : Int) : LpcSt := { x with track := x.track.bend t p, coast := true, await := 8, edged := false, jumps := [] }

/-- The position of the counters at a change of the reference. -/
def Dev.anchorNow (d : Dev) : Int := d.posAt d.anchorHalf (ckTime d.ck)

/-- No LREF edge is timed any more. -/
def Dev.lrefUntimed (d : Dev) : Dev := { d with agenda := agendaDrop .lrefTimeout d.agenda }

/-- Both halves show a new REF. -/
def Dev.refStored (d : Dev) (val : Word) : Dev := ((d.setReg (Pg.lpc 0) 0x100 val).setReg (Pg.lpc 1) 0x100 val).lrefUntimed

/-- The block with a new reference set, before its first event. -/
def Dev.refTaken (d : Dev) (val : Word) : Dev :=
  ((d.setBoth (fun i => (d.lpcOf i).rebased (ckTime d.ck) d.anchorNow)).refStored val).showFollower

/-- What the new reference begins with: a synthetic one anchors, LREF is timed. -/
def Dev.refBegun (d : Dev) (t p : Int) : Dev :=
  if d.refSrc = 2 then d.anchorAt 8 t p else if d.refSrc = 1 then d.sched 64 .lrefTimeout else d

theorem Dev.changeRef_both {d : Dev} (ha : ∀ i, i < 2 → (d.lpcOf i).alone = false) (val : Word) :
    d.changeRef val = (d.refTaken val).refBegun (ckTime d.ck) d.anchorNow := by
  unfold Dev.changeRef
  extract_lets now lone p rebased was stored untimed anchor other swapped shown
  have hlone : lone = false := ha _ (by omega)
  have hboth : rebased = d.setBoth (fun i => (d.lpcOf i).rebased (ckTime d.ck) d.anchorNow) :=
    Dev.foldl_halves (fun e i hi _ hx => by
      dsimp only
      rw [hx, if_neg (by rw [ha i hi]; decide)]
      rfl)
  have hstored : untimed = rebased.refStored val := rfl
  have hswapped : swapped = untimed := if_neg (fun h => absurd (hlone ▸ h.1) (by decide))
  have hshown : shown = d.refTaken val := by
    unfold Dev.refTaken
    rw [← hboth, ← hstored, ← hswapped]
  rw [hshown]
  rfl

/-! A reference that is set. -/

theorem Dev.reg_showFollower (d : Dev) (i : Nat) {off : Nat} (ho : off < 4096) (hs : off ≠ 0x00C) :
    d.showFollower.reg (Pg.lpc i) off = d.reg (Pg.lpc i) off := by
  have hne : ∀ j, raddr (Pg.lpc j) 0x00C ≠ raddr (Pg.lpc i) off := fun j e => hs (raddr_inj (by decide) ho e).2.symm
  unfold Dev.showFollower
  dsimp only
  rw [Dev.reg_setFld_ne _ _ _ (hne 1), Dev.reg_setFld_ne _ _ _ (hne 0)]

theorem Dev.regs_lrefUntimed (d : Dev) : d.lrefUntimed.regs = d.regs := (rfl)
theorem Dev.lpc_lrefUntimed (d : Dev) : d.lrefUntimed.lpc = d.lpc := (rfl)
theorem Dev.ck_lrefUntimed (d : Dev) : d.lrefUntimed.ck = d.ck := (rfl)

theorem Dev.regs_refStored (d : Dev) (val : Word) : (d.refStored val).regs = ((d.setReg (Pg.lpc 0) 0x100 val).setReg (Pg.lpc 1) 0x100 val).regs :=
  Dev.regs_lrefUntimed _

theorem Dev.lpc_refStored (d : Dev) (val : Word) : (d.refStored val).lpc = d.lpc := by
  rw [Dev.refStored, Dev.lpc_lrefUntimed, Dev.setReg_lpc, Dev.setReg_lpc]

theorem Dev.ck_refStored (d : Dev) (val : Word) : (d.refStored val).ck = d.ck := by
  rw [Dev.refStored, Dev.ck_lrefUntimed, Dev.setReg_ck, Dev.setReg_ck]

theorem Dev.reg_refStored (d : Dev) (val : Word) {i : Nat} (hi : i < 2) : (d.refStored val).reg (Pg.lpc i) 0x100 = val := by
  rw [Dev.reg_congr (d.regs_refStored val)]
  obtain rfl | rfl : i = 0 ∨ i = 1 := by omega
  · rw [Dev.reg_setReg_ne _ _ (by decide), Dev.reg_setReg]
  · rw [Dev.reg_setReg]

theorem Dev.reg_refTaken (d : Dev) (val : Word) {i : Nat} (hi : i < 2) : (d.refTaken val).reg (Pg.lpc i) 0x100 = val := by
  rw [Dev.refTaken, Dev.reg_showFollower _ _ (by decide) (by decide), Dev.reg_refStored _ _ hi]

theorem Dev.refSrc_refTaken (d : Dev) (val : Word) : (d.refTaken val).refSrc = bitsOf val.toNat 0 2 :=
  congrArg (fun w : Word => bitsOf w.toNat 0 2) (d.reg_refTaken val (i := 0) (by decide))

theorem Dev.lpcOf_refTaken (d : Dev) (val : Word) {i : Nat} (hi : i < 2) :
    (d.refTaken val).lpcOf i = (d.lpcOf i).rebased (ckTime d.ck) d.anchorNow := by
  rw [Dev.refTaken, Dev.lpcOf_showFollower, Dev.lpcOf_of_lpc (Dev.lpc_refStored _ _), Dev.lpcOf_setBoth _ _ hi]

theorem Dev.ck_refTaken (d : Dev) (val : Word) : (d.refTaken val).ck = d.ck := by
  unfold Dev.refTaken Dev.showFollower
  dsimp only
  rw [Dev.setFld_ck, Dev.setFld_ck, Dev.ck_refStored, Dev.ck_setBoth]

theorem Dev.refTaken_alone {d : Dev} (ha : ∀ i, i < 2 → (d.lpcOf i).alone = false) (val : Word) :
    ∀ i, i < 2 → ((d.refTaken val).lpcOf i).alone = false := fun i hi => by
  rw [Dev.lpcOf_refTaken _ _ hi]
  exact ha i hi

/-- What a new reference begins with is no register. -/
theorem Dev.regs_refBegun {d : Dev} (ha : ∀ i, i < 2 → (d.lpcOf i).alone = false) (t p : Int) : (d.refBegun t p).regs = d.regs := by
  unfold Dev.refBegun Dev.anchorAt
  rw [Dev.jumpIn_both ha]
  split_ifs <;> rfl

/-- A synthetic reference anchors 4 CK after it is set, with cause 8. -/
theorem Dev.lpcOf_refBegun_synthetic {d : Dev} (hs : d.refSrc = 2) (ha : ∀ i, i < 2 → (d.lpcOf i).alone = false) (t p : Int) {i : Nat} (hi : i < 2) :
    ((d.refBegun t p).lpcOf i).jumps = (d.lpcOf i).jumps ++ [⟨d.ck + 4, 8, ⟨t, p, []⟩, 0, false⟩] := by
  unfold Dev.refBegun Dev.anchorAt
  rw [if_pos hs, Dev.jumpIn_both ha, Dev.lpcOf_setBoth _ _ hi]

theorem Dev.lpcOf_refBegun {d : Dev} (hs : d.refSrc ≠ 2) (t p : Int) (i : Nat) : (d.refBegun t p).lpcOf i = d.lpcOf i := by
  unfold Dev.refBegun
  rw [if_neg hs]
  split_ifs <;> rfl

section
variable {s : State} {val : Word} (hr : s.dev.rst = .running) (hu : s.dev.unpaired) (hp : s.dev.flag Pg.pair F.PAIR_CTRL_EN = false)
  (hm : s.dev.mode = Mode.ready.code)
include hr hu hp hm

theorem lpcRefWrite_takes (hv : RefOk val.toNat) (ha : ∀ h, h < 2 → (s.dev.lpcOf h).alone = false) :
    ∃ t, exec (.lpcRefWrite val) s = .next t ∧ t.dev.reg (Pg.lpc 0) 0x100 = val
      ∧ (s.dev.reg (Pg.lpc 0) 0x100 ≠ val → t.dev.reg (Pg.lpc 1) 0x100 = val)
      ∧ (s.dev.reg (Pg.lpc 0) 0x100 ≠ val → bitsOf val.toNat 0 2 = 2 →
        ∀ h, h < 2 → ∃ j, (t.dev.lpcOf h).jumps = [j] ∧ j.cause = 8 ∧ j.due = s.dev.ck + 4)
      ∧ (s.dev.reg (Pg.lpc 0) 0x100 ≠ val → bitsOf val.toNat 0 2 ≠ 2 →
        ∀ h, h < 2 → (t.dev.lpcOf h).await = 8 ∧ (t.dev.lpcOf h).coast = true) := by
  have hw : s.dev.fresh.lpcRefWrite val = if s.dev.reg (Pg.lpc 0) 0x100 = val then s.dev.fresh else s.dev.fresh.changeRef val :=
    Dev.lpcRefWrite_ready (d := s.dev.fresh) hm hp hv
  have htaken := Dev.refTaken_alone (d := s.dev.fresh) ha val
  have hsrc := s.dev.fresh.refSrc_refTaken val
  have hne : s.dev.reg (Pg.lpc 0) 0x100 ≠ val →
      s.dev.fresh.lpcRefWrite val = (s.dev.fresh.refTaken val).refBegun (ckTime s.dev.fresh.ck) s.dev.fresh.anchorNow := fun h => by
    rw [hw, if_neg h, Dev.changeRef_both (d := s.dev.fresh) ha]
  refine ⟨_, exec_lpcRefWrite val hr hu, ?_, fun h => ?_, fun h h2 i hi => ?_, fun h h2 i hi => ?_⟩
  · rw [Dev.reg_settle_lpc _ _ (by decide)]
    by_cases h : s.dev.reg (Pg.lpc 0) 0x100 = val
    · rw [hw, if_pos h]
      exact h
    · rw [hne h, Dev.reg_congr (Dev.regs_refBegun htaken _ _), Dev.reg_refTaken _ _ (by decide)]
  · rw [Dev.reg_settle_lpc _ _ (by decide), hne h, Dev.reg_congr (Dev.regs_refBegun htaken _ _), Dev.reg_refTaken _ _ (by decide)]
  · have hj : ((s.dev.fresh.refTaken val).lpcOf i).jumps = [] := by
      rw [Dev.lpcOf_refTaken _ _ hi]
      rfl
    rw [Dev.lpcOf_settle, hne h, Dev.lpcOf_refBegun_synthetic (hsrc.trans h2) htaken _ _ hi, hj, Dev.ck_refTaken]
    exact ⟨_, rfl, rfl, rfl⟩
  · rw [Dev.lpcOf_settle, hne h, Dev.lpcOf_refBegun (by rw [hsrc]; exact h2), Dev.lpcOf_refTaken _ _ hi]
    exact ⟨rfl, rfl⟩
end

/-! The synthetic increment. -/

/-- Both halves show a synthetic increment. -/
def Dev.setInc (d : Dev) (lo hi : Nat) : Dev :=
  [0, 1].foldl (fun d h => (d.setFld (Pg.lpc h) F.LPC_SYN_INC_LO lo).setFld (Pg.lpc h) F.LPC_SYN_INC_HI_INT hi) d

theorem Dev.fld_setInc_lo (d : Dev) {lo : Nat} (hi : Nat) (hlo : lo < 2 ^ 32) {i : Nat} (h2 : i < 2) :
    (d.setInc lo hi).fld (Pg.lpc i) F.LPC_SYN_INC_LO = lo := by
  unfold Dev.setInc
  rw [List.foldl_cons, List.foldl_cons, List.foldl_nil]
  obtain rfl | rfl : i = 0 ∨ i = 1 := by omega
  · rw [Dev.fld_setFld_ne _ _ _ _ (raddr_lpc_ne (by decide) (by decide) (by decide)),
      Dev.fld_setFld_ne _ _ _ _ (raddr_lpc_ne (by decide) (by decide) (by decide)), Dev.fld_setFld_ne _ _ _ _ (raddr_ne (by decide)),
      Dev.fld_setFld _ _ _ _ (by decide)]
    exact Nat.mod_eq_of_lt hlo
  · rw [Dev.fld_setFld_ne _ _ _ _ (raddr_ne (by decide)), Dev.fld_setFld _ _ _ _ (by decide)]
    exact Nat.mod_eq_of_lt hlo

theorem Dev.fld_setInc_hi (d : Dev) (lo : Nat) {hi : Nat} (hhi : hi < 2 ^ 8) : (d.setInc lo hi).fld (Pg.lpc 0) F.LPC_SYN_INC_HI_INT = hi := by
  unfold Dev.setInc
  rw [List.foldl_cons, List.foldl_cons, List.foldl_nil, Dev.fld_setFld_ne _ _ _ _ (raddr_lpc_ne (by decide) (by decide) (by decide)),
    Dev.fld_setFld_ne _ _ _ _ (raddr_lpc_ne (by decide) (by decide) (by decide)), Dev.fld_setFld _ _ _ _ (by decide)]
  exact Nat.mod_eq_of_lt hhi

theorem Dev.synInc_setInc (d : Dev) {lo hi : Nat} (hlo : lo < 2 ^ 32) (hhi : hi < 2 ^ 8) : (d.setInc lo hi).synInc = lo + 2 ^ 32 * hi := by
  unfold Dev.synInc
  rw [d.fld_setInc_lo hi hlo (by decide), d.fld_setInc_hi lo hhi]

theorem Dev.synInc_settle (d : Dev) : d.settle.synInc = d.synInc := by
  unfold Dev.synInc
  rw [d.fld_settle_lpc 0 (by decide), d.fld_settle_lpc 0 (by decide)]

/-- A write of the low word, the high word 0: an increment below one symbol per CK. -/
theorem Dev.lpcSynIncWrite_lo {d : Dev} {val : Word} (hm : d.mode = Mode.ready.code) (hz : d.fld (Pg.lpc 0) F.LPC_SYN_INC_HI_INT = 0)
    (hv : val ≠ 0#32) : ∃ e : Dev, d.lpcSynIncWrite false val = e.setInc val.toNat 0 := by
  have hne : val.toNat ≠ 0 := fun h => hv (BitVec.eq_of_toNat_eq h)
  have hlt : val.toNat < 2 ^ 32 := val.isLt
  have hbad : (decide (val.toNat + 2 ^ 32 * 0 = 0) || decide (val.toNat + 2 ^ 32 * 0 > 2 * 2 ^ 32)) = false := by
    simp only [Bool.or_eq_false_iff, decide_eq_false_iff_not]
    omega
  unfold Dev.lpcSynIncWrite
  simp only [Bool.false_eq_true, if_false, false_and, hz, hbad, Dev.lpcCases_ready hm, Dev.errs_nil, ne_eq, not_true_eq_false]
  exact ⟨_, rfl⟩

/-- A write of 1 to the high word, the low word 0: one symbol per CK. -/
theorem Dev.lpcSynIncWrite_hi {d : Dev} (hm : d.mode = Mode.ready.code) (hz : d.fld (Pg.lpc 0) F.LPC_SYN_INC_LO = 0) :
    ∃ e : Dev, d.lpcSynIncWrite true 1#32 = e.setInc 0 1 := by
  have hone : bitsOf (1#32).toNat 0 8 = 1 := rfl
  have hres : bitsOf (1#32).toNat 8 24 = 0 := rfl
  have hbad : (decide (0 + 2 ^ 32 * 1 = 0) || decide (0 + 2 ^ 32 * 1 > 2 * 2 ^ 32)) = false := by decide
  unfold Dev.lpcSynIncWrite
  simp only [if_true, true_and, hz, hone, hres, hbad, Dev.lpcCases_ready hm, Dev.errs_nil, ne_eq, not_true_eq_false, if_false]
  exact ⟨_, rfl⟩

/-! The first anchor's position. -/

/-- Both halves show a word of ANCHOR. -/
theorem Dev.reg_lpcAnchorWrite {d : Dev} (hm : d.mode = Mode.ready.code) (hi : Bool) (val : Word) {i : Nat} (h2 : i < 2) :
    (d.lpcAnchorWrite hi val).reg (Pg.lpc i) (if hi then 0x110 else 0x10C) = val := by
  have ho : (if hi then 0x110 else 0x10C) < 4096 := by
    split <;> decide
  unfold Dev.lpcAnchorWrite
  dsimp only
  rw [Dev.lpcCases_ready hm, Dev.errs_nil, if_neg (fun h => h rfl), List.foldl_cons, List.foldl_cons, List.foldl_nil]
  obtain rfl | rfl : i = 0 ∨ i = 1 := by omega
  · rw [Dev.reg_setReg_ne _ _ (raddr_lpc_ne ho ho (by decide)), Dev.reg_setReg]
  · rw [Dev.reg_setReg]

/-! The writes as commands. -/

section
variable {s : State} (val : Word) (hr : s.dev.rst = .running) (hu : s.dev.unpaired)
include hr hu

theorem lpcRefWrite_refused (hm : s.dev.mode ≠ Mode.ready.code) (hp : s.dev.flag Pg.pair F.PAIR_CTRL_EN = false) :
    ∃ t, exec (.lpcRefWrite val) s = .next t ∧ s.dev.settingsKept t.dev :=
  ⟨_, exec_lpcRefWrite val hr hu, (Dev.lpcRefWrite_outside (d := s.dev.fresh) val hm hp).settle⟩

theorem lpcSynIncWrite_refused (hm : s.dev.mode ≠ Mode.ready.code) (hi : Bool) :
    ∃ t, exec (.lpcSynIncWrite hi val) s = .next t ∧ s.dev.settingsKept t.dev :=
  ⟨_, exec_lpcSynIncWrite val hr hu hi, (Dev.lpcSynIncWrite_outside (d := s.dev.fresh) val hm hi).settle⟩

theorem lpcAnchorWrite_refused (hm : s.dev.mode ≠ Mode.ready.code) (hi : Bool) :
    ∃ t, exec (.lpcAnchorWrite hi val) s = .next t ∧ s.dev.settingsKept t.dev :=
  ⟨_, exec_lpcAnchorWrite val hr hu hi, (Dev.lpcAnchorWrite_outside (d := s.dev.fresh) val hm hi).settle⟩

theorem lpcSynIncWrite_setsLo (hm : s.dev.mode = Mode.ready.code) (hz : s.dev.fld (Pg.lpc 0) F.LPC_SYN_INC_HI_INT = 0) (hv : val ≠ 0#32) :
    ∃ t, exec (.lpcSynIncWrite false val) s = .next t ∧ t.dev.synInc = val.toNat
      ∧ ∀ h, h < 2 → t.dev.fld (Pg.lpc h) F.LPC_SYN_INC_LO = val.toNat := by
  obtain ⟨e, he⟩ := Dev.lpcSynIncWrite_lo (d := s.dev.fresh) hm hz hv
  refine ⟨_, exec_lpcSynIncWrite val hr hu false, ?_, fun h hh => ?_⟩ <;> rw [he]
  · rw [Dev.synInc_settle, Dev.synInc_setInc _ val.isLt (by decide), Nat.mul_zero, Nat.add_zero]
  · rw [Dev.fld_settle_lpc _ _ (by decide), Dev.fld_setInc_lo _ _ val.isLt hh]

theorem lpcAnchorWrite_sets (hm : s.dev.mode = Mode.ready.code) (hi : Bool) :
    ∃ t, exec (.lpcAnchorWrite hi val) s = .next t ∧ ∀ h, h < 2 → t.dev.reg (Pg.lpc h) (if hi then 0x110 else 0x10C) = val := by
  refine ⟨_, exec_lpcAnchorWrite val hr hu hi, fun h hh => ?_⟩
  rw [Dev.reg_settle_lpc _ _ (by split <;> decide), Dev.reg_lpcAnchorWrite (d := s.dev.fresh) hm hi val hh]

omit val in
theorem lpcSynIncWrite_setsHi (hm : s.dev.mode = Mode.ready.code) (hz : s.dev.fld (Pg.lpc 0) F.LPC_SYN_INC_LO = 0) :
    ∃ t, exec (.lpcSynIncWrite true 1#32) s = .next t ∧ t.dev.synInc = 2 ^ 32 := by
  obtain ⟨e, he⟩ := Dev.lpcSynIncWrite_hi (d := s.dev.fresh) hm hz
  refine ⟨_, exec_lpcSynIncWrite _ hr hu true, ?_⟩
  rw [he, Dev.synInc_settle, Dev.synInc_setInc _ (by decide) (by decide), Nat.zero_add, Nat.mul_one]
end

/-- Settles O36: what each event leaves of the counters, then what each write of a setting leaves, in READY and outside it. -/
theorem linePosition : Obligations.LinePosition := by
  unfold Obligations.LinePosition
  refine ⟨fun s hr => ⟨fun h j rest hj hc hd hl => lpcFirstAnchor_locks hr hj hc hd hl, fun h hs => lpcRateWindow_loads hr hs,
      fun theta mark hs hl hl' hx => lrefEdge_advances hr theta mark hs ?follows, fun hs hx => ?timeout,
      fun h hh hi => lpcAlignWord_takes hr hh hi, fun h hh hs hw => followerFreewheel_leaves hr hh hs hw⟩,
    fun s val hr hu _ hp => ⟨fun hm hlt hsrc hk hk' hd hd' ha => lpcRefWrite_takes hr hu hp hm ⟨hlt, hsrc, hk, hk', hd, hd'⟩ ha,
      fun hm => ⟨?ref, fun hi => ?inc, fun hi => ?anchor⟩,
      fun hm => ⟨fun hz hv => lpcSynIncWrite_setsLo val hr hu hm hz hv, ?high, fun hi => lpcAnchorWrite_sets val hr hu hm hi⟩⟩⟩
  case follows =>
    obtain ⟨hj, hx⟩ := forall₂_and.mp hx
    obtain ⟨hw, hx⟩ := forall₂_and.mp hx
    obtain ⟨hc, ha⟩ := forall₂_and.mp hx
    refine ⟨fun h hh => ?_, hj, hw, hc, ha⟩
    obtain rfl | rfl : h = 0 ∨ h = 1 := by omega
    · exact hl
    · exact hl'
  case timeout =>
    obtain ⟨hl, hx⟩ := forall₂_and.mp hx
    obtain ⟨hj, hx⟩ := forall₂_and.mp hx
    obtain ⟨hw, ha⟩ := forall₂_and.mp hx
    exact lrefTimeout_freewheels hr hs hl hj hw ha
  case ref =>
    obtain ⟨t, ht, kept⟩ := lpcRefWrite_refused val hr hu hm hp
    exact ⟨t, ht, kept.page _ (by decide) (by decide), kept.counted, kept.lpc⟩
  case inc =>
    obtain ⟨t, ht, kept⟩ := lpcSynIncWrite_refused val hr hu hm hi
    exact ⟨t, ht, kept.synInc, kept.counted, kept.lpc⟩
  case anchor =>
    obtain ⟨t, ht, kept⟩ := lpcAnchorWrite_refused val hr hu hm hi
    exact ⟨t, ht, kept.anchorPos, kept.counted, kept.lpc⟩
  case high =>
    rintro hz rfl
    exact lpcSynIncWrite_setsHi hr hu hm hz

end Sys2Proof.Machine
end

section
/-! PROOFS. The frame of OCM_WRITE_BACK names registers by page and offset, and an offset past its page is a register of a later one:
the refutation of O45. -/

namespace Sys2Proof.Machine

/-- An offset from page 0 that is a BAR0 address: it names the register that stands there, on whatever page (R475). -/
theorem Dev.reg_devPage (d : Dev) (pg off : Nat) : d.reg Pg.dev (raddr pg off) = d.reg pg off := by
  have ha : raddr Pg.dev (raddr pg off) = raddr pg off := Nat.zero_add _
  unfold Dev.reg
  rw [ha]

/-- A pair is enabled and PAIR_OK is driven, while the mode is BLANK: the end of the next command takes the device out of its pair (R460). -/
def droppingPair : State := ⟨({ pins := { pairOk := true } } : Dev).setFld Pg.pair F.PAIR_CTRL_EN 1, []⟩

theorem droppingPair_runs : droppingPair.dev.rst = .running ∧ droppingPair.dev.unpaired ∧ droppingPair.dev.cfgLock = false := by
  unfold Dev.unpaired
  decide +kernel

/-- OCM_WRITE_BACK changes nothing by itself; PAIR_STAT shows at its end that the device has dropped out. -/
theorem ocmWriteBack_droppingPair : ∃ t, exec (.ocmWriteBack 0) droppingPair = .next t
    ∧ t.dev.reg Pg.pair F.PAIR_STAT_STATE.off ≠ droppingPair.dev.reg Pg.pair F.PAIR_STAT_STATE.off := by
  refine ⟨_, State.run_running droppingPair _ _ droppingPair_runs.1, ?_⟩
  decide +kernel

/-- Refutes O45: its clause on OCM_WRITE_BACK keeps every register of a page `g` other than PAIR's at any offset, and with `g` the DEV page
and PAIR_STAT's address for the offset that register is PAIR_STAT, which a device that drops out of its pair changes. -/
theorem not_integrityAndCryptUnits : ¬ Obligations.IntegrityAndCryptUnits := by
  intro h
  obtain ⟨hr, hu, hl⟩ := droppingPair_runs
  obtain ⟨-, hocm, -⟩ := h droppingPair hr hu hl
  obtain ⟨t, ht, -, -, -, hkept⟩ := hocm 0
  obtain ⟨u, hu, hne⟩ := ocmWriteBack_droppingPair
  rw [ht] at hu
  cases hu
  have hstat := hkept Pg.dev (raddr Pg.pair F.PAIR_STAT_STATE.off) (by decide)
  rw [Dev.reg_devPage, Dev.reg_devPage] at hstat
  exact hne hstat

end Sys2Proof.Machine
end

section
/-! PROOFS. The stream instructions (O23): what an issue on a Newt engine leaves of the engine's task and offers, the step to the next
instruction, PEEK, PUSH, EMIT and its event line (R102, R146, R148, R151, R174). -/

namespace Sys2Proof.Machine

/-! What an issue leaves of a Newt engine's task, of the records it is offered and of its count of emitted records. -/

/-- What the choice of the next record offered to an engine reads. -/
def Dev.offerView (d : Dev) : SMap Rec × SMap (BitVec 512) × Nat × SMap Handover × SMap Nat :=
  (d.recs, d.flows, d.ck, d.handovers, d.holds)

theorem Dev.nextOffer_congr {d d' : Dev} (h : d'.offerView = d.offerView) (e : Nat) : d'.nextOffer e = d.nextOffer e := by
  simp only [Dev.offerView, Prod.mk.injEq] at h
  obtain ⟨hrecs, hflows, hck, hhand, hholds⟩ := h
  have hoff : ∀ r, d'.offerable r = d.offerable r := fun r => by
    unfold Dev.offerable Dev.inHandover Dev.resyncHeld; rw [hck, hhand, hholds]
  have hcur : ∀ h f, d'.curEngine h f = d.curEngine h f := fun h f => by
    unfold Dev.curEngine Dev.flowFld; rw [Dev.flow_of_flows hflows]
  unfold Dev.nextOffer
  simp only [hrecs, hoff, hcur]


/-- A step within an issue that changes nothing a stream instruction reads. -/
structure Dev.sameStream (d d' : Dev) (e : Nat) : Prop where
  tweaks : d.tweaks d' e
  task : (d'.engOf e).task = (d.engOf e).task
  pushed : (d'.engOf e).pushed = (d.engOf e).pushed
  window : (d'.engOf e).window = (d.engOf e).window
  offers : d'.offerView = d.offerView
  emitCnt : d'.fld (Pg.newt e) F.NEWT_EMIT_CNT = d.fld (Pg.newt e) F.NEWT_EMIT_CNT

theorem Dev.sameStream_refl (d : Dev) (e : Nat) : d.sameStream d e := ⟨d.tweaks_refl e, rfl, rfl, rfl, rfl, rfl⟩

theorem Dev.sameStream.trans {d d' d'' : Dev} {e : Nat} (h : d.sameStream d' e) (h' : d'.sameStream d'' e) : d.sameStream d'' e :=
  ⟨h.tweaks.trans h'.tweaks, h'.task.trans h.task, h'.pushed.trans h.pushed, h'.window.trans h.window, h'.offers.trans h.offers,
    h'.emitCnt.trans h.emitCnt⟩

theorem Dev.sameStream_ite {d a b : Dev} {e : Nat} {c : Prop} [Decidable c] (ha : d.sameStream a e) (hb : d.sameStream b e) :
    d.sameStream (if c then a else b) e := by split <;> assumption

theorem Dev.sameStream_of_eproj {d d' : Dev} (e : Nat) (h : d'.eproj = d.eproj) (ho : d'.offerView = d.offerView)
    (hf : d'.fld (Pg.newt e) F.NEWT_EMIT_CNT = d.fld (Pg.newt e) F.NEWT_EMIT_CNT) : d.sameStream d' e := by
  have hg := Dev.engOf_of_eproj h e
  exact ⟨Dev.tweaks_of_eproj e h, by rw [hg], by rw [hg], by rw [hg], ho, hf⟩

theorem Dev.eproj_of_rest {d d' : Dev} (h : d'.rest = d.rest) : d'.eproj = d.eproj :=
  (rfl : d'.eproj = d'.rest.eproj).trans ((congrArg Dev.eproj h).trans rfl)

theorem Dev.offerView_of_rest {d d' : Dev} (h : d'.rest = d.rest) : d'.offerView = d.offerView :=
  (rfl : d'.offerView = d'.rest.offerView).trans ((congrArg Dev.offerView h).trans rfl)

/-- A change of registers that leaves the count of emitted records. -/
theorem Dev.sameStream_of_rest {d d' : Dev} (e : Nat) (h : d'.rest = d.rest)
    (hf : d'.fld (Pg.newt e) F.NEWT_EMIT_CNT = d.fld (Pg.newt e) F.NEWT_EMIT_CNT) : d.sameStream d' e :=
  Dev.sameStream_of_eproj e (Dev.eproj_of_rest h) (Dev.offerView_of_rest h) hf

theorem Dev.fld_bumpBy_ne (d : Dev) {pg pg' : Nat} (f g : Fld) (k : Nat) (h : raddr pg f.off ≠ raddr pg' g.off) :
    (d.bumpBy pg f k).fld pg' g = d.fld pg' g := (Dev.fld_noteCount _ _ _ _ _ _).trans (d.fld_setFld_ne _ _ _ h)

theorem Dev.sameStream_bumpBy (d : Dev) {pg : Nat} (e : Nat) (f : Fld) (k : Nat) (h : raddr pg f.off ≠ raddr (Pg.newt e) 0x13C) :
    d.sameStream (d.bumpBy pg f k) e := Dev.sameStream_of_rest e (d.rest_bumpBy _ _ _) (d.fld_bumpBy_ne f F.NEWT_EMIT_CNT k h)

theorem Dev.sameStream_sched (d : Dev) (e k : Nat) (i : Instr) : d.sameStream (d.sched k i) e :=
  Dev.sameStream_of_eproj e (d.eproj_sched k i) rfl rfl

theorem Dev.sameStream_setEng (d : Dev) (e : Nat) (x : EngSt) (h : (d.engOf e).like x) (ht : x.task = (d.engOf e).task)
    (hp : x.pushed = (d.engOf e).pushed) (hw : x.window = (d.engOf e).window) : d.sameStream (d.setEng e x) e :=
  ⟨d.tweaks_setEng e x h, by rw [Dev.engOf_setEng, ht], by rw [Dev.engOf_setEng, hp], by rw [Dev.engOf_setEng, hw], rfl, rfl⟩

theorem Dev.settleStall_sameStream (d : Dev) (e : Nat) : d.sameStream (d.settleStall e) e :=
  (Dev.sameStream_setEng d e { d.engOf e with heldCk := 0, held := none } ⟨rfl, rfl, rfl, rfl⟩ rfl rfl rfl).trans
    (Dev.sameStream_ite (Dev.sameStream_bumpBy _ e _ _ (raddr_ne (by decide))) (Dev.sameStream_refl _ e))

theorem Dev.sameStream_setPlu (d : Dev) (e h : Nat) (x : PluSt) : d.sameStream (d.setPlu h x) e :=
  Dev.sameStream_of_eproj e (d.eproj_setPlu h x) rfl rfl

theorem Dev.countIssue_sameStream (d : Dev) (e : Nat) : d.sameStream (d.countIssue e) e := by
  unfold Dev.countIssue Dev.bump
  exact Dev.sameStream_ite ((d.sameStream_bumpBy e _ 1 (raddr_ne (by decide))).trans (Dev.sameStream_setPlu _ e _ _)) (d.sameStream_refl e)

theorem Dev.noteStep_sameStream (d : Dev) (e : Nat) : d.sameStream (d.noteStep e) e :=
  Dev.sameStream_ite ⟨d.tweaks_setDbg e e _, rfl, rfl, rfl, rfl, rfl⟩ (d.sameStream_refl e)

theorem Dev.noteIssue_sameStream (d : Dev) (e : Nat) (x : Isu) : d.sameStream (d.noteIssue e x) e :=
  (d.countIssue_sameStream e).trans (Dev.sameStream.trans
    (Dev.sameStream_setEng _ e (((d.countIssue e).engOf e).issued (d.countIssue e).ck x) ⟨rfl, rfl, rfl, rfl⟩ rfl rfl rfl)
    (Dev.sameStream.trans (Dev.sameStream_ite (Dev.sameStream_sched _ e _ _) (Dev.sameStream_refl _ e)) (Dev.noteStep_sameStream _ e)))

/-- Where nothing keeps it from issuing, an instruction has its effect on the block once its stall and issue are noted (R163, R164). -/
theorem Dev.issue_go (d : Dev) (e : Fin 196) (i : Instr) (x : Isu) (f : Dev → Dev) (h : d.canIssue e x) :
    d.issue e i x f = f (((d.dropFetch e.val).settleStall e.val).noteIssue e.val x.trim) := by
  obtain ⟨hruns, hturn, hfits, hready, hnoErr, hnoIrq, hnoStep, hnoRange⟩ := h
  have hpair : (match (d.engOf e.val).first with
      | some p => p.ck ≠ d.ck || pairs p x.trim
      | none => true) = true := by
    split
    · next p hp => simpa using hfits p hp
    · rfl
  have hrange : ∀ pc, ((d.dropFetch e.val).settleStall e.val).insRanges e.val pc = ((d.dropFetch e.val).settleStall e.val, false) := fun pc =>
    if_pos (by unfold Dev.dbgOf; rw [Dev.dbgs_settleStall]; exact hnoRange)
  have hirq : ¬ (192 ≤ e.val ∧ (d.gkTakeable (e.val - 192)).isSome) := fun hh => by simp [hnoIrq hh.1] at hh
  have heng : (d.dropFetch e.val).engOf e.val = d.engOf e.val := rfl
  have hck : (d.dropFetch e.val).ck = d.ck := rfl
  have hdbg : (d.dropFetch e.val).dbgOf e.val = d.dbgOf e.val := rfl
  have hgk : ∀ k, (d.dropFetch e.val).gkTakeable k = d.gkTakeable k := fun _ => rfl
  have hwait : (d.dropFetch e.val).waitOf e.val x.trim = .go := hready
  unfold Dev.issue
  simp only [heng, hck, hdbg, hgk, hwait, hruns, hnoErr, hrange, Nat.not_lt.mpr hturn, hirq,
    Nat.not_le.mpr hnoStep, not_true, false_and, if_false]
  exact if_neg (fun hn => hn hpair)

/-- What a stream instruction of a Newt engine that may issue comes to. -/
theorem run_stream (e : Fin 192) (i : Instr) (x : Isu) (f : Dev → Dev) {s : State} (hr : s.dev.rst = .running) (hc : s.dev.canIssue e x) :
    ∃ d', s.run i (fun d => d.stream (newtTarget e) i x f) = s.becomes (f d') ∧ s.dev.sameStream d' e := by
  have hb : s.dev.sameStream (s.dev.begin i) e := Dev.sameStream_of_eproj _ (Dev.eproj_begin _ _) rfl rfl
  have hd (d : Dev) : d.sameStream (d.dropFetch e) e := Dev.sameStream_of_eproj _ (d.eproj_dropFetch _) rfl rfl
  refine ⟨_, ?_, (hb.trans (hd _)).trans ((Dev.settleStall_sameStream _ _).trans (Dev.noteIssue_sameStream _ _ x.trim))⟩
  rw [State.run_running _ _ _ hr, Dev.stream, if_pos (show (newtTarget e).val < 192 from e.isLt)]
  exact congrArg s.becomes (Dev.issue_go _ (newtTarget e) i x f (Dev.canIssue_begin i hc))

/-! The step to the next instruction. -/

/-- A Newt engine fetches by putting its next instruction, or its trap, in place of the one that waits. -/
theorem Dev.fetch_newt (d : Dev) {t : Nat} (h : t < 192) : d.fetch t = d ∨ ∃ k i, d.fetch t = (d.dropFetch t).sched k i := by
  unfold Dev.fetch
  split
  · exact .inl rfl
  refine .inr ?_
  dsimp only
  unfold Dev.offerWord
  dsimp only
  split
  · exact ⟨_, _, rfl⟩
  · rw [if_pos h]; exact ⟨_, _, rfl⟩

theorem Dev.mem_sched_of_mem (d : Dev) {x : Nat × Instr} (k : Nat) (i : Instr) (h : x ∈ d.agenda) : x ∈ (d.sched k i).agenda := by
  unfold Dev.sched
  rcases Nat.lt_or_ge (d.ck + k) x.1 with hx | hx
  · simp [h, hx]
  · simp [h, hx]

/-- What of an event on the agenda a fetch leaves: an event that is no instruction of an engine stays. -/
theorem Dev.mem_next (d : Dev) {t : Nat} (ht : t < 192) {x : Nat × Instr} (h : x ∈ d.agenda) (hx : insTarget x.2 = none) :
    x ∈ (d.next t).agenda := by
  unfold Dev.next
  rcases Dev.fetch_newt (d.goTo t ((d.engOf t).pc + 1)) ht with hf | ⟨k, i, hf⟩
  · rw [hf]; exact h
  · rw [hf]
    exact Dev.mem_sched_of_mem _ k i (List.mem_filter.mpr ⟨h, by simp [hx]⟩)

theorem Dev.reg_next (d : Dev) {t : Nat} (ht : t < 192) (pg off : Nat) : (d.next t).reg pg off = d.reg pg off := by
  unfold Dev.next
  rcases Dev.fetch_newt (d.goTo t ((d.engOf t).pc + 1)) ht with hf | ⟨k, i, hf⟩
  · rw [hf]; rfl
  · rw [hf]; rfl

/-- The engine at the end of a command that went on to the next instruction. -/
theorem Dev.engOf_next_settle (d : Dev) (t : Nat) : ((d.next t).settle).engOf t = { d.engOf t with pc := pcOf t ((d.engOf t).pc + 1) } :=
  (Dev.engOf_of_eproj (Dev.eproj_settle _) t).trans (d.engOf_next t)

theorem Dev.next_settle_keeps (d : Dev) (t : Nat) : d.engKeeps (d.next t).settle t :=
  (d.next_keeps t).trans (Dev.engKeeps_of_eproj t (Dev.eproj_settle _))

/-! PEEK (R146). -/

/-- The engine once PEEK has given its result: a value in `dst`, a truth value in p0. -/
def Dev.peekGives (d : Dev) (e : Nat) (dst : Fin 32) (v : Word64) (b : Bool) : Dev :=
  ((d.result e dst v 2 false).predResult e 0 b 2 false).next e

theorem Dev.peek_some (d : Dev) {e rid : Nat} {r : Rec} (dst : Fin 32) (h : d.nextOffer e = some (rid, r)) :
    d.peek e dst = d.peekGives e dst (BitVec.ofNat 64 (leNat (((headerBytes r r.body.1 r.body.2).drop 8).take 8))) true := by
  unfold Dev.peek
  rw [h]
  rfl

theorem Dev.peek_none (d : Dev) {e : Nat} (dst : Fin 32) (h : d.nextOffer e = none) : d.peek e dst = d.peekGives e dst 0#64 false := by
  unfold Dev.peek
  rw [h]
  rfl

theorem Dev.engOf_result (d : Dev) (t : Nat) {r : Fin 32} (v : Word64) (k : Nat) (mem : Bool) (h : r ≠ 0) :
    (d.result t r v k mem).engOf t = { (d.engOf t).setReg r v with ready := sput (d.engOf t).ready r.val (max 0 (d.ck + k), mem) } := by
  unfold Dev.result
  dsimp only
  rw [if_neg (fun hh => h hh.1), if_neg h, Dev.engOf_setEng]

theorem Dev.result_keeps (d : Dev) (t : Nat) {r : Fin 32} (v : Word64) (k : Nat) (mem : Bool) (h : r ≠ 0) :
    d.engKeeps (d.result t r v k mem) t := by
  unfold Dev.result
  dsimp only
  rw [if_neg (fun hh => h hh.1)]
  exact d.engKeeps_setEng t _

/-- What a PEEK changes of its engine's registers and predicates. -/
structure Dev.peeked (d d' : Dev) (e : Nat) (dst : Fin 32) (v : Word64) (b : Bool) : Prop where
  keeps : d.engKeeps d' e
  val : (d'.engOf e).reg dst = v
  found : (d'.engOf e).pred 0 = b
  preds : ∀ q, q ≠ 0 → (d'.engOf e).pred q = (d.engOf e).pred q
  regs : ∀ r, r ≠ dst → (d'.engOf e).reg r = (d.engOf e).reg r

theorem Dev.peekGives_peeked (d : Dev) (e : Nat) {dst : Fin 32} (v : Word64) (b : Bool) (h : dst ≠ 0) :
    d.peeked (d.peekGives e dst v b).settle e dst v b := by
  unfold Dev.peekGives
  have hreg : ∀ q, ((((d.result e dst v 2 false).predResult e 0 b 2 false).next e).settle.engOf e).reg q = ((d.engOf e).setReg dst v).reg q := by
    intro q
    rw [Dev.engOf_next_settle, Dev.predResult, Dev.engOf_setEng, d.engOf_result e v 2 false h]
    rfl
  have hpred : ∀ q, ((((d.result e dst v 2 false).predResult e 0 b 2 false).next e).settle.engOf e).pred q
      = (((d.engOf e).setReg dst v).setPred 0 b).pred q := by
    intro q
    rw [Dev.engOf_next_settle, Dev.predResult, Dev.engOf_setEng, d.engOf_result e v 2 false h]
    rfl
  refine ⟨((d.result_keeps e v 2 false h).trans (Dev.engKeeps_setEng _ e _)).trans (Dev.next_settle_keeps _ e), ?_, ?_,
    fun q hq => ?_, fun r hr => ?_⟩
  · rw [hreg, EngSt.reg_setReg, if_neg h]
  · rw [hpred, EngSt.pred_setPred]
  · rw [hpred, EngSt.pred_setPred_ne _ _ hq, EngSt.setReg, if_neg h]; rfl
  · rw [hreg, EngSt.reg_setReg_ne _ _ hr]

theorem EngSt.like.reg {g g' : EngSt} (h : g.like g') (r : Fin 32) : g'.reg r = g.reg r := by unfold EngSt.reg; rw [h.n]
theorem EngSt.like.pred {g g' : EngSt} (h : g.like g') (q : Fin 8) : g'.pred q = g.pred q := by unfold EngSt.pred; rw [h.p]

theorem Dev.peeked.of_tweaks {d d' d'' : Dev} {e : Nat} {dst : Fin 32} {v : Word64} {b : Bool} (h : d.tweaks d' e)
    (hp : d'.peeked d'' e dst v b) : d.peeked d'' e dst v b :=
  ⟨h.keeps.trans hp.keeps, hp.val, hp.found, fun q hq => (hp.preds q hq).trans (h.like.pred q), fun r hr => (hp.regs r hr).trans (h.like.reg r)⟩

/-- PEEK gives header bytes 8 to 15 of the next offered record and sets p0, or clears both. -/
theorem exec_peek (e : Fin 192) {dst : Fin 32} {s : State} (h0 : dst ≠ 0) (hr : s.dev.rst = .running)
    (hc : s.dev.canIssue e { mSlot := true, writes := [nReg dst, pReg 0] }) :
    ∃ t, exec (.peek (newtTarget e) dst) s = .next t
      ∧ (∀ rid r, s.dev.nextOffer e = some (rid, r) →
          s.dev.peeked t.dev e dst (BitVec.ofNat 64 (leNat (((headerBytes r r.body.1 r.body.2).drop 8).take 8))) true)
      ∧ (s.dev.nextOffer e = none → s.dev.peeked t.dev e dst 0#64 false) := by
  obtain ⟨d', hrun, hd⟩ := run_stream e (.peek (newtTarget e) dst) _ (fun d => d.peek e dst) hr hc
  have hoff := Dev.nextOffer_congr hd.offers e
  refine ⟨_, hrun, fun rid r h => ?_, fun h => ?_⟩
  · change s.dev.peeked (d'.peek e dst).settle e dst _ _
    rw [d'.peek_some dst (hoff.trans h)]
    exact (d'.peekGives_peeked e _ _ h0).of_tweaks hd.tweaks
  · change s.dev.peeked (d'.peek e dst).settle e dst _ _
    rw [d'.peek_none dst (hoff.trans h)]
    exact (d'.peekGives_peeked e _ _ h0).of_tweaks hd.tweaks

/-! EMIT and its event line (R102, R151). -/

/-- EMIT raises its event line a CK later and goes on. -/
theorem exec_emit (e : Fin 192) (line : Fin 8) {s : State} (hr : s.dev.rst = .running) (hc : s.dev.canIssue e { mSlot := true }) :
    ∃ t, exec (.emit (newtTarget e) line) s = .next t ∧ (s.dev.ck + 1, .userEventLine (halfOf (engHalf e)) line) ∈ t.dev.agenda
      ∧ s.dev.engSteps t.dev (newtTarget e) ∧ s.dev.engKeeps t.dev e := by
  obtain ⟨d', hrun, hd⟩ := run_stream e (.emit (newtTarget e) line) _
    (fun d => (d.sched 1 (.userEventLine (halfOf (engHalf e)) line)).next e) hr hc
  have hs := d'.sameStream_sched e 1 (.userEventLine (halfOf (engHalf e)) line)
  have hl := (hd.trans hs).tweaks
  have he := Dev.engOf_next_settle (d'.sched 1 (.userEventLine (halfOf (engHalf e)) line)) e
  refine ⟨_, hrun, ?_, ⟨?_, ?_, ?_⟩, hl.keeps.trans (Dev.next_settle_keeps _ e)⟩
  · change _ ∈ (Dev.settle _).agenda
    rw [Dev.settle_agenda]
    refine Dev.mem_next _ e.isLt ?_ rfl
    rw [← hd.tweaks.ck]
    exact Dev.mem_sched _ _ _
  · exact (congrArg EngSt.n he).trans hl.like.n
  · exact (congrArg EngSt.p he).trans hl.like.p
  · exact (congrArg EngSt.pc he).trans (congrArg (fun x => pcOf e (x + 1)) hl.like.pc)

/-- An event is among those present at a half's sequencers. -/
theorem Dev.mem_trigEvent (d : Dev) (h src : Nat) (lp : LP) : ⟨d.ck, src, lp, none⟩ ∈ sget [] (d.trigEvent h src lp).trigEvs h := by
  unfold Dev.trigEvent
  rw [sget_sset_same]
  simp

theorem Dev.settle_trigEvs (d : Dev) : d.settle.trigEvs = d.trigEvs := by
  have h : d.settle.rest.trigEvs = d.rest.trigEvs := congrArg Dev.trigEvs d.rest_settle
  exact h

/-- The event line of an EMIT is due: its event stands among the events of its CK. -/
theorem exec_userEventLine_due {h : Half} {line : Fin 8} {s : State} {c : Nat} (hr : s.dev.rst = .running)
    (hdue : (c, .userEventLine h line) ∈ s.dev.agenda) (hck : c ≤ s.dev.ck)
    (hnew : (sget [] s.dev.trigEvs h.val).any (fun x => decide (x.ck = s.dev.ck) && decide (x.src = 0x69 + line.val)) = false) :
    ∃ t, exec (.userEventLine h line) s = .next t ∧ ⟨s.dev.ck, 0x69 + line.val, s.dev.pubLp h.val, none⟩ ∈ sget [] t.dev.trigEvs h.val
      ∧ t.dev.recs = s.dev.recs ∧ t.dev.mem = s.dev.mem := by
  have hany : s.dev.agenda.any (fun e => decide (e.1 ≤ s.dev.ck) && decide (e.2 = .userEventLine h line)) = true :=
    List.any_eq_true.mpr ⟨_, hdue, by simp [hck]⟩
  have hx : exec (.userEventLine h line) s
      = s.becomes ((s.dev.begin (.userEventLine h line)).trigEvent h.val (0x69 + line.val) (s.dev.pubLp h.val)) := by
    change execUserEventLine h line s = _
    rw [execUserEventLine, State.run_running _ _ _ hr, hany, Bool.true_or, if_pos rfl, Dev.userEventLine]
    exact congrArg s.becomes (if_neg (by rw [Bool.not_eq_true]; exact hnew))
  refine ⟨_, hx, ?_, (Dev.recs_of_rest (Dev.rest_settle _)).trans rfl, (Dev.mem_of_rest (Dev.rest_settle _)).trans rfl⟩
  change _ ∈ sget [] (Dev.settle _).trigEvs h.val
  rw [Dev.settle_trigEvs]
  exact Dev.mem_trigEvent (s.dev.begin _) _ _ _

/-! PUSH (R148). -/

/-- The task of an engine has emitted its record: payload, tag and TRUNC stand in it, it is due at the capture writer and counted. -/
structure Dev.emits (d d' : Dev) (e rid : Nat) (payload : List Byte) (trunc : Bool) (tag : Nat) : Prop where
  pushed : (d'.engOf e).pushed = true
  st : (d'.recOf rid).st = .emitted
  payload : (d'.recOf rid).body.1 = payload
  tag : (d'.recOf rid).tag = tag % 2 ^ 24
  trunc : bit (d'.recOf rid).body.2 1 = (bit (d.recOf rid).body.2 1 || trunc)
  due : (d.ck + 4, .captureWrite (halfOf (d.recOf rid).half) 0) ∈ d'.agenda
  count : d'.fld (Pg.newt e) F.NEWT_EMIT_CNT = min (d.fld (Pg.newt e) F.NEWT_EMIT_CNT + 1) 0xFFFFFFFF
  n : (d'.engOf e).n = (d.engOf e).n
  mem : d'.mem = d.mem

/-- A step after an emission that leaves all of it. -/
structure Dev.emitStays (d d' : Dev) (e rid : Nat) : Prop where
  pushed : (d'.engOf e).pushed = (d.engOf e).pushed
  st : (d'.recOf rid).st = (d.recOf rid).st
  body : (d'.recOf rid).body = (d.recOf rid).body
  tag : (d'.recOf rid).tag = (d.recOf rid).tag
  due : ∀ x ∈ d.agenda, insTarget x.2 = none → x ∈ d'.agenda
  count : d'.fld (Pg.newt e) F.NEWT_EMIT_CNT = d.fld (Pg.newt e) F.NEWT_EMIT_CNT
  n : (d'.engOf e).n = (d.engOf e).n
  mem : d'.mem = d.mem

theorem Dev.emits.stays {d d' d'' : Dev} {e rid : Nat} {payload : List Byte} {trunc : Bool} {tag : Nat}
    (h : d.emits d' e rid payload trunc tag) (h' : d'.emitStays d'' e rid) : d.emits d'' e rid payload trunc tag :=
  ⟨h'.pushed.trans h.pushed, h'.st.trans h.st, (congrArg Prod.fst h'.body).trans h.payload, h'.tag.trans h.tag,
    (congrArg (fun b => bit b.2 1) h'.body).trans h.trunc, h'.due _ h.due rfl, h'.count.trans h.count, h'.n.trans h.n, h'.mem.trans h.mem⟩

/-- An emission by an engine whose issue left task, records, memory and count as they were. -/
theorem Dev.emits.of_sameStream {d d' d'' : Dev} {e rid : Nat} {payload : List Byte} {trunc : Bool} {tag : Nat}
    (hd : d.sameStream d' e) (h : d'.emits d'' e rid payload trunc tag) : d.emits d'' e rid payload trunc tag := by
  have hrec := Dev.recOf_congr hd.tweaks.keeps.recs rid
  refine ⟨h.pushed, h.st, h.payload, h.tag, ?_, ?_, ?_, h.n.trans hd.tweaks.like.n, h.mem.trans hd.tweaks.keeps.mem⟩
  · rw [h.trunc, hrec]
  · have := h.due
    rwa [hrec, hd.tweaks.ck] at this
  · rw [h.count, hd.emitCnt]

theorem bit_eq (x k : Nat) : bit x k = decide (bitsOf x k 1 = 1) := by
  unfold bit bitsOf
  rw [Nat.testBit_eq_decide_div_mod_eq, pow_one]

theorem bit_bitsPut (x k : Nat) (b : Bool) : bit (bitsPut x k 1 (b01 b)) k = b := by
  rw [bit_eq, bitsOf_bitsPut]
  cases b <;> rfl

theorem bit_bitsPut_below (x v : Nat) {k lo : Nat} (h : k < lo) : bit (bitsPut x lo 1 v) k = bit x k := by
  rw [bit_eq, bit_eq, bitsOf_bitsPut_below _ _ _ _ _ _ h]

/-- The record a PUSH emits (R124, R148, R150). -/
def Dev.emittedRec (d : Dev) (e rid : Nat) (payload : List Byte) (trunc : Bool) (tag : Nat) : Rec :=
  { d.recOf rid with
    st := .emitted
    emit := some (payload, bitsPut (bitsPut (d.recOf rid).body.2 1 1 (b01 (bit (d.recOf rid).body.2 1 || trunc))) 4 1 (b01 (d.engOf e).poison))
    poison := (d.engOf e).poison, engine := e, tag := tag % 2 ^ 24, emitCk := d.ck + 4 }

/-- The block once the emitted record stands in it and its engine has pushed. -/
def Dev.emission (d : Dev) (e rid : Nat) (payload : List Byte) (trunc : Bool) (tag : Nat) : Dev :=
  (d.setRec rid (d.emittedRec e rid payload trunc tag)).setEng e { d.engOf e with pushed := true }

/-- A PUSH of a task counts the record and has it written 4 CK later. -/
theorem Dev.push_of_task (d : Dev) {e rid : Nat} (payload : List Byte) (trunc : Bool) (tag : Nat) (h : (d.engOf e).task = some rid) :
    d.push e payload trunc tag
      = ((d.emission e rid payload trunc tag).bump (Pg.newt e) F.NEWT_EMIT_CNT).sched 4 (.captureWrite (halfOf (d.recOf rid).half) 0) := by
  unfold Dev.push
  dsimp only
  split
  · next hnone => exact absurd (h.symm.trans hnone) (by simp)
  · next rid' hsome =>
    obtain rfl : rid = rid' := Option.some.inj (h.symm.trans hsome)
    rfl

theorem Dev.eproj_push (d : Dev) {e rid : Nat} (payload : List Byte) (trunc : Bool) (tag : Nat) (h : (d.engOf e).task = some rid) :
    (d.push e payload trunc tag).eproj = (d.emission e rid payload trunc tag).eproj := by
  rw [d.push_of_task payload trunc tag h, Dev.eproj_sched, Dev.eproj_bump]

theorem Dev.engOf_push (d : Dev) {e rid : Nat} (payload : List Byte) (trunc : Bool) (tag : Nat) (h : (d.engOf e).task = some rid) :
    (d.push e payload trunc tag).engOf e = { d.engOf e with pushed := true } :=
  (Dev.engOf_of_eproj (d.eproj_push payload trunc tag h) e).trans (Dev.engOf_setEng _ _ _)

theorem Dev.recOf_push (d : Dev) {e rid : Nat} (payload : List Byte) (trunc : Bool) (tag : Nat) (h : (d.engOf e).task = some rid) :
    (d.push e payload trunc tag).recOf rid = d.emittedRec e rid payload trunc tag :=
  (Dev.recOf_congr (Dev.recs_of_eproj (d.eproj_push payload trunc tag h)) rid).trans (d.recOf_setRec rid _)

theorem Dev.push_due (d : Dev) {e rid : Nat} (payload : List Byte) (trunc : Bool) (tag : Nat) (h : (d.engOf e).task = some rid) :
    (d.ck + 4, .captureWrite (halfOf (d.recOf rid).half) 0) ∈ (d.push e payload trunc tag).agenda := by
  have hck : ((d.emission e rid payload trunc tag).bump (Pg.newt e) F.NEWT_EMIT_CNT).ck = d.ck :=
    (Dev.ck_of_eproj (Dev.eproj_bump _ _ _)).trans rfl
  rw [d.push_of_task payload trunc tag h, ← hck]
  exact Dev.mem_sched _ _ _

theorem Dev.push_count (d : Dev) {e rid : Nat} (payload : List Byte) (trunc : Bool) (tag : Nat) (h : (d.engOf e).task = some rid) :
    (d.push e payload trunc tag).fld (Pg.newt e) F.NEWT_EMIT_CNT = min (d.fld (Pg.newt e) F.NEWT_EMIT_CNT + 1) 0xFFFFFFFF := by
  rw [d.push_of_task payload trunc tag h]
  exact (d.emission e rid payload trunc tag).fld_bump (Pg.newt e) F.NEWT_EMIT_CNT (by decide)

theorem Dev.push_emits (d : Dev) {e rid : Nat} (payload : List Byte) (trunc : Bool) (tag : Nat) (h : (d.engOf e).task = some rid) :
    d.emits (d.push e payload trunc tag) e rid payload trunc tag := by
  have hrec := d.recOf_push payload trunc tag h
  have heng := d.engOf_push payload trunc tag h
  refine ⟨by rw [heng], by rw [hrec]; rfl, by rw [hrec]; rfl, by rw [hrec]; rfl, ?_, d.push_due payload trunc tag h,
    d.push_count payload trunc tag h, by rw [heng],
    (Dev.mem_of_eproj (d.eproj_push payload trunc tag h)).trans rfl⟩
  rw [hrec]
  exact (bit_bitsPut_below _ _ (by decide)).trans (bit_bitsPut _ _ _)

theorem Dev.emitStays.trans {d d' d'' : Dev} {e rid : Nat} (h : d.emitStays d' e rid) (h' : d'.emitStays d'' e rid) : d.emitStays d'' e rid :=
  ⟨h'.pushed.trans h.pushed, h'.st.trans h.st, h'.body.trans h.body, h'.tag.trans h.tag, fun x hx hi => h'.due x (h.due x hx hi) hi,
    h'.count.trans h.count, h'.n.trans h.n, h'.mem.trans h.mem⟩

theorem Dev.emitStays_setEng (d : Dev) (e rid : Nat) (x : EngSt) (hp : x.pushed = (d.engOf e).pushed) (hn : x.n = (d.engOf e).n) :
    d.emitStays (d.setEng e x) e rid :=
  ⟨by rw [Dev.engOf_setEng, hp], rfl, rfl, rfl, fun _ hx _ => hx, rfl, by rw [Dev.engOf_setEng, hn], rfl⟩

theorem Dev.emitStays_sched (d : Dev) (e rid k : Nat) (i : Instr) : d.emitStays (d.sched k i) e rid :=
  ⟨rfl, rfl, rfl, rfl, fun _ hx _ => d.mem_sched_of_mem k i hx, rfl, rfl, rfl⟩

theorem Dev.emitStays_setRec (d : Dev) (e rid : Nat) (r : Rec) (hs : r.st = (d.recOf rid).st) (hb : r.body = (d.recOf rid).body)
    (ht : r.tag = (d.recOf rid).tag) : d.emitStays (d.setRec rid r) e rid :=
  ⟨rfl, by rw [Dev.recOf_setRec, hs], by rw [Dev.recOf_setRec, hb], by rw [Dev.recOf_setRec, ht], fun _ hx _ => hx, rfl, rfl, rfl⟩

theorem Dev.emitStays_next_settle (d : Dev) {e : Nat} (rid : Nat) (he : e < 192) : d.emitStays (d.next e).settle e rid := by
  have heng := d.engOf_next_settle e
  have hkeep := d.next_settle_keeps e
  have hrec := Dev.recOf_congr hkeep.recs rid
  refine ⟨by rw [heng], by rw [hrec], by rw [hrec], by rw [hrec], fun x hx hi => ?_, ?_, by rw [heng], hkeep.mem⟩
  · rw [Dev.settle_agenda]
    exact d.mem_next he hx hi
  · rw [Dev.fld_settle _ _ _ (fun hh => absurd (raddr_inj (by decide) (by decide) hh).2 (by decide)), Dev.fld, Dev.reg_next _ he]
    rfl

/-- What PUSH.CUR does within a task that has not pushed, its length within the popped payload. -/
theorem Dev.pushCur_eq (d : Dev) {e rid len : Nat} (tag : Nat) (trunc : Bool) (ht : (d.engOf e).task = some rid)
    (hp : (d.engOf e).pushed = false) (hl : len + 32 ≤ (d.engOf e).window.length) :
    d.pushCur e len tag trunc
      = (d.push e (((d.engOf e).window.drop 32).take len) (trunc || decide (len + 32 < (d.engOf e).window.length)) tag).next e := by
  have hlen : len < (d.engOf e).window.length - 32 ↔ len + 32 < (d.engOf e).window.length := by omega
  unfold Dev.pushCur
  dsimp only
  rw [if_neg (by simp [ht, hp]; omega), decide_eq_decide.mpr hlen]

/-- PUSH.CUR emits the first `len` bytes of the popped payload. -/
theorem exec_pushCur (e : Fin 192) (a b : Fin 32) (trunc : Bool) {s : State} {rid len : Nat} (hr : s.dev.rst = .running)
    (hc : s.dev.canIssue e { mSlot := true, reads := [nReg a, nReg b] }) (ht : (s.dev.engOf e).task = some rid)
    (hp : (s.dev.engOf e).pushed = false) (hlen : len = ((s.dev.engOf e).reg a).toNat % 2 ^ 16)
    (hl : len + 32 ≤ (s.dev.engOf e).window.length) :
    ∃ t, exec (.pushCur (newtTarget e) a b trunc) s = .next t
      ∧ s.dev.emits t.dev e rid (((s.dev.engOf e).window.drop 32).take len)
        (trunc || decide (len + 32 < (s.dev.engOf e).window.length)) (((s.dev.engOf e).reg b).toNat % 2 ^ 24) := by
  subst hlen
  obtain ⟨d', hrun, hd⟩ := run_stream e (.pushCur (newtTarget e) a b trunc) _
    (fun d => d.pushCur e (((d.engOf e).reg a).toNat % 2 ^ 16) (((d.engOf e).reg b).toNat % 2 ^ 24) trunc) hr hc
  refine ⟨_, hrun, ?_⟩
  change s.dev.emits (d'.pushCur e _ _ trunc).settle e rid _ _ _
  rw [hd.tweaks.like.reg a, hd.tweaks.like.reg b,
    d'.pushCur_eq _ trunc (hd.task.trans ht) (hd.pushed.trans hp) (by rw [hd.window]; exact hl), hd.window]
  exact ((d'.push_emits _ _ _ (hd.task.trans ht)).stays (Dev.emitStays_next_settle _ rid e.isLt)).of_sameStream hd

theorem raddr_newt_ne {b : Blk} (i e : Nat) {off off' : Nat} (h : off < 4096) (h' : off' < 4096) (hb : b.base + i < Blk.newt.base) :
    raddr (b.page i) off ≠ raddr (Pg.newt e) off' := fun hh => by
  have hpg : b.base + i = Blk.newt.base + e := (raddr_inj h h' hh).1
  omega

theorem Dev.sameStream_err (d : Dev) {pg : Nat} (e idx code : Nat) (h1 : raddr pg (0x020 + 4 * idx) ≠ raddr (Pg.newt e) 0x13C)
    (h2 : raddr pg 0x01C ≠ raddr (Pg.newt e) 0x13C) : d.sameStream (d.err pg idx code) e :=
  Dev.sameStream_of_rest e (d.rest_err _ _ _) (d.fld_err_other _ _ _ F.NEWT_EMIT_CNT h1 h2)

theorem Dev.sameStream_ocm (d : Dev) (e k : Nat) : d.sameStream (d.ocm Oc.scratch k) e := by
  have hdev {off : Nat} (h : off < 4096) : raddr Pg.dev off ≠ raddr (Pg.newt e) 0x13C := raddr_newt_ne 0 e h (by decide) (by decide)
  unfold Dev.ocm Dev.bump
  exact Dev.sameStream_ite ((d.sameStream_bumpBy e _ 1 (hdev (by decide))).trans (Dev.sameStream_sched _ e _ _))
    (Dev.sameStream_ite ((d.sameStream_bumpBy e _ 1 (hdev (by decide))).trans (Dev.sameStream_err _ e 2 _ (hdev (by decide)) (hdev (by decide))))
      (d.sameStream_refl e))

theorem Dev.sameStream_setPoison (d : Dev) (e : Nat) :
    d.sameStream ((d.setEng e { d.engOf e with poison := true }).setFld (Pg.newt e) F.NEWT_STAT_POISON 1) e := by
  refine Dev.sameStream.trans ?_ (Dev.sameStream_of_rest e (Dev.rest_setFld _ _ _ _)
    (Dev.fld_setFld_ne _ F.NEWT_STAT_POISON F.NEWT_EMIT_CNT 1 (raddr_ne (by decide))))
  exact d.sameStream_setEng e _ ⟨rfl, rfl, rfl, rfl⟩ rfl rfl rfl

theorem Dev.sameStream_poisonLoad (d : Dev) {e : Nat} (he : e < 192) : d.sameStream (d.poisonLoad e) e := by
  have hcount : d.sameStream ((d.bump (Pg.newt e) F.NEWT_POISON_CNT).err (Pg.newt e) 5 0x0706) e :=
    (d.sameStream_bumpBy e F.NEWT_POISON_CNT 1 (raddr_ne (by decide))).trans
      (Dev.sameStream_err _ e 5 _ (raddr_ne (by decide)) (raddr_ne (by decide)))
  unfold Dev.poisonLoad
  rw [if_pos he]
  exact hcount.trans (Dev.sameStream_ite (Dev.sameStream_setPoison _ e) (Dev.sameStream_refl _ e))

/-- A scratchpad word read, whatever its check bits show, changes nothing that a PUSH reads but the task's poison (R150). -/
theorem Dev.sameStream_ocmLoad (d : Dev) {e : Nat} (ecc : Nat) (he : e < 192) : d.sameStream (d.ocmLoad e Oc.scratch ecc) e := by
  unfold Dev.ocmLoad
  exact Dev.sameStream_ite ((d.sameStream_ocm e ecc).trans (Dev.sameStream_poisonLoad _ he)) (d.sameStream_ocm e ecc)

/-- The block once the copy of a PUSH.SP is under way (R174): the capture writer is due at its end, the M slot is held until then. -/
def Dev.copying (d : Dev) (e rid addr len : Nat) : Dev :=
  ((d.setRec rid { d.recOf rid with copyCk := d.ck + max 1 ((len + 31) / 32) + 3 }).sched (max 1 ((len + 31) / 32) + 3)
      (.captureWrite (halfOf (engHalf e)) 0)).setEng e
    { d.engOf e with
      mFree := max (d.engOf e).mFree (d.ck + max 1 ((len + 31) / 32))
      copy := (d.engOf e).task.map (fun rid => (rid, addr, len, d.ck)) }

theorem Dev.copying_stays (d : Dev) (e rid addr len : Nat) : d.emitStays (d.copying e rid addr len) e rid := by
  unfold Dev.copying
  refine Dev.emitStays.trans ?_ (Dev.emitStays_setEng _ e rid _ ?_ ?_)
  · exact Dev.emitStays.trans (d.emitStays_setRec e rid { d.recOf rid with copyCk := d.ck + max 1 ((len + 31) / 32) + 3 } rfl rfl rfl)
      (Dev.emitStays_sched _ e rid _ _)
  · rfl
  · rfl

/-- What PUSH.SP does within a task that has not pushed, its bytes within the scratchpad. -/
theorem Dev.pushSp_eq (d : Dev) {e rid addr len : Nat} (tag : Nat) (trunc : Bool) (ecc : Nat) (he : e < 192) (ht : (d.engOf e).task = some rid)
    (hp : (d.engOf e).pushed = false) (hl : len ≤ 65504) (ha : addr % 32 = 0) (hal : addr + len ≤ 0x2_0000) :
    d.pushSp e addr len tag trunc ecc
      = (((d.ocmLoad e Oc.scratch ecc).push e (d.bytes (Na.sp e + addr) len) trunc tag).copying e rid addr len).next e := by
  have hs := d.sameStream_ocmLoad ecc he
  have hb : (d.ocmLoad e Oc.scratch ecc).bytes (Na.sp e + addr) len = d.bytes (Na.sp e + addr) len := by
    unfold Dev.bytes Dev.byte; rw [hs.tweaks.keeps.mem]
  have htask : (((d.ocmLoad e Oc.scratch ecc).push e (d.bytes (Na.sp e + addr) len) trunc tag).engOf e).task = some rid := by
    rw [Dev.engOf_push _ _ _ _ (hs.task.trans ht)]; exact hs.task.trans ht
  unfold Dev.pushSp
  dsimp only
  rw [if_neg (by simp [ht, hp, ha]; omega), hb]
  split
  · next rid' hsome =>
    obtain rfl : rid = rid' := Option.some.inj (htask.symm.trans hsome)
    rfl
  · next hnone => exact absurd (htask.symm.trans hnone) (by simp)

theorem Dev.ck_le_mFree_copying (d : Dev) (e rid addr len : Nat) : d.ck + max 1 ((len + 31) / 32) ≤ ((d.copying e rid addr len).engOf e).mFree := by
  unfold Dev.copying
  rw [Dev.engOf_setEng]
  exact Nat.le_max_right _ _

theorem Dev.ck_push (d : Dev) {e rid : Nat} (payload : List Byte) (trunc : Bool) (tag : Nat) (h : (d.engOf e).task = some rid) :
    (d.push e payload trunc tag).ck = d.ck :=
  (Dev.ck_of_eproj (d.eproj_push payload trunc tag h)).trans rfl

/-- PUSH.SP emits `len` bytes of the scratchpad and holds the M slot while they are copied. -/
theorem exec_pushSp (e : Fin 192) (dst a b : Fin 32) (trunc : Bool) (ecc : Fin 3) {s : State} {rid len x : Nat} (hr : s.dev.rst = .running)
    (hc : s.dev.canIssue e { mSlot := true, reads := [nReg dst, nReg a, nReg b] }) (ht : (s.dev.engOf e).task = some rid)
    (hp : (s.dev.engOf e).pushed = false) (hlen : len = ((s.dev.engOf e).reg a).toNat % 2 ^ 16) (hx : x = ((s.dev.engOf e).reg dst).toNat)
    (hl : len ≤ 65504) (ha : x % 32 = 0) (hal : x + len ≤ 0x2_0000) :
    ∃ t, exec (.pushSp (newtTarget e) dst a b trunc ecc) s = .next t
      ∧ s.dev.emits t.dev e rid (s.dev.bytes (Na.sp e + x) len) trunc (((s.dev.engOf e).reg b).toNat % 2 ^ 24)
      ∧ s.dev.ck + max 1 ((len + 31) / 32) ≤ (t.dev.engOf e).mFree := by
  subst hlen hx
  obtain ⟨d', hrun, hd⟩ := run_stream e (.pushSp (newtTarget e) dst a b trunc ecc) _
    (fun d => d.pushSp e ((d.engOf e).reg dst).toNat (((d.engOf e).reg a).toNat % 2 ^ 16) (((d.engOf e).reg b).toNat % 2 ^ 24) trunc ecc.val) hr hc
  have hload := d'.sameStream_ocmLoad ecc.val e.isLt
  have htask := hload.task.trans (hd.task.trans ht)
  have hbytes : ∀ a n, d'.bytes a n = s.dev.bytes a n := fun a n => by unfold Dev.bytes Dev.byte; rw [hd.tweaks.keeps.mem]
  refine ⟨_, hrun, ?_⟩
  change s.dev.emits (d'.pushSp e _ _ _ trunc ecc.val).settle e rid _ _ _ ∧ _ ≤ ((d'.pushSp e _ _ _ trunc ecc.val).settle.engOf e).mFree
  rw [hd.tweaks.like.reg dst, hd.tweaks.like.reg a, hd.tweaks.like.reg b,
    d'.pushSp_eq _ trunc ecc.val e.isLt (hd.task.trans ht) (hd.pushed.trans hp) hl ha hal, hbytes]
  constructor
  · exact (((Dev.push_emits _ _ _ _ htask).stays (Dev.copying_stays _ _ _ _ _)).stays
      (Dev.emitStays_next_settle _ rid e.isLt)).of_sameStream (hd.trans hload)
  · rw [Dev.engOf_next_settle, ← (hd.trans hload).tweaks.ck, ← Dev.ck_push _ _ _ _ htask]
    exact Dev.ck_le_mFree_copying _ _ _ _ _

/-- Settles O23: each instruction takes effect on the block as its issue leaves it, and the step to the next one keeps what it did. -/
theorem streamInstructions : Obligations.StreamInstructions := by
  intro e dst a b trunc ecc line s hr
  refine ⟨fun h0 hc => ?_, fun rid len hc ht hp hlen hl => ?_, fun rid len x hc ht hp hlen hx hl ha hal => ?_, exec_emit e line hr,
    fun _ _ => exec_userEventLine_due hr⟩
  · obtain ⟨t, hx, hsome, hnone⟩ := exec_peek e h0 hr hc
    cases ho : s.dev.nextOffer e with
    | none =>
      have p := hnone ho
      exact ⟨t, hx, p.keeps, fun _ _ hh => absurd hh (by simp), fun _ => ⟨p.found, p.val⟩, p.preds, p.regs⟩
    | some y =>
      have p := hsome y.1 y.2 ho
      refine ⟨t, hx, p.keeps, fun rid r hh => ?_, fun hh => absurd hh (by simp), p.preds, p.regs⟩
      obtain rfl : y = (rid, r) := Option.some.inj hh
      exact ⟨p.found, p.val⟩
  · obtain ⟨t, hx, p⟩ := exec_pushCur e a b trunc hr hc ht hp hlen hl
    exact ⟨t, hx, p.pushed, p.st, p.payload, p.tag.trans (Nat.mod_mod _ _), p.trunc.trans (Bool.or_assoc _ _ _).symm, p.due, p.count, p.n, p.mem⟩
  · obtain ⟨t, hx, p, hfree⟩ := exec_pushSp e dst a b trunc ecc hr hc ht hp hlen hx hl ha hal
    exact ⟨t, hx, p.pushed, p.st, p.payload, p.tag.trans (Nat.mod_mod _ _), p.due, hfree, p.n, p.mem⟩

end Sys2Proof.Machine
end

section
/-! PROOFS. What the operations of the capture queue leave of records, flow tables, allocation points and queues, and what a window of
registers reads. -/

namespace Sys2Proof.Machine

/-! Entries of the flow table. -/

/-- Two fields of an entry share no bit. -/
abbrev Fld.apart (f g : Fld) : Prop := 8 * g.off + g.lo + g.wd ≤ 8 * f.off + f.lo ∨ 8 * f.off + f.lo + f.wd ≤ 8 * g.off + g.lo

theorem Dev.flowFld_of_flows {d d' : Dev} (h : d'.flows = d.flows) (half f : Nat) (k : Fld) : d'.flowFld half f k = d.flowFld half f k :=
  congrArg (fun e => eget e k) (Dev.flow_of_flows h half f)

theorem Dev.flowFld_setFlowFld (d : Dev) (h f : Nat) (k : Fld) (v : Nat) (hk : 8 * k.off + k.lo + k.wd ≤ 512) :
    (d.setFlowFld h f k v).flowFld h f k = v % 2 ^ k.wd := by
  unfold Dev.flowFld Dev.setFlowFld
  rw [Dev.flow_setFlow, eget_eput _ _ _ hk]

theorem Dev.flowFld_setFlowFld_apart (d : Dev) (h f : Nat) {k g : Fld} (v : Nat) (hk : 8 * k.off + k.lo + k.wd ≤ 512) (ha : k.apart g) :
    (d.setFlowFld h f k v).flowFld h f g = d.flowFld h f g := by
  unfold Dev.flowFld Dev.setFlowFld
  rw [Dev.flow_setFlow, eget_eput_ne _ _ _ _ hk ha]

theorem Dev.flowFld_flowBump_apart (d : Dev) (h f : Nat) {k g : Fld} (n : Nat) (hk : 8 * k.off + k.lo + k.wd ≤ 512) (ha : k.apart g) :
    (d.flowBump h f k n).flowFld h f g = d.flowFld h f g :=
  (Dev.flowFld_of_flows (Dev.setLog_flows _ _) _ _ _).trans (d.flowFld_setFlowFld_apart h f _ hk ha)

theorem Dev.recs_flowBump (d : Dev) (h f : Nat) (k : Fld) (n : Nat) : (d.flowBump h f k n).recs = d.recs := (rfl)

/-- Where no WRITE of this CK has changed a table, an entry stands as it did before them (R134). -/
theorem Dev.flowThen_quiet {d : Dev} (hw : d.log.flowWas = []) (h f : Nat) : d.flowThen h f = d.flow h f := by
  unfold Dev.flowThen
  rw [hw]
  rfl

/-! Records, queues. -/

theorem Dev.cqOf_setCq (d : Dev) (h : Nat) (x : CqSt) : (d.setCq h x).cqOf h = x := sget_sset_same _ _ _ _

theorem Dev.cqOf_of_cq {d d' : Dev} (h : d'.cq = d.cq) (half : Nat) : d'.cqOf half = d.cqOf half := by
  unfold Dev.cqOf
  rw [h]

theorem Dev.cq_of_rest {d d' : Dev} (h : d'.rest = d.rest) : d'.cq = d.cq := by
  have hq : d'.rest.cq = d.rest.cq := congrArg Dev.cq h
  exact hq

theorem Dev.cqOf_settle (d : Dev) (h : Nat) : d.settle.cqOf h = d.cqOf h := Dev.cqOf_of_cq (Dev.cq_of_rest d.rest_settle) h

theorem Dev.recs_settle (d : Dev) : d.settle.recs = d.recs := Dev.recs_of_rest d.rest_settle

theorem Dev.recOf_settle (d : Dev) (rid : Nat) : d.settle.recOf rid = d.recOf rid := Dev.recOf_congr d.recs_settle rid

theorem Dev.flowFld_settle (d : Dev) (h f : Nat) (k : Fld) : d.settle.flowFld h f k = d.flowFld h f k :=
  Dev.flowFld_of_flows (Dev.flows_of_rest d.rest_settle) h f k

/-- Nothing is listed where a map has been cleared. -/
theorem sfind_serase_same {α : Type} (m : SMap α) (a : Nat) : sfind (serase m a) a = none := by
  induction m with
  | nil => rfl
  | cons p r ih =>
    by_cases hp : p.1 = a
    · simpa [serase, List.filter_cons, hp] using ih
    · simpa [serase, List.filter_cons, hp, sfind] using ih

theorem sget_of_sfind {α : Type} (z : α) {m : SMap α} {a : Nat} {v : α} (h : sfind m a = some v) : sget z m a = v := by
  induction m with
  | nil => exact absurd h (by simp [sfind])
  | cons p r ih =>
    unfold sfind at h
    unfold sget
    split
    · next hp =>
      rw [if_pos hp] at h
      exact Option.some.inj h
    · next hp =>
      rw [if_neg hp] at h
      exact ih h

theorem Dev.recOf_of_sfind {d : Dev} {rid : Nat} {r : Rec} (h : sfind d.recs rid = some r) : d.recOf rid = r := sget_of_sfind _ h

/-! What operations leave as it stands. -/

/-- The records, the allocation points, the flow tables, the open runs. -/
def Dev.flowView (d : Dev) : SMap Rec × SMap (List AllocItem) × SMap (BitVec 512) × SMap LossRun := (d.recs, d.allocs, d.flows, d.runs)

theorem Dev.recs_of_flowView {d d' : Dev} (h : d'.flowView = d.flowView) : d'.recs = d.recs := congrArg Prod.fst h
theorem Dev.allocs_of_flowView {d d' : Dev} (h : d'.flowView = d.flowView) : d'.allocs = d.allocs := congrArg (fun x => x.2.1) h
theorem Dev.flows_of_flowView {d d' : Dev} (h : d'.flowView = d.flowView) : d'.flows = d.flows := congrArg (fun x => x.2.2.1) h
theorem Dev.runs_of_flowView {d d' : Dev} (h : d'.flowView = d.flowView) : d'.runs = d.runs := congrArg (fun x => x.2.2.2) h

theorem Dev.flowView_of_rest {d d' : Dev} (h : d'.rest = d.rest) : d'.flowView = d.flowView :=
  (rfl : d'.flowView = d'.rest.flowView).trans ((congrArg Dev.flowView h).trans rfl)

/-- These and the queues. -/
def Dev.queueView (d : Dev) := (d.flowView, d.cq)

theorem Dev.flowView_of_queueView {d d' : Dev} (h : d'.queueView = d.queueView) : d'.flowView = d.flowView := congrArg Prod.fst h
theorem Dev.cq_of_queueView {d d' : Dev} (h : d'.queueView = d.queueView) : d'.cq = d.cq := congrArg Prod.snd h

theorem Dev.queueView_of_rest {d d' : Dev} (h : d'.rest = d.rest) : d'.queueView = d.queueView :=
  congrArg₂ Prod.mk (Dev.flowView_of_rest h) (Dev.cq_of_rest h)

theorem Dev.flowView_sched (d : Dev) (k : Nat) (i : Instr) : (d.sched k i).flowView = d.flowView := (rfl)
theorem Dev.flowView_setCq (d : Dev) (h : Nat) (x : CqSt) : (d.setCq h x).flowView = d.flowView := (rfl)
theorem Dev.flowView_schedOnce (d : Dev) (k : Nat) (i : Instr) : (d.schedOnce k i).flowView = d.flowView := by
  unfold Dev.schedOnce
  split <;> rfl

theorem Dev.cq_schedOnce (d : Dev) (k : Nat) (i : Instr) : (d.schedOnce k i).cq = d.cq := by
  unfold Dev.schedOnce
  split <;> rfl

theorem Dev.log_schedOnce (d : Dev) (k : Nat) (i : Instr) : (d.schedOnce k i).log = d.log := by
  unfold Dev.schedOnce
  split <;> rfl

theorem Dev.regs_schedOnce (d : Dev) (k : Nat) (i : Instr) : (d.schedOnce k i).regs = d.regs := by
  unfold Dev.schedOnce
  split <;> rfl

/-- A step that leaves the records, the allocation points, the queues and the log of the CK, and of a flow's entry all but whether a gap
marker is owed. -/
structure Dev.queueKeeps (d d' : Dev) (h f : Nat) : Prop where
  recs : d'.recs = d.recs
  allocs : d'.allocs = d.allocs
  cq : d'.cq = d.cq
  log : d'.log = d.log
  flow : ∀ k : Fld, FL_GAP_OPEN.apart k → d'.flowFld h f k = d.flowFld h f k

section
variable {d d' d'' : Dev} {h f : Nat}

theorem Dev.queueKeeps.refl (d : Dev) (h f : Nat) : d.queueKeeps d h f := ⟨rfl, rfl, rfl, rfl, fun _ _ => rfl⟩

theorem Dev.queueKeeps.trans (a : d.queueKeeps d' h f) (b : d'.queueKeeps d'' h f) : d.queueKeeps d'' h f :=
  ⟨b.recs.trans a.recs, b.allocs.trans a.allocs, b.cq.trans a.cq, b.log.trans a.log, fun k hk => (b.flow k hk).trans (a.flow k hk)⟩

theorem Dev.queueKeeps_of_flowView (hv : d'.flowView = d.flowView) (hq : d'.cq = d.cq) (hl : d'.log = d.log) : d.queueKeeps d' h f :=
  ⟨Dev.recs_of_flowView hv, Dev.allocs_of_flowView hv, hq, hl, fun k _ => Dev.flowFld_of_flows (Dev.flows_of_flowView hv) h f k⟩

theorem Dev.queueKeeps_ite {c : Prop} [Decidable c] (a : d.queueKeeps d' h f) (b : d.queueKeeps d'' h f) :
    d.queueKeeps (if c then d' else d'') h f := by
  split
  · exact a
  · exact b
end

theorem Dev.schedOnce_queueKeeps (d : Dev) (k : Nat) (i : Instr) (h f : Nat) : d.queueKeeps (d.schedOnce k i) h f :=
  Dev.queueKeeps_of_flowView (d.flowView_schedOnce k i) (d.cq_schedOnce k i) (d.log_schedOnce k i)

theorem Dev.onEpoch_queueKeeps (d : Dev) (e : Nat) (g : Epoch → Epoch) (h f : Nat) : d.queueKeeps (d.onEpoch h e g) h f := by
  unfold Dev.onEpoch
  split <;> exact Dev.queueKeeps_of_flowView rfl rfl rfl

theorem Dev.askMove_queueKeeps (d : Dev) (h f : Nat) : d.queueKeeps (d.askMove h f) h f := by
  unfold Dev.askMove
  exact Dev.queueKeeps_ite (.refl d h f) (Dev.queueKeeps_of_flowView rfl rfl rfl)

theorem Dev.rateBytes_queueKeeps (d : Dev) (h f n : Nat) : d.queueKeeps (d.rateBytes h f n) h f := Dev.queueKeeps_of_flowView rfl rfl rfl

theorem Dev.setFlow_queueKeeps {d : Dev} {h f : Nat} {x : BitVec 512} (hx : ∀ k : Fld, FL_GAP_OPEN.apart k → eget x k = d.flowFld h f k) :
    d.queueKeeps (d.setFlow h f x) h f :=
  ⟨rfl, rfl, rfl, rfl, fun k hk => (congrArg (fun e => eget e k) (d.flow_setFlow h f x)).trans (hx k hk)⟩

/-- Whether a gap marker is owed. -/
theorem Dev.setGapOpen_queueKeeps (d : Dev) (h f v : Nat) : d.queueKeeps (d.setFlowFld h f FL_GAP_OPEN v) h f :=
  Dev.setFlow_queueKeeps (fun _ hk => eget_eput_ne _ _ _ _ (by decide) hk)

/-- The losses at the front of a flow's numbers join its open run; the writer wakes for what is left (R120, R122). -/
def Dev.frontFolded (d : Dev) (h f : Nat) : Dev :=
  let k := flowKey h f
  let p := foldLost (sget [] d.nums k) (sget {} d.runs k)
  let d := { d with nums := sset [] d.nums k p.1, runs := sset {} d.runs k p.2 }
  let d := if p.2.count ≠ 0 then d.setFlowFld h f FL_GAP_OPEN 1 else d
  if p.1 = [] then d else d.kickWriter h

theorem Dev.frontFolded_queueKeeps (d : Dev) (h f : Nat) : d.queueKeeps (d.frontFolded h f) h f := by
  have hfold (a : SMap (List Num)) (b : SMap LossRun) : d.queueKeeps { d with nums := a, runs := b } h f :=
    ⟨rfl, rfl, rfl, rfl, fun _ _ => rfl⟩
  have hgap (e : Dev) {c : Prop} {_ : Decidable c} : e.queueKeeps (if c then e.setFlowFld h f FL_GAP_OPEN 1 else e) h f :=
    Dev.queueKeeps_ite (e.setGapOpen_queueKeeps h f 1) (.refl e h f)
  have hkick (e : Dev) {c : Prop} {_ : Decidable c} : e.queueKeeps (if c then e else e.kickWriter h) h f :=
    Dev.queueKeeps_ite (.refl e h f) (e.schedOnce_queueKeeps _ _ h f)
  exact ((hfold _ _).trans (hgap _)).trans (hkick _)

/-- After that a closing marker is scheduled or not. -/
theorem Dev.resolve_eq (d : Dev) (h f : Nat) :
    d.resolve h f = d.frontFolded h f ∨ ∃ i, d.resolve h f = (d.frontFolded h f).schedOnce 1 i := by
  unfold Dev.resolve
  dsimp only
  split
  · exact .inl rfl
  · split
    · exact .inl rfl
    · exact .inr ⟨_, rfl⟩

theorem Dev.resolve_queueKeeps (d : Dev) (h f : Nat) : d.queueKeeps (d.resolve h f) h f := by
  rcases d.resolve_eq h f with he | ⟨i, he⟩
  · rw [he]
    exact d.frontFolded_queueKeeps h f
  · rw [he]
    exact (d.frontFolded_queueKeeps h f).trans (Dev.schedOnce_queueKeeps _ _ _ h f)

theorem Dev.stopFlow_queueKeeps (d : Dev) (h f : Nat) : d.queueKeeps (d.stopFlow h f) h f := by
  have hclose (a : SMap Nat) : d.queueKeeps { d with closing := a } h f := ⟨rfl, rfl, rfl, rfl, fun _ _ => rfl⟩
  exact (hclose _).trans (Dev.resolve_queueKeeps _ h f)

/-! Units at WP (R204, R205, R209, R210). -/

theorem Dev.queueView_fillMoved (d : Dev) (h before : Nat) : (d.fillMoved h before).queueView = d.queueView := by
  have hask (e : Dev) (kind : Nat) (i : Instr) : (e.pluAsk h kind 0 i).queueView = e.queueView := (rfl)
  have hpend (e : Dev) (k : Nat) : (e.pend (Pg.cq h) k).queueView = e.queueView := Dev.queueView_of_rest (e.rest_pend _ k)
  have hset (e : Dev) (f : Fld) (v : Nat) : (e.setFld (Pg.cq h) f v).queueView = e.queueView := Dev.queueView_of_rest (e.rest_setFld _ f v)
  unfold Dev.fillMoved
  simp only [apply_ite Dev.queueView, hask, hpend, hset, ite_self]

theorem Dev.flowView_takeUnits (d : Dev) (h rid n : Nat) : (d.takeUnits h rid n).flowView = d.flowView :=
  (Dev.flowView_of_queueView (Dev.queueView_fillMoved _ _ _)).trans (d.flowView_setCq _ _)

theorem Dev.wp_takeUnits (d : Dev) (h rid n : Nat) : ((d.takeUnits h rid n).cqOf h).wp = ((d.cqOf h).wp + n) % 2 ^ 22 := by
  unfold Dev.takeUnits
  dsimp only
  rw [Dev.cqOf_of_cq (Dev.cq_of_queueView (Dev.queueView_fillMoved _ _ _)), Dev.cqOf_setCq]

/-- A record with bytes still to come waits for them (R206). -/
theorem Dev.whole_incomplete {d : Dev} {rid : Nat} (hc : (d.recOf rid).complete = false) : d.whole rid = d := by
  unfold Dev.whole
  dsimp only
  rw [if_pos (.inl (by simp [hc]))]

/-! Windows of registers. -/

theorem Dev.reg_setWindow {n : Nat} (d : Dev) (pg off : Nat) (x : BitVec n) {k j : Nat} (hj : j < k) :
    (d.setWindow pg off k x).reg pg (off + 4 * j) = eword x j := by
  induction k with
  | zero => exact absurd hj (Nat.not_lt_zero _)
  | succ k ih =>
    unfold Dev.setWindow at ih ⊢
    rw [List.range_succ, List.foldl_append, List.foldl_cons, List.foldl_nil]
    rcases Nat.lt_succ_iff_lt_or_eq.mp hj with hlt | rfl
    · rw [Dev.reg_setReg_ne _ _ (raddr_ne (by omega)), ih hlt]
    · exact Dev.reg_setReg _ _ _ _

/-- The words of a number, put together again. -/
theorem foldr_words (x k : Nat) :
    ((List.range k).map (fun j => BitVec.ofNat 32 (bitsOf x (32 * j) 32))).foldr (fun (w : Word) acc => acc * 2 ^ 32 + w.toNat) 0
      = x % 2 ^ (32 * k) := by
  induction k generalizing x with
  | zero => simp [Nat.mod_one]
  | succ k ih =>
    have hrest : ∀ j, bitsOf x (32 * (j + 1)) 32 = bitsOf (x / 2 ^ 32) (32 * j) 32 := fun j => by
      unfold bitsOf
      rw [Nat.div_div_eq_div_mul, ← pow_add, Nat.mul_succ, Nat.add_comm]
    have hfirst : (BitVec.ofNat 32 (bitsOf x 0 32)).toNat = x % 2 ^ 32 := by
      rw [BitVec.toNat_ofNat, bitsOf, pow_zero, Nat.div_one, Nat.mod_mod]
    rw [List.range_succ_eq_map, List.map_cons, List.map_map, List.foldr_cons, Nat.mul_zero, hfirst]
    simp only [Function.comp_def, hrest]
    rw [ih, Nat.mul_succ, Nat.add_comm (32 * k), pow_add, Nat.mod_mul, Nat.add_comm, Nat.mul_comm]

theorem ofWords_ewords {k : Nat} (x : BitVec (32 * k)) : ofWords (32 * k) ((List.range k).map (eword x)) = x := by
  refine BitVec.eq_of_toNat_eq ?_
  unfold ofWords
  have hw := foldr_words x.toNat k
  unfold eword
  rw [hw, BitVec.toNat_ofNat, Nat.mod_mod, Nat.mod_eq_of_lt x.isLt]

/-- A window whose registers hold an entry's words reads the entry. -/
theorem Dev.window_of_words {d : Dev} {pg off k : Nat} {x : BitVec (32 * k)} (h : ∀ j, j < k → d.reg pg (off + 4 * j) = eword x j) :
    d.window (32 * k) pg off k = x := by
  unfold Dev.window
  rw [List.map_congr_left (fun j hj => h j (List.mem_range.mp hj)), ofWords_ewords]

end Sys2Proof.Machine
end

section
/-! PROOFS. A record takes its number and its units; bytes that arrive take further units (R119, R120, R205). -/

namespace Sys2Proof.Machine

/-! Allocation, in its steps. -/

/-- The record with its number and its epoch, plus one (R120, R466). -/
def Rec.numbered (r : Rec) (seq ep : Nat) : Rec := { r with seq := seq, epoch := ep + 1 }

/-- A number joins its flow's, and the record shows it. -/
def Dev.noteNumber (d : Dev) (k rid seq ep : Nat) (r : Rec) : Dev :=
  ({ d with nums := sset [] d.nums k (sget [] d.nums k ++ [⟨seq, rid, none, r.lp, r.lane⟩]) } : Dev).setRec rid (r.numbered seq ep)

/-- The record takes its flow's next number. -/
def Dev.takeNumber (d : Dev) (h rid ep : Nat) : Dev :=
  let r := d.recOf rid
  let seq := d.flowFld h r.flow FL_NEXT_SEQ
  (d.setFlowFld h r.flow FL_NEXT_SEQ (seq + 1)).noteNumber (flowKey h r.flow) rid seq ep r

/-- What the number brings with it: a last one stops the flow, an epoch has one more to resolve, the flow asks for its engine. -/
def Dev.startNumber (d : Dev) (h ep : Nat) (r : Rec) : Dev :=
  let d := if (r.typ = 1 ∧ byteAt r.payload 0 = 0x21#8) ∨ ¬ d.flowEn h r.flow then d.stopFlow h r.flow else d
  let d := if r.flow = 0 then d else d.onEpoch h ep (fun x => { x with unresolved := x.unresolved + 1 })
  d.askEngine h r.flow

/-- The record shows its place in the order of allocations (R208). -/
def Dev.takePlace (d : Dev) (h rid : Nat) : Dev :=
  (d.setRec rid { d.recOf rid with allocCk := d.ck, allocNo := (d.cqOf h).nextNo }).setCq h { d.cqOf h with nextNo := (d.cqOf h).nextNo + 1 }

/-- Its units are taken, and it waits for its engine or is emitted. -/
def Dev.putQueued (d : Dev) (h rid need : Nat) (st : RecSt) : Dev :=
  (d.setRec rid { d.recOf rid with units := need, st := st }).takeUnits h rid need

/-- A numbered record enters the queue, where it has room (R205). -/
def Dev.enterQueue (d : Dev) (h rid : Nat) (r : Rec) : Dev :=
  let e := d.takePlace h rid
  if cqCap < (d.cqOf h).fill + r.needUnits then e.fullLoss rid
  else (e.putQueued h rid r.needUnits (if eget (e.flowThen h r.flow) FL_BYPASS = 1 then .emitted else .queued)).whole rid

/-- A record whose flow is known takes its number and, unless it is shed, enters the queue. -/
def Dev.allocateKnown (d : Dev) (h rid ep : Nat) : Dev :=
  let r := d.recOf rid
  let e := (d.takeNumber h rid ep).startNumber h ep r
  if r.shed then ((e.forget rid).epochLost h r.flow (ep + 1) 0).loseNum h r.flow rid 0
  else (e.rateBytes h r.flow (32 + (if r.complete then alignUp r.keptLen 32 else min r.reached r.keptLen / 32 * 32))).enterQueue h rid r

theorem Dev.allocate_eq (d : Dev) (h rid : Nat) : ∃ ep, d.allocate h rid =
    if ¬ isCapturing (d.modeOf h) ∧ ¬ ((d.recOf rid).typ = 1 ∧ byteAt (d.recOf rid).payload 0 = 0x21#8)
    then (d.markDiscard (d.recOf rid)).forget rid else (d.redirect h rid).allocateKnown h rid ep := ⟨_, rfl⟩

theorem Dev.redirect_enabled {d : Dev} {h rid : Nat} (hw : d.log.flowWas = []) (he : d.flowEn h (d.recOf rid).flow = true) :
    d.redirect h rid = d := by
  unfold Dev.redirect
  dsimp only
  rw [Dev.flowThen_quiet hw]
  exact if_pos (of_decide_eq_true he)

theorem Dev.askEngine_served {d : Dev} {h f : Nat} (hb : eget (d.flowThen h f) FL_BYPASS ≠ 1) (he : d.curEngine h f < 192) :
    d.askEngine h f = d.askMove h f := by
  unfold Dev.askEngine
  dsimp only
  rw [if_neg hb, if_pos he]

/-! What each step leaves. -/

section
variable (d : Dev) (h f : Nat) (k : Fld) (v : Nat)
theorem Dev.allocs_setFlowFld : (d.setFlowFld h f k v).allocs = d.allocs := (rfl)
theorem Dev.cq_setFlowFld : (d.setFlowFld h f k v).cq = d.cq := (rfl)
theorem Dev.log_setFlowFld : (d.setFlowFld h f k v).log = d.log := (rfl)
end

section
variable (d : Dev) (k rid seq ep : Nat) (r : Rec)
theorem Dev.flows_noteNumber : (d.noteNumber k rid seq ep r).flows = d.flows := (rfl)
theorem Dev.allocs_noteNumber : (d.noteNumber k rid seq ep r).allocs = d.allocs := (rfl)
theorem Dev.cq_noteNumber : (d.noteNumber k rid seq ep r).cq = d.cq := (rfl)
theorem Dev.log_noteNumber : (d.noteNumber k rid seq ep r).log = d.log := (rfl)
end

/-- A record has taken its flow's next number. -/
structure Dev.Numbered (d e : Dev) (h rid ep : Nat) : Prop where
  rec_ : e.recOf rid = (d.recOf rid).numbered (d.flowFld h (d.recOf rid).flow FL_NEXT_SEQ) ep
  next : e.flowFld h (d.recOf rid).flow FL_NEXT_SEQ = (d.flowFld h (d.recOf rid).flow FL_NEXT_SEQ + 1) % 2 ^ 32
  bypass : e.flowFld h (d.recOf rid).flow FL_BYPASS = d.flowFld h (d.recOf rid).flow FL_BYPASS
  engine : e.curEngine h (d.recOf rid).flow = d.curEngine h (d.recOf rid).flow
  allocs : e.allocs = d.allocs
  cq : e.cq = d.cq
  log : e.log = d.log

theorem Dev.takeNumber_numbered (d : Dev) (h rid ep : Nat) : d.Numbered (d.takeNumber h rid ep) h rid ep := by
  have hflow (k : Fld) : (d.takeNumber h rid ep).flowFld h (d.recOf rid).flow k = (d.setFlowFld h (d.recOf rid).flow FL_NEXT_SEQ
      (d.flowFld h (d.recOf rid).flow FL_NEXT_SEQ + 1)).flowFld h (d.recOf rid).flow k :=
    Dev.flowFld_of_flows (Dev.flows_noteNumber _ _ _ _ _ _) _ _ _
  have hother {k : Fld} (hk : FL_NEXT_SEQ.apart k) := (hflow k).trans (d.flowFld_setFlowFld_apart h (d.recOf rid).flow _ (by decide) hk)
  exact ⟨Dev.recOf_setRec _ _ _, (hflow _).trans (d.flowFld_setFlowFld _ _ _ _ (by decide)), hother (by decide), hother (by decide),
    (Dev.allocs_noteNumber _ _ _ _ _ _).trans (d.allocs_setFlowFld _ _ _ _), (Dev.cq_noteNumber _ _ _ _ _ _).trans (d.cq_setFlowFld _ _ _ _),
    (Dev.log_noteNumber _ _ _ _ _ _).trans (d.log_setFlowFld _ _ _ _)⟩

theorem Dev.Numbered.kept {d e e' : Dev} {h rid ep : Nat} (n : d.Numbered e h rid ep) (q : e.queueKeeps e' h (d.recOf rid).flow) :
    d.Numbered e' h rid ep :=
  ⟨(Dev.recOf_congr q.recs rid).trans n.rec_, (q.flow _ (by decide)).trans n.next, (q.flow _ (by decide)).trans n.bypass,
    (q.flow _ (by decide)).trans n.engine, q.allocs.trans n.allocs, q.cq.trans n.cq, q.log.trans n.log⟩

theorem Dev.flowThen_bypass {d : Dev} {h f : Nat} (hw : d.log.flowWas = []) (hb : d.flowFld h f FL_BYPASS = 0) :
    eget (d.flowThen h f) FL_BYPASS ≠ 1 := by
  rw [Dev.flowThen_quiet hw]
  exact fun hc => absurd (hb.symm.trans hc) (by decide)

theorem Dev.startNumber_queueKeeps {d : Dev} {h : Nat} {r : Rec} (ep : Nat) (hw : d.log.flowWas = []) (hb : d.flowFld h r.flow FL_BYPASS = 0)
    (he : d.curEngine h r.flow < 192) : d.queueKeeps (d.startNumber h ep r) h r.flow := by
  have hstop {c : Prop} {_ : Decidable c} : d.queueKeeps (if c then d.stopFlow h r.flow else d) h r.flow :=
    Dev.queueKeeps_ite (d.stopFlow_queueKeeps h r.flow) (.refl d h r.flow)
  have hepoch (e : Dev) {c : Prop} {_ : Decidable c} (g : Epoch → Epoch) : e.queueKeeps (if c then e else e.onEpoch h ep g) h r.flow :=
    Dev.queueKeeps_ite (.refl e h r.flow) (e.onEpoch_queueKeeps ep g h r.flow)
  have hask {e : Dev} (q : d.queueKeeps e h r.flow) : d.queueKeeps (e.askEngine h r.flow) h r.flow := by
    rw [Dev.askEngine_served (Dev.flowThen_bypass ((congrArg CkLog.flowWas q.log).trans hw) ((q.flow _ (by decide)).trans hb))
      (lt_of_eq_of_lt (q.flow FL_CUR_ENGINE (by decide)) he)]
    exact q.trans (e.askMove_queueKeeps h r.flow)
  exact hask (hstop.trans (hepoch _ _))

/-! A record that the queue admits. -/

/-- A record that may be captured, with bytes still to come, of an enabled flow that an engine serves, finds room in the queue. -/
structure Dev.Admits (d : Dev) (h rid : Nat) : Prop where
  capturing : isCapturing (d.modeOf h) = true
  enabled : d.flowEn h (d.recOf rid).flow = true
  kept : (d.recOf rid).shed = false
  arriving : (d.recOf rid).complete = false
  served : d.curEngine h (d.recOf rid).flow < 192
  engine : d.flowFld h (d.recOf rid).flow FL_BYPASS = 0
  room : (d.cqOf h).fill + (d.recOf rid).needUnits ≤ cqCap
  quiet : d.log.flowWas = []

theorem Dev.allocate_admitted {d : Dev} {h rid : Nat} (a : d.Admits h rid) :
    ∃ e ep, d.Numbered e h rid ep ∧ d.allocate h rid = e.enterQueue h rid (d.recOf rid) := by
  obtain ⟨ep, heq⟩ := d.allocate_eq h rid
  have hn := d.takeNumber_numbered h rid ep
  have hs := Dev.startNumber_queueKeeps ep ((congrArg CkLog.flowWas hn.log).trans a.quiet) (hn.bypass.trans a.engine)
    (lt_of_eq_of_lt hn.engine a.served)
  have hrate (n : Nat) := (hn.kept hs).kept (Dev.rateBytes_queueKeeps _ h _ n)
  rw [if_neg (fun hc => hc.1 a.capturing), Dev.redirect_enabled a.quiet a.enabled] at heq
  exact ⟨_, ep, hrate _, heq.trans (if_neg (by rw [a.kept]; exact Bool.false_ne_true))⟩

/-- The record in the queue, with bytes still to come. -/
structure Dev.Queued (d e : Dev) (h rid need : Nat) : Prop where
  rec_ : e.recOf rid = { d.recOf rid with allocCk := d.ck, allocNo := (d.cqOf h).nextNo, units := need, st := .queued }
  wp : (e.cqOf h).wp = ((d.cqOf h).wp + need) % 2 ^ 22
  allocs : e.allocs = d.allocs
  flows : e.flows = d.flows

theorem Dev.putQueued_queued (d : Dev) (h rid need : Nat) : d.Queued ((d.takePlace h rid).putQueued h rid need .queued) h rid need := by
  have hv : ((d.takePlace h rid).putQueued h rid need .queued).flowView = _ := Dev.flowView_takeUnits _ h rid need
  have hplace : (d.takePlace h rid).recOf rid = { d.recOf rid with allocCk := d.ck, allocNo := (d.cqOf h).nextNo } := Dev.recOf_setRec _ _ _
  refine ⟨?_, ?_, (Dev.allocs_of_flowView hv).trans rfl, (Dev.flows_of_flowView hv).trans rfl⟩
  · rw [Dev.recOf_congr (Dev.recs_of_flowView hv), Dev.recOf_setRec, hplace]
  · have hx : (d.takePlace h rid).cqOf h = { d.cqOf h with nextNo := (d.cqOf h).nextNo + 1 } := Dev.cqOf_setCq _ _ _
    have hwp : ((d.takePlace h rid).cqOf h).wp = (d.cqOf h).wp := by rw [hx]
    rw [← hwp]
    exact Dev.wp_takeUnits _ h rid need

theorem Dev.enterQueue_queued {d : Dev} {h rid : Nat} {r : Rec} (hroom : (d.cqOf h).fill + r.needUnits ≤ cqCap)
    (hb : eget (d.flowThen h r.flow) FL_BYPASS ≠ 1) (hc : (d.recOf rid).complete = false) :
    d.Queued (d.enterQueue h rid r) h rid r.needUnits := by
  have hq := d.putQueued_queued h rid r.needUnits
  have hb' : eget ((d.takePlace h rid).flowThen h r.flow) FL_BYPASS ≠ 1 := hb
  unfold Dev.enterQueue
  dsimp only
  rw [if_neg (Nat.not_lt.mpr hroom), if_neg hb', Dev.whole_incomplete ((congrArg Rec.complete hq.rec_).trans hc)]
  exact hq

theorem takeAlloc_point {x : AllocItem} {rest : List AllocItem} (hx : x.unit = none) : takeAlloc false (x :: rest) = (some x, rest) := by
  unfold takeAlloc
  rw [hx]
  rfl

/-- The allocation points of a half with its front taken off. -/
def Dev.withAllocs (d : Dev) (h : Nat) (rest : List AllocItem) : Dev := { d with allocs := sset [] d.allocs h rest }

theorem Dev.queueAllocation_point {d : Dev} {h : Nat} {x : AllocItem} {rest : List AllocItem} (hl : sget [] d.allocs h = x :: rest)
    (hx : x.unit = none) : d.queueAllocation h = (d.withAllocs h rest).allocate h x.rid := by
  unfold Dev.queueAllocation
  rw [hl, takeAlloc_point hx]
  rfl

theorem exec_queueAllocation {s : State} (h : Half) (hr : s.dev.rst = .running) :
    exec (.queueAllocation h) s = s.becomes ((s.dev.begin (.queueAllocation h)).queueAllocation h.val) := s.run_running _ _ hr

/-- The record at the front of the allocation points takes its number and its units. -/
theorem queueAllocation_queues {s : State} {h : Half} {x : AllocItem} {rest : List AllocItem} (hr : s.dev.rst = .running)
    (hl : sget [] s.dev.allocs h.val = x :: rest) (hx : x.unit = none) (a : s.dev.Admits h.val x.rid) :
    ∃ t, exec (.queueAllocation h) s = .next t ∧ sget [] t.dev.allocs h.val = rest
      ∧ t.dev.flowFld h.val (s.dev.recOf x.rid).flow FL_NEXT_SEQ = (s.dev.flowFld h.val (s.dev.recOf x.rid).flow FL_NEXT_SEQ + 1) % 2 ^ 32
      ∧ (t.dev.recOf x.rid).seq = s.dev.flowFld h.val (s.dev.recOf x.rid).flow FL_NEXT_SEQ ∧ (t.dev.recOf x.rid).st = .queued
      ∧ (t.dev.recOf x.rid).units = (s.dev.recOf x.rid).needUnits
      ∧ (t.dev.cqOf h.val).wp = ((s.dev.cqOf h.val).wp + (s.dev.recOf x.rid).needUnits) % 2 ^ 22 := by
  have a' : ((s.dev.begin (.queueAllocation h)).withAllocs h rest).Admits h.val x.rid :=
    ⟨a.capturing, a.enabled, a.kept, a.arriving, a.served, a.engine, a.room, a.quiet⟩
  obtain ⟨e, ep, n, heq⟩ := Dev.allocate_admitted a'
  have hcq : e.cqOf h.val = s.dev.cqOf h.val := Dev.cqOf_of_cq n.cq h.val
  have q := Dev.enterQueue_queued (d := e) (h := h.val) (rid := x.rid) (r := s.dev.recOf x.rid) (by rw [hcq]; exact a.room)
    (Dev.flowThen_bypass ((congrArg CkLog.flowWas n.log).trans a.quiet) (n.bypass.trans a.engine)) ((congrArg Rec.complete n.rec_).trans a.arriving)
  refine ⟨_, exec_queueAllocation h hr, ?_⟩
  rw [Dev.queueAllocation_point (d := s.dev.begin _) hl hx, heq]
  refine ⟨?_, ?_, ?_, ?_, ?_, ?_⟩
  · rw [Dev.allocs_of_flowView (Dev.flowView_of_rest (Dev.rest_settle _))]
    exact (congrArg (fun m => sget [] m h.val) (q.allocs.trans n.allocs)).trans (sget_sset_same _ _ _ _)
  · exact (Dev.flowFld_settle _ _ _ _).trans ((Dev.flowFld_of_flows q.flows _ _ _).trans n.next)
  · exact (congrArg Rec.seq ((Dev.recOf_settle _ _).trans q.rec_)).trans (congrArg Rec.seq n.rec_)
  · exact congrArg Rec.st ((Dev.recOf_settle _ _).trans q.rec_)
  · exact congrArg Rec.units ((Dev.recOf_settle _ _).trans q.rec_)
  · exact (congrArg CqSt.wp (Dev.cqOf_settle _ _)).trans (q.wp.trans (by rw [hcq]))

/-! Bytes that arrive (R205). -/

theorem takeAlloc_unit {x : AllocItem} {rest : List AllocItem} {u : Nat × Bool} (hx : x.unit = some u) :
    takeAlloc true (x :: rest) = (some x, rest) := by
  unfold takeAlloc
  rw [hx]
  rfl

theorem Dev.queueUnit_bytes {d : Dev} {h : Nat} {x : AllocItem} {rest : List AllocItem} {r : Rec} {n : Nat} {ended : Bool}
    (hl : sget [] d.allocs h = x :: rest) (hx : x.unit = some (n, ended)) (hrec : sfind d.recs x.rid = some r) :
    d.queueUnit h = (d.withAllocs h rest).arriveBytes h x.rid n ended := by
  unfold Dev.queueUnit
  rw [hl, takeAlloc_unit hx]
  dsimp only
  rw [hrec, hx]
  rfl

/-- A record in the queue that is kept and neither shed nor lost, with bytes still to come. -/
structure Rec.Arriving (r : Rec) : Prop where
  kept : ∀ o, r.outc = some o → o.act = .keep
  whole : r.shed = false
  held : r.gone = false
  more : r.complete = false
  queued : r.units ≠ 0

/-- A record that is kept keeps its whole payload, and none of its bytes but the last ends it (R96). -/
theorem Rec.Arriving.keptLen {r : Rec} (a : r.Arriving) : r.keptLen = r.payload.length := by
  unfold Rec.keptLen
  split
  · next o ho => rw [if_neg (by rw [a.kept o ho]; decide)]
  · rfl

/-- The record is not kept, as far as it is known. -/
def Rec.dropped (r : Rec) : Bool := r.gone || (match r.outc with | some o => decide (o.act = .drop) | none => false)

/-- The bytes are the record's last, or reach the end of its slice (R96). -/
def Rec.doneAt (r : Rec) (bytes : Nat) (ended : Bool) : Bool :=
  ended || (match r.outc with | some o => o.act = .slice && decide (o.slice - r.base ≤ bytes) | none => false)

theorem Rec.Arriving.not_dropped {r : Rec} (a : r.Arriving) : r.dropped = false := by
  unfold Rec.dropped
  rw [a.held]
  split
  · next o ho => rw [a.kept o ho]; rfl
  · rfl

theorem Rec.Arriving.not_doneAt {r : Rec} (a : r.Arriving) (n : Nat) : r.doneAt n false = false := by
  unfold Rec.doneAt
  split
  · next o ho => rw [a.kept o ho]; rfl
  · rfl

/-- The record with the bytes that have reached the queue takes the units they fill. -/
def Dev.moreUnits (d : Dev) (h rid need more : Nat) (r : Rec) : Dev :=
  ((d.setRec rid { r with units := need }).rateBytes h r.flow (32 * more)).takeUnits h rid more

/-- Bytes reach a record that is in the queue, or on its way there; the queue may be full. -/
def Dev.growRec (d : Dev) (h rid : Nat) (r : Rec) (units : Nat) : Dev :=
  let d := d.setRec rid r
  if units = 0 then d
  else
    let need := unitsOf (min r.reached r.keptLen) r.complete
    if cqCap < (d.cqOf h).fill + (need - units) then d.fullLoss rid
    else (if need - units = 0 then d else d.moreUnits h rid need (need - units) r).whole rid

theorem Dev.arriveBytes_eq (d : Dev) (h rid bytes : Nat) (ended : Bool) : ∃ e, d.arriveBytes h rid bytes ended =
    if (d.recOf rid).dropped ∨ (d.recOf rid).shed then e
    else if (d.recOf rid).complete then d
    else d.growRec h rid { d.recOf rid with reached := bytes, complete := (d.recOf rid).doneAt bytes ended } (d.recOf rid).units := ⟨_, rfl⟩

/-- The record with the bytes of it that have reached the queue. -/
def Rec.withBytes (r : Rec) (n : Nat) : Rec := { r with reached := n, complete := false }

theorem Rec.Arriving.withBytes_keptLen {r : Rec} (a : r.Arriving) (n : Nat) : (r.withBytes n).keptLen = r.payload.length :=
  Rec.Arriving.keptLen ⟨a.kept, a.whole, a.held, rfl, a.queued⟩

theorem Dev.arriveBytes_grows {d : Dev} {h rid n : Nat} {r : Rec} (hrec : d.recOf rid = r) (a : r.Arriving) :
    d.arriveBytes h rid n false = d.growRec h rid (r.withBytes n) r.units := by
  obtain ⟨e, heq⟩ := d.arriveBytes_eq h rid n false
  rw [hrec, a.not_dropped, a.not_doneAt, a.whole, a.more] at heq
  exact heq.trans ((if_neg (by decide)).trans (if_neg (by decide)))

theorem Dev.growRec_takes {d : Dev} {h rid n : Nat} {r : Rec} (a : r.Arriving) (hmore : r.units < unitsOf (min n r.payload.length) false)
    (hroom : (d.cqOf h).fill + (unitsOf (min n r.payload.length) false - r.units) ≤ cqCap) :
    d.growRec h rid (r.withBytes n) r.units = ((d.setRec rid (r.withBytes n)).moreUnits h rid (unitsOf (min n r.payload.length) false)
      (unitsOf (min n r.payload.length) false - r.units) (r.withBytes n)).whole rid := by
  unfold Dev.growRec
  rw [a.withBytes_keptLen]
  exact (if_neg a.queued).trans ((if_neg (Nat.not_lt.mpr hroom)).trans
    (congrArg (fun e : Dev => e.whole rid) (if_neg (Nat.sub_ne_zero_of_lt hmore))))

/-- A record in the queue with further units. -/
structure Dev.Grown (d e : Dev) (h rid need more : Nat) (r : Rec) : Prop where
  rec_ : e.recOf rid = { r with units := need }
  wp : (e.cqOf h).wp = ((d.cqOf h).wp + more) % 2 ^ 22
  allocs : e.allocs = d.allocs

theorem Dev.moreUnits_grown (d : Dev) (h rid need more : Nat) (r : Rec) : d.Grown (d.moreUnits h rid need more r) h rid need more r := by
  have hv : (d.moreUnits h rid need more r).flowView = _ := Dev.flowView_takeUnits _ h rid _
  exact ⟨(Dev.recOf_congr (Dev.recs_of_flowView hv) rid).trans (Dev.recOf_setRec _ _ _), Dev.wp_takeUnits _ h rid _,
    (Dev.allocs_of_flowView hv).trans rfl⟩

theorem exec_queueUnit {s : State} (h : Half) (hr : s.dev.rst = .running) :
    exec (.queueUnit h) s = s.becomes ((s.dev.begin (.queueUnit h)).queueUnit h.val) := s.run_running _ _ hr

/-- Bytes at the front of what reaches the queue fill further units of their record. -/
theorem queueUnit_grows {s : State} {h : Half} {x : AllocItem} {rest : List AllocItem} {r : Rec} {n : Nat} (hr : s.dev.rst = .running)
    (hl : sget [] s.dev.allocs h.val = x :: rest) (hx : x.unit = some (n, false)) (hrec : sfind s.dev.recs x.rid = some r) (a : r.Arriving)
    (hmore : r.units < unitsOf (min n r.payload.length) false)
    (hroom : (s.dev.cqOf h.val).fill + (unitsOf (min n r.payload.length) false - r.units) ≤ cqCap) :
    ∃ t, exec (.queueUnit h) s = .next t ∧ sget [] t.dev.allocs h.val = rest ∧ (t.dev.recOf x.rid).reached = n
      ∧ (t.dev.recOf x.rid).units = unitsOf (min n r.payload.length) false
      ∧ (t.dev.cqOf h.val).wp = ((s.dev.cqOf h.val).wp + (unitsOf (min n r.payload.length) false - r.units)) % 2 ^ 22 := by
  have heq := (Dev.arriveBytes_grows (d := (s.dev.begin (.queueUnit h)).withAllocs h.val rest) (h := h.val) (n := n)
    (Dev.recOf_of_sfind hrec) a).trans (Dev.growRec_takes a hmore hroom)
  have g := Dev.moreUnits_grown (((s.dev.begin (.queueUnit h)).withAllocs h.val rest).setRec x.rid (r.withBytes n)) h.val x.rid
    (unitsOf (min n r.payload.length) false) (unitsOf (min n r.payload.length) false - r.units) (r.withBytes n)
  rw [Dev.whole_incomplete (congrArg Rec.complete g.rec_)] at heq
  refine ⟨_, exec_queueUnit h hr, ?_⟩
  rw [Dev.queueUnit_bytes (d := s.dev.begin _) hl hx hrec, heq]
  refine ⟨?_, ?_, ?_, ?_⟩
  · rw [Dev.allocs_of_flowView (Dev.flowView_of_rest (Dev.rest_settle _))]
    exact (congrArg (fun m => sget [] m h.val) g.allocs).trans (sget_sset_same _ _ _ _)
  · exact congrArg Rec.reached ((Dev.recOf_settle _ _).trans g.rec_)
  · exact congrArg Rec.units ((Dev.recOf_settle _ _).trans g.rec_)
  · exact (congrArg CqSt.wp (Dev.cqOf_settle _ _)).trans g.wp

end Sys2Proof.Machine
end

section
/-! PROOFS. The tap ring: what a copy leaves, and the reads of TAP_POP (R212, R213). -/

namespace Sys2Proof.Machine

/-! What the tap ring leaves as it stands. -/

theorem Dev.flowView_tapReply (d : Dev) (h : Nat) (who : TapWho) (v : Word) : (d.tapReply h who v).flowView = d.flowView := by
  unfold Dev.tapReply
  split
  · exact Dev.flowView_of_rest (d.rest_emit _)
  · split <;> rfl
  · split <;> rfl

theorem Dev.flowView_tapTake (d : Dev) (h : Nat) : (d.tapTake h).1.flowView = d.flowView := by
  unfold Dev.tapTake
  dsimp only
  split
  · exact Dev.flowView_of_rest (d.rest_setWindow _ _ _ _)
  · exact (Dev.flowView_of_rest (Dev.rest_setWindow _ _ _ _ _)).trans (d.flowView_setCq _ _)

theorem Dev.flowView_tapServe (d : Dev) (h : Nat) : (d.tapServe h).flowView = d.flowView := by
  unfold Dev.tapServe
  dsimp only
  split
  · rfl
  · exact (Dev.flowView_tapReply _ _ _ _).trans ((Dev.flowView_tapTake _ _).trans (d.flowView_setCq _ _))

theorem Dev.flowView_tapCopy (d : Dev) (h home flow : Nat) (bytes : List Byte) : (d.tapCopy h home flow bytes).flowView = d.flowView := by
  have hpend (e : Dev) {c : Prop} {_ : Decidable c} : (if c then e.pend (Pg.cq h) 5 else e).flowView = e.flowView := by
    split
    · exact Dev.flowView_of_rest (e.rest_pend _ _)
    · rfl
  unfold Dev.tapCopy
  dsimp only
  split
  · rfl
  · split
    · exact Dev.flowView_of_rest (d.rest_bump _ _)
    · exact (Dev.flowView_tapServe _ _).trans ((hpend _).trans (d.flowView_setCq _ _))

/-! Reads of TAP_POP. -/

theorem exec_tapPop {s : State} (h : Half) (peek : Bool) (hr : s.dev.rst = .running) :
    exec (.tapPop h peek) s = s.becomes (s.dev.fresh.tapPop h.val peek) := s.cmd_running _ hr

theorem exec_tapPopTimeout {s : State} (h : Half) (hr : s.dev.rst = .running) :
    exec (.tapPopTimeout h) s = s.becomes ((s.dev.begin (.tapPopTimeout h)).tapPopTimeout h.val) := s.run_running _ _ hr

theorem Dev.tapTake_empty {d : Dev} {h : Nat} (ht : (d.cqOf h).tap = []) : d.tapTake h = (d.setWindow (Pg.cq h) 0x180 16 (0#512), 0#32) := by
  unfold Dev.tapTake
  dsimp only
  rw [ht]

/-- The ring without its oldest entry, which the latch shows. -/
def Dev.tapShift (d : Dev) (h : Nat) (e : BitVec 512) (rest : List (BitVec 512)) : Dev :=
  (d.setCq h { d.cqOf h with tap := rest }).setWindow (Pg.cq h) 0x180 16 e

theorem Dev.tapTake_oldest {d : Dev} {h : Nat} {e : BitVec 512} {rest : List (BitVec 512)} (ht : (d.cqOf h).tap = e :: rest) :
    d.tapTake h = (d.tapShift h e rest, BitVec.ofNat 32 (2 ^ 31 + rest.length)) := by
  unfold Dev.tapTake
  dsimp only
  rw [ht]
  rfl

/-- The latch of a tap ring, at the end of a command that has just loaded it and then only put something out. -/
theorem Dev.tapWindow_settle (d : Dev) (h : Nat) (e : BitVec 512) (o : Out) :
    (((d.setWindow (Pg.cq h) 0x180 16 e).emit o).settle).window 512 (Pg.cq h) 0x180 16 = e :=
  Dev.window_of_words (k := 16) (fun j hj => (Dev.reg_settle _ _ _ (pairStat_ne_raddr _ (by omega) (by omega))).trans
    ((Dev.reg_emit _ _ _ _).trans (d.reg_setWindow (Pg.cq h) 0x180 e hj)))

theorem tapPop_peeks {s : State} (h : Half) (hr : s.dev.rst = .running) : ∃ t, exec (.tapPop h true) s = .next t
    ∧ Out.rdata (raddr (Pg.cq h.val) 0x144) (BitVec.ofNat 32 (s.dev.cqOf h.val).tap.length) ∈ t.dev.out ∧ t.dev.rest = s.dev.rest :=
  ⟨_, exec_tapPop h true hr, Dev.mem_out_settle_emit s.dev.fresh _,
    (Dev.rest_settle _).trans ((Dev.rest_emit s.dev.fresh (.rdata (raddr (Pg.cq h.val) 0x144) _)).trans s.dev.rest_fresh)⟩

theorem Dev.tapPop_oldest {d : Dev} {h : Nat} {e : BitVec 512} {rest : List (BitVec 512)} (ht : (d.cqOf h).tap = e :: rest) :
    d.tapPop h false = (d.tapShift h e rest).emit (.rdata (raddr (Pg.cq h) 0x144) (BitVec.ofNat 32 (2 ^ 31 + rest.length))) := by
  have hread : d.tapRead h false .cmd = (d.tapShift h e rest, some (BitVec.ofNat 32 (2 ^ 31 + rest.length))) := by
    unfold Dev.tapRead
    dsimp only
    rw [if_neg Bool.false_ne_true, if_pos (.inl (by rw [ht]; exact List.cons_ne_nil _ _)), Dev.tapTake_oldest ht]
  unfold Dev.tapPop
  rw [hread]
  rfl

theorem tapPop_takes {s : State} {h : Half} {e : BitVec 512} {rest : List (BitVec 512)} (hr : s.dev.rst = .running)
    (ht : (s.dev.cqOf h.val).tap = e :: rest) : ∃ t, exec (.tapPop h false) s = .next t
      ∧ Out.rdata (raddr (Pg.cq h.val) 0x144) (BitVec.ofNat 32 (2 ^ 31 + rest.length)) ∈ t.dev.out
      ∧ (t.dev.cqOf h.val).tap = rest ∧ t.dev.window 512 (Pg.cq h.val) 0x180 16 = e := by
  refine ⟨_, exec_tapPop h false hr, ?_⟩
  rw [Dev.tapPop_oldest (d := s.dev.fresh) ht]
  refine ⟨Dev.mem_out_settle_emit _ _, ?_, Dev.tapWindow_settle _ _ _ _⟩
  rw [Dev.cqOf_settle, Dev.tapShift, Dev.cqOf_of_cq (Dev.cq_of_rest ((Dev.rest_emit _ _).trans (Dev.rest_setWindow _ _ _ _ _))), Dev.cqOf_setCq]

theorem Dev.tapPop_waits {d : Dev} {h : Nat} (ht : (d.cqOf h).tap = []) (hw : d.fld (Pg.cq h) F.CQ_TAP_WAIT_CK ≠ 0) :
    d.tapPop h false = (d.setCq h { d.cqOf h with tapReads := (d.cqOf h).tapReads ++ [(d.ck + d.fld (Pg.cq h) F.CQ_TAP_WAIT_CK, .cmd)] }).sched
      (d.fld (Pg.cq h) F.CQ_TAP_WAIT_CK) (.tapPopTimeout (halfOf h)) := by
  unfold Dev.tapPop Dev.tapRead
  dsimp only
  rw [if_neg Bool.false_ne_true, if_neg (not_or.mpr ⟨not_not.mpr ht, fun hn => hw hn.1⟩)]

theorem tapPop_waits {s : State} {h : Half} (hr : s.dev.rst = .running) (ht : (s.dev.cqOf h.val).tap = [])
    (hw : s.dev.fld (Pg.cq h.val) F.CQ_TAP_WAIT_CK ≠ 0) : ∃ t, exec (.tapPop h false) s = .next t ∧ t.dev.out = []
      ∧ (t.dev.cqOf h.val).tapReads = (s.dev.cqOf h.val).tapReads ++ [(s.dev.ck + s.dev.fld (Pg.cq h.val) F.CQ_TAP_WAIT_CK, TapWho.cmd)] := by
  refine ⟨_, exec_tapPop h false hr, ?_⟩
  rw [Dev.tapPop_waits (d := s.dev.fresh) ht hw]
  refine ⟨(Dev.settle_out _).trans rfl, ?_⟩
  rw [Dev.cqOf_settle]
  exact congrArg CqSt.tapReads (Dev.cqOf_setCq s.dev.fresh h.val _)

/-- The queue without the read that has waited longest. -/
def Dev.dropRead (d : Dev) (h : Nat) (rest : List (Nat × TapWho)) : Dev := d.setCq h { d.cqOf h with tapReads := rest }

theorem Dev.tapPopTimeout_due {d : Dev} {h : Nat} {r : Nat × TapWho} {rest : List (Nat × TapWho)} (ht : (d.cqOf h).tap = [])
    (hq : (d.cqOf h).tapReads = r :: rest) (hc : r.2 = .cmd) (hd : r.1 ≤ d.ck) : d.tapPopTimeout h
      = ((d.dropRead h rest).setWindow (Pg.cq h) 0x180 16 (0#512)).emit (.rdata (raddr (Pg.cq h) 0x144) 0#32) := by
  have hempty : ((d.dropRead h rest).cqOf h).tap = [] := by rw [Dev.dropRead, Dev.cqOf_setCq]; exact ht
  have hfind : (r :: rest).find? (fun x => decide (x.1 ≤ d.ck)) = some r := List.find?_cons_of_pos (decide_eq_true hd)
  unfold Dev.tapPopTimeout
  dsimp only
  rw [hq, hfind]
  dsimp only
  rw [List.erase_cons_head, ← Dev.dropRead, Dev.tapTake_empty hempty, hc]
  rfl

theorem tapPopTimeout_zeroes {s : State} {h : Half} {r : Nat × TapWho} {rest : List (Nat × TapWho)} (hr : s.dev.rst = .running)
    (ht : (s.dev.cqOf h.val).tap = []) (hq : (s.dev.cqOf h.val).tapReads = r :: rest) (hc : r.2 = .cmd) (hd : r.1 ≤ s.dev.ck) :
    ∃ t, exec (.tapPopTimeout h) s = .next t ∧ Out.rdata (raddr (Pg.cq h.val) 0x144) 0#32 ∈ t.dev.out
      ∧ (t.dev.cqOf h.val).tapReads = rest ∧ t.dev.window 512 (Pg.cq h.val) 0x180 16 = 0#512 := by
  refine ⟨_, exec_tapPopTimeout h hr, ?_⟩
  rw [Dev.tapPopTimeout_due (d := s.dev.begin _) ht hq hc hd]
  refine ⟨Dev.mem_out_settle_emit _ _, ?_, Dev.tapWindow_settle _ _ _ _⟩
  rw [Dev.cqOf_settle, Dev.cqOf_of_cq (Dev.cq_of_rest ((Dev.rest_emit _ _).trans (Dev.rest_setWindow _ _ _ _ _))), Dev.dropRead, Dev.cqOf_setCq]

end Sys2Proof.Machine
end

section
/-! PROOFS. The capture writer: gap markers, records, acknowledgements, flushes (R121, R122, R206, R208, R211), and O39. -/

namespace Sys2Proof.Machine

/-! The commands. -/

section
variable {s : State} (h : Half) (hr : s.dev.rst = .running)
include hr

theorem exec_gapMarkerClose (f : Fin 4096) :
    exec (.gapMarkerClose h f) s = s.becomes ((s.dev.begin (.gapMarkerClose h f)).gapMarkerClose h.val f.val) := s.run_running _ _ hr
theorem exec_captureWrite (ecc : Fin 3) :
    exec (.captureWrite h ecc) s = s.becomes ((s.dev.begin (.captureWrite h ecc)).captureWrite h.val ecc.val) := s.run_running _ _ hr
theorem exec_captureWriteAck (rid : Nat) (err : Bool) :
    exec (.captureWriteAck h rid err) s = s.becomes ((s.dev.begin (.captureWriteAck h rid err)).captureWriteAck h.val rid err) :=
  s.run_running _ _ hr
theorem exec_flushDone : exec (.flushDone h) s = s.becomes ((s.dev.begin (.flushDone h)).flushDone h.val) := s.run_running _ _ hr
end

/-! Gap markers (R122). -/

/-- The run is closed: its marker has been written, the next record of the flow is the one after it. -/
def Dev.runClosed (d : Dev) (home f : Nat) (after : Option Nat) : Dev :=
  ({ d with runs := sset {} d.runs (flowKey home f) { after := after } } : Dev).setFlowFld home f FL_GAP_OPEN 0

/-- A marker counts, in its flow and its half. -/
def Dev.markerCounted (d : Dev) (home f : Nat) : Dev :=
  ((d.flowBump home f FL_GAPMARKS 1).bump (Pg.flow home) F.FLOW_GAP_CNT).pend (Pg.flow home) 2

theorem Dev.writeMarker_open {d : Dev} {home f : Nat} (hc : (sget ({} : LossRun) d.runs (flowKey home f)).count ≠ 0) :
    ∃ e after h bytes, d.writeMarker home f = (((e : Dev).runClosed home f after).markerCounted home f).tapCopy h home f bytes := by
  unfold Dev.writeMarker
  exact ⟨_, _, _, _, if_neg hc⟩

theorem Dev.writeMarker_none {d : Dev} {home f : Nat} (hc : (sget ({} : LossRun) d.runs (flowKey home f)).count = 0) : d.writeMarker home f = d := by
  unfold Dev.writeMarker
  exact if_pos hc

theorem Dev.gapOpen_runClosed (d : Dev) (home f : Nat) (after : Option Nat) : (d.runClosed home f after).flowFld home f FL_GAP_OPEN = 0 :=
  Dev.flowFld_setFlowFld _ _ _ _ _ (by decide)

theorem Dev.runs_setFlowFld (d : Dev) (h f : Nat) (k : Fld) (v : Nat) : (d.setFlowFld h f k v).runs = d.runs := (rfl)

theorem Dev.run_runClosed (d : Dev) (home f : Nat) (after : Option Nat) :
    (sget ({} : LossRun) (d.runClosed home f after).runs (flowKey home f)).count = 0 := by
  rw [Dev.runClosed, Dev.runs_setFlowFld, sget_sset_same]

theorem Dev.flowView_flowCounted (d : Dev) (home : Nat) : ((d.bump (Pg.flow home) F.FLOW_GAP_CNT).pend (Pg.flow home) 2).flowView = d.flowView :=
  Dev.flowView_of_rest ((Dev.rest_pend _ _ _).trans (d.rest_bump _ _))

theorem Dev.runs_flowBump (d : Dev) (h f : Nat) (k : Fld) (n : Nat) : (d.flowBump h f k n).runs = d.runs := (rfl)

theorem Dev.gapOpen_markerCounted (d : Dev) (home f : Nat) : (d.markerCounted home f).flowFld home f FL_GAP_OPEN = d.flowFld home f FL_GAP_OPEN :=
  (Dev.flowFld_of_flows (Dev.flows_of_flowView (Dev.flowView_flowCounted _ home)) _ _ _).trans
    (d.flowFld_flowBump_apart home f 1 (by decide) (by decide))

theorem Dev.runs_markerCounted (d : Dev) (home f : Nat) : (d.markerCounted home f).runs = d.runs :=
  (Dev.runs_of_flowView (Dev.flowView_flowCounted _ home)).trans (d.runs_flowBump home f _ 1)

/-- The marker that a flow's open run gets leaves it with no run and no marker owed. -/
theorem Dev.writeMarker_closes {d : Dev} {home f : Nat} (hc : (sget ({} : LossRun) d.runs (flowKey home f)).count ≠ 0) :
    (d.writeMarker home f).flowFld home f FL_GAP_OPEN = 0 ∧ (sget ({} : LossRun) (d.writeMarker home f).runs (flowKey home f)).count = 0 := by
  obtain ⟨e, after, h, bytes, heq⟩ := Dev.writeMarker_open hc
  rw [heq]
  constructor
  · rw [Dev.flowFld_of_flows (Dev.flows_of_flowView (Dev.flowView_tapCopy _ _ _ _ _)), Dev.gapOpen_markerCounted, Dev.gapOpen_runClosed]
  · rw [Dev.runs_of_flowView (Dev.flowView_tapCopy _ _ _ _ _), Dev.runs_markerCounted, Dev.run_runClosed]

/-- The flow waits no longer for its closing marker. -/
def Dev.dropClosing (d : Dev) (k : Nat) : Dev := { d with closing := serase d.closing k }

theorem Dev.closing_of_rest {d d' : Dev} (h : d'.rest = d.rest) : d'.closing = d.closing := by
  have hc : d'.rest.closing = d.rest.closing := congrArg Dev.closing h
  exact hc

theorem Dev.gapMarkerClose_writes {d : Dev} {h f upto : Nat} {x : Ext} (hw : sfind d.closing (flowKey h f) = some upto)
    (hc : (sget ({} : LossRun) d.runs (flowKey h f)).count ≠ 0) (hz : d.flowFld h f FL_FROZEN = 0) (hx : d.openExt h f = some x)
    (hp : x.half = d.placeHalf h f) (hroom : x.written + 64 ≤ extBytes) :
    d.gapMarkerClose h f = (d.writeMarker h f).dropClosing (flowKey h f) := by
  unfold Dev.gapMarkerClose
  dsimp only
  rw [hw, if_neg (show ¬ (some upto).isNone = true from Bool.false_ne_true), if_neg (not_or.mpr ⟨hc, by rw [hz]; decide⟩), hx]
  exact if_pos ⟨hp, hroom⟩

theorem gapMarkerClose_closes {s : State} {h : Half} {f : Fin 4096} {upto : Nat} {x : Ext} (hr : s.dev.rst = .running)
    (hw : sfind s.dev.closing (flowKey h.val f) = some upto) (hc : (sget ({} : LossRun) s.dev.runs (flowKey h.val f)).count ≠ 0)
    (hz : s.dev.flowFld h.val f FL_FROZEN = 0) (hx : s.dev.openExt h.val f = some x) (hp : x.half = s.dev.placeHalf h.val f)
    (hroom : x.written + 64 ≤ extBytes) : ∃ t, exec (.gapMarkerClose h f) s = .next t ∧ t.dev.flowFld h.val f FL_GAP_OPEN = 0
      ∧ (sget ({} : LossRun) t.dev.runs (flowKey h.val f)).count = 0 ∧ sfind t.dev.closing (flowKey h.val f) = none := by
  obtain ⟨hgap, hrun⟩ := Dev.writeMarker_closes (d := s.dev.begin (.gapMarkerClose h f)) hc
  refine ⟨_, exec_gapMarkerClose h hr f, ?_⟩
  rw [Dev.gapMarkerClose_writes (d := s.dev.begin _) hw hc hz hx hp hroom]
  generalize (s.dev.begin (.gapMarkerClose h f)).writeMarker h.val f = e at hgap hrun
  refine ⟨(Dev.flowFld_settle _ _ _ _).trans hgap, ?_, ?_⟩
  · rw [Dev.runs_of_flowView (Dev.flowView_of_rest (Dev.rest_settle _))]
    exact hrun
  · rw [Dev.closing_of_rest (Dev.rest_settle _)]
    exact sfind_serase_same _ _

/-! Records written (R121, R124, R208). -/

/-- The flow's open extent takes the record, which waits for its acknowledgement. -/
theorem Dev.streamWrite_writes {d : Dev} {home f : Nat} {x : Ext} (rid : Nat) (bs : List Byte) (lp : Nat) (hx : d.openExt home f = some x) :
    ∃ e tx, d.streamWrite home f rid bs lp = (e : Dev).setRec rid { e.recOf rid with st := .writing, tx := tx } := by
  unfold Dev.streamWrite
  rw [hx]
  exact ⟨_, _, rfl⟩

theorem Dev.exts_of_rest {d d' : Dev} (h : d'.rest = d.rest) : d'.exts = d.exts := by
  have he : d'.rest.exts = d.rest.exts := congrArg Dev.exts h
  exact he

/-- Queue words that read corrected or uncorrectable leave extents and open runs. -/
theorem Dev.ocm_keeps (d : Dev) (m k : Nat) : (d.ocm m k).exts = d.exts ∧ (d.ocm m k).runs = d.runs := by
  have hsched (e : Dev) (n : Nat) (i : Instr) : (e.sched n i).exts = e.exts := (rfl)
  unfold Dev.ocm
  split
  · exact ⟨(hsched _ _ _).trans (Dev.exts_of_rest (d.rest_bump _ _)),
      Dev.runs_of_flowView ((Dev.flowView_sched _ _ _).trans (Dev.flowView_of_rest (d.rest_bump _ _)))⟩
  · split
    · have hrest := (Dev.rest_err (d.bump Pg.dev (F.DEV_OCM_UNC m)) Pg.dev 2 0x0D20).trans (d.rest_bump _ _)
      exact ⟨Dev.exts_of_rest hrest, Dev.runs_of_flowView (Dev.flowView_of_rest hrest)⟩
    · exact ⟨rfl, rfl⟩

/-- A written record's flow counts it (Table 6-10). -/
def Dev.recordCounted (d : Dev) (h f : Nat) (bytes : Nat) (lp : Nat) (poison : Bool) : Dev :=
  let d := ((d.flowBump h f FL_RECORDS 1).flowBump h f FL_BYTES bytes).setFlowFld h f FL_LAST_LP lp
  if poison then d.flowBump h f FL_POISONED 1 else d

/-- The oldest number of a flow is resolved. -/
def Dev.dropNumber (d : Dev) (h f : Nat) : Dev := { d with nums := sset [] d.nums (flowKey h f) ((sget [] d.nums (flowKey h f)).drop 1) }

theorem Dev.flowView_dropNumber (d : Dev) (h f : Nat) : (d.dropNumber h f).flowView = d.flowView := (rfl)

/-- The number of a written record is resolved, and the record copied to the tap ring (R121, R212). -/
def Dev.numberWritten (d : Dev) (h f ph : Nat) (bytes : List Byte) : Dev := ((d.dropNumber h f).tapCopy ph h f bytes).resolve h f

/-- The queue words of a record are read, its flow's marker written first. -/
def Dev.beforeRecord (d : Dev) (h f ecc : Nat) : Dev := (if ecc = 0 then d else d.ocm Oc.queue ecc).writeMarker h f

/-- The record shows what it adds to its epoch when written (R466). -/
def Dev.setTerm (d : Dev) (rid term : Nat) : Dev := d.setRec rid { d.recOf rid with term := term }

theorem Dev.writeRecord_eq (d : Dev) (rid : Nat) (r : Rec) (ecc : Nat) : ∃ bytes n term poison ph, d.writeRecord rid r ecc
    = (((((d.beforeRecord r.half r.flow ecc).streamWrite r.half r.flow rid bytes (lpInt r.lp)).setTerm rid term).recordCounted r.half r.flow n
        (lpInt r.lp) poison).numberWritten r.half r.flow ph bytes) := ⟨_, _, _, _, _, rfl⟩

theorem Dev.beforeRecord_exts {d : Dev} {h f : Nat} (ecc : Nat) (hc : (sget ({} : LossRun) d.runs (flowKey h f)).count = 0) :
    (d.beforeRecord h f ecc).exts = d.exts := by
  unfold Dev.beforeRecord
  split
  · rw [Dev.writeMarker_none hc]
  · obtain ⟨hexts, hruns⟩ := d.ocm_keeps Oc.queue ecc
    rw [Dev.writeMarker_none (by rw [hruns]; exact hc), hexts]

theorem Dev.openExt_of_exts {d d' : Dev} (h : d'.exts = d.exts) (home f : Nat) : d'.openExt home f = d.openExt home f := by
  unfold Dev.openExt Dev.heldOf
  rw [h]

theorem Dev.recs_recordCounted (d : Dev) (h f n lp : Nat) (poison : Bool) : (d.recordCounted h f n lp poison).recs = d.recs := by
  unfold Dev.recordCounted
  dsimp only
  have hset (e : Dev) (k : Fld) (v : Nat) : (e.setFlowFld h f k v).recs = e.recs := (rfl)
  split
  · rw [Dev.recs_flowBump, hset, Dev.recs_flowBump, Dev.recs_flowBump]
  · rw [hset, Dev.recs_flowBump, Dev.recs_flowBump]

theorem Dev.lastLp_recordCounted (d : Dev) (h f n lp : Nat) (poison : Bool) :
    (d.recordCounted h f n lp poison).flowFld h f FL_LAST_LP = lp % 2 ^ 64 := by
  unfold Dev.recordCounted
  dsimp only
  split
  · rw [Dev.flowFld_flowBump_apart _ _ _ _ (by decide) (by decide)]
    exact Dev.flowFld_setFlowFld _ _ _ _ _ (by decide)
  · exact Dev.flowFld_setFlowFld _ _ _ _ _ (by decide)

/-- A record is being written, and its flow shows its position as the last. -/
structure Dev.Written (d : Dev) (rid h f lp : Nat) : Prop where
  st : (d.recOf rid).st = .writing
  last : d.flowFld h f FL_LAST_LP = lp % 2 ^ 64

section
variable {d : Dev} {rid h f lp : Nat}

theorem Dev.Written.of_flowView {e : Dev} (w : d.Written rid h f lp) (hv : e.flowView = d.flowView) : e.Written rid h f lp :=
  ⟨(congrArg Rec.st (Dev.recOf_congr (Dev.recs_of_flowView hv) rid)).trans w.st,
    (Dev.flowFld_of_flows (Dev.flows_of_flowView hv) h f _).trans w.last⟩

theorem Dev.Written.numberWritten (w : d.Written rid h f lp) (ph : Nat) (bytes : List Byte) : (d.numberWritten h f ph bytes).Written rid h f lp := by
  have wc := w.of_flowView ((Dev.flowView_tapCopy _ ph h f bytes).trans (d.flowView_dropNumber h f))
  have q := ((d.dropNumber h f).tapCopy ph h f bytes).resolve_queueKeeps h f
  exact ⟨(congrArg Rec.st (Dev.recOf_congr q.recs rid)).trans wc.st, (q.flow _ (by decide)).trans wc.last⟩
end

/-- A record whose flow has no open run is written to its open extent. -/
theorem Dev.writeRecord_written {d : Dev} {rid : Nat} {r : Rec} {x : Ext} (ecc : Nat)
    (hc : (sget ({} : LossRun) d.runs (flowKey r.half r.flow)).count = 0) (hx : d.openExt r.half r.flow = some x) :
    (d.writeRecord rid r ecc).Written rid r.half r.flow (lpInt r.lp) := by
  obtain ⟨bytes, n, term, poison, ph, heq⟩ := d.writeRecord_eq rid r ecc
  have hx' : (d.beforeRecord r.half r.flow ecc).openExt r.half r.flow = some x :=
    (Dev.openExt_of_exts (Dev.beforeRecord_exts ecc hc) _ _).trans hx
  obtain ⟨e, tx, hs⟩ := Dev.streamWrite_writes rid bytes (lpInt r.lp) hx'
  rw [heq, hs]
  refine Dev.Written.numberWritten ⟨?_, Dev.lastLp_recordCounted _ _ _ _ _ _⟩ _ _
  rw [Dev.recOf_congr (Dev.recs_recordCounted _ _ _ _ _ _), Dev.setTerm, Dev.recOf_setRec, Dev.recOf_setRec]

/-! The writer's choice (R208). -/

/-- No record has been emitted by an engine or is still being copied, and no pair sync mark waits. -/
structure Dev.WriterQuiet (d : Dev) (h : Nat) : Prop where
  recs : ∀ y ∈ d.recs, y.2.emit = none ∧ y.2.copyCk ≤ d.ck
  marks : d.marksOf h = []

theorem foldl_filter_none {α β : Type} (g : β → α → β) {p : α → Bool} {l : List α} (b : β) (h : ∀ x ∈ l, ¬ p x = true) :
    (l.filter p).foldl g b = b := by
  rw [List.filter_eq_nil_iff.mpr h, List.foldl_nil]

theorem Dev.WriterQuiet.begins {d : Dev} {h : Nat} (q : d.WriterQuiet h) : ((d.placeEmitted h).writeMarks h).earlyExtents h = d := by
  have hplace : d.placeEmitted h = d := foldl_filter_none _ _ (fun y hy hp => by simp [(q.recs y hy).1] at hp)
  have hmarks : d.writeMarks h = d := if_pos (.inl q.marks)
  have hearly : d.earlyExtents h = d := foldl_filter_none _ _ (fun y hy hp => by simp [Nat.not_lt.mpr (q.recs y hy).2] at hp)
  rw [hplace, hmarks, hearly]

/-- The writer takes records of its half alone. -/
theorem Dev.half_of_writable {d : Dev} {h : Nat} {y : Nat × Rec} (hy : y ∈ d.writable h) : y.2.half = h := by
  revert hy y
  unfold Dev.writable
  refine List.foldlRecOn (motive := fun l => ∀ {y : Nat × Rec}, y ∈ l → y.2.half = h) _ _ (fun hy => absurd hy List.not_mem_nil)
    (fun l hl x hx y hy => ?_)
  have hok := (List.mem_filter.mp hx).2
  simp only [Bool.and_eq_true, decide_eq_true_eq, and_assoc] at hok
  simp only [List.mem_append, List.mem_filter, List.mem_singleton] at hy
  rcases hy with (hy | rfl) | hy
  · exact hl hy.1
  · exact hok.1
  · exact hl hy.1

theorem Dev.extFits_room {d : Dev} {h f : Nat} {x : Ext} (hx : d.openExt h f = some x) (hp : x.half = d.placeHalf h f)
    (hroom : x.written + d.streamNeed h f ≤ extBytes) : d.extFits h f = true := by
  unfold Dev.extFits
  rw [hx]
  simp [hp, hroom]

/-- The writer writes the oldest record it may, and looks again in the next CK where more may wait. -/
theorem Dev.captureWrite_oldest {d : Dev} {h rid : Nat} {r : Rec} {rest : List (Nat × Rec)} (ecc : Nat) (q : d.WriterQuiet h)
    (hw : d.writable h = (rid, r) :: rest) (hf : d.extFits h r.flow = true) :
    (d.captureWrite h ecc).flowView = (d.writeRecord rid r ecc).flowView := by
  unfold Dev.captureWrite
  dsimp only
  rw [q.begins, hw]
  dsimp only
  rw [if_pos hf]
  split
  · rfl
  · exact Dev.flowView_schedOnce _ _ _

theorem captureWrite_writes {s : State} {h : Half} {rid : Nat} {r : Rec} {rest : List (Nat × Rec)} {x : Ext} (ecc : Fin 3)
    (hr : s.dev.rst = .running) (hw : s.dev.writable h.val = (rid, r) :: rest) (q : s.dev.WriterQuiet h.val)
    (hc : (sget ({} : LossRun) s.dev.runs (flowKey r.half r.flow)).count = 0) (hx : s.dev.openExt h.val r.flow = some x)
    (hp : x.half = s.dev.placeHalf h.val r.flow) (hroom : x.written + s.dev.streamNeed h.val r.flow ≤ extBytes) :
    ∃ t, exec (.captureWrite h ecc) s = .next t ∧ (t.dev.recOf rid).st = .writing
      ∧ t.dev.flowFld h.val r.flow FL_LAST_LP = lpInt r.lp % 2 ^ 64 := by
  have hh : r.half = h.val := Dev.half_of_writable (d := s.dev) (y := (rid, r)) (by rw [hw]; exact List.mem_cons_self)
  have hx' : (s.dev.begin (.captureWrite h ecc)).openExt r.half r.flow = some x := by rw [hh]; exact hx
  have hv := Dev.captureWrite_oldest (d := s.dev.begin (.captureWrite h ecc)) ecc ⟨q.recs, q.marks⟩ hw (Dev.extFits_room (d := s.dev) hx hp hroom)
  have w := ((Dev.writeRecord_written (d := s.dev.begin (.captureWrite h ecc)) (rid := rid) ecc hc hx').of_flowView hv).of_flowView
    (Dev.flowView_of_rest (Dev.rest_settle _))
  rw [hh] at w
  exact ⟨_, exec_captureWrite h hr ecc, w.st, w.last⟩

theorem captureWrite_idle {s : State} {h : Half} (ecc : Fin 3) (hr : s.dev.rst = .running) (hw : s.dev.writable h.val = [])
    (q : s.dev.WriterQuiet h.val) : exec (.captureWrite h ecc) s = s.becomes (s.dev.begin (.captureWrite h ecc)) := by
  have hq : (s.dev.begin (.captureWrite h ecc)).WriterQuiet h.val := ⟨q.recs, q.marks⟩
  have hw' : (s.dev.begin (.captureWrite h ecc)).writable h.val = [] := hw
  rw [exec_captureWrite h hr ecc, Dev.captureWrite, hq.begins]
  dsimp only
  rw [hw']

/-! Acknowledgements (R206, R208). -/

theorem Dev.flowView_flushCheck (d : Dev) (h : Nat) : (d.flushCheck h).flowView = d.flowView := by
  unfold Dev.flushCheck
  dsimp only
  split
  · exact d.flowView_schedOnce _ _
  · rfl

/-- A record whose write is answered leaves, whatever the answer. -/
theorem Dev.captureWriteAck_drops {d : Dev} {h rid : Nat} {r : Rec} (err : Bool) (hrec : sfind d.recs rid = some r) (hst : r.st = .writing)
    (hh : r.half = h) (hd : d.txDone (sget ({} : DTx) d.dtx r.tx) = true) :
    ∃ e, d.captureWriteAck h rid err = ((e : Dev).dropRec rid).flushCheck h := by
  unfold Dev.captureWriteAck
  rw [hrec]
  exact ⟨_, if_neg (fun hn => hn.elim (· hst) (·.elim (· hh) (· hd)))⟩

theorem captureWriteAck_releases {s : State} {h : Half} {rid : Nat} {r : Rec} (hr : s.dev.rst = .running) (hrec : sfind s.dev.recs rid = some r)
    (hst : r.st = .writing) (hh : r.half = h.val) (hd : s.dev.txDone (sget ({} : DTx) s.dev.dtx r.tx) = true) :
    ∃ t, exec (.captureWriteAck h rid false) s = .next t ∧ sfind t.dev.recs rid = none := by
  obtain ⟨e, heq⟩ := Dev.captureWriteAck_drops (d := s.dev.begin (.captureWriteAck h rid false)) false hrec hst hh hd
  refine ⟨_, exec_captureWriteAck h hr rid false, ?_⟩
  rw [heq]
  exact (congrArg (fun m => sfind m rid) ((Dev.recs_settle _).trans (Dev.recs_of_flowView (Dev.flowView_flushCheck _ _)))).trans
    (sfind_serase_same _ _)

theorem captureWriteAck_unknown {s : State} {h : Half} {rid : Nat} (err : Bool) (hr : s.dev.rst = .running) (hrec : sfind s.dev.recs rid = none) :
    exec (.captureWriteAck h rid err) s = s.becomes (s.dev.begin (.captureWriteAck h rid err)) := by
  have hrec' : sfind (s.dev.begin (.captureWriteAck h rid err)).recs rid = none := hrec
  rw [exec_captureWriteAck h hr, Dev.captureWriteAck, hrec']

/-! Flushes (R211). -/

theorem pendMaskOf_cq (h : Half) : pendMaskOf (Pg.cq h.val) = 0x3F := by
  unfold pendMaskOf
  rw [blkOfPage_page .cq h.val h.isLt]
  rfl

theorem Dev.bit_pend_cq (d : Dev) (h : Half) (k : Fin 6) : bit ((d.pend (Pg.cq h.val) k).reg (Pg.cq h.val) 0x010).toNat k = true := by
  have hk : ∀ k : Fin 6, (BitVec.ofNat 32 (2 ^ k.val &&& 0x3F)).toNat.testBit k = true := by decide
  have hor : bit ((d.pend (Pg.cq h.val) k).reg (Pg.cq h.val) 0x010).toNat k
      = (bit (d.reg (Pg.cq h.val) 0x010).toNat k || (BitVec.ofNat 32 (2 ^ k.val &&& 0x3F)).toNat.testBit k) := by
    rw [Dev.pend, Dev.reg_pendBits, pendMaskOf_cq, BitVec.toNat_or]
    exact Nat.testBit_or _ _ _
  rw [hor, hk k, Bool.or_true]

theorem pairStat_ne_cq (h : Half) : raddr Pg.pair F.PAIR_STAT_STATE.off ≠ raddr (Pg.cq h.val) F.CQ_STAT_FLUSH_PEND.off := by
  revert h
  decide

/-- No record allocated before the mark is left in the queue: the flush is done. -/
theorem Dev.flushDone_clears {d : Dev} {h : Nat} (hp : d.flag (Pg.cq h) F.CQ_STAT_FLUSH_PEND = true)
    (hm : ∀ x ∈ d.recs, x.2.half = h → x.2.units = 0 ∨ (d.cqOf h).mark ≤ x.2.allocNo) :
    d.flushDone h = (d.setFld (Pg.cq h) F.CQ_STAT_FLUSH_PEND 0).pend (Pg.cq h) 3 := by
  refine if_neg ?_
  rintro (hn | hn)
  · exact hn hp
  · obtain ⟨x, hx, hin⟩ := List.any_eq_true.mp hn
    simp only [Bool.and_eq_true, decide_eq_true_eq] at hin
    obtain ⟨⟨hh, hu⟩, ha⟩ := hin
    rcases hm x hx hh with h0 | hle
    · omega
    · omega

theorem flushDone_ends {s : State} {h : Half} (hr : s.dev.rst = .running) (hp : s.dev.flag (Pg.cq h.val) F.CQ_STAT_FLUSH_PEND = true)
    (hm : ∀ x ∈ s.dev.recs, x.2.half = h.val → x.2.units = 0 ∨ (s.dev.cqOf h.val).mark ≤ x.2.allocNo) :
    ∃ t, exec (.flushDone h) s = .next t ∧ t.dev.fld (Pg.cq h.val) F.CQ_STAT_FLUSH_PEND = 0
      ∧ bit (t.dev.reg (Pg.cq h.val) 0x010).toNat 3 = true ∧ t.dev.cq = s.dev.cq := by
  refine ⟨_, exec_flushDone h hr, ?_⟩
  rw [Dev.flushDone_clears (d := s.dev.begin (.flushDone h)) hp hm]
  refine ⟨?_, ?_, ?_⟩
  · rw [Dev.fld_settle _ _ _ (pairStat_ne_cq h), Dev.pend, Dev.fld_pend_off _ _ _ _ (by decide) (by decide), Dev.fld_setFld _ _ _ _ (by decide)]
    rfl
  · rw [Dev.reg_settle _ _ _ (pairStat_ne_raddr _ (by decide) (by decide))]
    exact Dev.bit_pend_cq _ h 3
  · exact (Dev.cq_of_rest ((Dev.rest_settle _).trans ((Dev.rest_pend _ _ _).trans (Dev.rest_setFld _ _ _ _)))).trans (s.dev.begin_cq _)

/-- A block's CTRL register is written as its chapter says. -/
theorem Dev.softWrite_ctrl (d : Dev) {b : Blk} {i : Nat} {r : RegDesc} (val : Word) (hi : i < b.count) (hd : regDesc b 0x008 = some r) :
    d.softWrite (raddr (b.page i) 0x008) val = d.blockWrite b i 0x008 val := by
  unfold Dev.softWrite
  simp only [raddr_div _ (show 0x008 < 4096 by decide), raddr_mod _ (show 0x008 < 4096 by decide), blkOfPage_page b i hi, hd]
  exact if_neg (fun hn => hn.2.1 rfl)

/-- CQ_CTRL takes its value by the common rules; its bit 0 flushes the queue. -/
theorem Dev.writeCq_flush (d : Dev) (h : Nat) {val : Word} (hb : bit val.toNat 0 = true) :
    d.writeCq h 0x008 val = (d.plain .cq h 0x008 val 0).cqFlush h := by
  unfold Dev.writeCq
  rw [if_neg (by decide)]
  exact if_pos ⟨rfl, hb⟩

theorem bit_zero_or_one (w : Word) : bit (w ||| BitVec.ofNat 32 1).toNat 0 = true := by
  rw [BitVec.toNat_or, bit, Nat.testBit_or, Bool.or_eq_true]
  exact .inr rfl

theorem exec_cqFlush {s : State} (h : Half) (hr : s.dev.rst = .running) (hu : s.dev.unpaired) : ∃ d : Dev, d.rest = s.dev.rest
    ∧ exec (.cqFlush h) s = s.becomes (d.cqFlush h.val) := by
  refine ⟨s.dev.fresh.plain .cq h.val 0x008 (s.dev.fresh.reg (Pg.cq h.val) 0x008 ||| BitVec.ofNat 32 1) 0,
    (Dev.rest_plain _ _ _ _ _ _).trans s.dev.rest_fresh, ?_⟩
  change s.cmd (fun d => d.busSet (Pg.cq h.val) 0x008 1) = _
  rw [s.cmd_running _ hr, Dev.busSet, Dev.busWrite, Dev.swGate_unpaired s.dev.fresh _ _ _ hu, Dev.softWrite_ctrl _ _ h.isLt rfl]
  exact congrArg s.becomes (Dev.writeCq_flush _ _ (bit_zero_or_one _))

theorem Dev.regs_flushCheck (d : Dev) (h : Nat) : (d.flushCheck h).regs = d.regs := by
  unfold Dev.flushCheck
  dsimp only
  split
  · exact d.regs_schedOnce _ _
  · rfl

theorem Dev.cq_flushCheck (d : Dev) (h : Nat) : (d.flushCheck h).cq = d.cq := by
  unfold Dev.flushCheck
  dsimp only
  split
  · exact d.cq_schedOnce _ _
  · rfl

theorem Dev.cqOf_cqFlush (d : Dev) (h : Nat) : (d.cqFlush h).cqOf h = { d.cqOf h with mark := (d.cqOf h).nextNo } := by
  unfold Dev.cqFlush
  dsimp only
  rw [Dev.cqOf_of_cq ((Dev.cq_flushCheck _ _).trans (Dev.cq_of_rest (Dev.rest_setFld _ _ _ _))), Dev.cqOf_setCq]

theorem Dev.recs_cqFlush (d : Dev) (h : Nat) : (d.cqFlush h).recs = d.recs :=
  Dev.recs_of_flowView ((Dev.flowView_flushCheck _ _).trans ((Dev.flowView_of_rest (Dev.rest_setFld _ _ _ _)).trans (d.flowView_setCq h _)))

theorem Dev.fld_cqFlush (d : Dev) (h : Nat) : (d.cqFlush h).fld (Pg.cq h) F.CQ_STAT_FLUSH_PEND = 1 := by
  unfold Dev.cqFlush Dev.fld
  dsimp only
  rw [Dev.reg_congr (Dev.regs_flushCheck _ _)]
  exact (Dev.fld_setFld _ _ F.CQ_STAT_FLUSH_PEND _ (by decide)).trans rfl

theorem cqFlush_marks {s : State} (h : Half) (hr : s.dev.rst = .running) (hu : s.dev.unpaired) : ∃ t, exec (.cqFlush h) s = .next t
    ∧ (t.dev.cqOf h.val).mark = (s.dev.cqOf h.val).nextNo ∧ (t.dev.cqOf h.val).wp = (s.dev.cqOf h.val).wp
    ∧ (t.dev.cqOf h.val).rp = (s.dev.cqOf h.val).rp ∧ t.dev.recs = s.dev.recs ∧ t.dev.fld (Pg.cq h.val) F.CQ_STAT_FLUSH_PEND = 1 := by
  obtain ⟨d, hd, hx⟩ := exec_cqFlush h hr hu
  have hcq : (d.cqFlush h.val).settle.cqOf h.val = { s.dev.cqOf h.val with mark := (s.dev.cqOf h.val).nextNo } := by
    rw [Dev.cqOf_settle, Dev.cqOf_cqFlush, Dev.cqOf_of_cq (Dev.cq_of_rest hd)]
  exact ⟨_, hx, congrArg CqSt.mark hcq, (congrArg CqSt.wp hcq).trans rfl, (congrArg CqSt.rp hcq).trans rfl,
    (Dev.recs_settle _).trans ((d.recs_cqFlush h.val).trans (Dev.recs_of_rest hd)),
    (Dev.fld_settle _ _ _ (pairStat_ne_cq h)).trans (d.fld_cqFlush h.val)⟩

/-- Settles O39: each clause is a lemma about the one command it speaks of, from the records' numbers to the tap ring's reads. -/
theorem captureQueue : Obligations.CaptureQueue := by
  intro h s hr
  refine ⟨?_, ?_, ?_, ?_, ?_, ?_, ?_, ?_, tapPop_peeks h hr, fun e rest => tapPop_takes hr, tapPop_waits hr, ?_, cqFlush_marks h hr⟩
  · intro x rest hl hx hcap hen hshed hcom heng hbyp hroom hlog
    exact queueAllocation_queues hr hl hx ⟨hcap, hen, hshed, hcom, heng, hbyp, hroom, hlog⟩
  · intro x rest r n hl hx hrec hkeep hshed hgone hcom hu hmore hroom
    exact queueUnit_grows hr hl hx hrec ⟨hkeep, hshed, hgone, hcom, hu⟩ hmore hroom
  · exact fun f upto x hw hc hz hx hp hroom => gapMarkerClose_closes hr hw hc hz hx hp hroom
  · exact fun ecc rid r rest x hw hrecs hmarks hc hx hp hroom => captureWrite_writes ecc hr hw ⟨hrecs, hmarks⟩ hc hx hp hroom
  · exact fun ecc hw hrecs hmarks => captureWrite_idle ecc hr hw ⟨hrecs, hmarks⟩
  · exact fun rid r hrec hst hh _ hd => captureWriteAck_releases hr hrec hst hh hd
  · exact fun rid err hrec => captureWriteAck_unknown err hr hrec
  · exact fun hp hm => flushDone_ends hr hp hm
  · exact fun r rest ht hq hc hd => tapPopTimeout_zeroes hr ht hq hc hd

end Sys2Proof.Machine
end

section
/-! PROOFS. What an issue on an engine or core leaves of the block: all of it but the counts of its page, the agenda, the placement unit's
count, a single step, and the issue's own notes in the target's state (R156, R163, R164, R422). -/

namespace Sys2Proof.Machine

/-! The block beyond what an issue notes. -/

/-- The block but for its registers and what a register access leaves behind, its agenda, its targets' state and debug, its placement units. -/
def Dev.still (d : Dev) : Dev := { d.rest with agenda := [], engs := [], plus := [], dbgs := [] }

theorem Dev.still_of_rest {d d' : Dev} (h : d'.rest = d.rest) : d'.still = d.still :=
  congrArg (fun x : Dev => ({ x with agenda := [], engs := [], plus := [], dbgs := [] } : Dev)) h

/-- A target's state but for what an issue and a wait note in it. -/
def EngSt.unissued (g : EngSt) : EngSt :=
  { g with held := none, heldCk := 0, issueCk := 0, first := none, nextCk := 0, mFree := 0, fence := none, taskCk := 0 }

/-- What of a target's debug a single step leaves. -/
def Dev.dbgStill (d : Dev) (t : Nat) : SMap Word × Option (Nat × Nat × Nat × Nat) := ((d.dbgOf t).regs, (d.dbgOf t).stop)

/-- A step within an issue, or the whole of one. -/
structure Dev.afterIssue (d d' : Dev) (t : Nat) : Prop where
  tweaks : d.tweaks d' t
  still : d'.still = d.still
  eng : (d'.engOf t).unissued = (d.engOf t).unissued
  dbg : d'.dbgStill t = d.dbgStill t
  regs : ∀ f : Fld, f.off ≠ 0x130 → f.off ≠ 0x134 → d'.fld (Pg.newt t) f = d.fld (Pg.newt t) f

theorem Dev.afterIssue_refl (d : Dev) (t : Nat) : d.afterIssue d t := ⟨d.tweaks_refl t, rfl, rfl, rfl, fun _ _ _ => rfl⟩

theorem Dev.afterIssue.trans {d d' d'' : Dev} {t : Nat} (h : d.afterIssue d' t) (h' : d'.afterIssue d'' t) : d.afterIssue d'' t :=
  ⟨h.tweaks.trans h'.tweaks, h'.still.trans h.still, h'.eng.trans h.eng, h'.dbg.trans h.dbg,
    fun f h1 h2 => (h'.regs f h1 h2).trans (h.regs f h1 h2)⟩

theorem Dev.afterIssue_ite {d a b : Dev} {t : Nat} {c : Prop} [Decidable c] (ha : d.afterIssue a t) (hb : d.afterIssue b t) :
    d.afterIssue (if c then a else b) t := by split <;> assumption

/-- A change of the target's state that only notes an issue. -/
theorem Dev.afterIssue_setEng (d : Dev) (t : Nat) (x : EngSt) (h : x.unissued = (d.engOf t).unissued) : d.afterIssue (d.setEng t x) t where
  tweaks := d.tweaks_setEng t x ⟨(congrArg EngSt.n h :), (congrArg EngSt.p h :), (congrArg EngSt.pc h :), (congrArg EngSt.ready h :)⟩
  still := rfl
  eng := by rw [Dev.engOf_setEng, h]
  dbg := rfl
  regs := fun _ _ _ => rfl

/-- A change of the agenda or of a placement unit. -/
theorem Dev.afterIssue_of_eproj {d d' : Dev} (t : Nat) (h : d'.eproj = d.eproj) (hs : d'.still = d.still) (hr : d'.regs = d.regs) :
    d.afterIssue d' t where
  tweaks := Dev.tweaks_of_eproj t h
  still := hs
  eng := by rw [Dev.engOf_of_eproj h]
  dbg := by unfold Dev.dbgStill Dev.dbgOf; rw [Dev.dbgs_of_eproj h]
  regs := fun f _ _ => by unfold Dev.fld; rw [Dev.reg_congr hr]

theorem Dev.afterIssue_sched (d : Dev) (t k : Nat) (i : Instr) : d.afterIssue (d.sched k i) t :=
  Dev.afterIssue_of_eproj t (d.eproj_sched k i) rfl rfl

/-- A count of CKs in which the target issues or waits. -/
theorem Dev.afterIssue_bumpBy (d : Dev) (t k : Nat) {f : Fld} (hf : f.off = 0x130 ∨ f.off = 0x134) :
    d.afterIssue (d.bumpBy (Pg.newt t) f k) t where
  tweaks := Dev.tweaks_of_eproj t (d.eproj_bumpBy _ _ _)
  still := Dev.still_of_rest (d.rest_bumpBy _ _ _)
  eng := by rw [Dev.engOf_of_eproj (d.eproj_bumpBy _ _ _)]
  dbg := by unfold Dev.dbgStill Dev.dbgOf; rw [Dev.dbgs_of_eproj (d.eproj_bumpBy _ _ _)]
  regs := fun g h1 h2 => d.fld_bumpBy_ne f g k (raddr_ne (by omega))

theorem Dev.afterIssue_settleStall (d : Dev) (t : Nat) : d.afterIssue (d.settleStall t) t := by
  unfold Dev.settleStall Dev.countStall
  exact (Dev.afterIssue_setEng d t { d.engOf t with heldCk := 0, held := none } rfl).trans
    (Dev.afterIssue_ite (Dev.afterIssue_bumpBy _ t _ (.inr rfl)) (Dev.afterIssue_refl _ t))

theorem Dev.afterIssue_setPlu (d : Dev) (t h : Nat) (x : PluSt) : d.afterIssue (d.setPlu h x) t :=
  Dev.afterIssue_of_eproj t (d.eproj_setPlu h x) rfl rfl

theorem Dev.afterIssue_countIssue (d : Dev) (t : Nat) : d.afterIssue (d.countIssue t) t := by
  unfold Dev.countIssue Dev.bump
  exact Dev.afterIssue_ite ((d.afterIssue_bumpBy t 1 (.inl rfl)).trans (Dev.afterIssue_setPlu _ t _ _)) (d.afterIssue_refl t)

theorem Dev.afterIssue_startBudget (d : Dev) (t : Nat) (b : Bool) : d.afterIssue (d.startBudget t b) t := by
  unfold Dev.startBudget
  exact Dev.afterIssue_ite (d.afterIssue_sched t _ _) (d.afterIssue_refl t)

theorem Dev.dbgOf_setDbg (d : Dev) (t : Nat) (x : DbgSt) : (d.setDbg t x).dbgOf t = x := sget_sset_same _ _ _ _

theorem Dev.afterIssue_noteStep (d : Dev) (t : Nat) : d.afterIssue (d.noteStep t) t := by
  unfold Dev.noteStep
  refine Dev.afterIssue_ite ⟨d.tweaks_setDbg t t _, rfl, rfl, ?_, fun _ _ _ => rfl⟩ (d.afterIssue_refl t)
  unfold Dev.dbgStill
  rw [Dev.dbgOf_setDbg]

theorem Dev.afterIssue_noteIssue (d : Dev) (t : Nat) (x : Isu) : d.afterIssue (d.noteIssue t x) t :=
  (d.afterIssue_countIssue t).trans
    ((Dev.afterIssue_setEng (d.countIssue t) t (((d.countIssue t).engOf t).issued (d.countIssue t).ck x) rfl).trans
      ((Dev.afterIssue_startBudget _ t _).trans (Dev.afterIssue_noteStep _ t)))

/-- The target's state has been stored: at most one entry of the engines' map is the target's. -/
def Dev.engStored (d : Dev) (t : Nat) : Prop := ∃ m x, d.engs = sset {} m t x

theorem Dev.engStored_setEng (d : Dev) (t : Nat) (x : EngSt) : (d.setEng t x).engStored t := ⟨_, _, rfl⟩

theorem Dev.engStored_of_engs {d d' : Dev} {t : Nat} (h : d'.engs = d.engs) (hd : d.engStored t) : d'.engStored t := by
  unfold Dev.engStored at hd ⊢
  rw [h]
  exact hd

theorem Dev.engs_startBudget (d : Dev) (t : Nat) (b : Bool) : (d.startBudget t b).engs = d.engs := by
  unfold Dev.startBudget
  dsimp only
  split <;> rfl

theorem Dev.engs_noteStep (d : Dev) (t : Nat) : (d.noteStep t).engs = d.engs := by
  unfold Dev.noteStep
  split <;> rfl

theorem Dev.engStored_noteIssue (d : Dev) (t : Nat) (x : Isu) : (d.noteIssue t x).engStored t := by
  exact Dev.engStored_of_engs ((Dev.engs_noteStep _ t).trans (Dev.engs_startBudget _ t _)) (Dev.engStored_setEng (d.countIssue t) t _)

/-- Where nothing keeps it from issuing, an instruction has its effect on a block that differs in what an issue notes. -/
theorem Dev.issue_afterIssue (d : Dev) (e : Fin 196) (i : Instr) (x : Isu) (f : Dev → Dev) (h : d.canIssue e x) :
    ∃ d', d.issue e i x f = f d' ∧ d.afterIssue d' e ∧ d'.engStored e :=
  ⟨_, d.issue_go e i x f h, (Dev.afterIssue_of_eproj _ (d.eproj_dropFetch _) rfl rfl).trans
    ((Dev.afterIssue_settleStall _ _).trans (Dev.afterIssue_noteIssue _ _ x.trim)), Dev.engStored_noteIssue _ _ _⟩

/-- The same for an instruction run as a command. -/
theorem run_issue (e : Fin 196) (i : Instr) (x : Isu) (f : Dev → Dev) {s : State} (hr : s.dev.rst = .running) (hc : s.dev.canIssue e x) :
    ∃ d', s.run i (fun d => d.issue e i x f) = s.becomes (f d') ∧ s.dev.afterIssue d' e ∧ d'.engStored e := by
  obtain ⟨d', hd, ha, hs⟩ := (s.dev.begin i).issue_afterIssue e i x f (Dev.canIssue_begin i hc)
  refine ⟨d', ?_, (Dev.afterIssue_of_eproj _ (Dev.eproj_begin _ _) rfl rfl).trans ha, hs⟩
  rw [State.run_running _ _ _ hr, hd]

/-! What follows for the parts of the block that instructions read. -/

section
variable {d d' : Dev} {t : Nat} (h : d.afterIssue d' t)
include h

theorem Dev.afterIssue.ea (a : Fin 32) (imm : BitVec 16) : (d'.engOf t).ea a imm = (d.engOf t).ea a imm := by
  unfold EngSt.ea; rw [h.tweaks.like.reg]
theorem Dev.afterIssue.bytes (x n : Nat) : d'.bytes x n = d.bytes x n := by
  unfold Dev.bytes Dev.byte; rw [h.tweaks.keeps.mem]
theorem Dev.afterIssue.ranges (hr : (d.dbgOf t).regs = []) : (d'.dbgOf t).regs = [] := (congrArg Prod.fst h.dbg).trans hr
theorem Dev.afterIssue.window : (d'.engOf t).window = (d.engOf t).window := (congrArg EngSt.window h.eng :)
theorem Dev.afterIssue.hasTask : d'.hasTask t = d.hasTask t := (congrArg (fun g : EngSt => g.task.isSome) h.eng :)
theorem Dev.afterIssue.taskSlot : d'.taskSlot t = d.taskSlot t := by
  have hs : (d'.engOf t).slots = (d.engOf t).slots := (congrArg EngSt.slots h.eng :)
  unfold Dev.taskSlot
  rw [hs, h.regs F.NEWT_CUR_FLOW_FLOW (by decide) (by decide)]
theorem Dev.afterIssue.nextNoc : d'.nextNoc = d.nextNoc := (congrArg Dev.nextNoc h.still :)
theorem Dev.afterIssue.prPasses (k addr size bitNo : Nat) : d'.prPasses k addr size bitNo = d.prPasses k addr size bitNo := by
  have hg : d'.gks = d.gks := (congrArg Dev.gks h.still :)
  have hcsr : d'.csr = d.csr := by funext k n; unfold Dev.csr Dev.gkOf; rw [hg]
  unfold Dev.prPasses Dev.gkPriv Dev.csrBit
  rw [hcsr]
theorem Dev.afterIssue.engState : d'.engState t = d.engState t := h.regs F.NEWT_STAT_STATE (by decide) (by decide)

end

end Sys2Proof.Machine
end

section
/-! PROOFS. The loads (R137 to R140, R147, R170): where an address lies, what a word read leaves of the block, the register that takes the value
at once and the one that awaits it, and O18. -/

namespace Sys2Proof.Machine

/-! The Newt map (Table 7-1). -/

theorem newtTgt_scratch {a : Nat} (h : a < 0x2_0000) : newtTgt a = .scratch a := if_pos h

theorem newtTgt_ctx {a : Nat} (hlo : 0x2_0000 ≤ a) (hhi : a < 0x2_0100) : newtTgt a = .ctx (a - 0x2_0000) := by
  unfold newtTgt
  rw [if_neg (by omega), if_pos hhi]

theorem newtTgt_window {a : Nat} (hlo : 0x3_0000 ≤ a) (hhi : a < 0x4_0000) : newtTgt a = .window (a - 0x3_0000) := by
  unfold newtTgt
  rw [if_neg (by omega), if_neg (by omega), if_pos ⟨hlo, hhi⟩]

theorem newtTgt_bay {a : Nat} (hlo : 0x10_0000 ≤ a) (hhi : a < 0x50_0000) : newtTgt a = .bay (a - 0x10_0000) := by
  unfold newtTgt
  rw [if_neg (by omega), if_neg (by omega), if_neg (by omega), if_pos ⟨hlo, hhi⟩]

theorem newtTgt_remote {a : Nat} (h : 2 ^ 32 ≤ a) : newtTgt a = .remote := by
  unfold newtTgt
  rw [if_neg (by omega), if_neg (by omega), if_neg (by omega), if_neg (by omega), if_pos h]

/-! A word read from an on-chip memory, whatever its check bits show (R150, R276, R277). -/

theorem Dev.eproj_err (d : Dev) (pg idx code : Nat) : (d.err pg idx code).eproj = d.eproj := Dev.eproj_of_rest (d.rest_err _ _ _)

theorem Dev.eproj_ocm (d : Dev) (m k : Nat) : (d.ocm m k).eproj = d.eproj := by
  unfold Dev.ocm
  split_ifs
  · rw [Dev.eproj_sched, Dev.eproj_bump]
  · rw [Dev.eproj_sched, Dev.eproj_bump]
  · rw [Dev.eproj_err, Dev.eproj_bump]
  · rfl

/-- A step of a load that leaves the target's registers, what other targets hold, and what debug keeps of the target. -/
structure Dev.loadStill (d d' : Dev) (t : Nat) : Prop where
  tweaks : d.tweaks d' t
  dbgs : d'.dbgs = d.dbgs

theorem Dev.loadStill.trans {d d' d'' : Dev} {t : Nat} (h : d.loadStill d' t) (h' : d'.loadStill d'' t) : d.loadStill d'' t :=
  ⟨h.tweaks.trans h'.tweaks, h'.dbgs.trans h.dbgs⟩

theorem Dev.loadStill_of_eproj {d d' : Dev} (t : Nat) (h : d'.eproj = d.eproj) : d.loadStill d' t :=
  ⟨Dev.tweaks_of_eproj t h, Dev.dbgs_of_eproj h⟩

theorem Dev.loadStill_setEng (d : Dev) (t : Nat) (x : EngSt) (h : (d.engOf t).like x) : d.loadStill (d.setEng t x) t :=
  ⟨d.tweaks_setEng t x h, rfl⟩

theorem Dev.loadStill_ite {d a b : Dev} {t : Nat} {c : Prop} [Decidable c] (ha : d.loadStill a t) (hb : d.loadStill b t) :
    d.loadStill (if c then a else b) t := by split <;> assumption

theorem Dev.eproj_gkRaise (d : Dev) (k s : Nat) : (d.gkRaise k s).eproj = d.eproj := by
  unfold Dev.gkRaise
  dsimp only
  split
  · rfl
  · exact d.eproj_setGk _ _

theorem Dev.setPoison_loadStill (d : Dev) (t : Nat) :
    d.loadStill ((d.setEng t { d.engOf t with poison := true }).setFld (Pg.newt t) F.NEWT_STAT_POISON 1) t :=
  (d.loadStill_setEng t { d.engOf t with poison := true } ⟨rfl, rfl, rfl, rfl⟩).trans (Dev.loadStill_of_eproj t (Dev.eproj_setFld _ _ _ _))

theorem Dev.poisonLoad_loadStill (d : Dev) (t : Nat) : d.loadStill (d.poisonLoad t) t := by
  have hcount : d.loadStill ((d.bump (Pg.newt t) F.NEWT_POISON_CNT).err (Pg.newt t) 5 0x0706) t :=
    Dev.loadStill_of_eproj t ((Dev.eproj_err _ _ _ _).trans (d.eproj_bump _ _))
  unfold Dev.poisonLoad
  split
  · exact hcount.trans (Dev.loadStill_ite (Dev.setPoison_loadStill _ t) ⟨Dev.tweaks_refl _ t, rfl⟩)
  · exact Dev.loadStill_of_eproj t ((Dev.eproj_err _ _ _ _).trans (d.eproj_gkRaise _ _))

theorem Dev.ocmLoad_loadStill (d : Dev) (t cls ecc : Nat) : d.loadStill (d.ocmLoad t cls ecc) t := by
  have hocm : d.loadStill (d.ocm cls ecc) t := Dev.loadStill_of_eproj t (d.eproj_ocm _ _)
  exact Dev.loadStill_ite (hocm.trans (Dev.poisonLoad_loadStill _ t)) hocm

theorem Dev.touchBank_loadStill (d : Dev) (e off : Nat) : d.loadStill (d.touchBank e off) e :=
  d.loadStill_setEng e { d.engOf e with banks := sput (d.engOf e).banks (off / 0x8000) (d.ck + 1) } ⟨rfl, rfl, rfl, rfl⟩

theorem Dev.bytes_of_mem {d d' : Dev} (h : d'.mem = d.mem) (a n : Nat) : d'.bytes a n = d.bytes a n := by
  unfold Dev.bytes Dev.byte
  rw [h]

/-! The value is there: the register takes it (R164, R170). -/

/-- No debug range is set: the end of an access looks at none (R428). -/
theorem Dev.dataRanges_none {d : Dev} {t : Nat} (h : (d.dbgOf t).regs = []) (addr size : Nat) (load store : Bool) :
    d.dataRanges t addr size load store = d := if_pos h

theorem Dev.loadStill.ranges {d d' : Dev} {t : Nat} (h : d.loadStill d' t) (hr : (d.dbgOf t).regs = []) : (d'.dbgOf t).regs = [] := by
  unfold Dev.dbgOf at hr ⊢
  rw [h.dbgs, hr]

/-- The target once a load's value has come: the register, and the CK from which it may be read. -/
theorem Dev.engOf_result_load (d : Dev) (t : Nat) (r : Fin 32) (v : Word64) (k : Nat) :
    ∃ was, (r ≠ 0 → was = 0)
      ∧ (d.result t r v k true).engOf t = { (d.engOf t).setReg r v with ready := sput (d.engOf t).ready r.val (max was (d.ck + k), true) } := by
  refine ⟨_, fun h => ?_, (congrArg (fun x : Dev => x.engOf t) (if_neg (by simp))).trans (Dev.engOf_setEng _ _ _)⟩
  exact if_neg h

theorem Dev.result_load_keeps (d : Dev) (t : Nat) (r : Fin 32) (v : Word64) (k : Nat) : d.engKeeps (d.result t r v k true) t := by
  unfold Dev.result
  dsimp only
  rw [if_neg (by simp)]
  exact d.engKeeps_setEng t _

theorem Dev.dbgs_result_load (d : Dev) (t : Nat) (r : Fin 32) (v : Word64) (k : Nat) : (d.result t r v k true).dbgs = d.dbgs := by
  unfold Dev.result
  dsimp only
  rw [if_neg (by simp)]
  rfl

theorem EngSt.p_setReg (g : EngSt) (r : Fin 32) (v : Word64) : (g.setReg r v).p = g.p := by unfold EngSt.setReg; split <;> rfl
theorem EngSt.pc_setReg (g : EngSt) (r : Fin 32) (v : Word64) : (g.setReg r v).pc = g.pc := by unfold EngSt.setReg; split <;> rfl

/-- The end of a load whose value has come. -/
def Dev.loadDone (d : Dev) (t : Nat) (dst : Fin 32) (v : Word64) (k addr size : Nat) : Dev :=
  ((d.result t dst v k true).dataRanges t addr size true false).next t

theorem Dev.engWrote_loadDone {d d' : Dev} {e : Fin 196} (dst : Fin 32) (v : Word64) (k addr size : Nat) (h : d.tweaks d' e)
    (hr : (d'.dbgOf e).regs = []) : d.engWrote (d'.loadDone e dst v k addr size).settle e dst v k := by
  obtain ⟨was, hwas, heng⟩ := d'.engOf_result_load e dst v k
  have hranges : ((d'.result e dst v k true).dbgOf e).regs = [] := by unfold Dev.dbgOf; rw [Dev.dbgs_result_load]; exact hr
  unfold Dev.loadDone
  rw [Dev.dataRanges_none hranges]
  have hend := (d'.result e dst v k true).engOf_next_settle e
  rw [heng] at hend
  have hreg (q : Fin 32) : (((d'.result e dst v k true).next e).settle.engOf e).reg q = ((d'.engOf e).setReg dst v).reg q := by
    rw [hend]; rfl
  refine ⟨?_, fun h0 => ?_, fun q hq => ?_, ?_, ?_, h.keeps.trans ((d'.result_load_keeps e dst v k).trans (Dev.next_settle_keeps _ e))⟩
  · rw [hreg, EngSt.reg_setReg]
  · rw [hend]
    exact (sfind_sput_same _ _ _).trans (by rw [hwas h0, Nat.zero_max, h.ck])
  · rw [hreg, EngSt.reg_setReg_ne _ _ hq, h.like.reg]
  · rw [hend]
    exact (EngSt.p_setReg _ _ _).trans h.like.p
  · rw [hend]
    exact congrArg (fun n => pcOf e (n + 1)) ((EngSt.pc_setReg _ _ _).trans h.like.pc)

/-! The value is not there: the register awaits it. -/

/-- The end of a load whose request has gone out. -/
def Dev.loadSent (d : Dev) (t addr size : Nat) : Dev := (d.dataRanges t addr size true false).next t

theorem Dev.await_keeps (d : Dev) (t : Nat) (r : Fin 32) : d.engKeeps (d.await t r) t := by
  unfold Dev.await
  dsimp only
  split <;> exact d.engKeeps_setEng t _

theorem Dev.engOf_await (d : Dev) (t : Nat) (r : Fin 32) : ((d.await t r).engOf t).n = (d.engOf t).n ∧ ((d.await t r).engOf t).p = (d.engOf t).p
    ∧ ((d.await t r).engOf t).pc = (d.engOf t).pc ∧ (r ≠ 0 → sfind ((d.await t r).engOf t).ready r.val = some (0, true)) := by
  unfold Dev.await
  dsimp only
  split
  · next h => rw [Dev.engOf_setEng]; exact ⟨rfl, rfl, rfl, fun hr => absurd h hr⟩
  · rw [Dev.engOf_setEng]; exact ⟨rfl, rfl, rfl, fun _ => sfind_sput_same _ _ _⟩

theorem Dev.dbgs_await (d : Dev) (t : Nat) (r : Fin 32) : (d.await t r).dbgs = d.dbgs := by
  unfold Dev.await
  dsimp only
  split <;> rfl

theorem Dev.ranges_await {d d' : Dev} {t : Nat} (h : (d.dbgOf t).regs = []) (r : Fin 32) (hs : d'.eproj = (d.await t r).eproj) :
    (d'.dbgOf t).regs = [] := by
  unfold Dev.dbgOf
  rw [Dev.dbgs_of_eproj hs, Dev.dbgs_await]
  exact h

/-- What a load leaves of its target once its request has gone out: the register awaits, the rest stays. -/
structure Dev.loadAwaits (d d' : Dev) (e : Fin 196) (dst : Fin 32) : Prop where
  ready : dst ≠ 0 → sfind (d'.engOf e).ready dst = some (0, true)
  steps : d.engSteps d' e
  keeps : d.engKeeps d' e

theorem Dev.loadAwaits_loadSent {d d' d'' : Dev} {e : Fin 196} (dst : Fin 32) (addr size : Nat) (h : d.tweaks d' e)
    (hr : (d'.dbgOf e).regs = []) (hs : d''.eproj = (d'.await e dst).eproj) : d.loadAwaits (d''.loadSent e addr size).settle e dst := by
  obtain ⟨hn, hp, hpc, hready⟩ := d'.engOf_await e dst
  unfold Dev.loadSent
  rw [Dev.dataRanges_none (Dev.ranges_await hr dst hs)]
  have hend := d''.engOf_next_settle e
  rw [Dev.engOf_of_eproj hs] at hend
  refine ⟨fun h0 => ?_, ⟨?_, ?_, ?_⟩, h.keeps.trans ((d'.await_keeps e dst).trans ((Dev.engKeeps_of_eproj e hs).trans (Dev.next_settle_keeps _ e)))⟩
  · rw [hend]; exact hready h0
  · rw [hend]; exact hn.trans h.like.n
  · rw [hend]; exact hp.trans h.like.p
  · rw [hend]; exact congrArg (fun n => pcOf e (n + 1)) (hpc.trans h.like.pc)

/-! Requests that have gone out stay where they are at the end of the instruction. -/

/-- The requests in the banks and on the network. -/
def Dev.requests (d : Dev) : SMap (List BayReq) × SMap NocReq × Nat := (d.bayQ, d.nocReqs, d.nextNoc)

theorem Dev.requests_of_rest {d d' : Dev} (h : d'.rest = d.rest) : d'.requests = d.requests := (congrArg Dev.requests h :)

theorem Dev.requests_next_settle (d : Dev) {t : Nat} (ht : t < 192) : (d.next t).settle.requests = d.requests := by
  refine (Dev.requests_of_rest (Dev.rest_settle _)).trans ?_
  unfold Dev.next
  rcases Dev.fetch_newt (d.goTo t ((d.engOf t).pc + 1)) ht with hf | ⟨k, i, hf⟩
  · rw [hf]; rfl
  · rw [hf]; rfl

theorem Dev.nextNoc_await (d : Dev) (t : Nat) (r : Fin 32) : (d.await t r).nextNoc = d.nextNoc := by
  unfold Dev.await
  dsimp only
  split <;> rfl

/-- The end of the access leaves the requests where they are. -/
theorem Dev.requests_loadSent {d : Dev} {t : Nat} (ht : t < 192) (hr : (d.dbgOf t).regs = []) (addr size : Nat) :
    (d.loadSent t addr size).settle.requests = d.requests := by
  unfold Dev.loadSent
  rw [Dev.dataRanges_none hr]
  exact d.requests_next_settle ht

theorem Dev.eproj_bayAsk (d : Dev) (b : Nat) (r : BayReq) : (d.bayAsk b r).eproj = d.eproj := by
  unfold Dev.bayAsk Dev.schedOnce
  dsimp only
  split <;> rfl

theorem bayKey_word (b off : Nat) : bayKey b (off / 8 * 8) = bayKey b off := by unfold bayKey; omega

/-- A request that has joined its bank. -/
theorem Dev.mem_bayAsk (d : Dev) (b : Nat) (r : BayReq) : r ∈ sget [] (d.bayAsk b r).bayQ (bayKey b r.word) := by
  unfold Dev.bayAsk Dev.schedOnce
  dsimp only
  split <;> simp

theorem Dev.sfind_nocSend (d : Dev) (q : NocReq) : sfind (d.nocSend q).nocReqs d.nextNoc = some q := sfind_sput_same _ _ _

/-! A load, area by area. -/

/-- The request of a load to a bank of the engine's bay memory (R140). -/
def bayLoad (e addr size : Nat) (dst : Fin 32) (sx : Bool) (now : Nat) : BayReq :=
  { who := e % 16, word := (addr - 0x10_0000) / 8 * 8, load := some (dst.val, (addr - 0x10_0000) % 8, size, sx), due := now + 1 }

/-- The request of a load of a NoC address (R170, R491). -/
def remoteLoad (e : Fin 196) (addr size : Nat) (dst : Fin 32) (sx : Bool) : NocReq :=
  { who := .load e dst.val size sx, src := Ep.newt e, op := .read, addr := addr, len := size, cls := 2 }

section
variable {d : Dev} {e addr size : Nat} (dst : Fin 32) (sx : Bool) {ecc : Nat} (ha : addr % size = 0)
include ha

theorem Dev.newtLoad_scratch (h : addr < 0x2_0000) : ∃ d', d.newtLoad e dst size sx false ecc addr
      = d'.loadDone e dst (loadVal size sx (d'.bytes (Na.sp e + addr) size)) 2 addr size ∧ d.loadStill d' e := by
  refine ⟨(d.touchBank e addr).ocmLoad e Oc.scratch ecc, ?_, (d.touchBank_loadStill e addr).trans (Dev.ocmLoad_loadStill _ e _ _)⟩
  unfold Dev.newtLoad
  rw [if_neg (not_not.mpr ha), newtTgt_scratch h]
  simp only [Bool.false_eq_true, if_false]
  rfl

theorem Dev.newtLoad_ctx (hlo : 0x2_0000 ≤ addr) (hhi : addr < 0x2_0100) (ht : d.hasTask e) : ∃ d', d.newtLoad e dst size sx false ecc addr
      = d'.loadDone e dst (loadVal size sx ((List.range size).map (fun j => sget 0#8 d.ctx (d.taskSlot e + (addr - 0x2_0000) + j)))) 2 addr size
      ∧ d.loadStill d' e := by
  refine ⟨if d.ctxBad.contains ((d.taskSlot e + (addr - 0x2_0000)) / 8) then d.poisonLoad e else d.ocmLoad e Oc.scratch ecc, ?_,
    Dev.loadStill_ite (d.poisonLoad_loadStill e) (d.ocmLoad_loadStill e Oc.scratch ecc)⟩
  unfold Dev.newtLoad
  rw [if_neg (not_not.mpr ha), newtTgt_ctx hlo hhi]
  exact if_neg (by simp [ht])

theorem Dev.newtLoad_window (hlo : 0x3_0000 ≤ addr) (hhi : addr < 0x4_0000) (ht : d.hasTask e) : ∃ d', d.newtLoad e dst size sx false ecc addr
      = d'.loadDone e dst (loadVal size sx ((List.range size).map (fun j => byteAt (d.engOf e).window (addr - 0x3_0000 + j)))) 4 addr size
      ∧ d.loadStill d' e := by
  refine ⟨_, ?_, d.ocmLoad_loadStill e Oc.queue ecc⟩
  unfold Dev.newtLoad
  rw [if_neg (not_not.mpr ha), newtTgt_window hlo hhi]
  exact if_neg (by simp [ht])

theorem Dev.newtLoad_bay (hlo : 0x10_0000 ≤ addr) (hhi : addr < 0x50_0000) : d.newtLoad e dst size sx false ecc addr
      = ((d.await e dst).bayAsk (e / 16) (bayLoad e addr size dst sx d.ck)).loadSent e addr size := by
  unfold Dev.newtLoad
  rw [if_neg (not_not.mpr ha), newtTgt_bay hlo hhi]
  rfl

theorem Dev.newtLoad_remote {e : Fin 196} (h : 2 ^ 32 ≤ addr) : d.newtLoad e dst size sx false ecc addr
      = ((d.await e dst).nocSend (remoteLoad e addr size dst sx)).loadSent e addr size := by
  unfold Dev.newtLoad
  rw [if_neg (not_not.mpr ha), newtTgt_remote h]
  rfl

theorem Dev.gkLoad_sram (i : Instr) {k x : Nat} (h : gkTgt k addr = .sram x) (hp : d.prPasses k addr size 1) :
    ∃ d', d.gkLoad k i dst size sx false ecc addr = d'.loadDone (192 + k) dst (loadVal size sx (d.bytes x size)) 4 addr size
      ∧ d.loadStill d' (192 + k) := by
  refine ⟨d.ocmLoad (192 + k) Oc.gecko ecc, ?_, d.ocmLoad_loadStill (192 + k) Oc.gecko ecc⟩
  unfold Dev.gkLoad
  dsimp only
  rw [if_neg (not_not.mpr ha), h, if_neg (by simp), if_neg (not_not.mpr hp)]
  simp only [Bool.false_eq_true, if_false]
  rfl

end

/-- The request of a load to bay memory stands in its bank, and the register awaits it (R140). -/
theorem Dev.bayLoad_awaits {d d' : Dev} {e : Fin 196} (dst : Fin 32) (sx : Bool) (addr size : Nat) (h : d.afterIssue d' e)
    (hr : (d'.dbgOf e).regs = []) (he : e.val < 192) :
    ∃ d'', ((d'.await e dst).bayAsk (e / 16) (bayLoad e addr size dst sx d'.ck)).loadSent e addr size = d''
      ∧ bayLoad e addr size dst sx d'.ck ∈ sget [] d''.settle.bayQ (bayKey (e / 16) (addr - 0x10_0000)) ∧ d.loadAwaits d''.settle e dst := by
  have hask := Dev.eproj_bayAsk (d'.await e dst) (e / 16) (bayLoad e addr size dst sx d'.ck)
  have hq := congrArg Prod.fst (Dev.requests_loadSent he (Dev.ranges_await hr dst hask) addr size)
  refine ⟨_, rfl, ?_, Dev.loadAwaits_loadSent dst addr size h.tweaks hr hask⟩
  rw [← bayKey_word]
  exact (congrArg (fun m => bayLoad e addr size dst sx d'.ck ∈ sget [] m _) hq).mpr (Dev.mem_bayAsk (d'.await e dst) (e / 16) _)

/-- The request of a load of a NoC address is on its way, and the register awaits it (R170). -/
theorem Dev.remoteLoad_awaits {d d' : Dev} {e : Fin 196} (dst : Fin 32) (sx : Bool) (addr size : Nat) (h : d.afterIssue d' e)
    (hr : (d'.dbgOf e).regs = []) (he : e.val < 192) :
    ∃ d'', ((d'.await e dst).nocSend (remoteLoad e addr size dst sx)).loadSent e addr size = d''
      ∧ sfind d''.settle.nocReqs d.nextNoc = some (remoteLoad e addr size dst sx) ∧ d.loadAwaits d''.settle e dst := by
  have hask := Dev.eproj_nocSend (d'.await e dst) (remoteLoad e addr size dst sx)
  have hq := congrArg (fun x => x.2.1) (Dev.requests_loadSent he (Dev.ranges_await hr dst hask) addr size)
  refine ⟨_, rfl, ?_, Dev.loadAwaits_loadSent dst addr size h.tweaks hr hask⟩
  rw [← h.nextNoc, ← d'.nextNoc_await e dst]
  exact (congrArg (fun m => sfind m _) hq).trans (Dev.sfind_nocSend (d'.await e dst) _)

/-- An instruction that is a load of `size` bytes does what its area has it do (Tables 7-1, 8-2). -/
theorem loadStep_of {i : Instr} {e : Fin 196} {dst a : Fin 32} {imm : BitVec 16} {size : Nat} {sx : Bool} {ecc : Nat}
    (hx : ∀ s, exec i s = s.run i (fun d => d.load e i dst a imm size sx false ecc)) : loadStep i e dst a imm size sx := by
  intro s hr hc hal
  obtain ⟨d', hrun, h, -⟩ := run_issue e i _ (fun d => let ea := (d.engOf e.val).ea a imm
    if e.val < 192 then d.newtLoad e.val dst size sx false ecc ea else d.gkLoad (e.val - 192) i dst size sx false ecc ea) hr hc
  have hranges := h.ranges hc.noRange
  have hnewt (he : e.val < 192) : exec i s = s.becomes (d'.newtLoad e dst size sx false ecc ((s.dev.engOf e).ea a imm)) := by
    rw [hx]
    refine hrun.trans (congrArg s.becomes ?_)
    dsimp only
    rw [if_pos he, h.ea]
  refine ⟨fun he hlt => ?_, fun he hlo hhi ht => ?_, fun he hlo hhi ht => ?_, fun he hlo hhi => ?_, fun he hhi => ?_, fun x he hg hp => ?_⟩
  · obtain ⟨d1, hd1, hs⟩ := d'.newtLoad_scratch (e := e) dst sx hal hlt
    refine ⟨_, (hnewt he).trans (congrArg s.becomes hd1), ?_⟩
    rw [Dev.bytes_of_mem (hs.tweaks.keeps.mem.trans h.tweaks.keeps.mem)]
    exact Dev.engWrote_loadDone dst _ 2 _ size (h.tweaks.trans hs.tweaks) (hs.ranges hranges)
  · obtain ⟨d1, hd1, hs⟩ := d'.newtLoad_ctx (e := e) dst sx hal hlo hhi (by rw [h.hasTask]; exact ht)
    refine ⟨_, (hnewt he).trans (congrArg s.becomes hd1), ?_⟩
    rw [h.tweaks.keeps.ctx, h.taskSlot]
    exact Dev.engWrote_loadDone dst _ 2 _ size (h.tweaks.trans hs.tweaks) (hs.ranges hranges)
  · obtain ⟨d1, hd1, hs⟩ := d'.newtLoad_window (e := e) dst sx hal hlo hhi (by rw [h.hasTask]; exact ht)
    refine ⟨_, (hnewt he).trans (congrArg s.becomes hd1), ?_⟩
    rw [h.window]
    exact Dev.engWrote_loadDone dst _ 4 _ size (h.tweaks.trans hs.tweaks) (hs.ranges hranges)
  · have hgo := (hnewt he).trans (congrArg s.becomes (d'.newtLoad_bay dst sx hal hlo hhi))
    obtain ⟨d'', hd, hq, hw⟩ := Dev.bayLoad_awaits dst sx ((s.dev.engOf e).ea a imm) size h hranges he
    exact ⟨_, hgo.trans (congrArg s.becomes hd), ⟨bayLoad e _ size dst sx d'.ck, hq, rfl, rfl, rfl, congrArg (· + 1) h.tweaks.ck⟩, hw.ready,
      hw.steps, hw.keeps⟩
  · have hgo := (hnewt he).trans (congrArg s.becomes (d'.newtLoad_remote dst sx hal hhi))
    obtain ⟨d'', hd, hq, hw⟩ := Dev.remoteLoad_awaits dst sx ((s.dev.engOf e).ea a imm) size h hranges he
    exact ⟨_, hgo.trans (congrArg s.becomes hd), ⟨remoteLoad e _ size dst sx, hq, rfl, rfl, rfl, rfl⟩, hw.ready, hw.steps, hw.keeps⟩
  · have hgk : exec i s = s.becomes (d'.gkLoad (e - 192) i dst size sx false ecc ((s.dev.engOf e).ea a imm)) := by
      rw [hx]
      refine hrun.trans (congrArg s.becomes ?_)
      dsimp only
      rw [if_neg (Nat.not_lt.mpr he), h.ea]
    obtain ⟨d1, hd1, hs⟩ := d'.gkLoad_sram dst sx hal i hg (by rw [h.prPasses]; exact hp)
    rw [Nat.add_sub_cancel' he, h.bytes] at hd1
    rw [Nat.add_sub_cancel' he] at hs
    exact ⟨_, hgk.trans (congrArg s.becomes hd1), Dev.engWrote_loadDone dst _ 4 _ size (h.tweaks.trans hs.tweaks) (hs.ranges hranges)⟩

/-- Settles O18: every load is `Dev.load` of its size and extension, and each area completes it in its own way. -/
theorem loadsReadTheirBytes : Obligations.LoadsReadTheirBytes := by
  intro e dst a imm ecc
  exact ⟨loadStep_of (fun _ => rfl), loadStep_of (fun _ => rfl), loadStep_of (fun _ => rfl), loadStep_of (fun _ => rfl),
    loadStep_of (fun _ => rfl), loadStep_of (fun _ => rfl), loadStep_of (fun _ => rfl)⟩

end Sys2Proof.Machine
end

section
/-! PROOFS. The stores (R137 to R140, R170, R171): the bytes they write, what clearing reservations leaves of the target, the requests of
stores that reach farther, and O19. -/

namespace Sys2Proof.Machine

/-! Bytes. -/

theorem leBytes_length (k x : Nat) : (leBytes k x).length = k := by simp [leBytes]

theorem leBytes_getElem {k x j : Nat} (h : j < (leBytes k x).length) : (leBytes k x)[j] = BitVec.ofNat 8 (x / 2 ^ (8 * j)) := by
  simp [leBytes, byteOf]

/-- Memory that has taken the low bytes of a value. -/
theorem Dev.memWrote_of_setBytes {d d' : Dev} {x size : Nat} {v : Word64} (h : d'.mem = (d.setBytes x (leBytes size v.toNat)).mem) :
    d.memWrote d' x size v := by
  have hbyte (b : Nat) : d'.byte b = (d.setBytes x (leBytes size v.toNat)).byte b := by unfold Dev.byte; rw [h]
  refine ⟨fun j hj => ?_, fun b hb => ?_⟩
  · have hlen : x ≤ x + j ∧ x + j - x < (leBytes size v.toNat).length := by rw [leBytes_length]; omega
    rw [hbyte, Dev.byte_setBytes, dif_pos hlen, leBytes_getElem, Nat.add_sub_cancel_left]
  · rw [hbyte, Dev.byte_setBytes, dif_neg (by rw [leBytes_length]; omega)]

/-- A context memory that takes bytes from an address up. -/
def putCtx (m : SMap Byte) (a : Nat) : List Byte → SMap Byte
  | [] => m
  | b :: r => putCtx (sset 0#8 m a b) (a + 1) r

theorem sget_putCtx (m : SMap Byte) (a b : Nat) (l : List Byte) :
    sget 0#8 (putCtx m a l) b = if h : a ≤ b ∧ b - a < l.length then l[b - a]'h.2 else sget 0#8 m b := by
  induction l generalizing m a with
  | nil => simp [putCtx]
  | cons x r ih =>
    rw [putCtx, ih]
    rcases Nat.lt_trichotomy b a with hb | rfl | hb
    · rw [dif_neg (by omega), dif_neg (by omega), sget_sset_ne _ _ _ _ (by omega)]
    · simp
    · obtain ⟨k, rfl⟩ := Nat.exists_eq_add_of_lt hb
      have hk : a + k + 1 - a = k + 1 := by omega
      have hk' : a + k + 1 - (a + 1) = k := by omega
      simp only [hk, hk', List.length_cons, List.getElem_cons_succ]
      by_cases hlt : k < r.length
      · rw [dif_pos ⟨by omega, hlt⟩, dif_pos ⟨by omega, by omega⟩]
      · rw [dif_neg (fun h => hlt h.2), dif_neg (fun h => hlt (by omega)), sget_sset_ne _ _ _ _ (by omega)]

/-- The model's loop over the bytes of a store to the context. -/
theorem Dev.foldl_ctx (d : Dev) (a k : Nat) (l : List Byte) :
    (l.zipIdx k).foldl (fun (d : Dev) p => { d with ctx := sset 0#8 d.ctx (a + p.2) p.1 }) d = { d with ctx := putCtx d.ctx (a + k) l } := by
  induction l generalizing d k with
  | nil => rfl
  | cons x r ih =>
    rw [List.zipIdx_cons, List.foldl_cons, ih]
    rfl

theorem Dev.foldl_ctx_zipIdx (d : Dev) (a : Nat) (l : List Byte) :
    l.zipIdx.foldl (fun (d : Dev) p => { d with ctx := sset 0#8 d.ctx (a + p.2) p.1 }) d = { d with ctx := putCtx d.ctx a l } :=
  d.foldl_ctx a 0 l

/-! Reservations on written bytes are cleared (R172). -/

/-- A target's state once bytes have been written: a reservation on them is gone. -/
def EngSt.unreserved (g : EngSt) (a n : Nat) : EngSt :=
  match g.resv with
  | some x => if meets x a n then { g with resv := none } else g
  | none => g

/-- A map whose values have all gone through a function and which lists no default, read where an entry has been put. -/
theorem sget_map_sins {α : Type} [DecidableEq α] (z : α) (F : α → α) {a : Nat} (v : α) (m : SMap α) (h : a ∉ m.map Prod.fst) :
    sget z (((sins a v m).map (fun p => (p.1, F p.2))).filter (fun p => decide (p.2 ≠ z))) a = F v := by
  have hskip (b : Nat) (w : α) (r : SMap α) (hb : b ≠ a) :
      sget z (((b, w) :: r).filter (fun p => decide (p.2 ≠ z))) a = sget z (r.filter (fun p => decide (p.2 ≠ z))) a := by
    rw [List.filter_cons]
    split
    · exact if_neg hb
    · rfl
  have hhead (r : SMap α) (hr : ∀ p ∈ r, p.1 ≠ a) : sget z (((a, F v) :: r).filter (fun p => decide (p.2 ≠ z))) a = F v := by
    rw [List.filter_cons]
    split
    · exact if_pos rfl
    · next hz =>
      replace hz : F v = z := by simpa using hz
      rw [sget_of_not_mem _ _ _ (fun p hp => hr p (List.mem_filter.mp hp).1)]
      exact hz.symm
  induction m with
  | nil => exact hhead [] (by simp)
  | cons p r ih =>
    obtain ⟨b, w⟩ := p
    simp only [List.map_cons, List.mem_cons, not_or] at h
    unfold sins
    split
    · refine hhead _ (fun q hq => ?_)
      simp only [List.map_cons, List.mem_cons, List.mem_map] at hq
      rcases hq with rfl | ⟨y, hy, rfl⟩
      · exact Ne.symm h.1
      · exact fun hya => h.2 (List.mem_map.mpr ⟨y, hy, hya⟩)
    · rw [List.map_cons, hskip _ _ _ (Ne.symm h.1), ih h.2]

theorem Dev.engs_written (d : Dev) (a n : Nat) :
    (d.written a n).engs = (d.engs.map (fun p => (p.1, p.2.unreserved a n))).filter (fun p => decide (p.2 ≠ {})) := by
  refine congrArg (List.filter _) (List.map_congr_left (fun p _ => ?_))
  unfold EngSt.unreserved
  cases p.2.resv with
  | none => rfl
  | some x =>
    dsimp only
    split_ifs
    · rfl
    · rfl

/-- The target after a write: at most its reservation is gone. -/
theorem Dev.engOf_written {d : Dev} {t : Nat} (h : d.engStored t) (a n : Nat) : (d.written a n).engOf t = (d.engOf t).unreserved a n := by
  obtain ⟨m, x, hm⟩ := h
  have hnot : t ∉ (serase m t).map Prod.fst := by rw [mem_keys_serase]; simp
  have hx : d.engOf t = x := by unfold Dev.engOf; rw [hm, sget_sset_same]
  rw [hx]
  unfold Dev.engOf
  rw [Dev.engs_written, hm]
  unfold sset
  split
  · next hz =>
    subst hz
    refine sget_of_not_mem _ _ _ (fun p hp hpt => hnot ?_)
    obtain ⟨q, hq, rfl⟩ := List.mem_map.mp (List.mem_filter.mp hp).1
    exact List.mem_map.mpr ⟨q, hq, hpt⟩
  · exact sget_map_sins {} (fun g => g.unreserved a n) x _ hnot

theorem EngSt.unreserved_like (g : EngSt) (a n : Nat) : g.like (g.unreserved a n) := by
  unfold EngSt.unreserved
  split
  · split_ifs
    · exact ⟨rfl, rfl, rfl, rfl⟩
    · exact g.like_refl
  · exact g.like_refl

/-! The end of a store. -/

/-- A store has taken effect, or its request has gone out. -/
def Dev.storeDone (d : Dev) (t addr size : Nat) : Dev := (d.dataRanges t addr size false true).next t

/-- What the end of a store makes of the block as the store left it. -/
structure Dev.storeEnds (d d' : Dev) (t : Nat) : Prop where
  eng : d'.engOf t = { d.engOf t with pc := pcOf t ((d.engOf t).pc + 1) }
  keeps : d.engKeeps d' t
  requests : t < 192 → d'.requests = d.requests

theorem Dev.storeEnds_storeDone {d : Dev} {t : Nat} (hr : (d.dbgOf t).regs = []) (addr size : Nat) :
    d.storeEnds (d.storeDone t addr size).settle t := by
  unfold Dev.storeDone
  rw [Dev.dataRanges_none hr]
  exact ⟨d.engOf_next_settle t, d.next_settle_keeps t, d.requests_next_settle⟩

theorem Dev.storeEnds.steps {d d' d'' : Dev} {e : Fin 196} (h : (d.engOf e).like (d'.engOf e)) (hs : d'.storeEnds d'' e) : d.engSteps d'' e :=
  ⟨by rw [hs.eng]; exact h.n, by rw [hs.eng]; exact h.p, by rw [hs.eng]; exact congrArg (fun n => pcOf e (n + 1)) h.pc⟩

/-! A store, area by area. -/

/-- The request of a store to a bank of the engine's bay memory (R140). -/
def bayStore (e addr size : Nat) (v : Word64) (now : Nat) : BayReq :=
  { who := e % 16, word := (addr - 0x10_0000) / 8 * 8, wr := some (inWord ((addr - 0x10_0000) % 8) (leBytes size v.toNat)), due := now + 1 }

/-- The request of a store to a NoC address (R171, R491). -/
def remoteStore (e addr size : Nat) (v : Word64) : NocReq :=
  { who := .store e, src := Ep.newt e, op := .write, addr := addr, len := size, wr := (leBytes size v.toNat).map some, cls := 2 }

/-- The block once a store to memory has taken effect: the bytes stand there, reservations on them are gone. -/
def Dev.stored (d : Dev) (x size : Nat) (v : Word64) : Dev := (d.setBytes x (leBytes size v.toNat)).written x size

/-- A whole doubleword stored makes the one it replaces good again (R150). -/
def Dev.ctxMended (d : Dev) (x size : Nat) : Dev := if size = 8 then { d with ctxBad := d.ctxBad.filter (fun w => w ≠ x / 8) } else d

/-- The block once a store to the context slot has taken effect. -/
def Dev.ctxStored (d : Dev) (x size : Nat) (v : Word64) : Dev :=
  ({ d with ctx := putCtx d.ctx x (leBytes size v.toNat) } : Dev).ctxMended x size

section
variable {d : Dev} {e addr size : Nat} (v : Word64) (ha : addr % size = 0)
include ha

theorem Dev.newtStore_scratch (h : addr < 0x2_0000) :
    d.newtStore e size v addr = (((d.touchBank e addr).stored (Na.sp e + addr) size v).ackNext e).storeDone e addr size := by
  unfold Dev.newtStore
  rw [if_neg (not_not.mpr ha), newtTgt_scratch h]
  rfl

theorem Dev.newtStore_ctx (hlo : 0x2_0000 ≤ addr) (hhi : addr < 0x2_0100) (ht : d.hasTask e) :
    d.newtStore e size v addr = ((d.ctxStored (d.taskSlot e + (addr - 0x2_0000)) size v).ackNext e).storeDone e addr size := by
  unfold Dev.newtStore
  rw [if_neg (not_not.mpr ha), newtTgt_ctx hlo hhi]
  exact (if_neg (by simp [ht])).trans
    (congrArg (fun y : Dev => ((y.ctxMended (d.taskSlot e + (addr - 0x2_0000)) size).ackNext e).storeDone e addr size)
      (d.foldl_ctx_zipIdx (d.taskSlot e + (addr - 0x2_0000)) (leBytes size v.toNat)))

theorem Dev.newtStore_bay (hlo : 0x10_0000 ≤ addr) (hhi : addr < 0x50_0000) : d.newtStore e size v addr
      = ((d.setEng e { d.engOf e with bayStores := (d.engOf e).bayStores + 1 }).bayAsk (e / 16) (bayStore e addr size v d.ck)).storeDone e addr size := by
  unfold Dev.newtStore
  rw [if_neg (not_not.mpr ha), newtTgt_bay hlo hhi]
  rfl

theorem Dev.newtStore_remote (h : 2 ^ 32 ≤ addr) : d.newtStore e size v addr
      = ((d.nocSend (remoteStore e addr size v)).setEng e { d.engOf e with stores := (d.engOf e).stores ++ [d.nextNoc] }).storeDone e addr size := by
  unfold Dev.newtStore
  rw [if_neg (not_not.mpr ha), newtTgt_remote h]
  rfl

theorem Dev.gkStore_sram (i : Instr) {k x : Nat} (h : gkTgt k addr = .sram x) (hp : d.prPasses k addr size 2) :
    d.gkStore k i size v addr = (d.stored x size v).storeDone (192 + k) addr size := by
  unfold Dev.gkStore
  dsimp only
  rw [if_neg (not_not.mpr ha), h]
  simp only [Bool.false_eq_true, if_false]
  rw [if_neg (not_not.mpr hp)]
  rfl

end

/-! What a store leaves. -/

theorem Dev.setBytes_frame (d : Dev) (x : Nat) (l : List Byte) :
    (d.setBytes x l).engs = d.engs ∧ (d.setBytes x l).ctx = d.ctx ∧ (d.setBytes x l).imem = d.imem ∧ (d.setBytes x l).recs = d.recs
      ∧ (d.setBytes x l).dbgs = d.dbgs := by
  induction l generalizing d x with
  | nil => exact ⟨rfl, rfl, rfl, rfl, rfl⟩
  | cons b r ih => exact ih (d.setByte x b) (x + 1)

/-- A store has reached memory: what it wrote, and what of its target and of the other memories stays. -/
structure Dev.memTook (d d' : Dev) (e : Fin 196) (x size : Nat) (v : Word64) : Prop where
  wrote : d.memWrote d' x size v
  like : (d.engOf e).like (d'.engOf e)
  ctx : d'.ctx = d.ctx
  imem : d'.imem = d.imem
  recs : d'.recs = d.recs
  ranges : (d'.dbgOf e).regs = []

theorem Dev.memTook_stored {d d' : Dev} {e : Fin 196} (x size : Nat) (v : Word64) (h : d.tweaks d' e) (hst : d'.engStored e)
    (hr : (d'.dbgOf e).regs = []) : d.memTook (d'.stored x size v) e x size v := by
  obtain ⟨hengs, hctx, himem, hrecs, hdbgs⟩ := d'.setBytes_frame x (leBytes size v.toNat)
  have hw := Dev.memWrote_of_setBytes (d := d') (d' := d'.stored x size v) (x := x) (size := size) (v := v) rfl
  have hbyte (b : Nat) : d'.byte b = d.byte b := by unfold Dev.byte; rw [h.keeps.mem]
  refine ⟨⟨hw.bytes, fun b hb => (hw.others b hb).trans (hbyte b)⟩, ?_, hctx.trans h.keeps.ctx, himem.trans h.keeps.imem,
    hrecs.trans h.keeps.recs, ?_⟩
  · have heng : (d'.setBytes x (leBytes size v.toNat)).engOf e = d'.engOf e := by unfold Dev.engOf; rw [hengs]
    unfold Dev.stored
    rw [Dev.engOf_written (Dev.engStored_of_engs hengs hst), heng]
    exact h.like.trans (EngSt.unreserved_like _ _ _)
  · exact (congrArg (fun m => (sget ({} : DbgSt) m e.val).regs) hdbgs).trans hr

theorem Dev.memTook.ack {d d' : Dev} {e : Fin 196} {x size : Nat} {v : Word64} (h : d.memTook d' e x size v) :
    d.memTook (d'.ackNext e) e x size v :=
  ⟨⟨h.wrote.bytes, h.wrote.others⟩, by unfold Dev.ackNext; rw [Dev.engOf_setEng]; exact h.like.trans ⟨rfl, rfl, rfl, rfl⟩, h.ctx, h.imem,
    h.recs, h.ranges⟩

theorem Dev.memTook.ends {d d' : Dev} {e : Fin 196} {x size : Nat} {v : Word64} (h : d.memTook d' e x size v) (addr : Nat) :
    d.memWrote (d'.storeDone e addr size).settle x size v ∧ d.engSteps (d'.storeDone e addr size).settle e
      ∧ (d'.storeDone e addr size).settle.ctx = d.ctx ∧ (d'.storeDone e addr size).settle.imem = d.imem
      ∧ (d'.storeDone e addr size).settle.recs = d.recs := by
  have hs := Dev.storeEnds_storeDone h.ranges addr size
  have hbyte (b : Nat) : (d'.storeDone e addr size).settle.byte b = d'.byte b := by unfold Dev.byte; rw [hs.keeps.mem]
  exact ⟨⟨fun j hj => (hbyte _).trans (h.wrote.bytes j hj), fun b hb => (hbyte b).trans (h.wrote.others b hb)⟩, hs.steps h.like,
    hs.keeps.ctx.trans h.ctx, hs.keeps.imem.trans h.imem, hs.keeps.recs.trans h.recs⟩

/-- What a store to the context slot changes and leaves. -/
structure Dev.ctxFrame (d d' : Dev) (x size : Nat) (v : Word64) : Prop where
  ctx : d'.ctx = putCtx d.ctx x (leBytes size v.toNat)
  engs : d'.engs = d.engs
  mem : d'.mem = d.mem
  imem : d'.imem = d.imem
  recs : d'.recs = d.recs
  dbgs : d'.dbgs = d.dbgs

theorem Dev.ctxStored_frame (d : Dev) (x size : Nat) (v : Word64) : d.ctxFrame (d.ctxStored x size v) x size v := by
  unfold Dev.ctxStored Dev.ctxMended
  split
  · exact ⟨rfl, rfl, rfl, rfl, rfl, rfl⟩
  · exact ⟨rfl, rfl, rfl, rfl, rfl, rfl⟩

theorem Dev.sget_ctxStored (d : Dev) (x size b : Nat) (v : Word64) : sget 0#8 (d.ctxStored x size v).ctx b
    = if x ≤ b ∧ b < x + size then BitVec.ofNat 8 (v.toNat / 2 ^ (8 * (b - x))) else sget 0#8 d.ctx b := by
  rw [(d.ctxStored_frame x size v).ctx, sget_putCtx]
  by_cases hb : x ≤ b ∧ b < x + size
  · have hlen : x ≤ b ∧ b - x < (leBytes size v.toNat).length := by rw [leBytes_length]; omega
    rw [dif_pos hlen, if_pos hb, leBytes_getElem]
  · rw [dif_neg (by rw [leBytes_length]; omega), if_neg hb]

/-- A store has reached the context slot. -/
structure Dev.ctxTook (d d' : Dev) (e : Fin 196) (x size : Nat) (v : Word64) : Prop where
  wrote : ∀ b, sget 0#8 d'.ctx b = if x ≤ b ∧ b < x + size then BitVec.ofNat 8 (v.toNat / 2 ^ (8 * (b - x))) else sget 0#8 d.ctx b
  steps : d.engSteps d' e
  mem : d'.mem = d.mem
  imem : d'.imem = d.imem
  recs : d'.recs = d.recs

theorem Dev.ctxTook_ctxStored {d d' : Dev} {e : Fin 196} (x size addr : Nat) (v : Word64) (h : d.tweaks d' e)
    (hr : (d'.dbgOf e).regs = []) : d.ctxTook (((d'.ctxStored x size v).ackNext e).storeDone e addr size).settle e x size v := by
  have hf := d'.ctxStored_frame x size v
  have hbyte (b : Nat) := d'.sget_ctxStored x size b v
  have heng : (d'.ctxStored x size v).engOf e = d'.engOf e := by unfold Dev.engOf; rw [hf.engs]
  have hdbg : ((d'.ctxStored x size v).dbgOf e).regs = [] := by unfold Dev.dbgOf; rw [hf.dbgs]; exact hr
  generalize d'.ctxStored x size v = d1 at *
  have hs := Dev.storeEnds_storeDone (d := d1.ackNext e) hdbg addr size
  refine ⟨fun b => ?_, hs.steps (h.like.trans ?_), hs.keeps.mem.trans (hf.mem.trans h.keeps.mem),
    hs.keeps.imem.trans (hf.imem.trans h.keeps.imem), hs.keeps.recs.trans (hf.recs.trans h.keeps.recs)⟩
  · rw [hs.keeps.ctx, ← h.keeps.ctx]
    exact hbyte b
  · unfold Dev.ackNext
    rw [Dev.engOf_setEng, heng]
    exact ⟨rfl, rfl, rfl, rfl⟩

/-- The requests of stores that reach farther: the count of the bank's, and the list of the network's (R171). -/
theorem Dev.bayStored_ends {d d' : Dev} {e : Fin 196} (r : BayReq) (addr size : Nat) (h : d.afterIssue d' e) (hr : (d'.dbgOf e).regs = [])
    (he : e.val < 192) : ∃ d'', ((d'.setEng e { d'.engOf e with bayStores := (d'.engOf e).bayStores + 1 }).bayAsk (e / 16) r).storeDone e addr size
        = d'' ∧ r ∈ sget [] d''.settle.bayQ (bayKey (e / 16) r.word) ∧ (d''.settle.engOf e).bayStores = (d.engOf e).bayStores + 1
      ∧ d.engSteps d''.settle e ∧ d.engKeeps d''.settle e := by
  refine ⟨_, rfl, ?_⟩
  have hn : (d'.engOf e).bayStores = (d.engOf e).bayStores := (congrArg EngSt.bayStores h.eng :)
  generalize hd1 : d'.setEng e { d'.engOf e with bayStores := (d'.engOf e).bayStores + 1 } = d1
  have ht : d'.tweaks d1 e := by rw [← hd1]; exact d'.tweaks_setEng e _ ⟨rfl, rfl, rfl, rfl⟩
  have hcnt : (d1.engOf e).bayStores = (d.engOf e).bayStores + 1 := by rw [← hd1, Dev.engOf_setEng, ← hn]
  have hdbgs : (d1.dbgOf e).regs = [] := by rw [← hd1]; exact hr
  have hask := Dev.eproj_bayAsk d1 (e / 16) r
  have hranges : ((d1.bayAsk (e / 16) r).dbgOf e).regs = [] := by unfold Dev.dbgOf; rw [Dev.dbgs_of_eproj hask]; exact hdbgs
  have hs := Dev.storeEnds_storeDone hranges addr size
  have ha := h.tweaks.trans (ht.trans (Dev.tweaks_of_eproj e hask))
  refine ⟨?_, ?_, hs.steps ha.like, ha.keeps.trans hs.keeps⟩
  · rw [show (((d1.bayAsk (e / 16) r).storeDone e addr size).settle).bayQ = (d1.bayAsk (e / 16) r).bayQ from congrArg Prod.fst (hs.requests he)]
    exact d1.mem_bayAsk _ r
  · rw [hs.eng, Dev.engOf_of_eproj hask]
    exact hcnt

theorem Dev.remoteStored_ends {d d' : Dev} {e : Fin 196} (q : NocReq) (addr size : Nat) (h : d.afterIssue d' e) (hr : (d'.dbgOf e).regs = [])
    (he : e.val < 192) : ∃ d'', ((d'.nocSend q).setEng e { d'.engOf e with stores := (d'.engOf e).stores ++ [d'.nextNoc] }).storeDone e addr size
        = d'' ∧ sfind d''.settle.nocReqs d.nextNoc = some q ∧ (d''.settle.engOf e).stores = (d.engOf e).stores ++ [d.nextNoc]
      ∧ d.engSteps d''.settle e ∧ d.engKeeps d''.settle e := by
  refine ⟨_, rfl, ?_⟩
  have hn : (d'.engOf e).stores = (d.engOf e).stores := (congrArg EngSt.stores h.eng :)
  generalize hd1 : (d'.nocSend q).setEng e { d'.engOf e with stores := (d'.engOf e).stores ++ [d'.nextNoc] } = d1
  have ha : d.tweaks d1 e := by
    rw [← hd1]
    exact h.tweaks.trans ((Dev.tweaks_of_eproj e (Dev.eproj_nocSend _ _)).trans (Dev.tweaks_setEng _ e _ ⟨rfl, rfl, rfl, rfl⟩))
  have hlist : (d1.engOf e).stores = (d.engOf e).stores ++ [d.nextNoc] := by rw [← hd1, Dev.engOf_setEng, ← hn, ← h.nextNoc]
  have hreq : sfind d1.nocReqs d.nextNoc = some q := by rw [← hd1, ← h.nextNoc]; exact d'.sfind_nocSend q
  have hs := Dev.storeEnds_storeDone (d := d1) (by rw [← hd1]; exact hr) addr size
  refine ⟨?_, ?_, hs.steps ha.like, ha.keeps.trans hs.keeps⟩
  · rw [show ((d1.storeDone e addr size).settle).nocReqs = d1.nocReqs from congrArg (fun y => y.2.1) (hs.requests he)]
    exact hreq
  · rw [hs.eng]
    exact hlist

/-- An instruction that is a store of `size` bytes does what its area has it do (Table 7-1). -/
theorem storeStep_of {i : Instr} {e : Fin 196} {src a : Fin 32} {imm : BitVec 16} {size : Nat}
    (hx : ∀ s, exec i s = s.run i (fun d => d.store e i src a imm size)) : storeStep i e src a imm size := by
  intro s hr hc hal
  obtain ⟨d', hrun, h, hst⟩ := run_issue e i _ (fun d => let g := d.engOf e.val
    let ea := g.ea a imm
    if e.val < 192 then d.newtStore e.val size (g.reg src) ea else d.gkStore (e.val - 192) i size (g.reg src) ea) hr hc
  have hranges := h.ranges hc.noRange
  have hnewt (he : e.val < 192) : exec i s = s.becomes (d'.newtStore e size ((s.dev.engOf e).reg src) ((s.dev.engOf e).ea a imm)) := by
    rw [hx]
    refine hrun.trans (congrArg s.becomes ?_)
    dsimp only
    rw [if_pos he, h.ea, h.tweaks.like.reg]
  refine ⟨fun he hlt => ?_, fun he hlo hhi ht => ?_, fun he hlo hhi => ?_, fun he hhi => ?_, fun x he hg hp => ?_⟩
  · have hbank := d'.touchBank_loadStill e ((s.dev.engOf e).ea a imm)
    have hm := (Dev.memTook_stored (Na.sp e + (s.dev.engOf e).ea a imm) size ((s.dev.engOf e).reg src) (h.tweaks.trans hbank.tweaks)
      (Dev.engStored_setEng d' e _) (hbank.ranges hranges)).ack
    exact ⟨_, (hnewt he).trans (congrArg s.becomes (d'.newtStore_scratch _ hal hlt)), hm.ends _⟩
  · have hgo := (hnewt he).trans (congrArg s.becomes (d'.newtStore_ctx ((s.dev.engOf e).reg src) hal hlo hhi (by rw [h.hasTask]; exact ht)))
    rw [h.taskSlot] at hgo
    have hk := Dev.ctxTook_ctxStored (s.dev.taskSlot e + ((s.dev.engOf e).ea a imm - 0x2_0000)) size ((s.dev.engOf e).ea a imm)
      ((s.dev.engOf e).reg src) h.tweaks hranges
    exact ⟨_, hgo, hk.wrote, hk.steps, hk.mem, hk.imem, hk.recs⟩
  · have hgo := (hnewt he).trans (congrArg s.becomes (d'.newtStore_bay ((s.dev.engOf e).reg src) hal hlo hhi))
    obtain ⟨d'', hd, hq, hcnt, hsteps, hkeeps⟩ := Dev.bayStored_ends (bayStore e ((s.dev.engOf e).ea a imm) size ((s.dev.engOf e).reg src) d'.ck)
      ((s.dev.engOf e).ea a imm) size h hranges he
    refine ⟨_, hgo.trans (congrArg s.becomes hd), ⟨bayStore e _ size _ d'.ck, ?_, rfl, rfl, rfl, congrArg (· + 1) h.tweaks.ck⟩, hcnt,
      hsteps, hkeeps⟩
    rw [← bayKey_word]
    exact hq
  · have hgo := (hnewt he).trans (congrArg s.becomes (d'.newtStore_remote ((s.dev.engOf e).reg src) hal hhi))
    obtain ⟨d'', hd, hq, hlist, hsteps, hkeeps⟩ := Dev.remoteStored_ends (remoteStore e ((s.dev.engOf e).ea a imm) size ((s.dev.engOf e).reg src))
      ((s.dev.engOf e).ea a imm) size h hranges he
    exact ⟨_, hgo.trans (congrArg s.becomes hd), ⟨_, hq, rfl, rfl, rfl, rfl⟩, hlist, hsteps, hkeeps⟩
  · have hgk : exec i s = s.becomes (d'.gkStore (e - 192) i size ((s.dev.engOf e).reg src) ((s.dev.engOf e).ea a imm)) := by
      rw [hx]
      refine hrun.trans (congrArg s.becomes ?_)
      dsimp only
      rw [if_neg (Nat.not_lt.mpr he), h.ea, h.tweaks.like.reg]
    have hgo := hgk.trans (congrArg s.becomes (d'.gkStore_sram _ hal i hg (by rw [h.prPasses]; exact hp)))
    rw [Nat.add_sub_cancel' he] at hgo
    exact ⟨_, hgo, (Dev.memTook_stored x size _ h.tweaks hst hranges).ends _⟩

/-- Settles O19: every store is `Dev.store` of its size, and each area completes it in its own way. -/
theorem storesWriteTheirBytes : Obligations.StoresWriteTheirBytes := by
  intro e src a imm
  exact ⟨storeStep_of (fun _ => rfl), storeStep_of (fun _ => rfl), storeStep_of (fun _ => rfl), storeStep_of (fun _ => rfl)⟩

end Sys2Proof.Machine
end

section
/-! PROOFS. The page and the state of a Newt engine (Table 7-2): what a fetch, a change of state and the end of a command leave of the
engine's page. -/

namespace Sys2Proof.Machine

theorem pairStat_ne_newt (e : Fin 192) {off : Nat} (h : off < 4096) : raddr Pg.pair F.PAIR_STAT_STATE.off ≠ raddr (Pg.newt e) off :=
  raddr_newt_ne 0 e (by decide) h (by decide)

theorem Dev.reg_settle_newt (d : Dev) (e : Fin 192) {off : Nat} (h : off < 4096) : d.settle.reg (Pg.newt e) off = d.reg (Pg.newt e) off :=
  d.reg_settle _ _ (pairStat_ne_newt e h)

theorem Dev.fld_settle_newt (d : Dev) (e : Fin 192) (f : Fld) (h : f.off < 4096) : d.settle.fld (Pg.newt e) f = d.fld (Pg.newt e) f :=
  d.fld_settle _ _ (pairStat_ne_newt e h)

theorem Dev.engState_settle (d : Dev) (e : Fin 192) : d.settle.engState e = d.engState e := d.fld_settle_newt e _ (by decide)

/-! A fetch changes the agenda alone. -/

theorem Dev.regs_fetch (d : Dev) {t : Nat} (h : t < 192) : (d.fetch t).regs = d.regs := by
  rcases d.fetch_newt h with hf | ⟨k, i, hf⟩
  · rw [hf]
  · rw [hf]; rfl

theorem Dev.fld_fetch (d : Dev) {t : Nat} (h : t < 192) (pg : Nat) (f : Fld) : (d.fetch t).fld pg f = d.fld pg f := by
  unfold Dev.fld
  rw [Dev.reg_congr (d.regs_fetch h)]

/-! An engine's state changes. -/

theorem Dev.eproj_schedOnce (d : Dev) (k : Nat) (i : Instr) : (d.schedOnce k i).eproj = d.eproj := by
  unfold Dev.schedOnce
  split <;> rfl

theorem Dev.setEngState_newt (d : Dev) (e : Fin 192) (st : Nat) :
    d.setEngState e st = d.setFld (Pg.newt e) F.NEWT_STAT_STATE st
      ∨ d.setEngState e st = (d.setFld (Pg.newt e) F.NEWT_STAT_STATE st).schedOnce 0 (.engineStoppedMove (engOp e)) := by
  unfold Dev.setEngState
  rw [if_neg (by omega)]
  exact (ite_eq_or_eq _ _ _).symm

theorem Dev.eproj_setEngState (d : Dev) (e : Fin 192) (st : Nat) : (d.setEngState e st).eproj = d.eproj := by
  rcases d.setEngState_newt e st with h | h
  · rw [h]; rfl
  · rw [h, Dev.eproj_schedOnce]; rfl

theorem Dev.engOf_setEngState (d : Dev) (e : Fin 192) (st u : Nat) : (d.setEngState e st).engOf u = d.engOf u :=
  Dev.engOf_of_eproj (d.eproj_setEngState e st) u

theorem Dev.fld_setEngState (d : Dev) (e : Fin 192) (st pg : Nat) (f : Fld) :
    (d.setEngState e st).fld pg f = (d.setFld (Pg.newt e) F.NEWT_STAT_STATE st).fld pg f := by
  rcases d.setEngState_newt e st with h | h
  · rw [h]
  · rw [h]
    unfold Dev.fld
    rw [Dev.reg_congr (Dev.regs_schedOnce _ _ _)]

theorem Dev.engState_setEngState (d : Dev) (e : Fin 192) {st : Nat} (h : st < 8) : (d.setEngState e st).engState e = st := by
  unfold Dev.engState
  rw [Dev.fld_setEngState, Dev.fld_setFld _ _ _ _ (by decide)]
  exact Nat.mod_eq_of_lt h

/-- Another register of the page. -/
theorem Dev.fld_setEngState_off (d : Dev) (e : Fin 192) (st : Nat) (f : Fld) (h : f.off ≠ 0xC) :
    (d.setEngState e st).fld (Pg.newt e) f = d.fld (Pg.newt e) f := by
  rw [Dev.fld_setEngState]
  exact Dev.fld_setFld_ne _ _ _ _ (raddr_ne (Ne.symm h))

/-- Another field of STAT. -/
theorem Dev.fld_setEngState_stat (d : Dev) (e : Fin 192) (st : Nat) (f : Fld) (h : f.off = 0xC) (hlo : 3 ≤ f.lo) :
    (d.setEngState e st).fld (Pg.newt e) f = d.fld (Pg.newt e) f := by
  rw [Dev.fld_setEngState]
  exact Dev.fld_setFld_disj _ _ _ _ _ h.symm (by decide) (.inr hlo)

end Sys2Proof.Machine
end

section
/-! PROOFS. POP and RECORD_OFFER (R145, R146, R207): the record an engine takes, what it shows of the task that begins, and O22. -/

namespace Sys2Proof.Machine

/-! A task begins. -/

theorem headerBytes_length (r : Rec) (payload : List Byte) (flags : Nat) : (headerBytes r payload flags).length = 32 := by
  simp [headerBytes, leBytes]

/-- The record's header and payload as its window shows them. -/
def Dev.taskWin (d : Dev) (rid : Nat) : List Byte :=
  headerBytes (d.recOf rid) (d.recOf rid).body.1 (d.recOf rid).body.2 ++ (d.recOf rid).body.1

/-- A doubleword of the window. -/
def Dev.taskWord (d : Dev) (rid i : Nat) : Word64 := BitVec.ofNat 64 (leNat (((d.taskWin rid).drop (8 * i)).take 8))

theorem Dev.taskWord_header (d : Dev) (rid : Nat) {i : Nat} (h : i < 4) : d.taskWord rid i
    = BitVec.ofNat 64 (leNat (((headerBytes (d.recOf rid) (d.recOf rid).body.1 (d.recOf rid).body.2).drop (8 * i)).take 8)) := by
  unfold Dev.taskWord Dev.taskWin
  have hlen := headerBytes_length (d.recOf rid) (d.recOf rid).body.1 (d.recOf rid).body.2
  rw [List.drop_append_of_le_length (by omega), List.take_append_of_le_length (by rw [List.length_drop]; omega)]

/-- The registers with the header's words in n1 to n4. -/
def Dev.taskRegs (d : Dev) (e rid : Nat) : EngSt :=
  ((((d.engOf e).setReg 1 (d.taskWord rid 0)).setReg 2 (d.taskWord rid 1)).setReg 3 (d.taskWord rid 2)).setReg 4 (d.taskWord rid 3)

theorem Dev.reg_taskRegs (d : Dev) (e rid : Nat) (i : Fin 4) : (d.taskRegs e rid).reg ⟨i.val + 1, by omega⟩ = d.taskWord rid i := by
  unfold Dev.taskRegs
  fin_cases i
  · rw [EngSt.reg_setReg_ne _ _ (by decide), EngSt.reg_setReg_ne _ _ (by decide), EngSt.reg_setReg_ne _ _ (by decide)]
    exact (EngSt.reg_setReg _ 1 _).trans (if_neg (by decide))
  · rw [EngSt.reg_setReg_ne _ _ (by decide), EngSt.reg_setReg_ne _ _ (by decide)]
    exact (EngSt.reg_setReg _ 2 _).trans (if_neg (by decide))
  · rw [EngSt.reg_setReg_ne _ _ (by decide)]
    exact (EngSt.reg_setReg _ 3 _).trans (if_neg (by decide))
  · exact (EngSt.reg_setReg _ 4 _).trans (if_neg (by decide))

theorem Dev.reg_taskRegs_ne (d : Dev) (e rid : Nat) {r : Fin 32} (h : r.val = 0 ∨ 5 ≤ r.val) :
    (d.taskRegs e rid).reg r = (d.engOf e).reg r := by
  have hne (k : Fin 32) (hk : 1 ≤ k.val ∧ k.val ≤ 4) : r ≠ k := fun hr => by subst hr; omega
  unfold Dev.taskRegs
  rw [EngSt.reg_setReg_ne _ _ (hne 4 (by decide)), EngSt.reg_setReg_ne _ _ (hne 3 (by decide)),
    EngSt.reg_setReg_ne _ _ (hne 2 (by decide)), EngSt.reg_setReg_ne _ _ (hne 1 (by decide))]

/-- An engine's state with a task that begins: record, poison, window, first instruction, its CK. -/
def EngSt.withTask (g : EngSt) (rid : Nat) (poisoned : Bool) (win : List Byte) (pc ck : Nat) : EngSt :=
  { g with
    task := some rid, pushed := false, taskCk := 0, offCk := 0, offFrom := 0, poison := poisoned, window := win, popWait := false
    inTrap := false, pc := pc, nextCk := ck
    ready := g.ready.filter (fun (x : Nat × (Nat × Bool)) => ¬ (1 ≤ x.1 ∧ x.1 ≤ 4)) }

theorem EngSt.reg_withTask (g : EngSt) (rid : Nat) (poisoned : Bool) (win : List Byte) (pc ck : Nat) (r : Fin 32) :
    (g.withTask rid poisoned win pc ck).reg r = g.reg r := rfl

/-- The engine with its task. -/
def Dev.taskEng (d : Dev) (e rid : Nat) : EngSt :=
  (d.taskRegs e rid).withTask rid (bit (d.recOf rid).flags 4 || (d.recOf rid).poison) (d.taskWin rid)
    (d.flowFld (engHalf e) (d.recOf rid).flow FL_ENTRY) (d.ck + 3)

theorem Dev.reg_taskEng (d : Dev) (e rid : Nat) (r : Fin 32) : (d.taskEng e rid).reg r = (d.taskRegs e rid).reg r :=
  EngSt.reg_withTask _ _ _ _ _ _ r

/-- The engine's page shows the task. -/
def Dev.taskShown (d : Dev) (e : Nat) (flow : Nat) (poisoned : Bool) : Dev :=
  ((((d.bump (Pg.newt e) F.NEWT_TAKEN_CNT).setFld (Pg.newt e) F.NEWT_STAT_TASK 1).setFld (Pg.newt e) F.NEWT_STAT_POISON (b01 poisoned)).setFld
    (Pg.newt e) F.NEWT_CUR_FLOW_VALID 1).setFld (Pg.newt e) F.NEWT_CUR_FLOW_FLOW flow

theorem Dev.startTask_eq (d : Dev) (e rid : Nat) : d.startTask e rid =
    (let shown := ((d.setEng e (d.taskEng e rid)).setRec rid { d.recOf rid with st := .taken }).taskShown e (d.recOf rid).flow
        (bit (d.recOf rid).flags 4 || (d.recOf rid).poison)
     (if shown.engState e = Es.stopping then shown else shown.setEngState e Es.run).fetch e) := by
  unfold Dev.startTask Dev.taskEng Dev.taskRegs Dev.taskShown Dev.taskWord Dev.taskWin
  rfl

theorem Dev.eproj_taskShown (d : Dev) (e flow : Nat) (b : Bool) : (d.taskShown e flow b).eproj = d.eproj := by
  unfold Dev.taskShown
  rw [Dev.eproj_setFld, Dev.eproj_setFld, Dev.eproj_setFld, Dev.eproj_setFld, Dev.eproj_bump]

/-- What the engine's page shows once the task has begun. -/
theorem Dev.fld_taskShown (d : Dev) (e flow : Nat) (b : Bool) :
    (d.taskShown e flow b).fld (Pg.newt e) F.NEWT_STAT_TASK = 1 ∧ (d.taskShown e flow b).engState e = d.engState e
      ∧ (d.taskShown e flow b).fld (Pg.newt e) F.NEWT_TAKEN_CNT = min (d.fld (Pg.newt e) F.NEWT_TAKEN_CNT + 1) 0xFFFFFFFF := by
  unfold Dev.taskShown Dev.engState
  refine ⟨?_, ?_, ?_⟩
  · rw [Dev.fld_setFld_ne _ _ _ _ (raddr_ne (by decide)), Dev.fld_setFld_ne _ _ _ _ (raddr_ne (by decide)),
      Dev.fld_setFld_disj _ _ F.NEWT_STAT_POISON F.NEWT_STAT_TASK _ rfl (by decide) (by decide), Dev.fld_setFld _ _ _ _ (by decide)]
    rfl
  · rw [Dev.fld_setFld_ne _ _ _ _ (raddr_ne (by decide)), Dev.fld_setFld_ne _ _ _ _ (raddr_ne (by decide)),
      Dev.fld_setFld_disj _ _ F.NEWT_STAT_POISON F.NEWT_STAT_STATE _ rfl (by decide) (by decide),
      Dev.fld_setFld_disj _ _ F.NEWT_STAT_TASK F.NEWT_STAT_STATE _ rfl (by decide) (by decide)]
    exact Dev.fld_bumpBy_ne _ _ _ _ (raddr_ne (by decide))
  · rw [Dev.fld_setFld_ne _ _ _ _ (raddr_ne (by decide)), Dev.fld_setFld_ne _ _ _ _ (raddr_ne (by decide)),
      Dev.fld_setFld_ne _ _ _ _ (raddr_ne (by decide)), Dev.fld_setFld_ne _ _ _ _ (raddr_ne (by decide))]
    exact Dev.fld_bump _ _ _ (by decide)

theorem Dev.regs_setRec_setEng (d : Dev) (e rid : Nat) (x : EngSt) (r : Rec) : ((d.setEng e x).setRec rid r).regs = d.regs := rfl
theorem Dev.engOf_setRec_setEng (d : Dev) (e rid : Nat) (x : EngSt) (r : Rec) : ((d.setEng e x).setRec rid r).engOf e = x := d.engOf_setEng e x

/-- The block once the engine holds its task and shows it, before the state and the fetch. -/
theorem Dev.startTask_shown (d : Dev) (e : Fin 192) (rid : Nat) (h : d.engState e ≠ Es.stopping) :
    ∃ d1 : Dev, d.startTask e rid = (d1.setEngState e Es.run).fetch e ∧ d1.engOf e = d.taskEng e rid
      ∧ (d1.recOf rid).st = .taken ∧ d1.fld (Pg.newt e) F.NEWT_STAT_TASK = 1
      ∧ d1.fld (Pg.newt e) F.NEWT_TAKEN_CNT = min (d.fld (Pg.newt e) F.NEWT_TAKEN_CNT + 1) 0xFFFFFFFF := by
  rw [Dev.startTask_eq]
  generalize hb : (bit (d.recOf rid).flags 4 || (d.recOf rid).poison) = poisoned
  generalize hd0 : (d.setEng e (d.taskEng e rid)).setRec rid { d.recOf rid with st := .taken } = d0
  have hregs : d0.regs = d.regs := by rw [← hd0, Dev.regs_setRec_setEng]
  have hfld0 (f : Fld) : d0.fld (Pg.newt e) f = d.fld (Pg.newt e) f := by unfold Dev.fld; rw [Dev.reg_congr hregs]
  have heng : d0.engOf e = d.taskEng e rid := by rw [← hd0, Dev.engOf_setRec_setEng]
  have hrec : (d0.recOf rid).st = .taken := by rw [← hd0, Dev.recOf_setRec]
  have hp := d0.eproj_taskShown e (d.recOf rid).flow poisoned
  obtain ⟨htask, hst, hcnt⟩ := d0.fld_taskShown e (d.recOf rid).flow poisoned
  rw [hfld0] at hcnt
  have hgo : (d0.taskShown e (d.recOf rid).flow poisoned).engState e ≠ Es.stopping := by
    rw [hst]; unfold Dev.engState; rw [hfld0]; exact h
  refine ⟨d0.taskShown e (d.recOf rid).flow poisoned, ?_, (Dev.engOf_of_eproj hp e).trans heng, ?_, htask, hcnt⟩
  · dsimp only
    rw [if_neg hgo]
  · rw [Dev.recOf_congr (Dev.engKeeps_of_eproj e hp).recs]
    exact hrec

theorem Dev.startTask_taskBegun (d : Dev) (e : Fin 192) (rid : Nat) (h : d.engState e ≠ Es.stopping) :
    d.taskBegun (d.startTask e rid).settle e rid := by
  obtain ⟨d1, hd1, heng, hrec, htask, hcnt⟩ := d.startTask_shown e rid h
  rw [hd1]
  generalize hd2 : ((d1.setEngState e Es.run).fetch e).settle = d2
  have hp : d2.eproj = d1.eproj := by rw [← hd2, Dev.eproj_settle, Dev.eproj_fetch, Dev.eproj_setEngState]
  have hfld (f : Fld) (hf : f.off < 4096) : d2.fld (Pg.newt e) f = (d1.setEngState e Es.run).fld (Pg.newt e) f := by
    rw [← hd2, Dev.fld_settle_newt _ e f hf, Dev.fld_fetch _ e.isLt]
  have hg : d2.engOf e = d.taskEng e rid := (Dev.engOf_of_eproj hp e).trans heng
  exact {
    task := by rw [hg]; unfold Dev.taskEng; rfl
    pushed := by rw [hg]; unfold Dev.taskEng; rfl
    words := fun i => by rw [hg, Dev.reg_taskEng, Dev.reg_taskRegs, d.taskWord_header rid i.isLt]
    regs := fun r hr => by rw [hg, Dev.reg_taskEng, d.reg_taskRegs_ne e rid hr]
    pc := by rw [hg]; unfold Dev.taskEng; rfl
    first := by rw [hg]; unfold Dev.taskEng; rfl
    taken := by rw [Dev.recOf_congr (Dev.engKeeps_of_eproj e hp).recs]; exact hrec
    count := by rw [hfld _ (by decide), Dev.fld_setEngState_off _ _ _ _ (by decide)]; exact hcnt
    stat := by rw [hfld _ (by decide), Dev.fld_setEngState_stat _ _ _ _ rfl (by decide)]; exact htask
    state := (hfld _ (by decide)).trans (Dev.engState_setEngState _ e (by decide)) }

/-- A task that begins depends on what the records, flows and registers are, not on what an issue notes. -/
theorem Dev.taskBegun_of {d d' d'' : Dev} {e : Fin 192} {rid : Nat} (h : d'.taskBegun d'' e rid) (hrec : d'.recs = d.recs)
    (hflows : d'.flows = d.flows) (hck : d'.ck = d.ck) (hreg : ∀ r, (d'.engOf e).reg r = (d.engOf e).reg r)
    (hcnt : d'.fld (Pg.newt e) F.NEWT_TAKEN_CNT = d.fld (Pg.newt e) F.NEWT_TAKEN_CNT) : d.taskBegun d'' e rid := by
  have hr := Dev.recOf_congr hrec rid
  exact {
    task := h.task, pushed := h.pushed, taken := h.taken, stat := h.stat, state := h.state
    words := fun i => (h.words i).trans (by rw [hr])
    regs := fun r h0 => (h.regs r h0).trans (hreg r)
    pc := h.pc.trans (by unfold Dev.flowFld; rw [hr, Dev.flow_of_flows hflows])
    first := h.first.trans (by rw [hck])
    count := h.count.trans (by rw [hcnt]) }

/-! The wait for a record, and the stop (R145, R146). -/

/-- The engine waits for a record. -/
def Dev.popWaits (d : Dev) (e : Nat) : Dev := (d.setEng e { d.engOf e with popWait := true }).setEngState e Es.wait

/-- The stop that was asked for takes effect. -/
def Dev.popStops (d : Dev) (e : Nat) : Dev :=
  (d.setEng e { d.engOf e with stopping := false, inTrap := false, popWait := false }).setEngState e Es.off

/-- The engine at a POP that takes a record or waits: no reservation, no handler. -/
def Dev.popReady (d : Dev) (e : Nat) : Dev := (d.dropResv e).setEng e { (d.dropResv e).engOf e with inTrap := false }

theorem Dev.closeTask_none (d : Dev) {e : Nat} (h : (d.engOf e).task = none) : d.closeTask e = d := by
  unfold Dev.closeTask
  rw [h]

theorem Dev.engOf_dropResv (d : Dev) (t : Nat) : (d.dropResv t).engOf t = { d.engOf t with resv := none } := d.engOf_setEng t _

theorem Dev.engOf_popReady (d : Dev) (e : Nat) : (d.popReady e).engOf e = { d.engOf e with resv := none, inTrap := false } := by
  unfold Dev.popReady
  rw [Dev.engOf_setEng, Dev.engOf_dropResv]

section
variable (d : Dev) {e : Nat} (h : (d.engOf e).task = none) (hs : (d.engOf e).stopping = false)
include h hs

/-- POP outside a task, where no stop is asked for, takes the record it is offered. -/
theorem Dev.pop_takes {rid : Nat} {r : Rec} (hoff : d.nextOffer e = some (rid, r)) : d.pop e = (d.popReady e).startTask e rid := by
  have hclose : (d.dropResv e).closeTask e = d.dropResv e := Dev.closeTask_none _ (by rw [Dev.engOf_dropResv]; exact h)
  have hready : (d.popReady e).nextOffer e = some (rid, r) := (Dev.nextOffer_congr rfl e).trans hoff
  unfold Dev.popReady at hready ⊢
  unfold Dev.pop
  rw [hclose]
  refine (if_neg (by rw [Dev.engOf_dropResv]; simp [hs])).trans ?_
  simp only [hready]

/-- With none to offer the engine waits. -/
theorem Dev.pop_waits (hoff : d.nextOffer e = none) : d.pop e = (d.popReady e).popWaits e := by
  have hclose : (d.dropResv e).closeTask e = d.dropResv e := Dev.closeTask_none _ (by rw [Dev.engOf_dropResv]; exact h)
  have hready : (d.popReady e).nextOffer e = none := (Dev.nextOffer_congr rfl e).trans hoff
  unfold Dev.popReady at hready ⊢
  unfold Dev.pop
  rw [hclose]
  refine (if_neg (by rw [Dev.engOf_dropResv]; simp [hs])).trans ?_
  simp only [hready]
  rfl

end

theorem Dev.pop_stop (d : Dev) {e : Nat} (h : (d.engOf e).task = none) (hs : (d.engOf e).stopping = true) :
    d.pop e = (d.dropResv e).popStops e := by
  have hclose : (d.dropResv e).closeTask e = d.dropResv e := Dev.closeTask_none _ (by rw [Dev.engOf_dropResv]; exact h)
  unfold Dev.pop
  rw [hclose]
  exact if_pos (by rw [Dev.engOf_dropResv]; exact hs)

theorem run_pop (e : Fin 192) {s : State} (hr : s.dev.rst = .running)
    (hc : s.dev.canIssue e { mSlot := true, alone := true, afterStores := true, writes := [1, 2, 3, 4] }) :
    ∃ d', exec (.pop (newtTarget e)) s = s.becomes (d'.pop e) ∧ s.dev.afterIssue d' e := by
  obtain ⟨d', hd, ha, -⟩ := run_issue (newtTarget e) (.pop (newtTarget e)) _ (fun d => d.pop e) hr hc
  refine ⟨d', Eq.trans ?_ hd, ha⟩
  exact congrArg (s.run _) (funext fun d => if_pos (show (newtTarget e).val < 192 from e.isLt))

theorem Dev.afterIssue.offerView {d d' : Dev} {t : Nat} (h : d.afterIssue d' t) : d'.offerView = d.offerView := by
  have hstill : d'.still.offerView = d.still.offerView := by rw [h.still]
  have hrecs : d'.recs = d.recs := h.tweaks.keeps.recs
  simp only [Dev.offerView, Prod.mk.injEq]
  simp only [Dev.offerView, Prod.mk.injEq] at hstill
  exact hstill

/-- A POP that waits (R146). -/
theorem Dev.popWaits_keeps (d : Dev) (e : Fin 192) : ((d.popReady e).popWaits e).settle.engState e = Es.wait
    ∧ (((d.popReady e).popWaits e).settle.engOf e).popWait = true ∧ (((d.popReady e).popWaits e).settle.engOf e).n = (d.engOf e).n
    ∧ d.engKeeps ((d.popReady e).popWaits e).settle e := by
  have hp : ((d.popReady e).popWaits e).settle.eproj = ((d.popReady e).setEng e { (d.popReady e).engOf e with popWait := true }).eproj := by
    rw [Dev.eproj_settle, Dev.popWaits, Dev.eproj_setEngState]
  have heng : ((d.popReady e).popWaits e).settle.engOf e = { d.engOf e with resv := none, inTrap := false, popWait := true } := by
    rw [Dev.engOf_of_eproj hp, Dev.engOf_setEng, Dev.engOf_popReady]
  refine ⟨(Dev.engState_settle _ e).trans (Dev.engState_setEngState _ e (by decide)), by rw [heng], by rw [heng], ?_⟩
  exact ((d.engKeeps_setEng e _).trans ((Dev.engKeeps_setEng _ e _).trans (Dev.engKeeps_setEng _ e _))).trans (Dev.engKeeps_of_eproj e hp)

theorem Dev.popStops_off (d : Dev) (e : Fin 192) :
    (d.popStops e).settle.engState e = Es.off ∧ ((d.popStops e).settle.engOf e).stopping = false := by
  refine ⟨(Dev.engState_settle _ e).trans (Dev.engState_setEngState _ e (by decide)), ?_⟩
  rw [Dev.engOf_of_eproj (Dev.eproj_settle _), Dev.popStops, Dev.engOf_setEngState, Dev.engOf_setEng]

/-! RECORD_OFFER (R207). -/

theorem Dev.recordOffer_some {d : Dev} {e rid : Nat} {r : Rec} (hw : (d.engOf e).popWait = true) (hm : d.engState e ≠ Es.monitor)
    (h : d.nextOffer e = some (rid, r)) : d.recordOffer e = d.startTask e rid := by
  unfold Dev.recordOffer
  rw [if_neg (by simp [hw, hm]), h]

theorem Dev.recordOffer_none {d : Dev} {e : Nat} (h : d.nextOffer e = none) : d.recordOffer e = d := by
  unfold Dev.recordOffer
  rw [h]
  exact ite_self d

theorem es_distinct : Es.run ≠ Es.stopping ∧ Es.wait ≠ Es.stopping := by decide

/-- Settles O22: what an issue leaves is what POP reads, and both POP and RECORD_OFFER begin the task of the oldest offerable record. -/
theorem tasksBeginAtPopAndOffer : Obligations.TasksBeginAtPopAndOffer := by
  refine ⟨fun e s hr => ⟨fun hst hc htask hstop => ?_, fun _ hc htask hstop => ?_⟩, fun e s hr hst hwait => ⟨fun rid r hoff => ?_, fun hoff => ?_⟩⟩
  · obtain ⟨d', hd, h⟩ := run_pop e hr hc
    have htask' : (d'.engOf e).task = none := ((congrArg EngSt.task h.eng :) : (d'.engOf e).task = _).trans htask
    have hstop' : (d'.engOf e).stopping = false := ((congrArg EngSt.stopping h.eng :) : (d'.engOf e).stopping = _).trans hstop
    have hsame : d'.nextOffer e = s.dev.nextOffer e := Dev.nextOffer_congr h.offerView e
    refine ⟨fun rid r hoff => ?_, fun hoff => ?_⟩
    · have hpop := d'.pop_takes htask' hstop' (hsame.trans hoff)
      have hb := Dev.startTask_taskBegun (d'.popReady e) e rid (by
        show d'.engState e ≠ _
        rw [h.engState, hst]
        exact es_distinct.1)
      refine ⟨_, hd.trans (congrArg s.becomes hpop), Dev.taskBegun_of hb h.tweaks.keeps.recs (congrArg Dev.flows h.still :) h.tweaks.ck
        (fun q => ?_) (h.regs _ (by decide) (by decide))⟩
      rw [Dev.engOf_popReady]
      exact h.tweaks.like.reg q
    · have hpop := d'.pop_waits htask' hstop' (hsame.trans hoff)
      obtain ⟨hw, hpw, hn, hk⟩ := d'.popWaits_keeps e
      exact ⟨_, hd.trans (congrArg s.becomes hpop), hw, hpw, hn.trans h.tweaks.like.n, h.tweaks.keeps.trans hk⟩
  · obtain ⟨d', hd, h⟩ := run_pop e hr hc
    have htask' : (d'.engOf e).task = none := ((congrArg EngSt.task h.eng :) : (d'.engOf e).task = _).trans htask
    have hstop' : (d'.engOf e).stopping = true := ((congrArg EngSt.stopping h.eng :) : (d'.engOf e).stopping = _).trans hstop
    obtain ⟨hoff, hs⟩ := (d'.dropResv e).popStops_off e
    exact ⟨_, hd.trans (congrArg s.becomes (d'.pop_stop htask' hstop')), hoff, hs⟩
  · refine ⟨_, (State.run_running _ _ _ hr).trans (congrArg s.becomes (Dev.recordOffer_some (rid := rid) (r := r) ?_ ?_ ?_)),
      Dev.taskBegun_of (Dev.startTask_taskBegun (s.dev.begin (.recordOffer e)) e rid ?_) rfl rfl rfl (fun _ => rfl) rfl⟩
    · exact hwait
    · exact hst.trans_ne (by decide)
    · exact (Dev.nextOffer_congr rfl e).trans hoff
    · exact hst.trans_ne es_distinct.2
  · exact (State.run_running _ _ _ hr).trans (congrArg s.becomes (Dev.recordOffer_none ((Dev.nextOffer_congr rfl e).trans hoff)))

end Sys2Proof.Machine
end

section
/-! PROOFS. NEWT_RUN_WRITE (R145, Table 7-2): the write of CTRL by the common rules, the start and the stop it asks for, and O25. -/

namespace Sys2Proof.Machine

/-! CTRL takes its value by the common rules. -/

/-- The block once NEWTn_CTRL has been written by the common rules (R6, R8). -/
def Dev.ctrlTook (d : Dev) (e : Nat) (val : Word) : Dev :=
  match regDesc .newt 0x008 with
  | some r => d.plainWrite (Pg.newt e) e r 0x008 val 0
  | none => d

/-- What a write of CTRL changes: CTRL, and where it has a reserved bit the page's error registers. -/
structure Dev.ctrlWritten (d d' : Dev) (e : Nat) (val : Word) : Prop where
  rest : d'.rest = d.rest
  run : d'.fld (Pg.newt e) F.NEWT_CTRL_RUN = val.toNat % 2
  others : ∀ pg (f : Fld), raddr (Pg.newt e) 0x008 ≠ raddr pg f.off → raddr (Pg.newt e) 0x03C ≠ raddr pg f.off →
    raddr (Pg.newt e) 0x01C ≠ raddr pg f.off → d'.fld pg f = d.fld pg f

/-- RUN is bit 0 of what the common rules store in CTRL, whose two writable bits are the lowest. -/
theorem ctrlStored_run (cur v x : Nat) :
    BitVec.toNat (BitVec.ofNat 32 ((((cur &&& 0xFFFFFFFC) ||| (v &&& 3)) &&& 0xFFFFFFFF) ||| (x &&& 0))) % 2 = v % 2 := by
  rw [BitVec.toNat_ofNat, Nat.mod_mod_of_dvd _ (by decide)]
  have hbit : ((((cur &&& 0xFFFFFFFC) ||| (v &&& 3)) &&& 0xFFFFFFFF) ||| (x &&& 0)).testBit 0 = v.testBit 0 := by
    simp only [Nat.testBit_or, Nat.testBit_and]
    simp [Nat.testBit_zero]
  simp only [Nat.testBit_zero, decide_eq_decide] at hbit
  omega

theorem Dev.fld_run (d : Dev) (e : Nat) : d.fld (Pg.newt e) F.NEWT_CTRL_RUN = (d.reg (Pg.newt e) 0x008).toNat % 2 := by
  unfold Dev.fld bitsOf
  rw [show (2 : Nat) ^ F.NEWT_CTRL_RUN.lo = 1 from rfl, Nat.div_one]
  rfl

theorem Dev.ctrlWritten_setReg (d : Dev) (e : Nat) {w val : Word} (h : w.toNat % 2 = val.toNat % 2) :
    d.ctrlWritten (d.setReg (Pg.newt e) 0x008 w) e val where
  rest := d.rest_setReg _ _ _
  run := by rw [Dev.fld_run, Dev.reg_setReg, h]
  others := fun pg f h8 _ _ => d.fld_setReg_ne w f h8

theorem Dev.ctrlWritten.regErr {d d' : Dev} {e : Nat} {val : Word} (h : d.ctrlWritten d' e val) (code : Nat) :
    d.ctrlWritten (d'.regErr (Pg.newt e) code) e val where
  rest := (d'.rest_regErr _ _).trans h.rest
  run := (d'.fld_err_other _ 7 _ F.NEWT_CTRL_RUN (raddr_ne (by decide)) (raddr_ne (by decide))).trans h.run
  others := fun pg f h8 h3c h1c => (d'.fld_err_other _ 7 _ f h3c h1c).trans (h.others pg f h8 h3c h1c)

theorem Dev.ctrlTook_written (d : Dev) (e : Nat) (val : Word) : d.ctrlWritten (d.ctrlTook e val) e val := by
  have hrow : regDesc .newt 0x008 = some ⟨0x8, 4, 1, 0x3, 0, 0, 0, 0x2, 0, false⟩ := by decide
  have hset := Dev.ctrlWritten_setReg d e (val := val) (ctrlStored_run (d.reg (Pg.newt e) 0x008).toNat val.toNat
    (d.clearedTo (raddr (Pg.newt e) 0x008) 0))
  have hwm : writableBits d ⟨0x8, 4, 1, 0x3, 0, 0, 0, 0x2, 0, false⟩ e &&& (0xFFFFFFFF - 0) = 3 := by
    simp [writableBits]
  unfold Dev.ctrlTook Dev.plainWrite
  simp only [hrow, hwm, ne_eq, not_true_eq_false, false_and, if_false]
  split
  · exact hset
  · exact hset.regErr _

/-! The start and the stop. -/

/-- RUN has gone from 0 to 1. -/
def Dev.runSet (d : Dev) (e : Nat) : Dev :=
  if d.engState e = Es.off ∨ d.engState e = Es.halted then (if d.started ∧ d.domOpen (Dom.bay (e / 16)) then d.engineStart e else d)
  else
    if d.engState e = Es.stopping then
      (d.setEng e { d.engOf e with stopping := false }).setEngState e (if (d.engOf e).inTrap then Es.trap else Es.run)
    else d.setEng e { d.engOf e with stopping := false }

/-- RUN has gone from 1 to 0. -/
def Dev.runCleared (d : Dev) (e : Nat) : Dev :=
  if d.engState e = Es.halted then d.setEngState e Es.off
  else if d.engState e = Es.wait then (d.setEng e { d.engOf e with popWait := false }).setEngState e Es.off
  else if d.engState e = Es.run ∨ d.engState e = Es.trap then (d.setEng e { d.engOf e with stopping := true }).setEngState e Es.stopping
  else if d.engState e = Es.monitor then d.setEng e { d.engOf e with stopping := true }
  else d

theorem Dev.newtCtrlWrite_eq (d : Dev) (e : Nat) (val : Word) : d.newtCtrlWrite e val
    = (if bit val.toNat 0 ∧ ¬ d.flag (Pg.newt e) F.NEWT_CTRL_RUN then (d.ctrlTook e val).runSet e
      else if d.flag (Pg.newt e) F.NEWT_CTRL_RUN ∧ ¬ bit val.toNat 0 then (d.ctrlTook e val).runCleared e
      else d.ctrlTook e val) := rfl

theorem Dev.newtCtrlWrite_set (d : Dev) (e : Nat) {val : Word} (hv : val.toNat % 2 = 1) (hr : d.fld (Pg.newt e) F.NEWT_CTRL_RUN = 0) :
    d.newtCtrlWrite e val = (d.ctrlTook e val).runSet e := by
  rw [Dev.newtCtrlWrite_eq, if_pos ⟨by simp [bit, Nat.testBit_zero, hv], by simp [Dev.flag, hr]⟩]

theorem Dev.newtCtrlWrite_clear (d : Dev) (e : Nat) {val : Word} (hv : val.toNat % 2 = 0) (hr : d.fld (Pg.newt e) F.NEWT_CTRL_RUN = 1) :
    d.newtCtrlWrite e val = (d.ctrlTook e val).runCleared e := by
  have hbit : bit val.toNat 0 = false := by simp [bit, Nat.testBit_zero, hv]
  rw [Dev.newtCtrlWrite_eq, if_neg (by simp [hbit]), if_pos ⟨by simp [Dev.flag, hr], by simp [hbit]⟩]

/-- An engine has started (R145). -/
structure Dev.engineStarted (d d' : Dev) (e : Fin 192) : Prop where
  state : d'.engState e = Es.run
  regs : ∀ r, (d'.engOf e).reg r = 0#64
  pc : (d'.engOf e).pc = d.fld (Pg.newt e) F.NEWT_START_PC
  task : (d'.engOf e).task = none
  run : d'.fld (Pg.newt e) F.NEWT_CTRL_RUN = d.fld (Pg.newt e) F.NEWT_CTRL_RUN

/-- An engine's state at its start: every register 0, no task, the context slots it has. -/
def Dev.startEng (d : Dev) (e : Nat) : EngSt := { slots := (d.engOf e).slots, pc := d.fld (Pg.newt e) F.NEWT_START_PC, nextCk := d.ck }

theorem Dev.engineStart_eq (d : Dev) (e : Nat) : d.engineStart e
    = ((((d.setEng e (d.startEng e)).setEngState e Es.run).setFld (Pg.newt e) F.NEWT_STAT_TASK 0).setFld (Pg.newt e)
        F.NEWT_CUR_FLOW_VALID 0).fetch e := rfl

theorem Dev.engineStart_started (d : Dev) (e : Fin 192) : d.engineStarted (d.engineStart e).settle e := by
  rw [Dev.engineStart_eq]
  generalize hd1 : (d.setEng e (d.startEng e)).setEngState e Es.run = d1
  generalize hd2 : (((d1.setFld (Pg.newt e) F.NEWT_STAT_TASK 0).setFld (Pg.newt e) F.NEWT_CUR_FLOW_VALID 0).fetch e).settle = d2
  have hp : d2.eproj = d1.eproj := by rw [← hd2, Dev.eproj_settle, Dev.eproj_fetch, Dev.eproj_setFld, Dev.eproj_setFld]
  have heng : d2.engOf e = d.startEng e := by rw [Dev.engOf_of_eproj hp, ← hd1, Dev.engOf_setEngState, Dev.engOf_setEng]
  have hfld (f : Fld) (hf : f.off < 4096) (hc : f.off ≠ 0x11C) :
      d2.fld (Pg.newt e) f = (d1.setFld (Pg.newt e) F.NEWT_STAT_TASK 0).fld (Pg.newt e) f := by
    rw [← hd2, Dev.fld_settle_newt _ e f hf, Dev.fld_fetch _ e.isLt, Dev.fld_setFld_ne _ _ _ _ (raddr_ne (Ne.symm hc))]
  refine ⟨?_, fun r => ?_, by rw [heng]; rfl, by rw [heng]; rfl, ?_⟩
  · refine (hfld F.NEWT_STAT_STATE (by decide) (by decide)).trans ?_
    rw [Dev.fld_setFld_disj _ _ F.NEWT_STAT_TASK F.NEWT_STAT_STATE _ rfl (by decide) (by decide), ← hd1]
    exact Dev.engState_setEngState _ e (by decide)
  · rw [heng]
    exact ite_self 0#64
  · rw [hfld _ (by decide) (by decide), Dev.fld_setFld_ne _ _ _ _ (raddr_ne (by decide)), ← hd1, Dev.fld_setEngState_off _ _ _ _ (by decide)]
    rfl

theorem Dev.fld_run_setEngState (d : Dev) (e : Fin 192) (st : Nat) :
    (d.setEngState e st).fld (Pg.newt e) F.NEWT_CTRL_RUN = d.fld (Pg.newt e) F.NEWT_CTRL_RUN := d.fld_setEngState_off e st _ (by decide)

theorem Dev.runCleared_run (d : Dev) (e : Fin 192) : (d.runCleared e).fld (Pg.newt e) F.NEWT_CTRL_RUN = d.fld (Pg.newt e) F.NEWT_CTRL_RUN := by
  unfold Dev.runCleared
  split_ifs
  · exact d.fld_run_setEngState e _
  · exact Dev.fld_run_setEngState _ e _
  · exact Dev.fld_run_setEngState _ e _
  · rfl
  · rfl

theorem Dev.runCleared_off (d : Dev) (e : Fin 192) (h : d.engState e = Es.halted ∨ d.engState e = Es.wait) :
    (d.runCleared e).engState e = Es.off := by
  unfold Dev.runCleared
  rcases h with h | h
  · rw [if_pos h]
    exact d.engState_setEngState e (by decide)
  · rw [if_neg (h.trans_ne (by decide)), if_pos h]
    exact Dev.engState_setEngState _ e (by decide)

theorem Dev.runCleared_stopping (d : Dev) (e : Fin 192) (h : d.engState e = Es.run ∨ d.engState e = Es.trap) :
    (d.runCleared e).engState e = Es.stopping ∧ ((d.runCleared e).engOf e).stopping = true := by
  have hh : d.engState e ≠ Es.halted ∧ d.engState e ≠ Es.wait := by
    rcases h with h | h
    · rw [h]; decide
    · rw [h]; decide
  unfold Dev.runCleared
  rw [if_neg hh.1, if_neg hh.2, if_pos h, Dev.engOf_setEngState, Dev.engOf_setEng]
  exact ⟨Dev.engState_setEngState _ e (by decide), rfl⟩

/-! The command. -/

theorem exec_newtRunWrite (e : Fin 192) (val : Word) {s : State} (hr : s.dev.rst = .running) (hu : s.dev.unpaired) :
    exec (.newtRunWrite e val) s = s.becomes (s.dev.fresh.newtCtrlWrite e val) :=
  (State.cmd_running _ _ hr).trans (congrArg s.becomes (Dev.swGate_unpaired s.dev.fresh _ val _ hu))

/-- A domain's state stands on no engine's page. -/
theorem Dev.ctrlWritten.domOpen {d d' : Dev} {e : Nat} {val : Word} (h : d.ctrlWritten d' e val) {k : Nat} (hk : k < 64) :
    d'.domOpen k = d.domOpen k := by
  have hoff : (domFld k).off < 4096 := by
    show 0x110 + 4 * (k / 16) < 4096
    omega
  have hne {off : Nat} (ho : off < 4096) : raddr (Pg.newt e) off ≠ raddr Pg.pmc (domFld k).off :=
    (raddr_newt_ne 0 e hoff ho (by decide)).symm
  unfold Dev.domOpen Dev.domState
  rw [h.others Pg.pmc (domFld k) (hne (by decide)) (hne (by decide)) (hne (by decide))]

theorem Dev.ctrlWritten.newtFld {d d' : Dev} {e : Nat} {val : Word} (h : d.ctrlWritten d' e val) (f : Fld) (h8 : f.off ≠ 0x008)
    (h3c : f.off ≠ 0x03C) (h1c : f.off ≠ 0x01C) : d'.fld (Pg.newt e) f = d.fld (Pg.newt e) f :=
  h.others _ f (raddr_ne (Ne.symm h8)) (raddr_ne (Ne.symm h3c)) (raddr_ne (Ne.symm h1c))

/-- Settles O25: CTRL takes its value, and the engine starts or stops from the state it was in. -/
theorem runStartsAndStopsEngines : Obligations.RunStartsAndStopsEngines := by
  refine fun e s hr hu => ⟨fun val hv hrun hst hstarted hdom => ?_, fun val hv hrun => ?_⟩
  · have hw := s.dev.fresh.ctrlTook_written e val
    have hset := s.dev.fresh.newtCtrlWrite_set e hv hrun
    generalize s.dev.fresh.ctrlTook e val = d1 at hw hset
    have hstate : d1.engState e = s.dev.engState e := hw.newtFld F.NEWT_STAT_STATE (by decide) (by decide) (by decide)
    have hgo : d1.started = true ∧ d1.domOpen (Dom.bay (e / 16)) = true :=
      ⟨((congrArg Dev.started hw.rest :) : d1.started = s.dev.started).trans hstarted,
        (hw.domOpen (by unfold Dom.bay; omega)).trans hdom⟩
    have hstart : d1.runSet e = d1.engineStart e := by
      unfold Dev.runSet
      rw [hstate, if_pos hst, if_pos hgo]
    have hk := d1.engineStart_started e
    refine ⟨_, (exec_newtRunWrite e val hr hu).trans (congrArg s.becomes (hset.trans hstart)), hk.state, hk.regs, ?_, hk.task, ?_⟩
    · exact hk.pc.trans (hw.newtFld F.NEWT_START_PC (by decide) (by decide) (by decide))
    · exact hk.run.trans (hw.run.trans hv)
  · have hw := s.dev.fresh.ctrlTook_written e val
    have hclr := s.dev.fresh.newtCtrlWrite_clear e hv hrun
    generalize s.dev.fresh.ctrlTook e val = d1 at hw hclr
    have hstate : d1.engState e = s.dev.engState e := hw.newtFld F.NEWT_STAT_STATE (by decide) (by decide) (by decide)
    refine ⟨_, (exec_newtRunWrite e val hr hu).trans (congrArg s.becomes hclr), ?_, fun hst => ?_, fun hst => ?_⟩
    · exact (Dev.fld_settle_newt _ e _ (by decide)).trans ((d1.runCleared_run e).trans (hw.run.trans hv))
    · exact (Dev.engState_settle _ e).trans (d1.runCleared_off e (by rw [hstate]; exact hst))
    · obtain ⟨hs, hf⟩ := d1.runCleared_stopping e (by rw [hstate]; exact hst)
      refine ⟨(Dev.engState_settle _ e).trans hs, ?_⟩
      exact (congrArg EngSt.stopping (Dev.engOf_of_eproj (Dev.eproj_settle _) e)).trans hf

end Sys2Proof.Machine
end

section
/-! PROOFS. IMEM_DATA_ACCESS and MEM_TEST_REGION of an engine's instruction memory (R142 to R144, R158), and O26. -/

namespace Sys2Proof.Machine

/-! The instruction at IDX. -/

/-- The word at an index of 13 bits. -/
theorem Dev.imemWord_of_lt (d : Dev) (e : Nat) {i : Nat} (h : i < 8192) : d.imemWord e i = sget 0#32 d.imem (e * 8192 + i) := by
  unfold Dev.imemWord
  rw [Nat.mod_eq_of_lt h]

theorem Dev.imemIdx_lt (d : Dev) (pg : Nat) : d.fld pg F.NEWT_IMEM_IDX_IDX < 8192 := d.fld_lt _ _

/-- The index moves on by one, around its end. -/
def Dev.imemStep (d : Dev) (e i : Nat) : Dev := d.setFld (Pg.newt e) F.NEWT_IMEM_IDX_IDX ((i + 1) % 8192)

/-- The instruction is written. -/
def Dev.imemPut (d : Dev) (e i : Nat) (v : Word) : Dev := { d with imem := sset 0#32 d.imem (e * 8192 + i) v }

theorem Dev.imemData_read (d : Dev) (e : Nat) (peek : Bool) : d.imemData e none peek
    = if peek then d.emit (.rdata (raddr (Pg.newt e) 0x124) (d.imemWord e (d.fld (Pg.newt e) F.NEWT_IMEM_IDX_IDX)))
      else (d.emit (.rdata (raddr (Pg.newt e) 0x124) (d.imemWord e (d.fld (Pg.newt e) F.NEWT_IMEM_IDX_IDX)))).imemStep e
        (d.fld (Pg.newt e) F.NEWT_IMEM_IDX_IDX) := by
  rw [d.imemWord_of_lt e (d.imemIdx_lt _)]
  rfl

theorem Dev.imemData_write (d : Dev) (e : Nat) (v : Word) (h : d.engState e = Es.off ∨ d.engState e = Es.halted) :
    d.imemData e (some v) false
      = (d.imemPut e (d.fld (Pg.newt e) F.NEWT_IMEM_IDX_IDX) v).imemStep e (d.fld (Pg.newt e) F.NEWT_IMEM_IDX_IDX) :=
  congrArg (fun x : Dev => x.imemStep e (d.fld (Pg.newt e) F.NEWT_IMEM_IDX_IDX)) (if_pos h)

theorem Dev.imemData_refused (d : Dev) (e : Nat) (v : Word) (h : ¬ (d.engState e = Es.off ∨ d.engState e = Es.halted)) :
    d.imemData e (some v) false = (d.err (Pg.newt e) 3 0x0704).imemStep e (d.fld (Pg.newt e) F.NEWT_IMEM_IDX_IDX) :=
  congrArg (fun x : Dev => x.imemStep e (d.fld (Pg.newt e) F.NEWT_IMEM_IDX_IDX)) (if_neg h)

theorem Dev.idx_imemStep (d : Dev) (e : Fin 192) (i : Nat) :
    (d.imemStep e i).settle.fld (Pg.newt e) F.NEWT_IMEM_IDX_IDX = (i + 1) % 8192 := by
  rw [Dev.fld_settle_newt _ _ _ (by decide), Dev.imemStep, Dev.fld_setFld _ _ _ _ (by decide)]
  exact Nat.mod_mod _ _

theorem Dev.imem_settle (d : Dev) : d.settle.imem = d.imem := (congrArg (fun x => x.2.2.2.1) d.eproj_settle :)

theorem Dev.imemWord_congr {d d' : Dev} (h : d'.imem = d.imem) (e pc : Nat) : d'.imemWord e pc = d.imemWord e pc := by
  unfold Dev.imemWord
  rw [h]

theorem Dev.imemWord_imemPut (d : Dev) (e : Nat) {i : Nat} (v : Word) (h : i < 8192) : (d.imemPut e i v).imemWord e i = v := by
  rw [Dev.imemWord_of_lt _ _ h]
  exact sget_sset_same _ _ _ _

theorem Dev.imemWord_imemPut_ne (d : Dev) {e f : Nat} {i j : Nat} (v : Word) (h : i < 8192) (hne : (f, j % 8192) ≠ (e, i)) :
    (d.imemPut e i v).imemWord f j = d.imemWord f j := by
  refine sget_sset_ne _ _ _ _ (fun hkey => hne ?_)
  rw [Prod.mk.injEq]
  omega

/-! The background test. -/

theorem Dev.tests_of_rest {d d' : Dev} (h : d'.rest = d.rest) : d'.tests = d.tests := (congrArg Dev.tests h :)

theorem Dev.testOf_of_tests {d d' : Dev} (h : d'.tests = d.tests) (k : Nat) : d'.testOf k = d.testOf k := by
  unfold Dev.testOf
  rw [h]

theorem Dev.testOf_settle (d : Dev) (k : Nat) : d.settle.testOf k = d.testOf k :=
  Dev.testOf_of_tests (Dev.tests_of_rest d.rest_settle) k

theorem Dev.testOf_setTest (d : Dev) (k : Nat) (x : TestSt) : (d.setTest k x).testOf k = x := sget_sset_same _ _ _ _

theorem Dev.testOf_setTest_setReg (d : Dev) (k pg off : Nat) (x : TestSt) (v : Word) : ((d.setTest k x).setReg pg off v).testOf k = x :=
  d.testOf_setTest k x

section
variable {d : Dev} {e : Fin 192} (hx : (d.testOf e).ended = false) (hen : d.flag (Pg.newt e) F.NEWT_CTRL_TEST_EN = true)
include hx hen

/-- With TEST_EN 1 and the test not ended, only another region's number keeps the test from taking the result. -/
theorem memTest_takes : ¬ ((d.testOf e).region ≠ (d.testOf e).region ∨ (d.testOf e).ended ∨ ((d.testOf e).idle ∧ ¬ d.testEn (.imem e))) := by
  simp [hx, Dev.testEn, hen]

theorem Dev.memTestRegion_failed : d.memTestRegion (.imem e) (d.testOf e).region false
    = (d.setTest e { d.testOf e with ended := true }).testFailed (.imem e) :=
  (if_neg (memTest_takes hx hen)).trans (if_pos (by simp))

theorem Dev.memTestRegion_next (h : (d.testOf e).region + 1 < 32) : d.memTestRegion (.imem e) (d.testOf e).region true
    = d.setTest e { d.testOf e with region := (d.testOf e).region + 1, idle := !d.testEn (.imem e) } :=
  (if_neg (memTest_takes hx hen)).trans ((if_neg (by simp)).trans (if_pos h))

theorem Dev.memTestRegion_lap (h : (d.testOf e).region = 31) : d.memTestRegion (.imem e) (d.testOf e).region true
    = (d.setTest e { d.testOf e with region := 0, laps := (d.testOf e).laps + 1, since := d.ck, idle := !d.testEn (.imem e) }).setReg
        (Pg.newt e) 0x150 (lapTime d.ck (d.testOf e).since) :=
  (if_neg (memTest_takes hx hen)).trans ((if_neg (by simp)).trans (if_neg (by
    show ¬ (d.testOf e).region + 1 < 32
    omega)))

end

theorem Dev.memTestRegion_other (d : Dev) (e : Fin 192) {r : Nat} (pass : Bool) (h : r ≠ (d.testOf e).region) :
    d.memTestRegion (.imem e) r pass = d := if_pos (.inl h)

/-- A failed region: its bit and the page's error count. -/
theorem Dev.testFailed_imem (d : Dev) (e : Fin 192) : (d.testFailed (.imem e)).tests = d.tests
    ∧ (d.testFailed (.imem e)).fld (Pg.newt e) F.NEWT_TEST_STAT_IMEM_REP = 1
    ∧ (d.testFailed (.imem e)).fld (Pg.newt e) (F.ERRCNT 4) = min (d.fld (Pg.newt e) (F.ERRCNT 4) + 1) 0xFFFFFFFF := by
  have hgo : d.testFailed (.imem e)
      = ((d.setFld (Pg.newt e) F.NEWT_TEST_STAT_IMEM_REP 1).err (Pg.newt e) 4 0x0705).pendBits (Pg.newt e) (2 ^ 2) := rfl
  rw [hgo]
  refine ⟨Dev.tests_of_rest ((Dev.rest_pendBits _ _ _).trans ((Dev.rest_err _ _ _ _).trans (Dev.rest_setFld _ _ _ _))), ?_, ?_⟩
  · rw [Dev.fld_pend_off _ _ _ _ (by decide) (by decide),
      Dev.fld_err_other _ _ _ _ _ (raddr_ne (by decide)) (raddr_ne (by decide)), Dev.fld_setFld _ _ _ _ (by decide)]
    rfl
  · rw [Dev.fld_pend_off _ _ _ _ (by decide) (by decide), Dev.fld_err, Dev.fld_setFld_ne _ _ _ _ (raddr_ne (by decide))]

/-! The two commands. -/

theorem exec_imemRead (e : Fin 192) (peek : Bool) {s : State} (hr : s.dev.rst = .running) :
    exec (.imemDataAccess e none peek) s = s.becomes (s.dev.fresh.imemData e none peek) := State.cmd_running _ _ hr

theorem exec_imemWrite (e : Fin 192) (v : Word) {s : State} (hr : s.dev.rst = .running) (hu : s.dev.unpaired) :
    exec (.imemDataAccess e (some v) false) s = s.becomes (s.dev.fresh.imemData e (some v) false) :=
  (State.cmd_running _ _ hr).trans (congrArg s.becomes (Dev.swGate_unpaired s.dev.fresh _ v _ hu))

theorem exec_memTestRegion (m : TestMem) (r : Fin 2048) (pass : Bool) {s : State} (hr : s.dev.rst = .running) :
    exec (.memTestRegion m r pass) s = s.becomes ((s.dev.begin (.memTestRegion m r pass)).memTestRegion m r pass) :=
  State.run_running _ _ _ hr

/-- A read of the instruction memory's window. -/
theorem imemRead_reads (e : Fin 192) (peek : Bool) {s : State} (hr : s.dev.rst = .running) :
    let i := s.dev.fld (Pg.newt e) F.NEWT_IMEM_IDX_IDX
    ∃ t, exec (.imemDataAccess e none peek) s = .next t ∧ .rdata (raddr (Pg.newt e) 0x124) (s.dev.imemWord e i) ∈ t.dev.out
      ∧ t.dev.imem = s.dev.imem ∧ t.dev.fld (Pg.newt e) F.NEWT_IMEM_IDX_IDX = (if peek then i else (i + 1) % 8192) := by
  intro i
  have hgo := (exec_imemRead e peek hr).trans (congrArg s.becomes (s.dev.fresh.imemData_read e peek))
  cases peek with
  | true =>
    exact ⟨_, hgo, Dev.mem_out_settle_emit _ _, Dev.imem_settle _, Dev.fld_settle_newt _ e _ (by decide)⟩
  | false =>
    refine ⟨_, hgo, ?_, Dev.imem_settle _, Dev.idx_imemStep _ e _⟩
    rw [Dev.settle_out]
    exact (Dev.mem_out_emit _ _)

/-- A write of an engine that is OFF or HALTED (R158). -/
theorem imemWrite_writes (e : Fin 192) (v : Word) {s : State} (hr : s.dev.rst = .running) (hu : s.dev.unpaired)
    (hst : s.dev.engState e = Es.off ∨ s.dev.engState e = Es.halted) :
    let i := s.dev.fld (Pg.newt e) F.NEWT_IMEM_IDX_IDX
    ∃ t, exec (.imemDataAccess e (some v) false) s = .next t ∧ t.dev.imemWord e i = v
      ∧ (∀ f j, (f, j % 8192) ≠ (e.val, i) → t.dev.imemWord f j = s.dev.imemWord f j)
      ∧ t.dev.fld (Pg.newt e) F.NEWT_IMEM_IDX_IDX = (i + 1) % 8192 := by
  intro i
  have hi : i < 8192 := s.dev.imemIdx_lt (Pg.newt e)
  refine ⟨_, (exec_imemWrite e v hr hu).trans (congrArg s.becomes (s.dev.fresh.imemData_write e v hst)), ?_, fun f j hne => ?_,
    Dev.idx_imemStep _ e _⟩
  · rw [Dev.imemWord_congr (Dev.imem_settle _)]
    exact s.dev.fresh.imemWord_imemPut e v hi
  · rw [Dev.imemWord_congr (Dev.imem_settle _)]
    exact s.dev.fresh.imemWord_imemPut_ne v hi hne

/-- A write of any other engine is counted and dropped (R158). -/
theorem imemWrite_refused (e : Fin 192) (v : Word) {s : State} (hr : s.dev.rst = .running) (hu : s.dev.unpaired)
    (hst : ¬ (s.dev.engState e = Es.off ∨ s.dev.engState e = Es.halted)) :
    ∃ t, exec (.imemDataAccess e (some v) false) s = .next t ∧ t.dev.imem = s.dev.imem
      ∧ t.dev.fld (Pg.newt e) (F.ERRCNT 3) = min (s.dev.fld (Pg.newt e) (F.ERRCNT 3) + 1) 0xFFFFFFFF := by
  refine ⟨_, (exec_imemWrite e v hr hu).trans (congrArg s.becomes (s.dev.fresh.imemData_refused e v hst)), ?_, ?_⟩
  · exact (Dev.imem_settle _).trans (congrArg Dev.imem (s.dev.fresh.rest_err (Pg.newt e) 3 0x0704) :)
  · rw [Dev.fld_settle_newt _ e _ (by decide), Dev.imemStep, Dev.fld_setFld_ne _ _ _ _ (raddr_ne (by decide))]
    exact Dev.fld_err s.dev.fresh _ 3 0x0704

section
variable {e : Fin 192} {r : Fin 2048} {s : State} (hr : s.dev.rst = .running) (hx : (s.dev.testOf e).ended = false)
  (hen : s.dev.flag (Pg.newt e) F.NEWT_CTRL_TEST_EN = true) (hreg : r.val = (s.dev.testOf e).region)
include hr hx hen hreg

/-- A region that is not the last passes (R142). -/
theorem imemTest_next (hlt : (s.dev.testOf e).region + 1 < 32) : ∃ t, exec (.memTestRegion (.imem e) r true) s = .next t
    ∧ (t.dev.testOf e).region = (s.dev.testOf e).region + 1 ∧ (t.dev.testOf e).laps = (s.dev.testOf e).laps
    ∧ t.dev.reg (Pg.newt e) 0x150 = s.dev.reg (Pg.newt e) 0x150 ∧ t.dev.imem = s.dev.imem := by
  have hgo := exec_memTestRegion (.imem e) r true hr
  rw [hreg] at hgo
  refine ⟨_, hgo.trans (congrArg s.becomes (Dev.memTestRegion_next hx hen hlt)), ?_, ?_, Dev.reg_settle_newt _ e (by decide), Dev.imem_settle _⟩
  · rw [Dev.testOf_settle, Dev.testOf_setTest]
    rfl
  · rw [Dev.testOf_settle, Dev.testOf_setTest]
    rfl

/-- The last region of a lap passes (R142). -/
theorem imemTest_lap (hlast : (s.dev.testOf e).region = 31) : ∃ t, exec (.memTestRegion (.imem e) r true) s = .next t
    ∧ (t.dev.testOf e).region = 0 ∧ (t.dev.testOf e).laps = (s.dev.testOf e).laps + 1
    ∧ t.dev.reg (Pg.newt e) 0x150 = BitVec.ofNat 32 ((s.dev.ck - (s.dev.testOf e).since) / 1000) ∧ t.dev.imem = s.dev.imem := by
  have hgo := exec_memTestRegion (.imem e) r true hr
  rw [hreg] at hgo
  refine ⟨_, hgo.trans (congrArg s.becomes (Dev.memTestRegion_lap hx hen hlast)), ?_, ?_, ?_, Dev.imem_settle _⟩
  · rw [Dev.testOf_settle, Dev.testOf_setTest_setReg]
  · rw [Dev.testOf_settle, Dev.testOf_setTest_setReg]
    rfl
  · rw [Dev.reg_settle_newt _ e (by decide), Dev.reg_setReg]
    rfl

/-- The region fails (R143). -/
theorem imemTest_failed : ∃ t, exec (.memTestRegion (.imem e) r false) s = .next t
    ∧ t.dev.fld (Pg.newt e) F.NEWT_TEST_STAT_IMEM_REP = 1 ∧ (t.dev.testOf e).ended = true
    ∧ t.dev.fld (Pg.newt e) (F.ERRCNT 4) = min (s.dev.fld (Pg.newt e) (F.ERRCNT 4) + 1) 0xFFFFFFFF := by
  have hgo := exec_memTestRegion (.imem e) r false hr
  rw [hreg] at hgo
  have hfail := hgo.trans (congrArg s.becomes (Dev.memTestRegion_failed hx hen))
  generalize hd : (s.dev.begin (.memTestRegion (.imem e) r false)).setTest e
    { (s.dev.begin (.memTestRegion (.imem e) r false)).testOf e with ended := true } = d at hfail
  have hregs : d.regs = s.dev.regs := by rw [← hd]; rfl
  obtain ⟨htests, hrep, hcnt⟩ := d.testFailed_imem e
  refine ⟨_, hfail, (Dev.fld_settle_newt _ e _ (by decide)).trans hrep, ?_, (Dev.fld_settle_newt _ e _ (by decide)).trans (hcnt.trans ?_)⟩
  · rw [Dev.testOf_settle, Dev.testOf_of_tests htests, ← hd, Dev.testOf_setTest]
  · unfold Dev.fld
    rw [Dev.reg_congr hregs]

end

/-- Settles O26: the window reads and writes the word at IDX, and the test takes the result of the region it is at. -/
theorem instructionMemoryAndTests : Obligations.InstructionMemoryAndTests := by
  intro e s hr pg i
  exact ⟨fun peek => imemRead_reads e peek hr, fun v hu hst => imemWrite_writes e v hr hu hst,
    fun v hu hoff hhalt => imemWrite_refused e v hr hu (fun h => h.elim hoff hhalt),
    fun r hx hen => ⟨fun hne => (exec_memTestRegion _ r true hr).trans (congrArg s.becomes (Dev.memTestRegion_other _ e true hne)),
      fun hreg hlt => imemTest_next hr hx hen hreg hlt, fun hreg hlast => imemTest_lap hr hx hen hreg hlast,
      fun hreg => imemTest_failed hr hx hen hreg⟩⟩

end Sys2Proof.Machine
end

section
/-! PROOFS. The exceptions of a Newt engine (R155, R156, R162, Table 7-5): what the engine saves, the handler's first instruction, the
exception in the handler, the instructions that raise one, and O24. -/

namespace Sys2Proof.Machine

/-! What an issue leaves of an engine that can take an exception. -/

theorem Dev.afterIssue.mayIssue {d d' : Dev} {e : Fin 192} (h : d.afterIssue d' e) : d'.mayIssue e = d.mayIssue e := by
  have hw : (d'.engOf e).popWait = (d.engOf e).popWait := (congrArg EngSt.popWait h.eng :)
  have hs : (d'.dbgOf e).stop = (d.dbgOf e).stop := congrArg Prod.snd h.dbg
  have ht : d'.tgtState e = d.tgtState e := by
    unfold Dev.tgtState
    rw [if_pos e.isLt, if_pos e.isLt, h.engState]
  unfold Dev.mayIssue
  rw [ht, hw, hs]

theorem Dev.afterIssue.newtReady {d d' : Dev} {e : Fin 192} (h : d.afterIssue d' e) (hr : d.newtReady e) : d'.newtReady e where
  runs := h.mayIssue.trans hr.runs
  task := ((congrArg EngSt.inTrap h.eng :) : (d'.engOf e).inTrap = _).trans hr.task
  keep := ((congrArg EngSt.stopping h.eng :) : (d'.engOf e).stopping = _).trans hr.keep
  pc := by rw [h.tweaks.like.pc]; exact hr.pc
  noDebug := h.ranges hr.noDebug

/-- An exception taken after an issue is one of the engine as the issue found it. -/
theorem Dev.newtTrapped.of_afterIssue {d d' d'' : Dev} {e : Fin 192} {cause addr : Nat} {retry : Bool} (h : d.afterIssue d' e)
    (ht : d'.newtTrapped d'' e cause retry addr) : d.newtTrapped d'' e cause retry addr where
  epc := ht.epc.trans h.tweaks.like.pc
  code := ht.code
  retry := ht.retry
  nested := ht.nested
  badaddr := ht.badaddr
  pc := ht.pc.trans (h.regs F.NEWT_TRAP_VEC_PC (by decide) (by decide))
  first := ht.first.trans (by rw [h.tweaks.ck])
  inTrap := ht.inTrap
  resv := ht.resv
  state := ht.state
  n := ht.n.trans h.tweaks.like.n
  p := ht.p.trans h.tweaks.like.p
  keeps := h.tweaks.keeps.trans ht.keeps

/-! What the engine saves. -/

/-- The engine's state at an exception: no reservation, no error of a store, no instruction that waits. -/
def EngSt.cut (g : EngSt) : EngSt := { g with resv := none, storeErr := none, held := none }

/-- The block at an exception, its stall counted. -/
def Dev.trapHeld (d : Dev) (e : Nat) : Dev := (d.dropFetch e).settleStall e

/-- EPC, CAUSE and BADADDR. -/
def Dev.trapSaved (d : Dev) (e pc cause : Nat) (retry : Bool) (addr : Nat) : Dev :=
  ((((d.setFld (Pg.newt e) F.NEWT_EPC_PC pc).setFld (Pg.newt e) F.NEWT_CAUSE_CODE cause).setFld (Pg.newt e) F.NEWT_CAUSE_RETRY
    (b01 retry)).setFld (Pg.newt e) F.NEWT_CAUSE_NESTED 0).setReg64 (Pg.newt e) 0x114 addr

/-- The count of an exception (Table 7-5). -/
def Dev.trapCounted (d : Dev) (e cause : Nat) : Dev := if cause = 1 then d.err (Pg.newt e) 0 0x0701 else d.err (Pg.newt e) 1 0x0702

/-- The block with the engine's state cut off at the exception. -/
def Dev.trapCut (d : Dev) (e : Nat) : Dev := (d.trapHeld e).setEng e ((d.trapHeld e).engOf e).cut

/-- An exception in the handler is shown and counted. -/
def Dev.trapNested (d : Dev) (e : Nat) : Dev := ((d.setFld (Pg.newt e) F.NEWT_CAUSE_NESTED 1).err (Pg.newt e) 2 0x0703).pend (Pg.newt e) 1

/-- The engine halts: its handler and its task end. -/
def Dev.trapHalts (d : Dev) (e : Nat) : Dev :=
  ((d.setEng e { d.engOf e with inTrap := false, stopping := false, popWait := false }).closeTask e).setEngState e Es.halted

/-- The exception has been counted and what it saves is in the engine's registers. -/
def Dev.trapTaken (d : Dev) (e cause : Nat) (retry : Bool) (addr : Nat) : Dev :=
  ((d.trapCut e).trapCounted e cause).trapSaved e ((d.trapHeld e).engOf e).pc cause retry addr

theorem Dev.newtTrap_eq (d : Dev) (e cause : Nat) (retry : Bool) (addr : Nat) : d.newtTrap e cause retry addr
    = if ¬ d.mayIssue e then d
      else if ((d.trapHeld e).engOf e).inTrap then ((d.trapCut e).trapNested e).trapHalts e
      else
        if (d.trapTaken e cause retry addr).tflag e F.DBG_TGT_CFG_CATCH then
          ((d.trapTaken e cause retry addr).setDbg e { (d.trapTaken e cause retry addr).dbgOf e with caught := true }).detectStop e 1 0
        else (d.trapTaken e cause retry addr).enterTrap e := rfl

theorem Dev.trapHeld_afterIssue (d : Dev) (e : Nat) : d.afterIssue (d.trapHeld e) e :=
  (Dev.afterIssue_of_eproj e (d.eproj_dropFetch e) rfl rfl).trans (Dev.afterIssue_settleStall _ e)

theorem Dev.trapCounted_of (P : Dev → Prop) (d : Dev) (e cause : Nat) (h : ∀ idx code, idx < 2 → P (d.err (Pg.newt e) idx code)) :
    P (d.trapCounted e cause) := by
  unfold Dev.trapCounted
  split
  · exact h 0 _ (by decide)
  · exact h 1 _ (by decide)

theorem Dev.rest_trapCounted (d : Dev) (e cause : Nat) : (d.trapCounted e cause).rest = d.rest :=
  Dev.trapCounted_of (fun x => x.rest = d.rest) d e cause (fun _ _ _ => d.rest_err _ _ _)

theorem Dev.rest_trapSaved (d : Dev) (e pc cause : Nat) (retry : Bool) (addr : Nat) : (d.trapSaved e pc cause retry addr).rest = d.rest := by
  unfold Dev.trapSaved
  rw [Dev.rest_setReg64, Dev.rest_setFld, Dev.rest_setFld, Dev.rest_setFld, Dev.rest_setFld]

/-- The handler's address is not among what an exception saves. -/
theorem Dev.trapVec_trapTaken (d : Dev) (e : Nat) (cause : Nat) (retry : Bool) (addr : Nat) :
    (d.trapTaken e cause retry addr).fld (Pg.newt e) F.NEWT_TRAP_VEC_PC = d.fld (Pg.newt e) F.NEWT_TRAP_VEC_PC := by
  have hcut : (d.trapCut e).fld (Pg.newt e) F.NEWT_TRAP_VEC_PC = d.fld (Pg.newt e) F.NEWT_TRAP_VEC_PC :=
    (d.trapHeld_afterIssue e).regs _ (by decide) (by decide)
  have hcnt : ((d.trapCut e).trapCounted e cause).fld (Pg.newt e) F.NEWT_TRAP_VEC_PC = (d.trapCut e).fld (Pg.newt e) F.NEWT_TRAP_VEC_PC :=
    Dev.trapCounted_of (fun x => x.fld (Pg.newt e) F.NEWT_TRAP_VEC_PC = (d.trapCut e).fld (Pg.newt e) F.NEWT_TRAP_VEC_PC) _ e cause
      (fun idx code hi => Dev.fld_err_other _ _ idx code _ (raddr_ne (by simp only [F.NEWT_TRAP_VEC_PC]; omega)) (raddr_ne (by decide)))
  unfold Dev.trapTaken Dev.trapSaved
  rw [← hcut, ← hcnt]
  unfold Dev.fld
  rw [Dev.reg_setReg64_ne _ _ (raddr_ne (by decide)) (raddr_ne (by decide)), Dev.reg_setFld_ne _ _ _ (raddr_ne (by decide)),
    Dev.reg_setFld_ne _ _ _ (raddr_ne (by decide)), Dev.reg_setFld_ne _ _ _ (raddr_ne (by decide)), Dev.reg_setFld_ne _ _ _ (raddr_ne (by decide))]

/-- EPC, CAUSE and BADADDR as the handler reads them. -/
structure Dev.trapShows (d : Dev) (e pc cause : Nat) (retry : Bool) (addr : Nat) : Prop where
  epc : d.fld (Pg.newt e) F.NEWT_EPC_PC = pc
  code : d.fld (Pg.newt e) F.NEWT_CAUSE_CODE = cause
  retry : d.fld (Pg.newt e) F.NEWT_CAUSE_RETRY = b01 retry
  nested : d.fld (Pg.newt e) F.NEWT_CAUSE_NESTED = 0
  badaddr : d.reg64 (Pg.newt e) 0x114 = addr

theorem Dev.fld_setReg64_ne (d : Dev) (e v : Nat) (f : Fld) (h : f.off = 0x10C ∨ f.off = 0x110) :
    (d.setReg64 (Pg.newt e) 0x114 v).fld (Pg.newt e) f = d.fld (Pg.newt e) f := by
  unfold Dev.fld
  rw [Dev.reg_setReg64_ne _ _ (raddr_ne (by omega)) (raddr_ne (by omega))]

theorem Dev.trapSaved_shows (d : Dev) (e : Nat) {pc cause addr : Nat} (retry : Bool) (hpc : pc < 8192) (hc : cause < 16) (ha : addr < 2 ^ 64) :
    (d.trapSaved e pc cause retry addr).trapShows e pc cause retry addr := by
  have hb : b01 retry < 2 := by cases retry <;> decide
  unfold Dev.trapSaved
  refine ⟨?_, ?_, ?_, ?_, Dev.reg64_setReg64 _ _ _ ha⟩
  · rw [Dev.fld_setReg64_ne _ _ _ _ (.inl rfl), Dev.fld_setFld_ne _ _ _ _ (raddr_ne (by decide)),
      Dev.fld_setFld_ne _ _ _ _ (raddr_ne (by decide)), Dev.fld_setFld_ne _ _ _ _ (raddr_ne (by decide)), Dev.fld_setFld _ _ _ _ (by decide)]
    exact Nat.mod_eq_of_lt hpc
  · rw [Dev.fld_setReg64_ne _ _ _ _ (.inr rfl), Dev.fld_setFld_disj _ _ F.NEWT_CAUSE_NESTED F.NEWT_CAUSE_CODE _ rfl (by decide) (by decide),
      Dev.fld_setFld_disj _ _ F.NEWT_CAUSE_RETRY F.NEWT_CAUSE_CODE _ rfl (by decide) (by decide), Dev.fld_setFld _ _ _ _ (by decide)]
    exact Nat.mod_eq_of_lt hc
  · rw [Dev.fld_setReg64_ne _ _ _ _ (.inr rfl), Dev.fld_setFld_disj _ _ F.NEWT_CAUSE_NESTED F.NEWT_CAUSE_RETRY _ rfl (by decide) (by decide),
      Dev.fld_setFld _ _ _ _ (by decide)]
    exact Nat.mod_eq_of_lt hb
  · rw [Dev.fld_setReg64_ne _ _ _ _ (.inr rfl), Dev.fld_setFld _ _ _ _ (by decide)]
    exact Nat.zero_mod _

/-! The handler. -/

/-- An engine has entered its handler: its state, its page and what it leaves. -/
structure Dev.trapEntered (d d' : Dev) (e : Fin 192) : Prop where
  pc : (d'.engOf e).pc = d.fld (Pg.newt e) F.NEWT_TRAP_VEC_PC
  first : (d'.engOf e).nextCk = d.ck + 4
  inTrap : (d'.engOf e).inTrap = true
  resv : (d'.engOf e).resv = (d.engOf e).resv
  n : (d'.engOf e).n = (d.engOf e).n
  p : (d'.engOf e).p = (d.engOf e).p
  state : d'.engState e = Es.trap
  keeps : d.engKeeps d' e
  regs : ∀ off, 0x100 ≤ off → off < 4096 → d'.reg (Pg.newt e) off = d.reg (Pg.newt e) off

/-- The engine's state as its handler begins. -/
def EngSt.handling (g : EngSt) (vec ck : Nat) : EngSt :=
  { g with inTrap := true, pc := vec, nextCk := ck + 4, offFrom := if g.offFrom = 0 then ck + 1 else g.offFrom }

theorem Dev.enterTrap_eq (d : Dev) (e : Nat) (h : (d.engOf e).stopping = false) : d.enterTrap e
    = (((d.setEng e ((d.engOf e).handling (d.fld (Pg.newt e) F.NEWT_TRAP_VEC_PC) d.ck)).setEngState e Es.trap).pendBits (Pg.newt e) (2 ^ 0)).fetch e :=
  congrArg (fun x : Dev => (x.pendBits (Pg.newt e) (2 ^ 0)).fetch e) (if_neg (by simp [h]))

theorem Dev.enterTrap_entered (d : Dev) (e : Fin 192) (h : (d.engOf e).stopping = false) : d.trapEntered (d.enterTrap e).settle e := by
  rw [d.enterTrap_eq e h]
  generalize hd1 : d.setEng e ((d.engOf e).handling (d.fld (Pg.newt e) F.NEWT_TRAP_VEC_PC) d.ck) = d1
  generalize hd2 : (((d1.setEngState e Es.trap).pendBits (Pg.newt e) (2 ^ 0)).fetch e).settle = d2
  have hp : d2.eproj = d1.eproj := by
    rw [← hd2, Dev.eproj_settle, Dev.eproj_fetch, Dev.eproj_of_rest (Dev.rest_pendBits _ _ _), Dev.eproj_setEngState]
  have heng : d2.engOf e = (d.engOf e).handling (d.fld (Pg.newt e) F.NEWT_TRAP_VEC_PC) d.ck := by
    rw [Dev.engOf_of_eproj hp, ← hd1, Dev.engOf_setEng]
  have hkeeps : d.engKeeps d1 e := by rw [← hd1]; exact d.engKeeps_setEng e _
  have hreg {off : Nat} (hlt : off < 4096) (h1 : off ≠ 0x010) (h2 : off ≠ 0x040) :
      d2.reg (Pg.newt e) off = (d1.setEngState e Es.trap).reg (Pg.newt e) off := by
    rw [← hd2, Dev.reg_settle_newt _ e hlt, Dev.reg_congr (Dev.regs_fetch _ e.isLt),
      Dev.reg_pendBits_ne _ _ _ (raddr_ne (Ne.symm h1)) (raddr_ne (Ne.symm h2))]
  refine ⟨by rw [heng]; rfl, by rw [heng]; rfl, by rw [heng]; rfl, by rw [heng]; rfl, by rw [heng]; rfl, by rw [heng]; rfl, ?_,
    hkeeps.trans (Dev.engKeeps_of_eproj e hp), fun off hlo hhi => ?_⟩
  · refine Eq.trans ?_ (d1.engState_setEngState e (st := Es.trap) (by decide))
    unfold Dev.engState Dev.fld
    rw [hreg (by decide) (by decide) (by decide)]
  · rw [hreg hhi (by omega) (by omega)]
    have hst := d1.fld_setEngState_off e Es.trap ⟨off, 0, 32⟩ (by show off ≠ 0xC; omega)
    rw [Dev.fld_whole, Dev.fld_whole] at hst
    rw [BitVec.eq_of_toNat_eq hst, ← hd1]
    rfl

/-! An engine that can take an exception takes it. -/

theorem Dev.trapTaken_eproj (d : Dev) (e cause : Nat) (retry : Bool) (addr : Nat) :
    (d.trapTaken e cause retry addr).eproj = (d.trapCut e).eproj :=
  Dev.eproj_of_rest ((Dev.rest_trapSaved _ _ _ _ _ _).trans (Dev.rest_trapCounted _ _ _))

theorem Dev.newtTrap_enters (d : Dev) (e : Fin 192) (cause : Nat) (retry : Bool) (addr : Nat) (h : d.newtReady e) :
    d.newtTrap e cause retry addr = (d.trapTaken e cause retry addr).enterTrap e := by
  have hheld := (d.trapHeld_afterIssue e).newtReady h
  have hdbg : ((d.trapTaken e cause retry addr).dbgOf e).regs = [] := by
    unfold Dev.dbgOf
    rw [Dev.dbgs_of_eproj (d.trapTaken_eproj e cause retry addr)]
    exact hheld.noDebug
  have hcatch : (d.trapTaken e cause retry addr).tflag e F.DBG_TGT_CFG_CATCH = false := by
    unfold Dev.tflag Dev.tfld Dev.treg
    rw [hdbg]
    rfl
  rw [Dev.newtTrap_eq, if_neg (by simp [h.runs]), if_neg (by simp [hheld.task]), if_neg (by simp [hcatch])]

theorem Dev.newtTrap_trapped (d : Dev) (e : Fin 192) {cause addr : Nat} (retry : Bool) (h : d.newtReady e) (hc : cause < 16) (ha : addr < 2 ^ 64) :
    d.newtTrapped (d.newtTrap e cause retry addr).settle e cause retry addr := by
  have hheld := d.trapHeld_afterIssue e
  have hp := d.trapTaken_eproj e cause retry addr
  have heng : (d.trapTaken e cause retry addr).engOf e = ((d.trapHeld e).engOf e).cut := by
    rw [Dev.engOf_of_eproj hp, Dev.trapCut, Dev.engOf_setEng]
  have hshow : (d.trapTaken e cause retry addr).trapShows e ((d.trapHeld e).engOf e).pc cause retry addr :=
    Dev.trapSaved_shows _ e retry (hheld.newtReady h).pc hc ha
  have hgo := (d.trapTaken e cause retry addr).enterTrap_entered e (by rw [heng]; exact (hheld.newtReady h).keep)
  have hvec := d.trapVec_trapTaken e cause retry addr
  have hkeep : d.engKeeps (d.trapTaken e cause retry addr) e :=
    (hheld.tweaks.keeps.trans ((d.trapHeld e).engKeeps_setEng e _)).trans (Dev.engKeeps_of_eproj e hp)
  have hck : (d.trapTaken e cause retry addr).ck = d.ck := (Dev.ck_of_eproj hp).trans hheld.tweaks.ck
  rw [d.newtTrap_enters e cause retry addr h]
  generalize d.trapTaken e cause retry addr = d1 at *
  generalize (d1.enterTrap e).settle = d2 at *
  have hfld (f : Fld) (hlo : 0x100 ≤ f.off) (hhi : f.off < 4096) : d2.fld (Pg.newt e) f = d1.fld (Pg.newt e) f := by
    unfold Dev.fld
    rw [hgo.regs _ hlo hhi]
  exact {
    epc := (hfld _ (by decide) (by decide)).trans (hshow.epc.trans hheld.tweaks.like.pc)
    code := (hfld _ (by decide) (by decide)).trans hshow.code
    retry := (hfld _ (by decide) (by decide)).trans hshow.retry
    nested := (hfld _ (by decide) (by decide)).trans hshow.nested
    badaddr := by
      unfold Dev.reg64
      rw [hgo.regs _ (by decide) (by decide), hgo.regs _ (by decide) (by decide)]
      exact hshow.badaddr
    pc := hgo.pc.trans hvec
    first := hgo.first.trans (by rw [hck])
    inTrap := hgo.inTrap
    resv := hgo.resv.trans (by rw [heng]; rfl)
    state := hgo.state
    n := hgo.n.trans (by rw [heng]; exact hheld.tweaks.like.n)
    p := hgo.p.trans (by rw [heng]; exact hheld.tweaks.like.p)
    keeps := hkeep.trans hgo.keeps }

/-! The instructions and commands that raise an exception. -/

theorem Dev.afterIssue_begin (d : Dev) (t : Nat) (i : Instr) : d.afterIssue (d.begin i) t :=
  Dev.afterIssue_of_eproj t (d.eproj_begin i) rfl rfl

/-- A command that is the engine's exception and no more. -/
theorem run_newtTrap {s : State} {e : Fin 192} {cause addr : Nat} (i : Instr) (retry : Bool) (hr : s.dev.rst = .running)
    (h : s.dev.newtReady e) (hc : cause < 16) (ha : addr < 2 ^ 64) :
    ∃ t, s.run i (fun d => d.newtTrap e cause retry addr) = .next t ∧ s.dev.newtTrapped t.dev e cause retry addr :=
  ⟨_, State.run_running _ _ _ hr, Dev.newtTrapped.of_afterIssue (s.dev.afterIssue_begin e i)
    (Dev.newtTrap_trapped _ e retry ((s.dev.afterIssue_begin e i).newtReady h) hc ha)⟩

/-- An instruction that issues and whose effect is the engine's exception. -/
theorem run_issue_except {s : State} {e : Fin 192} {cause addr : Nat} (i : Instr) (x : Isu) (f : Dev → Dev) (hr : s.dev.rst = .running)
    (h : s.dev.newtReady e) (hi : s.dev.canIssue e x) (hc : cause < 16) (ha : addr < 2 ^ 64)
    (hf : ∀ d', s.dev.afterIssue d' e → f d' = d'.newtTrap e cause false addr) :
    ∃ t, s.run i (fun d => d.issue (newtTarget e) i x f) = .next t ∧ s.dev.newtTrapped t.dev e cause false addr := by
  obtain ⟨d', hrun, hd, -⟩ := run_issue (newtTarget e) i x f hr hi
  exact ⟨_, hrun.trans (congrArg s.becomes (hf d' hd)), Dev.newtTrapped.of_afterIssue hd
    (Dev.newtTrap_trapped d' e false (hd.newtReady h) hc ha)⟩

theorem Dev.except_newt (d : Dev) (e : Fin 192) (cause : Nat) (retry : Bool) (addr : Nat) :
    d.except e cause retry addr = d.newtTrap e cause retry addr := if_pos e.isLt

theorem Dev.reservedForm_newt (d : Dev) (e : Fin 192) : d.reservedForm (newtTarget e) = d.newtTrap e 2 false 0 := if_pos e.isLt

/-- The control profile's instructions and the reserved compare modes raise cause 2 of a Newt engine (R162, R168). -/
theorem exec_reserved {e : Fin 192} {dst a : Fin 32} {num : BitVec 11} {pd : Fin 8} {i : Instr} (s : State)
    (h : i ∈ [.csrr (newtTarget e) dst num, .csrw (newtTarget e) dst a num, .csrs (newtTarget e) dst a num, .csrc (newtTarget e) dst a num,
      .eret (newtTarget e), .wfi (newtTarget e), .ecall (newtTarget e), .cmpEq (newtTarget e) pd 3#2 dst a,
      .cmpLtu (newtTarget e) pd 3#2 dst a]) : exec i s = s.run i (fun d => d.newtTrap e 2 false 0) := by
  have hnewt (f : Dev → Dev) : (fun d : Dev => if (newtTarget e).val < 192 then d.reservedForm (newtTarget e) else f d)
      = fun d => d.newtTrap e 2 false 0 := funext fun d => (if_pos e.isLt).trans (d.reservedForm_newt e)
  have hmode (f : Dev → Dev) : (fun d : Dev => if (3#2 : BitVec 2) = 3#2 then d.reservedForm (newtTarget e) else f d)
      = fun d => d.newtTrap e 2 false 0 := funext fun d => (if_pos rfl).trans (d.reservedForm_newt e)
  simp only [List.mem_cons, List.not_mem_nil, or_false] at h
  rcases h with rfl | rfl | rfl | rfl | rfl | rfl | rfl | rfl | rfl
  · exact congrArg (s.run _) (hnewt _)
  · exact congrArg (s.run _) (hnewt _)
  · exact congrArg (s.run _) (hnewt _)
  · exact congrArg (s.run _) (hnewt _)
  · exact congrArg (s.run _) (hnewt _)
  · exact congrArg (s.run _) (hnewt _)
  · exact congrArg (s.run _) (hnewt _)
  · exact congrArg (s.run _) (hmode _)
  · exact congrArg (s.run _) (hmode _)

/-- A field that reaches past bit 63 is a reserved form (R167). -/
theorem exec_reservedField {e : Fin 192} {dst a : Fin 32} {off len1 : Fin 64} {i : Instr} (s : State) (hl : 64 ≤ off.val + len1.val)
    (h : i = .ext (newtTarget e) dst a off len1 ∨ i = .exts (newtTarget e) dst a off len1 ∨ i = .ins (newtTarget e) dst a off len1) :
    exec i s = s.run i (fun d => d.newtTrap e 2 false 0) := by
  have hfield (f : Dev → Dev) : (fun d : Dev => if 64 < off.val + len1.val + 1 then d.reservedForm (newtTarget e) else f d)
      = fun d => d.newtTrap e 2 false 0 := funext fun d => (if_pos (by omega)).trans (d.reservedForm_newt e)
  rcases h with rfl | rfl | rfl
  · exact congrArg (s.run _) (hfield _)
  · exact congrArg (s.run _) (hfield _)
  · exact congrArg (s.run _) (hfield _)

theorem Dev.newtLoad_misaligned (d : Dev) (e : Fin 192) (reg : Fin 32) {size addr : Nat} (sx : Bool) (ecc : Nat) (h : addr % size ≠ 0) :
    d.newtLoad e reg size sx false ecc addr = d.newtTrap e 3 false addr := (if_pos h).trans (d.except_newt e 3 false addr)

theorem Dev.newtLoad_hole (d : Dev) (e : Fin 192) (reg : Fin 32) {size addr : Nat} (sx : Bool) (ecc : Nat) (ha : addr % size = 0)
    (h : newtTgt addr = .hole) : d.newtLoad e reg size sx false ecc addr = d.newtTrap e 4 false addr := by
  unfold Dev.newtLoad
  rw [if_neg (not_not.mpr ha), h]
  exact d.except_newt e 4 false addr

theorem EngSt.ea_lt (g : EngSt) (a : Fin 32) (imm : BitVec 16) : g.ea a imm < 2 ^ 64 := BitVec.isLt _

/-- What a doubleword load of a Newt engine does once it has issued. -/
theorem exec_ld64 (e : Fin 192) (dst a : Fin 32) (imm : BitVec 16) (ecc : Fin 3) (s : State) : exec (.ld64 (newtTarget e) dst a imm ecc) s
    = s.run (.ld64 (newtTarget e) dst a imm ecc) (fun d => d.issue (newtTarget e) (.ld64 (newtTarget e) dst a imm ecc)
        { mSlot := true, reads := [nReg a], writes := [nReg dst] }
        (fun d => d.newtLoad e dst 8 false false ecc ((d.engOf e).ea a imm))) :=
  congrArg (s.run _) (funext fun d => congrArg (d.issue _ _ _) (funext fun _ => if_pos e.isLt))

/-- Every exception of O24 that an engine outside its handler takes. -/
theorem newtExceptions_taken (e : Fin 192) {s : State} (hr : s.dev.rst = .running) (h : s.dev.newtReady e) :
    (s.dev.canIssue e { noSlot := true, alone := true } → ∃ t, exec (.trap (newtTarget e)) s = .next t ∧ s.dev.newtTrapped t.dev e 8 false 0)
    ∧ (∀ (cause : Fin 16) (retry : Bool) (addr : Word64), 1 ≤ cause.val → cause.val ≤ 8 →
        ∃ t, exec (.engineTrap e cause retry addr) s = .next t ∧ s.dev.newtTrapped t.dev e cause retry addr.toNat)
    ∧ (∀ (dst a : Fin 32) (imm : BitVec 16) (ecc : Fin 3), s.dev.canIssue e { mSlot := true, reads := [nReg a], writes := [nReg dst] } →
        let ea := (s.dev.engOf e).ea a imm
        (ea % 8 ≠ 0 → ∃ t, exec (.ld64 (newtTarget e) dst a imm ecc) s = .next t ∧ s.dev.newtTrapped t.dev e 3 false ea)
        ∧ (ea % 8 = 0 → newtTgt ea = .hole → ∃ t, exec (.ld64 (newtTarget e) dst a imm ecc) s = .next t ∧ s.dev.newtTrapped t.dev e 4 false ea)) := by
  refine ⟨fun hi => ?_, fun cause retry addr h1 h8 => ?_, fun dst a imm ecc hi => ⟨fun hal => ?_, fun hal hhole => ?_⟩⟩
  · exact run_issue_except (.trap (newtTarget e)) _ (fun d => d.except e 8 false 0) hr h hi (by decide) (by decide)
      (fun d' _ => d'.except_newt e 8 false 0)
  · have hgo : exec (.engineTrap e cause retry addr) s = s.run (.engineTrap e cause retry addr) (fun d => d.newtTrap e cause retry addr.toNat) :=
      congrArg (s.run _) (funext fun _ => if_pos ⟨h1, h8⟩)
    rw [hgo]
    exact run_newtTrap _ retry hr h cause.isLt addr.isLt
  · rw [exec_ld64]
    exact run_issue_except _ _ _ hr h hi (by decide) (EngSt.ea_lt _ a imm) (fun d' hd => by
      rw [hd.ea]
      exact d'.newtLoad_misaligned e dst false ecc hal)
  · rw [exec_ld64]
    exact run_issue_except _ _ _ hr h hi (by decide) (EngSt.ea_lt _ a imm) (fun d' hd => by
      rw [hd.ea]
      exact d'.newtLoad_hole e dst false ecc hal hhole)

/-! An exception in the handler. -/

/-- An engine has halted on an exception in its handler (R155). -/
structure Dev.trapHalted (d d' : Dev) (e : Fin 192) : Prop where
  state : d'.engState e = Es.halted
  nested : d'.fld (Pg.newt e) F.NEWT_CAUSE_NESTED = 1
  epc : d'.fld (Pg.newt e) F.NEWT_EPC_PC = d.fld (Pg.newt e) F.NEWT_EPC_PC
  code : d'.fld (Pg.newt e) F.NEWT_CAUSE_CODE = d.fld (Pg.newt e) F.NEWT_CAUSE_CODE
  count : d'.fld (Pg.newt e) (F.ERRCNT 2) = min (d.fld (Pg.newt e) (F.ERRCNT 2) + 1) 0xFFFFFFFF
  keeps : d.engKeeps d' e

theorem Dev.rest_trapNested (d : Dev) (e : Nat) : (d.trapNested e).rest = d.rest := by
  unfold Dev.trapNested
  rw [Dev.rest_pend, Dev.rest_err, Dev.rest_setFld]

theorem Dev.trapNested_shows (d : Dev) (e : Nat) : (d.trapNested e).fld (Pg.newt e) F.NEWT_CAUSE_NESTED = 1
    ∧ (d.trapNested e).fld (Pg.newt e) F.NEWT_EPC_PC = d.fld (Pg.newt e) F.NEWT_EPC_PC
    ∧ (d.trapNested e).fld (Pg.newt e) F.NEWT_CAUSE_CODE = d.fld (Pg.newt e) F.NEWT_CAUSE_CODE
    ∧ (d.trapNested e).fld (Pg.newt e) (F.ERRCNT 2) = min (d.fld (Pg.newt e) (F.ERRCNT 2) + 1) 0xFFFFFFFF := by
  have hgo : d.trapNested e = ((d.setFld (Pg.newt e) F.NEWT_CAUSE_NESTED 1).err (Pg.newt e) 2 0x0703).pendBits (Pg.newt e) (2 ^ 1) := rfl
  have hfld (f : Fld) (h : 0x100 ≤ f.off) :
      (d.trapNested e).fld (Pg.newt e) f = (d.setFld (Pg.newt e) F.NEWT_CAUSE_NESTED 1).fld (Pg.newt e) f := by
    rw [hgo, Dev.fld_pend_off _ _ _ _ (by omega) (by omega), Dev.fld_err_other _ _ _ _ _ (raddr_ne (by omega)) (raddr_ne (by omega))]
  refine ⟨?_, ?_, ?_, ?_⟩
  · rw [hfld _ (by decide), Dev.fld_setFld _ _ _ _ (by decide)]
    rfl
  · rw [hfld _ (by decide), Dev.fld_setFld_ne _ _ _ _ (raddr_ne (by decide))]
  · rw [hfld _ (by decide), Dev.fld_setFld_disj _ _ F.NEWT_CAUSE_NESTED F.NEWT_CAUSE_CODE _ rfl (by decide) (by decide)]
  · rw [hgo, Dev.fld_pend_off _ _ _ _ (by decide) (by decide), Dev.fld_err, Dev.fld_setFld_ne _ _ _ _ (raddr_ne (by decide))]

theorem Dev.fld_setEng (d : Dev) (t : Nat) (x : EngSt) (pg : Nat) (f : Fld) : (d.setEng t x).fld pg f = d.fld pg f := rfl

theorem Dev.trapHalts_eq (d : Dev) (e : Nat) (h : (d.engOf e).task = none) : d.trapHalts e
    = (d.setEng e { d.engOf e with inTrap := false, stopping := false, popWait := false }).setEngState e Es.halted := by
  unfold Dev.trapHalts
  rw [Dev.closeTask_none _ (by rw [Dev.engOf_setEng]; exact h)]

/-- The halt leaves the page but for the state. -/
theorem Dev.trapHalts_page (d : Dev) (e : Fin 192) (h : (d.engOf e).task = none) : (d.trapHalts e).settle.engState e = Es.halted
    ∧ d.engKeeps (d.trapHalts e).settle e
    ∧ ∀ f : Fld, f.off < 4096 → f.off ≠ 0xC → (d.trapHalts e).settle.fld (Pg.newt e) f = d.fld (Pg.newt e) f := by
  rw [d.trapHalts_eq e h]
  have hset := d.engKeeps_setEng e { d.engOf e with inTrap := false, stopping := false, popWait := false }
  have hfld (f : Fld) := d.fld_setEng e { d.engOf e with inTrap := false, stopping := false, popWait := false } (Pg.newt e) f
  generalize d.setEng e { d.engOf e with inTrap := false, stopping := false, popWait := false } = d1 at *
  refine ⟨(Dev.engState_settle _ e).trans (d1.engState_setEngState e (by decide)),
    hset.trans (Dev.engKeeps_of_eproj e ((Dev.eproj_settle _).trans (d1.eproj_setEngState e _))), fun f hlt hc => ?_⟩
  rw [Dev.fld_settle_newt _ e f hlt, d1.fld_setEngState_off e _ f hc, hfld]

/-- The cut of the engine's state is an issue's note but for its reservation. -/
theorem Dev.trapCut_page (d : Dev) (e : Fin 192) : ((d.trapCut e).engOf e).task = (d.engOf e).task ∧ d.engKeeps (d.trapCut e) e
    ∧ ∀ f : Fld, f.off ≠ 0x130 → f.off ≠ 0x134 → (d.trapCut e).fld (Pg.newt e) f = d.fld (Pg.newt e) f := by
  have hheld := d.trapHeld_afterIssue e
  unfold Dev.trapCut
  refine ⟨?_, hheld.tweaks.keeps.trans (Dev.engKeeps_setEng _ e _), fun f h1 h2 => ?_⟩
  · rw [Dev.engOf_setEng]
    exact (congrArg EngSt.task hheld.eng :)
  · rw [Dev.fld_setEng, hheld.regs f h1 h2]

theorem Dev.newtTrap_halts (d : Dev) (e : Fin 192) (cause : Nat) (retry : Bool) (addr : Nat) (hm : d.mayIssue e = true)
    (ht : (d.engOf e).inTrap = true) : d.newtTrap e cause retry addr = ((d.trapCut e).trapNested e).trapHalts e := by
  have hin : ((d.trapHeld e).engOf e).inTrap = (d.engOf e).inTrap := (congrArg EngSt.inTrap (d.trapHeld_afterIssue e).eng :)
  rw [Dev.newtTrap_eq, if_neg (by simp [hm]), if_pos (hin.trans ht)]

theorem Dev.newtTrap_nested (d : Dev) (e : Fin 192) (cause : Nat) (retry : Bool) (addr : Nat) (hm : d.mayIssue e = true)
    (ht : (d.engOf e).inTrap = true) (hn : (d.engOf e).task = none) : d.trapHalted (d.newtTrap e cause retry addr).settle e := by
  obtain ⟨htask, hkeep, hfld⟩ := d.trapCut_page e
  rw [d.newtTrap_halts e cause retry addr hm ht]
  generalize d.trapCut e = d1 at *
  obtain ⟨hnest, hepc, hcode, hcnt⟩ := d1.trapNested_shows e
  have hp := Dev.eproj_of_rest (d1.rest_trapNested e)
  have hk : d1.engKeeps (d1.trapNested e) e := Dev.engKeeps_of_eproj e hp
  have heng : ((d1.trapNested e).engOf e).task = none := by rw [Dev.engOf_of_eproj hp, htask]; exact hn
  generalize d1.trapNested e = d2 at *
  obtain ⟨hstate, hkeep2, hout⟩ := d2.trapHalts_page e heng
  exact {
    state := hstate
    nested := by rw [hout _ (by decide) (by decide), hnest]
    epc := by rw [hout _ (by decide) (by decide), hepc, hfld _ (by decide) (by decide)]
    code := by rw [hout _ (by decide) (by decide), hcode, hfld _ (by decide) (by decide)]
    count := by rw [hout _ (by decide) (by decide), hcnt, hfld _ (by decide) (by decide)]
    keeps := hkeep.trans (hk.trans hkeep2) }

/-- ENGINE_TRAP in the handler. -/
theorem engineTrap_nested (e : Fin 192) {cause : Fin 16} (retry : Bool) (addr : Word64) {s : State} (hr : s.dev.rst = .running)
    (hm : s.dev.mayIssue e = true) (ht : (s.dev.engOf e).inTrap = true) (hn : (s.dev.engOf e).task = none) (h1 : 1 ≤ cause.val)
    (h8 : cause.val ≤ 8) : ∃ t, exec (.engineTrap e cause retry addr) s = .next t ∧ s.dev.trapHalted t.dev e := by
  have hgo : exec (.engineTrap e cause retry addr) s = s.run (.engineTrap e cause retry addr) (fun d => d.newtTrap e cause retry addr.toNat) :=
    congrArg (s.run _) (funext fun _ => if_pos ⟨h1, h8⟩)
  refine ⟨_, hgo.trans (State.run_running _ _ _ hr), ?_⟩
  have hb := s.dev.afterIssue_begin e (.engineTrap e cause retry addr)
  have hcnt : (s.dev.begin (.engineTrap e cause retry addr)).fld (Pg.newt e) (F.ERRCNT 2) = s.dev.fld (Pg.newt e) (F.ERRCNT 2) :=
    hb.regs _ (by decide) (by decide)
  generalize s.dev.begin (.engineTrap e cause retry addr) = d at *
  have hh := d.newtTrap_nested e cause retry addr.toNat (hb.mayIssue.trans hm)
    (((congrArg EngSt.inTrap hb.eng :) : (d.engOf e).inTrap = _).trans ht) (((congrArg EngSt.task hb.eng :) : (d.engOf e).task = _).trans hn)
  exact {
    state := hh.state, nested := hh.nested, keeps := hb.tweaks.keeps.trans hh.keeps
    epc := hh.epc.trans (hb.regs _ (by decide) (by decide))
    code := hh.code.trans (hb.regs _ (by decide) (by decide))
    count := hh.count.trans (by rw [hcnt]) }

/-! The budget of a task (R156). -/

theorem engOp_val (e : Fin 192) : engOp e = e := by simp [engOp]

section
variable {d : Dev} {e : Fin 192} (ht : (d.engOf e).task.isSome) (hc : (d.engOf e).taskCk ≠ 0)
  (hl : d.fld (Pg.newt e) F.NEWT_TASK_LIMIT ≠ 0) (ho : (d.engOf e).offFrom = 0)
include ht hc hl ho

theorem Dev.taskLimit_counts : ¬ ((d.engOf e).task.isNone ∨ (d.engOf e).taskCk = 0 ∨ d.fld (Pg.newt e) F.NEWT_TASK_LIMIT = 0
    ∨ (d.engOf e).offFrom ≠ 0) := by
  rw [Option.isNone_iff_eq_none, ← Option.not_isSome_iff_eq_none]
  simp [ht, hc, hl, ho]

theorem Dev.taskLimitExpiry_spent (h : d.fld (Pg.newt e) F.NEWT_TASK_LIMIT ≤ d.ck + 1 - (d.engOf e).taskCk - (d.engOf e).offCk) :
    d.taskLimitExpiry e = d.newtTrap e 6 false 0 := (if_neg (Dev.taskLimit_counts ht hc hl ho)).trans (if_neg (Nat.not_lt.mpr h))

theorem Dev.taskLimitExpiry_left (h : d.ck + 1 - (d.engOf e).taskCk - (d.engOf e).offCk < d.fld (Pg.newt e) F.NEWT_TASK_LIMIT) :
    d.taskLimitExpiry e = d.schedOnce (d.fld (Pg.newt e) F.NEWT_TASK_LIMIT - (d.ck + 1 - (d.engOf e).taskCk - (d.engOf e).offCk))
      (.taskLimitExpiry e) := by
  refine (if_neg (Dev.taskLimit_counts ht hc hl ho)).trans ((if_pos h).trans ?_)
  rw [engOp_val]

end

theorem taskLimitExpiry_step (e : Fin 192) {s : State} (hr : s.dev.rst = .running) (h : s.dev.newtReady e) :
    let g := s.dev.engOf e
    let limit := s.dev.fld (Pg.newt e) F.NEWT_TASK_LIMIT
    g.task.isSome → g.taskCk ≠ 0 → limit ≠ 0 → g.offFrom = 0 →
    (limit ≤ s.dev.ck + 1 - g.taskCk - g.offCk → ∃ t, exec (.taskLimitExpiry e) s = .next t ∧ s.dev.newtTrapped t.dev e 6 false 0)
    ∧ (s.dev.ck + 1 - g.taskCk - g.offCk < limit → ∃ t, exec (.taskLimitExpiry e) s = .next t
        ∧ t.dev.awaits (.taskLimitExpiry e) = true ∧ t.dev.engs = s.dev.engs) := by
  intro g limit ht hc hl ho
  have hrun : exec (.taskLimitExpiry e) s = s.becomes ((s.dev.begin (.taskLimitExpiry e)).taskLimitExpiry e) := State.run_running _ _ _ hr
  refine ⟨fun hs => ?_, fun hs => ?_⟩
  · obtain ⟨t, hgo, htrap⟩ := run_newtTrap (.taskLimitExpiry e) false (cause := 6) (addr := 0) hr h (by decide) (by decide)
    refine ⟨t, hrun.trans (Eq.trans ?_ hgo), htrap⟩
    rw [State.run_running _ _ _ hr, Dev.taskLimitExpiry_spent (d := s.dev.begin (.taskLimitExpiry e)) ht hc hl ho hs]
  · refine ⟨_, hrun.trans (congrArg s.becomes (Dev.taskLimitExpiry_left (d := s.dev.begin (.taskLimitExpiry e)) ht hc hl ho hs)), ?_, ?_⟩
    · rw [Dev.awaits_settle]
      exact Dev.awaits_schedOnce _ _ (decide_eq_true rfl)
    · exact (congrArg Prod.fst ((Dev.eproj_settle _).trans (Dev.eproj_schedOnce _ _ _)) :)

/-- Settles O24: an exception outside the handler enters it, one in the handler halts the engine, and a spent budget is an exception. -/
theorem newtExceptions : Obligations.NewtExceptions := by
  refine ⟨fun e s hr h => ?_, fun e cause retry addr s hr hm ht hn h1 h8 => ?_, fun e s hr h => taskLimitExpiry_step e hr h⟩
  · obtain ⟨htrap, hengine, hload⟩ := newtExceptions_taken e hr h
    refine ⟨htrap, hengine, fun dst a num pd off len1 i hi => ?_, hload⟩
    have hgo : exec i s = s.run i (fun d => d.newtTrap e 2 false 0) := by
      rcases hi with hi | ⟨hl, hi⟩
      · exact exec_reserved s hi
      · exact exec_reservedField s hl hi
    rw [hgo]
    exact run_newtTrap i false hr h (by decide) (by decide)
  · obtain ⟨t, hgo, hh⟩ := engineTrap_nested e retry addr hr hm ht hn h1 h8
    exact ⟨t, hgo, hh.state, hh.nested, hh.epc, hh.code, hh.count, hh.keeps⟩

end Sys2Proof.Machine
end

section
/-! PROOFS. Requests from outside to an engine's scratchpad (R138, R371): what an end point's answer leaves of the block, the unit of a
request a bank serves, the busy time-out. -/

namespace Sys2Proof.Machine

/-! The answer of an end point (R377, R382, R383). -/

/-- What an answer on the network leaves: memory, the scratchpads' queues and the engines' pages. -/
structure Dev.nocKept (d d' : Dev) : Prop where
  mem : d'.mem = d.mem
  spQ : d'.spQ = d.spQ
  page : ∀ (e : Fin 192) (f : Fld), f.off < 4096 → d'.fld (Pg.newt e) f = d.fld (Pg.newt e) f

theorem Dev.nocKept_refl (d : Dev) : d.nocKept d := ⟨rfl, rfl, fun _ _ _ => rfl⟩

theorem Dev.nocKept.trans {d d' d'' : Dev} (h : d.nocKept d') (h' : d'.nocKept d'') : d.nocKept d'' :=
  ⟨h'.mem.trans h.mem, h'.spQ.trans h.spQ, fun e f hf => (h'.page e f hf).trans (h.page e f hf)⟩

theorem Dev.nocKept_ite {d a b : Dev} {c : Prop} [Decidable c] (ha : d.nocKept a) (hb : d.nocKept b) : d.nocKept (if c then a else b) := by
  split <;> assumption

theorem Dev.nocKept_of_regs {d d' : Dev} (hm : d'.mem = d.mem) (hq : d'.spQ = d.spQ) (hr : d'.regs = d.regs) : d.nocKept d' :=
  ⟨hm, hq, fun _ _ _ => by unfold Dev.fld; rw [Dev.reg_congr hr]⟩

theorem raddr_noc_ne (h : Nat) (e : Fin 192) {off off' : Nat} (ho : off < 4096) (ho' : off' < 4096) :
    raddr (Pg.noc h) off ≠ raddr (Pg.newt e) off' := fun hh => by
  have hpg : Blk.noc.base + h = Blk.newt.base + e := (raddr_inj ho ho' hh).1
  have hbase : Blk.newt.base + 192 ≤ Blk.noc.base := by decide
  omega

theorem Dev.spQ_of_rest {d d' : Dev} (h : d'.rest = d.rest) : d'.spQ = d.spQ := (congrArg Dev.spQ h :)
theorem Dev.nocReqs_of_rest {d d' : Dev} (h : d'.rest = d.rest) : d'.nocReqs = d.nocReqs := (congrArg Dev.nocReqs h :)

/-- A count of a half's network. -/
theorem Dev.nocKept_bumpBy (d : Dev) (h k : Nat) (f : Fld) (hf : f.off < 4096) : d.nocKept (d.bumpBy (Pg.noc h) f k) :=
  ⟨Dev.mem_of_rest (d.rest_bumpBy _ _ _), Dev.spQ_of_rest (d.rest_bumpBy _ _ _),
    fun e g hg => d.fld_bumpBy_ne f g k (raddr_noc_ne h e hf hg)⟩

/-- A loop whose steps all leave a part of the block leaves that part. -/
theorem Dev.foldl_leaves {β γ : Type} (g : Dev → γ) (f : Dev → β → Dev) (h : ∀ d x, g (f d x) = g d) (l : List β) (d : Dev) :
    g (l.foldl f d) = g d := by
  induction l generalizing d with
  | nil => rfl
  | cons x r ih => exact (ih (f d x)).trans (h d x)

/-- What a packet's way leaves beside its counts. -/
def Dev.carried (d : Dev) : SMap Byte × SMap (List (Nat × Nat)) × SMap Word × SMap NocReq := (d.mem, d.spQ, d.regs, d.nocReqs)

theorem Dev.nocKept_of_carried {d d' : Dev} (h : d'.carried = d.carried) : d.nocKept d' ∧ d'.nocReqs = d.nocReqs := by
  simp only [Dev.carried, Prod.mk.injEq] at h
  obtain ⟨hm, hq, hr, hn⟩ := h
  exact ⟨Dev.nocKept_of_regs hm hq hr, hn⟩

theorem Dev.carried_occupy (d : Dev) (l : List (Nat × Nat)) (n ck : Nat) : (d.occupy l n ck).carried = d.carried := by
  unfold Dev.occupy
  refine Eq.trans (Dev.foldl_leaves Dev.carried _ (fun _ _ => ?_) l _) ?_
  · rfl
  · rfl

theorem Dev.packet_eq (d : Dev) (a b n k : Nat) : ∃ l ck c, (d.packet a b n k).1 = d.occupy l n ck
    ∨ (d.packet a b n k).1 = (d.bumpBy (Pg.noc (epHalf a)) F.NOC_INJ_WAIT_CNT c).occupy l n ck := by
  unfold Dev.packet
  dsimp only
  split
  · exact ⟨_, _, 0, .inl rfl⟩
  · exact ⟨_, _, _, .inr rfl⟩

theorem Dev.nocKept_packet (d : Dev) (a b n k : Nat) : d.nocKept (d.packet a b n k).1 ∧ (d.packet a b n k).1.nocReqs = d.nocReqs := by
  obtain ⟨l, ck, c, h | h⟩ := d.packet_eq a b n k
  · rw [h]
    exact Dev.nocKept_of_carried (d.carried_occupy l n ck)
  · rw [h]
    obtain ⟨hk, hn⟩ := Dev.nocKept_of_carried (Dev.carried_occupy (d.bumpBy (Pg.noc (epHalf a)) F.NOC_INJ_WAIT_CNT c) l n ck)
    exact ⟨(d.nocKept_bumpBy _ _ F.NOC_INJ_WAIT_CNT (by decide)).trans hk, hn.trans (Dev.nocReqs_of_rest (d.rest_bumpBy _ _ _))⟩

/-- The time-out of a request that is being answered is dropped. -/
def Dev.untimed (d : Dev) (id : Nat) : Dev :=
  { d with agenda := d.agenda.filter (fun (e : Nat × Instr) => !decide (e.2 = .deadTargetTimeout id)) }

theorem Dev.carried_untimed (d : Dev) (id : Nat) : (d.untimed id).carried = d.carried := rfl

theorem Dev.nocReply_eq (d : Dev) {id : Nat} {q : NocReq} (k : Nat) (h : sfind d.nocReqs id = some q) : ∃ due, d.nocReply id k
    = (((d.untimed id).packet q.dst q.src (1 + q.flits) k).1.setReq id { q with ph := .answer }).sched due (.nocResponse id) := by
  unfold Dev.nocReply
  rw [h]
  exact ⟨_, rfl⟩

theorem Dev.nocKept_setReq_sched (d : Dev) (id due : Nat) (q : NocReq) (i : Instr) : d.nocKept ((d.setReq id q).sched due i) :=
  Dev.nocKept_of_regs rfl rfl rfl

theorem Dev.sfind_setReq_sched (d : Dev) (id due : Nat) (q : NocReq) (i : Instr) : sfind ((d.setReq id q).sched due i).nocReqs id = some q :=
  sfind_sput_same d.nocReqs id q

/-- A response on its way: the request keeps what it carries. -/
theorem Dev.nocReply_kept (d : Dev) {id : Nat} {q : NocReq} (k : Nat) (h : sfind d.nocReqs id = some q) :
    d.nocKept (d.nocReply id k) ∧ sfind (d.nocReply id k).nocReqs id = some { q with ph := .answer } := by
  obtain ⟨due, hd⟩ := d.nocReply_eq k h
  have hp := (d.untimed id).nocKept_packet q.dst q.src (1 + q.flits) k
  rw [hd]
  exact ⟨(Dev.nocKept_of_carried (d.carried_untimed id)).1.trans (hp.1.trans (Dev.nocKept_setReq_sched _ _ _ _ _)), Dev.sfind_setReq_sched _ _ _ _ _⟩

theorem Dev.nocAnswer_kept (d : Dev) (id k : Nat) : d.nocKept (d.nocAnswer id k) := by
  unfold Dev.nocAnswer
  split
  · exact d.nocKept_refl
  · next r hr =>
    refine Dev.nocKept_ite ?_ (Dev.nocKept_ite d.nocKept_refl (d.nocReply_kept k hr).1)
    exact (Dev.nocKept_ite (d.nocKept_bumpBy _ 1 F.NOC_ABSORB_CNT (by decide)) d.nocKept_refl).trans (Dev.nocKept_of_regs rfl rfl rfl)

/-- A request whose answer goes out, or is held back, keeps what it carries. -/
theorem Dev.nocAnswer_req (d : Dev) {id : Nat} {q : NocReq} (k : Nat) (h : sfind d.nocReqs id = some q) (hid : id < 2 ^ 40) :
    ∃ r, sfind (d.nocAnswer id k).nocReqs id = some r ∧ r.left = q.left ∧ r.data = q.data := by
  unfold Dev.nocAnswer
  rw [h]
  dsimp only
  rw [if_neg (by omega)]
  exact iteInduction (motive := fun x : Dev => ∃ r, sfind x.nocReqs id = some r ∧ r.left = q.left ∧ r.data = q.data)
    (fun _ => ⟨q, h, rfl, rfl⟩) (fun _ => ⟨_, (d.nocReply_kept k h).2, rfl, rfl⟩)

/-! Enabled bytes. -/

theorem Dev.byte_setSome (d : Dev) (a b : Nat) (l : List (Option Byte)) :
    (d.setSome a l).byte b = if a ≤ b then (l.getD (b - a) none).getD (d.byte b) else d.byte b := by
  induction l generalizing d a with
  | nil => simp [Dev.setSome]
  | cons x r ih =>
    rcases Nat.lt_trichotomy b a with hb | rfl | hb
    · cases x with
      | none => rw [Dev.setSome, ih, if_neg (by omega), if_neg (by omega)]
      | some v => rw [Dev.setSome, ih, if_neg (by omega), if_neg (by omega), d.byte_setByte_ne v (by omega)]
    · cases x with
      | none => rw [Dev.setSome, ih, if_neg (by omega)]; simp
      | some v => rw [Dev.setSome, ih, if_neg (by omega)]; simp
    · obtain ⟨k, rfl⟩ := Nat.exists_eq_add_of_lt hb
      have hk : a + k + 1 - a = k + 1 := by omega
      have hk' : a + k + 1 - (a + 1) = k := by omega
      cases x with
      | none => rw [Dev.setSome, ih, if_pos (by omega), if_pos (by omega), hk, hk', List.getD_cons_succ]
      | some v => rw [Dev.setSome, ih, if_pos (by omega), if_pos (by omega), hk, hk', List.getD_cons_succ, d.byte_setByte_ne v (by omega)]

theorem Dev.spQ_setSome (d : Dev) (a : Nat) (l : List (Option Byte)) : (d.setSome a l).spQ = d.spQ := by
  induction l generalizing d a with
  | nil => rfl
  | cons x r ih =>
    cases x with
    | none => exact ih d (a + 1)
    | some v => exact ih (d.setByte a v) (a + 1)

theorem Dev.writtenSome_leaves (d : Dev) (a : Nat) (l : List (Option Byte)) :
    ((d.writtenSome a l).mem, (d.writtenSome a l).spQ) = (d.mem, d.spQ) :=
  Dev.foldl_leaves (fun x : Dev => (x.mem, x.spQ)) _ (fun d p => by split <;> rfl) _ d

theorem Dev.patchCopy_leaves (d : Dev) (e off : Nat) (l : List (Option Byte)) :
    ((d.patchCopy e off l).mem, (d.patchCopy e off l).spQ) = (d.mem, d.spQ) := by
  unfold Dev.patchCopy
  split
  · rfl
  · split
    · rfl
    · split
      · rfl
      · rfl

/-! A bank serves a unit of a request (R138). -/

/-- Does a byte of a request lie in its unit? -/
def NocReq.inUnit (q : NocReq) (unit x : Nat) : Bool :=
  decide (q.addr / 32 * 32 + 32 * unit ≤ x) && decide (x < q.addr / 32 * 32 + 32 * unit + 32)

/-- The data of a read with the unit's bytes. -/
def Dev.unitRead (d : Dev) (q : NocReq) (unit : Nat) : List Byte :=
  (List.range q.len).map (fun i => if q.inUnit unit (q.addr + i) then d.byte (q.addr + i) else byteAt q.data i)

/-- The unit's enabled bytes of a write. -/
def NocReq.unitWrite (q : NocReq) (unit : Nat) : List (Option Byte) :=
  (q.wr.zipIdx).map (fun (p : Option Byte × Nat) => if q.inUnit unit (q.addr + p.2) then p.1 else none)

theorem NocReq.inUnit_iff (q : NocReq) (unit x : Nat) : q.inUnit unit x = true
    ↔ q.addr / 32 * 32 + 32 * unit ≤ x ∧ x < q.addr / 32 * 32 + 32 * unit + 32 := by simp [NocReq.inUnit]

theorem Dev.byteAt_unitRead (d : Dev) (q : NocReq) (unit : Nat) {i : Nat} (h : i < q.len) :
    byteAt (d.unitRead q unit) i = if q.inUnit unit (q.addr + i) then d.byte (q.addr + i) else byteAt q.data i := by
  unfold Dev.unitRead byteAt
  simp [List.getD, h]

theorem NocReq.getD_unitWrite (q : NocReq) (unit i : Nat) :
    (q.unitWrite unit).getD i none = if q.inUnit unit (q.addr + i) then q.wr.getD i none else none := by
  unfold NocReq.unitWrite
  rcases Nat.lt_or_ge i q.wr.length with h | h
  · simp [List.getD, h]
  · simp [List.getD, h]

/-- The block with a unit read. -/
def Dev.spRead (d : Dev) (id : Nat) (q : NocReq) (unit ecc : Nat) : Dev :=
  (d.ocm Oc.scratch ecc).setReq id { q with data := d.unitRead q unit, bad := if ecc = 2 then unit :: q.bad else q.bad, left := q.left - 1 }

/-- The block with a unit written. -/
def Dev.spWrite (d : Dev) (e id : Nat) (q : NocReq) (unit : Nat) : Dev :=
  (((d.setSome q.addr (q.unitWrite unit)).writtenSome q.addr (q.unitWrite unit)).patchCopy e (q.addr - Na.sp e) (q.unitWrite unit)).setReq id
    { q with left := q.left - 1 }

/-- A request's last unit is answered. -/
def Dev.spDone (d : Dev) (id : Nat) (q : NocReq) : Dev := if q.left = 1 then d.nocAnswer id 3 else d

theorem Dev.spServe_read (d : Dev) (e unit ecc : Nat) {id : Nat} {q : NocReq} (h : sfind d.nocReqs id = some q) (ho : q.op = .read) :
    d.spServe e id unit ecc = (d.spRead id q unit ecc).spDone id q := by
  have hres : (if q.op = .readRes then d.reserve e (q.addr / 8 * 8) q.src else d) = d := if_neg (by simp [ho])
  unfold Dev.spServe
  rw [h]
  refine congrArg (fun x : Dev => x.spDone id q) ((if_pos (.inl ho)).trans ?_)
  rw [hres]
  rfl

theorem Dev.spServe_write (d : Dev) (e unit ecc : Nat) {id : Nat} {q : NocReq} (h : sfind d.nocReqs id = some q) (ho : q.op = .write) :
    d.spServe e id unit ecc = (d.spWrite e id q unit).spDone id q := by
  unfold Dev.spServe
  rw [h]
  exact congrArg (fun x : Dev => x.spDone id q) ((if_neg (by simp [ho])).trans (if_neg (by simp [ho])))

/-- What the end of a unit leaves: memory, the queues, what the request carries. -/
theorem Dev.spDone_kept (d : Dev) {id : Nat} (q : NocReq) {r : NocReq} (h : sfind d.nocReqs id = some r) (hid : id < 2 ^ 40) :
    d.nocKept (d.spDone id q).settle ∧ ∃ r', sfind (d.spDone id q).settle.nocReqs id = some r' ∧ r'.left = r.left ∧ r'.data = r.data := by
  have hset (x : Dev) : x.nocKept x.settle := ⟨Dev.mem_of_rest x.rest_settle, Dev.spQ_of_rest x.rest_settle, fun e f hf => x.fld_settle_newt e f hf⟩
  rw [Dev.nocReqs_of_rest (Dev.rest_settle _)]
  unfold Dev.spDone
  split
  · exact ⟨(d.nocAnswer_kept id 3).trans (hset _), d.nocAnswer_req 3 h hid⟩
  · exact ⟨hset d, r, h, rfl, rfl⟩

theorem Dev.sched_leaves (d : Dev) (k : Nat) (i : Instr) : (d.sched k i).mem = d.mem ∧ (d.sched k i).spQ = d.spQ := ⟨rfl, rfl⟩

theorem Dev.rest_leaves {d d' : Dev} (h : d'.rest = d.rest) : d'.mem = d.mem ∧ d'.spQ = d.spQ := ⟨Dev.mem_of_rest h, Dev.spQ_of_rest h⟩

theorem Dev.ocm_leaves (d : Dev) (m k : Nat) : (d.ocm m k).mem = d.mem ∧ (d.ocm m k).spQ = d.spQ := by
  unfold Dev.ocm Dev.bump
  split_ifs
  · rw [(Dev.sched_leaves _ _ _).1, (Dev.sched_leaves _ _ _).2]
    exact Dev.rest_leaves (d.rest_bumpBy _ _ _)
  · rw [(Dev.sched_leaves _ _ _).1, (Dev.sched_leaves _ _ _).2]
    exact Dev.rest_leaves (d.rest_bumpBy _ _ _)
  · exact Dev.rest_leaves ((Dev.rest_err _ _ _ _).trans (d.rest_bumpBy _ _ _))
  · exact ⟨rfl, rfl⟩

theorem Dev.spRead_leaves (d : Dev) (id unit ecc : Nat) (q : NocReq) : (d.spRead id q unit ecc).mem = d.mem
    ∧ (d.spRead id q unit ecc).spQ = d.spQ := d.ocm_leaves Oc.scratch ecc

theorem Dev.spWrite_leaves (d : Dev) (e id unit : Nat) (q : NocReq) :
    (d.spWrite e id q unit).mem = (d.setSome q.addr (q.unitWrite unit)).mem ∧ (d.spWrite e id q unit).spQ = d.spQ := by
  have hp := (Dev.patchCopy_leaves ((d.setSome q.addr (q.unitWrite unit)).writtenSome q.addr (q.unitWrite unit)) e (q.addr - Na.sp e)
    (q.unitWrite unit)).trans (Dev.writtenSome_leaves (d.setSome q.addr (q.unitWrite unit)) q.addr (q.unitWrite unit))
  rw [Dev.spQ_setSome] at hp
  exact ⟨congrArg Prod.fst hp, congrArg Prod.snd hp⟩

/-- A byte after the write of a unit. -/
theorem Dev.byte_unitWrite (d : Dev) (q : NocReq) (unit a : Nat) :
    (∀ i v, i < q.wr.length → q.wr.getD i none = some v → q.inUnit unit (q.addr + i) → a = q.addr + i →
      (d.setSome q.addr (q.unitWrite unit)).byte a = v)
    ∧ ((∀ i, i < q.wr.length → q.inUnit unit (q.addr + i) → a ≠ q.addr + i) → (d.setSome q.addr (q.unitWrite unit)).byte a = d.byte a) := by
  refine ⟨fun i v _ hv hm ha => ?_, fun hno => ?_⟩
  · subst ha
    rw [Dev.byte_setSome, if_pos (Nat.le_add_right _ _), Nat.add_sub_cancel_left, NocReq.getD_unitWrite, if_pos hm, hv]
    rfl
  · rw [Dev.byte_setSome]
    split
    · next hle =>
      obtain ⟨i, rfl⟩ := Nat.exists_eq_add_of_le hle
      rw [Nat.add_sub_cancel_left, NocReq.getD_unitWrite]
      split
      · next hm =>
        have hlen : q.wr.length ≤ i := Nat.le_of_not_lt fun hi => hno i hi hm rfl
        rw [List.getD_eq_default _ _ hlen]
        rfl
      · rfl
    · rfl

end Sys2Proof.Machine
end

section
/-! PROOFS. The commands that serve an engine's memories and its own requests (R138, R140, R157, R171, R371), and O21. -/

namespace Sys2Proof.Machine

/-! SCRATCHPAD_REQUEST (R138). -/

theorem exec_scratchpadRequest (e : Fin 192) (bank : Fin 4) (ecc : Fin 3) {s : State} (hr : s.dev.rst = .running) :
    exec (.scratchpadRequest e bank ecc) s = s.becomes ((s.dev.begin (.scratchpadRequest e bank ecc)).scratchpadRequest e bank ecc) :=
  State.run_running _ _ _ hr

theorem Dev.scratchpadRequest_none (d : Dev) {e bank : Nat} (ecc : Nat) (h : sget [] d.spQ (e * 4 + bank) = []) :
    d.scratchpadRequest e bank ecc = d := by
  unfold Dev.scratchpadRequest
  simp only [h]

/-- The bank's only request has left its queue. -/
def Dev.spTaken (d : Dev) (key : Nat) : Dev := { d with spQ := sset [] d.spQ key [] }

theorem Dev.scratchpadRequest_serves (d : Dev) {e bank x c : Nat} (ecc : Nat) (h : sget [] d.spQ (e * 4 + bank) = [(x, c)])
    (hb : d.bankBusy e bank = false) (ha : ∀ a ∈ d.agenda, d.ck < a.1 ∨ insTarget a.2 ≠ some e) :
    d.scratchpadRequest e bank ecc = (d.spTaken (e * 4 + bank)).spServe e (x / 64) (x % 64) ecc := by
  have hidle : d.agenda.any (fun (a : Nat × Instr) => decide (a.1 ≤ d.ck) && decide (insTarget a.2 = some e)) = false := by
    rw [List.any_eq_false]
    intro a hmem
    rcases ha a hmem with hlt | hne
    · simp [Nat.not_le.mpr hlt]
    · simp [hne]
  unfold Dev.scratchpadRequest
  simp only [h, hidle, hb, Bool.false_eq_true, if_false, if_true]
  rfl

theorem Dev.spQ_spTaken (d : Dev) (key : Nat) : sget [] (d.spTaken key).spQ key = [] := sget_sset_same [] d.spQ key []

section
variable (d : Dev) (key e unit ecc : Nat) {id : Nat} {q : NocReq} (h : sfind d.nocReqs id = some q) (hid : id < 2 ^ 40)
include h hid

/-- A unit read for a request from outside. -/
theorem Dev.spServe_reads (ho : q.op = .read) : ∃ r, sfind ((d.spTaken key).spServe e id unit ecc).settle.nocReqs id = some r
    ∧ r.left = q.left - 1 ∧ ((d.spTaken key).spServe e id unit ecc).settle.mem = d.mem
    ∧ sget [] ((d.spTaken key).spServe e id unit ecc).settle.spQ key = []
    ∧ ∀ i, i < q.len → byteAt r.data i = if q.inUnit unit (q.addr + i) then d.byte (q.addr + i) else byteAt q.data i := by
  rw [Dev.spServe_read (d.spTaken key) e unit ecc h ho]
  obtain ⟨hm, hq⟩ := (d.spTaken key).spRead_leaves id unit ecc q
  obtain ⟨hk, r, hr, hl, hd⟩ := ((d.spTaken key).spRead id q unit ecc).spDone_kept q (sfind_sput_same _ _ _) hid
  refine ⟨r, hr, hl, hk.mem.trans hm, ?_, fun i hi => ?_⟩
  · rw [hk.spQ, hq]
    exact d.spQ_spTaken key
  · rw [hd]
    exact (d.spTaken key).byteAt_unitRead q unit hi

/-- A unit written for a request from outside. -/
theorem Dev.spServe_writes (ho : q.op = .write) : ∃ r, sfind ((d.spTaken key).spServe e id unit ecc).settle.nocReqs id = some r
    ∧ r.left = q.left - 1 ∧ sget [] ((d.spTaken key).spServe e id unit ecc).settle.spQ key = []
    ∧ ∀ a, (((d.spTaken key).spServe e id unit ecc).settle).byte a = (d.setSome q.addr (q.unitWrite unit)).byte a := by
  rw [Dev.spServe_write (d.spTaken key) e unit ecc h ho]
  obtain ⟨hm, hq⟩ := (d.spTaken key).spWrite_leaves e id unit q
  obtain ⟨hk, r, hr, hl, hd⟩ := ((d.spTaken key).spWrite e id q unit).spDone_kept q (sfind_sput_same _ _ _) hid
  refine ⟨r, hr, hl, ?_, fun a => ?_⟩
  · rw [hk.spQ, hq]
    exact d.spQ_spTaken key
  · have hbyte : (((d.spTaken key).spWrite e id q unit).spDone id q).settle.byte a = ((d.spTaken key).setSome q.addr (q.unitWrite unit)).byte a := by
      unfold Dev.byte
      rw [hk.mem, hm]
    rw [hbyte, Dev.byte_setSome, Dev.byte_setSome]
    rfl

end

/-! SCRATCHPAD_BUSY_TIMEOUT (R138). -/

/-- Does a request wait for a bank? -/
def Dev.spWaits (d : Dev) (id : Nat) : Bool :=
  d.spQ.any (fun (x : Nat × List (Nat × Nat)) => x.2.any (fun (y : Nat × Nat) => y.1 / 64 = id))

/-- Banks' queues without a request. -/
def spFreed (l : SMap (List (Nat × Nat))) (id : Nat) : SMap (List (Nat × Nat)) :=
  (l.map (fun (x : Nat × List (Nat × Nat)) => (x.1, x.2.filter (fun (y : Nat × Nat) => y.1 / 64 ≠ id)))).filter
    (fun (x : Nat × List (Nat × Nat)) => decide (x.2 ≠ []))

/-- The banks without a request. -/
def Dev.spLeft (d : Dev) (id : Nat) : Dev := { d with spQ := spFreed d.spQ id }

theorem Dev.spLeft_none (d : Dev) (id : Nat) : ∀ x ∈ (d.spLeft id).spQ, ∀ y ∈ x.2, y.1 / 64 ≠ id := by
  intro x hx y hy
  obtain ⟨z, -, rfl⟩ := List.mem_map.mp (List.mem_filter.mp hx).1
  simpa using (List.mem_filter.mp hy).2

theorem Dev.spWaits_iff (d : Dev) (id : Nat) : d.spWaits id = true ↔ ∃ x ∈ d.spQ, ∃ y ∈ x.2, y.1 / 64 = id := by
  simp [Dev.spWaits, List.any_eq_true]

/-- The request of a time-out is answered busy. -/
def Dev.spBusy (d : Dev) (e id : Nat) : Dev :=
  (((d.spLeft id).bump (Pg.newt e) F.NEWT_SP_BUSY_CNT).err (Pg.newt e) 6 0x0707).nocFail id 0 Ns.busy

theorem Dev.scratchpadTimeout_eq (d : Dev) {id : Nat} {q : NocReq} (h : sfind d.nocReqs id = some q) :
    d.scratchpadTimeout id = if ¬ d.spWaits id then d else d.spBusy ((q.addr - Na.sp 0) / 0x2_0000) id := by
  unfold Dev.scratchpadTimeout
  rw [h]
  rfl

theorem Dev.nocKept_setReq (d : Dev) (id : Nat) (q : NocReq) : d.nocKept (d.setReq id q) := Dev.nocKept_of_regs rfl rfl rfl

theorem Dev.nocFail_kept (d : Dev) (id k status : Nat) : d.nocKept (d.nocFail id k status) := by
  unfold Dev.nocFail
  split
  · exact d.nocKept_refl
  · next r _ => exact (d.nocKept_setReq id { r with status := status }).trans (Dev.nocAnswer_kept _ id k)

theorem Dev.spBusy_leaves (d : Dev) (e id : Nat) : (∀ x ∈ (d.spBusy e id).spQ, ∀ y ∈ x.2, y.1 / 64 ≠ id) ∧ (d.spBusy e id).mem = d.mem := by
  have hk := Dev.nocFail_kept (((d.spLeft id).bump (Pg.newt e) F.NEWT_SP_BUSY_CNT).err (Pg.newt e) 6 0x0707) id 0 Ns.busy
  have hrest : (((d.spLeft id).bump (Pg.newt e) F.NEWT_SP_BUSY_CNT).err (Pg.newt e) 6 0x0707).rest = (d.spLeft id).rest :=
    (Dev.rest_err _ _ _ _).trans (Dev.rest_bumpBy _ _ _ _)
  unfold Dev.spBusy
  rw [hk.spQ, hk.mem, Dev.spQ_of_rest hrest, Dev.mem_of_rest hrest]
  exact ⟨d.spLeft_none id, rfl⟩

theorem Dev.spBusy_counts (d : Dev) (e : Fin 192) (id : Nat) : (d.spBusy e id).fld (Pg.newt e) (F.ERRCNT 6)
    = min (d.fld (Pg.newt e) (F.ERRCNT 6) + 1) 0xFFFFFFFF := by
  unfold Dev.spBusy
  rw [(Dev.nocFail_kept _ id 0 Ns.busy).page e (F.ERRCNT 6) (by decide), Dev.fld_err, Dev.bump,
    Dev.fld_bumpBy_ne _ _ _ _ (raddr_ne (by decide))]
  rfl

theorem exec_scratchpadBusyTimeout (id : Nat) {s : State} {q : NocReq} (hr : s.dev.rst = .running) (h : sfind s.dev.nocReqs id = some q) :
    exec (.scratchpadBusyTimeout id) s = s.becomes (if ¬ s.dev.spWaits id then s.dev.begin (.scratchpadBusyTimeout id)
      else (s.dev.begin (.scratchpadBusyTimeout id)).spBusy ((q.addr - Na.sp 0) / 0x2_0000) id) :=
  (State.run_running _ _ _ hr).trans (congrArg s.becomes ((s.dev.begin (.scratchpadBusyTimeout id)).scratchpadTimeout_eq h))

/-- A request that waits is taken out of its bank, counted and answered. -/
theorem scratchpadBusyTimeout_busy {s : State} {id : Nat} {q : NocReq} (hr : s.dev.rst = .running) (h : sfind s.dev.nocReqs id = some q)
    (hw : ∃ x ∈ s.dev.spQ, ∃ y ∈ x.2, y.1 / 64 = id) : ∃ t, exec (.scratchpadBusyTimeout id) s = .next t
      ∧ (∀ x ∈ t.dev.spQ, ∀ y ∈ x.2, y.1 / 64 ≠ id) ∧ t.dev.mem = s.dev.mem
      ∧ ∀ e : Fin 192, (q.addr - Na.sp 0) / 0x2_0000 = e →
          t.dev.fld (Pg.newt e) (F.ERRCNT 6) = min (s.dev.fld (Pg.newt e) (F.ERRCNT 6) + 1) 0xFFFFFFFF := by
  have hgo := exec_scratchpadBusyTimeout id hr h
  rw [if_neg (not_not.mpr ((s.dev.spWaits_iff id).mpr hw))] at hgo
  obtain ⟨hq, hm⟩ := (s.dev.begin (.scratchpadBusyTimeout id)).spBusy_leaves ((q.addr - Na.sp 0) / 0x2_0000) id
  refine ⟨_, hgo, ?_, (Dev.mem_of_rest (Dev.rest_settle _)).trans hm, fun e he => ?_⟩
  · rw [Dev.spQ_of_rest (Dev.rest_settle _)]
    exact hq
  · rw [Dev.fld_settle_newt _ e _ (by decide), he, Dev.spBusy_counts]
    rfl

/-! A load's value comes (R140, R171). -/

theorem Dev.reg_loaded (d : Dev) (t r : Nat) (v : Word64) (k : Nat) :
    ((d.loaded t r v k).engOf t).reg (Fin.ofNat 32 r) = if Fin.ofNat 32 r = 0 then 0#64 else v := by
  obtain ⟨was, -, heng⟩ := (d.unawait t r).engOf_result_load t (Fin.ofNat 32 r) v k
  unfold Dev.loaded
  rw [heng]
  exact EngSt.reg_setReg _ _ _

theorem Dev.unawait_eq (d : Dev) (t r : Nat) : ∃ x, d.unawait t r = d.setEng t x := by
  unfold Dev.unawait
  dsimp only
  split
  · exact ⟨_, rfl⟩
  · exact ⟨_, rfl⟩

theorem Dev.result_load_eq (d : Dev) (t : Nat) (r : Fin 32) (v : Word64) (k : Nat) : ∃ x, d.result t r v k true = d.setEng t x := by
  unfold Dev.result
  dsimp only
  rw [if_neg (by simp)]
  exact ⟨_, rfl⟩

theorem Dev.wake_eq (d : Dev) (t k : Nat) : d.wake t k = d ∨ ∃ i, d.wake t k = (d.dropFetch t).sched k i := by
  unfold Dev.wake
  split
  · exact .inr ⟨_, rfl⟩
  · exact .inl rfl

/-- What the coming of a load's value leaves beside engines: memory, records and the requests. -/
def Dev.stores (d : Dev) : SMap Byte × SMap Rec × SMap (List BayReq) × SMap NocReq := (d.mem, d.recs, d.bayQ, d.nocReqs)

theorem Dev.parts_of_stores {d d' : Dev} (h : d'.stores = d.stores) :
    d'.mem = d.mem ∧ d'.recs = d.recs ∧ d'.bayQ = d.bayQ ∧ d'.nocReqs = d.nocReqs := by
  simpa only [Dev.stores, Prod.mk.injEq] using h

theorem Dev.stores_of_rest {d d' : Dev} (h : d'.rest = d.rest) : d'.stores = d.stores := (congrArg Dev.stores h :)
theorem Dev.stores_setEng (d : Dev) (t : Nat) (x : EngSt) : (d.setEng t x).stores = d.stores := rfl
theorem Dev.stores_sched (d : Dev) (k : Nat) (i : Instr) : (d.sched k i).stores = d.stores := rfl
theorem Dev.stores_dropFetch_sched (d : Dev) (t k : Nat) (i : Instr) : ((d.dropFetch t).sched k i).stores = d.stores := rfl
theorem Dev.stores_setGk (d : Dev) (k : Nat) (x : GkSt) : (d.setGk k x).stores = d.stores := rfl

theorem Dev.stores_loaded (d : Dev) (t r : Nat) (v : Word64) (k : Nat) : (d.loaded t r v k).stores = d.stores := by
  obtain ⟨x, hx⟩ := d.unawait_eq t r
  obtain ⟨y, hy⟩ := (d.unawait t r).result_load_eq t (Fin.ofNat 32 r) v k
  unfold Dev.loaded
  rw [hy, Dev.stores_setEng, hx, Dev.stores_setEng]

theorem Dev.stores_wake (d : Dev) (t k : Nat) : (d.wake t k).stores = d.stores := by
  rcases d.wake_eq t k with h | ⟨i, h⟩
  · rw [h]
  · rw [h, Dev.stores_dropFetch_sched]

theorem Dev.engOf_wake (d : Dev) (t k u : Nat) : (d.wake t k).engOf u = d.engOf u := by
  rcases d.wake_eq t k with h | ⟨i, h⟩
  · rw [h]
  · rw [h]; rfl

theorem Dev.stores_ocm (d : Dev) (m k : Nat) : (d.ocm m k).stores = d.stores := by
  unfold Dev.ocm Dev.bump
  split_ifs
  · rw [Dev.stores_sched, Dev.stores_of_rest (Dev.rest_bumpBy _ _ _ _)]
  · rw [Dev.stores_sched, Dev.stores_of_rest (Dev.rest_bumpBy _ _ _ _)]
  · rw [Dev.stores_of_rest (Dev.rest_err _ _ _ _), Dev.stores_of_rest (Dev.rest_bumpBy _ _ _ _)]
  · rfl

theorem Dev.stores_gkRaise (d : Dev) (k n : Nat) : (d.gkRaise k n).stores = d.stores := by
  unfold Dev.gkRaise
  dsimp only
  split
  · rfl
  · rw [Dev.stores_setGk]

theorem Dev.stores_poisonLoad (d : Dev) (t : Nat) : (d.poisonLoad t).stores = d.stores := by
  have hcount : ((d.bump (Pg.newt t) F.NEWT_POISON_CNT).err (Pg.newt t) 5 0x0706).stores = d.stores :=
    Dev.stores_of_rest ((Dev.rest_err _ _ _ _).trans (Dev.rest_bumpBy _ _ _ _))
  unfold Dev.poisonLoad
  split
  · dsimp only
    split
    · rw [Dev.stores_of_rest (Dev.rest_setFld _ _ _ _), Dev.stores_setEng, hcount]
    · exact hcount
  · rw [Dev.stores_of_rest (Dev.rest_err _ _ _ _), Dev.stores_gkRaise]

theorem Dev.stores_ocmLoad (d : Dev) (t cls ecc : Nat) : (d.ocmLoad t cls ecc).stores = d.stores := by
  unfold Dev.ocmLoad
  dsimp only
  split
  · rw [Dev.stores_poisonLoad, Dev.stores_ocm]
  · exact d.stores_ocm cls ecc

/-- A load's value has come, and the instruction that waits for it tries again. -/
theorem Dev.loaded_wake (d : Dev) (t r : Nat) (v : Word64) (k k' : Nat) :
    (((d.loaded t r v k).wake t k').settle.engOf t).reg (Fin.ofNat 32 r) = (if Fin.ofNat 32 r = 0 then 0#64 else v)
      ∧ ((d.loaded t r v k).wake t k').settle.stores = d.stores := by
  refine ⟨?_, ?_⟩
  · rw [Dev.engOf_of_eproj (Dev.eproj_settle _), Dev.engOf_wake, Dev.reg_loaded]
  · rw [Dev.stores_of_rest (Dev.rest_settle _), Dev.stores_wake, Dev.stores_loaded]

/-! BAY_MEM_ARBITRATE with one request (R140). -/

theorem contenders_single {now : Nat} {r : BayReq} (h : r.due ≤ now) : contenders now [r] [] = [r] := by
  unfold contenders
  rw [if_neg (by simp [Nat.not_lt.mpr h])]
  rfl

theorem bayWinner_single {r : BayReq} (h : r.lost < 8) : bayWinner [r] = some r := by
  unfold bayWinner
  simp [Nat.not_le.mpr h]

/-- The bank's only request has left it. -/
def Dev.bayTaken (d : Dev) (key : Nat) : Dev := { d with bayQ := sset [] d.bayQ key [] }

/-- A bank's only request wins, and no other loses. -/
theorem Dev.bayArbitrate_single (d : Dev) {b bank : Nat} {r : BayReq} (ecc : Nat) (h : sget [] d.bayQ (b * 16 + bank) = [r])
    (ht : d.bayTurn b r = true) (hd : r.due ≤ d.ck) (hl : r.lost < 8) :
    d.bayArbitrate b bank [] ecc = (d.bayTaken (b * 16 + bank)).bayServe b r ecc := by
  have hcs : contenders d.ck ([r].filter (fun r => d.bayTurn b r)) [] = [r] := by
    rw [List.filter_cons_of_pos (by simpa using ht), List.filter_nil, contenders_single hd]
  unfold Dev.bayArbitrate
  simp only [List.filter_nil, List.map_nil, List.append_nil, h, hcs, bayWinner_single hl]
  have hnone : [r].filter (fun q => decide (q.who ≠ r.who)) = [] := by simp
  simp only [hnone, List.erase_cons_head, List.map_nil, if_true, List.foldl_nil, Nat.not_lt_zero, if_false, Nat.not_le.mpr hl]
  rfl

/-- A load of an engine that has won its bank. -/
theorem Dev.bayServe_load (d : Dev) {b : Nat} {r : BayReq} {o : Nat × Nat × Nat × Bool} (ecc : Nat) (hw : r.who < 16) (ho : r.load = some o)
    (hlr : r.lr = false) : ∃ d' : Dev, d.bayServe b r ecc
      = (d'.loaded (16 * b + r.who) o.1 (loadVal o.2.2.1 o.2.2.2 (((d.bytes (Na.bay b + r.word) 8).drop o.2.1).take o.2.2.1)) 5).wake (16 * b + r.who) 5
    ∧ d'.stores = d.stores := by
  refine ⟨(d.setEng (16 * b + r.who) { d.engOf (16 * b + r.who) with bayCk := d.ck + 1 }).ocmLoad (16 * b + r.who) Oc.bay ecc, ?_, ?_⟩
  · unfold Dev.bayServe
    simp only [if_pos hw, ho, hlr, Bool.false_eq_true, if_false]
  · rw [Dev.stores_ocmLoad, Dev.stores_setEng]

/-! REMOTE_RESPONSE to a load (R171). -/

/-- The response has been taken: the request is gone, a store of its number is no longer outstanding. -/
def Dev.respTaken (d : Dev) (t id : Nat) : Dev :=
  ({ d with nocReqs := serase d.nocReqs id } : Dev).setEng t { d.engOf t with stores := (d.engOf t).stores.filter (fun x => x ≠ id) }

theorem Dev.remoteResponse_load (d : Dev) {t id reg size : Nat} {e : Nat} {sx : Bool} {q : NocReq} (h : sfind d.nocReqs id = some q)
    (hp : q.ph = .done) (hw : q.who = .load e reg size sx) (hs : q.status = Ns.ok) : ∃ d' : Dev, d.remoteResponse t id
      = (d'.loaded t reg (loadVal size sx q.data) 0).wake t 0 ∧ d'.stores = (d.respTaken t id).stores := by
  refine ⟨if q.bad ≠ [] then (d.respTaken t id).poisonLoad t else d.respTaken t id, ?_, ?_⟩
  · unfold Dev.remoteResponse
    rw [h]
    refine (if_neg (not_not.mpr hp)).trans ?_
    rw [hw]
    exact congrArg (fun x : Dev => x.wake t 0) (if_neg (by simp [hs]))
  · split
    · rw [Dev.stores_poisonLoad]
    · rfl

/-! The commands. -/

/-- SCRATCHPAD_REQUEST of a bank the engine leaves idle (R138). -/
theorem scratchpadRequest_serves (e : Fin 192) (bank : Fin 4) (ecc : Fin 3) {x c : Nat} {s : State} (hr : s.dev.rst = .running)
    (hq : sget [] s.dev.spQ (e * 4 + bank) = [(x, c)]) (hb : s.dev.bankBusy e bank = false)
    (ha : ∀ a ∈ (s.dev.begin (.scratchpadRequest e bank ecc)).agenda, s.dev.ck < a.1 ∨ insTarget a.2 ≠ some e.val) :
    exec (.scratchpadRequest e bank ecc) s
      = s.becomes (((s.dev.begin (.scratchpadRequest e bank ecc)).spTaken (e * 4 + bank)).spServe e (x / 64) (x % 64) ecc) :=
  (exec_scratchpadRequest e bank ecc hr).trans
    (congrArg s.becomes ((s.dev.begin (.scratchpadRequest e bank ecc)).scratchpadRequest_serves ecc hq hb ha))

/-- A read from outside takes the bytes of its unit. -/
theorem scratchpadRequest_read (e : Fin 192) (bank : Fin 4) (ecc : Fin 3) {x : Nat} {q : NocReq} {s : State}
    (hgo : exec (.scratchpadRequest e bank ecc) s
      = s.becomes (((s.dev.begin (.scratchpadRequest e bank ecc)).spTaken (e * 4 + bank)).spServe e (x / 64) (x % 64) ecc))
    (hq : sfind s.dev.nocReqs (x / 64) = some q) (hid : x / 64 < 2 ^ 40) (ho : q.op = .read) :
    ∃ t r, exec (.scratchpadRequest e bank ecc) s = .next t ∧ sget [] t.dev.spQ (e * 4 + bank) = []
      ∧ sfind t.dev.nocReqs (x / 64) = some r ∧ r.left = q.left - 1 ∧ t.dev.mem = s.dev.mem
      ∧ ∀ i, i < q.len → (q.inUnit (x % 64) (q.addr + i) → byteAt r.data i = s.dev.byte (q.addr + i))
        ∧ (¬ q.inUnit (x % 64) (q.addr + i) → byteAt r.data i = byteAt q.data i) := by
  obtain ⟨r, hr, hl, hm, hs, hd⟩ := (s.dev.begin (.scratchpadRequest e bank ecc)).spServe_reads (e * 4 + bank) e (x % 64) ecc hq hid ho
  refine ⟨_, r, hgo, hs, hr, hl, hm, fun i hi => ⟨fun hmine => ?_, fun hmine => ?_⟩⟩
  · rw [hd i hi, if_pos hmine]
    rfl
  · rw [hd i hi, if_neg hmine]

/-- A write from outside puts the enabled bytes of its unit. -/
theorem scratchpadRequest_write (e : Fin 192) (bank : Fin 4) (ecc : Fin 3) {x : Nat} {q : NocReq} {s : State}
    (hgo : exec (.scratchpadRequest e bank ecc) s
      = s.becomes (((s.dev.begin (.scratchpadRequest e bank ecc)).spTaken (e * 4 + bank)).spServe e (x / 64) (x % 64) ecc))
    (hq : sfind s.dev.nocReqs (x / 64) = some q) (hid : x / 64 < 2 ^ 40) (ho : q.op = .write) :
    ∃ t r, exec (.scratchpadRequest e bank ecc) s = .next t ∧ sget [] t.dev.spQ (e * 4 + bank) = []
      ∧ sfind t.dev.nocReqs (x / 64) = some r ∧ r.left = q.left - 1
      ∧ ∀ a, (∀ i v, i < q.wr.length → q.wr.getD i none = some v → q.inUnit (x % 64) (q.addr + i) → a = q.addr + i → t.dev.byte a = v)
        ∧ ((∀ i, i < q.wr.length → q.inUnit (x % 64) (q.addr + i) → a ≠ q.addr + i) → t.dev.byte a = s.dev.byte a) := by
  obtain ⟨r, hr, hl, hs, hbyte⟩ := (s.dev.begin (.scratchpadRequest e bank ecc)).spServe_writes (e * 4 + bank) e (x % 64) ecc hq hid ho
  refine ⟨_, r, hgo, hs, hr, hl, fun a => ?_⟩
  obtain ⟨hput, hkeep⟩ := (s.dev.begin (.scratchpadRequest e bank ecc)).byte_unitWrite q (x % 64) a
  exact ⟨fun i v hi hv hm hai => (hbyte a).trans (hput i v hi hv hm hai), fun hno => (hbyte a).trans (hkeep hno)⟩

/-- BAY_MEM_ARBITRATE of a bank with one load (R140). -/
theorem bayMemArbitrate_load (b : Fin 12) (bank : Fin 16) (ecc : Fin 3) {r : BayReq} {o : Nat × Nat × Nat × Bool} {s : State}
    (hr : s.dev.rst = .running) (hq : sget [] s.dev.bayQ (b * 16 + bank) = [r]) (ht : s.dev.bayTurn b r = true) (hd : r.due ≤ s.dev.ck)
    (hl : r.lost < 8) (hw : r.who < 16) (ho : r.load = some o) (hlr : r.lr = false) :
    ∃ t, exec (.bayMemArbitrate b bank [] ecc) s = .next t ∧ sget [] t.dev.bayQ (b * 16 + bank) = []
      ∧ (t.dev.engOf (16 * b + r.who)).reg (Fin.ofNat 32 o.1) = (if Fin.ofNat 32 o.1 = 0 then 0#64
          else loadVal o.2.2.1 o.2.2.2 (((s.dev.bytes (Na.bay b + r.word) 8).drop o.2.1).take o.2.2.1))
      ∧ t.dev.mem = s.dev.mem := by
  have hgo : exec (.bayMemArbitrate b bank [] ecc) s = s.becomes ((s.dev.begin (.bayMemArbitrate b bank [] ecc)).bayArbitrate b bank [] ecc) :=
    State.run_running _ _ _ hr
  rw [Dev.bayArbitrate_single (s.dev.begin (.bayMemArbitrate b bank [] ecc)) ecc hq ht hd hl] at hgo
  obtain ⟨d', hserve, hs'⟩ := ((s.dev.begin (.bayMemArbitrate b bank [] ecc)).bayTaken (b * 16 + bank)).bayServe_load (b := b) ecc hw ho hlr
  rw [hserve] at hgo
  obtain ⟨hreg, hs⟩ := d'.loaded_wake (16 * b + r.who) o.1
    (loadVal o.2.2.1 o.2.2.2 (((((s.dev.begin (.bayMemArbitrate b bank [] ecc)).bayTaken (b * 16 + bank)).bytes (Na.bay b + r.word) 8).drop o.2.1).take
      o.2.2.1)) 5 5
  obtain ⟨hmem, -, hbayQ, -⟩ := Dev.parts_of_stores (hs.trans hs')
  refine ⟨_, hgo, ?_, hreg, hmem⟩
  exact (congrArg (fun m => sget [] m (b.val * 16 + bank.val)) hbayQ).trans (sget_sset_same [] s.dev.bayQ (b * 16 + bank) [])

/-- REMOTE_RESPONSE to a load (R171). -/
theorem remoteResponse_load (e : Fin 196) {id : Nat} {q : NocReq} {reg size : Nat} {sx : Bool} {s : State} (hr : s.dev.rst = .running)
    (hq : sfind s.dev.nocReqs id = some q) (hp : q.ph = .done) (hw : q.who = .load e reg size sx) (hst : q.status = Ns.ok) (hreg : reg < 32) :
    ∃ t, exec (.remoteResponse e id) s = .next t ∧ sfind t.dev.nocReqs id = none
      ∧ (t.dev.engOf e).reg (Fin.ofNat 32 reg) = (if reg = 0 then 0#64 else loadVal size sx q.data)
      ∧ t.dev.mem = s.dev.mem ∧ t.dev.recs = s.dev.recs := by
  have hgo : exec (.remoteResponse e id) s = s.becomes ((s.dev.begin (.remoteResponse e id)).remoteResponse e id) := State.run_running _ _ _ hr
  obtain ⟨d', hresp, hs'⟩ := (s.dev.begin (.remoteResponse e id)).remoteResponse_load (t := e) hq hp hw hst
  rw [hresp] at hgo
  obtain ⟨hval, hs⟩ := d'.loaded_wake e reg (loadVal size sx q.data) 0 0
  obtain ⟨hmem, hrecs, -, hreqs⟩ := Dev.parts_of_stores (hs.trans hs')
  have hzero : Fin.ofNat 32 reg = 0 ↔ reg = 0 := by
    rw [Fin.ext_iff]
    show reg % 32 = 0 % 32 ↔ reg = 0
    omega
  refine ⟨_, hgo, ?_, ?_, hmem, hrecs⟩
  · exact (congrArg (fun m => sfind m id) hreqs).trans (sfind_serase_same s.dev.nocReqs id)
  · rw [hval]
    exact if_congr hzero rfl rfl

/-- Settles O21: a bank serves the one request it holds, a time-out takes a waiting one out, and a load's answer goes to its register. -/
theorem engineRequestsAreServed : Obligations.EngineRequestsAreServed := by
  intro s hr
  refine ⟨fun e bank ecc hq => ?_, fun e bank ecc x c hq hb ha => ?_, fun id q hq => ⟨fun hno => ?_, fun hw => ?_⟩, ?_, ?_⟩
  · exact (exec_scratchpadRequest e bank ecc hr).trans (congrArg s.becomes (Dev.scratchpadRequest_none _ ecc hq))
  · have hgo := scratchpadRequest_serves e bank ecc hr hq hb ha
    refine ⟨hgo, fun q hfound hid => ?_⟩
    dsimp only
    simp only [← NocReq.inUnit_iff]
    exact ⟨fun ho => scratchpadRequest_read e bank ecc hgo hfound hid ho, fun ho _ => scratchpadRequest_write e bank ecc hgo hfound hid ho⟩
  · have hgo := exec_scratchpadBusyTimeout id hr hq
    have hidle : s.dev.spWaits id ≠ true := fun h => by
      obtain ⟨x, hx, y, hy, hxy⟩ := (s.dev.spWaits_iff id).mp h
      exact hno x hx y hy hxy
    rw [if_pos hidle] at hgo
    exact hgo
  · exact scratchpadBusyTimeout_busy hr hq hw
  · exact fun b bank ecc r o hq ht hd hl hw ho hlr => bayMemArbitrate_load b bank ecc hr hq ht hd hl hw ho hlr
  · exact fun e id q reg size sx hq hp hw hst hreg => remoteResponse_load e hr hq hp hw hst hreg

end Sys2Proof.Machine
end

section
/-! PROOFS. ENGINE_ASSIGN of a flow that fills its engine (R139, R154, R195), and the refutation of O40. -/

namespace Sys2Proof.Machine

/-! The counterexample: flow 0 of the South is pinned to engine 96 and waits for it; the engine runs and serves 63 flows. Flow 1 of the
South is pinned to the same engine, and its queued record stands twice among the flow's numbers. Flow 0 of the North, disabled, shows
engine 96 as its own. With flow 0 the engine is full, and flow 1's records are discarded (R154): the first discard takes the record
away, and the second finds the record that an unlisted number reads as, of flow 0 of the North, whose check for a free slot then takes
slot 0's entry of the engine. -/

/-- The record of flow 1 of the South. -/
def twiceRec : Rec := { half := 1, flow := 1, st := .queued, units := 1, complete := true }

/-- The tables: who is pinned, who is enabled, who is served by engine 96. -/
def pinnedTables : Dev :=
  ((((({} : Dev).setFld (Pg.newt 96) F.NEWT_STAT_STATE Es.run).setFlowFld 1 0 FL_PIN_ENG_EN 1).setFlowFld 1 1 FL_PIN_ENG_EN 1).setFlowFld 0 0
    FL_EN 0).setFlowFld 0 0 FL_CUR_ENGINE 96

/-- The block with the engine's 63 flows and the record listed twice. -/
def twiceListed : State :=
  ⟨{ pinnedTables with
      engs := [(96, { slots := (List.range 63).map (fun i => (i + 2, i + 1)) })]
      nums := [(flowKey 1 1, [⟨0, 7, none, 0#72, 0⟩, ⟨1, 7, none, 0#72, 0⟩])]
      recs := [(7, twiceRec)] }, []⟩

theorem twiceListed_runs : twiceListed.dev.rst = .running := by decide +kernel

/-- Flow 0 of the South may be assigned to the engine it is pinned to. -/
theorem twiceListed_assigns : 192 ≤ twiceListed.dev.curEngine 1 0 ∧ twiceListed.dev.flowEn 1 0 = true ∧ twiceListed.dev.pinned 1 0 = true
    ∧ twiceListed.dev.takesFlow (twiceListed.dev.pinOf 1 0) = true ∧ twiceListed.dev.pinOf 1 0 = 96 := by decide +kernel

/-- The assignment leaves the engine without a slot for flow 0. -/
theorem engineAssign_loses_slot : ∃ t, exec (.engineAssign 1 0) twiceListed = .next t ∧ sfind (t.dev.engOf 96).slots 0 = none := by
  refine ⟨_, State.run_running twiceListed _ _ twiceListed_runs, ?_⟩
  decide +kernel

/-- Refutes O40: its clause on a pinned flow has the flow's slot stand after ENGINE_ASSIGN in every state, and in a state that lists a
record's number twice the records that the full engine discards take that slot away again. -/
theorem not_placementDecisions : ¬ Obligations.PlacementDecisions := by
  intro h
  obtain ⟨hcur, hen, hpinned, htakes, hpin⟩ := twiceListed_assigns
  obtain ⟨-, -, -, -, -, hassign, -⟩ := h 1 twiceListed twiceListed_runs
  obtain ⟨t, ht, -, hslot⟩ := hassign 0 hcur hen hpinned htakes
  obtain ⟨u, hu, hnone⟩ := engineAssign_loses_slot
  rw [ht] at hu
  cases hu
  have hslot' : sfind (t.dev.engOf (twiceListed.dev.pinOf 1 0)).slots 0 = some _ := hslot
  rw [hpin, hnone] at hslot'
  cases hslot'

end Sys2Proof.Machine
end

section
/-! PROOFS. What an issue leaves of a core's registers and of the target's fence, and what a fetch leaves of a core (R144, R163, R164, R385). -/

namespace Sys2Proof.Machine

/-! The block as an issue leaves it. -/

/-- The block on which an instruction has its effect: its agenda entry is taken, the stall and the issue are noted. -/
def Dev.issuedAs (d : Dev) (t : Nat) (i : Instr) (x : Isu) : Dev := (((d.begin i).dropFetch t).settleStall t).noteIssue t x.trim

/-- An instruction that may issue has its effect on that block. -/
theorem run_issuedAs (e : Fin 196) (i : Instr) (x : Isu) (f : Dev → Dev) {s : State} (hr : s.dev.rst = .running) (hc : s.dev.canIssue e x) :
    s.run i (fun d => d.issue e i x f) = s.becomes (f (s.dev.issuedAs e i x)) :=
  (State.run_running _ _ _ hr).trans (congrArg s.becomes (Dev.issue_go _ e i x f (Dev.canIssue_begin i hc)))

theorem Dev.issuedAs_afterIssue (d : Dev) (t : Nat) (i : Instr) (x : Isu) : d.afterIssue (d.issuedAs t i x) t :=
  (d.afterIssue_begin t i).trans ((Dev.afterIssue_of_eproj t (Dev.eproj_dropFetch _ t) rfl rfl).trans
    ((Dev.afterIssue_settleStall _ t).trans (Dev.afterIssue_noteIssue _ t x.trim)))

theorem Dev.issuedAs_engStored (d : Dev) (t : Nat) (i : Instr) (x : Isu) : (d.issuedAs t i x).engStored t := Dev.engStored_noteIssue _ t x.trim

/-- An M-slot instruction that issues holds the slot no fence (R173). -/
theorem Dev.fence_issuedAs (d : Dev) (t : Nat) (i : Instr) {x : Isu} (h : x.mSlot = true) : ((d.issuedAs t i x).engOf t).fence = none := by
  unfold Dev.issuedAs Dev.noteIssue Dev.engOf
  dsimp only
  rw [Dev.engs_noteStep, Dev.engs_startBudget]
  exact (congrArg EngSt.fence (Dev.engOf_setEng _ t _)).trans (if_pos h)

/-- A core's issue is counted nowhere: it leaves the block but for what waits, the targets' state and debug. -/
theorem Dev.issuedAs_core (d : Dev) {t : Nat} (i : Instr) (x : Isu) (h : 192 ≤ t) :
    ∃ ag en db, d.issuedAs t i x = { d with out := [], agenda := ag, engs := en, dbgs := db } := by
  have hno (P : Prop) : ¬ (t < 192 ∧ P) := fun hh => absurd hh.1 (Nat.not_lt.mpr h)
  have hstall (d : Dev) (n : Nat) : d.countStall t n = d := if_neg (hno _)
  have hcount (d : Dev) : d.countIssue t = d := if_neg (hno _)
  have hbudget (d : Dev) (b : Bool) : d.startBudget t b = d := if_neg (hno _)
  unfold Dev.issuedAs Dev.noteIssue Dev.settleStall
  dsimp only
  rw [hcount, hbudget, hstall]
  unfold Dev.noteStep
  split
  · exact ⟨_, _, _, rfl⟩
  · exact ⟨_, _, _, rfl⟩

theorem Dev.regs_issuedAs_core (d : Dev) {t : Nat} (i : Instr) (x : Isu) (h : 192 ≤ t) : (d.issuedAs t i x).regs = d.regs := by
  obtain ⟨ag, en, db, hd⟩ := d.issuedAs_core i x h
  rw [hd]

theorem Dev.afterIssue.gks {d d' : Dev} {t : Nat} (h : d.afterIssue d' t) : d'.gks = d.gks := (congrArg Dev.gks h.still :)

/-! A core's state through a fetch. -/

theorem Dev.gkOf_setGk (d : Dev) (k : Nat) (x : GkSt) : (d.setGk k x).gkOf k = x := sget_sset_same _ _ _ _
theorem Dev.gkOf_setGk_ne (d : Dev) {k j : Nat} (x : GkSt) (h : k ≠ j) : (d.setGk k x).gkOf j = d.gkOf j := sget_sset_ne _ _ _ _ h

theorem Dev.gkOf_of_gks {d d' : Dev} (h : d'.gks = d.gks) (k : Nat) : d'.gkOf k = d.gkOf k := by
  unfold Dev.gkOf
  rw [h]

/-- A core's state but for its instruction cache and the lines on their way. -/
def GkSt.unfetched (x : GkSt) : GkSt := { x with icache := [], filling := [] }

/-- Registers, the cores' state but for what a fetch uses of it, and reservations stay. -/
structure Dev.coresStay (d d' : Dev) : Prop where
  regs : d'.regs = d.regs
  gk : ∀ j, (d'.gkOf j).unfetched = (d.gkOf j).unfetched
  resvs : d'.resvs = d.resvs

theorem Dev.coresStay_of_gks {d d' : Dev} (hr : d'.regs = d.regs) (hg : d'.gks = d.gks) (hv : d'.resvs = d.resvs) : d.coresStay d' :=
  ⟨hr, fun j => by rw [Dev.gkOf_of_gks hg], hv⟩

theorem Dev.coresStay.trans {d d' d'' : Dev} (h : d.coresStay d') (h' : d'.coresStay d'') : d.coresStay d'' :=
  ⟨h'.regs.trans h.regs, fun j => (h'.gk j).trans (h.gk j), h'.resvs.trans h.resvs⟩

theorem Dev.setGk_coresStay (d : Dev) (k : Nat) {x : GkSt} (h : x.unfetched = (d.gkOf k).unfetched) : d.coresStay (d.setGk k x) := by
  refine ⟨rfl, fun j => ?_, rfl⟩
  by_cases hj : k = j
  · subst hj
    rw [Dev.gkOf_setGk, h]
  · rw [Dev.gkOf_setGk_ne _ _ hj]

theorem Dev.setFilling_coresStay (d : Dev) (k : Nat) (l : List (Nat × Bool)) : d.coresStay (d.setGk k { d.gkOf k with filling := l }) :=
  d.setGk_coresStay k rfl
theorem Dev.setIcache_coresStay (d : Dev) (k : Nat) (l : List CLine) : d.coresStay (d.setGk k { d.gkOf k with icache := l }) :=
  d.setGk_coresStay k rfl
theorem Dev.dropFetch_coresStay (d : Dev) (t : Nat) : d.coresStay (d.dropFetch t) := Dev.coresStay_of_gks rfl rfl rfl
theorem Dev.sched_coresStay (d : Dev) (k : Nat) (i : Instr) : d.coresStay (d.sched k i) := Dev.coresStay_of_gks rfl rfl rfl
theorem Dev.nocSend_coresStay (d : Dev) (r : NocReq) : d.coresStay (d.nocSend r) := Dev.coresStay_of_gks rfl rfl rfl

theorem Dev.offerWord_coresStay (d : Dev) (t : Nat) (w : Word) : d.coresStay (d.offerWord t w) := by
  unfold Dev.offerWord
  dsimp only
  split
  · exact (d.dropFetch_coresStay t).trans (Dev.sched_coresStay _ _ _)
  · split
    · exact (d.dropFetch_coresStay t).trans (Dev.sched_coresStay _ _ _)
    · exact (d.dropFetch_coresStay t).trans (Dev.sched_coresStay _ _ _)

theorem Dev.gkFetchTrap_coresStay (d : Dev) (k cause addr : Nat) : d.coresStay (d.gkFetchTrap k cause addr) :=
  (d.dropFetch_coresStay (192 + k)).trans (Dev.sched_coresStay _ _ _)

theorem Dev.gkFill_coresStay (d : Dev) (k line : Nat) (ins : Bool) : d.coresStay (d.gkFill k line ins) := by
  unfold Dev.gkFill
  dsimp only
  split
  · exact Dev.coresStay_of_gks rfl rfl rfl
  · exact (d.setFilling_coresStay k _).trans (Dev.nocSend_coresStay _ _)

/-- A fetch uses the instruction cache and asks for lines, and changes nothing else of a core or of a register. -/
theorem Dev.fetch_coresStay (d : Dev) (t : Nat) : d.coresStay (d.fetch t) := by
  unfold Dev.fetch
  dsimp only
  split
  · exact Dev.coresStay_of_gks rfl rfl rfl
  split
  · exact d.offerWord_coresStay _ _
  split
  · exact d.gkFetchTrap_coresStay _ _ _
  split
  · exact d.gkFetchTrap_coresStay _ _ _
  split
  · exact d.offerWord_coresStay _ _
  · exact d.offerWord_coresStay _ _
  · exact d.gkFetchTrap_coresStay _ _ _
  split
  · exact (d.dropFetch_coresStay t).trans (Dev.nocSend_coresStay _ _)
  split
  · exact (d.setIcache_coresStay _ _).trans (Dev.offerWord_coresStay _ _ _)
  · exact (d.dropFetch_coresStay t).trans (Dev.gkFill_coresStay _ _ _ _)

theorem Dev.next_coresStay (d : Dev) (t : Nat) : d.coresStay (d.next t) :=
  Dev.coresStay.trans (d' := d.goTo t ((d.engOf t).pc + 1)) (Dev.coresStay_of_gks rfl rfl rfl) (Dev.fetch_coresStay _ t)

/-! A core at the end of a command. -/

theorem Dev.gks_of_rest {d d' : Dev} (h : d'.rest = d.rest) : d'.gks = d.gks := (congrArg Dev.gks h :)
theorem Dev.gks_settle (d : Dev) : d.settle.gks = d.gks := Dev.gks_of_rest d.rest_settle
theorem Dev.resvs_settle (d : Dev) : d.settle.resvs = d.resvs := (congrArg Dev.resvs d.rest_settle :)
theorem Dev.gkOf_settle (d : Dev) (k : Nat) : d.settle.gkOf k = d.gkOf k := Dev.gkOf_of_gks d.gks_settle k

theorem raddr_pair_gecko (k : Nat) {off off' : Nat} (h : off < 4096) (h' : off' < 4096) : raddr Pg.pair off ≠ raddr (Pg.gecko k) off' := fun hh => by
  have hpg : Blk.pair.base + 0 = Blk.gecko.base + k := (raddr_inj h h' hh).1
  have hbase : Blk.pair.base < Blk.gecko.base := by decide
  omega

theorem Dev.reg_settle_gecko (d : Dev) (k : Nat) {off : Nat} (h : off < 4096) : d.settle.reg (Pg.gecko k) off = d.reg (Pg.gecko k) off :=
  d.reg_settle _ _ (raddr_pair_gecko k (by decide) h)

theorem Dev.fld_settle_gecko (d : Dev) (k : Nat) {f : Fld} (h : f.off < 4096) : d.settle.fld (Pg.gecko k) f = d.fld (Pg.gecko k) f :=
  d.fld_settle _ _ (raddr_pair_gecko k (by decide) h)

/-! Control registers (Table 8-7). -/

theorem Dev.csr_of_gk {d d' : Dev} {k : Nat} (h : (d'.gkOf k).csr = (d.gkOf k).csr) (n : Nat) : d'.csr k n = d.csr k n := by
  unfold Dev.csr
  rw [h]

theorem Dev.csr_of_gks {d d' : Dev} (h : d'.gks = d.gks) (k n : Nat) : d'.csr k n = d.csr k n :=
  Dev.csr_of_gk (congrArg GkSt.csr (Dev.gkOf_of_gks h k)) n

theorem Dev.gkPriv_of_gks {d d' : Dev} (h : d'.gks = d.gks) (k : Nat) : d'.gkPriv k = d.gkPriv k := by
  unfold Dev.gkPriv Dev.csrBit
  rw [Dev.csr_of_gks h]

theorem Dev.gkEXL_of_gks {d d' : Dev} (h : d'.gks = d.gks) (k : Nat) : d'.gkEXL k = d.gkEXL k := by
  unfold Dev.gkEXL Dev.csrBit
  rw [Dev.csr_of_gks h]

theorem Dev.coresStay.csr {d d' : Dev} (h : d.coresStay d') (k n : Nat) : d'.csr k n = d.csr k n :=
  Dev.csr_of_gk (congrArg GkSt.csr (h.gk k) :) n

theorem Dev.csr_setEng (d : Dev) (t : Nat) (x : EngSt) (k n : Nat) : (d.setEng t x).csr k n = d.csr k n := rfl
theorem Dev.csr_settle (d : Dev) (k n : Nat) : d.settle.csr k n = d.csr k n := Dev.csr_of_gks d.gks_settle k n

@[simp] theorem Dev.csr_setCsr (d : Dev) (k num : Nat) (v : BitVec 64) : (d.setCsr k num v).csr k num = v := by
  unfold Dev.csr Dev.setCsr
  rw [Dev.gkOf_setGk, sget_sset_same]

theorem Dev.csr_setCsr_ne (d : Dev) (k : Nat) {num n : Nat} (v : BitVec 64) (h : num ≠ n) : (d.setCsr k num v).csr k n = d.csr k n := by
  unfold Dev.csr Dev.setCsr
  rw [Dev.gkOf_setGk, sget_sset_ne _ _ _ _ h]

theorem Dev.eproj_setCsr (d : Dev) (k num : Nat) (v : BitVec 64) : (d.setCsr k num v).eproj = d.eproj := d.eproj_setGk _ _

end Sys2Proof.Machine
end

section
/-! PROOFS. Exceptions and interrupts of a core, ERET and WFI (R176, R180, R181, Tables 8-6 and 8-7), and O28. -/

namespace Sys2Proof.Machine

/-! What a core that may issue is after the issue. -/

theorem core_le (k : Fin 4) : 192 ≤ (coreTarget k).val := Nat.le_add_right 192 k.val
theorem core_sub (k : Fin 4) : (coreTarget k).val - 192 = k := Nat.add_sub_cancel_left 192 k.val
theorem coreTarget_not_lt (k : Fin 4) : ¬ (coreTarget k).val < 192 := Nat.not_lt.mpr (core_le k)

/-- The parts of a target's state and debug that say whether it may issue. -/
theorem Dev.mayIssue_core {d d' : Dev} (k : Fin 4) (hr : d'.regs = d.regs)
    (hw : (d'.engOf (192 + k)).popWait = (d.engOf (192 + k)).popWait) (hs : (d'.dbgOf (192 + k)).stop = (d.dbgOf (192 + k)).stop) :
    d'.mayIssue (192 + k) = d.mayIssue (192 + k) := by
  have hn : ¬ (192 + k.val) < 192 := by omega
  have hst : d'.tgtState (192 + k) = d.tgtState (192 + k) := by
    unfold Dev.tgtState
    rw [if_neg hn, if_neg hn]
    unfold Dev.fld
    rw [Dev.reg_congr hr]
  unfold Dev.mayIssue
  rw [hst, hw, hs]

/-- A core outside its handler stays so over a step of an issue that leaves registers and control registers. -/
theorem Dev.afterIssue.coreReady {d d' : Dev} {k : Fin 4} (h : d.afterIssue d' (192 + k)) (hr : d'.regs = d.regs) (hc : d.coreReady k) :
    d'.coreReady k where
  runs := (Dev.mayIssue_core k hr (congrArg EngSt.popWait h.eng :) (congrArg Prod.snd h.dbg)).trans hc.runs
  exl := (Dev.gkEXL_of_gks h.gks k).trans hc.exl
  noDebug := h.ranges hc.noDebug

/-! What an exception saves (R181). -/

/-- The count of an exception: cause 1 alone has one. -/
def Dev.gkCounted (d : Dev) (k cause : Nat) : Dev := if cause = 1 then d.err (Pg.gecko k) 0 0x1401 else d

/-- STATUS, EPC, CAUSE and BADADDR as the handler finds them. -/
def Dev.gkSaved (d : Dev) (k pc cause : Nat) (retry : Bool) (addr irq : Nat) : Dev :=
  (((d.setCsr k Csr.status.num (statusEntry (d.csr k Csr.status.num))).setCsr k Csr.epc.num (BitVec.ofNat 64 (pc % 2 ^ 62))).setCsr k
    Csr.cause.num (causeWord cause retry irq)).setCsr k Csr.badaddr.num (BitVec.ofNat 64 addr)

/-- The exception has been counted and its state saved. -/
def Dev.gkTaken (d : Dev) (k cause : Nat) (retry : Bool) (addr irq : Nat) : Dev :=
  ((d.trapCut (192 + k)).gkCounted k cause).gkSaved k ((d.trapHeld (192 + k)).engOf (192 + k)).pc cause retry addr irq

theorem Dev.rest_gkCounted (d : Dev) (k cause : Nat) : (d.gkCounted k cause).rest = d.rest := by
  unfold Dev.gkCounted
  split
  · exact d.rest_err _ _ _
  · rfl

theorem Dev.eproj_gkSaved (d : Dev) (k pc cause : Nat) (retry : Bool) (addr irq : Nat) : (d.gkSaved k pc cause retry addr irq).eproj = d.eproj := by
  unfold Dev.gkSaved
  rw [Dev.eproj_setCsr, Dev.eproj_setCsr, Dev.eproj_setCsr, Dev.eproj_setCsr]

theorem Dev.gks_gkCounted_trapCut (d : Dev) (k cause : Nat) : ((d.trapCut (192 + k)).gkCounted k cause).gks = d.gks :=
  (Dev.gks_of_rest (Dev.rest_gkCounted (d.trapCut (192 + k)) k cause)).trans (d.trapHeld_afterIssue (192 + k)).gks

theorem Dev.eproj_gkTaken (d : Dev) (k cause : Nat) (retry : Bool) (addr irq : Nat) :
    (d.gkTaken k cause retry addr irq).eproj = (d.trapCut (192 + k)).eproj :=
  (Dev.eproj_gkSaved _ _ _ _ _ _ _).trans (Dev.eproj_of_rest (Dev.rest_gkCounted _ _ _))

/-- The numbers of the control registers an exception writes, and of TVEC, differ. -/
theorem Dev.gkSaved_csrs (d : Dev) (k pc cause : Nat) (retry : Bool) (addr irq : Nat) :
    let d' := d.gkSaved k pc cause retry addr irq
    d'.csr k Csr.status.num = statusEntry (d.csr k Csr.status.num) ∧ d'.csr k Csr.epc.num = BitVec.ofNat 64 (pc % 2 ^ 62)
      ∧ d'.csr k Csr.cause.num = causeWord cause retry irq ∧ d'.csr k Csr.badaddr.num = BitVec.ofNat 64 addr
      ∧ d'.csr k Csr.tvec.num = d.csr k Csr.tvec.num := by
  unfold Dev.gkSaved
  refine ⟨?_, ?_, ?_, Dev.csr_setCsr _ _ _ _, ?_⟩
  · rw [Dev.csr_setCsr_ne _ _ _ (by decide), Dev.csr_setCsr_ne _ _ _ (by decide), Dev.csr_setCsr_ne _ _ _ (by decide), Dev.csr_setCsr]
  · rw [Dev.csr_setCsr_ne _ _ _ (by decide), Dev.csr_setCsr_ne _ _ _ (by decide), Dev.csr_setCsr]
  · rw [Dev.csr_setCsr_ne _ _ _ (by decide), Dev.csr_setCsr]
  · rw [Dev.csr_setCsr_ne _ _ _ (by decide), Dev.csr_setCsr_ne _ _ _ (by decide), Dev.csr_setCsr_ne _ _ _ (by decide),
      Dev.csr_setCsr_ne _ _ _ (by decide)]

/-! The handler. -/

/-- The core as its handler begins. -/
def Dev.handling (d : Dev) (k : Nat) : EngSt :=
  { d.engOf (192 + k) with pc := (d.csr k Csr.tvec.num).toNat % 2 ^ 62, nextCk := d.ck + 4 }

/-- What the entry to a handler leaves and sets. -/
structure Dev.handlerEntered (d d' : Dev) (k : Fin 4) : Prop where
  eng : d'.engOf (192 + k) = d.handling k
  csr : ∀ n, d'.csr k n = d.csr k n
  keeps : d.engKeeps d' (192 + k)

theorem Dev.enterHandler_eq (d : Dev) (k : Nat) : d.enterHandler k = (d.setEng (192 + k) (d.handling k)).fetch (192 + k) := rfl

theorem Dev.enterHandler_entered (d : Dev) (k : Fin 4) : d.handlerEntered (d.enterHandler k).settle k := by
  rw [Dev.enterHandler_eq]
  have hp : ((d.setEng (192 + k) (d.handling k)).fetch (192 + k)).settle.eproj = (d.setEng (192 + k) (d.handling k)).eproj :=
    (Dev.eproj_settle _).trans (Dev.eproj_fetch _ _)
  refine ⟨(Dev.engOf_of_eproj hp _).trans (Dev.engOf_setEng _ _ _), fun n => ?_,
    (d.engKeeps_setEng (192 + k) (d.handling k)).trans (Dev.engKeeps_of_eproj _ hp)⟩
  rw [Dev.csr_settle, (Dev.fetch_coresStay _ _).csr, Dev.csr_setEng]

/-- A core outside its handler takes an exception by entering the handler. -/
theorem Dev.gkTrap_enters (d : Dev) (k : Fin 4) (cause : Nat) (retry : Bool) (addr irq : Nat) (h : d.coreReady k) :
    d.gkTrap k cause retry addr irq = (d.gkTaken k cause retry addr irq).enterHandler k := by
  have hexl : ((d.trapCut (192 + k)).gkCounted k cause).gkEXL k = false :=
    (Dev.gkEXL_of_gks (d.gks_gkCounted_trapCut k cause) k).trans h.exl
  have hdbg : ((d.gkTaken k cause retry addr irq).dbgOf (192 + k)).regs = [] := by
    unfold Dev.dbgOf
    rw [Dev.dbgs_of_eproj (d.eproj_gkTaken k cause retry addr irq)]
    exact (d.trapHeld_afterIssue (192 + k)).ranges h.noDebug
  have hcatch : (d.gkTaken k cause retry addr irq).tflag (192 + k) F.DBG_TGT_CFG_CATCH = false := by
    unfold Dev.tflag Dev.tfld Dev.treg
    rw [hdbg]
    rfl
  exact (if_neg (by simp [h.runs])).trans ((if_neg (by rw [Bool.not_eq_true]; exact hexl)).trans
    (if_neg (fun hh => absurd hh.2 (by rw [Bool.not_eq_true]; exact hcatch))))

theorem Dev.gkTrap_trapped (d : Dev) (k : Fin 4) (cause : Nat) (retry : Bool) (addr irq : Nat) (h : d.coreReady k) :
    d.gkTrapped (d.gkTrap k cause retry addr irq).settle k cause retry addr irq := by
  have hheld := d.trapHeld_afterIssue (192 + k)
  have hp := d.eproj_gkTaken k cause retry addr irq
  have heng : (d.gkTaken k cause retry addr irq).engOf (192 + k) = ((d.trapHeld (192 + k)).engOf (192 + k)).cut := by
    rw [Dev.engOf_of_eproj hp, Dev.trapCut, Dev.engOf_setEng]
  have hck : (d.gkTaken k cause retry addr irq).ck = d.ck := (Dev.ck_of_eproj hp).trans hheld.tweaks.ck
  have hkeep : d.engKeeps (d.gkTaken k cause retry addr irq) (192 + k) :=
    (hheld.tweaks.keeps.trans (Dev.engKeeps_setEng _ (192 + k) _)).trans (Dev.engKeeps_of_eproj _ hp)
  have hcsr := Dev.gkSaved_csrs ((d.trapCut (192 + k)).gkCounted k cause) k ((d.trapHeld (192 + k)).engOf (192 + k)).pc cause retry addr irq
  obtain ⟨hstatus, hepc, hcause, hbad, htvec⟩ := hcsr
  have hgo := (d.gkTaken k cause retry addr irq).enterHandler_entered k
  have hold (n : Nat) := Dev.csr_of_gks (d.gks_gkCounted_trapCut k cause) k n
  rw [d.gkTrap_enters k cause retry addr irq h]
  exact {
    epc := by rw [hgo.csr]; exact hepc.trans (by rw [hheld.tweaks.like.pc])
    cause := (hgo.csr _).trans hcause
    badaddr := (hgo.csr _).trans hbad
    status := by rw [hgo.csr]; exact hstatus.trans (by rw [hold])
    pc := by rw [hgo.eng]; exact congrArg (fun v : BitVec 64 => v.toNat % 2 ^ 62) (htvec.trans (hold _))
    first := by rw [hgo.eng]; exact congrArg (· + 4) hck
    n := by rw [hgo.eng, Dev.handling, heng]; exact hheld.tweaks.like.n
    p := by rw [hgo.eng, Dev.handling, heng]; exact hheld.tweaks.like.p
    keeps := hkeep.trans hgo.keeps }

/-- An exception taken after an issue is one of the core as the issue found it. -/
theorem Dev.gkTrapped.of_afterIssue {d d' d'' : Dev} {k : Fin 4} {cause addr irq : Nat} {retry : Bool} (h : d.afterIssue d' (192 + k))
    (ht : d'.gkTrapped d'' k cause retry addr irq) : d.gkTrapped d'' k cause retry addr irq := by
  have hcsr (n : Nat) : d'.csr k n = d.csr k n := Dev.csr_of_gks h.gks k n
  exact {
    epc := ht.epc.trans (by rw [h.tweaks.like.pc])
    cause := ht.cause
    badaddr := ht.badaddr
    status := ht.status.trans (by rw [hcsr])
    pc := ht.pc.trans (by rw [hcsr])
    first := ht.first.trans (by rw [h.tweaks.ck])
    n := ht.n.trans h.tweaks.like.n
    p := ht.p.trans h.tweaks.like.p
    keeps := h.tweaks.keeps.trans ht.keeps }

/-! The instructions and commands that raise one. -/

theorem Dev.except_core (d : Dev) (k : Fin 4) (cause : Nat) (retry : Bool) (addr : Nat) :
    d.except (192 + k) cause retry addr = d.gkTrap k cause retry addr 0 :=
  (if_neg (by omega)).trans (by rw [Nat.add_sub_cancel_left])

/-- A command that is the core's exception and no more. -/
theorem becomes_gkTrap {s : State} {k : Fin 4} (i : Instr) (cause : Nat) (retry : Bool) (addr irq : Nat) (h : s.dev.coreReady k) :
    ∃ t, s.becomes ((s.dev.begin i).gkTrap k cause retry addr irq) = .next t ∧ s.dev.gkTrapped t.dev k cause retry addr irq :=
  ⟨_, rfl, Dev.gkTrapped.of_afterIssue (s.dev.afterIssue_begin _ i)
    (Dev.gkTrap_trapped _ k cause retry addr irq ((s.dev.afterIssue_begin _ i).coreReady rfl h))⟩

/-- An instruction of a core that issues and whose effect is the core's exception. -/
theorem run_issue_gkTrap {s : State} {k : Fin 4} (i : Instr) (x : Isu) (f : Dev → Dev) (cause : Nat) (hr : s.dev.rst = .running)
    (h : s.dev.coreReady k) (hi : s.dev.canIssue (coreTarget k) x)
    (hf : f (s.dev.issuedAs (coreTarget k) i x) = (s.dev.issuedAs (coreTarget k) i x).except (192 + k) cause false 0) :
    ∃ t, s.run i (fun d => d.issue (coreTarget k) i x f) = .next t ∧ s.dev.gkTrapped t.dev k cause false 0 0 := by
  have ha : s.dev.afterIssue (s.dev.issuedAs (coreTarget k) i x) (192 + k) := s.dev.issuedAs_afterIssue (coreTarget k) i x
  have hready := ha.coreReady (s.dev.regs_issuedAs_core i x (core_le k)) h
  refine ⟨_, (run_issuedAs (coreTarget k) i x f hr hi).trans (congrArg s.becomes (hf.trans (Dev.except_core _ k cause false 0))), ?_⟩
  exact Dev.gkTrapped.of_afterIssue ha (Dev.gkTrap_trapped _ k cause false 0 0 hready)

/-- A SYS instruction on a core issues alone. -/
theorem Dev.sysOp_core (d : Dev) (k : Fin 4) (i : Instr) (x : Isu) (f : Nat → Dev → Dev) :
    d.sysOp (coreTarget k) i x f = d.issue (coreTarget k) i { x with alone := true } (f k) :=
  (if_neg (coreTarget_not_lt k)).trans (by rw [core_sub])

theorem exec_sysOp (k : Fin 4) (i : Instr) (x : Isu) (f : Nat → Dev → Dev) (s : State) :
    s.run i (fun d => d.sysOp (coreTarget k) i x f) = s.run i (fun d => d.issue (coreTarget k) i { x with alone := true } (f k)) :=
  congrArg (s.run i) (funext fun d => d.sysOp_core k i x f)

/-! ECALL, TRAP, exceptions and interrupts. -/

section
variable {s : State} {k : Fin 4} (hr : s.dev.rst = .running)
include hr

theorem exec_ecall (h : s.dev.coreReady k) (hi : s.dev.canIssue (coreTarget k) { noSlot := true, alone := true }) :
    ∃ t, exec (.ecall (coreTarget k)) s = .next t ∧ s.dev.gkTrapped t.dev k 0xB false 0 0 := by
  rw [show exec (.ecall (coreTarget k)) s = _ from exec_sysOp k _ { noSlot := true } (fun k d => d.except (192 + k) 0xB false 0) s]
  exact run_issue_gkTrap _ _ _ 0xB hr h hi rfl

theorem exec_trap_core (h : s.dev.coreReady k) (hi : s.dev.canIssue (coreTarget k) { noSlot := true, alone := true }) :
    ∃ t, exec (.trap (coreTarget k)) s = .next t ∧ s.dev.gkTrapped t.dev k 8 false 0 0 :=
  run_issue_gkTrap (.trap (coreTarget k)) _ _ 8 hr h hi rfl

/-- An exception with no takeable interrupt, and one that a takeable interrupt comes before (R180). -/
theorem exec_geckoException (h : s.dev.coreReady k) (cause : Fin 16) (retry : Bool) (addr : Word64)
    (hc : cause.val ∈ [1, 2, 3, 4, 5, 8, 9, 0xA, 0xB]) :
    (s.dev.gkTakeable k = none → ∃ t, exec (.geckoException k cause retry addr) s = .next t
      ∧ s.dev.gkTrapped t.dev k cause retry addr.toNat 0)
    ∧ (∀ irq, s.dev.gkTakeable k = some irq → ∃ t, exec (.geckoException k cause retry addr) s = .next t
      ∧ s.dev.gkTrapped t.dev k 0xC false 0 irq) := by
  have hgo : exec (.geckoException k cause retry addr) s = s.becomes (match s.dev.gkTakeable k with
      | some irq => (s.dev.begin (.geckoException k cause retry addr)).gkTrap k 0xC false 0 irq
      | none => (s.dev.begin (.geckoException k cause retry addr)).gkTrap k cause retry addr.toNat 0) :=
    (State.run_running _ _ _ hr).trans (congrArg s.becomes (if_neg (not_not.mpr (List.contains_iff_mem.mpr hc))))
  refine ⟨fun hn => ?_, fun irq hs => ?_⟩
  · rw [hgo, hn]
    exact becomes_gkTrap _ _ _ _ _ h
  · rw [hgo, hs]
    exact becomes_gkTrap _ _ _ _ _ h

theorem exec_interruptTaken (h : s.dev.coreReady k) (hm : s.dev.inMonitor (192 + k) = false) {irq : Nat} (hs : s.dev.gkTakeable k = some irq) :
    ∃ t, exec (.interruptTaken k) s = .next t ∧ s.dev.gkTrapped t.dev k 0xC false 0 irq := by
  have hgo : exec (.interruptTaken k) s = s.becomes (match s.dev.gkTakeable k with
      | some irq => (s.dev.begin (.interruptTaken k)).gkTrap k 0xC false 0 irq
      | none => s.dev.begin (.interruptTaken k)) :=
    (State.run_running _ _ _ hr).trans (congrArg s.becomes (if_neg (by
      rw [Bool.not_eq_true]
      exact hm)))
  rw [hgo, hs]
  exact becomes_gkTrap _ _ _ _ _ h

end

/-! ERET (R181). -/

/-- The engine after a jump, and what the jump leaves. -/
theorem Dev.engOf_jump_settle (d : Dev) (t idx : Nat) :
    (d.jump t idx).settle.engOf t = { d.engOf t with pc := pcOf t idx, nextCk := d.ck + 2 } := by
  unfold Dev.jump
  rw [Dev.engOf_of_eproj ((Dev.eproj_settle _).trans (Dev.eproj_fetch _ t)), Dev.engOf_setEng, Dev.goTo, Dev.engOf_setEng]
  rfl

theorem Dev.jump_settle_keeps (d : Dev) (t idx : Nat) : d.engKeeps (d.jump t idx).settle t := by
  unfold Dev.jump Dev.goTo
  exact (d.engKeeps_setEng t _).trans ((Dev.engKeeps_setEng _ t _).trans
    (Dev.engKeeps_of_eproj t ((Dev.eproj_settle _).trans (Dev.eproj_fetch _ t))))

theorem Dev.csr_jump_settle (d : Dev) (t idx k n : Nat) : (d.jump t idx).settle.csr k n = d.csr k n := by
  unfold Dev.jump Dev.goTo
  rw [Dev.csr_settle, (Dev.fetch_coresStay _ t).csr, Dev.csr_setEng, Dev.csr_setEng]

/-- STATUS is restored. -/
def Dev.gkReturned (d : Dev) (k : Nat) : Dev := d.setCsr k Csr.status.num (statusReturn (d.csr k Csr.status.num))

theorem Dev.eret_jumps (d : Dev) (k : Fin 4) (hp : d.gkPriv k = true) (hl : (d.gkOf k).live = false) :
    d.eret k = (d.gkReturned k).jump (192 + k) ((d.csr k Csr.epc.num).toNat % 2 ^ 62) := by
  have hlive : ((d.gkReturned k).gkOf k).live = false := by
    unfold Dev.gkReturned Dev.setCsr
    rw [Dev.gkOf_setGk]
    exact hl
  have hepc : (d.gkReturned k).csr k Csr.epc.num = d.csr k Csr.epc.num := d.csr_setCsr_ne k _ (by decide)
  rw [← hepc]
  exact (if_neg (by simp [hp])).trans (if_neg (fun hh => by
    rw [show ((d.setCsr k Csr.status.num (statusReturn (d.csr k Csr.status.num))).gkOf k).live = false from hlive] at hh
    exact absurd hh.1 (by decide)))

/-- What an ERET at K restores and leaves. -/
structure Dev.eretDone (d d' : Dev) (k : Fin 4) : Prop where
  status : d'.csr k Csr.status.num = statusReturn (d.csr k Csr.status.num)
  pc : (d'.engOf (coreTarget k)).pc = (d.csr k Csr.epc.num).toNat % 2 ^ 62
  first : (d'.engOf (coreTarget k)).nextCk = d.ck + 2
  csrs : ∀ n, n ≠ Csr.status.num → d'.csr k n = d.csr k n
  n : (d'.engOf (coreTarget k)).n = (d.engOf (coreTarget k)).n
  keeps : d.engKeeps d' (coreTarget k)

theorem pcOf_core (k : Fin 4) (idx : Nat) : pcOf (192 + k) idx = idx % 2 ^ 62 := if_neg (by omega)

theorem Dev.eret_done (d : Dev) (k : Fin 4) (hp : d.gkPriv k = true) (hl : (d.gkOf k).live = false) : d.eretDone (d.eret k).settle k := by
  rw [d.eret_jumps k hp hl]
  have heng := (d.gkReturned k).engOf_jump_settle (192 + k) ((d.csr k Csr.epc.num).toNat % 2 ^ 62)
  have hcsr (n : Nat) := (d.gkReturned k).csr_jump_settle (192 + k) ((d.csr k Csr.epc.num).toNat % 2 ^ 62) k n
  have hkeeps := (d.gkReturned k).jump_settle_keeps (192 + k) ((d.csr k Csr.epc.num).toNat % 2 ^ 62)
  generalize ((d.gkReturned k).jump (192 + k) ((d.csr k Csr.epc.num).toNat % 2 ^ 62)).settle = d' at *
  have heng' : d'.engOf (coreTarget k) = _ := heng
  exact {
    status := (hcsr _).trans (Dev.csr_setCsr _ _ _ _)
    pc := by rw [heng', pcOf_core]; exact Nat.mod_mod _ _
    first := by rw [heng']; rfl
    csrs := fun n hn => (hcsr n).trans (d.csr_setCsr_ne k _ (Ne.symm hn))
    n := by rw [heng']; rfl
    keeps := (Dev.engKeeps_of_eproj _ (d.eproj_setCsr _ _ _)).trans hkeeps }

section
variable {s : State} {k : Fin 4} (hr : s.dev.rst = .running) (hi : s.dev.canIssue (coreTarget k) { alone := true })
include hr hi

theorem exec_eret (hp : s.dev.gkPriv k = true) (hl : (s.dev.gkOf k).live = false) :
    ∃ t, exec (.eret (coreTarget k)) s = .next t ∧ s.dev.eretDone t.dev k := by
  rw [show exec (.eret (coreTarget k)) s = _ from exec_sysOp k _ {} (fun k d => d.eret k) s]
  refine ⟨_, run_issuedAs (coreTarget k) _ _ _ hr hi, ?_⟩
  have ha := s.dev.issuedAs_afterIssue (coreTarget k) (.eret (coreTarget k)) { alone := true }
  have hcsr (n : Nat) := Dev.csr_of_gks ha.gks k n
  have hd := Dev.eret_done _ k ((Dev.gkPriv_of_gks ha.gks k).trans hp) ((congrArg GkSt.live (Dev.gkOf_of_gks ha.gks k)).trans hl)
  exact {
    status := hd.status.trans (by rw [hcsr])
    pc := hd.pc.trans (by rw [hcsr])
    first := hd.first.trans (by rw [ha.tweaks.ck])
    csrs := fun n hn => (hd.csrs n hn).trans (hcsr n)
    n := hd.n.trans ha.tweaks.like.n
    keeps := ha.tweaks.keeps.trans hd.keeps }

/-- ERET at U is a privilege violation (R176). -/
theorem exec_eret_user (h : s.dev.coreReady k) (hp : s.dev.gkPriv k = false) :
    ∃ t, exec (.eret (coreTarget k)) s = .next t ∧ s.dev.gkTrapped t.dev k 9 false 0 0 := by
  rw [show exec (.eret (coreTarget k)) s = _ from exec_sysOp k _ {} (fun k d => d.eret k) s]
  have hpriv := Dev.gkPriv_of_gks (s.dev.issuedAs_afterIssue (coreTarget k) (.eret (coreTarget k)) { alone := true }).gks k
  exact run_issue_gkTrap _ _ _ 9 hr h hi (if_pos (by rw [hpriv, hp]; decide))

end

/-! WFI (R180). -/

theorem Dev.wfi_goes (d : Dev) (k : Fin 4) (hp : d.gkPriv k = true) (hw : d.gkWaiting k ≠ 0) :
    d.wfi k = (d.setFld (Pg.gecko k) F.GECKO_STAT_STATE Gs.run).next (192 + k) := (if_neg (by simp [hp])).trans (if_pos hw)

theorem Dev.wfi_waits (d : Dev) (k : Fin 4) (hp : d.gkPriv k = true) (hw : d.gkWaiting k = 0) :
    d.wfi k = (d.setEng (192 + k) { d.engOf (192 + k) with popWait := true }).setFld (Pg.gecko k) F.GECKO_STAT_STATE Gs.wfi :=
  (if_neg (by simp [hp])).trans (if_neg (not_not.mpr hw))

/-- A core's state as a command that ended by going on to the next instruction leaves it. -/
theorem Dev.gkState_next_settle (d : Dev) (k : Fin 4) {st : Nat} (h : st < 8) :
    ((d.setFld (Pg.gecko k) F.GECKO_STAT_STATE st).next (192 + k)).settle.fld (Pg.gecko k) F.GECKO_STAT_STATE = st := by
  rw [Dev.fld_settle_gecko _ _ (by decide)]
  unfold Dev.fld
  rw [Dev.reg_congr (Dev.next_coresStay _ (192 + k)).regs]
  exact (Dev.fld_setFld d (Pg.gecko k) F.GECKO_STAT_STATE st (by decide)).trans (Nat.mod_eq_of_lt h)

theorem exec_wfi {s : State} {k : Fin 4} (hr : s.dev.rst = .running) (hi : s.dev.canIssue (coreTarget k) { mSlot := true, alone := true })
    (hp : s.dev.gkPriv k = true) :
    (s.dev.gkWaiting k ≠ 0 → ∃ t, exec (.wfi (coreTarget k)) s = .next t ∧ s.dev.engSteps t.dev (coreTarget k)
      ∧ t.dev.fld (Pg.gecko k) F.GECKO_STAT_STATE = Gs.run)
    ∧ (s.dev.gkWaiting k = 0 → ∃ t, exec (.wfi (coreTarget k)) s = .next t
      ∧ (t.dev.engOf (coreTarget k)).pc = (s.dev.engOf (coreTarget k)).pc ∧ (t.dev.engOf (coreTarget k)).popWait = true
      ∧ t.dev.fld (Pg.gecko k) F.GECKO_STAT_STATE = Gs.wfi) := by
  rw [show exec (.wfi (coreTarget k)) s = _ from exec_sysOp k _ { mSlot := true } (fun k d => d.wfi k) s]
  have hrun := run_issuedAs (coreTarget k) (.wfi (coreTarget k)) { mSlot := true, alone := true } (fun d => d.wfi k) hr hi
  have ha := s.dev.issuedAs_afterIssue (coreTarget k) (.wfi (coreTarget k)) { mSlot := true, alone := true }
  have hreads : (s.dev.issuedAs (coreTarget k) (.wfi (coreTarget k)) { mSlot := true, alone := true }).gkPriv k = s.dev.gkPriv k
      ∧ (s.dev.issuedAs (coreTarget k) (.wfi (coreTarget k)) { mSlot := true, alone := true }).gkWaiting k = s.dev.gkWaiting k := by
    obtain ⟨ag, en, db, hd⟩ := s.dev.issuedAs_core (.wfi (coreTarget k)) { mSlot := true, alone := true } (core_le k)
    rw [hd]
    exact ⟨rfl, rfl⟩
  rw [hrun]
  generalize s.dev.issuedAs (coreTarget k) (.wfi (coreTarget k)) { mSlot := true, alone := true } = d at *
  obtain ⟨hpriv, hwait⟩ := hreads
  refine ⟨fun hw => ⟨_, congrArg s.becomes (d.wfi_goes k (hpriv.trans hp) (hwait.trans_ne hw)), ?_, d.gkState_next_settle k (by decide)⟩,
    fun hw => ⟨_, congrArg s.becomes (d.wfi_waits k (hpriv.trans hp) (hwait.trans hw)), ?_, ?_, ?_⟩⟩
  · have heng := (d.setFld (Pg.gecko k) F.GECKO_STAT_STATE Gs.run).engOf_next_settle (coreTarget k)
    exact ⟨(congrArg EngSt.n heng).trans ha.tweaks.like.n, (congrArg EngSt.p heng).trans ha.tweaks.like.p,
      (congrArg EngSt.pc heng).trans (congrArg (fun n => pcOf (coreTarget k) (n + 1)) ha.tweaks.like.pc)⟩
  · exact (congrArg EngSt.pc (Dev.engOf_of_eproj ((Dev.eproj_settle _).trans (Dev.eproj_setFld _ _ _ _)) (coreTarget k))).trans
      ((congrArg EngSt.pc (d.engOf_setEng (coreTarget k) _)).trans ha.tweaks.like.pc)
  · exact (congrArg EngSt.popWait (Dev.engOf_of_eproj ((Dev.eproj_settle _).trans (Dev.eproj_setFld _ _ _ _)) (coreTarget k))).trans
      (congrArg EngSt.popWait (d.engOf_setEng (coreTarget k) _))
  · exact (Dev.fld_settle_gecko _ _ (by decide)).trans (Dev.fld_setFld _ _ _ _ (by decide))

/-- Settles O28: each way into the handler is the one entry that saves the core's state, and ERET and WFI act on the core as the issue
leaves it. -/
theorem coreExceptionsAndReturn : Obligations.CoreExceptionsAndReturn := by
  intro k s hr d e
  refine ⟨fun h hi => ⟨exec_ecall hr h hi, exec_trap_core hr h hi⟩, fun h cause retry addr hc => exec_geckoException hr h cause retry addr hc,
    fun irq h hm hs => exec_interruptTaken hr h hm hs, fun hi hp hl => ?_, fun hi h hp => exec_eret_user hr hi h hp,
    fun hi hp => exec_wfi hr hi hp⟩
  obtain ⟨t, hgo, hd⟩ := exec_eret hr hi hp hl
  exact ⟨t, hgo, hd.status, hd.pc, hd.first, hd.csrs, hd.n, hd.keeps⟩

end Sys2Proof.Machine
end

section
/-! PROOFS. The instructions that compute a register (R160 to R162, R166, Tables 8-2 to 8-4): what CLZ, POPC and BSWAP count and move, and O13
and O14. -/

namespace Sys2Proof.Machine

/-! Bits of numbers. -/

theorem testBit_bitsOf (x lo wd j : Nat) : (bitsOf x lo wd).testBit j = (decide (j < wd) && x.testBit (lo + j)) := by
  unfold bitsOf
  rw [Nat.testBit_mod_two_pow, Nat.testBit_div_two_pow, Nat.add_comm]

theorem getLsbD_byteOf (x j : Nat) {b : Nat} (h : b < 8) : (byteOf x j).getLsbD b = x.testBit (8 * j + b) := by
  unfold byteOf
  rw [BitVec.getLsbD_ofNat, decide_eq_true h, Bool.true_and, Nat.testBit_div_two_pow, Nat.add_comm]

theorem testBit_leNat (l : List Byte) (j : Nat) {b : Nat} (h : b < 8) : (leNat l).testBit (8 * j + b) = (byteAt l j).getLsbD b := by
  induction l generalizing j with
  | nil => simp [leNat, byteAt]
  | cons x r ih =>
    have hsum : leNat (x :: r) = 2 ^ 8 * leNat r + x.toNat := by
      show x.toNat + 256 * leNat r = _
      omega
    rw [hsum, Nat.testBit_two_pow_mul_add _ x.isLt]
    cases j with
    | zero =>
      rw [if_pos (by omega), Nat.mul_zero, Nat.zero_add]
      rfl
    | succ j =>
      rw [if_neg (by omega), show 8 * (j + 1) + b - 8 = 8 * j + b by omega, ih]
      rfl

theorem byteAt_leBytes (k x : Nat) {j : Nat} (h : j < k) : byteAt (leBytes k x) j = byteOf x j := by
  simp [byteAt, leBytes, List.getD, h]

theorem byteAt_reverse (l : List Byte) {j : Nat} (h : j < l.length) : byteAt l.reverse j = byteAt l (l.length - 1 - j) := by
  unfold byteAt
  rw [List.getD_eq_getElem _ _ (by rw [List.length_reverse]; exact h), List.getElem_reverse, List.getD_eq_getElem]

/-! CLZ, POPC and BSWAP (R166). -/

/-- The zeros above the highest one are those before the first one found from bit 63 down. -/
theorem toNat_aluClz (x : Word64) : (aluClz x).toNat = (List.range 64).findIdx (fun i => x.getLsbD (63 - i)) := by
  have hle := List.findIdx_le_length (p := fun i => x.getLsbD (63 - i)) (xs := List.range 64)
  rw [List.length_range] at hle
  unfold aluClz
  rw [List.takeWhile_eq_take_findIdx_not, List.length_take, List.length_range, BitVec.toNat_ofNat]
  simp only [Bool.not_not]
  omega

theorem aluClz_counts (x : Word64) : (aluClz x).toNat ≤ 64 ∧ (∀ j, j < 64 → 64 - (aluClz x).toNat ≤ j → x.getLsbD j = false)
    ∧ (x ≠ 0#64 → x.getLsbD (63 - (aluClz x).toNat) = true) := by
  have hle := List.findIdx_le_length (p := fun i => x.getLsbD (63 - i)) (xs := List.range 64)
  rw [List.length_range, ← toNat_aluClz] at hle
  have hzeros : ∀ j, j < 64 → 64 - (aluClz x).toNat ≤ j → x.getLsbD j = false := fun j hj hlow => by
    have hbefore : 63 - j < (List.range 64).findIdx (fun i => x.getLsbD (63 - i)) := by rw [← toNat_aluClz]; omega
    have hbit := List.not_of_lt_findIdx hbefore
    rw [List.getElem_range, show 63 - (63 - j) = j by omega] at hbit
    exact hbit
  refine ⟨hle, hzeros, fun hx => ?_⟩
  by_cases hall : (aluClz x).toNat = 64
  · refine absurd (BitVec.eq_of_getLsbD_eq fun j hj => ?_) hx
    rw [hzeros j hj (by omega), BitVec.getLsbD_zero]
  · have hlt : (List.range 64).findIdx (fun i => x.getLsbD (63 - i)) < (List.range 64).length := by
      rw [List.length_range, ← toNat_aluClz]; omega
    have hbit := List.findIdx_getElem (w := hlt)
    rw [List.getElem_range, ← toNat_aluClz] at hbit
    exact hbit

theorem aluPopc_counts (x : Word64) : (aluPopc x).toNat = ((List.range 64).filter (fun j => x.getLsbD j)).length := by
  have hle : ((List.range 64).filter (fun j => x.getLsbD j)).length ≤ 64 := by
    simpa using List.length_filter_le (fun j => x.getLsbD j) (List.range 64)
  show (BitVec.ofNat 64 ((List.range 64).filter (fun j => x.getLsbD j)).length).toNat = _
  rw [BitVec.toNat_ofNat, Nat.mod_eq_of_lt (by omega)]

theorem aluBswap_moves (x : Word64) (j b : Nat) (hj : j < 8) (hb : b < 8) :
    (aluBswap x).getLsbD (8 * j + b) = x.getLsbD (8 * (7 - j) + b) := by
  have hlen : (leBytes 8 x.toNat).length = 8 := leBytes_length 8 x.toNat
  calc (aluBswap x).getLsbD (8 * j + b)
      = (leNat (leBytes 8 x.toNat).reverse).testBit (8 * j + b) := by
        unfold aluBswap
        rw [BitVec.getLsbD_ofNat, decide_eq_true (by omega), Bool.true_and]
    _ = (byteAt (leBytes 8 x.toNat).reverse j).getLsbD b := testBit_leNat _ j hb
    _ = (byteOf x.toNat (7 - j)).getLsbD b := by
        rw [byteAt_reverse _ (by omega), hlen, byteAt_leBytes _ _ (by omega)]
    _ = x.getLsbD (8 * (7 - j) + b) := getLsbD_byteOf _ _ hb

/-! An instruction whose result is a function of its sources. -/

section
variable {i : Instr} {e : Fin 196} {dst a b : Fin 32} {k : Nat}

/-- A result of two registers. -/
theorem aluStep_binary (op : Word64 → Word64 → Word64)
    (hx : ∀ s, exec i s = s.run i (fun d => d.alu e i dst [nReg a, nReg b] k (fun g => op (g.reg a) (g.reg b)))) :
    aluStep i e dst [nReg a, nReg b] k (fun g => op (g.reg a) (g.reg b)) :=
  aluStep_of hx (fun g g' h => by rw [h.reg, h.reg])

/-- A result of one register. -/
theorem aluStep_unary (op : Word64 → Word64)
    (hx : ∀ s, exec i s = s.run i (fun d => d.alu e i dst [nReg a] k (fun g => op (g.reg a)))) :
    aluStep i e dst [nReg a] k (fun g => op (g.reg a)) :=
  aluStep_of hx (fun g g' h => by rw [h.reg])

end

/-- Settles O13: each instruction is `alu` of its operation on the sources, and CLZ, POPC and BSWAP are what they count and move. -/
theorem aluWritesItsRegister : Obligations.AluWritesItsRegister := by
  refine ⟨fun e dst a b p => ?_, aluClz_counts, aluPopc_counts, aluBswap_moves⟩
  refine ⟨?add, ?sub, ?and, ?or, ?xor, ?andn, ?sll, ?srl, ?sra, ?rol, ?ror, ?mul, ?mulhu, ?sel, ?clz, ?popc, ?bswap⟩
  case add => exact aluStep_binary (· + ·) (fun _ => rfl)
  case sub => exact aluStep_binary (· - ·) (fun _ => rfl)
  case and => exact aluStep_binary (· &&& ·) (fun _ => rfl)
  case or => exact aluStep_binary (· ||| ·) (fun _ => rfl)
  case xor => exact aluStep_binary (· ^^^ ·) (fun _ => rfl)
  case andn => exact aluStep_binary (fun x y => x &&& ~~~y) (fun _ => rfl)
  case sll => exact aluStep_binary Shift.sll.apply (fun _ => rfl)
  case srl => exact aluStep_binary Shift.srl.apply (fun _ => rfl)
  case sra => exact aluStep_binary Shift.sra.apply (fun _ => rfl)
  case rol => exact aluStep_binary Shift.rol.apply (fun _ => rfl)
  case ror => exact aluStep_binary Shift.ror.apply (fun _ => rfl)
  case mul => exact aluStep_binary (· * ·) (fun _ => rfl)
  case mulhu => exact aluStep_binary aluMulhu (fun _ => rfl)
  case sel =>
    exact aluStep_of (v := fun g => if g.pred p then g.reg a else g.reg b) (fun _ => rfl) (fun g g' h => by rw [h.reg, h.reg, h.pred])
  case clz => exact aluStep_unary aluClz (fun _ => rfl)
  case popc => exact aluStep_unary aluPopc (fun _ => rfl)
  case bswap => exact aluStep_unary aluBswap (fun _ => rfl)

/-- Settles O14: each instruction is `alu` of its operation on the source and the extended immediate. -/
theorem immediatesWriteTheirRegister : Obligations.ImmediatesWriteTheirRegister := by
  intro e dst a imm amt
  refine ⟨?addi, ?andi, ?ori, ?xori, ?lsi, ?sll, ?srl, ?sra, ?rol⟩
  case addi => exact aluStep_unary (· + imm.signExtend 64) (fun _ => rfl)
  case andi => exact aluStep_unary (· &&& imm.zeroExtend 64) (fun _ => rfl)
  case ori => exact aluStep_unary (· ||| imm.zeroExtend 64) (fun _ => rfl)
  case xori => exact aluStep_unary (· ^^^ imm.zeroExtend 64) (fun _ => rfl)
  case lsi => exact aluStep_unary (aluLsi · imm) (fun _ => rfl)
  case sll => exact aluStep_unary (· <<< amt.val) (fun _ => rfl)
  case srl => exact aluStep_unary (· >>> amt.val) (fun _ => rfl)
  case sra => exact aluStep_unary (·.sshiftRight amt.val) (fun _ => rfl)
  case rol => exact aluStep_unary (·.rotateLeft amt.val) (fun _ => rfl)

end Sys2Proof.Machine
end

section
/-! PROOFS. Bit fields and carry-less products (R167, R169), bit by bit, and O16. -/

namespace Sys2Proof.Machine

/-! Bit fields (R167). -/

/-- A field taken out. -/
theorem getLsbD_bfExt (x : Word64) {off len1 : Nat} (j : Nat) (h : off + len1 < 64) :
    (bfExt x off len1).getLsbD j = (decide (j ≤ len1) && x.getLsbD (off + j)) := by
  unfold bfExt
  rw [BitVec.getLsbD_ofNat, testBit_bitsOf]
  by_cases hj : j ≤ len1
  · rw [decide_eq_true (show j < 64 by omega), decide_eq_true (Nat.lt_succ_of_le hj), decide_eq_true hj, Bool.true_and]
    rfl
  · rw [decide_eq_false (show ¬ j < len1 + 1 by omega), decide_eq_false hj, Bool.false_and, Bool.and_false, Bool.false_and]

/-- A number read as signed at a width is the word of that width read so. -/
theorem signed_eq_toInt (wd x : Nat) : signed (wd + 1) x = (BitVec.ofNat (wd + 1) x).toInt := by
  have hhalf : 2 ^ (wd + 1) = 2 * 2 ^ wd := by rw [Nat.pow_succ, Nat.mul_comm]
  unfold signed
  rw [BitVec.toInt_eq_toNat_cond, BitVec.toNat_ofNat, Nat.add_sub_cancel]
  by_cases hlt : x % 2 ^ (wd + 1) < 2 ^ wd
  · rw [if_pos hlt, if_pos (by omega)]
  · rw [if_neg hlt, if_neg (by omega)]

/-- A field taken out with its sign is the word of the field's width, sign-extended. -/
theorem bfExts_eq_signExtend (x : Word64) (off len1 : Nat) :
    bfExts x off len1 = (BitVec.ofNat (len1 + 1) (bitsOf x.toNat off (len1 + 1))).signExtend 64 := by
  unfold bfExts
  rw [signed_eq_toInt]
  rfl

theorem getLsbD_bfExts (x : Word64) {off len1 j : Nat} (hj : j < 64) :
    (bfExts x off len1).getLsbD j = x.getLsbD (off + min j len1) := by
  have hbit {i : Nat} (hi : i < len1 + 1) : (BitVec.ofNat (len1 + 1) (bitsOf x.toNat off (len1 + 1))).getLsbD i = x.getLsbD (off + i) := by
    rw [BitVec.getLsbD_ofNat, testBit_bitsOf, decide_eq_true hi, Bool.true_and, Bool.true_and]
    rfl
  rw [bfExts_eq_signExtend, BitVec.getLsbD_signExtend, decide_eq_true hj, Bool.true_and]
  by_cases hin : j < len1 + 1
  · rw [if_pos hin, hbit hin, Nat.min_eq_left (by omega)]
  · rw [if_neg hin, BitVec.msb_eq_getLsbD_last, Nat.add_sub_cancel, hbit (Nat.lt_succ_self _), Nat.min_eq_right (by omega)]

theorem testBit_bitsPut (x lo wd v j : Nat) : (bitsPut x lo wd v).testBit j
    = if lo ≤ j ∧ j < lo + wd then v.testBit (j - lo) else x.testBit j := by
  rcases Nat.lt_or_ge j lo with hj | hj
  · have hlow := congrArg (fun n => n.testBit j) (bitsPut_low x lo wd v)
    simp only [Nat.testBit_mod_two_pow, hj, decide_true, Bool.true_and] at hlow
    rw [hlow, if_neg (by omega)]
  · obtain ⟨i, rfl⟩ := Nat.exists_eq_add_of_le hj
    have hhigh : (bitsPut x lo wd v).testBit (lo + i) = (2 ^ wd * (x / 2 ^ (lo + wd)) + v % 2 ^ wd).testBit i := by
      rw [Nat.mul_comm, ← bitsPut_high, Nat.testBit_div_two_pow, Nat.add_comm]
    rw [hhigh, Nat.testBit_two_pow_mul_add _ (Nat.mod_lt _ (by positivity)), Nat.add_sub_cancel_left]
    by_cases hi : i < wd
    · rw [if_pos hi, if_pos (by omega), Nat.testBit_mod_two_pow, decide_eq_true hi, Bool.true_and]
    · rw [if_neg hi, if_neg (by omega), Nat.testBit_div_two_pow]
      congr 1
      omega

theorem getLsbD_bfIns (d x : Word64) {off len1 j : Nat} (hj : j < 64) : (bfIns d x off len1).getLsbD j
    = if off ≤ j ∧ j ≤ off + len1 then x.getLsbD (j - off) else d.getLsbD j := by
  unfold bfIns
  rw [BitVec.getLsbD_ofNat, decide_eq_true hj, Bool.true_and, testBit_bitsPut, ← Nat.add_assoc]
  simp only [Nat.lt_succ_iff]
  rfl

/-! Carry-less products (R169). -/

/-- A bit of a sum without carries of the numbers a list selects. -/
theorem testBit_foldl_xor (p : Nat → Bool) (f : Nat → Nat) (l : List Nat) (x j : Nat) :
    (l.foldl (fun x i => if p i then x ^^^ f i else x) x).testBit j
      = l.foldl (fun (acc : Bool) i => acc ^^ (p i && (f i).testBit j)) (x.testBit j) := by
  induction l generalizing x with
  | nil => rfl
  | cons i r ih =>
    rw [List.foldl_cons, List.foldl_cons, ih]
    congr 1
    cases p i with
    | false => simp
    | true => simp

/-- Bit `j` of the product: the sources' bits whose places add up to `j`. -/
theorem testBit_clmul (x y : Word64) (j : Nat) : (clmul x y).testBit j
    = (List.range 64).foldl (fun (acc : Bool) k => acc ^^ (y.getLsbD k && decide (k ≤ j) && x.getLsbD (j - k))) false := by
  unfold clmul
  rw [testBit_foldl_xor, Nat.zero_testBit]
  simp only [Nat.testBit_mul_two_pow, Bool.and_assoc]
  rfl

/-- A sum without carries of numbers below a power of 2 stays below it. -/
theorem foldl_xor_lt (p : Nat → Bool) (f : Nat → Nat) {n : Nat} (l : List Nat) (hf : ∀ i ∈ l, f i < 2 ^ n) {x : Nat} (hx : x < 2 ^ n) :
    l.foldl (fun x i => if p i then x ^^^ f i else x) x < 2 ^ n := by
  induction l generalizing x with
  | nil => exact hx
  | cons i r ih =>
    refine ih (fun k hk => hf k (List.mem_cons_of_mem _ hk)) ?_
    dsimp only
    split
    · exact Nat.xor_lt_two_pow hx (hf i List.mem_cons_self)
    · exact hx

theorem clmul_lt (x y : Word64) : clmul x y < 2 ^ 127 := by
  refine foldl_xor_lt _ _ _ (fun i hi => ?_) (by decide)
  have hi64 : 2 ^ i ≤ 2 ^ 63 := Nat.pow_le_pow_right (by decide) (Nat.le_pred_of_lt (List.mem_range.mp hi))
  calc x.toNat * 2 ^ i ≤ x.toNat * 2 ^ 63 := Nat.mul_le_mul_left _ hi64
    _ < 2 ^ 64 * 2 ^ 63 := Nat.mul_lt_mul_of_pos_right x.isLt (by decide)
    _ = 2 ^ 127 := by decide

theorem getLsbD_clmulLo (x y : Word64) {j : Nat} (h : j < 64) : (clmulLo x y).getLsbD j = (clmul x y).testBit j := by
  unfold clmulLo
  rw [BitVec.getLsbD_ofNat, decide_eq_true h, Bool.true_and]

theorem getLsbD_clmulHi (x y : Word64) {j : Nat} (h : j < 64) : (clmulHi x y).getLsbD j = (clmul x y).testBit (64 + j) := by
  unfold clmulHi
  rw [BitVec.getLsbD_ofNat, decide_eq_true h, Bool.true_and, Nat.testBit_div_two_pow, Nat.add_comm]

/-! The instructions. -/

section
variable {e : Fin 196} {dst a : Fin 32} {off len1 : Fin 64} (h : off.val + len1.val < 64)
include h

/-- A field that ends at bit 63 or below is no reserved form. -/
theorem field_not_reserved (f g : Dev → Dev) : (fun d : Dev => if 64 < off.val + len1.val + 1 then f d else g d) = g :=
  funext fun _ => if_neg (by omega)

theorem ext_aluStep : aluStep (.ext e dst a off len1) e dst [nReg a] 1 (fun g => bfExt (g.reg a) off.val len1.val) :=
  aluStep_unary (bfExt · off.val len1.val) (fun s => congrArg (s.run _) (field_not_reserved h _ _))

theorem exts_aluStep : aluStep (.exts e dst a off len1) e dst [nReg a] 1 (fun g => bfExts (g.reg a) off.val len1.val) :=
  aluStep_unary (bfExts · off.val len1.val) (fun s => congrArg (s.run _) (field_not_reserved h _ _))

theorem ins_aluStep : aluStep (.ins e dst a off len1) e dst [nReg a, nReg dst] 1 (fun g => bfIns (g.reg dst) (g.reg a) off.val len1.val) :=
  aluStep_binary (fun x d => bfIns d x off.val len1.val) (fun s => congrArg (s.run _) (field_not_reserved h _ _))

end

/-- Settles O16: EXT, EXTS and INS of a field within the word and CLMUL are `alu` of their functions, and the functions bit by bit. -/
theorem bitFieldsAndCarrylessProducts : Obligations.BitFieldsAndCarrylessProducts := by
  refine ⟨fun e dst a b off len1 => ⟨fun h => ⟨ext_aluStep h, exts_aluStep h, ins_aluStep h⟩, aluStep_binary clmulLo (fun _ => rfl),
      aluStep_binary clmulHi (fun _ => rfl)⟩,
    fun x off len1 j h => getLsbD_bfExt x j h, fun x off len1 j _ hj => getLsbD_bfExts x hj,
    fun d x off len1 j _ hj => getLsbD_bfIns d x hj, fun x y j hj => ?_, fun x y => ?_⟩
  · rw [← testBit_clmul]
    split
    · next hlo => exact getLsbD_clmulLo x y hlo
    · next hhi => rw [getLsbD_clmulHi x y (by omega), Nat.add_sub_cancel' (by omega)]
  · rw [getLsbD_clmulHi x y (by decide)]
    exact Nat.testBit_lt_two_pow (clmul_lt x y)

end Sys2Proof.Machine
end

section
/-! PROOFS. Comparisons and predicate operations (R161, R168, Tables 8-3 and 8-4), and O15. -/

namespace Sys2Proof.Machine

/-! An instruction that writes a predicate. -/

/-- The block once a predicate's result has come, at the end of the command. -/
theorem Dev.engOf_predResult_next (d : Dev) (t : Nat) (pd : Fin 8) (v : Bool) (k : Nat) (mem : Bool) :
    ((d.predResult t pd v k mem).next t).settle.engOf t
      = { (d.engOf t).setPred pd v with ready := sput (d.engOf t).ready (32 + pd.val) (d.ck + k, mem), pc := pcOf t ((d.engOf t).pc + 1) } := by
  rw [Dev.engOf_next_settle, Dev.predResult, Dev.engOf_setEng]
  rfl

theorem Dev.predResult_next_keeps (d : Dev) (t : Nat) (pd : Fin 8) (v : Bool) (k : Nat) (mem : Bool) :
    d.engKeeps ((d.predResult t pd v k mem).next t).settle t := (d.engKeeps_setEng t _).trans (Dev.next_settle_keeps _ t)

/-- An instruction whose meaning is `predOp` writes its predicate where it may issue. -/
theorem predStep_of {i : Instr} {e : Fin 196} {pd : Fin 8} {reads : List Nat} {v w : EngSt → Bool}
    (hx : ∀ s, exec i s = s.run i (fun d => d.predOp e i pd reads v)) (hv : ∀ g g' : EngSt, g.like g' → v g' = w g) :
    predStep i e pd reads w := by
  intro s hr hc
  have hrun := run_issuedAs e i { reads := reads, writes := [pReg pd] } (fun d => (d.predResult e.val pd (v (d.engOf e.val)) 1 false).next e.val) hr hc
  have ha := s.dev.issuedAs_afterIssue e i { reads := reads, writes := [pReg pd] }
  refine ⟨_, (hx s).trans hrun, ?_⟩
  generalize s.dev.issuedAs e i { reads := reads, writes := [pReg pd] } = d at *
  have heng := d.engOf_predResult_next e pd (v (d.engOf e)) 1 false
  have hpred (q : Fin 8) : (((d.predResult e pd (v (d.engOf e)) 1 false).next e).settle.engOf e).pred q
      = ((d.engOf e).setPred pd (v (d.engOf e))).pred q := by rw [heng]; rfl
  refine ⟨?_, fun q hq => ?_, ?_, ?_, ha.tweaks.keeps.trans (d.predResult_next_keeps e pd _ 1 false)⟩
  · exact (hpred pd).trans ((EngSt.pred_setPred _ _ _).trans (hv _ _ ha.tweaks.like))
  · exact (hpred q).trans ((EngSt.pred_setPred_ne _ _ hq).trans (ha.tweaks.like.pred q))
  · exact (congrArg EngSt.n heng).trans ha.tweaks.like.n
  · exact (congrArg EngSt.pc heng).trans (congrArg (fun n => pcOf e (n + 1)) ha.tweaks.like.pc)

/-! The modes of a comparison. -/

/-- The mode combines a result with the predicate's old value. -/
def mixed (mode : BitVec 2) (old c : Bool) : Bool := if mode = 0#2 then c else if mode = 1#2 then old && c else old || c

theorem combine_getD {mode : BitVec 2} (h : mode ≠ 3#2) (old c : Bool) : (combine mode old c).getD false = mixed mode old c := by
  obtain rfl | rfl | rfl : mode = 0#2 ∨ mode = 1#2 ∨ mode = 2#2 := by
    revert h
    revert mode
    decide
  · rfl
  · rfl
  · rfl

section
variable {i : Instr} {e : Fin 196} {pd : Fin 8} {a b : Fin 32}

/-- A comparison in a mode that is not reserved. -/
theorem predStep_cmp {mode : BitVec 2} (hm : mode ≠ 3#2) {reads : List Nat} {c c' : EngSt → Bool}
    (hx : ∀ s, exec i s = s.run i (fun d => if mode = 3#2 then d.reservedForm e
      else d.predOp e i pd (reads ++ if mode = 0#2 then [] else [pReg pd]) (fun g => (combine mode (g.pred pd) (c g)).getD false)))
    (hc : ∀ g g' : EngSt, g.like g' → c g' = c' g) :
    predStep i e pd (reads ++ if mode = 0#2 then [] else [pReg pd]) (fun g => mixed mode (g.pred pd) (c' g)) := by
  refine predStep_of (fun s => (hx s).trans (congrArg (s.run i) (funext fun _ => if_neg hm))) (fun g g' h => ?_)
  rw [combine_getD hm, h.pred, hc g g' h]

/-- A comparison of two registers. -/
theorem predStep_cond {mode : BitVec 2} (hm : mode ≠ 3#2) (c : Cond) {test : Word64 → Word64 → Bool} (hc : ∀ x y, c.holds x y = test x y)
    (hx : ∀ s, exec i s = s.run i (fun d => if mode = 3#2 then d.reservedForm e
      else d.predOp e i pd ([nReg a, nReg b] ++ if mode = 0#2 then [] else [pReg pd])
        (fun g => (combine mode (g.pred pd) (c.holds (g.reg a) (g.reg b))).getD false))) :
    predStep i e pd ([nReg a, nReg b] ++ if mode = 0#2 then [] else [pReg pd]) (fun g => mixed mode (g.pred pd) (test (g.reg a) (g.reg b))) :=
  predStep_cmp hm hx (fun g g' h => by rw [h.reg, h.reg, hc])

/-- A comparison with an immediate. -/
theorem predStep_imm (imm : BitVec 16) (c : Cond) {test : Word64 → Word64 → Bool} (hc : ∀ x y, c.holds x y = test x y)
    (hx : ∀ s, exec i s = s.run i (fun d => d.predOp e i pd [nReg a] (fun g => c.holds (g.reg a) (sext16 imm)))) :
    predStep i e pd [nReg a] (fun g => test (g.reg a) (imm.signExtend 64)) :=
  predStep_of hx (fun g g' h => by rw [h.reg, hc]; rfl)

/-- A combination of two predicates. -/
theorem predStep_pair {pa pb : Fin 8} (op : Bool → Bool → Bool)
    (hx : ∀ s, exec i s = s.run i (fun d => d.predOp e i pd [pReg pa, pReg pb] (fun g => op (g.pred pa) (g.pred pb)))) :
    predStep i e pd [pReg pa, pReg pb] (fun g => op (g.pred pa) (g.pred pb)) :=
  predStep_of hx (fun g g' h => by rw [h.pred, h.pred])

end

/-! The conditions as they compare numbers. -/

theorem Cond.holds_eq (x y : Word64) : Cond.eq.holds x y = decide (x = y) := rfl
theorem Cond.holds_ne (x y : Word64) : Cond.ne.holds x y = decide (x ≠ y) := rfl
theorem Cond.holds_ltu (x y : Word64) : Cond.ltu.holds x y = decide (x.toNat < y.toNat) := rfl
theorem Cond.holds_lt (x y : Word64) : Cond.lt.holds x y = decide (x.toInt < y.toInt) := rfl

theorem Cond.holds_geu (x y : Word64) : Cond.geu.holds x y = decide (y.toNat ≤ x.toNat) :=
  (decide_not (p := x.toNat < y.toNat)).symm.trans (decide_eq_decide.mpr Nat.not_lt)

theorem Cond.holds_ge (x y : Word64) : Cond.ge.holds x y = decide (y.toInt ≤ x.toInt) :=
  (decide_not (p := x.toInt < y.toInt)).symm.trans (decide_eq_decide.mpr Int.not_lt)

/-- Settles O15: a comparison's mode combines its condition with the predicate's old value, and every instruction is `predOp` of what it tells. -/
theorem comparisonsWritePredicates : Obligations.ComparisonsWritePredicates := by
  intro e pd pa pb a b m imm
  refine ⟨fun mode hm => ⟨?eqm, ?nem, ?eq, ?ne, ?ltu, ?geu, ?lt, ?ge⟩, ?ieq, ?ine, ?iltu, ?igeu, ?and, ?or, ?xor, ?andn, ?set, ?clr⟩
  case eqm =>
    exact predStep_cmp hm (c' := fun g => decide ((g.reg a ^^^ g.reg b) &&& g.reg m = 0#64)) (fun _ => rfl)
      (fun g g' h => by rw [h.reg, h.reg, h.reg]; rfl)
  case nem =>
    exact predStep_cmp hm (c' := fun g => decide ((g.reg a ^^^ g.reg b) &&& g.reg m ≠ 0#64)) (fun _ => rfl)
      (fun g g' h => by rw [h.reg, h.reg, h.reg, decide_not]; rfl)
  case eq => exact predStep_cond hm .eq Cond.holds_eq (fun _ => rfl)
  case ne => exact predStep_cond hm .ne Cond.holds_ne (fun _ => rfl)
  case ltu => exact predStep_cond hm .ltu Cond.holds_ltu (fun _ => rfl)
  case geu => exact predStep_cond hm .geu Cond.holds_geu (fun _ => rfl)
  case lt => exact predStep_cond hm .lt Cond.holds_lt (fun _ => rfl)
  case ge => exact predStep_cond hm .ge Cond.holds_ge (fun _ => rfl)
  case ieq => exact predStep_imm imm .eq Cond.holds_eq (fun _ => rfl)
  case ine => exact predStep_imm imm .ne Cond.holds_ne (fun _ => rfl)
  case iltu => exact predStep_imm imm .ltu Cond.holds_ltu (fun _ => rfl)
  case igeu => exact predStep_imm imm .geu Cond.holds_geu (fun _ => rfl)
  case and => exact predStep_pair (· && ·) (fun _ => rfl)
  case or => exact predStep_pair (· || ·) (fun _ => rfl)
  case xor => exact predStep_pair (· ^^ ·) (fun _ => rfl)
  case andn => exact predStep_pair (fun x y => x && !y) (fun _ => rfl)
  case set => exact predStep_of (fun _ => rfl) (fun _ _ _ => rfl)
  case clr => exact predStep_of (fun _ => rfl) (fun _ _ _ => rfl)

end Sys2Proof.Machine
end

section
/-! PROOFS. BR, JAL and JR (R160, R165, Table 8-4), and O17. -/

namespace Sys2Proof.Machine

/-! A result that is not from memory. -/

/-- A target's state with a register's result: n0 takes none (R160). -/
structure EngSt.took (g g' : EngSt) (dst : Fin 32) (v : Word64) : Prop where
  val : g'.reg dst = if dst = 0 then 0#64 else v
  regs : ∀ r, r ≠ dst → g'.reg r = g.reg r
  p : g'.p = g.p
  pc : g'.pc = g.pc

theorem EngSt.took.of_like {g g' g'' : EngSt} {dst : Fin 32} {v : Word64} (h : g.like g') (ht : g'.took g'' dst v) : g.took g'' dst v :=
  ⟨ht.val, fun r hr => (ht.regs r hr).trans (h.reg r), ht.p.trans h.p, ht.pc.trans h.pc⟩

theorem Dev.result_zero (d : Dev) (t : Nat) (v : Word64) (k : Nat) : d.result t 0 v k false = d := by
  unfold Dev.result
  dsimp only
  exact if_pos ⟨rfl, Bool.false_ne_true⟩

theorem Dev.result_took (d : Dev) (t : Nat) (dst : Fin 32) (v : Word64) (k : Nat) :
    (d.engOf t).took ((d.result t dst v k false).engOf t) dst v := by
  by_cases h0 : dst = 0
  · subst h0
    rw [d.result_zero]
    exact ⟨rfl, fun _ _ => rfl, rfl, rfl⟩
  · have heng := d.engOf_result t v k false h0
    have hreg (q : Fin 32) : ((d.result t dst v k false).engOf t).reg q = ((d.engOf t).setReg dst v).reg q := by rw [heng]; rfl
    refine ⟨(hreg dst).trans (EngSt.reg_setReg _ _ _), fun r hr => (hreg r).trans (EngSt.reg_setReg_ne _ _ hr), ?_, ?_⟩
    · exact (congrArg EngSt.p heng).trans (EngSt.p_setReg _ _ _)
    · exact (congrArg EngSt.pc heng).trans (EngSt.pc_setReg _ _ _)

theorem Dev.result_engKeeps (d : Dev) (t : Nat) (dst : Fin 32) (v : Word64) (k : Nat) : d.engKeeps (d.result t dst v k false) t := by
  by_cases h0 : dst = 0
  · subst h0
    rw [d.result_zero]
    exact d.engKeeps_refl t
  · exact d.result_keeps t v k false h0

theorem Dev.ck_result (d : Dev) (t : Nat) (dst : Fin 32) (v : Word64) (k : Nat) : (d.result t dst v k false).ck = d.ck := by
  unfold Dev.result
  dsimp only
  split
  · rfl
  · rfl

/-! Jumps. -/

/-- A jump with a link, at the end of its command: where it goes, when its target issues, what it writes and leaves. -/
structure Dev.linked (d d' : Dev) (e : Fin 196) (dst : Fin 32) (idx : Nat) : Prop where
  pc : (d'.engOf e).pc = pcOf e idx
  first : (d'.engOf e).nextCk = d.ck + 2
  link : (d'.engOf e).reg dst = if dst = 0 then 0#64 else BitVec.ofNat 64 (pcOf e ((d.engOf e).pc + 1))
  regs : ∀ r, r ≠ dst → (d'.engOf e).reg r = (d.engOf e).reg r
  p : (d'.engOf e).p = (d.engOf e).p
  keeps : d.engKeeps d' e

theorem linkOf_eq (e : Fin 196) (pc : Nat) : linkOf e pc = BitVec.ofNat 64 (pcOf e (pc + 1)) := rfl

theorem Dev.result_jump_linked {d d' : Dev} {e : Fin 196} (dst : Fin 32) (idx : Nat) (h : d.tweaks d' e) :
    d.linked ((d'.result e dst (linkOf e (d'.engOf e).pc) 1 false).jump e idx).settle e dst idx := by
  have htook := (d'.result_took e dst (linkOf e (d'.engOf e).pc) 1).of_like h.like
  have hkeeps := h.keeps.trans ((d'.result_engKeeps e dst (linkOf e (d'.engOf e).pc) 1).trans (Dev.jump_settle_keeps _ e idx))
  have hck := (d'.ck_result e dst (linkOf e (d'.engOf e).pc) 1).trans h.ck
  generalize hr : d'.result e dst (linkOf e (d'.engOf e).pc) 1 false = r at *
  have heng := r.engOf_jump_settle e idx
  have hreg (q : Fin 32) : ((r.jump e idx).settle.engOf e).reg q = (r.engOf e).reg q := by rw [heng]; rfl
  exact {
    pc := congrArg EngSt.pc heng
    first := (congrArg EngSt.nextCk heng).trans (congrArg (· + 2) hck)
    link := (hreg dst).trans (htook.val.trans (by rw [linkOf_eq, h.like.pc]))
    regs := fun q hq => (hreg q).trans (htook.regs q hq)
    p := (congrArg EngSt.p heng).trans htook.p
    keeps := hkeeps }

section
variable {e : Fin 196} {s : State} (hr : s.dev.rst = .running)
include hr

theorem exec_br (sense : Bool) (p : Fin 8) (imm : BitVec 16) (hc : s.dev.canIssue e { reads := [pReg p], alone := true }) :
    ∃ t, exec (.br e sense p imm) s = .next t
      ∧ (t.dev.engOf e).pc = (if (s.dev.engOf e).pred p = sense then pcOf e (BitVec.ofNat 64 (s.dev.engOf e).pc + imm.signExtend 64).toNat
          else pcOf e ((s.dev.engOf e).pc + 1))
      ∧ ((s.dev.engOf e).pred p = sense → (t.dev.engOf e).nextCk = s.dev.ck + 2)
      ∧ (t.dev.engOf e).n = (s.dev.engOf e).n ∧ (t.dev.engOf e).p = (s.dev.engOf e).p ∧ s.dev.engKeeps t.dev e := by
  have hrun := run_issuedAs e (.br e sense p imm) _ (fun d => let g := d.engOf e.val
    if g.pred p = sense then d.jump e.val (BitVec.ofNat 64 g.pc + sext16 imm).toNat else d.next e.val) hr hc
  have ha := s.dev.issuedAs_afterIssue e (.br e sense p imm) { reads := [pReg p], alone := true }
  have hpred := ha.tweaks.like.pred p
  generalize s.dev.issuedAs e (.br e sense p imm) { reads := [pReg p], alone := true } = d at *
  dsimp only at hrun
  rw [hpred] at hrun
  by_cases htaken : (s.dev.engOf e).pred p = sense
  · rw [if_pos htaken] at hrun ⊢
    have heng := d.engOf_jump_settle e (BitVec.ofNat 64 (d.engOf e).pc + sext16 imm).toNat
    exact ⟨_, hrun, (congrArg EngSt.pc heng).trans (by rw [ha.tweaks.like.pc]; rfl),
      fun _ => (congrArg EngSt.nextCk heng).trans (congrArg (· + 2) ha.tweaks.ck), (congrArg EngSt.n heng).trans ha.tweaks.like.n,
      (congrArg EngSt.p heng).trans ha.tweaks.like.p, ha.tweaks.keeps.trans (d.jump_settle_keeps e _)⟩
  · rw [if_neg htaken] at hrun ⊢
    have heng := d.engOf_next_settle e
    exact ⟨_, hrun, (congrArg EngSt.pc heng).trans (congrArg (fun n => pcOf e (n + 1)) ha.tweaks.like.pc), fun h => absurd h htaken,
      (congrArg EngSt.n heng).trans ha.tweaks.like.n, (congrArg EngSt.p heng).trans ha.tweaks.like.p,
      ha.tweaks.keeps.trans (d.next_settle_keeps e)⟩

theorem exec_jal (dst : Fin 32) (imm : BitVec 16) (hc : s.dev.canIssue e { writes := [nReg dst], alone := true }) :
    ∃ t, exec (.jal e dst imm) s = .next t
      ∧ s.dev.linked t.dev e dst (BitVec.ofNat 64 (s.dev.engOf e).pc + imm.signExtend 64).toNat := by
  refine ⟨_, run_issuedAs e (.jal e dst imm) _ _ hr hc, ?_⟩
  have ha := s.dev.issuedAs_afterIssue e (.jal e dst imm) { writes := [nReg dst], alone := true }
  rw [← ha.tweaks.like.pc]
  exact Dev.result_jump_linked dst _ ha.tweaks

theorem exec_jr (dst a : Fin 32) (imm : BitVec 16) (hc : s.dev.canIssue e { reads := [nReg a], writes := [nReg dst], alone := true }) :
    ∃ t, exec (.jr e dst a imm) s = .next t ∧ s.dev.linked t.dev e dst ((s.dev.engOf e).reg a + imm.signExtend 64).toNat := by
  refine ⟨_, run_issuedAs e (.jr e dst a imm) _ _ hr hc, ?_⟩
  have ha := s.dev.issuedAs_afterIssue e (.jr e dst a imm) { reads := [nReg a], writes := [nReg dst], alone := true }
  rw [← ha.tweaks.like.reg a]
  exact Dev.result_jump_linked dst _ ha.tweaks

end

/-- Settles O17: a taken branch jumps and another steps on; JAL and JR jump once the link is written, from the registers before it. -/
theorem branchesMoveThePc : Obligations.BranchesMoveThePc := by
  refine fun e s hr => ⟨fun sense p imm hc => exec_br hr sense p imm hc, fun dst imm hc => ?_, fun dst a imm hc => ?_⟩
  · obtain ⟨t, hgo, hl⟩ := exec_jal hr dst imm hc
    exact ⟨t, hgo, hl.pc, hl.first, hl.link, hl.regs, hl.p, hl.keeps⟩
  · obtain ⟨t, hgo, hl⟩ := exec_jr hr dst a imm hc
    exact ⟨t, hgo, hl.pc, hl.first, hl.link, hl.regs, hl.p, hl.keeps⟩

end Sys2Proof.Machine
end

section
/-! PROOFS. LR and SC of an engine's own scratchpad, the fences (R172, R173, R374, R388), and O20. -/

namespace Sys2Proof.Machine

/-! A result that memory gives. -/

theorem Dev.result_load_took (d : Dev) (t : Nat) (dst : Fin 32) (v : Word64) (k : Nat) :
    (d.engOf t).took ((d.result t dst v k true).engOf t) dst v := by
  obtain ⟨was, -, heng⟩ := d.engOf_result_load t dst v k
  have hreg (q : Fin 32) : ((d.result t dst v k true).engOf t).reg q = ((d.engOf t).setReg dst v).reg q := by rw [heng]; rfl
  refine ⟨(hreg dst).trans (EngSt.reg_setReg _ _ _), fun r hr => (hreg r).trans (EngSt.reg_setReg_ne _ _ hr), ?_, ?_⟩
  · exact (congrArg EngSt.p heng).trans (EngSt.p_setReg _ _ _)
  · exact (congrArg EngSt.pc heng).trans (EngSt.pc_setReg _ _ _)

theorem Dev.ready_result_load (d : Dev) (t : Nat) {dst : Fin 32} (v : Word64) (k : Nat) (h : dst ≠ 0) :
    sfind ((d.result t dst v k true).engOf t).ready dst.val = some (d.ck + k, true) := by
  obtain ⟨was, hwas, heng⟩ := d.engOf_result_load t dst v k
  rw [heng, hwas h]
  exact (sfind_sput_same _ _ _).trans (by rw [Nat.zero_max])

theorem Dev.resvs_result_load (d : Dev) (t : Nat) (dst : Fin 32) (v : Word64) (k : Nat) : (d.result t dst v k true).resvs = d.resvs := by
  unfold Dev.result
  dsimp only
  rw [if_neg (by simp)]
  rfl

theorem EngSt.took.reserving {g g' : EngSt} {dst : Fin 32} {v : Word64} (h : g.took g' dst v) (y : Option Nat) :
    g.took { g' with resv := y } dst v := ⟨h.val, h.regs, h.p, h.pc⟩

/-- The instruction after one that wrote a register. -/
theorem Dev.engWrote_next {d x : Dev} {e : Fin 196} {dst : Fin 32} {v : Word64} {k : Nat} (ht : (d.engOf e).took (x.engOf e) dst v)
    (hready : dst ≠ 0 → sfind (x.engOf e).ready dst.val = some (d.ck + k, true)) (hk : d.engKeeps x e) :
    d.engWrote (x.next e).settle e dst v k := by
  have hend := x.engOf_next_settle e
  have hreg (q : Fin 32) : ((x.next e).settle.engOf e).reg q = (x.engOf e).reg q := by rw [hend]; rfl
  refine ⟨(hreg dst).trans ht.val, fun h0 => ?_, fun q hq => (hreg q).trans (ht.regs q hq), ?_, ?_, hk.trans (x.next_settle_keeps e)⟩
  · rw [hend]
    exact hready h0
  · exact (congrArg EngSt.p hend).trans ht.p
  · exact (congrArg EngSt.pc hend).trans (congrArg (fun n => pcOf e (n + 1)) ht.pc)

/-! LR. -/

/-- The newest reservation of a requester stands. -/
theorem Dev.reserved_reserve (d : Dev) (mem g src : Nat) : (d.reserve mem g src).reserved mem g src = true := by
  unfold Dev.reserved Dev.reserve
  rw [sget_sset_same, List.take_succ_cons, List.contains_cons, beq_self_eq_true, Bool.true_or]

theorem Dev.reserved_of_resvs {d d' : Dev} (h : d'.resvs = d.resvs) (mem g src : Nat) : d'.reserved mem g src = d.reserved mem g src := by
  unfold Dev.reserved
  rw [h]

theorem Dev.resvs_next_settle (d : Dev) (t : Nat) : (d.next t).settle.resvs = d.resvs :=
  (Dev.resvs_settle _).trans (d.next_coresStay t).resvs

/-- The block with an LR's reservation: in the scratchpad's table and in the engine (R172, R374). -/
def Dev.reserving (d : Dev) (e a : Nat) : Dev := (d.reserve e a (Ep.newt e)).setEng e { d.engOf e with resv := some a }

theorem Dev.engOf_reserving (d : Dev) (e a : Nat) : (d.reserving e a).engOf e = { d.engOf e with resv := some a } := Dev.engOf_setEng _ e _
theorem Dev.reserving_keeps (d : Dev) (e a : Nat) : d.engKeeps (d.reserving e a) e :=
  ⟨fun _ hu => Dev.engOf_setEng_ne _ _ (Ne.symm hu), rfl, rfl, rfl, rfl⟩
theorem Dev.reserved_reserving (d : Dev) (e a : Nat) : (d.reserving e a).reserved e a (Ep.newt e) = true := d.reserved_reserve e a (Ep.newt e)
theorem Dev.dbgs_reserving (d : Dev) (e a : Nat) : (d.reserving e a).dbgs = d.dbgs := rfl

theorem Dev.newtLoad_reserving {d : Dev} {e addr : Nat} (dst : Fin 32) {ecc : Nat} (ha : addr % 8 = 0) (h : addr < 0x2_0000) :
    ∃ d', d.newtLoad e dst 8 false true ecc addr
        = (((d'.result e dst (loadVal 8 false (d'.bytes (Na.sp e + addr) 8)) 2 true).reserving e (Na.sp e + addr)).dataRanges e addr 8 true false).next e
      ∧ d.loadStill d' e := by
  refine ⟨(d.touchBank e addr).ocmLoad e Oc.scratch ecc, ?_, (d.touchBank_loadStill e addr).trans (Dev.ocmLoad_loadStill _ e _ _)⟩
  unfold Dev.newtLoad
  rw [if_neg (not_not.mpr ha), newtTgt_scratch h]
  dsimp only
  rw [if_pos rfl]
  rfl

/-- What an LR of a scratchpad granule leaves: the doubleword in its register, and the reservation in the engine and in the memory. -/
structure Dev.lrTook (d d' : Dev) (e : Fin 196) (dst : Fin 32) (x : Nat) : Prop where
  wrote : d.engWrote d' e dst (loadVal 8 false (d.bytes x 8)) 2
  resv : (d'.engOf e).resv = some x
  reserved : d'.reserved e x (Ep.newt e) = true

theorem Dev.lrTook_reserving {d d' : Dev} {e : Fin 196} (dst : Fin 32) (x addr : Nat) (h : d.tweaks d' e) (hr : (d'.dbgOf e).regs = []) :
    d.lrTook ((((d'.result e dst (loadVal 8 false (d'.bytes x 8)) 2 true).reserving e x).dataRanges e addr 8 true false).next e).settle e dst x := by
  rw [Dev.bytes_of_mem h.keeps.mem]
  generalize hv : loadVal 8 false (d.bytes x 8) = v
  have htook := (d'.result_load_took e dst v 2).of_like h.like
  have hready (h0 : dst ≠ 0) := d'.ready_result_load e v 2 h0
  have hkeeps := h.keeps.trans (d'.result_load_keeps e dst v 2)
  have hdbgs := d'.dbgs_result_load e dst v 2
  generalize d'.result e dst v 2 true = y at *
  have heng := y.engOf_reserving e x
  have hnone : ((y.reserving e x).dbgOf e).regs = [] := by
    unfold Dev.dbgOf at hr ⊢
    rw [Dev.dbgs_reserving, hdbgs, hr]
  rw [Dev.dataRanges_none hnone]
  refine ⟨hv ▸ Dev.engWrote_next ?_ (fun h0 => ?_) (hkeeps.trans (y.reserving_keeps e x)), ?_, ?_⟩
  · rw [heng]
    exact htook.reserving _
  · rw [heng, ← h.ck]
    exact hready h0
  · exact (congrArg EngSt.resv (Dev.engOf_next_settle _ e)).trans (congrArg EngSt.resv heng)
  · exact (Dev.reserved_of_resvs (Dev.resvs_next_settle _ e) _ _ _).trans (y.reserved_reserving e x)

theorem exec_lr {e : Fin 196} (he : e.val < 192) (dst a : Fin 32) (imm : BitVec 16) (ecc : Fin 3) {s : State} (hr : s.dev.rst = .running)
    (hc : s.dev.canIssue e { mSlot := true, reads := [nReg a], writes := [nReg dst] })
    (hal : (s.dev.engOf e).ea a imm % 8 = 0) (hlt : (s.dev.engOf e).ea a imm < 0x2_0000) :
    ∃ t, exec (.lr e dst a imm ecc) s = .next t ∧ s.dev.lrTook t.dev e dst (Na.sp e + (s.dev.engOf e).ea a imm) := by
  have hrun := run_issuedAs e (.lr e dst a imm ecc) _ (fun d => let ea := (d.engOf e.val).ea a imm
    if e.val < 192 then d.newtLoad e.val dst 8 false true ecc.val ea else d.gkLoad (e.val - 192) (.lr e dst a imm ecc) dst 8 false true ecc.val ea) hr hc
  have ha := s.dev.issuedAs_afterIssue e (.lr e dst a imm ecc) { mSlot := true, reads := [nReg a], writes := [nReg dst] }
  generalize s.dev.issuedAs e (.lr e dst a imm ecc) { mSlot := true, reads := [nReg a], writes := [nReg dst] } = d at *
  dsimp only at hrun
  rw [if_pos he, ha.ea] at hrun
  obtain ⟨x, hx, hs⟩ := d.newtLoad_reserving (e := e) dst (ecc := ecc) hal hlt
  exact ⟨_, hrun.trans (congrArg s.becomes hx),
    Dev.lrTook_reserving dst _ _ (ha.tweaks.trans hs.tweaks) (hs.ranges (ha.ranges hc.noRange))⟩

/-! SC. -/

/-- May an SC write: do the engine and the memory hold the reservation of the granule (R172)? -/
def Dev.scHeld (d : Dev) (e a : Nat) : Bool := (d.engOf e).resv = some a && d.reserved e a (Ep.newt e)

theorem Dev.scHeld_iff (d : Dev) (e a : Nat) : d.scHeld e a = true ↔ (d.engOf e).resv = some a ∧ d.reserved e a (Ep.newt e) = true := by
  unfold Dev.scHeld
  rw [Bool.and_eq_true, decide_eq_true_iff]

theorem Dev.afterIssue.scHeld {d d' : Dev} {t : Nat} (h : d.afterIssue d' t) (a : Nat) : d'.scHeld t a = d.scHeld t a := by
  have hv : (d'.engOf t).resv = (d.engOf t).resv := (congrArg EngSt.resv h.eng :)
  have hvs : d'.resvs = d.resvs := (congrArg Dev.resvs h.still :)
  unfold Dev.scHeld
  rw [hv, Dev.reserved_of_resvs hvs]

/-- The end of an SC of the scratchpad, once it has written or not. -/
def Dev.condDone (d : Dev) (e : Nat) (dst : Fin 32) (ok : Bool) (addr : Nat) : Dev :=
  ((d.dropResv e).result e dst (scResult ok) 2 true).storeDone e addr 8

theorem Dev.newtCond_held {d : Dev} {e addr : Nat} (dst : Fin 32) (v : Word64) (ha : addr % 8 = 0) (h : addr < 0x2_0000)
    (hok : d.scHeld e (Na.sp e + addr) = true) :
    d.newtCond e dst v addr = ((((d.touchBank e addr).stored (Na.sp e + addr) 8 v).ackNext e).condDone e dst true addr) := by
  unfold Dev.newtCond
  rw [if_neg (not_not.mpr ha), newtTgt_scratch h]
  dsimp only
  rw [show ((d.engOf e).resv = some (Na.sp e + addr) && d.reserved e (Na.sp e + addr) (Ep.newt e)) = true from hok, if_pos rfl]
  rfl

theorem Dev.newtCond_unheld {d : Dev} {e addr : Nat} (dst : Fin 32) (v : Word64) (ha : addr % 8 = 0) (h : addr < 0x2_0000)
    (hok : d.scHeld e (Na.sp e + addr) = false) : d.newtCond e dst v addr = (d.touchBank e addr).condDone e dst false addr := by
  unfold Dev.newtCond
  rw [if_neg (not_not.mpr ha), newtTgt_scratch h]
  dsimp only
  rw [show ((d.engOf e).resv = some (Na.sp e + addr) && d.reserved e (Na.sp e + addr) (Ep.newt e)) = false from hok,
    if_neg Bool.false_ne_true]
  rfl

theorem Dev.dropResv_like (d : Dev) (t : Nat) : (d.engOf t).like ((d.dropResv t).engOf t) := by
  rw [Dev.engOf_dropResv]
  exact ⟨rfl, rfl, rfl, rfl⟩

theorem Dev.resv_result_load (d : Dev) (t : Nat) (dst : Fin 32) (v : Word64) (k : Nat) :
    ((d.result t dst v k true).engOf t).resv = (d.engOf t).resv := by
  obtain ⟨was, -, heng⟩ := d.engOf_result_load t dst v k
  rw [heng]
  unfold EngSt.setReg
  split
  · rfl
  · rfl

/-- What the end of an SC makes of its target: the result, and no reservation. -/
structure Dev.condEnds (d d' : Dev) (e : Fin 196) (dst : Fin 32) (ok : Bool) : Prop where
  wrote : d.engWrote d' e dst (scResult ok) 2
  resv : (d'.engOf e).resv = none

theorem Dev.condEnds_condDone {d : Dev} {e : Fin 196} (dst : Fin 32) (ok : Bool) (addr : Nat) (hr : (d.dbgOf e).regs = []) :
    d.condEnds (d.condDone e dst ok addr).settle e dst ok := by
  unfold Dev.condDone Dev.storeDone
  have htook := ((d.dropResv e).result_load_took e dst (scResult ok) 2).of_like (d.dropResv_like e)
  have hready (h0 : dst ≠ 0) := (d.dropResv e).ready_result_load e (scResult ok) 2 h0
  have hkeeps : d.engKeeps (d.dropResv e) e := d.engKeeps_setEng e _
  have hkeeps := hkeeps.trans ((d.dropResv e).result_load_keeps e dst (scResult ok) 2)
  have hdbgs := (d.dropResv e).dbgs_result_load e dst (scResult ok) 2
  have hresv := ((d.dropResv e).resv_result_load e dst (scResult ok) 2).trans (congrArg EngSt.resv (d.engOf_dropResv e))
  generalize (d.dropResv e).result e dst (scResult ok) 2 true = y at *
  have hnone : (y.dbgOf e).regs = [] := by
    unfold Dev.dbgOf at hr ⊢
    rw [hdbgs]
    exact hr
  rw [Dev.dataRanges_none hnone]
  exact ⟨Dev.engWrote_next htook hready hkeeps, (congrArg EngSt.resv (Dev.engOf_next_settle _ e)).trans hresv⟩

section
variable {e : Fin 196} (he : e.val < 192) (dst a b : Fin 32) {s : State} (hr : s.dev.rst = .running)
  (hc : s.dev.canIssue e { mSlot := true, reads := [nReg a, nReg b], writes := [nReg dst] })
  (hal : ((s.dev.engOf e).reg a).toNat % 8 = 0) (hlt : ((s.dev.engOf e).reg a).toNat < 0x2_0000)
include he hr hc

/-- An SC of an engine is `Dev.newtCond` on the block after its issue. -/
theorem exec_sc_newt : ∃ d, s.dev.afterIssue d e
    ∧ exec (.sc e dst a b) s = s.becomes (d.newtCond e dst ((s.dev.engOf e).reg b) ((s.dev.engOf e).reg a).toNat) := by
  have hrun := run_issuedAs e (.sc e dst a b) _ (fun d => let g := d.engOf e.val
    let ea := (g.reg a).toNat
    if e.val < 192 then d.newtCond e.val dst (g.reg b) ea else d.gkCond (e.val - 192) dst (g.reg b) ea) hr hc
  have ha := s.dev.issuedAs_afterIssue e (.sc e dst a b) { mSlot := true, reads := [nReg a, nReg b], writes := [nReg dst] }
  generalize s.dev.issuedAs e (.sc e dst a b) { mSlot := true, reads := [nReg a, nReg b], writes := [nReg dst] } = d at *
  dsimp only at hrun
  rw [if_pos he, ha.tweaks.like.reg, ha.tweaks.like.reg] at hrun
  exact ⟨d, ha, hrun⟩

include hal hlt

theorem exec_sc_held (hok : s.dev.scHeld e (Na.sp e + ((s.dev.engOf e).reg a).toNat) = true) :
    ∃ t, exec (.sc e dst a b) s = .next t ∧ s.dev.memWrote t.dev (Na.sp e + ((s.dev.engOf e).reg a).toNat) 8 ((s.dev.engOf e).reg b)
      ∧ (t.dev.engOf e).reg dst = 0#64 ∧ (t.dev.engOf e).resv = none ∧ (t.dev.engOf e).p = (s.dev.engOf e).p
      ∧ ∀ r, r ≠ dst → (t.dev.engOf e).reg r = (s.dev.engOf e).reg r := by
  obtain ⟨d, ha, hrun⟩ := exec_sc_newt he dst a b hr hc
  rw [Dev.newtCond_held dst _ hal hlt ((ha.scHeld _).trans hok)] at hrun
  generalize ((s.dev.engOf e).reg a).toNat = addr at *
  generalize (s.dev.engOf e).reg b = v at *
  have htouch := d.touchBank_loadStill e addr
  have hm := (Dev.memTook_stored (Na.sp e + addr) 8 v (ha.tweaks.trans htouch.tweaks) ⟨_, _, rfl⟩
    (htouch.ranges (ha.ranges hc.noRange))).ack
  generalize ((d.touchBank e addr).stored (Na.sp e + addr) 8 v).ackNext e = y at *
  obtain ⟨hw, hresv⟩ := Dev.condEnds_condDone dst true addr hm.ranges
  have hbyte (x : Nat) : (y.condDone e dst true addr).settle.byte x = y.byte x := by unfold Dev.byte; rw [hw.keeps.mem]
  refine ⟨_, hrun, ⟨fun j hj => (hbyte _).trans (hm.wrote.bytes j hj), fun x hx => (hbyte x).trans (hm.wrote.others x hx)⟩, ?_, hresv,
    hw.preds.trans hm.like.p, fun r hne => (hw.regs r hne).trans (hm.like.reg r)⟩
  exact hw.val.trans (ite_self _)

theorem exec_sc_unheld (hok : s.dev.scHeld e (Na.sp e + ((s.dev.engOf e).reg a).toNat) = false) :
    ∃ t, exec (.sc e dst a b) s = .next t ∧ s.dev.engWrote t.dev e dst 1#64 2 ∧ (t.dev.engOf e).resv = none := by
  obtain ⟨d, ha, hrun⟩ := exec_sc_newt he dst a b hr hc
  rw [Dev.newtCond_unheld dst _ hal hlt ((ha.scHeld _).trans hok)] at hrun
  generalize ((s.dev.engOf e).reg a).toNat = addr at *
  have htouch := d.touchBank_loadStill e addr
  have htw := ha.tweaks.trans htouch.tweaks
  have hnone := htouch.ranges (ha.ranges hc.noRange)
  generalize d.touchBank e addr = y at *
  obtain ⟨hw, hresv⟩ := Dev.condEnds_condDone dst false addr hnone
  exact ⟨_, hrun, ⟨hw.val, fun h0 => (hw.when_ h0).trans (by rw [htw.ck]), fun r hne => (hw.regs r hne).trans (htw.like.reg r),
    hw.preds.trans htw.like.p, hw.pc.trans (by rw [htw.like.pc]), htw.keeps.trans hw.keeps⟩, hresv⟩

end

/-! Fences (R173). -/

/-- When a fence is met: a target's own lists and its core's buffers say, and an issue changes neither. -/
theorem Dev.afterIssue.fenceMet {d d' : Dev} {t : Nat} (h : d.afterIssue d' t) (w : Bool) : d'.fenceMet t w = d.fenceMet t w := by
  have hready : (d'.engOf t).ready = (d.engOf t).ready := h.tweaks.like.ready
  have hn0 : (d'.engOf t).n0Loads = (d.engOf t).n0Loads := (congrArg EngSt.n0Loads h.eng :)
  have hack : (d'.engOf t).stAck = (d.engOf t).stAck := (congrArg EngSt.stAck h.eng :)
  have hbay : (d'.engOf t).bayStores = (d.engOf t).bayStores := (congrArg EngSt.bayStores h.eng :)
  have hst : (d'.engOf t).stores = (d.engOf t).stores := (congrArg EngSt.stores h.eng :)
  have hout : d'.storesOut t = d.storesOut t := by
    unfold Dev.storesOut
    dsimp only
    rw [hbay, hst, Dev.gkOf_of_gks h.gks]
  unfold Dev.fenceMet EngSt.loadsOut EngSt.lastLoad
  dsimp only
  rw [hout, hready, hn0, hack]

theorem Dev.fenceOp_known {d : Dev} {t c : Nat} {w : Bool} (hd : ¬ (192 ≤ t ∧ w)) (hm : d.fenceMet t w = some c) :
    d.fenceOp t w = (d.setEng t { d.engOf t with mFree := max (d.engOf t).mFree (max c (d.ck + 1)) }).next t := by
  unfold Dev.fenceOp
  dsimp only
  rw [if_neg hd, hm]

theorem Dev.fenceOp_unknown {d : Dev} {t : Nat} {w : Bool} (hd : ¬ (192 ≤ t ∧ w)) (hm : d.fenceMet t w = none) :
    d.fenceOp t w = (d.setEng t { d.engOf t with fence := some w }).next t := by
  unfold Dev.fenceOp
  dsimp only
  rw [if_neg hd, hm]

/-- The CK up to which FENCE.W holds a core's M slot for the drain of its write buffer (R388). -/
def Dev.drainCk (d : Dev) (t : Nat) : Nat :=
  let n := (d.gkOf (t - 192)).wbuf.length + (d.gkOf (t - 192)).spill.length
  d.ck + (if n = 0 ∧ (d.engOf t).stores = [] then 1 else 8 + 4 * n)

theorem Dev.lt_drainCk (d : Dev) (t : Nat) : d.ck + 4 * ((d.gkOf (t - 192)).wbuf.length + (d.gkOf (t - 192)).spill.length) < d.drainCk t := by
  unfold Dev.drainCk
  dsimp only
  split <;> omega

theorem Dev.fenceOp_drain {d : Dev} {t : Nat} (h : 192 ≤ t) :
    d.fenceOp t true = (d.setEng t { d.engOf t with
      mFree := max (d.engOf t).mFree (d.drainCk t)
      fence := if (d.gkOf (t - 192)).missed then some true else (d.engOf t).fence }).next t := by
  unfold Dev.fenceOp Dev.drainCk
  dsimp only
  rw [if_neg (Nat.not_lt.mpr h), if_pos ⟨h, rfl⟩]

/-- What a fence leaves of the block and its target (R173). -/
structure Dev.fenced (d d' : Dev) (e : Fin 196) (g : EngSt) : Prop where
  steps : d.engSteps d' e
  keeps : d.engKeeps d' e
  fence : (d'.engOf e).fence = g.fence
  mFree : (d'.engOf e).mFree = g.mFree

theorem Dev.fenced_next {d d' : Dev} {e : Fin 196} {g : EngSt} (h : d.tweaks d' e) (hg : (d'.engOf e).like g) :
    d.fenced ((d'.setEng e g).next e).settle e g := by
  have heng := Dev.engOf_next_settle (d'.setEng e g) e
  rw [Dev.engOf_setEng] at heng
  have hl := h.like.trans hg
  exact ⟨⟨(congrArg EngSt.n heng).trans hl.n, (congrArg EngSt.p heng).trans hl.p,
    (congrArg EngSt.pc heng).trans (congrArg (fun n => pcOf e (n + 1)) hl.pc)⟩,
    h.keeps.trans ((d'.engKeeps_setEng e g).trans (Dev.next_settle_keeps _ e)), (congrArg EngSt.fence heng :), (congrArg EngSt.mFree heng :)⟩

/-- A fence that waits for what is outstanding: it holds the M slot to a CK that is known, or until it is. -/
structure Dev.fenceWaits (d d' : Dev) (e : Fin 196) (w : Bool) : Prop where
  steps : d.engSteps d' e
  keeps : d.engKeeps d' e
  unknown : d.fenceMet e w = none → (d'.engOf e).fence = some w
  known : ∀ c, d.fenceMet e w = some c → (d'.engOf e).fence = none ∧ c ≤ (d'.engOf e).mFree ∧ d.ck < (d'.engOf e).mFree

section
variable {d d' : Dev} {e : Fin 196} (h : d.afterIssue d' e) (hf : (d'.engOf e).fence = none)
include h hf

theorem Dev.fenceOp_waits {w : Bool} (hd : ¬ (192 ≤ e.val ∧ w)) : d.fenceWaits (d'.fenceOp e w).settle e w := by
  have hmet := h.fenceMet w
  cases hm : d.fenceMet e w with
  | none =>
    rw [Dev.fenceOp_unknown hd (hmet.trans hm)]
    have hg := Dev.fenced_next h.tweaks (g := { d'.engOf e with fence := some w }) ⟨rfl, rfl, rfl, rfl⟩
    exact ⟨hg.steps, hg.keeps, fun _ => hg.fence, fun c hc => absurd (hm.symm.trans hc) (by simp)⟩
  | some c =>
    rw [Dev.fenceOp_known hd (hmet.trans hm)]
    have hg := Dev.fenced_next h.tweaks (g := { d'.engOf e with mFree := max (d'.engOf e).mFree (max c (d'.ck + 1)) }) ⟨rfl, rfl, rfl, rfl⟩
    refine ⟨hg.steps, hg.keeps, fun hn => absurd (hm.symm.trans hn) (by simp), fun c' hc' => ⟨hg.fence.trans hf, ?_⟩⟩
    obtain rfl : c = c' := Option.some_inj.mp (hm.symm.trans hc')
    rw [hg.mFree, ← h.tweaks.ck]
    dsimp only
    omega

theorem Dev.fenceOp_drains (hd : 192 ≤ e.val) : d.fenced (d'.fenceOp e true).settle e { d.engOf e with
    mFree := max (d'.engOf e).mFree (d'.drainCk e)
    fence := if (d.gkOf (e - 192)).missed then some true else none } := by
  rw [Dev.fenceOp_drain hd, hf, Dev.gkOf_of_gks h.gks]
  have hg := Dev.fenced_next h.tweaks (g := { d'.engOf e with
    mFree := max (d'.engOf e).mFree (d'.drainCk e)
    fence := if (d.gkOf (e - 192)).missed then some true else none }) ⟨rfl, rfl, rfl, rfl⟩
  exact ⟨hg.steps, hg.keeps, hg.fence, hg.mFree⟩

end

section
variable (e : Fin 196) {s : State} (hr : s.dev.rst = .running) (hc : s.dev.canIssue e { mSlot := true })
include hr hc

theorem exec_fence : ∃ t, exec (.fence e) s = .next t ∧ s.dev.fenceWaits t.dev e false :=
  ⟨_, run_issuedAs e (.fence e) _ (fun d => d.fenceOp e.val false) hr hc,
    Dev.fenceOp_waits (s.dev.issuedAs_afterIssue e (.fence e) _) (s.dev.fence_issuedAs e (.fence e) rfl) (by simp)⟩

theorem exec_fenceW_newt (he : e.val < 192) : ∃ t, exec (.fenceW e) s = .next t ∧ s.dev.fenceWaits t.dev e true :=
  ⟨_, run_issuedAs e (.fenceW e) _ (fun d => d.fenceOp e.val true) hr hc,
    Dev.fenceOp_waits (s.dev.issuedAs_afterIssue e (.fenceW e) _) (s.dev.fence_issuedAs e (.fenceW e) rfl) (fun h => by omega)⟩

theorem exec_fenceW_core (he : 192 ≤ e.val) : ∃ t, exec (.fenceW e) s = .next t ∧ s.dev.engSteps t.dev e ∧ s.dev.engKeeps t.dev e
    ∧ (t.dev.engOf e).fence = (if (s.dev.gkOf (e - 192)).missed then some true else none)
    ∧ s.dev.ck + 4 * ((s.dev.gkOf (e - 192)).wbuf.length + (s.dev.gkOf (e - 192)).spill.length) < (t.dev.engOf e).mFree := by
  have ha := s.dev.issuedAs_afterIssue e (.fenceW e) { mSlot := true }
  have hg := Dev.fenceOp_drains ha (s.dev.fence_issuedAs e (.fenceW e) rfl) he
  have hlt := (s.dev.issuedAs e (.fenceW e) { mSlot := true }).lt_drainCk e
  rw [Dev.gkOf_of_gks ha.gks, ha.tweaks.ck] at hlt
  exact ⟨_, run_issuedAs e (.fenceW e) _ (fun d => d.fenceOp e.val true) hr hc, hg.steps, hg.keeps, hg.fence,
    hg.mFree ▸ lt_of_lt_of_le hlt (le_max_right _ _)⟩

end

/-- Settles O20: an SC writes where `Dev.scHeld`; a fence waits for `Dev.fenceMet`, and FENCE.W of a core for the drain. -/
theorem reservedPairsAndFences : Obligations.ReservedPairsAndFences := by
  refine ⟨fun e dst a b s hr => ⟨fun imm ecc hc hal hlt => ?_, fun hc hal hlt => ⟨fun hok => ?_, fun hok => ?_⟩⟩, fun e s hr hc => ⟨?_, ?_⟩⟩
  · obtain ⟨t, hgo, hl⟩ := exec_lr (e := newtTarget e) e.isLt dst a imm ecc hr hc hal hlt
    exact ⟨t, hgo, hl.wrote, hl.resv, hl.reserved⟩
  · exact exec_sc_held (e := newtTarget e) e.isLt dst a b hr hc hal hlt ((Dev.scHeld_iff _ _ _).mpr hok)
  · exact exec_sc_unheld (e := newtTarget e) e.isLt dst a b hr hc hal hlt
      (Bool.eq_false_iff.mpr (fun h => hok ((Dev.scHeld_iff _ _ _).mp h)))
  · obtain ⟨t, hgo, hf⟩ := exec_fence e hr hc
    exact ⟨t, hgo, hf.steps, hf.keeps, hf.unknown, hf.known⟩
  · by_cases he : e.val < 192
    · obtain ⟨t, hgo, hf⟩ := exec_fenceW_newt e hr hc he
      exact ⟨t, hgo, hf.steps, hf.keeps, fun _ => hf.unknown, fun c _ => hf.known c, fun h => absurd he (Nat.not_lt.mpr h)⟩
    · obtain ⟨t, hgo, hsteps, hkeeps, hfence, hfree⟩ := exec_fenceW_core e hr hc (Nat.not_lt.mp he)
      exact ⟨t, hgo, hsteps, hkeeps, fun h => absurd h he, fun _ h => absurd h he, fun _ => ⟨hfence, hfree⟩⟩

end Sys2Proof.Machine
end

section
/-! PROOFS. CSRR, CSRW, CSRS and CSRC of a core (R176, R177, R181, Table 8-7), and O27. -/

namespace Sys2Proof.Machine

/-! A write of a control register. -/

/-- A control register once its writable bits have taken a value's. -/
def csrWritten (num : Nat) (old v : BitVec 64) : BitVec 64 :=
  match csrMask num with
  | some m => (old &&& ~~~BitVec.ofNat 64 m) ||| (v &&& BitVec.ofNat 64 m)
  | none => old

theorem csrWritten_of_mask {num m : Nat} (h : csrMask num = some m) (old v : BitVec 64) :
    csrWritten num old v = (old &&& ~~~BitVec.ofNat 64 m) ||| (v &&& BitVec.ofNat 64 m) := by
  unfold csrWritten
  rw [h]

theorem Dev.csr_csrWrite (d : Dev) (k num : Nat) (v : BitVec 64) : (d.csrWrite k num v).csr k num = csrWritten num (d.csr k num) v := by
  unfold Dev.csrWrite csrWritten
  cases csrMask num with
  | none => rfl
  | some m =>
    dsimp only
    by_cases hm : m = 0
    · subst hm
      rw [if_pos rfl, BitVec.not_zero, BitVec.and_allOnes, BitVec.and_zero, BitVec.or_zero]
    · rw [if_neg hm, Dev.csr_setCsr]

theorem Dev.csr_csrWrite_ne (d : Dev) (k : Nat) {num n : Nat} (v : BitVec 64) (h : n ≠ num) : (d.csrWrite k num v).csr k n = d.csr k n := by
  unfold Dev.csrWrite
  split
  · dsimp only
    split
    · rfl
    · exact d.csr_setCsr_ne k _ (Ne.symm h)
  · rfl

theorem Dev.eproj_csrWrite (d : Dev) (k num : Nat) (v : BitVec 64) : (d.csrWrite k num v).eproj = d.eproj := by
  unfold Dev.csrWrite
  split
  · dsimp only
    split
    · rfl
    · exact d.eproj_setCsr _ _ _
  · rfl

/-! A read of one: LP's takes the fraction along. -/

theorem Dev.eproj_csrTouch (d : Dev) (k num : Nat) : (d.csrTouch k num).eproj = d.eproj := by
  unfold Dev.csrTouch
  split
  · exact d.eproj_setGk _ _
  · rfl

theorem Dev.csr_csrTouch (d : Dev) (k num n : Nat) : (d.csrTouch k num).csr k n = d.csr k n := by
  unfold Dev.csrTouch
  split
  · refine Dev.csr_of_gk ?_ n
    rw [Dev.gkOf_setGk]
  · rfl

theorem Dev.csr_result (d : Dev) (t : Nat) (dst : Fin 32) (v : Word64) (c k n : Nat) : (d.result t dst v c false).csr k n = d.csr k n := by
  unfold Dev.result
  dsimp only
  split
  · rfl
  · exact d.csr_setEng t _ k n

/-- What a control register reads, and the cause of its instruction, are the same after the issue. -/
theorem Dev.csrReads_issuedAs (d : Dev) (k : Fin 4) (i : Instr) (x : Isu) (num : Nat) (w : Bool) :
    (d.issuedAs (coreTarget k) i x).csrRead k num = d.csrRead k num
      ∧ (d.issuedAs (coreTarget k) i x).csrCause k num w = d.csrCause k num w := by
  obtain ⟨ag, en, db, hd⟩ := d.issuedAs_core i x (core_le k)
  rw [hd]
  exact ⟨rfl, rfl⟩

/-! The instruction. -/

/-- A CSR instruction's effect on the block after its issue: `f` of the source and the old value is what it writes. -/
def Dev.csrStep (d : Dev) (k : Fin 4) (dst a : Fin 32) (num : Nat) (write : Bool) (f : Word64 → BitVec 64 → BitVec 64) : Dev :=
  match d.csrCause k num write with
  | some c => d.except (coreTarget k) c false 0
  | none =>
    let r := (d.csrTouch k num).result (coreTarget k) dst (d.csrRead k num) 1 false
    (if write then r.csrWrite k num (f ((d.engOf (coreTarget k)).reg a) (d.csrRead k num)) else r).next (coreTarget k)

theorem Dev.csrOp_core (d : Dev) (k : Fin 4) (i : Instr) (dst a : Fin 32) (reads : List Nat) (num : Nat) (write : Bool)
    (f : Word64 → BitVec 64 → BitVec 64) :
    d.csrOp (coreTarget k) i dst reads num write (fun g old => f (g.reg a) old)
      = d.issue (coreTarget k) i { reads := reads, writes := [nReg dst] } (fun d => d.csrStep k dst a num write f) := by
  unfold Dev.csrOp
  rw [if_neg (coreTarget_not_lt k)]
  dsimp only
  rw [core_sub]
  rfl

theorem Dev.csrStep_except {d : Dev} {k : Fin 4} (dst a : Fin 32) {num c : Nat} {write : Bool} (f : Word64 → BitVec 64 → BitVec 64)
    (h : d.csrCause k num write = some c) : d.csrStep k dst a num write f = d.except (192 + k) c false 0 := by
  unfold Dev.csrStep
  rw [h]
  rfl

/-- What a CSR instruction leaves of its core's registers and of the rest. -/
structure Dev.csrTook (d d' : Dev) (e : Fin 196) (dst : Fin 32) (old : Word64) : Prop where
  val : (d'.engOf e).reg dst = if dst = 0 then 0#64 else old
  regs : ∀ r, r ≠ dst → (d'.engOf e).reg r = (d.engOf e).reg r
  p : (d'.engOf e).p = (d.engOf e).p
  pc : (d'.engOf e).pc = pcOf e ((d.engOf e).pc + 1)
  keeps : d.engKeeps d' e

theorem Dev.csrTook.all {d d' : Dev} {e : Fin 196} {dst : Fin 32} {old : Word64} (h : d.csrTook d' e dst old) :
    (d'.engOf e).reg dst = (if dst = 0 then 0#64 else old) ∧ (∀ r, r ≠ dst → (d'.engOf e).reg r = (d.engOf e).reg r)
      ∧ (d'.engOf e).p = (d.engOf e).p ∧ (d'.engOf e).pc = pcOf e ((d.engOf e).pc + 1) ∧ d.engKeeps d' e :=
  ⟨h.val, h.regs, h.p, h.pc, h.keeps⟩

/-- The instruction after one that wrote a register and changed no target since. -/
theorem Dev.csrTook_next {d x y : Dev} {e : Fin 196} {dst : Fin 32} {v : Word64} (ht : (d.engOf e).took (x.engOf e) dst v)
    (hk : d.engKeeps x e) (hy : y.eproj = x.eproj) : d.csrTook (y.next e).settle e dst v := by
  have hend := y.engOf_next_settle e
  rw [Dev.engOf_of_eproj hy] at hend
  have hreg (q : Fin 32) : ((y.next e).settle.engOf e).reg q = (x.engOf e).reg q := by rw [hend]; rfl
  exact ⟨(hreg dst).trans ht.val, fun q hq => (hreg q).trans (ht.regs q hq), (congrArg EngSt.p hend).trans ht.p,
    (congrArg EngSt.pc hend).trans (congrArg (fun n => pcOf e (n + 1)) ht.pc),
    hk.trans ((Dev.engKeeps_of_eproj e hy).trans (y.next_settle_keeps e))⟩

/-- The control registers after a CSR instruction. -/
def Dev.csrAfter (d : Dev) (k : Fin 4) (a : Fin 32) (num : Nat) (write : Bool) (f : Word64 → BitVec 64 → BitVec 64) (n : Nat) : BitVec 64 :=
  if write = true ∧ n = num then csrWritten num (d.csr k num) (f ((d.engOf (coreTarget k)).reg a) (d.csrRead k num)) else d.csr k n

theorem Dev.csrStep_done {d : Dev} {k : Fin 4} (dst a : Fin 32) {num : Nat} {write : Bool} (f : Word64 → BitVec 64 → BitVec 64)
    (h : d.csrCause k num write = none) : d.csrTook (d.csrStep k dst a num write f).settle (coreTarget k) dst (d.csrRead k num)
      ∧ ∀ n, (d.csrStep k dst a num write f).settle.csr k n = d.csrAfter k a num write f n := by
  unfold Dev.csrStep Dev.csrAfter
  rw [h]
  dsimp only
  have htouch := d.eproj_csrTouch k num
  have hcsr (n : Nat) := ((d.csrTouch k num).csr_result (coreTarget k) dst (d.csrRead k num) 1 k n).trans (d.csr_csrTouch k num n)
  have htook := (d.csrTouch k num).result_took (coreTarget k) dst (d.csrRead k num) 1
  rw [Dev.engOf_of_eproj htouch] at htook
  have hkeeps := (Dev.engKeeps_of_eproj (coreTarget k) htouch).trans
    ((d.csrTouch k num).result_engKeeps (coreTarget k) dst (d.csrRead k num) 1)
  generalize (d.csrTouch k num).result (coreTarget k) dst (d.csrRead k num) 1 false = r at *
  have hend (y : Dev) (n : Nat) : (y.next (coreTarget k)).settle.csr k n = y.csr k n :=
    (Dev.csr_settle _ _ _).trans ((y.next_coresStay (coreTarget k)).csr _ _)
  cases write with
  | false =>
    rw [if_neg Bool.false_ne_true]
    exact ⟨Dev.csrTook_next htook hkeeps rfl, fun n => (hend r n).trans ((hcsr n).trans (if_neg (fun h => Bool.false_ne_true h.1)).symm)⟩
  | true =>
    rw [if_pos rfl]
    refine ⟨Dev.csrTook_next htook hkeeps (r.eproj_csrWrite _ _ _), fun n => (hend _ n).trans ?_⟩
    by_cases hn : n = num
    · subst hn
      rw [if_pos ⟨rfl, rfl⟩, Dev.csr_csrWrite, hcsr]
    · rw [if_neg (fun h => hn h.2), Dev.csr_csrWrite_ne _ _ _ hn, hcsr]

section
variable {s : State} {k : Fin 4} (hr : s.dev.rst = .running)
include hr

/-- A CSR instruction that its core may execute. -/
theorem run_csrOp (i : Instr) (dst a : Fin 32) (reads : List Nat) {num : Nat} {write : Bool} (f : Word64 → BitVec 64 → BitVec 64)
    (hc : s.dev.canIssue (coreTarget k) { reads := reads, writes := [nReg dst] }) (hn : s.dev.csrCause k num write = none) :
    ∃ t, s.run i (fun d => d.csrOp (coreTarget k) i dst reads num write (fun g old => f (g.reg a) old)) = .next t
      ∧ s.dev.csrTook t.dev (coreTarget k) dst (s.dev.csrRead k num) ∧ ∀ n, t.dev.csr k n = s.dev.csrAfter k a num write f n := by
  have hrun := run_issuedAs (coreTarget k) i _ (fun d => d.csrStep k dst a num write f) hr hc
  have ha := s.dev.issuedAs_afterIssue (coreTarget k) i { reads := reads, writes := [nReg dst] }
  obtain ⟨hread, hcause⟩ := s.dev.csrReads_issuedAs k i { reads := reads, writes := [nReg dst] } num write
  generalize s.dev.issuedAs (coreTarget k) i { reads := reads, writes := [nReg dst] } = d at *
  have hcsr (n : Nat) := Dev.csr_of_gks ha.gks k n
  obtain ⟨htook, hafter⟩ := d.csrStep_done dst a f (hcause.trans hn)
  rw [hread] at htook
  refine ⟨_, (congrArg (s.run i) (funext fun d => d.csrOp_core k i dst a reads num write f)).trans hrun,
    ⟨htook.val, fun r hne => (htook.regs r hne).trans (ha.tweaks.like.reg r), htook.p.trans ha.tweaks.like.p,
      htook.pc.trans (by rw [ha.tweaks.like.pc]), ha.tweaks.keeps.trans htook.keeps⟩, fun n => (hafter n).trans ?_⟩
  unfold Dev.csrAfter
  rw [hread, hcsr, hcsr, ha.tweaks.like.reg]

/-- One that writes: the register's writable bits, and no other control register. -/
theorem run_csrOp_writes (i : Instr) (dst a : Fin 32) {num : Nat} (f : Word64 → BitVec 64 → BitVec 64)
    (hc : s.dev.canIssue (coreTarget k) { reads := [nReg a], writes := [nReg dst] }) (hn : s.dev.csrCause k num true = none) :
    ∃ t, s.run i (fun d => d.csrOp (coreTarget k) i dst [nReg a] num true (fun g old => f (g.reg a) old)) = .next t
      ∧ s.dev.csrTook t.dev (coreTarget k) dst (s.dev.csrRead k num)
      ∧ (∀ m, csrMask num = some m → t.dev.csr k num = (s.dev.csr k num &&& ~~~BitVec.ofNat 64 m)
        ||| (f ((s.dev.engOf (coreTarget k)).reg a) (s.dev.csrRead k num) &&& BitVec.ofNat 64 m))
      ∧ ∀ n, n ≠ num → t.dev.csr k n = s.dev.csr k n := by
  obtain ⟨t, hgo, ht, hcsr⟩ := run_csrOp hr i dst a [nReg a] f hc hn
  exact ⟨t, hgo, ht, fun m hm => (hcsr num).trans ((if_pos ⟨rfl, rfl⟩).trans (csrWritten_of_mask hm _ _)),
    fun n hne => (hcsr n).trans (if_neg (fun h => hne h.2))⟩

/-- One that it may not execute. -/
theorem run_csrOp_traps (i : Instr) (dst a : Fin 32) (reads : List Nat) {num c : Nat} {write : Bool} (f : Word64 → BitVec 64 → BitVec 64)
    (h : s.dev.coreReady k) (hc : s.dev.canIssue (coreTarget k) { reads := reads, writes := [nReg dst] })
    (hn : s.dev.csrCause k num write = some c) :
    ∃ t, s.run i (fun d => d.csrOp (coreTarget k) i dst reads num write (fun g old => f (g.reg a) old)) = .next t
      ∧ s.dev.gkTrapped t.dev k c false 0 0 := by
  rw [congrArg (s.run i) (funext fun d => d.csrOp_core k i dst a reads num write f)]
  exact run_issue_gkTrap i _ _ c hr h hc
    (Dev.csrStep_except dst a f ((s.dev.csrReads_issuedAs k i { reads := reads, writes := [nReg dst] } num write).2.trans hn))

end

/-! Causes (R176, R177). -/

theorem Dev.csrCause_unlisted (d : Dev) (k : Nat) {num : Nat} (w : Bool) (h : csrMask num = none) : d.csrCause k num w = some 2 := by
  unfold Dev.csrCause
  rw [h]

theorem Dev.csrCause_readOnly (d : Dev) (k : Nat) {num : Nat} (h : csrMask num = some 0) : d.csrCause k num true = some 2 := by
  unfold Dev.csrCause
  rw [h]
  exact if_pos ⟨rfl, rfl⟩

theorem Dev.csrCause_user {d : Dev} {k num m : Nat} (h : csrMask num = some m) (hm : m ≠ 0) (hp : d.gkPriv k = false) :
    d.csrCause k num true = some 9 := by
  unfold Dev.csrCause
  rw [h]
  exact (if_neg (fun hh => hm hh.2)).trans (if_pos ⟨by simp [hp], .inl rfl⟩)

theorem Dev.csrCause_kernel {d : Dev} {k num m : Nat} (h : csrMask num = some m) (hp : d.gkPriv k = true) : d.csrCause k num false = none := by
  unfold Dev.csrCause
  rw [h]
  exact (if_neg (fun hh => Bool.false_ne_true hh.1)).trans (if_neg (fun hh => hh.1 hp))

/-- Settles O27: the four instructions are `Dev.csrOp` with what each writes, and `Dev.csrCause` says which of them trap. -/
theorem controlRegisterInstructions : Obligations.ControlRegisterInstructions := by
  refine ⟨fun k dst a num s hr => ⟨fun hc hn => ?_, fun hc hn => ?_⟩, fun k dst a num c s hr h => ⟨fun hc hn => ?_, fun hc hn => ?_,
    fun hm => s.dev.csrCause_unlisted k false hm, fun hm => s.dev.csrCause_readOnly k hm, fun m hm h0 hp => Dev.csrCause_user hm h0 hp,
    fun m hm hp => Dev.csrCause_kernel hm hp⟩⟩
  · obtain ⟨t, hgo, ht, hcsr⟩ := run_csrOp hr (.csrr (coreTarget k) dst num) dst a [] (fun _ old => old) hc hn
    exact ⟨t, hgo, ht.all, fun n => (hcsr n).trans (if_neg (fun hw => Bool.false_ne_true hw.1))⟩
  · obtain ⟨tw, hw, htw, hwrote⟩ := run_csrOp_writes hr (.csrw (coreTarget k) dst a num) dst a (fun v _ => v) hc hn
    obtain ⟨ts, hs, hts, hset⟩ := run_csrOp_writes hr (.csrs (coreTarget k) dst a num) dst a (fun v old => old ||| v) hc hn
    obtain ⟨tc, hcl, htc, hclear⟩ := run_csrOp_writes hr (.csrc (coreTarget k) dst a num) dst a (fun v old => old &&& ~~~v) hc hn
    exact ⟨⟨tw, hw, htw.all, hwrote⟩, ⟨ts, hs, hts.all, hset⟩, ⟨tc, hcl, htc.all, hclear⟩⟩
  · exact run_csrOp_traps hr (.csrr (coreTarget k) dst num) dst a [] (fun _ old => old) h hc hn
  · exact run_csrOp_traps hr (.csrw (coreTarget k) dst a num) dst a [nReg a] (fun v _ => v) h hc hn

end Sys2Proof.Machine
end

section
/-! PROOFS. Mailboxes, acknowledgement, kick, watchdog, timer and reset of the cores (R180, R392, R393, R394), and O29. -/

namespace Sys2Proof.Machine

/-! Sources of a core's own (R392). -/

/-- A list of sources with one raised. -/
def raised (l : List Nat) (s : Nat) : List Nat := if l.contains s then l else s :: l

theorem mem_raised (l : List Nat) (s : Nat) : s ∈ raised l s := by
  unfold raised
  split
  · next h => exact List.contains_iff_mem.mp h
  · exact List.mem_cons_self

theorem Dev.gkOf_gkRaise (d : Dev) (k s : Nat) : (d.gkRaise k s).gkOf k = { d.gkOf k with srcs := raised (d.gkOf k).srcs s } := by
  unfold Dev.gkRaise raised
  dsimp only
  split
  · rfl
  · exact d.gkOf_setGk k _

theorem Dev.regs_gkRaise (d : Dev) (k s : Nat) : (d.gkRaise k s).regs = d.regs := by
  unfold Dev.gkRaise
  dsimp only
  split
  · rfl
  · rfl

theorem Dev.gkOf_gkClear (d : Dev) (k s : Nat) : (d.gkClear k s).gkOf k = { d.gkOf k with srcs := (d.gkOf k).srcs.filter (fun t => t ≠ s) } :=
  d.gkOf_setGk k _

theorem Dev.mem_srcs_gkClear (d : Dev) (k s n : Nat) : n ∈ ((d.gkClear k s).gkOf k).srcs ↔ n ∈ (d.gkOf k).srcs ∧ n ≠ s := by
  rw [Dev.gkOf_gkClear, List.mem_filter, decide_eq_true_iff]

theorem Dev.gkOf_setFld (d : Dev) (pg : Nat) (f : Fld) (v k : Nat) : (d.setFld pg f v).gkOf k = d.gkOf k := Dev.gkOf_of_gks rfl k

theorem Dev.engOf_setFld (d : Dev) (pg : Nat) (f : Fld) (v t : Nat) : (d.setFld pg f v).engOf t = d.engOf t :=
  Dev.engOf_of_eproj (d.eproj_setFld pg f v) t

theorem Dev.engOf_setDbg (d : Dev) (t : Nat) (x : DbgSt) (u : Nat) : (d.setDbg t x).engOf u = d.engOf u := rfl

theorem Dev.engOf_setGk (d : Dev) (k : Nat) (x : GkSt) (t : Nat) : (d.setGk k x).engOf t = d.engOf t := Dev.engOf_of_eproj (d.eproj_setGk k x) t

/-! Mailboxes. -/

/-- A value has arrived in a core's mailbox. -/
structure Dev.mailed (d : Dev) (j : Nat) (v : Word) : Prop where
  val : d.reg (Pg.gecko j) 0x10C = v
  src : 4 ∈ (d.gkOf j).srcs

theorem Dev.mailTo_settle_mailed (d : Dev) (j : Nat) (v : Word) : (d.mailTo j v).settle.mailed j v where
  val := by
    rw [Dev.reg_settle_gecko _ _ (by decide), Dev.mailTo, Dev.reg_congr (Dev.regs_gkRaise _ _ _), Dev.reg_setReg]
  src := by
    rw [Dev.gkOf_settle, Dev.mailTo, Dev.gkOf_gkRaise]
    exact mem_raised _ _

theorem Dev.eproj_mailTo (d : Dev) (j : Nat) (v : Word) : (d.mailTo j v).eproj = d.eproj := Dev.eproj_gkRaise _ _ _

/-- A mailbox is of its own core's page. -/
theorem Dev.fld_mailTo (d : Dev) {j k : Nat} (v : Word) {f : Fld} (h : j ≠ k) (hf : f.off < 4096) :
    (d.mailTo j v).fld (Pg.gecko k) f = d.fld (Pg.gecko k) f := by
  have hpage : Blk.gecko.base + j ≠ Blk.gecko.base + k := fun e => h (Nat.add_left_cancel e)
  unfold Dev.mailTo
  rw [Dev.fld_of_regs (Dev.regs_gkRaise _ _ _)]
  exact d.fld_setReg_ne v f (fun e => hpage (raddr_inj (by decide) hf e).1)

theorem exec_mboxWrite {s : State} (hr : s.dev.rst = .running) (k : Fin 4) (v : Word) :
    ∃ t, exec (.mboxWrite k v) s = .next t ∧ t.dev.mailed (otherCore k) v ∧ t.dev.mem = s.dev.mem :=
  ⟨_, s.cmd_running (fun d => d.mailTo (otherCore k) v) hr, Dev.mailTo_settle_mailed _ _ _,
    Dev.mem_of_eproj ((Dev.eproj_settle _).trans (Dev.eproj_mailTo _ _ _))⟩

/-! Acknowledgement. -/

/-- The model's loop over the sources a write of IRQ_ACK may clear. -/
def Dev.ackSources (d : Dev) (k v : Nat) (l : List Nat) : Dev := l.foldl (fun (d : Dev) s => if bit v s then d.gkClear k s else d) d

theorem Dev.mem_srcs_ackSources (d : Dev) (k v n : Nat) (l : List Nat) :
    n ∈ ((d.ackSources k v l).gkOf k).srcs ↔ n ∈ (d.gkOf k).srcs ∧ ¬ (n ∈ l ∧ bit v n = true) := by
  induction l generalizing d with
  | nil => simp [Dev.ackSources]
  | cons s r ih =>
    have hstep : d.ackSources k v (s :: r) = (if bit v s then d.gkClear k s else d).ackSources k v r := rfl
    rw [hstep, ih]
    by_cases hs : bit v s = true
    · rw [if_pos hs, Dev.mem_srcs_gkClear]
      by_cases hn : n = s
      · subst hn
        simp [hs]
      · simp [hn]
    · rw [if_neg hs]
      by_cases hn : n = s
      · subst hn
        simp [hs]
      · simp [hn]

theorem Dev.irqAck_eq (d : Dev) (k : Nat) (v : Word) : d.irqAck k v
    = if v.toNat / 64 ≠ 0 then (d.ackSources k v.toNat [0, 4, 5]).regErr (Pg.gecko k) 1 else d.ackSources k v.toNat [0, 4, 5] := rfl

theorem Dev.gks_irqAck (d : Dev) (k : Nat) (v : Word) : (d.irqAck k v).gks = (d.ackSources k v.toNat [0, 4, 5]).gks := by
  rw [Dev.irqAck_eq]
  generalize d.ackSources k v.toNat [0, 4, 5] = x
  split
  · exact Dev.gks_of_rest (x.rest_regErr _ _)
  · rfl

theorem exec_irqAck {s : State} (hr : s.dev.rst = .running) (k : Fin 4) (v : Word) (n : Nat) : ∃ t, exec (.irqAck k v) s = .next t
    ∧ (n ∈ (t.dev.gkOf k).srcs ↔ n ∈ (s.dev.gkOf k).srcs ∧ ¬ (n ∈ [0, 4, 5] ∧ bit v.toNat n = true)) := by
  refine ⟨_, s.cmd_running (fun d => d.irqAck k v) hr, ?_⟩
  rw [show ((s.dev.fresh.irqAck k v).settle.gkOf k) = _ from Dev.gkOf_of_gks ((Dev.gks_settle _).trans (Dev.gks_irqAck _ _ _)) k]
  exact s.dev.fresh.mem_srcs_ackSources k v.toNat n [0, 4, 5]

/-! The watchdog. -/

/-- The CK a watchdog that starts now expires: none at period 0. -/
def Dev.wdogNext (d : Dev) (k : Nat) : Option Nat :=
  if d.fld (Pg.gecko k) F.GECKO_WDOG_PERIOD = 0 then none else some (d.ck + 1000 * d.fld (Pg.gecko k) F.GECKO_WDOG_PERIOD)

theorem Dev.gkOf_wdogReload (d : Dev) (k : Nat) : (d.wdogReload k).gkOf k = { d.gkOf k with wdogCk := d.wdogNext k } := by
  unfold Dev.wdogReload Dev.wdogNext
  dsimp only
  split
  · exact Dev.gkOf_setGk _ _ _
  · exact Dev.gkOf_setGk _ _ _

theorem Dev.regs_wdogReload (d : Dev) (k : Nat) : (d.wdogReload k).regs = d.regs := by
  unfold Dev.wdogReload
  dsimp only
  split
  · rfl
  · rfl

theorem Dev.eproj_wdogReload (d : Dev) (k : Nat) : (d.wdogReload k).eproj = d.eproj := by
  unfold Dev.wdogReload
  dsimp only
  split
  · rfl
  · rfl

theorem Dev.gkOf_kick (d : Dev) (k : Nat) : (d.kick k).gkOf k
    = { d.gkOf k with wdogOnce := false, srcs := (d.gkOf k).srcs.filter (fun t => t ≠ 2), wdogCk := d.wdogNext k } := by
  unfold Dev.kick
  rw [Dev.gkOf_wdogReload, Dev.gkOf_gkClear, Dev.gkOf_setGk]
  rfl

theorem exec_kick {s : State} (hr : s.dev.rst = .running) (k : Fin 4) : ∃ t, exec (.kick k) s = .next t
    ∧ 2 ∉ (t.dev.gkOf k).srcs ∧ (t.dev.gkOf k).wdogOnce = false ∧ (t.dev.gkOf k).wdogCk = s.dev.wdogNext k := by
  have hgk : (s.dev.fresh.kick k).settle.gkOf k = _ := (Dev.gkOf_settle _ _).trans (s.dev.fresh.gkOf_kick k)
  refine ⟨_, s.cmd_running (fun d => d.kick k) hr, ?_⟩
  dsimp only
  rw [hgk]
  exact ⟨fun h => (of_decide_eq_true (List.mem_filter.mp h).2) rfl, rfl, rfl⟩

/-- A watchdog that has come to its end in a core that runs. -/
structure Dev.wdogDue (d : Dev) (k : Nat) : Prop where
  due : ∃ c, (d.gkOf k).wdogCk = some c ∧ c ≤ d.ck
  runs : d.fld (Pg.gecko k) F.GECKO_STAT_STATE ≠ Gs.reset
  going : d.fld (Pg.gecko k) F.GECKO_STAT_STATE ≠ Gs.stopped

/-- A core in MONITOR leaves it for STOPPED: the count of stopped targets. -/
def Dev.wdogUnmonitor (d : Dev) (k st : Nat) : Dev :=
  if st = Gs.monitor then
    (d.setFld Pg.dbg F.DBG_STAT_STOPPED (d.fld Pg.dbg F.DBG_STAT_STOPPED - 1)).setTfld (192 + k) F.DBG_TGT_STAT_STOPPED 0
  else d

/-- The second expiry without a kick. -/
def Dev.wdogStop (d : Dev) (k : Nat) : Dev :=
  let st := d.fld (Pg.gecko k) F.GECKO_STAT_STATE
  ((((d.setGk k { d.gkOf k with wdogCk := none }).wdogUnmonitor k st).err (Pg.gecko k) 2 0x1403).gkStop k).mailTo (otherCore k) 0xFFFFFFFF#32

theorem Dev.watchdogExpiry_eq {d : Dev} {k : Nat} (h : d.wdogDue k) : d.watchdogExpiry k
    = if (d.gkOf k).wdogOnce then d.wdogStop k else ((d.setGk k { d.gkOf k with wdogOnce := true }).gkRaise k 2).wdogReload k := by
  obtain ⟨c, hc, hle⟩ := h.due
  unfold Dev.watchdogExpiry
  dsimp only
  rw [hc]
  exact if_neg (fun hh => by
    rcases hh with hn | hst | hst
    · exact hn (decide_eq_true hle)
    · exact h.runs hst
    · exact h.going hst)

theorem Dev.wdogDue.begin {d : Dev} {k : Nat} (h : d.wdogDue k) (i : Instr) : (d.begin i).wdogDue k := ⟨h.due, h.runs, h.going⟩

theorem Dev.wdogDue.stops {d : Dev} {k : Nat} (h : d.wdogDue k) (h2 : (d.gkOf k).wdogOnce = true) : d.watchdogExpiry k = d.wdogStop k := by
  rw [Dev.watchdogExpiry_eq h, h2, if_pos rfl]

theorem Dev.gkOf_watchdogExpiry_first {d : Dev} {k : Nat} (h : d.wdogDue k) (h1 : (d.gkOf k).wdogOnce = false) :
    2 ∈ ((d.watchdogExpiry k).gkOf k).srcs ∧ ((d.watchdogExpiry k).gkOf k).wdogOnce = true := by
  rw [Dev.watchdogExpiry_eq h, h1, if_neg Bool.false_ne_true, Dev.gkOf_wdogReload, Dev.gkOf_gkRaise, Dev.gkOf_setGk]
  exact ⟨mem_raised _ _, rfl⟩

theorem otherCore_ne (k : Nat) : otherCore k ≠ k := by
  unfold otherCore
  split <;> omega

theorem Dev.fld_setTfld (d : Dev) (t : Nat) (f : Fld) (v pg : Nat) (g : Fld) : (d.setTfld t f v).fld pg g = d.fld pg g := rfl

theorem Dev.fld_wdogUnmonitor (d : Dev) (k st : Nat) {f : Fld} (hf : f.off < 4096) :
    (d.wdogUnmonitor k st).fld (Pg.gecko k) f = d.fld (Pg.gecko k) f := by
  have hbase : Blk.dbg.base + 0 < Blk.gecko.base := by decide
  unfold Dev.wdogUnmonitor
  split
  · rw [Dev.fld_setTfld]
    refine d.fld_setFld_ne _ _ _ (fun e => ?_)
    have hpg : Blk.dbg.base + 0 = Blk.gecko.base + k := (raddr_inj (by decide) hf e).1
    omega
  · rfl

theorem Dev.fld_setDbg (d : Dev) (t : Nat) (x : DbgSt) (pg : Nat) (f : Fld) : (d.setDbg t x).fld pg f = d.fld pg f := rfl
theorem Dev.fld_dropFetch (d : Dev) (t pg : Nat) (f : Fld) : (d.dropFetch t).fld pg f = d.fld pg f := rfl

theorem Dev.gkState_gkStop (d : Dev) (k : Nat) : (d.gkStop k).fld (Pg.gecko k) F.GECKO_STAT_STATE = Gs.stopped := by
  unfold Dev.gkStop
  dsimp only
  rw [Dev.pend, Dev.fld_pend_off _ _ _ _ (by decide) (by decide), Dev.fld_setDbg, Dev.fld_setFld _ _ _ _ (by decide)]
  rfl

theorem Dev.fld_gkStop (d : Dev) (k : Nat) {f : Fld} (h : f.off ≠ 0xC) (h1 : f.off ≠ 0x010) (h2 : f.off ≠ 0x040) :
    (d.gkStop k).fld (Pg.gecko k) f = d.fld (Pg.gecko k) f := by
  unfold Dev.gkStop
  dsimp only
  rw [Dev.pend, Dev.fld_pend_off _ _ _ _ h1 h2, Dev.fld_setDbg, Dev.fld_setFld_ne _ _ _ _ (raddr_ne (Ne.symm h)), Dev.fld_setEng,
    Dev.fld_dropFetch]

/-- What the second expiry leaves: the core stopped, its error counted, the other core told. -/
theorem Dev.wdogStop_settle (d : Dev) (k : Nat) :
    (d.wdogStop k).settle.fld (Pg.gecko k) F.GECKO_STAT_STATE = Gs.stopped
      ∧ (d.wdogStop k).settle.fld (Pg.gecko k) (F.ERRCNT 2) = min (d.fld (Pg.gecko k) (F.ERRCNT 2) + 1) 0xFFFFFFFF
      ∧ (d.wdogStop k).settle.mailed (otherCore k) 0xFFFFFFFF#32 := by
  refine ⟨?_, ?_, Dev.mailTo_settle_mailed _ _ _⟩
  · rw [Dev.fld_settle_gecko _ _ (by decide), Dev.wdogStop, Dev.fld_mailTo _ _ (otherCore_ne k) (by decide),
      Dev.gkState_gkStop]
  · rw [Dev.fld_settle_gecko _ _ (by decide), Dev.wdogStop, Dev.fld_mailTo _ _ (otherCore_ne k) (by decide),
      Dev.fld_gkStop _ _ (by decide) (by decide) (by decide), Dev.fld_err, Dev.fld_wdogUnmonitor _ _ _ (by decide)]
    rfl

section
variable {s : State} (hr : s.dev.rst = .running) {k : Fin 4} (h : s.dev.wdogDue k)
include hr h

theorem exec_watchdogExpiry_first (h1 : (s.dev.gkOf k).wdogOnce = false) : ∃ t, exec (.watchdogExpiry k) s = .next t
    ∧ 2 ∈ (t.dev.gkOf k).srcs ∧ (t.dev.gkOf k).wdogOnce = true := by
  refine ⟨_, s.run_running (.watchdogExpiry k) (fun d => d.watchdogExpiry k) hr, ?_⟩
  dsimp only
  rw [Dev.gkOf_settle]
  exact Dev.gkOf_watchdogExpiry_first (h.begin _) h1

theorem exec_watchdogExpiry_second (h2 : (s.dev.gkOf k).wdogOnce = true) : ∃ t, exec (.watchdogExpiry k) s = .next t
    ∧ t.dev.fld (Pg.gecko k) F.GECKO_STAT_STATE = Gs.stopped
    ∧ t.dev.fld (Pg.gecko k) (F.ERRCNT 2) = min (s.dev.fld (Pg.gecko k) (F.ERRCNT 2) + 1) 0xFFFFFFFF
    ∧ t.dev.mailed (otherCore k) 0xFFFFFFFF#32 := by
  have hstop := (h.begin (.watchdogExpiry k)).stops h2
  obtain ⟨hst, hcnt, hmail⟩ := (s.dev.begin (.watchdogExpiry k)).wdogStop_settle k
  rw [Dev.fld_begin] at hcnt
  exact ⟨_, (s.run_running (.watchdogExpiry k) (fun d => d.watchdogExpiry k) hr).trans (congrArg s.becomes hstop), hst, hcnt, hmail⟩

end

/-! The timer ends a WFI (R180, R392). -/

theorem exec_timerCompare {s : State} (hr : s.dev.rst = .running) {k : Fin 4} (hst : s.dev.fld (Pg.gecko k) F.GECKO_STAT_STATE = Gs.wfi)
    (hw : (s.dev.engOf (192 + k)).popWait = true) (hd : (s.dev.dbgOf (192 + k)).stop = none) (hg : s.dev.gkWaiting k ≠ 0) :
    ∃ t, exec (.timerCompare k) s = .next t ∧ t.dev.fld (Pg.gecko k) F.GECKO_STAT_STATE = Gs.run ∧ s.dev.engSteps t.dev (coreTarget k) := by
  have hwake : (s.dev.begin (.timerCompare k)).wfiWake k
      = (((s.dev.begin (.timerCompare k)).setEng (coreTarget k) { s.dev.engOf (coreTarget k) with popWait := false }).setFld (Pg.gecko k)
          F.GECKO_STAT_STATE Gs.run).next (coreTarget k) :=
    if_pos ⟨hst, hw, (congrArg Option.isNone hd :), hg⟩
  refine ⟨_, (s.run_running (.timerCompare k) (fun d => d.wfiWake k) hr).trans (congrArg s.becomes hwake),
    Dev.gkState_next_settle _ k (by decide), ?_⟩
  have heng := Dev.engOf_next_settle (((s.dev.begin (.timerCompare k)).setEng (coreTarget k)
    { s.dev.engOf (coreTarget k) with popWait := false }).setFld (Pg.gecko k) F.GECKO_STAT_STATE Gs.run) (coreTarget k)
  rw [Dev.engOf_of_eproj (Dev.eproj_setFld _ _ _ _), Dev.engOf_setEng] at heng
  exact ⟨(congrArg EngSt.n heng :), (congrArg EngSt.p heng :), (congrArg EngSt.pc heng :)⟩

/-! Reset (R394). -/

theorem gkOp_val (k : Fin 4) : gkOp k = k := dif_pos k.isLt

/-- What shows of the write buffer is beside STATE. -/
theorem Dev.gkState_showWbuf (d : Dev) (k : Nat) :
    (d.showWbuf k).fld (Pg.gecko k) F.GECKO_STAT_STATE = d.fld (Pg.gecko k) F.GECKO_STAT_STATE :=
  d.fld_setFld_disj _ _ _ _ rfl (by decide) (by decide)

/-- A core held in reset: nothing of it waits on the agenda, its target and debug state are clear. -/
def Dev.coreCut (d : Dev) (k : Nat) : Dev :=
  let d := d.dropFetch (192 + k)
  let d : Dev := { d with agenda := d.agenda.filter (fun (e : Nat × Instr) => !decide (e.2 = .writeBufferDrain (gkOp k))
                            && !decide (e.2 = .watchdogExpiry (gkOp k)) && !decide (e.2 = .cacheOpDone (gkOp k))) }
  (d.setEng (192 + k) {}).setDbg (192 + k) { d.dbgOf (192 + k) with stop := none, step := 0, caught := false }

theorem Dev.engOf_coreCut (d : Dev) (k : Nat) : (d.coreCut k).engOf (192 + k) = {} := by
  unfold Dev.coreCut
  dsimp only
  rw [Dev.engOf_setDbg, Dev.engOf_setEng]

/-- A core's own state in reset. -/
def GkSt.inReset (x : GkSt) (now : Nat) : GkSt := { entry := x.entry, resetCk := x.entry.map (fun _ => now + 16), bornCk := now }

/-- The block with a core in reset. -/
def Dev.coreIdle (d : Dev) (k : Nat) : Dev :=
  ((((d.coreCut k).setGk k ((d.gkOf k).inReset d.ck)).setFld (Pg.gecko k) F.GECKO_STAT_STATE Gs.reset).setFld (Pg.gecko k)
    F.GECKO_DC_OP_STATUS 0).showWbuf k

theorem Dev.geckoCoreReset_idle {d : Dev} {k : Nat} (h : (d.gkOf k).resetCk = none) (hm : d.inMonitor (192 + k) = false) :
    d.geckoCoreReset k = if (d.gkOf k).entry.isSome then (d.coreIdle k).sched 16 (.geckoCoreReset (gkOp k)) else d.coreIdle k := by
  unfold Dev.geckoCoreReset
  dsimp only
  rw [h, hm, if_neg Bool.false_ne_true]
  rfl

theorem Dev.geckoCoreReset_starts {d : Dev} {k c idx : Nat} (h : (d.gkOf k).resetCk = some c) (he : (d.gkOf k).entry = some idx)
    (hc : c ≤ d.ck) : d.geckoCoreReset k = (d.setGk k { d.gkOf k with resetCk := none }).coreStart k idx := by
  unfold Dev.geckoCoreReset
  dsimp only
  rw [h, he]
  exact if_pos hc

/-- A core in reset, and what of it is clear. -/
structure Dev.coreClear (d : Dev) (k now : Nat) (entry : Option Nat) : Prop where
  state : d.fld (Pg.gecko k) F.GECKO_STAT_STATE = Gs.reset
  eng : d.engOf (192 + k) = {}
  gk : d.gkOf k = { entry := entry, resetCk := entry.map (fun _ => now + 16), bornCk := now }

theorem Dev.coreIdle_clear (d : Dev) (k : Nat) : (d.coreIdle k).coreClear k d.ck (d.gkOf k).entry where
  state := by
    unfold Dev.coreIdle
    rw [Dev.gkState_showWbuf, Dev.fld_setFld_ne _ _ _ _ (raddr_ne (by decide)), Dev.fld_setFld _ _ _ _ (by decide)]
    rfl
  eng := by
    unfold Dev.coreIdle Dev.showWbuf
    rw [Dev.engOf_setFld, Dev.engOf_setFld, Dev.engOf_setFld, Dev.engOf_setGk, Dev.engOf_coreCut]
  gk := by
    unfold Dev.coreIdle Dev.showWbuf
    rw [Dev.gkOf_setFld, Dev.gkOf_setFld, Dev.gkOf_setFld, Dev.gkOf_setGk]
    rfl

theorem Dev.coreClear.sched {d : Dev} {k now : Nat} {entry : Option Nat} (h : d.coreClear k now entry) (n : Nat) (i : Instr) :
    (d.sched n i).coreClear k now entry := ⟨h.state, h.eng, h.gk⟩

theorem Dev.coreClear.settle {d : Dev} {k now : Nat} {entry : Option Nat} (h : d.coreClear k now entry) : d.settle.coreClear k now entry :=
  ⟨(d.fld_settle_gecko k (by decide)).trans h.state, (Dev.engOf_of_eproj (Dev.eproj_settle _) _).trans h.eng, (d.gkOf_settle k).trans h.gk⟩

theorem Dev.coreClear.csr {d : Dev} {k now : Nat} {entry : Option Nat} (h : d.coreClear k now entry) (n : Nat) : d.csr k n = csrReset n := by
  unfold Dev.csr
  rw [h.gk]
  rfl

theorem exec_geckoCoreReset {s : State} (hr : s.dev.rst = .running) {k : Fin 4} (h : (s.dev.gkOf k).resetCk = none)
    (hm : s.dev.inMonitor (192 + k) = false) : ∃ t, exec (.geckoCoreReset k) s = .next t
      ∧ t.dev.coreClear k s.dev.ck (s.dev.gkOf k).entry ∧ ((s.dev.gkOf k).entry ≠ none → t.dev.awaits (.geckoCoreReset k) = true) := by
  have hidle := (s.dev.begin (.geckoCoreReset k)).coreIdle_clear k
  have hrun := s.run_running (.geckoCoreReset k) (fun d => d.geckoCoreReset k) hr
  rw [Dev.geckoCoreReset_idle (d := s.dev.begin (.geckoCoreReset k)) h hm, gkOp_val] at hrun
  cases he : (s.dev.gkOf k).entry with
  | none =>
    refine ⟨_, hrun.trans (congrArg s.becomes (if_neg (by
      rw [show ((s.dev.begin (.geckoCoreReset k)).gkOf k).entry = none from he]
      decide))), ?_, fun hn => absurd rfl hn⟩
    exact he ▸ hidle.settle
  | some idx =>
    refine ⟨_, hrun.trans (congrArg s.becomes (if_pos (congrArg Option.isSome he :))), ?_, fun _ => ?_⟩
    · exact he ▸ (hidle.sched _ _).settle
    · exact (Dev.awaits_settle _ _).trans (Dev.awaits_sched _ _ (decide_eq_true rfl))

/-! The start (R394, R396). -/

/-- A core as its start leaves it. -/
structure Dev.coreStarted (d : Dev) (k idx : Nat) : Prop where
  state : d.fld (Pg.gecko k) F.GECKO_STAT_STATE = Gs.run
  pc : (d.engOf (192 + k)).pc = idx
  regs : ∀ r, (d.engOf (192 + k)).reg r = 0#64
  csr : ∀ n, d.csr k n = csrReset n

/-- The start of a core before its watchdog runs and its first instruction is fetched. -/
def Dev.coreEntered (d : Dev) (k idx : Nat) : Dev :=
  (((d.setEng (192 + k) { pc := idx, nextCk := d.ck }).setGk k { entry := some idx, bornCk := d.ck, wdogCk := (d.gkOf k).wdogCk, srcs := [] }).setFld
    (Pg.gecko k) F.GECKO_STAT_STATE Gs.run).showWbuf k

theorem Dev.coreStart_eq (d : Dev) (k idx : Nat) : d.coreStart k idx = ((d.coreEntered k idx).wdogReload k).fetch (192 + k) := rfl

theorem Dev.engOf_coreEntered (d : Dev) (k idx : Nat) : (d.coreEntered k idx).engOf (192 + k) = { pc := idx, nextCk := d.ck } := by
  unfold Dev.coreEntered Dev.showWbuf
  rw [Dev.engOf_setFld, Dev.engOf_setFld, Dev.engOf_setGk, Dev.engOf_setEng]

theorem Dev.csr_coreEntered (d : Dev) (k idx n : Nat) : (d.coreEntered k idx).csr k n = csrReset n := by
  have hgk : (d.coreEntered k idx).gkOf k = { entry := some idx, bornCk := d.ck, wdogCk := (d.gkOf k).wdogCk, srcs := [] } := by
    unfold Dev.coreEntered Dev.showWbuf
    rw [Dev.gkOf_setFld, Dev.gkOf_setFld, Dev.gkOf_setGk]
  unfold Dev.csr
  rw [hgk]
  rfl

theorem Dev.gkState_coreEntered (d : Dev) (k idx : Nat) : (d.coreEntered k idx).fld (Pg.gecko k) F.GECKO_STAT_STATE = Gs.run := by
  unfold Dev.coreEntered
  rw [Dev.gkState_showWbuf, Dev.fld_setFld _ _ _ _ (by decide)]
  rfl

theorem Dev.coreStart_started (d : Dev) (k idx : Nat) : (d.coreStart k idx).settle.coreStarted k idx := by
  rw [Dev.coreStart_eq]
  have heng : (((d.coreEntered k idx).wdogReload k).fetch (192 + k)).settle.engOf (192 + k) = { pc := idx, nextCk := d.ck } :=
    (Dev.engOf_of_eproj ((Dev.eproj_settle _).trans ((Dev.eproj_fetch _ _).trans (Dev.eproj_wdogReload _ _))) _).trans (d.engOf_coreEntered k idx)
  have hstay := Dev.fetch_coresStay ((d.coreEntered k idx).wdogReload k) (192 + k)
  exact {
    state := by
      rw [Dev.fld_settle_gecko _ _ (by decide), Dev.fld_of_regs (hstay.regs.trans (Dev.regs_wdogReload _ _)), Dev.gkState_coreEntered]
    pc := congrArg EngSt.pc heng
    regs := fun r => by
      rw [heng]
      exact ite_self _
    csr := fun n => by
      rw [Dev.csr_settle, hstay.csr, Dev.csr_of_gk (congrArg GkSt.csr (Dev.gkOf_wdogReload _ _) :), Dev.csr_coreEntered] }

theorem exec_geckoCoreReset_starts {s : State} (hr : s.dev.rst = .running) {k : Fin 4} {c idx : Nat} (h : (s.dev.gkOf k).resetCk = some c)
    (he : (s.dev.gkOf k).entry = some idx) (hc : c ≤ s.dev.ck) :
    ∃ t, exec (.geckoCoreReset k) s = .next t ∧ t.dev.coreStarted k idx :=
  ⟨_, (s.run_running (.geckoCoreReset k) (fun d => d.geckoCoreReset k) hr).trans
    (congrArg s.becomes (Dev.geckoCoreReset_starts (d := s.dev.begin (.geckoCoreReset k)) h he hc)), Dev.coreStart_started _ _ _⟩

/-- Settles O29: each command's effect on its core's own state, read after the block has settled. -/
theorem coreControlCommands : Obligations.CoreControlCommands := by
  refine fun k s hr => ⟨fun v => ?_, fun v n => exec_irqAck hr k v n, exec_kick hr k, fun c hc hle h0 h3 => ?_,
    fun hst hw hd hg => exec_timerCompare hr hst hw hd hg, fun h hm => ?_, fun c idx h he hc => ?_⟩
  · obtain ⟨t, hgo, hmail, hmem⟩ := exec_mboxWrite hr k v
    exact ⟨t, hgo, hmail.val, hmail.src, hmem⟩
  · have hdue : s.dev.wdogDue k := ⟨⟨c, hc, hle⟩, h0, h3⟩
    refine ⟨exec_watchdogExpiry_first hr hdue, fun h2 => ?_⟩
    obtain ⟨t, hgo, hst, hcnt, hmail⟩ := exec_watchdogExpiry_second hr hdue h2
    exact ⟨t, hgo, hst, hcnt, hmail.val, hmail.src⟩
  · obtain ⟨t, hgo, hclear, hawait⟩ := exec_geckoCoreReset hr h hm
    refine ⟨t, hgo, hclear.state, hclear.eng, hclear.csr, by rw [hclear.gk], by rw [hclear.gk], by rw [hclear.gk], fun idx he => ?_⟩
    rw [hclear.gk, he]
    exact ⟨hawait (by simp [he]), rfl⟩
  · obtain ⟨t, hgo, hs⟩ := exec_geckoCoreReset_starts hr h he hc
    exact ⟨t, hgo, hs.state, hs.pc, hs.regs, hs.csr⟩

end Sys2Proof.Machine
end
